-- ==== Sys2Proof/Word.lean ====
section
/-! DEFINITION. The word types of the machine: a byte, a 64-bit scalar word (01 R12), a 512-bit vector or message
word (01 R14), the 16-bit block descriptor (04 R83), and the operand types of instructions and events. -/
namespace Sys2Proof

/-- One byte of memory. -/
abbrev Byte := BitVec 8
/-- A scalar register, a CSR value or a virtual address (R12, R36). -/
abbrev Word := BitVec 64
/-- A vector register, an accumulator row, a message word or a 64-byte block (R14, R22). -/
abbrev Vec := BitVec 512
/-- A block descriptor (R83). -/
abbrev Desc := BitVec 16

/-- The lane width of x2 on integer sub-ops (R68). -/
inductive Width where | w8 | w16 | w32 | w64
  deriving DecidableEq, Repr

/-- The ORD field (R66). -/
inductive Ord where | rlx | acq | rel | sc
  deriving DecidableEq, Repr

/-- The scopes of oscope, atomics and fences (R36, R239). -/
inductive Scope where | thread | core | cluster | die | module | domain
  deriving DecidableEq, Repr

/-- The kinds of FENCE (R156). -/
inductive FenceKind where | ll | ls | ss | full | engine
  deriving DecidableEq, Repr

/-- The x2 field of FP32 sub-ops: fi flushes inputs, fo flushes results (R68, R90). -/
structure Flush where
  fi : Bool
  fo : Bool
  deriving DecidableEq, Repr

/-- The vs1 operand of a vector instruction: a register, or the channel of a channel twin (R72). -/
inductive VSrc where
  | reg (r : BitVec 5)
  | ch (c : BitVec 4)
  deriving DecidableEq, Repr

/-- What a scrub visits (R340): a 64-byte block by its physical address, or an accumulator row of a core. -/
inductive ScrubTarget where
  | block (pa : Nat)
  | row (core row : Nat)
  deriving DecidableEq, Repr

/-- A unit that carries an owner tag (R302): a group of 16 accumulator rows or a frame of 16 KiB of a core. -/
inductive ClaimUnit where
  | rows (core group : Nat)
  | frame (core frame : Nat)
  deriving DecidableEq, Repr

/-- What a debugger's READ and WRITE name (R344): a register, a CSR by its number, or epc. -/
inductive DbgReg where
  | x (n : Nat)
  | v (n : Nat)
  | k (n : Nat)
  | csr (n : Nat)
  deriving DecidableEq, Repr

end Sys2Proof
end

