-- ==== Sys2Proof/Syntax.lean ====
section
/-! DEFINITION. The instruction type: one constructor per row of spec/opcode_table.json. The first 277 rows are the
32-bit instruction words (03 R62 to R75); the last 95 are the events, which have no encoding. Field names follow the
table: d, a, b are the fields rd or vd, rs1 or vs1, rs2 or vs2; m is the mask field m3; c is a channel or a class. -/
namespace Sys2Proof

/-- The instructions and events of the machine, one constructor per row of the table. -/
inductive Instr where
  /-- ADDI (R105). Adds a sign-extended 13-bit immediate to rs1. -/
  | addi (sc : BitVec 2) (imm : BitVec 13) (a d : BitVec 5)
  /-- ANDI (R105). ANDs rs1 with a sign-extended immediate. -/
  | andi (sc : BitVec 2) (imm : BitVec 13) (a d : BitVec 5)
  /-- ORI (R105). ORs rs1 with a sign-extended immediate. -/
  | ori (sc : BitVec 2) (imm : BitVec 13) (a d : BitVec 5)
  /-- XORI (R105). XORs rs1 with a sign-extended immediate. -/
  | xori (sc : BitVec 2) (imm : BitVec 13) (a d : BitVec 5)
  /-- SLTI (R105). Sets rd to 1 when rs1 is below the immediate, signed. -/
  | slti (sc : BitVec 2) (imm : BitVec 13) (a d : BitVec 5)
  /-- SLTIU (R105). Sets rd to 1 when rs1 is below the sign-extended immediate, unsigned. -/
  | sltiu (sc : BitVec 2) (imm : BitVec 13) (a d : BitVec 5)
  /-- SLLI (R106). Shifts rs1 left by an immediate amount. -/
  | slli (sc : BitVec 2) (h : BitVec 6) (a d : BitVec 5)
  /-- SRLI (R106). Shifts rs1 right, unsigned, by an immediate amount. -/
  | srli (sc : BitVec 2) (h : BitVec 6) (a d : BitVec 5)
  /-- SRAI (R106). Shifts rs1 right, signed, by an immediate amount. -/
  | srai (sc : BitVec 2) (h : BitVec 6) (a d : BitVec 5)
  /-- RORI (R106). Rotates rs1 right by an immediate amount. -/
  | rori (sc : BitVec 2) (h : BitVec 6) (a d : BitVec 5)
  /-- LUI (R107). Loads the sign-extended upper immediate into rd. -/
  | lui (imm : BitVec 20) (d : BitVec 5)
  /-- AUIPC (R107). Adds the upper immediate to the instruction address. -/
  | auipc (imm : BitVec 20) (d : BitVec 5)
  /-- ADD (R108). Adds two registers. -/
  | add (sc : BitVec 2) (b a d : BitVec 5)
  /-- SUB (R108). Subtracts rs2 from rs1. -/
  | sub (sc : BitVec 2) (b a d : BitVec 5)
  /-- AND (R108). Bitwise AND of two registers. -/
  | and (sc : BitVec 2) (b a d : BitVec 5)
  /-- OR (R108). Bitwise OR of two registers. -/
  | or (sc : BitVec 2) (b a d : BitVec 5)
  /-- XOR (R108). Bitwise XOR of two registers. -/
  | xor (sc : BitVec 2) (b a d : BitVec 5)
  /-- ANDN (R108). rs1 AND NOT rs2. -/
  | andn (sc : BitVec 2) (b a d : BitVec 5)
  /-- SLL (R108). Shifts rs1 left by rs2[5:0]. -/
  | sll (sc : BitVec 2) (b a d : BitVec 5)
  /-- SRL (R108). Shifts rs1 right, unsigned, by rs2[5:0]. -/
  | srl (sc : BitVec 2) (b a d : BitVec 5)
  /-- SRA (R108). Shifts rs1 right, signed, by rs2[5:0]. -/
  | sra (sc : BitVec 2) (b a d : BitVec 5)
  /-- ROL (R108). Rotates rs1 left by rs2[5:0]. -/
  | rol (sc : BitVec 2) (b a d : BitVec 5)
  /-- ROR (R108). Rotates rs1 right by rs2[5:0]. -/
  | ror (sc : BitVec 2) (b a d : BitVec 5)
  /-- SLT (R108). Signed less-than compare into rd. -/
  | slt (sc : BitVec 2) (b a d : BitVec 5)
  /-- SLTU (R108). Unsigned less-than compare into rd. -/
  | sltu (sc : BitVec 2) (b a d : BitVec 5)
  /-- MIN (R108). Signed minimum of two registers. -/
  | min (sc : BitVec 2) (b a d : BitVec 5)
  /-- MAX (R108). Signed maximum of two registers. -/
  | max (sc : BitVec 2) (b a d : BitVec 5)
  /-- MINU (R108). Unsigned minimum of two registers. -/
  | minu (sc : BitVec 2) (b a d : BitVec 5)
  /-- MAXU (R108). Unsigned maximum of two registers. -/
  | maxu (sc : BitVec 2) (b a d : BitVec 5)
  /-- MUL (R109). Low 64 bits of the product. -/
  | mul (sc : BitVec 2) (b a d : BitVec 5)
  /-- MULH (R109). High 64 bits of the signed product. -/
  | mulh (sc : BitVec 2) (b a d : BitVec 5)
  /-- MULHU (R109). High 64 bits of the unsigned product. -/
  | mulhu (sc : BitVec 2) (b a d : BitVec 5)
  /-- MULHSU (R109). High 64 bits of the signed-by-unsigned product. -/
  | mulhsu (sc : BitVec 2) (b a d : BitVec 5)
  /-- DIV (R110). Signed division, variable latency, no trap. -/
  | div (b a d : BitVec 5)
  /-- DIVU (R110). Unsigned division. -/
  | divu (b a d : BitVec 5)
  /-- REM (R110). Signed remainder. -/
  | rem (b a d : BitVec 5)
  /-- REMU (R110). Unsigned remainder. -/
  | remu (b a d : BitVec 5)
  /-- CLZ (R111). Counts leading zero bits. -/
  | clz (sc : BitVec 2) (a d : BitVec 5)
  /-- CTZ (R111). Counts trailing zero bits. -/
  | ctz (sc : BitVec 2) (a d : BitVec 5)
  /-- POPC (R111). Counts one bits. -/
  | popc (sc : BitVec 2) (a d : BitVec 5)
  /-- BEXT (R111). Extracts the bits of rs1 selected by the mask rs2. -/
  | bext (sc : BitVec 2) (b a d : BitVec 5)
  /-- BDEP (R111). Deposits low bits of rs1 at the set positions of rs2. -/
  | bdep (sc : BitVec 2) (b a d : BitVec 5)
  /-- SEXTB (R111). Sign-extends byte 0. -/
  | sextb (sc : BitVec 2) (a d : BitVec 5)
  /-- SEXTH (R111). Sign-extends the low halfword. -/
  | sexth (sc : BitVec 2) (a d : BitVec 5)
  /-- SEXTW (R111). Sign-extends the low word. -/
  | sextw (sc : BitVec 2) (a d : BitVec 5)
  /-- REV8 (R111). Reverses the byte order. -/
  | rev8 (sc : BitVec 2) (a d : BitVec 5)
  /-- LDB (R151). Loads a sign-extended byte. -/
  | ldb (ord : Ord) (imm : BitVec 13) (a d : BitVec 5)
  /-- LDH (R151). Loads a sign-extended halfword. -/
  | ldh (ord : Ord) (imm : BitVec 13) (a d : BitVec 5)
  /-- LDW (R151). Loads a sign-extended word. -/
  | ldw (ord : Ord) (imm : BitVec 13) (a d : BitVec 5)
  /-- LDD (R151). Loads a doubleword. -/
  | ldd (ord : Ord) (imm : BitVec 13) (a d : BitVec 5)
  /-- LDBU (R151). Loads a zero-extended byte. -/
  | ldbu (ord : Ord) (imm : BitVec 13) (a d : BitVec 5)
  /-- LDHU (R151). Loads a zero-extended halfword. -/
  | ldhu (ord : Ord) (imm : BitVec 13) (a d : BitVec 5)
  /-- LDWU (R151). Loads a zero-extended word. -/
  | ldwu (ord : Ord) (imm : BitVec 13) (a d : BitVec 5)
  /-- STB (R152). Stores a byte. -/
  | stb (ord : Ord) (imm : BitVec 13) (b a : BitVec 5)
  /-- STH (R152). Stores a halfword. -/
  | sth (ord : Ord) (imm : BitVec 13) (b a : BitVec 5)
  /-- STW (R152). Stores a word. -/
  | stw (ord : Ord) (imm : BitVec 13) (b a : BitVec 5)
  /-- STD (R152). Stores a doubleword. -/
  | std (ord : Ord) (imm : BitVec 13) (b a : BitVec 5)
  /-- LDTAG (R155). Reads the descriptor of a 64-byte block. -/
  | ldtag (ord : Ord) (a d : BitVec 5)
  /-- STTAG (R155). Writes the descriptor of a 64-byte block. -/
  | sttag (ord : Ord) (b a : BitVec 5)
  /-- AMOADD (R153). Atomic add at the home. -/
  | amoadd (ord : Ord) (scope : Scope) (w64 : Bool) (b a d : BitVec 5)
  /-- AMOAND (R153). Atomic AND at the home. -/
  | amoand (ord : Ord) (scope : Scope) (w64 : Bool) (b a d : BitVec 5)
  /-- AMOOR (R153). Atomic OR at the home. -/
  | amoor (ord : Ord) (scope : Scope) (w64 : Bool) (b a d : BitVec 5)
  /-- AMOXOR (R153). Atomic XOR at the home. -/
  | amoxor (ord : Ord) (scope : Scope) (w64 : Bool) (b a d : BitVec 5)
  /-- AMOMIN (R153). Atomic signed minimum. -/
  | amomin (ord : Ord) (scope : Scope) (w64 : Bool) (b a d : BitVec 5)
  /-- AMOMAX (R153). Atomic signed maximum. -/
  | amomax (ord : Ord) (scope : Scope) (w64 : Bool) (b a d : BitVec 5)
  /-- AMOMINU (R153). Atomic unsigned minimum. -/
  | amominu (ord : Ord) (scope : Scope) (w64 : Bool) (b a d : BitVec 5)
  /-- AMOMAXU (R153). Atomic unsigned maximum. -/
  | amomaxu (ord : Ord) (scope : Scope) (w64 : Bool) (b a d : BitVec 5)
  /-- AMOSWAP (R153). Atomic swap. -/
  | amoswap (ord : Ord) (scope : Scope) (w64 : Bool) (b a d : BitVec 5)
  /-- CAS_FAIL_RLX (R154). Compare-and-swap whose failure ordering is relaxed. -/
  | casFailRlx (ord : Ord) (scope : Scope) (w64 : Bool) (b a d : BitVec 5)
  /-- CAS_FAIL_ACQ (R154). Compare-and-swap whose failure ordering is acquire. -/
  | casFailAcq (ord : Ord) (scope : Scope) (w64 : Bool) (b a d : BitVec 5)
  /-- CAS_FAIL_SC (R154). Compare-and-swap whose failure ordering is sc. -/
  | casFailSc (ord : Ord) (scope : Scope) (w64 : Bool) (b a d : BitVec 5)
  /-- FENCE (R156). Holds later accesses of a kind until earlier ones in the scope's reach have performed. -/
  | fence (scope : Scope) (kind : FenceKind)
  /-- JALR (R113). Jumps to rs1 plus immediate and links. -/
  | jalr (imm : BitVec 13) (a d : BitVec 5)
  /-- JAL (R112). Jumps by a word offset and links. -/
  | jal (imm : BitVec 20) (d : BitVec 5)
  /-- BEQ (R114). Branches when equal. -/
  | beq (off : BitVec 12) (b a : BitVec 5)
  /-- BNE (R114). Branches when not equal. -/
  | bne (off : BitVec 12) (b a : BitVec 5)
  /-- BLT (R114). Branches when less, signed. -/
  | blt (off : BitVec 12) (b a : BitVec 5)
  /-- BGE (R114). Branches when greater or equal, signed. -/
  | bge (off : BitVec 12) (b a : BitVec 5)
  /-- BLTU (R114). Branches when less, unsigned. -/
  | bltu (off : BitVec 12) (b a : BitVec 5)
  /-- BGEU (R114). Branches when greater or equal, unsigned. -/
  | bgeu (off : BitVec 12) (b a : BitVec 5)
  /-- CSRRW (R116). Reads a CSR and writes the source into it. -/
  | csrrw (sc : BitVec 2) (immSrc : Bool) (csr : BitVec 12) (a d : BitVec 5)
  /-- CSRRS (R116). Reads a CSR and sets the source bits. -/
  | csrrs (sc : BitVec 2) (immSrc : Bool) (csr : BitVec 12) (a d : BitVec 5)
  /-- CSRRC (R116). Reads a CSR and clears the source bits. -/
  | csrrc (sc : BitVec 2) (immSrc : Bool) (csr : BitVec 12) (a d : BitVec 5)
  /-- ECALL (R119). Drains and requests a service from the context's kernel thread. -/
  | ecall
  /-- EBREAK (R120). Halts for a debugger, or is fatal without one. -/
  | ebreak
  /-- TRET (R121). Ends debug execution and resumes the halted activation. -/
  | tret
  /-- HEND (R122). Ends the handler activation after its accesses have performed. -/
  | hend
  /-- VADD (R128). Lane-wise integer add. -/
  | vadd (sc : BitVec 2) (m : BitVec 3) (w : Width) (b a d : BitVec 5)
  /-- VSUB (R128). Lane-wise integer subtract. -/
  | vsub (sc : BitVec 2) (m : BitVec 3) (w : Width) (b a d : BitVec 5)
  /-- VMUL (R128). Lane-wise integer multiply, low half. -/
  | vmul (sc : BitVec 2) (m : BitVec 3) (w : Width) (b a d : BitVec 5)
  /-- VMULH (R128). Lane-wise signed multiply, high half. -/
  | vmulh (sc : BitVec 2) (m : BitVec 3) (w : Width) (b a d : BitVec 5)
  /-- VMIN (R128). Lane-wise signed minimum. -/
  | vmin (sc : BitVec 2) (m : BitVec 3) (w : Width) (b a d : BitVec 5)
  /-- VMAX (R128). Lane-wise signed maximum. -/
  | vmax (sc : BitVec 2) (m : BitVec 3) (w : Width) (b a d : BitVec 5)
  /-- VMINU (R128). Lane-wise unsigned minimum. -/
  | vminu (sc : BitVec 2) (m : BitVec 3) (w : Width) (b a d : BitVec 5)
  /-- VMAXU (R128). Lane-wise unsigned maximum. -/
  | vmaxu (sc : BitVec 2) (m : BitVec 3) (w : Width) (b a d : BitVec 5)
  /-- VAND (R128). Lane-wise AND. -/
  | vand (sc : BitVec 2) (m : BitVec 3) (w : Width) (b a d : BitVec 5)
  /-- VOR (R128). Lane-wise OR. -/
  | vor (sc : BitVec 2) (m : BitVec 3) (w : Width) (b a d : BitVec 5)
  /-- VXOR (R128). Lane-wise XOR. -/
  | vxor (sc : BitVec 2) (m : BitVec 3) (w : Width) (b a d : BitVec 5)
  /-- VANDN (R128). Lane-wise AND NOT. -/
  | vandn (sc : BitVec 2) (m : BitVec 3) (w : Width) (b a d : BitVec 5)
  /-- VSHL (R128). Lane-wise left shift. -/
  | vshl (sc : BitVec 2) (m : BitVec 3) (w : Width) (b a d : BitVec 5)
  /-- VSHR (R128). Lane-wise unsigned right shift. -/
  | vshr (sc : BitVec 2) (m : BitVec 3) (w : Width) (b a d : BitVec 5)
  /-- VSHRA (R128). Lane-wise signed right shift. -/
  | vshra (sc : BitVec 2) (m : BitVec 3) (w : Width) (b a d : BitVec 5)
  /-- VPOPC (R128). Lane-wise population count. -/
  | vpopc (sc : BitVec 2) (m : BitVec 3) (w : Width) (a d : BitVec 5)
  /-- VFADD (R129). Lane-wise FP32 add. -/
  | vfadd (sc : BitVec 2) (m : BitVec 3) (f : Flush) (b a d : BitVec 5)
  /-- VFSUB (R129). Lane-wise FP32 subtract. -/
  | vfsub (sc : BitVec 2) (m : BitVec 3) (f : Flush) (b a d : BitVec 5)
  /-- VFMUL (R129). Lane-wise FP32 multiply. -/
  | vfmul (sc : BitVec 2) (m : BitVec 3) (f : Flush) (b a d : BitVec 5)
  /-- VFDIV (R129). Lane-wise FP32 divide, variable latency. -/
  | vfdiv (m : BitVec 3) (f : Flush) (b a d : BitVec 5)
  /-- VFMIN (R129). Lane-wise FP32 minimumNumber. -/
  | vfmin (sc : BitVec 2) (m : BitVec 3) (f : Flush) (b a d : BitVec 5)
  /-- VFMAX (R129). Lane-wise FP32 maximumNumber. -/
  | vfmax (sc : BitVec 2) (m : BitVec 3) (f : Flush) (b a d : BitVec 5)
  /-- VFSQRT (R129). Lane-wise FP32 square root. -/
  | vfsqrt (sc : BitVec 2) (m : BitVec 3) (f : Flush) (a d : BitVec 5)
  /-- VFABS (R129). Clears the FP32 sign bit of each lane. -/
  | vfabs (sc : BitVec 2) (m : BitVec 3) (a d : BitVec 5)
  /-- VFMA (R130). Fused a×b+c. -/
  | vfma (sc : BitVec 2) (m : BitVec 3) (f : Flush) (b a d : BitVec 5)
  /-- VFMS (R130). Fused a×b−c. -/
  | vfms (sc : BitVec 2) (m : BitVec 3) (f : Flush) (b a d : BitVec 5)
  /-- VFNMA (R130). Fused −(a×b)−c. -/
  | vfnma (sc : BitVec 2) (m : BitVec 3) (f : Flush) (b a d : BitVec 5)
  /-- VFNMS (R130). Fused −(a×b)+c. -/
  | vfnms (sc : BitVec 2) (m : BitVec 3) (f : Flush) (b a d : BitVec 5)
  /-- VCMPEQ (R131). Integer equal compare into a mask. -/
  | vcmpeq (sc : BitVec 2) (m : BitVec 3) (w : Width) (b a : BitVec 5) (d : BitVec 3)
  /-- VCMPNE (R131). Integer not-equal compare into a mask. -/
  | vcmpne (sc : BitVec 2) (m : BitVec 3) (w : Width) (b a : BitVec 5) (d : BitVec 3)
  /-- VCMPLT (R131). Signed less-than compare into a mask. -/
  | vcmplt (sc : BitVec 2) (m : BitVec 3) (w : Width) (b a : BitVec 5) (d : BitVec 3)
  /-- VCMPLE (R131). Signed less-or-equal compare into a mask. -/
  | vcmple (sc : BitVec 2) (m : BitVec 3) (w : Width) (b a : BitVec 5) (d : BitVec 3)
  /-- VCMPLTU (R131). Unsigned less-than compare into a mask. -/
  | vcmpltu (sc : BitVec 2) (m : BitVec 3) (w : Width) (b a : BitVec 5) (d : BitVec 3)
  /-- VCMPLEU (R131). Unsigned less-or-equal compare into a mask. -/
  | vcmpleu (sc : BitVec 2) (m : BitVec 3) (w : Width) (b a : BitVec 5) (d : BitVec 3)
  /-- VFCMPEQ (R131). FP32 equal compare into a mask. -/
  | vfcmpeq (sc : BitVec 2) (m : BitVec 3) (fi : Bool) (b a : BitVec 5) (d : BitVec 3)
  /-- VFCMPLT (R131). FP32 less-than compare into a mask. -/
  | vfcmplt (sc : BitVec 2) (m : BitVec 3) (fi : Bool) (b a : BitVec 5) (d : BitVec 3)
  /-- VFCMPLE (R131). FP32 less-or-equal compare into a mask. -/
  | vfcmple (sc : BitVec 2) (m : BitVec 3) (fi : Bool) (b a : BitVec 5) (d : BitVec 3)
  /-- VFCMPUN (R131). FP32 unordered compare into a mask. -/
  | vfcmpun (sc : BitVec 2) (m : BitVec 3) (fi : Bool) (b a : BitVec 5) (d : BitVec 3)
  /-- VBOOL3 (R132). Applies a three-input truth table at each of 512 bits. -/
  | vbool3 (sc : BitVec 2) (t : BitVec 8) (b a d : BitVec 5)
  /-- VFSHL (R133). Funnel shift left on 64-bit lanes. -/
  | vfshl (sc : BitVec 2) (h : BitVec 6) (b a d : BitVec 5)
  /-- VFSHR (R133). Funnel shift right on 64-bit lanes. -/
  | vfshr (sc : BitVec 2) (h : BitVec 6) (b a d : BitVec 5)
  /-- VROTL (R133). Rotates 64-bit lanes left. -/
  | vrotl (sc : BitVec 2) (h : BitVec 6) (a d : BitVec 5)
  /-- VROTR (R133). Rotates 64-bit lanes right. -/
  | vrotr (sc : BitVec 2) (h : BitVec 6) (a d : BitVec 5)
  /-- VREDSUM (R134). Integer sum of active lanes into lane 0. -/
  | vredsum (sc : BitVec 2) (m : BitVec 3) (w : Width) (a d : BitVec 5)
  /-- VREDMIN (R134). Signed minimum of active lanes into lane 0. -/
  | vredmin (sc : BitVec 2) (m : BitVec 3) (w : Width) (a d : BitVec 5)
  /-- VREDMAX (R134). Signed maximum of active lanes into lane 0. -/
  | vredmax (sc : BitVec 2) (m : BitVec 3) (w : Width) (a d : BitVec 5)
  /-- VFREDSUM (R134). Ordered FP32 sum into lane 0. -/
  | vfredsum (sc : BitVec 2) (m : BitVec 3) (f : Flush) (a d : BitVec 5)
  /-- VFREDMIN (R134). FP32 minimum reduction into lane 0. -/
  | vfredmin (sc : BitVec 2) (m : BitVec 3) (f : Flush) (a d : BitVec 5)
  /-- VFREDMAX (R134). FP32 maximum reduction into lane 0. -/
  | vfredmax (sc : BitVec 2) (m : BitVec 3) (f : Flush) (a d : BitVec 5)
  /-- VSCAN (R135). Inclusive integer prefix sum. -/
  | vscan (sc : BitVec 2) (m : BitVec 3) (w : Width) (a d : BitVec 5)
  /-- VFSCAN (R135). Inclusive FP32 prefix sum. -/
  | vfscan (sc : BitVec 2) (m : BitVec 3) (f : Flush) (a d : BitVec 5)
  /-- VPERM (R136). Permutes lanes by an index vector. -/
  | vperm (sc : BitVec 2) (m : BitVec 3) (w : Width) (b a d : BitVec 5)
  /-- VSLIDEUP (R136). Slides lanes up by an x-register count. -/
  | vslideup (sc : BitVec 2) (m : BitVec 3) (w : Width) (b a d : BitVec 5)
  /-- VSLIDEDN (R136). Slides lanes down by an x-register count. -/
  | vslidedn (sc : BitVec 2) (m : BitVec 3) (w : Width) (b a d : BitVec 5)
  /-- VBCAST (R136). Broadcasts one lane selected by an x register. -/
  | vbcast (sc : BitVec 2) (m : BitVec 3) (w : Width) (b a d : BitVec 5)
  /-- VCOMPRESS (R136). Packs active lanes to the bottom. -/
  | vcompress (sc : BitVec 2) (m : BitVec 3) (w : Width) (a d : BitVec 5)
  /-- VEXPAND (R136). Spreads low lanes into active lanes. -/
  | vexpand (sc : BitVec 2) (m : BitVec 3) (w : Width) (a d : BitVec 5)
  /-- VSEL (R136). Selects lanes of two sources by mask. -/
  | vsel (sc : BitVec 2) (m : BitVec 3) (w : Width) (b a d : BitVec 5)
  /-- VMV (R136). Copies active lanes. -/
  | vmv (sc : BitVec 2) (m : BitVec 3) (w : Width) (a d : BitVec 5)
  /-- VMRGU (R138). Merges two ascending index lists into their union with origins and status. -/
  | vmrgu (m : BitVec 3) (w : Width) (b a d : BitVec 5)
  /-- VMRGI (R138). Merges two ascending index lists into their intersection. -/
  | vmrgi (m : BitVec 3) (w : Width) (b a d : BitVec 5)
  /-- VADD_CH (R146). VADD with vs1 popped from a channel. -/
  | vaddCh (sc : BitVec 2) (m : BitVec 3) (w : Width) (b : BitVec 5) (c : BitVec 4) (d : BitVec 5)
  /-- VSUB_CH (R146). VSUB with vs1 popped from a channel. -/
  | vsubCh (sc : BitVec 2) (m : BitVec 3) (w : Width) (b : BitVec 5) (c : BitVec 4) (d : BitVec 5)
  /-- VMUL_CH (R146). VMUL with vs1 popped from a channel. -/
  | vmulCh (sc : BitVec 2) (m : BitVec 3) (w : Width) (b : BitVec 5) (c : BitVec 4) (d : BitVec 5)
  /-- VMULH_CH (R146). VMULH with vs1 popped from a channel. -/
  | vmulhCh (sc : BitVec 2) (m : BitVec 3) (w : Width) (b : BitVec 5) (c : BitVec 4) (d : BitVec 5)
  /-- VMIN_CH (R146). VMIN with vs1 popped from a channel. -/
  | vminCh (sc : BitVec 2) (m : BitVec 3) (w : Width) (b : BitVec 5) (c : BitVec 4) (d : BitVec 5)
  /-- VMAX_CH (R146). VMAX with vs1 popped from a channel. -/
  | vmaxCh (sc : BitVec 2) (m : BitVec 3) (w : Width) (b : BitVec 5) (c : BitVec 4) (d : BitVec 5)
  /-- VMINU_CH (R146). VMINU with vs1 popped from a channel. -/
  | vminuCh (sc : BitVec 2) (m : BitVec 3) (w : Width) (b : BitVec 5) (c : BitVec 4) (d : BitVec 5)
  /-- VMAXU_CH (R146). VMAXU with vs1 popped from a channel. -/
  | vmaxuCh (sc : BitVec 2) (m : BitVec 3) (w : Width) (b : BitVec 5) (c : BitVec 4) (d : BitVec 5)
  /-- VAND_CH (R146). VAND with vs1 popped from a channel. -/
  | vandCh (sc : BitVec 2) (m : BitVec 3) (w : Width) (b : BitVec 5) (c : BitVec 4) (d : BitVec 5)
  /-- VOR_CH (R146). VOR with vs1 popped from a channel. -/
  | vorCh (sc : BitVec 2) (m : BitVec 3) (w : Width) (b : BitVec 5) (c : BitVec 4) (d : BitVec 5)
  /-- VXOR_CH (R146). VXOR with vs1 popped from a channel. -/
  | vxorCh (sc : BitVec 2) (m : BitVec 3) (w : Width) (b : BitVec 5) (c : BitVec 4) (d : BitVec 5)
  /-- VANDN_CH (R146). VANDN with vs1 popped from a channel. -/
  | vandnCh (sc : BitVec 2) (m : BitVec 3) (w : Width) (b : BitVec 5) (c : BitVec 4) (d : BitVec 5)
  /-- VSHL_CH (R146). VSHL with vs1 popped from a channel. -/
  | vshlCh (sc : BitVec 2) (m : BitVec 3) (w : Width) (b : BitVec 5) (c : BitVec 4) (d : BitVec 5)
  /-- VSHR_CH (R146). VSHR with vs1 popped from a channel. -/
  | vshrCh (sc : BitVec 2) (m : BitVec 3) (w : Width) (b : BitVec 5) (c : BitVec 4) (d : BitVec 5)
  /-- VSHRA_CH (R146). VSHRA with vs1 popped from a channel. -/
  | vshraCh (sc : BitVec 2) (m : BitVec 3) (w : Width) (b : BitVec 5) (c : BitVec 4) (d : BitVec 5)
  /-- VPOPC_CH (R146). VPOPC with vs1 popped from a channel. -/
  | vpopcCh (sc : BitVec 2) (m : BitVec 3) (w : Width) (c : BitVec 4) (d : BitVec 5)
  /-- VFADD_CH (R146). VFADD with vs1 popped from a channel. -/
  | vfaddCh (sc : BitVec 2) (m : BitVec 3) (f : Flush) (b : BitVec 5) (c : BitVec 4) (d : BitVec 5)
  /-- VFSUB_CH (R146). VFSUB with vs1 popped from a channel. -/
  | vfsubCh (sc : BitVec 2) (m : BitVec 3) (f : Flush) (b : BitVec 5) (c : BitVec 4) (d : BitVec 5)
  /-- VFMUL_CH (R146). VFMUL with vs1 popped from a channel. -/
  | vfmulCh (sc : BitVec 2) (m : BitVec 3) (f : Flush) (b : BitVec 5) (c : BitVec 4) (d : BitVec 5)
  /-- VFDIV_CH (R146). VFDIV with vs1 popped from a channel. -/
  | vfdivCh (m : BitVec 3) (f : Flush) (b : BitVec 5) (c : BitVec 4) (d : BitVec 5)
  /-- VFMIN_CH (R146). VFMIN with vs1 popped from a channel. -/
  | vfminCh (sc : BitVec 2) (m : BitVec 3) (f : Flush) (b : BitVec 5) (c : BitVec 4) (d : BitVec 5)
  /-- VFMAX_CH (R146). VFMAX with vs1 popped from a channel. -/
  | vfmaxCh (sc : BitVec 2) (m : BitVec 3) (f : Flush) (b : BitVec 5) (c : BitVec 4) (d : BitVec 5)
  /-- VFSQRT_CH (R146). VFSQRT with vs1 popped from a channel. -/
  | vfsqrtCh (sc : BitVec 2) (m : BitVec 3) (f : Flush) (c : BitVec 4) (d : BitVec 5)
  /-- VFABS_CH (R146). VFABS with vs1 popped from a channel. -/
  | vfabsCh (sc : BitVec 2) (m : BitVec 3) (c : BitVec 4) (d : BitVec 5)
  /-- VFMA_CH (R146). VFMA with vs1 popped from a channel. -/
  | vfmaCh (sc : BitVec 2) (m : BitVec 3) (f : Flush) (b : BitVec 5) (c : BitVec 4) (d : BitVec 5)
  /-- VFMS_CH (R146). VFMS with vs1 popped from a channel. -/
  | vfmsCh (sc : BitVec 2) (m : BitVec 3) (f : Flush) (b : BitVec 5) (c : BitVec 4) (d : BitVec 5)
  /-- VFNMA_CH (R146). VFNMA with vs1 popped from a channel. -/
  | vfnmaCh (sc : BitVec 2) (m : BitVec 3) (f : Flush) (b : BitVec 5) (c : BitVec 4) (d : BitVec 5)
  /-- VFNMS_CH (R146). VFNMS with vs1 popped from a channel. -/
  | vfnmsCh (sc : BitVec 2) (m : BitVec 3) (f : Flush) (b : BitVec 5) (c : BitVec 4) (d : BitVec 5)
  /-- VCMPEQ_CH (R146). VCMPEQ with vs1 popped from a channel. -/
  | vcmpeqCh (sc : BitVec 2) (m : BitVec 3) (w : Width) (b : BitVec 5) (c : BitVec 4) (d : BitVec 3)
  /-- VCMPNE_CH (R146). VCMPNE with vs1 popped from a channel. -/
  | vcmpneCh (sc : BitVec 2) (m : BitVec 3) (w : Width) (b : BitVec 5) (c : BitVec 4) (d : BitVec 3)
  /-- VCMPLT_CH (R146). VCMPLT with vs1 popped from a channel. -/
  | vcmpltCh (sc : BitVec 2) (m : BitVec 3) (w : Width) (b : BitVec 5) (c : BitVec 4) (d : BitVec 3)
  /-- VCMPLE_CH (R146). VCMPLE with vs1 popped from a channel. -/
  | vcmpleCh (sc : BitVec 2) (m : BitVec 3) (w : Width) (b : BitVec 5) (c : BitVec 4) (d : BitVec 3)
  /-- VCMPLTU_CH (R146). VCMPLTU with vs1 popped from a channel. -/
  | vcmpltuCh (sc : BitVec 2) (m : BitVec 3) (w : Width) (b : BitVec 5) (c : BitVec 4) (d : BitVec 3)
  /-- VCMPLEU_CH (R146). VCMPLEU with vs1 popped from a channel. -/
  | vcmpleuCh (sc : BitVec 2) (m : BitVec 3) (w : Width) (b : BitVec 5) (c : BitVec 4) (d : BitVec 3)
  /-- VFCMPEQ_CH (R146). VFCMPEQ with vs1 popped from a channel. -/
  | vfcmpeqCh (sc : BitVec 2) (m : BitVec 3) (fi : Bool) (b : BitVec 5) (c : BitVec 4) (d : BitVec 3)
  /-- VFCMPLT_CH (R146). VFCMPLT with vs1 popped from a channel. -/
  | vfcmpltCh (sc : BitVec 2) (m : BitVec 3) (fi : Bool) (b : BitVec 5) (c : BitVec 4) (d : BitVec 3)
  /-- VFCMPLE_CH (R146). VFCMPLE with vs1 popped from a channel. -/
  | vfcmpleCh (sc : BitVec 2) (m : BitVec 3) (fi : Bool) (b : BitVec 5) (c : BitVec 4) (d : BitVec 3)
  /-- VFCMPUN_CH (R146). VFCMPUN with vs1 popped from a channel. -/
  | vfcmpunCh (sc : BitVec 2) (m : BitVec 3) (fi : Bool) (b : BitVec 5) (c : BitVec 4) (d : BitVec 3)
  /-- VBOOL3_CH (R146). VBOOL3 with vs1 popped from a channel. -/
  | vbool3Ch (sc : BitVec 2) (t : BitVec 8) (b : BitVec 5) (c : BitVec 4) (d : BitVec 5)
  /-- VFSHL_CH (R146). VFSHL with vs1 popped from a channel. -/
  | vfshlCh (sc : BitVec 2) (h : BitVec 6) (b : BitVec 5) (c : BitVec 4) (d : BitVec 5)
  /-- VFSHR_CH (R146). VFSHR with vs1 popped from a channel. -/
  | vfshrCh (sc : BitVec 2) (h : BitVec 6) (b : BitVec 5) (c : BitVec 4) (d : BitVec 5)
  /-- VROTL_CH (R146). VROTL with vs1 popped from a channel. -/
  | vrotlCh (sc : BitVec 2) (h : BitVec 6) (c : BitVec 4) (d : BitVec 5)
  /-- VROTR_CH (R146). VROTR with vs1 popped from a channel. -/
  | vrotrCh (sc : BitVec 2) (h : BitVec 6) (c : BitVec 4) (d : BitVec 5)
  /-- VREDSUM_CH (R146). VREDSUM with vs1 popped from a channel. -/
  | vredsumCh (sc : BitVec 2) (m : BitVec 3) (w : Width) (c : BitVec 4) (d : BitVec 5)
  /-- VREDMIN_CH (R146). VREDMIN with vs1 popped from a channel. -/
  | vredminCh (sc : BitVec 2) (m : BitVec 3) (w : Width) (c : BitVec 4) (d : BitVec 5)
  /-- VREDMAX_CH (R146). VREDMAX with vs1 popped from a channel. -/
  | vredmaxCh (sc : BitVec 2) (m : BitVec 3) (w : Width) (c : BitVec 4) (d : BitVec 5)
  /-- VFREDSUM_CH (R146). VFREDSUM with vs1 popped from a channel. -/
  | vfredsumCh (sc : BitVec 2) (m : BitVec 3) (f : Flush) (c : BitVec 4) (d : BitVec 5)
  /-- VFREDMIN_CH (R146). VFREDMIN with vs1 popped from a channel. -/
  | vfredminCh (sc : BitVec 2) (m : BitVec 3) (f : Flush) (c : BitVec 4) (d : BitVec 5)
  /-- VFREDMAX_CH (R146). VFREDMAX with vs1 popped from a channel. -/
  | vfredmaxCh (sc : BitVec 2) (m : BitVec 3) (f : Flush) (c : BitVec 4) (d : BitVec 5)
  /-- VSCAN_CH (R146). VSCAN with vs1 popped from a channel. -/
  | vscanCh (sc : BitVec 2) (m : BitVec 3) (w : Width) (c : BitVec 4) (d : BitVec 5)
  /-- VFSCAN_CH (R146). VFSCAN with vs1 popped from a channel. -/
  | vfscanCh (sc : BitVec 2) (m : BitVec 3) (f : Flush) (c : BitVec 4) (d : BitVec 5)
  /-- VPERM_CH (R146). VPERM with vs1 popped from a channel. -/
  | vpermCh (sc : BitVec 2) (m : BitVec 3) (w : Width) (b : BitVec 5) (c : BitVec 4) (d : BitVec 5)
  /-- VSLIDEUP_CH (R146). VSLIDEUP with vs1 popped from a channel. -/
  | vslideupCh (sc : BitVec 2) (m : BitVec 3) (w : Width) (b : BitVec 5) (c : BitVec 4) (d : BitVec 5)
  /-- VSLIDEDN_CH (R146). VSLIDEDN with vs1 popped from a channel. -/
  | vslidednCh (sc : BitVec 2) (m : BitVec 3) (w : Width) (b : BitVec 5) (c : BitVec 4) (d : BitVec 5)
  /-- VBCAST_CH (R146). VBCAST with vs1 popped from a channel. -/
  | vbcastCh (sc : BitVec 2) (m : BitVec 3) (w : Width) (b : BitVec 5) (c : BitVec 4) (d : BitVec 5)
  /-- VCOMPRESS_CH (R146). VCOMPRESS with vs1 popped from a channel. -/
  | vcompressCh (sc : BitVec 2) (m : BitVec 3) (w : Width) (c : BitVec 4) (d : BitVec 5)
  /-- VEXPAND_CH (R146). VEXPAND with vs1 popped from a channel. -/
  | vexpandCh (sc : BitVec 2) (m : BitVec 3) (w : Width) (c : BitVec 4) (d : BitVec 5)
  /-- VSEL_CH (R146). VSEL with vs1 popped from a channel. -/
  | vselCh (sc : BitVec 2) (m : BitVec 3) (w : Width) (b : BitVec 5) (c : BitVec 4) (d : BitVec 5)
  /-- VMV_CH (R146). VMV with vs1 popped from a channel. -/
  | vmvCh (sc : BitVec 2) (m : BitVec 3) (w : Width) (c : BitVec 4) (d : BitVec 5)
  /-- VMRGU_CH (R146). VMRGU with vs1 popped from a channel. -/
  | vmrguCh (m : BitVec 3) (w : Width) (b : BitVec 5) (c : BitVec 4) (d : BitVec 5)
  /-- VMRGI_CH (R146). VMRGI with vs1 popped from a channel. -/
  | vmrgiCh (m : BitVec 3) (w : Width) (b : BitVec 5) (c : BitVec 4) (d : BitVec 5)
  /-- VCVT (R139). Converts each active lane by a conversion code. -/
  | vcvt (sc : BitVec 2) (m : BitVec 3) (w : Width) (k a d : BitVec 5)
  /-- VTBDEC (R141). Decodes elements of a typed block into FP lanes. -/
  | vtbdec (sc : BitVec 2) (m : BitVec 3) (w : Width) (b a d : BitVec 5)
  /-- VTBENC (R142). Encodes FP lanes into elements of a typed block image. -/
  | vtbenc (sc : BitVec 2) (m : BitVec 3) (w : Width) (b a d : BitVec 5)
  /-- VLD (R157). Loads a group of vector registers. -/
  | vld (ord : Ord) (m : BitVec 3) (w : Width) (g : BitVec 2) (off a d : BitVec 5)
  /-- VST (R157). Stores a group of vector registers. -/
  | vst (ord : Ord) (m : BitVec 3) (w : Width) (g : BitVec 2) (off a d : BitVec 5)
  /-- VLDS (R158). Strided vector load, lane by lane. -/
  | vlds (ord : Ord) (m : BitVec 3) (w : Width) (b a d : BitVec 5)
  /-- VSTS (R158). Strided vector store, lane by lane. -/
  | vsts (ord : Ord) (m : BitVec 3) (w : Width) (b a d : BitVec 5)
  /-- VLDX (R158). Indexed vector load. -/
  | vldx (ord : Ord) (m : BitVec 3) (w : Width) (b a d : BitVec 5)
  /-- VSTX (R158). Indexed vector store. -/
  | vstx (ord : Ord) (m : BitVec 3) (w : Width) (b a d : BitVec 5)
  /-- VLDT (R159). Loads a square tile transposed. -/
  | vldt (ord : Ord) (m : BitVec 3) (w : Width) (b a d : BitVec 5)
  /-- VPARK (R162). Claims free accumulator rows and parks vector registers there. -/
  | vpark (b a d : BitVec 5)
  /-- VUNPARK (R162). Restores parked rows into vector registers and frees them. -/
  | vunpark (b a d : BitVec 5)
  /-- VMVX (R143). Moves an x register into lane 0 of a vector register. -/
  | vmvx (sc : BitVec 2) (m : BitVec 3) (w : Width) (a d : BitVec 5)
  /-- VMVXV (R143). Moves lane 0 of a vector register into an x register. -/
  | vmvxv (sc : BitVec 2) (w : Width) (a d : BitVec 5)
  /-- KAND (R144). ANDs two masks. -/
  | kand (sc : BitVec 2) (b a d : BitVec 3)
  /-- KOR (R144). ORs two masks. -/
  | kor (sc : BitVec 2) (b a d : BitVec 3)
  /-- KXOR (R144). XORs two masks. -/
  | kxor (sc : BitVec 2) (b a d : BitVec 3)
  /-- KANDN (R144). Mask AND NOT. -/
  | kandn (sc : BitVec 2) (b a d : BitVec 3)
  /-- KNOT (R144). Complements a mask. -/
  | knot (sc : BitVec 2) (a d : BitVec 3)
  /-- KMV_K_TO_X (R145). Copies a mask into an x register. -/
  | kmvKToX (sc : BitVec 2) (a : BitVec 3) (d : BitVec 5)
  /-- KMV_X_TO_K (R145). Copies an x register into a mask. -/
  | kmvXToK (sc : BitVec 2) (a : BitVec 5) (d : BitVec 3)
  /-- KPOPC (R145). Counts the one bits of a mask. -/
  | kpopc (sc : BitVec 2) (a : BitVec 3) (d : BitVec 5)
  /-- KFIRST (R145). Index of the lowest set bit of a mask. -/
  | kfirst (sc : BitVec 2) (a : BitVec 3) (d : BitVec 5)
  /-- MZERO (R206). Zeroes a range of accumulator rows. -/
  | mzero (b a : BitVec 5)
  /-- MRDV (R206). Reads an accumulator row into a vector register. -/
  | mrdv (a d : BitVec 5)
  /-- MWRV (R206). Writes a vector register into an accumulator row. -/
  | mwrv (b a : BitVec 5)
  /-- MMAC (R207). Adds A·Bᵀ from memory blocks into an accumulator tile. -/
  | mmac (f : BitVec 3) (sat : Bool) (b a d : BitVec 5)
  /-- MBIN (R208). Adds binary XOR or AND popcounts into an INT32 tile. -/
  | mbin (p sat : Bool) (b a d : BitVec 5)
  /-- MSTORE (R209). Stores an accumulator tile to memory with conversion. -/
  | mstore (ord : Ord) (k : BitVec 2) (f : BitVec 3) (b a : BitVec 5)
  /-- MLOAD (R209). Loads a tile from memory into accumulator rows. -/
  | mload (ord : Ord) (k : BitVec 2) (f : BitVec 3) (b a : BitVec 5)
  /-- MSWAP (R211). Exchanges a slice range with the mirror core. -/
  | mswap (b a d : BitVec 5)
  /-- CPY (R165). Hands a copy job card to the copy engine. -/
  | cpy (a : BitVec 5)
  /-- GATH (R166). Hands a gather job card to the engine. -/
  | gath (a : BitVec 5)
  /-- SCAT (R167). Hands a scatter job card to the engine. -/
  | scat (a : BitVec 5)
  /-- QMUL (R218). Starts a quadtree product job. -/
  | qmul (b a d : BitVec 5)
  /-- QADD (R218). Starts a quadtree sum job. -/
  | qadd (b a d : BitVec 5)
  /-- QRESUME (R231). Resumes a suspended quadtree job from its card. -/
  | qresume (a : BitVec 5)
  /-- QCANCEL (R234). Cancels a running or suspended quadtree job. -/
  | qcancel (a d : BitVec 5)
  /-- QSTAT (R233). Returns the state of a quadtree job. -/
  | qstat (a d : BitVec 5)
  /-- QPOOL (R232). Raises the limit of a job's node or data pool. -/
  | qpool (p : Bool) (b a d : BitVec 5)
  /-- WTAGANY (R171). Waits until some tag of the set is done or none is busy. -/
  | wtagany (a d : BitVec 5)
  /-- WTAGALL (R171). Waits until no tag of the set is busy. -/
  | wtagall (a d : BitVec 5)
  /-- FTAG (R171). Reads and clears done tags of the set. -/
  | ftag (a d : BitVec 5)
  /-- SEND (R178). Buffers a message of vector registers to an endpoint. -/
  | send (n : BitVec 2) (c : BitVec 3) (b a : BitVec 5)
  /-- SENDX (R178). Buffers a message read from memory to an endpoint. -/
  | sendx (n : BitVec 2) (c : BitVec 3) (b a : BitVec 5)
  /-- SENDR (R179). Buffers a reduction payload to a reduction cell. -/
  | sendr (c : BitVec 3) (b a : BitVec 5)
  /-- GSEND (R180). Buffers a message to every member of a group. -/
  | gsend (n : BitVec 2) (c : BitVec 3) (b a : BitVec 5)
  /-- HTSET (R182). Writes a handler-table entry of the running actor. -/
  | htset (b a : BitVec 5)
  /-- HTGET (R182). Reads a handler-table entry. -/
  | htget (a d : BitVec 5)
  /-- HTCLR (R182). Unbinds a handler-table entry. -/
  | htclr (a : BitVec 5)
  /-- CHMSK (R184). Masks message classes at the core. -/
  | chmsk (a d : BitVec 5)
  /-- CHUNM (R184). Unmasks message classes at the core. -/
  | chunm (a d : BitVec 5)
  /-- MPEEK (R185). Reads a channel word without popping it. -/
  | mpeek (a d : BitVec 5)
  /-- MDROP (R185). Consumes the message at a channel's pop position unread. -/
  | mdrop (a : BitVec 5)
  /-- JOIN (R188). Adds the running actor to a group at its home. -/
  | join (a d : BitVec 5)
  /-- LEAVE (R188). Removes the running actor from a group. -/
  | leave (a d : BitVec 5)
  /-- GBAR (R190). Buffers a barrier arrival. -/
  | gbar (a : BitVec 5)
  /-- XRED (R191). Buffers a reduction-collective contribution. -/
  | xred (b a : BitVec 5)
  /-- XBCAST (R192). Buffers a broadcast-collective arrival. -/
  | xbcast (b a : BitVec 5)
  /-- ACTNEW (R193). Creates an actor from a 64-byte record. -/
  | actnew (a d : BitVec 5)
  /-- ACTEND (R194). Ends the running actor at the end of commit. -/
  | actend
  /-- QPUSH (R195). Buffers a task push, or closes the die's queues. -/
  | qpush (b a : BitVec 5)
  /-- QPOP (R196). Takes the oldest task without waiting. -/
  | qpop (b d : BitVec 5)
  /-- TARM (R198). Arms a task control block with a count. -/
  | tarm (b a : BitVec 5)
  /-- TDONE (R199). Finishes a task and decrements its successors at commit. -/
  | tdone (a : BitVec 5)
  /-- EGPOST (R201). Buffers a post of an entry to an egress queue. -/
  | egpost (b a : BitVec 5)
  /-- EGREL (R201). Buffers a release mark for an egress stream. -/
  | egrel (a : BitVec 5)
  /-- EGDROP (R201). Buffers a drop mark for an egress stream. -/
  | egdrop (a : BitVec 5)
  /-- BUDGET (R37). The handler budget reaches 0 before HEND and the activation traps BUDGET. -/
  | evBudget (c : Nat) (sl : Fin 4)
  /-- DISPATCH (R289). A free slot selects and starts a message, task or leaf-task activation. -/
  | evDispatch (c : Nat) (sl : Fin 4)
  /-- DRAW_COMPLETE (R292). A task draw from cluster or die queue completes and the core re-checks for candidates. -/
  | evDrawComplete (c launch : Nat)
  /-- COMMIT (R174). HEND commits the next send-buffer entry once it can be accepted. -/
  | evCommit (c : Nat) (sl : Fin 4)
  /-- SEQUENCE (R246). A free sequencer token is given to a waiting sc access. -/
  | evSequence (c : Nat) (sl : Fin 4)
  /-- TRANSMIT (R241). The head of an outbound queue moves into the network. -/
  | evTransmit (src dst : Nat)
  /-- JOB_START (R252). An accepted job starts once conflicting earlier jobs of the window complete. -/
  | evJobStart (j : Nat)
  /-- JOB_COMPLETE (R169). A job's writes have performed; its card is written and its tag or notify signalled. -/
  | evJobComplete (j : Nat)
  /-- LEAF_COMMIT (R227). A quadtree result leaf's data is performed and its record written with COMMIT. -/
  | evLeafCommit (j : Nat) (path : List Nat)
  /-- JOB_SUSPEND (R229). A quadtree job suspends on pool failure, translation or pre-emption. -/
  | evJobSuspend (j : Nat)
  /-- MSWAP_PAIR (R211). Two mirrored MSWAPs pair and exchange their ranges. -/
  | evMswapPair (c launch : Nat)
  /-- ECALL_RESUME (R119). The service resumes a suspended ECALL with results in a0 and a1. -/
  | evEcallResume (c : Nat) (sl : Fin 4) (r0 r1 : Word)
  /-- ECALL_REFUSE (R119). The service refuses an ECALL and the launch ends. -/
  | evEcallRefuse (c : Nat) (sl : Fin 4)
  /-- WALK_REQUEST (R268). A translation miss sends a walk request to the die's walker. -/
  | evWalkRequest (c : Nat) (sl : Fin 4)
  /-- WALK (R268). A walk finishes, filling the cache or trapping the waiting accesses. -/
  | evWalk (die n : Nat)
  /-- PAGE_REQUEST_ANSWER (R268). The operating system answers a page request with retry or refuse. -/
  | evPageRequestAnswer (die n : Nat) (retry : Bool)
  /-- WITHDRAWAL (R270). A withdrawal command discards translations of a range in every cluster. -/
  | evWithdrawal (asid : Nat) (base : Word) (len : Nat)
  /-- ZEROING (R275). A frame handed to a context is zeroed at its homes before it is mapped. -/
  | evZeroing (pa size key : Nat)
  /-- KEY_LOAD (R272). Firmware loads a memory-encryption key slot. -/
  | evKeyLoad (slot : Nat) (key : Vec)
  /-- PAGE_RETIREMENT (R276). A channel agent moves a faulty 4 KiB unit to a spare. -/
  | evPageRetirement (pa : Nat)
  /-- SCRUB (R340). A periodic scrub reads, corrects and rewrites a block or row. -/
  | evScrub (t : ScrubTarget)
  /-- CORE_CHECK_FAILURE (R341). A core's logic check fails during a run and ends its resident launches. -/
  | evCoreCheckFailure (c : Nat)
  /-- MSG (R311). A message packet performs at a mailbox, parked mailbox or stub. -/
  | evMsg (src dst seq : Nat)
  /-- GRP (R311). A group item performs at the group home. -/
  | evGrp (src dst seq : Nat)
  /-- TSK (R311). A task packet enters a cluster or die queue. -/
  | evTsk (src dst seq : Nat)
  /-- RD (R311). A read request performs at its home. -/
  | evRd (src dst seq : Nat)
  /-- RDR (R311). A read response reaches its slot and the access completes. -/
  | evRdr (src dst seq : Nat)
  /-- WR (R311). A write performs at its home. -/
  | evWr (src dst seq : Nat)
  /-- WRA (R311). A write completion reaches its slot. -/
  | evWra (src dst seq : Nat)
  /-- AMO (R311). A read-modify-write performs indivisibly at its home. -/
  | evAmo (src dst seq : Nat)
  /-- AMOR (R311). The old value of an atomic reaches its slot. -/
  | evAmor (src dst seq : Nat)
  /-- RED (R102). A SENDR payload is added into its reduction cell. -/
  | evRed (src dst seq : Nat)
  /-- JRD (R311). A job element read performs at its home. -/
  | evJrd (j k : Nat)
  /-- JWR (R311). A job element write performs at its home. -/
  | evJwr (j k : Nat)
  /-- EGR (R330). An egress post, release or drop performs at the egress agent. -/
  | evEgr (src dst seq : Nat)
  /-- ACK (R319). A cumulative acknowledgement frees retransmit-store lines. -/
  | evAck (src dst : Nat)
  /-- YOYO (R320). A re-request makes the source resend a trimmed packet. -/
  | evYoyo (src dst : Nat)
  /-- DEFR (R321). A deferral notice starts the source's backoff. -/
  | evDefr (src dst : Nat)
  /-- TRIM (R315). A packet waits past TTHR at an output and is trimmed to its header. place names both: the packet's sequence in the
  16 low bits, and above them the output of its way. -/
  | evTrim (src dst place : Nat)
  /-- HOLE_REREQUEST (R317). A hole is re-requested with a yo-yo when a token and its interval allow. -/
  | evHoleRerequest (src dst seq : Nat)
  /-- ACK_TIMER (R319). 64 network cycles after an unacknowledged perform, an ACK is sent. -/
  | evAckTimer (src dst : Nat)
  /-- RTO (R320). The retransmit timeout expires and the oldest unacknowledged packet is resent. -/
  | evRto (src dst : Nat)
  /-- BACKOFF_EXPIRY (R321). A deferral backoff ends and the deferred packet is resent. -/
  | evBackoffExpiry (src dst : Nat)
  /-- FRAME (R328). A Thrumlink frame arrives and is checked by CRC, with replay on failure. -/
  | evFrame (link : Nat) (good : Bool)
  /-- LINK_DOWN (R327). A link fails training or replay and is marked down. -/
  | evLinkDown (link : Nat)
  /-- ROUTE_RECOMPUTE (R327). Nodes recompute the up-down tree and install a new generation. -/
  | evRouteRecompute
  /-- DEPTH_EXCHANGE (R293). Every 4,096 cycles a core sends its queue depths to its siblings. -/
  | evDepthExchange (c : Nat)
  /-- DEPTH_RECEIVE (R293). A received sibling depth may move a block of tasks to that sibling. -/
  | evDepthReceive (c : Nat)
  /-- UNBOUND (R183). A message waits unbound for the budget and the launch ends. -/
  | evUnbound (launch name chan : Nat)
  /-- EGPOST_TIMEOUT (R202). An egress post waits 2^24 cycles at commit and the launch ends. -/
  | evEgpostTimeout (c : Nat) (sl : Fin 4)
  /-- LAUNCH_START (R283). A launch at the head of its queue is checked and installed. -/
  | evLaunchStart (ctx q : Nat)
  /-- INITIAL_TASK_PUSH (R285). Waiting initial tasks are pushed as the die partition gains room. -/
  | evInitialTaskPush (launch : Nat)
  /-- QUIESCENCE (R295). A QUIESCE launch is detected quiescent. -/
  | evQuiescence (launch : Nat)
  /-- FAULT_REPORT (R336). The marionette die takes a fault report for a launch. -/
  | evFaultReport (n : Nat)
  /-- LAUNCH_END (R297). The marionette die ends a launch and writes its status record. -/
  | evLaunchEnd (launch : Nat)
  /-- PRE_EMPTION (R305). A descheduled context is drained and saved lazily. -/
  | evPreEmption (ctx : Nat)
  /-- CONTEXT_RESUME (R306). A rescheduled context's state is restored and dispatch resumes. -/
  | evContextResume (ctx : Nat)
  /-- VICTIM_CLAIM (R303). A victim frame or row group is saved, zeroed and handed to a claimant. -/
  | evVictimClaim (u : ClaimUnit)
  /-- EVICTION (R307). The operating system evicts one actor to a parked mailbox. -/
  | evEviction (launch name : Nat)
  /-- RESTORE (R308). An evicted actor is restored on a named core. -/
  | evRestore (launch name core : Nat)
  /-- HALT (R344). Debugger command that masks an actor's dispatch. -/
  | evHalt (launch name : Nat)
  /-- HALTREQ (R345). A running activation halts at its next instruction boundary. -/
  | evHaltreq (c : Nat) (sl : Fin 4)
  /-- RESUME (R344). Debugger command that unmasks dispatch and continues at epc. -/
  | evResume (launch name : Nat)
  /-- STEP (R346). Debugger command that issues one instruction and halts again. -/
  | evStep (launch name : Nat)
  /-- BREAK (R344). Debugger command that sets an address breakpoint. -/
  | evBreak (launch c n : Nat) (addr : Word) (name : Nat)
  /-- UNBREAK (R344). Debugger command that clears a breakpoint. -/
  | evUnbreak (launch c n : Nat)
  /-- READ (R344). Debugger command that reads a halted activation's register or CSR. -/
  | evRead (launch name : Nat) (r : DbgReg)
  /-- WRITE (R344). Debugger command that writes a halted activation's register or CSR. -/
  | evWrite (launch name : Nat) (r : DbgReg) (val : Vec)
  /-- EXEC (R344). Debugger command that runs words as debug execution. -/
  | evExec (launch name : Nat) (words : List (BitVec 32))
  /-- DETACH (R344). Debugger command that clears breakpoints and resumes halted actors. -/
  | evDetach (launch : Nat)
  /-- BREAKPOINT (R346). An activation reaches a breakpoint address and halts with EBREAK. -/
  | evBreakpoint (c : Nat) (sl : Fin 4)
  /-- RESET (R351). Power-on or reset boots the module through the verified image chain. -/
  | evReset
  /-- BOOTSEL (R349). A write of PREF rewrites the boot record's preferred set. -/
  | evBootsel (val : BitVec 64)
  /-- MINSVN_RAISE (R352). The operating system asks firmware to raise MINSVN. -/
  | evMinsvnRaise (n : Nat)
  /-- QUOTE_REQUEST (R355). A nonce request is answered with a signed quote. -/
  | evQuoteRequest (nonce : BitVec 256)
  /-- FIRMWARE_UPDATE (R361). A PLDM update writes the image set that did not boot. -/
  | evFirmwareUpdate (offset : Nat) (bytes : List Byte)
  /-- PCTL_REQ_P0 (R358). A REQ write requests state P0. -/
  | evPctlReqP0
  /-- PCTL_REQ_P1 (R358). A REQ write requests state P1 under the cap. -/
  | evPctlReqP1
  /-- PCTL_REQ_P2 (R358). A REQ write requests P2, pre-empting contexts and stopping clocks. -/
  | evPctlReqP2
  /-- PCTL_REQ_P3 (R358). A REQ write requests P3 from P2. -/
  | evPctlReqP3
  /-- PCTL_CAP (R357). A CAP write sets the P1 power cap. -/
  | evPctlCap (cap : Nat)
  /-- TRANSITION_COMPLETE (R358). A power transition finishes and BUSY clears. -/
  | evTransitionComplete
  /-- THERMAL_TRIP (R359). A sensor reaches 105 °C and the compute dies stop in P2. -/
  | evThermalTrip (sensor : Nat)
  /-- TRIP (R357). Writing 1 to PSTAT TRIP clears it once sensors are below the resume limit. -/
  | evTrip
  /-- REFUSED (R357). Writing 1 to PSTAT REFUSED clears it. -/
  | evRefused
  /-- CLEAR (R323). Writing 1 to a port's CLEAR zeroes all its counters. -/
  | evClear (die port : Nat)
  /-- CHEAD (R330). A card's CHEAD write frees consumed egress slots. -/
  | evChead (q : Nat) (val : BitVec 32)
  /-- REGISTER_WRITE (R324). A write to a register without behaviour of its own, such as FCFG or RTAB. -/
  | evRegisterWrite (die offset : Nat) (val : BitVec 64)
  /-- ILLEGAL (R75). A fetched word that is not an instruction traps ILLEGAL with no effect. -/
  | evIllegal (w : BitVec 32)
  /-- FETCH_OUTSIDE_TEXT (R115). A fetch at an address outside the launch's text sections traps ACCESS with epc = tval = that address. -/
  | evFetchOutsideText
  /-- DIRECTORY_LOOKUP (R177). An endpoint directory miss that suspended a SEND or SENDX is resolved and the slot resumes. -/
  | evDirectoryLookup (c : Nat) (sl : Fin 4)
  /-- VARIABLE_LATENCY_WRITE (R21). A local variable-latency result (divide, VFDIV, VMRGU, matrix, HTGET and the like) completes and releases its interlock. -/
  | evVariableLatencyWrite (c : Nat) (sl : Fin 4) (n : Nat)
  /-- DEBUGGER_ATTACH (R120). A debugger becomes attached to a launch whose context has granted it access. -/
  | evDebuggerAttach (launch : Nat)
  /-- LINK_BRING_UP (R332). A Thrumlink link trains up, or a node or domain switch joins the domain and is tested. -/
  | evLinkBringUp (link : Nat) (good : Bool)
  /-- COOLANT_LIMIT (R360). Coolant flow falls below 3 L/min or inlet temperature exceeds 40 °C, and firmware holds the module in P1 under a cap. -/
  | evCoolantLimit (flow inlet : Nat)
  deriving DecidableEq, Repr

end Sys2Proof
end

