-- ==== Sys2Proof/WellFormed.lean ====
section
/-! DEFINITION. Which instruction terms stand for an instruction word: the checks of R75 that the field types of
Instr do not already make. -/
namespace Sys2Proof

/-- Why a term is no instruction word (R75), one name for each check. -/
inductive IllFormed where
  /-- an ORD value outside the row of R67 -/
  | ordRefused
  /-- a lane width that the instruction does not accept (R138, R139, R140, R159, R161) -/
  | widthRefused
  /-- a register range that passes v31, or VPARK or VUNPARK with vs2 below vd (R71, R138, R178, R179) -/
  | registerRange
  /-- a conversion code of 18 to 31 (R139) -/
  | conversionCode
  /-- a class of 7 (R178, R179, R180) -/
  | classSeven
  /-- an MMAC format and saturation pair that R207 does not list -/
  | matrixFormat
  /-- an accumulator and memory format pair that R209 does not list -/
  | tilePair
  /-- a QMUL or QADD with rd of 0 or 31 (R218) -/
  | jobRegister
  /-- a CSR number that R34 does not assign -/
  | csrUnassigned
  /-- a write to a read-only CSR (R34, R116) -/
  | csrReadOnly
  /-- the row is an event, which has no encoding -/
  | noEncoding
  deriving DecidableEq, Repr

/-- The CSR numbers that R34 assigns. -/
def csrAssigned (n : BitVec 12) : Bool :=
  let k := n.toNat
  (1 ≤ k && k ≤ 4) || (0xC00 ≤ k && k ≤ 0xC0E)

/-- R34: numbers with bits [11:10] = 0b11 are read-only. -/
def csrReadOnly (n : BitVec 12) : Bool := 0xC00 ≤ n.toNat

/-- R67, kind Load. -/
def Ord.loadOk : Ord → Bool
  | .rel => false
  | _ => true

/-- R67, kind Store. -/
def Ord.storeOk : Ord → Bool
  | .acq => false
  | _ => true

/-- The lane width in bits (R68). -/
def Width.bits : Width → Nat
  | .w8 => 8
  | .w16 => 16
  | .w32 => 32
  | .w64 => 64

/-- The number of lanes at a width (R14). -/
def Width.lanes : Width → Nat
  | .w8 => 64
  | .w16 => 32
  | .w32 => 16
  | .w64 => 8

/-- R139: the least lane width of each conversion code. -/
def convMinWidth : Nat → Nat
  | 4 => 16
  | 5 => 16
  | 15 => 16
  | 8 => 64
  | 9 => 64
  | 12 => 64
  | 13 => 64
  | 17 => 64
  | _ => 32

/-- R209: the accumulator and memory format pairs that exist. -/
def tilePairOk (k : BitVec 2) (f : BitVec 3) : Bool :=
  match k.toNat with
  | 0 => f.toNat ≤ 5
  | 1 => f.toNat = 0 || f.toNat = 6
  | 2 => f.toNat ≤ 5
  | _ => false

/-- The first of the checks that fails, or none. -/
def firstFail : List (Bool × IllFormed) → Option IllFormed
  | [] => none
  | (ok, e) :: r => if ok then firstFail r else some e

/-- R34 and R116: what a CSR instruction that writes, or only reads, must name. -/
def csrCheck (writes : Bool) (csr : BitVec 12) : Option IllFormed :=
  firstFail [(csrAssigned csr, .csrUnassigned), (!(writes && csrReadOnly csr), .csrReadOnly)]

/-- The check of R75 on each instruction; none when the term is an instruction word. -/
def Instr.check : Instr → Option IllFormed
  | .addi _ _ _ _ => none
  | .andi _ _ _ _ => none
  | .ori _ _ _ _ => none
  | .xori _ _ _ _ => none
  | .slti _ _ _ _ => none
  | .sltiu _ _ _ _ => none
  | .slli _ _ _ _ => none
  | .srli _ _ _ _ => none
  | .srai _ _ _ _ => none
  | .rori _ _ _ _ => none
  | .lui _ _ => none
  | .auipc _ _ => none
  | .add _ _ _ _ => none
  | .sub _ _ _ _ => none
  | .and _ _ _ _ => none
  | .or _ _ _ _ => none
  | .xor _ _ _ _ => none
  | .andn _ _ _ _ => none
  | .sll _ _ _ _ => none
  | .srl _ _ _ _ => none
  | .sra _ _ _ _ => none
  | .rol _ _ _ _ => none
  | .ror _ _ _ _ => none
  | .slt _ _ _ _ => none
  | .sltu _ _ _ _ => none
  | .min _ _ _ _ => none
  | .max _ _ _ _ => none
  | .minu _ _ _ _ => none
  | .maxu _ _ _ _ => none
  | .mul _ _ _ _ => none
  | .mulh _ _ _ _ => none
  | .mulhu _ _ _ _ => none
  | .mulhsu _ _ _ _ => none
  | .div _ _ _ => none
  | .divu _ _ _ => none
  | .rem _ _ _ => none
  | .remu _ _ _ => none
  | .clz _ _ _ => none
  | .ctz _ _ _ => none
  | .popc _ _ _ => none
  | .bext _ _ _ _ => none
  | .bdep _ _ _ _ => none
  | .sextb _ _ _ => none
  | .sexth _ _ _ => none
  | .sextw _ _ _ => none
  | .rev8 _ _ _ => none
  | .ldb ord _ _ _ => firstFail [(ord.loadOk, .ordRefused)]
  | .ldh ord _ _ _ => firstFail [(ord.loadOk, .ordRefused)]
  | .ldw ord _ _ _ => firstFail [(ord.loadOk, .ordRefused)]
  | .ldd ord _ _ _ => firstFail [(ord.loadOk, .ordRefused)]
  | .ldbu ord _ _ _ => firstFail [(ord.loadOk, .ordRefused)]
  | .ldhu ord _ _ _ => firstFail [(ord.loadOk, .ordRefused)]
  | .ldwu ord _ _ _ => firstFail [(ord.loadOk, .ordRefused)]
  | .stb ord _ _ _ => firstFail [(ord.storeOk, .ordRefused)]
  | .sth ord _ _ _ => firstFail [(ord.storeOk, .ordRefused)]
  | .stw ord _ _ _ => firstFail [(ord.storeOk, .ordRefused)]
  | .std ord _ _ _ => firstFail [(ord.storeOk, .ordRefused)]
  | .ldtag ord _ _ => firstFail [(ord.loadOk, .ordRefused)]
  | .sttag ord _ _ => firstFail [(ord.storeOk, .ordRefused)]
  | .amoadd _ _ _ _ _ _ => none
  | .amoand _ _ _ _ _ _ => none
  | .amoor _ _ _ _ _ _ => none
  | .amoxor _ _ _ _ _ _ => none
  | .amomin _ _ _ _ _ _ => none
  | .amomax _ _ _ _ _ _ => none
  | .amominu _ _ _ _ _ _ => none
  | .amomaxu _ _ _ _ _ _ => none
  | .amoswap _ _ _ _ _ _ => none
  | .casFailRlx _ _ _ _ _ _ => none
  | .casFailAcq _ _ _ _ _ _ => none
  | .casFailSc _ _ _ _ _ _ => none
  | .fence _ _ => none
  | .jalr _ _ _ => none
  | .jal _ _ => none
  | .beq _ _ _ => none
  | .bne _ _ _ => none
  | .blt _ _ _ => none
  | .bge _ _ _ => none
  | .bltu _ _ _ => none
  | .bgeu _ _ _ => none
  | .csrrw _ _ csr _ _ => csrCheck true csr
  | .csrrs _ _ csr a _ => csrCheck (a != 0#5) csr
  | .csrrc _ _ csr a _ => csrCheck (a != 0#5) csr
  | .ecall => none
  | .ebreak => none
  | .tret => none
  | .hend => none
  | .vadd _ _ _ _ _ _ => none
  | .vsub _ _ _ _ _ _ => none
  | .vmul _ _ _ _ _ _ => none
  | .vmulh _ _ _ _ _ _ => none
  | .vmin _ _ _ _ _ _ => none
  | .vmax _ _ _ _ _ _ => none
  | .vminu _ _ _ _ _ _ => none
  | .vmaxu _ _ _ _ _ _ => none
  | .vand _ _ _ _ _ _ => none
  | .vor _ _ _ _ _ _ => none
  | .vxor _ _ _ _ _ _ => none
  | .vandn _ _ _ _ _ _ => none
  | .vshl _ _ _ _ _ _ => none
  | .vshr _ _ _ _ _ _ => none
  | .vshra _ _ _ _ _ _ => none
  | .vpopc _ _ _ _ _ => none
  | .vfadd _ _ _ _ _ _ => none
  | .vfsub _ _ _ _ _ _ => none
  | .vfmul _ _ _ _ _ _ => none
  | .vfdiv _ _ _ _ _ => none
  | .vfmin _ _ _ _ _ _ => none
  | .vfmax _ _ _ _ _ _ => none
  | .vfsqrt _ _ _ _ _ => none
  | .vfabs _ _ _ _ => none
  | .vfma _ _ _ _ _ _ => none
  | .vfms _ _ _ _ _ _ => none
  | .vfnma _ _ _ _ _ _ => none
  | .vfnms _ _ _ _ _ _ => none
  | .vcmpeq _ _ _ _ _ _ => none
  | .vcmpne _ _ _ _ _ _ => none
  | .vcmplt _ _ _ _ _ _ => none
  | .vcmple _ _ _ _ _ _ => none
  | .vcmpltu _ _ _ _ _ _ => none
  | .vcmpleu _ _ _ _ _ _ => none
  | .vfcmpeq _ _ _ _ _ _ => none
  | .vfcmplt _ _ _ _ _ _ => none
  | .vfcmple _ _ _ _ _ _ => none
  | .vfcmpun _ _ _ _ _ _ => none
  | .vbool3 _ _ _ _ _ => none
  | .vfshl _ _ _ _ _ => none
  | .vfshr _ _ _ _ _ => none
  | .vrotl _ _ _ _ => none
  | .vrotr _ _ _ _ => none
  | .vredsum _ _ _ _ _ => none
  | .vredmin _ _ _ _ _ => none
  | .vredmax _ _ _ _ _ => none
  | .vfredsum _ _ _ _ _ => none
  | .vfredmin _ _ _ _ _ => none
  | .vfredmax _ _ _ _ _ => none
  | .vscan _ _ _ _ _ => none
  | .vfscan _ _ _ _ _ => none
  | .vperm _ _ _ _ _ _ => none
  | .vslideup _ _ _ _ _ _ => none
  | .vslidedn _ _ _ _ _ _ => none
  | .vbcast _ _ _ _ _ _ => none
  | .vcompress _ _ _ _ _ => none
  | .vexpand _ _ _ _ _ => none
  | .vsel _ _ _ _ _ _ => none
  | .vmv _ _ _ _ _ => none
  | .vmrgu _ w _ _ d => firstFail [(w.bits != 8, .widthRefused), (d.toNat ≤ 29, .registerRange)]
  | .vmrgi _ w _ _ d => firstFail [(w.bits != 8, .widthRefused), (d.toNat ≤ 29, .registerRange)]
  | .vaddCh _ _ _ _ _ _ => none
  | .vsubCh _ _ _ _ _ _ => none
  | .vmulCh _ _ _ _ _ _ => none
  | .vmulhCh _ _ _ _ _ _ => none
  | .vminCh _ _ _ _ _ _ => none
  | .vmaxCh _ _ _ _ _ _ => none
  | .vminuCh _ _ _ _ _ _ => none
  | .vmaxuCh _ _ _ _ _ _ => none
  | .vandCh _ _ _ _ _ _ => none
  | .vorCh _ _ _ _ _ _ => none
  | .vxorCh _ _ _ _ _ _ => none
  | .vandnCh _ _ _ _ _ _ => none
  | .vshlCh _ _ _ _ _ _ => none
  | .vshrCh _ _ _ _ _ _ => none
  | .vshraCh _ _ _ _ _ _ => none
  | .vpopcCh _ _ _ _ _ => none
  | .vfaddCh _ _ _ _ _ _ => none
  | .vfsubCh _ _ _ _ _ _ => none
  | .vfmulCh _ _ _ _ _ _ => none
  | .vfdivCh _ _ _ _ _ => none
  | .vfminCh _ _ _ _ _ _ => none
  | .vfmaxCh _ _ _ _ _ _ => none
  | .vfsqrtCh _ _ _ _ _ => none
  | .vfabsCh _ _ _ _ => none
  | .vfmaCh _ _ _ _ _ _ => none
  | .vfmsCh _ _ _ _ _ _ => none
  | .vfnmaCh _ _ _ _ _ _ => none
  | .vfnmsCh _ _ _ _ _ _ => none
  | .vcmpeqCh _ _ _ _ _ _ => none
  | .vcmpneCh _ _ _ _ _ _ => none
  | .vcmpltCh _ _ _ _ _ _ => none
  | .vcmpleCh _ _ _ _ _ _ => none
  | .vcmpltuCh _ _ _ _ _ _ => none
  | .vcmpleuCh _ _ _ _ _ _ => none
  | .vfcmpeqCh _ _ _ _ _ _ => none
  | .vfcmpltCh _ _ _ _ _ _ => none
  | .vfcmpleCh _ _ _ _ _ _ => none
  | .vfcmpunCh _ _ _ _ _ _ => none
  | .vbool3Ch _ _ _ _ _ => none
  | .vfshlCh _ _ _ _ _ => none
  | .vfshrCh _ _ _ _ _ => none
  | .vrotlCh _ _ _ _ => none
  | .vrotrCh _ _ _ _ => none
  | .vredsumCh _ _ _ _ _ => none
  | .vredminCh _ _ _ _ _ => none
  | .vredmaxCh _ _ _ _ _ => none
  | .vfredsumCh _ _ _ _ _ => none
  | .vfredminCh _ _ _ _ _ => none
  | .vfredmaxCh _ _ _ _ _ => none
  | .vscanCh _ _ _ _ _ => none
  | .vfscanCh _ _ _ _ _ => none
  | .vpermCh _ _ _ _ _ _ => none
  | .vslideupCh _ _ _ _ _ _ => none
  | .vslidednCh _ _ _ _ _ _ => none
  | .vbcastCh _ _ _ _ _ _ => none
  | .vcompressCh _ _ _ _ _ => none
  | .vexpandCh _ _ _ _ _ => none
  | .vselCh _ _ _ _ _ _ => none
  | .vmvCh _ _ _ _ _ => none
  | .vmrguCh _ w _ _ d => firstFail [(w.bits != 8, .widthRefused), (d.toNat ≤ 29, .registerRange)]
  | .vmrgiCh _ w _ _ d => firstFail [(w.bits != 8, .widthRefused), (d.toNat ≤ 29, .registerRange)]
  | .vcvt _ _ w k _ _ => firstFail [(k.toNat ≤ 17, .conversionCode), (convMinWidth k.toNat ≤ w.bits, .widthRefused)]
  | .vtbdec _ _ w _ _ _ => firstFail [(w.bits = 16 || w.bits = 32, .widthRefused)]
  | .vtbenc _ _ w _ _ _ => firstFail [(w.bits = 16 || w.bits = 32, .widthRefused)]
  | .vld ord _ _ g _ _ d => firstFail [(ord.loadOk, .ordRefused), (d.toNat + 2 ^ g.toNat ≤ 32, .registerRange)]
  | .vst ord _ _ g _ _ d => firstFail [(ord.storeOk, .ordRefused), (d.toNat + 2 ^ g.toNat ≤ 32, .registerRange)]
  | .vlds ord _ _ _ _ _ => firstFail [(ord.loadOk, .ordRefused)]
  | .vsts ord _ _ _ _ _ => firstFail [(ord.storeOk, .ordRefused)]
  | .vldx ord _ _ _ _ _ => firstFail [(ord.loadOk, .ordRefused)]
  | .vstx ord _ _ _ _ _ => firstFail [(ord.storeOk, .ordRefused)]
  | .vldt ord _ w _ _ d => firstFail [(ord.loadOk, .ordRefused), (w.bits = 32 || w.bits = 64, .widthRefused), (d.toNat + w.lanes ≤ 32, .registerRange)]
  | .vpark b _ d => firstFail [(d.toNat ≤ b.toNat, .registerRange)]
  | .vunpark b _ d => firstFail [(d.toNat ≤ b.toNat, .registerRange)]
  | .vmvx _ _ _ _ _ => none
  | .vmvxv _ _ _ _ => none
  | .kand _ _ _ _ => none
  | .kor _ _ _ _ => none
  | .kxor _ _ _ _ => none
  | .kandn _ _ _ _ => none
  | .knot _ _ _ => none
  | .kmvKToX _ _ _ => none
  | .kmvXToK _ _ _ => none
  | .kpopc _ _ _ => none
  | .kfirst _ _ _ => none
  | .mzero _ _ => none
  | .mrdv _ _ => none
  | .mwrv _ _ => none
  | .mmac f sat _ _ _ => firstFail [(f.toNat ≤ 5 && (!sat || f.toNat = 5), .matrixFormat)]
  | .mbin _ _ _ _ _ => none
  | .mstore ord k f _ _ => firstFail [(ord.storeOk, .ordRefused), (tilePairOk k f, .tilePair)]
  | .mload ord k f _ _ => firstFail [(ord.loadOk, .ordRefused), (tilePairOk k f, .tilePair)]
  | .mswap _ _ _ => none
  | .cpy _ => none
  | .gath _ => none
  | .scat _ => none
  | .qmul _ _ d => firstFail [(1 ≤ d.toNat && d.toNat ≤ 30, .jobRegister)]
  | .qadd _ _ d => firstFail [(1 ≤ d.toNat && d.toNat ≤ 30, .jobRegister)]
  | .qresume _ => none
  | .qcancel _ _ => none
  | .qstat _ _ => none
  | .qpool _ _ _ _ => none
  | .wtagany _ _ => none
  | .wtagall _ _ => none
  | .ftag _ _ => none
  | .send n c b _ => firstFail [(c.toNat ≤ 6, .classSeven), (b.toNat + n.toNat ≤ 31, .registerRange)]
  | .sendx _ c _ _ => firstFail [(c.toNat ≤ 6, .classSeven)]
  | .sendr c b _ => firstFail [(c.toNat ≤ 6, .classSeven), (b.toNat ≤ 30, .registerRange)]
  | .gsend n c b _ => firstFail [(c.toNat ≤ 6, .classSeven), (b.toNat + n.toNat ≤ 31, .registerRange)]
  | .htset _ _ => none
  | .htget _ _ => none
  | .htclr _ => none
  | .chmsk _ _ => none
  | .chunm _ _ => none
  | .mpeek _ _ => none
  | .mdrop _ => none
  | .join _ _ => none
  | .leave _ _ => none
  | .gbar _ => none
  | .xred _ _ => none
  | .xbcast _ _ => none
  | .actnew _ _ => none
  | .actend => none
  | .qpush _ _ => none
  | .qpop _ _ => none
  | .tarm _ _ => none
  | .tdone _ => none
  | .egpost _ _ => none
  | .egrel _ => none
  | .egdrop _ => none
  | .evBudget _ _ => some .noEncoding
  | .evDispatch _ _ => some .noEncoding
  | .evDrawComplete _ _ => some .noEncoding
  | .evCommit _ _ => some .noEncoding
  | .evSequence _ _ => some .noEncoding
  | .evTransmit _ _ => some .noEncoding
  | .evJobStart _ => some .noEncoding
  | .evJobComplete _ => some .noEncoding
  | .evLeafCommit _ _ => some .noEncoding
  | .evJobSuspend _ => some .noEncoding
  | .evMswapPair _ _ => some .noEncoding
  | .evEcallResume _ _ _ _ => some .noEncoding
  | .evEcallRefuse _ _ => some .noEncoding
  | .evWalkRequest _ _ => some .noEncoding
  | .evWalk _ _ => some .noEncoding
  | .evPageRequestAnswer _ _ _ => some .noEncoding
  | .evWithdrawal _ _ _ => some .noEncoding
  | .evZeroing _ _ _ => some .noEncoding
  | .evKeyLoad _ _ => some .noEncoding
  | .evPageRetirement _ => some .noEncoding
  | .evScrub _ => some .noEncoding
  | .evCoreCheckFailure _ => some .noEncoding
  | .evMsg _ _ _ => some .noEncoding
  | .evGrp _ _ _ => some .noEncoding
  | .evTsk _ _ _ => some .noEncoding
  | .evRd _ _ _ => some .noEncoding
  | .evRdr _ _ _ => some .noEncoding
  | .evWr _ _ _ => some .noEncoding
  | .evWra _ _ _ => some .noEncoding
  | .evAmo _ _ _ => some .noEncoding
  | .evAmor _ _ _ => some .noEncoding
  | .evRed _ _ _ => some .noEncoding
  | .evJrd _ _ => some .noEncoding
  | .evJwr _ _ => some .noEncoding
  | .evEgr _ _ _ => some .noEncoding
  | .evAck _ _ => some .noEncoding
  | .evYoyo _ _ => some .noEncoding
  | .evDefr _ _ => some .noEncoding
  | .evTrim _ _ _ => some .noEncoding
  | .evHoleRerequest _ _ _ => some .noEncoding
  | .evAckTimer _ _ => some .noEncoding
  | .evRto _ _ => some .noEncoding
  | .evBackoffExpiry _ _ => some .noEncoding
  | .evFrame _ _ => some .noEncoding
  | .evLinkDown _ => some .noEncoding
  | .evRouteRecompute => some .noEncoding
  | .evDepthExchange _ => some .noEncoding
  | .evDepthReceive _ => some .noEncoding
  | .evUnbound _ _ _ => some .noEncoding
  | .evEgpostTimeout _ _ => some .noEncoding
  | .evLaunchStart _ _ => some .noEncoding
  | .evInitialTaskPush _ => some .noEncoding
  | .evQuiescence _ => some .noEncoding
  | .evFaultReport _ => some .noEncoding
  | .evLaunchEnd _ => some .noEncoding
  | .evPreEmption _ => some .noEncoding
  | .evContextResume _ => some .noEncoding
  | .evVictimClaim _ => some .noEncoding
  | .evEviction _ _ => some .noEncoding
  | .evRestore _ _ _ => some .noEncoding
  | .evHalt _ _ => some .noEncoding
  | .evHaltreq _ _ => some .noEncoding
  | .evResume _ _ => some .noEncoding
  | .evStep _ _ => some .noEncoding
  | .evBreak _ _ _ _ _ => some .noEncoding
  | .evUnbreak _ _ _ => some .noEncoding
  | .evRead _ _ _ => some .noEncoding
  | .evWrite _ _ _ _ => some .noEncoding
  | .evExec _ _ _ => some .noEncoding
  | .evDetach _ => some .noEncoding
  | .evBreakpoint _ _ => some .noEncoding
  | .evReset => some .noEncoding
  | .evBootsel _ => some .noEncoding
  | .evMinsvnRaise _ => some .noEncoding
  | .evQuoteRequest _ => some .noEncoding
  | .evFirmwareUpdate _ _ => some .noEncoding
  | .evPctlReqP0 => some .noEncoding
  | .evPctlReqP1 => some .noEncoding
  | .evPctlReqP2 => some .noEncoding
  | .evPctlReqP3 => some .noEncoding
  | .evPctlCap _ => some .noEncoding
  | .evTransitionComplete => some .noEncoding
  | .evThermalTrip _ => some .noEncoding
  | .evTrip => some .noEncoding
  | .evRefused => some .noEncoding
  | .evClear _ _ => some .noEncoding
  | .evChead _ _ => some .noEncoding
  | .evRegisterWrite _ _ _ => some .noEncoding
  | .evIllegal _ => some .noEncoding
  | .evFetchOutsideText => some .noEncoding
  | .evDirectoryLookup _ _ => some .noEncoding
  | .evVariableLatencyWrite _ _ _ => some .noEncoding
  | .evDebuggerAttach _ => some .noEncoding
  | .evLinkBringUp _ _ => some .noEncoding
  | .evCoolantLimit _ _ => some .noEncoding

/-- A term that stands for an instruction word. -/
abbrev Instr.WellFormed (i : Instr) : Prop := i.check = none

end Sys2Proof
end

