-- ==== Sys2Proof/Decode.lean ====
section
/-! DEFINITION. Decoding and encoding of instruction words, from the formats and opcode tables of 03 R62 to R75.
Decoding is total: every word is an instruction or is rejected by name. The decoding functions are marked noncomputable
only because Lean's compiler gives no object tag to a constructor past the 244th: the kernel evaluates them. -/
namespace Sys2Proof

/-- Why a word is not an instruction (R75). -/
inductive DecodeError where
  /-- fewer than four bytes -/
  | short
  /-- the major opcode is unassigned or permanently illegal -/
  | major
  /-- the selector field holds a value that the opcode tables do not list -/
  | selector
  /-- a field required to be zero is not zero, or a register field names a register outside its file -/
  | zeroField
  /-- a scope code of 6 or 7 -/
  | scope
  /-- a check of WellFormed fails -/
  | illFormed (e : IllFormed)
  deriving DecidableEq, Repr

/-- The field of a word that starts at bit lo and has len bits. -/
def fld (w : BitVec 32) (lo len : Nat) : BitVec len := w.extractLsb' lo len

/-- One bit of a word. -/
def bit (w : BitVec 32) (i : Nat) : Bool := fld w i 1 == 1#1

def Ord.ofBits (b : BitVec 2) : Ord :=
  match b.toNat with
  | 0 => .rlx
  | 1 => .acq
  | 2 => .rel
  | _ => .sc

def Ord.toBits : Ord → BitVec 2
  | .rlx => 0
  | .acq => 1
  | .rel => 2
  | .sc => 3

def Width.ofBits (b : BitVec 2) : Width :=
  match b.toNat with
  | 0 => .w8
  | 1 => .w16
  | 2 => .w32
  | _ => .w64

def Width.toBits : Width → BitVec 2
  | .w8 => 0
  | .w16 => 1
  | .w32 => 2
  | .w64 => 3

def Scope.ofBits (b : BitVec 3) : Option Scope :=
  match b.toNat with
  | 0 => some .thread
  | 1 => some .core
  | 2 => some .cluster
  | 3 => some .die
  | 4 => some .module
  | 5 => some .domain
  | _ => none

def Scope.toBits : Scope → BitVec 3
  | .thread => 0
  | .core => 1
  | .cluster => 2
  | .die => 3
  | .module => 4
  | .domain => 5

def FenceKind.ofBits (b : BitVec 5) : Option FenceKind :=
  match b.toNat with
  | 0 => some .ll
  | 1 => some .ls
  | 2 => some .ss
  | 3 => some .full
  | 4 => some .engine
  | _ => none

def FenceKind.toBits : FenceKind → BitVec 5
  | .ll => 0
  | .ls => 1
  | .ss => 2
  | .full => 3
  | .engine => 4

def Flush.ofBits (b : BitVec 2) : Flush := ⟨b.extractLsb' 1 1 == 1#1, b.extractLsb' 0 1 == 1#1⟩

def Flush.toBits (f : Flush) : BitVec 2 := BitVec.ofBool f.fi ++ BitVec.ofBool f.fo

/-- Major 0x01: ADDI. -/
noncomputable def decode01 (w : BitVec 32) : Except DecodeError Instr :=
  .ok (.addi (fld w 30 2) (fld w 17 13) (fld w 12 5) (fld w 7 5))

/-- Major 0x02: ANDI. -/
noncomputable def decode02 (w : BitVec 32) : Except DecodeError Instr :=
  .ok (.andi (fld w 30 2) (fld w 17 13) (fld w 12 5) (fld w 7 5))

/-- Major 0x03: ORI. -/
noncomputable def decode03 (w : BitVec 32) : Except DecodeError Instr :=
  .ok (.ori (fld w 30 2) (fld w 17 13) (fld w 12 5) (fld w 7 5))

/-- Major 0x04: XORI. -/
noncomputable def decode04 (w : BitVec 32) : Except DecodeError Instr :=
  .ok (.xori (fld w 30 2) (fld w 17 13) (fld w 12 5) (fld w 7 5))

/-- Major 0x05: SLTI. -/
noncomputable def decode05 (w : BitVec 32) : Except DecodeError Instr :=
  .ok (.slti (fld w 30 2) (fld w 17 13) (fld w 12 5) (fld w 7 5))

/-- Major 0x06: SLTIU. -/
noncomputable def decode06 (w : BitVec 32) : Except DecodeError Instr :=
  .ok (.sltiu (fld w 30 2) (fld w 17 13) (fld w 12 5) (fld w 7 5))

/-- Major 0x07: SLLI, SRLI, SRAI, RORI. -/
noncomputable def decode07 (w : BitVec 32) : Except DecodeError Instr :=
  if fld w 28 2 = 0#2 then (if fld w 23 5 = 0#5 then .ok (.slli (fld w 30 2) (fld w 17 6) (fld w 12 5) (fld w 7 5)) else .error .zeroField)
  else
  if fld w 28 2 = 1#2 then (if fld w 23 5 = 0#5 then .ok (.srli (fld w 30 2) (fld w 17 6) (fld w 12 5) (fld w 7 5)) else .error .zeroField)
  else
  if fld w 28 2 = 2#2 then (if fld w 23 5 = 0#5 then .ok (.srai (fld w 30 2) (fld w 17 6) (fld w 12 5) (fld w 7 5)) else .error .zeroField)
  else
  if fld w 28 2 = 3#2 then (if fld w 23 5 = 0#5 then .ok (.rori (fld w 30 2) (fld w 17 6) (fld w 12 5) (fld w 7 5)) else .error .zeroField)
  else
  .error .selector

/-- Major 0x08: LUI. -/
noncomputable def decode08 (w : BitVec 32) : Except DecodeError Instr :=
  .ok (.lui (fld w 12 20) (fld w 7 5))

/-- Major 0x09: AUIPC. -/
noncomputable def decode09 (w : BitVec 32) : Except DecodeError Instr :=
  .ok (.auipc (fld w 12 20) (fld w 7 5))

/-- Major 0x0A: ADD, SUB, AND, OR, XOR, ANDN, SLL, SRL, SRA, ROL, ROR, SLT, SLTU, MIN, MAX, MINU, MAXU. -/
noncomputable def decode0A (w : BitVec 32) : Except DecodeError Instr :=
  if fld w 22 5 = 0#5 then (if fld w 27 3 = 0#3 then .ok (.add (fld w 30 2) (fld w 17 5) (fld w 12 5) (fld w 7 5)) else .error .zeroField)
  else
  if fld w 22 5 = 1#5 then (if fld w 27 3 = 0#3 then .ok (.sub (fld w 30 2) (fld w 17 5) (fld w 12 5) (fld w 7 5)) else .error .zeroField)
  else
  if fld w 22 5 = 2#5 then (if fld w 27 3 = 0#3 then .ok (.and (fld w 30 2) (fld w 17 5) (fld w 12 5) (fld w 7 5)) else .error .zeroField)
  else
  if fld w 22 5 = 3#5 then (if fld w 27 3 = 0#3 then .ok (.or (fld w 30 2) (fld w 17 5) (fld w 12 5) (fld w 7 5)) else .error .zeroField)
  else
  if fld w 22 5 = 4#5 then (if fld w 27 3 = 0#3 then .ok (.xor (fld w 30 2) (fld w 17 5) (fld w 12 5) (fld w 7 5)) else .error .zeroField)
  else
  if fld w 22 5 = 5#5 then (if fld w 27 3 = 0#3 then .ok (.andn (fld w 30 2) (fld w 17 5) (fld w 12 5) (fld w 7 5)) else .error .zeroField)
  else
  if fld w 22 5 = 6#5 then (if fld w 27 3 = 0#3 then .ok (.sll (fld w 30 2) (fld w 17 5) (fld w 12 5) (fld w 7 5)) else .error .zeroField)
  else
  if fld w 22 5 = 7#5 then (if fld w 27 3 = 0#3 then .ok (.srl (fld w 30 2) (fld w 17 5) (fld w 12 5) (fld w 7 5)) else .error .zeroField)
  else
  if fld w 22 5 = 8#5 then (if fld w 27 3 = 0#3 then .ok (.sra (fld w 30 2) (fld w 17 5) (fld w 12 5) (fld w 7 5)) else .error .zeroField)
  else
  if fld w 22 5 = 9#5 then (if fld w 27 3 = 0#3 then .ok (.rol (fld w 30 2) (fld w 17 5) (fld w 12 5) (fld w 7 5)) else .error .zeroField)
  else
  if fld w 22 5 = 10#5 then (if fld w 27 3 = 0#3 then .ok (.ror (fld w 30 2) (fld w 17 5) (fld w 12 5) (fld w 7 5)) else .error .zeroField)
  else
  if fld w 22 5 = 11#5 then (if fld w 27 3 = 0#3 then .ok (.slt (fld w 30 2) (fld w 17 5) (fld w 12 5) (fld w 7 5)) else .error .zeroField)
  else
  if fld w 22 5 = 12#5 then (if fld w 27 3 = 0#3 then .ok (.sltu (fld w 30 2) (fld w 17 5) (fld w 12 5) (fld w 7 5)) else .error .zeroField)
  else
  if fld w 22 5 = 13#5 then (if fld w 27 3 = 0#3 then .ok (.min (fld w 30 2) (fld w 17 5) (fld w 12 5) (fld w 7 5)) else .error .zeroField)
  else
  if fld w 22 5 = 14#5 then (if fld w 27 3 = 0#3 then .ok (.max (fld w 30 2) (fld w 17 5) (fld w 12 5) (fld w 7 5)) else .error .zeroField)
  else
  if fld w 22 5 = 15#5 then (if fld w 27 3 = 0#3 then .ok (.minu (fld w 30 2) (fld w 17 5) (fld w 12 5) (fld w 7 5)) else .error .zeroField)
  else
  if fld w 22 5 = 16#5 then (if fld w 27 3 = 0#3 then .ok (.maxu (fld w 30 2) (fld w 17 5) (fld w 12 5) (fld w 7 5)) else .error .zeroField)
  else
  .error .selector

/-- Major 0x0B: MUL, MULH, MULHU, MULHSU, DIV, DIVU, REM, REMU. -/
noncomputable def decode0B (w : BitVec 32) : Except DecodeError Instr :=
  if fld w 27 3 = 0#3 then (if fld w 22 5 = 0#5 then .ok (.mul (fld w 30 2) (fld w 17 5) (fld w 12 5) (fld w 7 5)) else .error .zeroField)
  else
  if fld w 27 3 = 1#3 then (if fld w 22 5 = 0#5 then .ok (.mulh (fld w 30 2) (fld w 17 5) (fld w 12 5) (fld w 7 5)) else .error .zeroField)
  else
  if fld w 27 3 = 2#3 then (if fld w 22 5 = 0#5 then .ok (.mulhu (fld w 30 2) (fld w 17 5) (fld w 12 5) (fld w 7 5)) else .error .zeroField)
  else
  if fld w 27 3 = 3#3 then (if fld w 22 5 = 0#5 then .ok (.mulhsu (fld w 30 2) (fld w 17 5) (fld w 12 5) (fld w 7 5)) else .error .zeroField)
  else
  if fld w 27 3 = 4#3 then (if fld w 22 5 = 0#5 ∧ fld w 30 2 = 0#2 then .ok (.div (fld w 17 5) (fld w 12 5) (fld w 7 5)) else .error .zeroField)
  else
  if fld w 27 3 = 5#3 then (if fld w 22 5 = 0#5 ∧ fld w 30 2 = 0#2 then .ok (.divu (fld w 17 5) (fld w 12 5) (fld w 7 5)) else .error .zeroField)
  else
  if fld w 27 3 = 6#3 then (if fld w 22 5 = 0#5 ∧ fld w 30 2 = 0#2 then .ok (.rem (fld w 17 5) (fld w 12 5) (fld w 7 5)) else .error .zeroField)
  else
  if fld w 27 3 = 7#3 then (if fld w 22 5 = 0#5 ∧ fld w 30 2 = 0#2 then .ok (.remu (fld w 17 5) (fld w 12 5) (fld w 7 5)) else .error .zeroField)
  else
  .error .selector

/-- Major 0x0C: CLZ, CTZ, POPC, BEXT, BDEP, SEXTB, SEXTH, SEXTW, REV8. -/
noncomputable def decode0C (w : BitVec 32) : Except DecodeError Instr :=
  if fld w 22 5 = 0#5 then (if fld w 17 5 = 0#5 ∧ fld w 27 3 = 0#3 then .ok (.clz (fld w 30 2) (fld w 12 5) (fld w 7 5)) else .error .zeroField)
  else
  if fld w 22 5 = 1#5 then (if fld w 17 5 = 0#5 ∧ fld w 27 3 = 0#3 then .ok (.ctz (fld w 30 2) (fld w 12 5) (fld w 7 5)) else .error .zeroField)
  else
  if fld w 22 5 = 2#5 then (if fld w 17 5 = 0#5 ∧ fld w 27 3 = 0#3 then .ok (.popc (fld w 30 2) (fld w 12 5) (fld w 7 5)) else .error .zeroField)
  else
  if fld w 22 5 = 3#5 then (if fld w 27 3 = 0#3 then .ok (.bext (fld w 30 2) (fld w 17 5) (fld w 12 5) (fld w 7 5)) else .error .zeroField)
  else
  if fld w 22 5 = 4#5 then (if fld w 27 3 = 0#3 then .ok (.bdep (fld w 30 2) (fld w 17 5) (fld w 12 5) (fld w 7 5)) else .error .zeroField)
  else
  if fld w 22 5 = 5#5 then (if fld w 17 5 = 0#5 ∧ fld w 27 3 = 0#3 then .ok (.sextb (fld w 30 2) (fld w 12 5) (fld w 7 5)) else .error .zeroField)
  else
  if fld w 22 5 = 6#5 then (if fld w 17 5 = 0#5 ∧ fld w 27 3 = 0#3 then .ok (.sexth (fld w 30 2) (fld w 12 5) (fld w 7 5)) else .error .zeroField)
  else
  if fld w 22 5 = 7#5 then (if fld w 17 5 = 0#5 ∧ fld w 27 3 = 0#3 then .ok (.sextw (fld w 30 2) (fld w 12 5) (fld w 7 5)) else .error .zeroField)
  else
  if fld w 22 5 = 8#5 then (if fld w 17 5 = 0#5 ∧ fld w 27 3 = 0#3 then .ok (.rev8 (fld w 30 2) (fld w 12 5) (fld w 7 5)) else .error .zeroField)
  else
  .error .selector

/-- Major 0x10: LDB. -/
noncomputable def decode10 (w : BitVec 32) : Except DecodeError Instr :=
  .ok (.ldb (Ord.ofBits (fld w 30 2)) (fld w 17 13) (fld w 12 5) (fld w 7 5))

/-- Major 0x11: LDH. -/
noncomputable def decode11 (w : BitVec 32) : Except DecodeError Instr :=
  .ok (.ldh (Ord.ofBits (fld w 30 2)) (fld w 17 13) (fld w 12 5) (fld w 7 5))

/-- Major 0x12: LDW. -/
noncomputable def decode12 (w : BitVec 32) : Except DecodeError Instr :=
  .ok (.ldw (Ord.ofBits (fld w 30 2)) (fld w 17 13) (fld w 12 5) (fld w 7 5))

/-- Major 0x13: LDD. -/
noncomputable def decode13 (w : BitVec 32) : Except DecodeError Instr :=
  .ok (.ldd (Ord.ofBits (fld w 30 2)) (fld w 17 13) (fld w 12 5) (fld w 7 5))

/-- Major 0x14: LDBU. -/
noncomputable def decode14 (w : BitVec 32) : Except DecodeError Instr :=
  .ok (.ldbu (Ord.ofBits (fld w 30 2)) (fld w 17 13) (fld w 12 5) (fld w 7 5))

/-- Major 0x15: LDHU. -/
noncomputable def decode15 (w : BitVec 32) : Except DecodeError Instr :=
  .ok (.ldhu (Ord.ofBits (fld w 30 2)) (fld w 17 13) (fld w 12 5) (fld w 7 5))

/-- Major 0x16: LDWU. -/
noncomputable def decode16 (w : BitVec 32) : Except DecodeError Instr :=
  .ok (.ldwu (Ord.ofBits (fld w 30 2)) (fld w 17 13) (fld w 12 5) (fld w 7 5))

/-- Major 0x18: STB. -/
noncomputable def decode18 (w : BitVec 32) : Except DecodeError Instr :=
  .ok (.stb (Ord.ofBits (fld w 30 2)) (fld w 22 8 ++ fld w 7 5) (fld w 17 5) (fld w 12 5))

/-- Major 0x19: STH. -/
noncomputable def decode19 (w : BitVec 32) : Except DecodeError Instr :=
  .ok (.sth (Ord.ofBits (fld w 30 2)) (fld w 22 8 ++ fld w 7 5) (fld w 17 5) (fld w 12 5))

/-- Major 0x1A: STW. -/
noncomputable def decode1A (w : BitVec 32) : Except DecodeError Instr :=
  .ok (.stw (Ord.ofBits (fld w 30 2)) (fld w 22 8 ++ fld w 7 5) (fld w 17 5) (fld w 12 5))

/-- Major 0x1B: STD. -/
noncomputable def decode1B (w : BitVec 32) : Except DecodeError Instr :=
  .ok (.std (Ord.ofBits (fld w 30 2)) (fld w 22 8 ++ fld w 7 5) (fld w 17 5) (fld w 12 5))

/-- Major 0x1C: LDTAG, STTAG. -/
noncomputable def decode1C (w : BitVec 32) : Except DecodeError Instr :=
  if fld w 27 3 = 0#3 then (if fld w 17 10 = 0#10 then .ok (.ldtag (Ord.ofBits (fld w 30 2)) (fld w 12 5) (fld w 7 5)) else .error .zeroField)
  else
  if fld w 27 3 = 1#3 then (if fld w 7 5 = 0#5 ∧ fld w 22 5 = 0#5 then .ok (.sttag (Ord.ofBits (fld w 30 2)) (fld w 17 5) (fld w 12 5)) else .error .zeroField)
  else
  .error .selector

/-- Major 0x1D: AMOADD, AMOAND, AMOOR, AMOXOR, AMOMIN, AMOMAX, AMOMINU, AMOMAXU, AMOSWAP, CAS_FAIL_RLX, CAS_FAIL_ACQ, CAS_FAIL_SC. -/
noncomputable def decode1D (w : BitVec 32) : Except DecodeError Instr :=
  if fld w 23 4 = 0#4 then (match Scope.ofBits (fld w 27 3) with | some scope => .ok (.amoadd (Ord.ofBits (fld w 30 2)) scope (bit w 22) (fld w 17 5) (fld w 12 5) (fld w 7 5)) | none => .error .scope)
  else
  if fld w 23 4 = 1#4 then (match Scope.ofBits (fld w 27 3) with | some scope => .ok (.amoand (Ord.ofBits (fld w 30 2)) scope (bit w 22) (fld w 17 5) (fld w 12 5) (fld w 7 5)) | none => .error .scope)
  else
  if fld w 23 4 = 2#4 then (match Scope.ofBits (fld w 27 3) with | some scope => .ok (.amoor (Ord.ofBits (fld w 30 2)) scope (bit w 22) (fld w 17 5) (fld w 12 5) (fld w 7 5)) | none => .error .scope)
  else
  if fld w 23 4 = 3#4 then (match Scope.ofBits (fld w 27 3) with | some scope => .ok (.amoxor (Ord.ofBits (fld w 30 2)) scope (bit w 22) (fld w 17 5) (fld w 12 5) (fld w 7 5)) | none => .error .scope)
  else
  if fld w 23 4 = 4#4 then (match Scope.ofBits (fld w 27 3) with | some scope => .ok (.amomin (Ord.ofBits (fld w 30 2)) scope (bit w 22) (fld w 17 5) (fld w 12 5) (fld w 7 5)) | none => .error .scope)
  else
  if fld w 23 4 = 5#4 then (match Scope.ofBits (fld w 27 3) with | some scope => .ok (.amomax (Ord.ofBits (fld w 30 2)) scope (bit w 22) (fld w 17 5) (fld w 12 5) (fld w 7 5)) | none => .error .scope)
  else
  if fld w 23 4 = 6#4 then (match Scope.ofBits (fld w 27 3) with | some scope => .ok (.amominu (Ord.ofBits (fld w 30 2)) scope (bit w 22) (fld w 17 5) (fld w 12 5) (fld w 7 5)) | none => .error .scope)
  else
  if fld w 23 4 = 7#4 then (match Scope.ofBits (fld w 27 3) with | some scope => .ok (.amomaxu (Ord.ofBits (fld w 30 2)) scope (bit w 22) (fld w 17 5) (fld w 12 5) (fld w 7 5)) | none => .error .scope)
  else
  if fld w 23 4 = 8#4 then (match Scope.ofBits (fld w 27 3) with | some scope => .ok (.amoswap (Ord.ofBits (fld w 30 2)) scope (bit w 22) (fld w 17 5) (fld w 12 5) (fld w 7 5)) | none => .error .scope)
  else
  if fld w 23 4 = 9#4 then (match Scope.ofBits (fld w 27 3) with | some scope => .ok (.casFailRlx (Ord.ofBits (fld w 30 2)) scope (bit w 22) (fld w 17 5) (fld w 12 5) (fld w 7 5)) | none => .error .scope)
  else
  if fld w 23 4 = 10#4 then (match Scope.ofBits (fld w 27 3) with | some scope => .ok (.casFailAcq (Ord.ofBits (fld w 30 2)) scope (bit w 22) (fld w 17 5) (fld w 12 5) (fld w 7 5)) | none => .error .scope)
  else
  if fld w 23 4 = 11#4 then (match Scope.ofBits (fld w 27 3) with | some scope => .ok (.casFailSc (Ord.ofBits (fld w 30 2)) scope (bit w 22) (fld w 17 5) (fld w 12 5) (fld w 7 5)) | none => .error .scope)
  else
  .error .selector

/-- Major 0x21: FENCE. -/
noncomputable def decode21 (w : BitVec 32) : Except DecodeError Instr :=
  if fld w 7 15 = 0#15 ∧ fld w 30 2 = 0#2 then (match Scope.ofBits (fld w 27 3) with | some scope => (match FenceKind.ofBits (fld w 22 5) with | some kind => .ok (.fence scope kind) | none => .error .selector) | none => .error .scope) else .error .zeroField

/-- Major 0x22: JALR. -/
noncomputable def decode22 (w : BitVec 32) : Except DecodeError Instr :=
  if fld w 30 2 = 0#2 then .ok (.jalr (fld w 17 13) (fld w 12 5) (fld w 7 5)) else .error .zeroField

/-- Major 0x23: JAL. -/
noncomputable def decode23 (w : BitVec 32) : Except DecodeError Instr :=
  .ok (.jal (fld w 12 20) (fld w 7 5))

/-- Major 0x24: BEQ, BNE, BLT, BGE, BLTU, BGEU. -/
noncomputable def decode24 (w : BitVec 32) : Except DecodeError Instr :=
  if fld w 29 3 = 0#3 then .ok (.beq (fld w 22 7 ++ fld w 7 5) (fld w 17 5) (fld w 12 5))
  else
  if fld w 29 3 = 1#3 then .ok (.bne (fld w 22 7 ++ fld w 7 5) (fld w 17 5) (fld w 12 5))
  else
  if fld w 29 3 = 2#3 then .ok (.blt (fld w 22 7 ++ fld w 7 5) (fld w 17 5) (fld w 12 5))
  else
  if fld w 29 3 = 3#3 then .ok (.bge (fld w 22 7 ++ fld w 7 5) (fld w 17 5) (fld w 12 5))
  else
  if fld w 29 3 = 4#3 then .ok (.bltu (fld w 22 7 ++ fld w 7 5) (fld w 17 5) (fld w 12 5))
  else
  if fld w 29 3 = 5#3 then .ok (.bgeu (fld w 22 7 ++ fld w 7 5) (fld w 17 5) (fld w 12 5))
  else
  .error .selector

/-- Major 0x25: CSRRW. -/
noncomputable def decode25 (w : BitVec 32) : Except DecodeError Instr :=
  .ok (.csrrw (fld w 30 2) (bit w 29) (fld w 17 12) (fld w 12 5) (fld w 7 5))

/-- Major 0x26: CSRRS. -/
noncomputable def decode26 (w : BitVec 32) : Except DecodeError Instr :=
  .ok (.csrrs (fld w 30 2) (bit w 29) (fld w 17 12) (fld w 12 5) (fld w 7 5))

/-- Major 0x27: CSRRC. -/
noncomputable def decode27 (w : BitVec 32) : Except DecodeError Instr :=
  .ok (.csrrc (fld w 30 2) (bit w 29) (fld w 17 12) (fld w 12 5) (fld w 7 5))

/-- Major 0x28: ECALL, EBREAK, TRET, HEND. -/
noncomputable def decode28 (w : BitVec 32) : Except DecodeError Instr :=
  if fld w 22 5 = 0#5 then (if fld w 7 15 = 0#15 ∧ fld w 27 5 = 0#5 then .ok .ecall else .error .zeroField)
  else
  if fld w 22 5 = 1#5 then (if fld w 7 15 = 0#15 ∧ fld w 27 5 = 0#5 then .ok .ebreak else .error .zeroField)
  else
  if fld w 22 5 = 2#5 then (if fld w 7 15 = 0#15 ∧ fld w 27 5 = 0#5 then .ok .tret else .error .zeroField)
  else
  if fld w 22 5 = 3#5 then (if fld w 7 15 = 0#15 ∧ fld w 27 5 = 0#5 then .ok .hend else .error .zeroField)
  else
  .error .selector

/-- Major 0x40: VADD, VSUB, VMUL, VMULH, VMIN, VMAX, VMINU, VMAXU. -/
noncomputable def decode40 (w : BitVec 32) : Except DecodeError Instr :=
  if fld w 22 3 = 0#3 then .ok (.vadd (fld w 30 2) (fld w 27 3) (Width.ofBits (fld w 25 2)) (fld w 17 5) (fld w 12 5) (fld w 7 5))
  else
  if fld w 22 3 = 1#3 then .ok (.vsub (fld w 30 2) (fld w 27 3) (Width.ofBits (fld w 25 2)) (fld w 17 5) (fld w 12 5) (fld w 7 5))
  else
  if fld w 22 3 = 2#3 then .ok (.vmul (fld w 30 2) (fld w 27 3) (Width.ofBits (fld w 25 2)) (fld w 17 5) (fld w 12 5) (fld w 7 5))
  else
  if fld w 22 3 = 3#3 then .ok (.vmulh (fld w 30 2) (fld w 27 3) (Width.ofBits (fld w 25 2)) (fld w 17 5) (fld w 12 5) (fld w 7 5))
  else
  if fld w 22 3 = 4#3 then .ok (.vmin (fld w 30 2) (fld w 27 3) (Width.ofBits (fld w 25 2)) (fld w 17 5) (fld w 12 5) (fld w 7 5))
  else
  if fld w 22 3 = 5#3 then .ok (.vmax (fld w 30 2) (fld w 27 3) (Width.ofBits (fld w 25 2)) (fld w 17 5) (fld w 12 5) (fld w 7 5))
  else
  if fld w 22 3 = 6#3 then .ok (.vminu (fld w 30 2) (fld w 27 3) (Width.ofBits (fld w 25 2)) (fld w 17 5) (fld w 12 5) (fld w 7 5))
  else
  if fld w 22 3 = 7#3 then .ok (.vmaxu (fld w 30 2) (fld w 27 3) (Width.ofBits (fld w 25 2)) (fld w 17 5) (fld w 12 5) (fld w 7 5))
  else
  .error .selector

/-- Major 0x41: VAND, VOR, VXOR, VANDN, VSHL, VSHR, VSHRA, VPOPC. -/
noncomputable def decode41 (w : BitVec 32) : Except DecodeError Instr :=
  if fld w 22 3 = 0#3 then .ok (.vand (fld w 30 2) (fld w 27 3) (Width.ofBits (fld w 25 2)) (fld w 17 5) (fld w 12 5) (fld w 7 5))
  else
  if fld w 22 3 = 1#3 then .ok (.vor (fld w 30 2) (fld w 27 3) (Width.ofBits (fld w 25 2)) (fld w 17 5) (fld w 12 5) (fld w 7 5))
  else
  if fld w 22 3 = 2#3 then .ok (.vxor (fld w 30 2) (fld w 27 3) (Width.ofBits (fld w 25 2)) (fld w 17 5) (fld w 12 5) (fld w 7 5))
  else
  if fld w 22 3 = 3#3 then .ok (.vandn (fld w 30 2) (fld w 27 3) (Width.ofBits (fld w 25 2)) (fld w 17 5) (fld w 12 5) (fld w 7 5))
  else
  if fld w 22 3 = 4#3 then .ok (.vshl (fld w 30 2) (fld w 27 3) (Width.ofBits (fld w 25 2)) (fld w 17 5) (fld w 12 5) (fld w 7 5))
  else
  if fld w 22 3 = 5#3 then .ok (.vshr (fld w 30 2) (fld w 27 3) (Width.ofBits (fld w 25 2)) (fld w 17 5) (fld w 12 5) (fld w 7 5))
  else
  if fld w 22 3 = 6#3 then .ok (.vshra (fld w 30 2) (fld w 27 3) (Width.ofBits (fld w 25 2)) (fld w 17 5) (fld w 12 5) (fld w 7 5))
  else
  if fld w 22 3 = 7#3 then (if fld w 17 5 = 0#5 then .ok (.vpopc (fld w 30 2) (fld w 27 3) (Width.ofBits (fld w 25 2)) (fld w 12 5) (fld w 7 5)) else .error .zeroField)
  else
  .error .selector

/-- Major 0x42: VFADD, VFSUB, VFMUL, VFDIV, VFMIN, VFMAX, VFSQRT, VFABS. -/
noncomputable def decode42 (w : BitVec 32) : Except DecodeError Instr :=
  if fld w 22 3 = 0#3 then .ok (.vfadd (fld w 30 2) (fld w 27 3) (Flush.ofBits (fld w 25 2)) (fld w 17 5) (fld w 12 5) (fld w 7 5))
  else
  if fld w 22 3 = 1#3 then .ok (.vfsub (fld w 30 2) (fld w 27 3) (Flush.ofBits (fld w 25 2)) (fld w 17 5) (fld w 12 5) (fld w 7 5))
  else
  if fld w 22 3 = 2#3 then .ok (.vfmul (fld w 30 2) (fld w 27 3) (Flush.ofBits (fld w 25 2)) (fld w 17 5) (fld w 12 5) (fld w 7 5))
  else
  if fld w 22 3 = 3#3 then (if fld w 30 2 = 0#2 then .ok (.vfdiv (fld w 27 3) (Flush.ofBits (fld w 25 2)) (fld w 17 5) (fld w 12 5) (fld w 7 5)) else .error .zeroField)
  else
  if fld w 22 3 = 4#3 then .ok (.vfmin (fld w 30 2) (fld w 27 3) (Flush.ofBits (fld w 25 2)) (fld w 17 5) (fld w 12 5) (fld w 7 5))
  else
  if fld w 22 3 = 5#3 then .ok (.vfmax (fld w 30 2) (fld w 27 3) (Flush.ofBits (fld w 25 2)) (fld w 17 5) (fld w 12 5) (fld w 7 5))
  else
  if fld w 22 3 = 6#3 then (if fld w 17 5 = 0#5 then .ok (.vfsqrt (fld w 30 2) (fld w 27 3) (Flush.ofBits (fld w 25 2)) (fld w 12 5) (fld w 7 5)) else .error .zeroField)
  else
  if fld w 22 3 = 7#3 then (if fld w 17 5 = 0#5 ∧ fld w 25 2 = 0#2 then .ok (.vfabs (fld w 30 2) (fld w 27 3) (fld w 12 5) (fld w 7 5)) else .error .zeroField)
  else
  .error .selector

/-- Major 0x43: VFMA, VFMS, VFNMA, VFNMS. -/
noncomputable def decode43 (w : BitVec 32) : Except DecodeError Instr :=
  if fld w 22 3 = 0#3 then .ok (.vfma (fld w 30 2) (fld w 27 3) (Flush.ofBits (fld w 25 2)) (fld w 17 5) (fld w 12 5) (fld w 7 5))
  else
  if fld w 22 3 = 1#3 then .ok (.vfms (fld w 30 2) (fld w 27 3) (Flush.ofBits (fld w 25 2)) (fld w 17 5) (fld w 12 5) (fld w 7 5))
  else
  if fld w 22 3 = 2#3 then .ok (.vfnma (fld w 30 2) (fld w 27 3) (Flush.ofBits (fld w 25 2)) (fld w 17 5) (fld w 12 5) (fld w 7 5))
  else
  if fld w 22 3 = 3#3 then .ok (.vfnms (fld w 30 2) (fld w 27 3) (Flush.ofBits (fld w 25 2)) (fld w 17 5) (fld w 12 5) (fld w 7 5))
  else
  .error .selector

/-- Major 0x44: VCMPEQ, VCMPNE, VCMPLT, VCMPLE, VCMPLTU, VCMPLEU. -/
noncomputable def decode44 (w : BitVec 32) : Except DecodeError Instr :=
  if fld w 22 3 = 0#3 then (if fld w 10 2 = 0#2 then .ok (.vcmpeq (fld w 30 2) (fld w 27 3) (Width.ofBits (fld w 25 2)) (fld w 17 5) (fld w 12 5) (fld w 7 3)) else .error .zeroField)
  else
  if fld w 22 3 = 1#3 then (if fld w 10 2 = 0#2 then .ok (.vcmpne (fld w 30 2) (fld w 27 3) (Width.ofBits (fld w 25 2)) (fld w 17 5) (fld w 12 5) (fld w 7 3)) else .error .zeroField)
  else
  if fld w 22 3 = 2#3 then (if fld w 10 2 = 0#2 then .ok (.vcmplt (fld w 30 2) (fld w 27 3) (Width.ofBits (fld w 25 2)) (fld w 17 5) (fld w 12 5) (fld w 7 3)) else .error .zeroField)
  else
  if fld w 22 3 = 3#3 then (if fld w 10 2 = 0#2 then .ok (.vcmple (fld w 30 2) (fld w 27 3) (Width.ofBits (fld w 25 2)) (fld w 17 5) (fld w 12 5) (fld w 7 3)) else .error .zeroField)
  else
  if fld w 22 3 = 4#3 then (if fld w 10 2 = 0#2 then .ok (.vcmpltu (fld w 30 2) (fld w 27 3) (Width.ofBits (fld w 25 2)) (fld w 17 5) (fld w 12 5) (fld w 7 3)) else .error .zeroField)
  else
  if fld w 22 3 = 5#3 then (if fld w 10 2 = 0#2 then .ok (.vcmpleu (fld w 30 2) (fld w 27 3) (Width.ofBits (fld w 25 2)) (fld w 17 5) (fld w 12 5) (fld w 7 3)) else .error .zeroField)
  else
  .error .selector

/-- Major 0x45: VFCMPEQ, VFCMPLT, VFCMPLE, VFCMPUN. -/
noncomputable def decode45 (w : BitVec 32) : Except DecodeError Instr :=
  if fld w 22 3 = 0#3 then (if fld w 10 2 = 0#2 ∧ fld w 25 1 = 0#1 then .ok (.vfcmpeq (fld w 30 2) (fld w 27 3) (bit w 26) (fld w 17 5) (fld w 12 5) (fld w 7 3)) else .error .zeroField)
  else
  if fld w 22 3 = 1#3 then (if fld w 10 2 = 0#2 ∧ fld w 25 1 = 0#1 then .ok (.vfcmplt (fld w 30 2) (fld w 27 3) (bit w 26) (fld w 17 5) (fld w 12 5) (fld w 7 3)) else .error .zeroField)
  else
  if fld w 22 3 = 2#3 then (if fld w 10 2 = 0#2 ∧ fld w 25 1 = 0#1 then .ok (.vfcmple (fld w 30 2) (fld w 27 3) (bit w 26) (fld w 17 5) (fld w 12 5) (fld w 7 3)) else .error .zeroField)
  else
  if fld w 22 3 = 3#3 then (if fld w 10 2 = 0#2 ∧ fld w 25 1 = 0#1 then .ok (.vfcmpun (fld w 30 2) (fld w 27 3) (bit w 26) (fld w 17 5) (fld w 12 5) (fld w 7 3)) else .error .zeroField)
  else
  .error .selector

/-- Major 0x46: VBOOL3. -/
noncomputable def decode46 (w : BitVec 32) : Except DecodeError Instr :=
  .ok (.vbool3 (fld w 30 2) (fld w 22 8) (fld w 17 5) (fld w 12 5) (fld w 7 5))

/-- Major 0x47: VFSHL, VFSHR, VROTL, VROTR. -/
noncomputable def decode47 (w : BitVec 32) : Except DecodeError Instr :=
  if fld w 22 2 = 0#2 then .ok (.vfshl (fld w 30 2) (fld w 24 6) (fld w 17 5) (fld w 12 5) (fld w 7 5))
  else
  if fld w 22 2 = 1#2 then .ok (.vfshr (fld w 30 2) (fld w 24 6) (fld w 17 5) (fld w 12 5) (fld w 7 5))
  else
  if fld w 22 2 = 2#2 then (if fld w 17 5 = 0#5 then .ok (.vrotl (fld w 30 2) (fld w 24 6) (fld w 12 5) (fld w 7 5)) else .error .zeroField)
  else
  if fld w 22 2 = 3#2 then (if fld w 17 5 = 0#5 then .ok (.vrotr (fld w 30 2) (fld w 24 6) (fld w 12 5) (fld w 7 5)) else .error .zeroField)
  else
  .error .selector

/-- Major 0x48: VREDSUM, VREDMIN, VREDMAX, VFREDSUM, VFREDMIN, VFREDMAX, VSCAN, VFSCAN. -/
noncomputable def decode48 (w : BitVec 32) : Except DecodeError Instr :=
  if fld w 22 3 = 0#3 then (if fld w 17 5 = 0#5 then .ok (.vredsum (fld w 30 2) (fld w 27 3) (Width.ofBits (fld w 25 2)) (fld w 12 5) (fld w 7 5)) else .error .zeroField)
  else
  if fld w 22 3 = 1#3 then (if fld w 17 5 = 0#5 then .ok (.vredmin (fld w 30 2) (fld w 27 3) (Width.ofBits (fld w 25 2)) (fld w 12 5) (fld w 7 5)) else .error .zeroField)
  else
  if fld w 22 3 = 2#3 then (if fld w 17 5 = 0#5 then .ok (.vredmax (fld w 30 2) (fld w 27 3) (Width.ofBits (fld w 25 2)) (fld w 12 5) (fld w 7 5)) else .error .zeroField)
  else
  if fld w 22 3 = 3#3 then (if fld w 17 5 = 0#5 then .ok (.vfredsum (fld w 30 2) (fld w 27 3) (Flush.ofBits (fld w 25 2)) (fld w 12 5) (fld w 7 5)) else .error .zeroField)
  else
  if fld w 22 3 = 4#3 then (if fld w 17 5 = 0#5 then .ok (.vfredmin (fld w 30 2) (fld w 27 3) (Flush.ofBits (fld w 25 2)) (fld w 12 5) (fld w 7 5)) else .error .zeroField)
  else
  if fld w 22 3 = 5#3 then (if fld w 17 5 = 0#5 then .ok (.vfredmax (fld w 30 2) (fld w 27 3) (Flush.ofBits (fld w 25 2)) (fld w 12 5) (fld w 7 5)) else .error .zeroField)
  else
  if fld w 22 3 = 6#3 then (if fld w 17 5 = 0#5 then .ok (.vscan (fld w 30 2) (fld w 27 3) (Width.ofBits (fld w 25 2)) (fld w 12 5) (fld w 7 5)) else .error .zeroField)
  else
  if fld w 22 3 = 7#3 then (if fld w 17 5 = 0#5 then .ok (.vfscan (fld w 30 2) (fld w 27 3) (Flush.ofBits (fld w 25 2)) (fld w 12 5) (fld w 7 5)) else .error .zeroField)
  else
  .error .selector

/-- Major 0x49: VPERM, VSLIDEUP, VSLIDEDN, VBCAST, VCOMPRESS, VEXPAND, VSEL, VMV. -/
noncomputable def decode49 (w : BitVec 32) : Except DecodeError Instr :=
  if fld w 22 3 = 0#3 then .ok (.vperm (fld w 30 2) (fld w 27 3) (Width.ofBits (fld w 25 2)) (fld w 17 5) (fld w 12 5) (fld w 7 5))
  else
  if fld w 22 3 = 1#3 then .ok (.vslideup (fld w 30 2) (fld w 27 3) (Width.ofBits (fld w 25 2)) (fld w 17 5) (fld w 12 5) (fld w 7 5))
  else
  if fld w 22 3 = 2#3 then .ok (.vslidedn (fld w 30 2) (fld w 27 3) (Width.ofBits (fld w 25 2)) (fld w 17 5) (fld w 12 5) (fld w 7 5))
  else
  if fld w 22 3 = 3#3 then .ok (.vbcast (fld w 30 2) (fld w 27 3) (Width.ofBits (fld w 25 2)) (fld w 17 5) (fld w 12 5) (fld w 7 5))
  else
  if fld w 22 3 = 4#3 then (if fld w 17 5 = 0#5 then .ok (.vcompress (fld w 30 2) (fld w 27 3) (Width.ofBits (fld w 25 2)) (fld w 12 5) (fld w 7 5)) else .error .zeroField)
  else
  if fld w 22 3 = 5#3 then (if fld w 17 5 = 0#5 then .ok (.vexpand (fld w 30 2) (fld w 27 3) (Width.ofBits (fld w 25 2)) (fld w 12 5) (fld w 7 5)) else .error .zeroField)
  else
  if fld w 22 3 = 6#3 then .ok (.vsel (fld w 30 2) (fld w 27 3) (Width.ofBits (fld w 25 2)) (fld w 17 5) (fld w 12 5) (fld w 7 5))
  else
  if fld w 22 3 = 7#3 then (if fld w 17 5 = 0#5 then .ok (.vmv (fld w 30 2) (fld w 27 3) (Width.ofBits (fld w 25 2)) (fld w 12 5) (fld w 7 5)) else .error .zeroField)
  else
  .error .selector

/-- Major 0x4A: VMRGU, VMRGI. -/
noncomputable def decode4A (w : BitVec 32) : Except DecodeError Instr :=
  if fld w 22 3 = 0#3 then (if fld w 30 2 = 0#2 then .ok (.vmrgu (fld w 27 3) (Width.ofBits (fld w 25 2)) (fld w 17 5) (fld w 12 5) (fld w 7 5)) else .error .zeroField)
  else
  if fld w 22 3 = 1#3 then (if fld w 30 2 = 0#2 then .ok (.vmrgi (fld w 27 3) (Width.ofBits (fld w 25 2)) (fld w 17 5) (fld w 12 5) (fld w 7 5)) else .error .zeroField)
  else
  .error .selector

/-- Major 0x4B: VCVT, VTBDEC, VTBENC. -/
noncomputable def decode4B (w : BitVec 32) : Except DecodeError Instr :=
  if fld w 22 3 = 0#3 then .ok (.vcvt (fld w 30 2) (fld w 27 3) (Width.ofBits (fld w 25 2)) (fld w 17 5) (fld w 12 5) (fld w 7 5))
  else
  if fld w 22 3 = 1#3 then .ok (.vtbdec (fld w 30 2) (fld w 27 3) (Width.ofBits (fld w 25 2)) (fld w 17 5) (fld w 12 5) (fld w 7 5))
  else
  if fld w 22 3 = 2#3 then .ok (.vtbenc (fld w 30 2) (fld w 27 3) (Width.ofBits (fld w 25 2)) (fld w 17 5) (fld w 12 5) (fld w 7 5))
  else
  .error .selector

/-- Major 0x4C: VLD, VST. -/
noncomputable def decode4C (w : BitVec 32) : Except DecodeError Instr :=
  if fld w 22 1 = 0#1 then .ok (.vld (Ord.ofBits (fld w 30 2)) (fld w 27 3) (Width.ofBits (fld w 25 2)) (fld w 23 2) (fld w 17 5) (fld w 12 5) (fld w 7 5))
  else
  if fld w 22 1 = 1#1 then .ok (.vst (Ord.ofBits (fld w 30 2)) (fld w 27 3) (Width.ofBits (fld w 25 2)) (fld w 23 2) (fld w 17 5) (fld w 12 5) (fld w 7 5))
  else
  .error .selector

/-- Major 0x4D: VLDS, VSTS. -/
noncomputable def decode4D (w : BitVec 32) : Except DecodeError Instr :=
  if fld w 22 1 = 0#1 then (if fld w 23 2 = 0#2 then .ok (.vlds (Ord.ofBits (fld w 30 2)) (fld w 27 3) (Width.ofBits (fld w 25 2)) (fld w 17 5) (fld w 12 5) (fld w 7 5)) else .error .zeroField)
  else
  if fld w 22 1 = 1#1 then (if fld w 23 2 = 0#2 then .ok (.vsts (Ord.ofBits (fld w 30 2)) (fld w 27 3) (Width.ofBits (fld w 25 2)) (fld w 17 5) (fld w 12 5) (fld w 7 5)) else .error .zeroField)
  else
  .error .selector

/-- Major 0x4E: VLDX, VSTX. -/
noncomputable def decode4E (w : BitVec 32) : Except DecodeError Instr :=
  if fld w 22 1 = 0#1 then (if fld w 23 2 = 0#2 then .ok (.vldx (Ord.ofBits (fld w 30 2)) (fld w 27 3) (Width.ofBits (fld w 25 2)) (fld w 17 5) (fld w 12 5) (fld w 7 5)) else .error .zeroField)
  else
  if fld w 22 1 = 1#1 then (if fld w 23 2 = 0#2 then .ok (.vstx (Ord.ofBits (fld w 30 2)) (fld w 27 3) (Width.ofBits (fld w 25 2)) (fld w 17 5) (fld w 12 5) (fld w 7 5)) else .error .zeroField)
  else
  .error .selector

/-- Major 0x4F: VLDT, VPARK, VUNPARK, VMVX, VMVXV. -/
noncomputable def decode4F (w : BitVec 32) : Except DecodeError Instr :=
  if fld w 22 3 = 0#3 then .ok (.vldt (Ord.ofBits (fld w 30 2)) (fld w 27 3) (Width.ofBits (fld w 25 2)) (fld w 17 5) (fld w 12 5) (fld w 7 5))
  else
  if fld w 22 3 = 1#3 then (if fld w 25 7 = 2#7 then .ok (.vpark (fld w 17 5) (fld w 12 5) (fld w 7 5)) else .error .zeroField)
  else
  if fld w 22 3 = 2#3 then (if fld w 25 7 = 2#7 then .ok (.vunpark (fld w 17 5) (fld w 12 5) (fld w 7 5)) else .error .zeroField)
  else
  if fld w 22 3 = 3#3 then (if fld w 17 5 = 0#5 then .ok (.vmvx (fld w 30 2) (fld w 27 3) (Width.ofBits (fld w 25 2)) (fld w 12 5) (fld w 7 5)) else .error .zeroField)
  else
  if fld w 22 3 = 4#3 then (if fld w 17 5 = 0#5 ∧ fld w 27 3 = 0#3 then .ok (.vmvxv (fld w 30 2) (Width.ofBits (fld w 25 2)) (fld w 12 5) (fld w 7 5)) else .error .zeroField)
  else
  .error .selector

/-- Major 0x50: VADD_CH, VSUB_CH, VMUL_CH, VMULH_CH, VMIN_CH, VMAX_CH, VMINU_CH, VMAXU_CH. -/
noncomputable def decode50 (w : BitVec 32) : Except DecodeError Instr :=
  if fld w 22 3 = 0#3 then (if fld w 16 1 = 0#1 then .ok (.vaddCh (fld w 30 2) (fld w 27 3) (Width.ofBits (fld w 25 2)) (fld w 17 5) (fld w 12 4) (fld w 7 5)) else .error .zeroField)
  else
  if fld w 22 3 = 1#3 then (if fld w 16 1 = 0#1 then .ok (.vsubCh (fld w 30 2) (fld w 27 3) (Width.ofBits (fld w 25 2)) (fld w 17 5) (fld w 12 4) (fld w 7 5)) else .error .zeroField)
  else
  if fld w 22 3 = 2#3 then (if fld w 16 1 = 0#1 then .ok (.vmulCh (fld w 30 2) (fld w 27 3) (Width.ofBits (fld w 25 2)) (fld w 17 5) (fld w 12 4) (fld w 7 5)) else .error .zeroField)
  else
  if fld w 22 3 = 3#3 then (if fld w 16 1 = 0#1 then .ok (.vmulhCh (fld w 30 2) (fld w 27 3) (Width.ofBits (fld w 25 2)) (fld w 17 5) (fld w 12 4) (fld w 7 5)) else .error .zeroField)
  else
  if fld w 22 3 = 4#3 then (if fld w 16 1 = 0#1 then .ok (.vminCh (fld w 30 2) (fld w 27 3) (Width.ofBits (fld w 25 2)) (fld w 17 5) (fld w 12 4) (fld w 7 5)) else .error .zeroField)
  else
  if fld w 22 3 = 5#3 then (if fld w 16 1 = 0#1 then .ok (.vmaxCh (fld w 30 2) (fld w 27 3) (Width.ofBits (fld w 25 2)) (fld w 17 5) (fld w 12 4) (fld w 7 5)) else .error .zeroField)
  else
  if fld w 22 3 = 6#3 then (if fld w 16 1 = 0#1 then .ok (.vminuCh (fld w 30 2) (fld w 27 3) (Width.ofBits (fld w 25 2)) (fld w 17 5) (fld w 12 4) (fld w 7 5)) else .error .zeroField)
  else
  if fld w 22 3 = 7#3 then (if fld w 16 1 = 0#1 then .ok (.vmaxuCh (fld w 30 2) (fld w 27 3) (Width.ofBits (fld w 25 2)) (fld w 17 5) (fld w 12 4) (fld w 7 5)) else .error .zeroField)
  else
  .error .selector

/-- Major 0x51: VAND_CH, VOR_CH, VXOR_CH, VANDN_CH, VSHL_CH, VSHR_CH, VSHRA_CH, VPOPC_CH. -/
noncomputable def decode51 (w : BitVec 32) : Except DecodeError Instr :=
  if fld w 22 3 = 0#3 then (if fld w 16 1 = 0#1 then .ok (.vandCh (fld w 30 2) (fld w 27 3) (Width.ofBits (fld w 25 2)) (fld w 17 5) (fld w 12 4) (fld w 7 5)) else .error .zeroField)
  else
  if fld w 22 3 = 1#3 then (if fld w 16 1 = 0#1 then .ok (.vorCh (fld w 30 2) (fld w 27 3) (Width.ofBits (fld w 25 2)) (fld w 17 5) (fld w 12 4) (fld w 7 5)) else .error .zeroField)
  else
  if fld w 22 3 = 2#3 then (if fld w 16 1 = 0#1 then .ok (.vxorCh (fld w 30 2) (fld w 27 3) (Width.ofBits (fld w 25 2)) (fld w 17 5) (fld w 12 4) (fld w 7 5)) else .error .zeroField)
  else
  if fld w 22 3 = 3#3 then (if fld w 16 1 = 0#1 then .ok (.vandnCh (fld w 30 2) (fld w 27 3) (Width.ofBits (fld w 25 2)) (fld w 17 5) (fld w 12 4) (fld w 7 5)) else .error .zeroField)
  else
  if fld w 22 3 = 4#3 then (if fld w 16 1 = 0#1 then .ok (.vshlCh (fld w 30 2) (fld w 27 3) (Width.ofBits (fld w 25 2)) (fld w 17 5) (fld w 12 4) (fld w 7 5)) else .error .zeroField)
  else
  if fld w 22 3 = 5#3 then (if fld w 16 1 = 0#1 then .ok (.vshrCh (fld w 30 2) (fld w 27 3) (Width.ofBits (fld w 25 2)) (fld w 17 5) (fld w 12 4) (fld w 7 5)) else .error .zeroField)
  else
  if fld w 22 3 = 6#3 then (if fld w 16 1 = 0#1 then .ok (.vshraCh (fld w 30 2) (fld w 27 3) (Width.ofBits (fld w 25 2)) (fld w 17 5) (fld w 12 4) (fld w 7 5)) else .error .zeroField)
  else
  if fld w 22 3 = 7#3 then (if fld w 16 6 = 0#6 then .ok (.vpopcCh (fld w 30 2) (fld w 27 3) (Width.ofBits (fld w 25 2)) (fld w 12 4) (fld w 7 5)) else .error .zeroField)
  else
  .error .selector

/-- Major 0x52: VFADD_CH, VFSUB_CH, VFMUL_CH, VFDIV_CH, VFMIN_CH, VFMAX_CH, VFSQRT_CH, VFABS_CH. -/
noncomputable def decode52 (w : BitVec 32) : Except DecodeError Instr :=
  if fld w 22 3 = 0#3 then (if fld w 16 1 = 0#1 then .ok (.vfaddCh (fld w 30 2) (fld w 27 3) (Flush.ofBits (fld w 25 2)) (fld w 17 5) (fld w 12 4) (fld w 7 5)) else .error .zeroField)
  else
  if fld w 22 3 = 1#3 then (if fld w 16 1 = 0#1 then .ok (.vfsubCh (fld w 30 2) (fld w 27 3) (Flush.ofBits (fld w 25 2)) (fld w 17 5) (fld w 12 4) (fld w 7 5)) else .error .zeroField)
  else
  if fld w 22 3 = 2#3 then (if fld w 16 1 = 0#1 then .ok (.vfmulCh (fld w 30 2) (fld w 27 3) (Flush.ofBits (fld w 25 2)) (fld w 17 5) (fld w 12 4) (fld w 7 5)) else .error .zeroField)
  else
  if fld w 22 3 = 3#3 then (if fld w 16 1 = 0#1 ∧ fld w 30 2 = 0#2 then .ok (.vfdivCh (fld w 27 3) (Flush.ofBits (fld w 25 2)) (fld w 17 5) (fld w 12 4) (fld w 7 5)) else .error .zeroField)
  else
  if fld w 22 3 = 4#3 then (if fld w 16 1 = 0#1 then .ok (.vfminCh (fld w 30 2) (fld w 27 3) (Flush.ofBits (fld w 25 2)) (fld w 17 5) (fld w 12 4) (fld w 7 5)) else .error .zeroField)
  else
  if fld w 22 3 = 5#3 then (if fld w 16 1 = 0#1 then .ok (.vfmaxCh (fld w 30 2) (fld w 27 3) (Flush.ofBits (fld w 25 2)) (fld w 17 5) (fld w 12 4) (fld w 7 5)) else .error .zeroField)
  else
  if fld w 22 3 = 6#3 then (if fld w 16 6 = 0#6 then .ok (.vfsqrtCh (fld w 30 2) (fld w 27 3) (Flush.ofBits (fld w 25 2)) (fld w 12 4) (fld w 7 5)) else .error .zeroField)
  else
  if fld w 22 3 = 7#3 then (if fld w 16 6 = 0#6 ∧ fld w 25 2 = 0#2 then .ok (.vfabsCh (fld w 30 2) (fld w 27 3) (fld w 12 4) (fld w 7 5)) else .error .zeroField)
  else
  .error .selector

/-- Major 0x53: VFMA_CH, VFMS_CH, VFNMA_CH, VFNMS_CH. -/
noncomputable def decode53 (w : BitVec 32) : Except DecodeError Instr :=
  if fld w 22 3 = 0#3 then (if fld w 16 1 = 0#1 then .ok (.vfmaCh (fld w 30 2) (fld w 27 3) (Flush.ofBits (fld w 25 2)) (fld w 17 5) (fld w 12 4) (fld w 7 5)) else .error .zeroField)
  else
  if fld w 22 3 = 1#3 then (if fld w 16 1 = 0#1 then .ok (.vfmsCh (fld w 30 2) (fld w 27 3) (Flush.ofBits (fld w 25 2)) (fld w 17 5) (fld w 12 4) (fld w 7 5)) else .error .zeroField)
  else
  if fld w 22 3 = 2#3 then (if fld w 16 1 = 0#1 then .ok (.vfnmaCh (fld w 30 2) (fld w 27 3) (Flush.ofBits (fld w 25 2)) (fld w 17 5) (fld w 12 4) (fld w 7 5)) else .error .zeroField)
  else
  if fld w 22 3 = 3#3 then (if fld w 16 1 = 0#1 then .ok (.vfnmsCh (fld w 30 2) (fld w 27 3) (Flush.ofBits (fld w 25 2)) (fld w 17 5) (fld w 12 4) (fld w 7 5)) else .error .zeroField)
  else
  .error .selector

/-- Major 0x54: VCMPEQ_CH, VCMPNE_CH, VCMPLT_CH, VCMPLE_CH, VCMPLTU_CH, VCMPLEU_CH. -/
noncomputable def decode54 (w : BitVec 32) : Except DecodeError Instr :=
  if fld w 22 3 = 0#3 then (if fld w 10 2 = 0#2 ∧ fld w 16 1 = 0#1 then .ok (.vcmpeqCh (fld w 30 2) (fld w 27 3) (Width.ofBits (fld w 25 2)) (fld w 17 5) (fld w 12 4) (fld w 7 3)) else .error .zeroField)
  else
  if fld w 22 3 = 1#3 then (if fld w 10 2 = 0#2 ∧ fld w 16 1 = 0#1 then .ok (.vcmpneCh (fld w 30 2) (fld w 27 3) (Width.ofBits (fld w 25 2)) (fld w 17 5) (fld w 12 4) (fld w 7 3)) else .error .zeroField)
  else
  if fld w 22 3 = 2#3 then (if fld w 10 2 = 0#2 ∧ fld w 16 1 = 0#1 then .ok (.vcmpltCh (fld w 30 2) (fld w 27 3) (Width.ofBits (fld w 25 2)) (fld w 17 5) (fld w 12 4) (fld w 7 3)) else .error .zeroField)
  else
  if fld w 22 3 = 3#3 then (if fld w 10 2 = 0#2 ∧ fld w 16 1 = 0#1 then .ok (.vcmpleCh (fld w 30 2) (fld w 27 3) (Width.ofBits (fld w 25 2)) (fld w 17 5) (fld w 12 4) (fld w 7 3)) else .error .zeroField)
  else
  if fld w 22 3 = 4#3 then (if fld w 10 2 = 0#2 ∧ fld w 16 1 = 0#1 then .ok (.vcmpltuCh (fld w 30 2) (fld w 27 3) (Width.ofBits (fld w 25 2)) (fld w 17 5) (fld w 12 4) (fld w 7 3)) else .error .zeroField)
  else
  if fld w 22 3 = 5#3 then (if fld w 10 2 = 0#2 ∧ fld w 16 1 = 0#1 then .ok (.vcmpleuCh (fld w 30 2) (fld w 27 3) (Width.ofBits (fld w 25 2)) (fld w 17 5) (fld w 12 4) (fld w 7 3)) else .error .zeroField)
  else
  .error .selector

/-- Major 0x55: VFCMPEQ_CH, VFCMPLT_CH, VFCMPLE_CH, VFCMPUN_CH. -/
noncomputable def decode55 (w : BitVec 32) : Except DecodeError Instr :=
  if fld w 22 3 = 0#3 then (if fld w 10 2 = 0#2 ∧ fld w 16 1 = 0#1 ∧ fld w 25 1 = 0#1 then .ok (.vfcmpeqCh (fld w 30 2) (fld w 27 3) (bit w 26) (fld w 17 5) (fld w 12 4) (fld w 7 3)) else .error .zeroField)
  else
  if fld w 22 3 = 1#3 then (if fld w 10 2 = 0#2 ∧ fld w 16 1 = 0#1 ∧ fld w 25 1 = 0#1 then .ok (.vfcmpltCh (fld w 30 2) (fld w 27 3) (bit w 26) (fld w 17 5) (fld w 12 4) (fld w 7 3)) else .error .zeroField)
  else
  if fld w 22 3 = 2#3 then (if fld w 10 2 = 0#2 ∧ fld w 16 1 = 0#1 ∧ fld w 25 1 = 0#1 then .ok (.vfcmpleCh (fld w 30 2) (fld w 27 3) (bit w 26) (fld w 17 5) (fld w 12 4) (fld w 7 3)) else .error .zeroField)
  else
  if fld w 22 3 = 3#3 then (if fld w 10 2 = 0#2 ∧ fld w 16 1 = 0#1 ∧ fld w 25 1 = 0#1 then .ok (.vfcmpunCh (fld w 30 2) (fld w 27 3) (bit w 26) (fld w 17 5) (fld w 12 4) (fld w 7 3)) else .error .zeroField)
  else
  .error .selector

/-- Major 0x56: VBOOL3_CH. -/
noncomputable def decode56 (w : BitVec 32) : Except DecodeError Instr :=
  if fld w 16 1 = 0#1 then .ok (.vbool3Ch (fld w 30 2) (fld w 22 8) (fld w 17 5) (fld w 12 4) (fld w 7 5)) else .error .zeroField

/-- Major 0x57: VFSHL_CH, VFSHR_CH, VROTL_CH, VROTR_CH. -/
noncomputable def decode57 (w : BitVec 32) : Except DecodeError Instr :=
  if fld w 22 2 = 0#2 then (if fld w 16 1 = 0#1 then .ok (.vfshlCh (fld w 30 2) (fld w 24 6) (fld w 17 5) (fld w 12 4) (fld w 7 5)) else .error .zeroField)
  else
  if fld w 22 2 = 1#2 then (if fld w 16 1 = 0#1 then .ok (.vfshrCh (fld w 30 2) (fld w 24 6) (fld w 17 5) (fld w 12 4) (fld w 7 5)) else .error .zeroField)
  else
  if fld w 22 2 = 2#2 then (if fld w 16 6 = 0#6 then .ok (.vrotlCh (fld w 30 2) (fld w 24 6) (fld w 12 4) (fld w 7 5)) else .error .zeroField)
  else
  if fld w 22 2 = 3#2 then (if fld w 16 6 = 0#6 then .ok (.vrotrCh (fld w 30 2) (fld w 24 6) (fld w 12 4) (fld w 7 5)) else .error .zeroField)
  else
  .error .selector

/-- Major 0x58: VREDSUM_CH, VREDMIN_CH, VREDMAX_CH, VFREDSUM_CH, VFREDMIN_CH, VFREDMAX_CH, VSCAN_CH, VFSCAN_CH. -/
noncomputable def decode58 (w : BitVec 32) : Except DecodeError Instr :=
  if fld w 22 3 = 0#3 then (if fld w 16 6 = 0#6 then .ok (.vredsumCh (fld w 30 2) (fld w 27 3) (Width.ofBits (fld w 25 2)) (fld w 12 4) (fld w 7 5)) else .error .zeroField)
  else
  if fld w 22 3 = 1#3 then (if fld w 16 6 = 0#6 then .ok (.vredminCh (fld w 30 2) (fld w 27 3) (Width.ofBits (fld w 25 2)) (fld w 12 4) (fld w 7 5)) else .error .zeroField)
  else
  if fld w 22 3 = 2#3 then (if fld w 16 6 = 0#6 then .ok (.vredmaxCh (fld w 30 2) (fld w 27 3) (Width.ofBits (fld w 25 2)) (fld w 12 4) (fld w 7 5)) else .error .zeroField)
  else
  if fld w 22 3 = 3#3 then (if fld w 16 6 = 0#6 then .ok (.vfredsumCh (fld w 30 2) (fld w 27 3) (Flush.ofBits (fld w 25 2)) (fld w 12 4) (fld w 7 5)) else .error .zeroField)
  else
  if fld w 22 3 = 4#3 then (if fld w 16 6 = 0#6 then .ok (.vfredminCh (fld w 30 2) (fld w 27 3) (Flush.ofBits (fld w 25 2)) (fld w 12 4) (fld w 7 5)) else .error .zeroField)
  else
  if fld w 22 3 = 5#3 then (if fld w 16 6 = 0#6 then .ok (.vfredmaxCh (fld w 30 2) (fld w 27 3) (Flush.ofBits (fld w 25 2)) (fld w 12 4) (fld w 7 5)) else .error .zeroField)
  else
  if fld w 22 3 = 6#3 then (if fld w 16 6 = 0#6 then .ok (.vscanCh (fld w 30 2) (fld w 27 3) (Width.ofBits (fld w 25 2)) (fld w 12 4) (fld w 7 5)) else .error .zeroField)
  else
  if fld w 22 3 = 7#3 then (if fld w 16 6 = 0#6 then .ok (.vfscanCh (fld w 30 2) (fld w 27 3) (Flush.ofBits (fld w 25 2)) (fld w 12 4) (fld w 7 5)) else .error .zeroField)
  else
  .error .selector

/-- Major 0x59: VPERM_CH, VSLIDEUP_CH, VSLIDEDN_CH, VBCAST_CH, VCOMPRESS_CH, VEXPAND_CH, VSEL_CH, VMV_CH. -/
noncomputable def decode59 (w : BitVec 32) : Except DecodeError Instr :=
  if fld w 22 3 = 0#3 then (if fld w 16 1 = 0#1 then .ok (.vpermCh (fld w 30 2) (fld w 27 3) (Width.ofBits (fld w 25 2)) (fld w 17 5) (fld w 12 4) (fld w 7 5)) else .error .zeroField)
  else
  if fld w 22 3 = 1#3 then (if fld w 16 1 = 0#1 then .ok (.vslideupCh (fld w 30 2) (fld w 27 3) (Width.ofBits (fld w 25 2)) (fld w 17 5) (fld w 12 4) (fld w 7 5)) else .error .zeroField)
  else
  if fld w 22 3 = 2#3 then (if fld w 16 1 = 0#1 then .ok (.vslidednCh (fld w 30 2) (fld w 27 3) (Width.ofBits (fld w 25 2)) (fld w 17 5) (fld w 12 4) (fld w 7 5)) else .error .zeroField)
  else
  if fld w 22 3 = 3#3 then (if fld w 16 1 = 0#1 then .ok (.vbcastCh (fld w 30 2) (fld w 27 3) (Width.ofBits (fld w 25 2)) (fld w 17 5) (fld w 12 4) (fld w 7 5)) else .error .zeroField)
  else
  if fld w 22 3 = 4#3 then (if fld w 16 6 = 0#6 then .ok (.vcompressCh (fld w 30 2) (fld w 27 3) (Width.ofBits (fld w 25 2)) (fld w 12 4) (fld w 7 5)) else .error .zeroField)
  else
  if fld w 22 3 = 5#3 then (if fld w 16 6 = 0#6 then .ok (.vexpandCh (fld w 30 2) (fld w 27 3) (Width.ofBits (fld w 25 2)) (fld w 12 4) (fld w 7 5)) else .error .zeroField)
  else
  if fld w 22 3 = 6#3 then (if fld w 16 1 = 0#1 then .ok (.vselCh (fld w 30 2) (fld w 27 3) (Width.ofBits (fld w 25 2)) (fld w 17 5) (fld w 12 4) (fld w 7 5)) else .error .zeroField)
  else
  if fld w 22 3 = 7#3 then (if fld w 16 6 = 0#6 then .ok (.vmvCh (fld w 30 2) (fld w 27 3) (Width.ofBits (fld w 25 2)) (fld w 12 4) (fld w 7 5)) else .error .zeroField)
  else
  .error .selector

/-- Major 0x5A: VMRGU_CH, VMRGI_CH. -/
noncomputable def decode5A (w : BitVec 32) : Except DecodeError Instr :=
  if fld w 22 3 = 0#3 then (if fld w 16 1 = 0#1 ∧ fld w 30 2 = 0#2 then .ok (.vmrguCh (fld w 27 3) (Width.ofBits (fld w 25 2)) (fld w 17 5) (fld w 12 4) (fld w 7 5)) else .error .zeroField)
  else
  if fld w 22 3 = 1#3 then (if fld w 16 1 = 0#1 ∧ fld w 30 2 = 0#2 then .ok (.vmrgiCh (fld w 27 3) (Width.ofBits (fld w 25 2)) (fld w 17 5) (fld w 12 4) (fld w 7 5)) else .error .zeroField)
  else
  .error .selector

/-- Major 0x5B: KAND, KOR, KXOR, KANDN, KNOT. -/
noncomputable def decode5B (w : BitVec 32) : Except DecodeError Instr :=
  if fld w 22 3 = 0#3 then (if fld w 10 2 = 0#2 ∧ fld w 15 2 = 0#2 ∧ fld w 20 2 = 0#2 ∧ fld w 25 5 = 0#5 then .ok (.kand (fld w 30 2) (fld w 17 3) (fld w 12 3) (fld w 7 3)) else .error .zeroField)
  else
  if fld w 22 3 = 1#3 then (if fld w 10 2 = 0#2 ∧ fld w 15 2 = 0#2 ∧ fld w 20 2 = 0#2 ∧ fld w 25 5 = 0#5 then .ok (.kor (fld w 30 2) (fld w 17 3) (fld w 12 3) (fld w 7 3)) else .error .zeroField)
  else
  if fld w 22 3 = 2#3 then (if fld w 10 2 = 0#2 ∧ fld w 15 2 = 0#2 ∧ fld w 20 2 = 0#2 ∧ fld w 25 5 = 0#5 then .ok (.kxor (fld w 30 2) (fld w 17 3) (fld w 12 3) (fld w 7 3)) else .error .zeroField)
  else
  if fld w 22 3 = 3#3 then (if fld w 10 2 = 0#2 ∧ fld w 15 2 = 0#2 ∧ fld w 20 2 = 0#2 ∧ fld w 25 5 = 0#5 then .ok (.kandn (fld w 30 2) (fld w 17 3) (fld w 12 3) (fld w 7 3)) else .error .zeroField)
  else
  if fld w 22 3 = 4#3 then (if fld w 10 2 = 0#2 ∧ fld w 15 7 = 0#7 ∧ fld w 25 5 = 0#5 then .ok (.knot (fld w 30 2) (fld w 12 3) (fld w 7 3)) else .error .zeroField)
  else
  .error .selector

/-- Major 0x5C: KMV_K_TO_X, KMV_X_TO_K, KPOPC, KFIRST. -/
noncomputable def decode5C (w : BitVec 32) : Except DecodeError Instr :=
  if fld w 22 3 = 0#3 then (if fld w 15 7 = 0#7 ∧ fld w 25 5 = 0#5 then .ok (.kmvKToX (fld w 30 2) (fld w 12 3) (fld w 7 5)) else .error .zeroField)
  else
  if fld w 22 3 = 1#3 then (if fld w 10 2 = 0#2 ∧ fld w 17 5 = 0#5 ∧ fld w 25 5 = 0#5 then .ok (.kmvXToK (fld w 30 2) (fld w 12 5) (fld w 7 3)) else .error .zeroField)
  else
  if fld w 22 3 = 2#3 then (if fld w 15 7 = 0#7 ∧ fld w 25 5 = 0#5 then .ok (.kpopc (fld w 30 2) (fld w 12 3) (fld w 7 5)) else .error .zeroField)
  else
  if fld w 22 3 = 3#3 then (if fld w 15 7 = 0#7 ∧ fld w 25 5 = 0#5 then .ok (.kfirst (fld w 30 2) (fld w 12 3) (fld w 7 5)) else .error .zeroField)
  else
  .error .selector

/-- Major 0x60: MZERO, MRDV, MWRV. -/
noncomputable def decode60 (w : BitVec 32) : Except DecodeError Instr :=
  if fld w 27 3 = 0#3 then (if fld w 7 5 = 0#5 ∧ fld w 22 5 = 0#5 ∧ fld w 30 2 = 0#2 then .ok (.mzero (fld w 17 5) (fld w 12 5)) else .error .zeroField)
  else
  if fld w 27 3 = 1#3 then (if fld w 17 10 = 0#10 ∧ fld w 30 2 = 0#2 then .ok (.mrdv (fld w 12 5) (fld w 7 5)) else .error .zeroField)
  else
  if fld w 27 3 = 2#3 then (if fld w 7 5 = 0#5 ∧ fld w 22 5 = 0#5 ∧ fld w 30 2 = 0#2 then .ok (.mwrv (fld w 17 5) (fld w 12 5)) else .error .zeroField)
  else
  .error .selector

/-- Major 0x61: MMAC. -/
noncomputable def decode61 (w : BitVec 32) : Except DecodeError Instr :=
  if fld w 23 4 = 0#4 ∧ fld w 30 2 = 0#2 then .ok (.mmac (fld w 27 3) (bit w 22) (fld w 17 5) (fld w 12 5) (fld w 7 5)) else .error .zeroField

/-- Major 0x62: MBIN. -/
noncomputable def decode62 (w : BitVec 32) : Except DecodeError Instr :=
  if fld w 28 2 = 0#2 then (if fld w 23 4 = 0#4 ∧ fld w 30 2 = 0#2 then .ok (.mbin (bit w 27) (bit w 22) (fld w 17 5) (fld w 12 5) (fld w 7 5)) else .error .zeroField)
  else
  .error .selector

/-- Major 0x63: MSTORE, MLOAD. -/
noncomputable def decode63 (w : BitVec 32) : Except DecodeError Instr :=
  if fld w 27 3 = 0#3 then (if fld w 7 5 = 0#5 then .ok (.mstore (Ord.ofBits (fld w 30 2)) (fld w 25 2) (fld w 22 3) (fld w 17 5) (fld w 12 5)) else .error .zeroField)
  else
  if fld w 27 3 = 1#3 then (if fld w 7 5 = 0#5 then .ok (.mload (Ord.ofBits (fld w 30 2)) (fld w 25 2) (fld w 22 3) (fld w 17 5) (fld w 12 5)) else .error .zeroField)
  else
  .error .selector

/-- Major 0x64: MSWAP. -/
noncomputable def decode64 (w : BitVec 32) : Except DecodeError Instr :=
  if fld w 27 3 = 0#3 then (if fld w 22 5 = 0#5 ∧ fld w 30 2 = 0#2 then .ok (.mswap (fld w 17 5) (fld w 12 5) (fld w 7 5)) else .error .zeroField)
  else
  .error .selector

/-- Major 0x65: CPY. -/
noncomputable def decode65 (w : BitVec 32) : Except DecodeError Instr :=
  if fld w 27 3 = 0#3 then (if fld w 7 5 = 0#5 ∧ fld w 17 10 = 0#10 ∧ fld w 30 2 = 0#2 then .ok (.cpy (fld w 12 5)) else .error .zeroField)
  else
  .error .selector

/-- Major 0x66: GATH, SCAT. -/
noncomputable def decode66 (w : BitVec 32) : Except DecodeError Instr :=
  if fld w 27 3 = 0#3 then (if fld w 7 5 = 0#5 ∧ fld w 17 10 = 0#10 ∧ fld w 30 2 = 0#2 then .ok (.gath (fld w 12 5)) else .error .zeroField)
  else
  if fld w 27 3 = 1#3 then (if fld w 7 5 = 0#5 ∧ fld w 17 10 = 0#10 ∧ fld w 30 2 = 0#2 then .ok (.scat (fld w 12 5)) else .error .zeroField)
  else
  .error .selector

/-- Major 0x67: QMUL, QADD, QRESUME, QCANCEL, QSTAT, QPOOL. -/
noncomputable def decode67 (w : BitVec 32) : Except DecodeError Instr :=
  if fld w 27 3 = 0#3 then (if fld w 22 5 = 0#5 ∧ fld w 30 2 = 0#2 then .ok (.qmul (fld w 17 5) (fld w 12 5) (fld w 7 5)) else .error .zeroField)
  else
  if fld w 27 3 = 1#3 then (if fld w 22 5 = 0#5 ∧ fld w 30 2 = 0#2 then .ok (.qadd (fld w 17 5) (fld w 12 5) (fld w 7 5)) else .error .zeroField)
  else
  if fld w 27 3 = 2#3 then (if fld w 7 5 = 0#5 ∧ fld w 17 10 = 0#10 ∧ fld w 30 2 = 0#2 then .ok (.qresume (fld w 12 5)) else .error .zeroField)
  else
  if fld w 27 3 = 3#3 then (if fld w 17 10 = 0#10 ∧ fld w 30 2 = 0#2 then .ok (.qcancel (fld w 12 5) (fld w 7 5)) else .error .zeroField)
  else
  if fld w 27 3 = 4#3 then (if fld w 17 10 = 0#10 ∧ fld w 30 2 = 0#2 then .ok (.qstat (fld w 12 5) (fld w 7 5)) else .error .zeroField)
  else
  if fld w 27 3 = 5#3 then (if fld w 23 4 = 0#4 ∧ fld w 30 2 = 0#2 then .ok (.qpool (bit w 22) (fld w 17 5) (fld w 12 5) (fld w 7 5)) else .error .zeroField)
  else
  .error .selector

/-- Major 0x68: WTAGANY, WTAGALL, FTAG. -/
noncomputable def decode68 (w : BitVec 32) : Except DecodeError Instr :=
  if fld w 27 3 = 0#3 then (if fld w 17 10 = 0#10 ∧ fld w 30 2 = 0#2 then .ok (.wtagany (fld w 12 5) (fld w 7 5)) else .error .zeroField)
  else
  if fld w 27 3 = 1#3 then (if fld w 17 10 = 0#10 ∧ fld w 30 2 = 0#2 then .ok (.wtagall (fld w 12 5) (fld w 7 5)) else .error .zeroField)
  else
  if fld w 27 3 = 2#3 then (if fld w 17 10 = 0#10 ∧ fld w 30 2 = 0#2 then .ok (.ftag (fld w 12 5) (fld w 7 5)) else .error .zeroField)
  else
  .error .selector

/-- Major 0x70: SEND, SENDX, SENDR. -/
noncomputable def decode70 (w : BitVec 32) : Except DecodeError Instr :=
  if fld w 27 3 = 0#3 then (if fld w 7 5 = 0#5 ∧ fld w 30 2 = 0#2 then .ok (.send (fld w 25 2) (fld w 22 3) (fld w 17 5) (fld w 12 5)) else .error .zeroField)
  else
  if fld w 27 3 = 1#3 then (if fld w 7 5 = 0#5 ∧ fld w 30 2 = 0#2 then .ok (.sendx (fld w 25 2) (fld w 22 3) (fld w 17 5) (fld w 12 5)) else .error .zeroField)
  else
  if fld w 27 3 = 2#3 then (if fld w 7 5 = 0#5 ∧ fld w 25 2 = 1#2 ∧ fld w 30 2 = 0#2 then .ok (.sendr (fld w 22 3) (fld w 17 5) (fld w 12 5)) else .error .zeroField)
  else
  .error .selector

/-- Major 0x71: GSEND. -/
noncomputable def decode71 (w : BitVec 32) : Except DecodeError Instr :=
  if fld w 27 3 = 0#3 then (if fld w 7 5 = 0#5 ∧ fld w 30 2 = 0#2 then .ok (.gsend (fld w 25 2) (fld w 22 3) (fld w 17 5) (fld w 12 5)) else .error .zeroField)
  else
  .error .selector

/-- Major 0x72: HTSET, HTGET, HTCLR. -/
noncomputable def decode72 (w : BitVec 32) : Except DecodeError Instr :=
  if fld w 27 3 = 0#3 then (if fld w 7 5 = 0#5 ∧ fld w 22 5 = 0#5 ∧ fld w 30 2 = 0#2 then .ok (.htset (fld w 17 5) (fld w 12 5)) else .error .zeroField)
  else
  if fld w 27 3 = 1#3 then (if fld w 17 10 = 0#10 ∧ fld w 30 2 = 0#2 then .ok (.htget (fld w 12 5) (fld w 7 5)) else .error .zeroField)
  else
  if fld w 27 3 = 2#3 then (if fld w 7 5 = 0#5 ∧ fld w 17 10 = 0#10 ∧ fld w 30 2 = 0#2 then .ok (.htclr (fld w 12 5)) else .error .zeroField)
  else
  .error .selector

/-- Major 0x73: CHMSK, CHUNM, MPEEK, MDROP. -/
noncomputable def decode73 (w : BitVec 32) : Except DecodeError Instr :=
  if fld w 27 3 = 0#3 then (if fld w 17 10 = 0#10 ∧ fld w 30 2 = 0#2 then .ok (.chmsk (fld w 12 5) (fld w 7 5)) else .error .zeroField)
  else
  if fld w 27 3 = 1#3 then (if fld w 17 10 = 0#10 ∧ fld w 30 2 = 0#2 then .ok (.chunm (fld w 12 5) (fld w 7 5)) else .error .zeroField)
  else
  if fld w 27 3 = 2#3 then (if fld w 17 10 = 0#10 ∧ fld w 30 2 = 0#2 then .ok (.mpeek (fld w 12 5) (fld w 7 5)) else .error .zeroField)
  else
  if fld w 27 3 = 3#3 then (if fld w 7 5 = 0#5 ∧ fld w 17 10 = 0#10 ∧ fld w 30 2 = 0#2 then .ok (.mdrop (fld w 12 5)) else .error .zeroField)
  else
  .error .selector

/-- Major 0x74: JOIN, LEAVE, GBAR. -/
noncomputable def decode74 (w : BitVec 32) : Except DecodeError Instr :=
  if fld w 27 3 = 0#3 then (if fld w 17 10 = 0#10 ∧ fld w 30 2 = 0#2 then .ok (.join (fld w 12 5) (fld w 7 5)) else .error .zeroField)
  else
  if fld w 27 3 = 1#3 then (if fld w 17 10 = 0#10 ∧ fld w 30 2 = 0#2 then .ok (.leave (fld w 12 5) (fld w 7 5)) else .error .zeroField)
  else
  if fld w 27 3 = 2#3 then (if fld w 7 5 = 0#5 ∧ fld w 17 10 = 0#10 ∧ fld w 30 2 = 0#2 then .ok (.gbar (fld w 12 5)) else .error .zeroField)
  else
  .error .selector

/-- Major 0x75: XRED, XBCAST. -/
noncomputable def decode75 (w : BitVec 32) : Except DecodeError Instr :=
  if fld w 27 3 = 0#3 then (if fld w 7 5 = 0#5 ∧ fld w 22 5 = 0#5 ∧ fld w 30 2 = 0#2 then .ok (.xred (fld w 17 5) (fld w 12 5)) else .error .zeroField)
  else
  if fld w 27 3 = 1#3 then (if fld w 7 5 = 0#5 ∧ fld w 22 5 = 0#5 ∧ fld w 30 2 = 0#2 then .ok (.xbcast (fld w 17 5) (fld w 12 5)) else .error .zeroField)
  else
  .error .selector

/-- Major 0x76: ACTNEW, ACTEND. -/
noncomputable def decode76 (w : BitVec 32) : Except DecodeError Instr :=
  if fld w 27 3 = 0#3 then (if fld w 17 10 = 0#10 ∧ fld w 30 2 = 0#2 then .ok (.actnew (fld w 12 5) (fld w 7 5)) else .error .zeroField)
  else
  if fld w 27 3 = 1#3 then (if fld w 7 20 = 0#20 ∧ fld w 30 2 = 0#2 then .ok .actend else .error .zeroField)
  else
  .error .selector

/-- Major 0x77: QPUSH, QPOP. -/
noncomputable def decode77 (w : BitVec 32) : Except DecodeError Instr :=
  if fld w 27 3 = 0#3 then (if fld w 7 5 = 0#5 ∧ fld w 22 5 = 0#5 ∧ fld w 30 2 = 0#2 then .ok (.qpush (fld w 17 5) (fld w 12 5)) else .error .zeroField)
  else
  if fld w 27 3 = 1#3 then (if fld w 12 5 = 0#5 ∧ fld w 22 5 = 0#5 ∧ fld w 30 2 = 0#2 then .ok (.qpop (fld w 17 5) (fld w 7 5)) else .error .zeroField)
  else
  .error .selector

/-- Major 0x78: TARM, TDONE. -/
noncomputable def decode78 (w : BitVec 32) : Except DecodeError Instr :=
  if fld w 27 3 = 0#3 then (if fld w 7 5 = 0#5 ∧ fld w 22 5 = 0#5 ∧ fld w 30 2 = 0#2 then .ok (.tarm (fld w 17 5) (fld w 12 5)) else .error .zeroField)
  else
  if fld w 27 3 = 1#3 then (if fld w 7 5 = 0#5 ∧ fld w 17 10 = 0#10 ∧ fld w 30 2 = 0#2 then .ok (.tdone (fld w 12 5)) else .error .zeroField)
  else
  .error .selector

/-- Major 0x79: EGPOST, EGREL, EGDROP. -/
noncomputable def decode79 (w : BitVec 32) : Except DecodeError Instr :=
  if fld w 27 3 = 0#3 then (if fld w 7 5 = 0#5 ∧ fld w 22 5 = 0#5 ∧ fld w 30 2 = 0#2 then .ok (.egpost (fld w 17 5) (fld w 12 5)) else .error .zeroField)
  else
  if fld w 27 3 = 1#3 then (if fld w 7 5 = 0#5 ∧ fld w 17 10 = 0#10 ∧ fld w 30 2 = 0#2 then .ok (.egrel (fld w 12 5)) else .error .zeroField)
  else
  if fld w 27 3 = 2#3 then (if fld w 7 5 = 0#5 ∧ fld w 17 10 = 0#10 ∧ fld w 30 2 = 0#2 then .ok (.egdrop (fld w 12 5)) else .error .zeroField)
  else
  .error .selector

/-- The instruction of a word by its opcode tables, before the checks of WellFormed. -/
noncomputable def decodeFields (w : BitVec 32) : Except DecodeError Instr :=
  match (fld w 0 7).toNat with
  | 0x01 => decode01 w
  | 0x02 => decode02 w
  | 0x03 => decode03 w
  | 0x04 => decode04 w
  | 0x05 => decode05 w
  | 0x06 => decode06 w
  | 0x07 => decode07 w
  | 0x08 => decode08 w
  | 0x09 => decode09 w
  | 0x0A => decode0A w
  | 0x0B => decode0B w
  | 0x0C => decode0C w
  | 0x10 => decode10 w
  | 0x11 => decode11 w
  | 0x12 => decode12 w
  | 0x13 => decode13 w
  | 0x14 => decode14 w
  | 0x15 => decode15 w
  | 0x16 => decode16 w
  | 0x18 => decode18 w
  | 0x19 => decode19 w
  | 0x1A => decode1A w
  | 0x1B => decode1B w
  | 0x1C => decode1C w
  | 0x1D => decode1D w
  | 0x21 => decode21 w
  | 0x22 => decode22 w
  | 0x23 => decode23 w
  | 0x24 => decode24 w
  | 0x25 => decode25 w
  | 0x26 => decode26 w
  | 0x27 => decode27 w
  | 0x28 => decode28 w
  | 0x40 => decode40 w
  | 0x41 => decode41 w
  | 0x42 => decode42 w
  | 0x43 => decode43 w
  | 0x44 => decode44 w
  | 0x45 => decode45 w
  | 0x46 => decode46 w
  | 0x47 => decode47 w
  | 0x48 => decode48 w
  | 0x49 => decode49 w
  | 0x4A => decode4A w
  | 0x4B => decode4B w
  | 0x4C => decode4C w
  | 0x4D => decode4D w
  | 0x4E => decode4E w
  | 0x4F => decode4F w
  | 0x50 => decode50 w
  | 0x51 => decode51 w
  | 0x52 => decode52 w
  | 0x53 => decode53 w
  | 0x54 => decode54 w
  | 0x55 => decode55 w
  | 0x56 => decode56 w
  | 0x57 => decode57 w
  | 0x58 => decode58 w
  | 0x59 => decode59 w
  | 0x5A => decode5A w
  | 0x5B => decode5B w
  | 0x5C => decode5C w
  | 0x60 => decode60 w
  | 0x61 => decode61 w
  | 0x62 => decode62 w
  | 0x63 => decode63 w
  | 0x64 => decode64 w
  | 0x65 => decode65 w
  | 0x66 => decode66 w
  | 0x67 => decode67 w
  | 0x68 => decode68 w
  | 0x70 => decode70 w
  | 0x71 => decode71 w
  | 0x72 => decode72 w
  | 0x73 => decode73 w
  | 0x74 => decode74 w
  | 0x75 => decode75 w
  | 0x76 => decode76 w
  | 0x77 => decode77 w
  | 0x78 => decode78 w
  | 0x79 => decode79 w
  | _ => .error .major

/-- Decoding of one instruction word (R75). -/
noncomputable def decodeWord (w : BitVec 32) : Except DecodeError Instr :=
  match decodeFields w with
  | .ok i =>
    match i.check with
    | none => .ok i
    | some e => .error (.illFormed e)
  | .error e => .error e

/-- The word that four bytes hold, the first least significant (R6, R62). -/
def wordOfBytes (b0 b1 b2 b3 : Byte) : BitVec 32 := b3 ++ b2 ++ b1 ++ b0

/-- Decoding of the first instruction of a byte string, with the bytes that follow it. -/
noncomputable def decodeBytes : List Byte → Except DecodeError (Instr × List Byte)
  | b0 :: b1 :: b2 :: b3 :: rest =>
    match decodeWord (wordOfBytes b0 b1 b2 b3) with
    | .ok i => .ok (i, rest)
    | .error e => .error e
  | _ => .error .short

/-- Byte k of a number, for laying words out in memory. -/
def natByte (w k : Nat) : Byte := BitVec.ofNat 8 (w >>> (8 * k))

/-- The instruction that the decoder reads from the bits of an opcode-table row. Event rows have no bits and no word. -/
noncomputable def decodeTableWord (nbits w : Nat) : Option Instr :=
  if nbits = 32 then
    match decodeBytes [natByte w 0, natByte w 1, natByte w 2, natByte w 3] with
    | .ok (i, _) => some i
    | .error _ => none
  else none

/-- The word of an instruction, by the same tables (R63, R70 to R73). An event has no word: 0, which is illegal. -/
def encode : Instr → BitVec 32
  | .addi sc imm a d => sc ++ imm ++ a ++ d ++ 0x01#7
  | .andi sc imm a d => sc ++ imm ++ a ++ d ++ 0x02#7
  | .ori sc imm a d => sc ++ imm ++ a ++ d ++ 0x03#7
  | .xori sc imm a d => sc ++ imm ++ a ++ d ++ 0x04#7
  | .slti sc imm a d => sc ++ imm ++ a ++ d ++ 0x05#7
  | .sltiu sc imm a d => sc ++ imm ++ a ++ d ++ 0x06#7
  | .slli sc h a d => sc ++ 0#7 ++ h ++ a ++ d ++ 0x07#7
  | .srli sc h a d => sc ++ 32#7 ++ h ++ a ++ d ++ 0x07#7
  | .srai sc h a d => sc ++ 64#7 ++ h ++ a ++ d ++ 0x07#7
  | .rori sc h a d => sc ++ 96#7 ++ h ++ a ++ d ++ 0x07#7
  | .lui imm d => imm ++ d ++ 0x08#7
  | .auipc imm d => imm ++ d ++ 0x09#7
  | .add sc b a d => sc ++ 0#8 ++ b ++ a ++ d ++ 0x0A#7
  | .sub sc b a d => sc ++ 1#8 ++ b ++ a ++ d ++ 0x0A#7
  | .and sc b a d => sc ++ 2#8 ++ b ++ a ++ d ++ 0x0A#7
  | .or sc b a d => sc ++ 3#8 ++ b ++ a ++ d ++ 0x0A#7
  | .xor sc b a d => sc ++ 4#8 ++ b ++ a ++ d ++ 0x0A#7
  | .andn sc b a d => sc ++ 5#8 ++ b ++ a ++ d ++ 0x0A#7
  | .sll sc b a d => sc ++ 6#8 ++ b ++ a ++ d ++ 0x0A#7
  | .srl sc b a d => sc ++ 7#8 ++ b ++ a ++ d ++ 0x0A#7
  | .sra sc b a d => sc ++ 8#8 ++ b ++ a ++ d ++ 0x0A#7
  | .rol sc b a d => sc ++ 9#8 ++ b ++ a ++ d ++ 0x0A#7
  | .ror sc b a d => sc ++ 10#8 ++ b ++ a ++ d ++ 0x0A#7
  | .slt sc b a d => sc ++ 11#8 ++ b ++ a ++ d ++ 0x0A#7
  | .sltu sc b a d => sc ++ 12#8 ++ b ++ a ++ d ++ 0x0A#7
  | .min sc b a d => sc ++ 13#8 ++ b ++ a ++ d ++ 0x0A#7
  | .max sc b a d => sc ++ 14#8 ++ b ++ a ++ d ++ 0x0A#7
  | .minu sc b a d => sc ++ 15#8 ++ b ++ a ++ d ++ 0x0A#7
  | .maxu sc b a d => sc ++ 16#8 ++ b ++ a ++ d ++ 0x0A#7
  | .mul sc b a d => sc ++ 0#8 ++ b ++ a ++ d ++ 0x0B#7
  | .mulh sc b a d => sc ++ 32#8 ++ b ++ a ++ d ++ 0x0B#7
  | .mulhu sc b a d => sc ++ 64#8 ++ b ++ a ++ d ++ 0x0B#7
  | .mulhsu sc b a d => sc ++ 96#8 ++ b ++ a ++ d ++ 0x0B#7
  | .div b a d => 128#10 ++ b ++ a ++ d ++ 0x0B#7
  | .divu b a d => 160#10 ++ b ++ a ++ d ++ 0x0B#7
  | .rem b a d => 192#10 ++ b ++ a ++ d ++ 0x0B#7
  | .remu b a d => 224#10 ++ b ++ a ++ d ++ 0x0B#7
  | .clz sc a d => sc ++ 0#13 ++ a ++ d ++ 0x0C#7
  | .ctz sc a d => sc ++ 32#13 ++ a ++ d ++ 0x0C#7
  | .popc sc a d => sc ++ 64#13 ++ a ++ d ++ 0x0C#7
  | .bext sc b a d => sc ++ 3#8 ++ b ++ a ++ d ++ 0x0C#7
  | .bdep sc b a d => sc ++ 4#8 ++ b ++ a ++ d ++ 0x0C#7
  | .sextb sc a d => sc ++ 160#13 ++ a ++ d ++ 0x0C#7
  | .sexth sc a d => sc ++ 192#13 ++ a ++ d ++ 0x0C#7
  | .sextw sc a d => sc ++ 224#13 ++ a ++ d ++ 0x0C#7
  | .rev8 sc a d => sc ++ 256#13 ++ a ++ d ++ 0x0C#7
  | .ldb ord imm a d => ord.toBits ++ imm ++ a ++ d ++ 0x10#7
  | .ldh ord imm a d => ord.toBits ++ imm ++ a ++ d ++ 0x11#7
  | .ldw ord imm a d => ord.toBits ++ imm ++ a ++ d ++ 0x12#7
  | .ldd ord imm a d => ord.toBits ++ imm ++ a ++ d ++ 0x13#7
  | .ldbu ord imm a d => ord.toBits ++ imm ++ a ++ d ++ 0x14#7
  | .ldhu ord imm a d => ord.toBits ++ imm ++ a ++ d ++ 0x15#7
  | .ldwu ord imm a d => ord.toBits ++ imm ++ a ++ d ++ 0x16#7
  | .stb ord imm b a => ord.toBits ++ (imm.extractLsb' 5 8) ++ b ++ a ++ (imm.extractLsb' 0 5) ++ 0x18#7
  | .sth ord imm b a => ord.toBits ++ (imm.extractLsb' 5 8) ++ b ++ a ++ (imm.extractLsb' 0 5) ++ 0x19#7
  | .stw ord imm b a => ord.toBits ++ (imm.extractLsb' 5 8) ++ b ++ a ++ (imm.extractLsb' 0 5) ++ 0x1A#7
  | .std ord imm b a => ord.toBits ++ (imm.extractLsb' 5 8) ++ b ++ a ++ (imm.extractLsb' 0 5) ++ 0x1B#7
  | .ldtag ord a d => ord.toBits ++ 0#13 ++ a ++ d ++ 0x1C#7
  | .sttag ord b a => ord.toBits ++ 32#8 ++ b ++ a ++ 0#5 ++ 0x1C#7
  | .amoadd ord scope w64 b a d => ord.toBits ++ scope.toBits ++ 0#4 ++ (BitVec.ofBool w64) ++ b ++ a ++ d ++ 0x1D#7
  | .amoand ord scope w64 b a d => ord.toBits ++ scope.toBits ++ 1#4 ++ (BitVec.ofBool w64) ++ b ++ a ++ d ++ 0x1D#7
  | .amoor ord scope w64 b a d => ord.toBits ++ scope.toBits ++ 2#4 ++ (BitVec.ofBool w64) ++ b ++ a ++ d ++ 0x1D#7
  | .amoxor ord scope w64 b a d => ord.toBits ++ scope.toBits ++ 3#4 ++ (BitVec.ofBool w64) ++ b ++ a ++ d ++ 0x1D#7
  | .amomin ord scope w64 b a d => ord.toBits ++ scope.toBits ++ 4#4 ++ (BitVec.ofBool w64) ++ b ++ a ++ d ++ 0x1D#7
  | .amomax ord scope w64 b a d => ord.toBits ++ scope.toBits ++ 5#4 ++ (BitVec.ofBool w64) ++ b ++ a ++ d ++ 0x1D#7
  | .amominu ord scope w64 b a d => ord.toBits ++ scope.toBits ++ 6#4 ++ (BitVec.ofBool w64) ++ b ++ a ++ d ++ 0x1D#7
  | .amomaxu ord scope w64 b a d => ord.toBits ++ scope.toBits ++ 7#4 ++ (BitVec.ofBool w64) ++ b ++ a ++ d ++ 0x1D#7
  | .amoswap ord scope w64 b a d => ord.toBits ++ scope.toBits ++ 8#4 ++ (BitVec.ofBool w64) ++ b ++ a ++ d ++ 0x1D#7
  | .casFailRlx ord scope w64 b a d => ord.toBits ++ scope.toBits ++ 9#4 ++ (BitVec.ofBool w64) ++ b ++ a ++ d ++ 0x1D#7
  | .casFailAcq ord scope w64 b a d => ord.toBits ++ scope.toBits ++ 10#4 ++ (BitVec.ofBool w64) ++ b ++ a ++ d ++ 0x1D#7
  | .casFailSc ord scope w64 b a d => ord.toBits ++ scope.toBits ++ 11#4 ++ (BitVec.ofBool w64) ++ b ++ a ++ d ++ 0x1D#7
  | .fence scope kind => 0#2 ++ scope.toBits ++ kind.toBits ++ 0#15 ++ 0x21#7
  | .jalr imm a d => 0#2 ++ imm ++ a ++ d ++ 0x22#7
  | .jal imm d => imm ++ d ++ 0x23#7
  | .beq off b a => 0#3 ++ (off.extractLsb' 5 7) ++ b ++ a ++ (off.extractLsb' 0 5) ++ 0x24#7
  | .bne off b a => 1#3 ++ (off.extractLsb' 5 7) ++ b ++ a ++ (off.extractLsb' 0 5) ++ 0x24#7
  | .blt off b a => 2#3 ++ (off.extractLsb' 5 7) ++ b ++ a ++ (off.extractLsb' 0 5) ++ 0x24#7
  | .bge off b a => 3#3 ++ (off.extractLsb' 5 7) ++ b ++ a ++ (off.extractLsb' 0 5) ++ 0x24#7
  | .bltu off b a => 4#3 ++ (off.extractLsb' 5 7) ++ b ++ a ++ (off.extractLsb' 0 5) ++ 0x24#7
  | .bgeu off b a => 5#3 ++ (off.extractLsb' 5 7) ++ b ++ a ++ (off.extractLsb' 0 5) ++ 0x24#7
  | .csrrw sc immSrc csr a d => sc ++ (BitVec.ofBool immSrc) ++ csr ++ a ++ d ++ 0x25#7
  | .csrrs sc immSrc csr a d => sc ++ (BitVec.ofBool immSrc) ++ csr ++ a ++ d ++ 0x26#7
  | .csrrc sc immSrc csr a d => sc ++ (BitVec.ofBool immSrc) ++ csr ++ a ++ d ++ 0x27#7
  | .ecall => 0#25 ++ 0x28#7
  | .ebreak => 32768#25 ++ 0x28#7
  | .tret => 65536#25 ++ 0x28#7
  | .hend => 98304#25 ++ 0x28#7
  | .vadd sc m w b a d => sc ++ m ++ w.toBits ++ 0#3 ++ b ++ a ++ d ++ 0x40#7
  | .vsub sc m w b a d => sc ++ m ++ w.toBits ++ 1#3 ++ b ++ a ++ d ++ 0x40#7
  | .vmul sc m w b a d => sc ++ m ++ w.toBits ++ 2#3 ++ b ++ a ++ d ++ 0x40#7
  | .vmulh sc m w b a d => sc ++ m ++ w.toBits ++ 3#3 ++ b ++ a ++ d ++ 0x40#7
  | .vmin sc m w b a d => sc ++ m ++ w.toBits ++ 4#3 ++ b ++ a ++ d ++ 0x40#7
  | .vmax sc m w b a d => sc ++ m ++ w.toBits ++ 5#3 ++ b ++ a ++ d ++ 0x40#7
  | .vminu sc m w b a d => sc ++ m ++ w.toBits ++ 6#3 ++ b ++ a ++ d ++ 0x40#7
  | .vmaxu sc m w b a d => sc ++ m ++ w.toBits ++ 7#3 ++ b ++ a ++ d ++ 0x40#7
  | .vand sc m w b a d => sc ++ m ++ w.toBits ++ 0#3 ++ b ++ a ++ d ++ 0x41#7
  | .vor sc m w b a d => sc ++ m ++ w.toBits ++ 1#3 ++ b ++ a ++ d ++ 0x41#7
  | .vxor sc m w b a d => sc ++ m ++ w.toBits ++ 2#3 ++ b ++ a ++ d ++ 0x41#7
  | .vandn sc m w b a d => sc ++ m ++ w.toBits ++ 3#3 ++ b ++ a ++ d ++ 0x41#7
  | .vshl sc m w b a d => sc ++ m ++ w.toBits ++ 4#3 ++ b ++ a ++ d ++ 0x41#7
  | .vshr sc m w b a d => sc ++ m ++ w.toBits ++ 5#3 ++ b ++ a ++ d ++ 0x41#7
  | .vshra sc m w b a d => sc ++ m ++ w.toBits ++ 6#3 ++ b ++ a ++ d ++ 0x41#7
  | .vpopc sc m w a d => sc ++ m ++ w.toBits ++ 224#8 ++ a ++ d ++ 0x41#7
  | .vfadd sc m f b a d => sc ++ m ++ f.toBits ++ 0#3 ++ b ++ a ++ d ++ 0x42#7
  | .vfsub sc m f b a d => sc ++ m ++ f.toBits ++ 1#3 ++ b ++ a ++ d ++ 0x42#7
  | .vfmul sc m f b a d => sc ++ m ++ f.toBits ++ 2#3 ++ b ++ a ++ d ++ 0x42#7
  | .vfdiv m f b a d => 0#2 ++ m ++ f.toBits ++ 3#3 ++ b ++ a ++ d ++ 0x42#7
  | .vfmin sc m f b a d => sc ++ m ++ f.toBits ++ 4#3 ++ b ++ a ++ d ++ 0x42#7
  | .vfmax sc m f b a d => sc ++ m ++ f.toBits ++ 5#3 ++ b ++ a ++ d ++ 0x42#7
  | .vfsqrt sc m f a d => sc ++ m ++ f.toBits ++ 192#8 ++ a ++ d ++ 0x42#7
  | .vfabs sc m a d => sc ++ m ++ 224#10 ++ a ++ d ++ 0x42#7
  | .vfma sc m f b a d => sc ++ m ++ f.toBits ++ 0#3 ++ b ++ a ++ d ++ 0x43#7
  | .vfms sc m f b a d => sc ++ m ++ f.toBits ++ 1#3 ++ b ++ a ++ d ++ 0x43#7
  | .vfnma sc m f b a d => sc ++ m ++ f.toBits ++ 2#3 ++ b ++ a ++ d ++ 0x43#7
  | .vfnms sc m f b a d => sc ++ m ++ f.toBits ++ 3#3 ++ b ++ a ++ d ++ 0x43#7
  | .vcmpeq sc m w b a d => sc ++ m ++ w.toBits ++ 0#3 ++ b ++ a ++ 0#2 ++ d ++ 0x44#7
  | .vcmpne sc m w b a d => sc ++ m ++ w.toBits ++ 1#3 ++ b ++ a ++ 0#2 ++ d ++ 0x44#7
  | .vcmplt sc m w b a d => sc ++ m ++ w.toBits ++ 2#3 ++ b ++ a ++ 0#2 ++ d ++ 0x44#7
  | .vcmple sc m w b a d => sc ++ m ++ w.toBits ++ 3#3 ++ b ++ a ++ 0#2 ++ d ++ 0x44#7
  | .vcmpltu sc m w b a d => sc ++ m ++ w.toBits ++ 4#3 ++ b ++ a ++ 0#2 ++ d ++ 0x44#7
  | .vcmpleu sc m w b a d => sc ++ m ++ w.toBits ++ 5#3 ++ b ++ a ++ 0#2 ++ d ++ 0x44#7
  | .vfcmpeq sc m fi b a d => sc ++ m ++ (BitVec.ofBool fi) ++ 0#4 ++ b ++ a ++ 0#2 ++ d ++ 0x45#7
  | .vfcmplt sc m fi b a d => sc ++ m ++ (BitVec.ofBool fi) ++ 1#4 ++ b ++ a ++ 0#2 ++ d ++ 0x45#7
  | .vfcmple sc m fi b a d => sc ++ m ++ (BitVec.ofBool fi) ++ 2#4 ++ b ++ a ++ 0#2 ++ d ++ 0x45#7
  | .vfcmpun sc m fi b a d => sc ++ m ++ (BitVec.ofBool fi) ++ 3#4 ++ b ++ a ++ 0#2 ++ d ++ 0x45#7
  | .vbool3 sc t b a d => sc ++ t ++ b ++ a ++ d ++ 0x46#7
  | .vfshl sc h b a d => sc ++ h ++ 0#2 ++ b ++ a ++ d ++ 0x47#7
  | .vfshr sc h b a d => sc ++ h ++ 1#2 ++ b ++ a ++ d ++ 0x47#7
  | .vrotl sc h a d => sc ++ h ++ 64#7 ++ a ++ d ++ 0x47#7
  | .vrotr sc h a d => sc ++ h ++ 96#7 ++ a ++ d ++ 0x47#7
  | .vredsum sc m w a d => sc ++ m ++ w.toBits ++ 0#8 ++ a ++ d ++ 0x48#7
  | .vredmin sc m w a d => sc ++ m ++ w.toBits ++ 32#8 ++ a ++ d ++ 0x48#7
  | .vredmax sc m w a d => sc ++ m ++ w.toBits ++ 64#8 ++ a ++ d ++ 0x48#7
  | .vfredsum sc m f a d => sc ++ m ++ f.toBits ++ 96#8 ++ a ++ d ++ 0x48#7
  | .vfredmin sc m f a d => sc ++ m ++ f.toBits ++ 128#8 ++ a ++ d ++ 0x48#7
  | .vfredmax sc m f a d => sc ++ m ++ f.toBits ++ 160#8 ++ a ++ d ++ 0x48#7
  | .vscan sc m w a d => sc ++ m ++ w.toBits ++ 192#8 ++ a ++ d ++ 0x48#7
  | .vfscan sc m f a d => sc ++ m ++ f.toBits ++ 224#8 ++ a ++ d ++ 0x48#7
  | .vperm sc m w b a d => sc ++ m ++ w.toBits ++ 0#3 ++ b ++ a ++ d ++ 0x49#7
  | .vslideup sc m w b a d => sc ++ m ++ w.toBits ++ 1#3 ++ b ++ a ++ d ++ 0x49#7
  | .vslidedn sc m w b a d => sc ++ m ++ w.toBits ++ 2#3 ++ b ++ a ++ d ++ 0x49#7
  | .vbcast sc m w b a d => sc ++ m ++ w.toBits ++ 3#3 ++ b ++ a ++ d ++ 0x49#7
  | .vcompress sc m w a d => sc ++ m ++ w.toBits ++ 128#8 ++ a ++ d ++ 0x49#7
  | .vexpand sc m w a d => sc ++ m ++ w.toBits ++ 160#8 ++ a ++ d ++ 0x49#7
  | .vsel sc m w b a d => sc ++ m ++ w.toBits ++ 6#3 ++ b ++ a ++ d ++ 0x49#7
  | .vmv sc m w a d => sc ++ m ++ w.toBits ++ 224#8 ++ a ++ d ++ 0x49#7
  | .vmrgu m w b a d => 0#2 ++ m ++ w.toBits ++ 0#3 ++ b ++ a ++ d ++ 0x4A#7
  | .vmrgi m w b a d => 0#2 ++ m ++ w.toBits ++ 1#3 ++ b ++ a ++ d ++ 0x4A#7
  | .vaddCh sc m w b c d => sc ++ m ++ w.toBits ++ 0#3 ++ b ++ 0#1 ++ c ++ d ++ 0x50#7
  | .vsubCh sc m w b c d => sc ++ m ++ w.toBits ++ 1#3 ++ b ++ 0#1 ++ c ++ d ++ 0x50#7
  | .vmulCh sc m w b c d => sc ++ m ++ w.toBits ++ 2#3 ++ b ++ 0#1 ++ c ++ d ++ 0x50#7
  | .vmulhCh sc m w b c d => sc ++ m ++ w.toBits ++ 3#3 ++ b ++ 0#1 ++ c ++ d ++ 0x50#7
  | .vminCh sc m w b c d => sc ++ m ++ w.toBits ++ 4#3 ++ b ++ 0#1 ++ c ++ d ++ 0x50#7
  | .vmaxCh sc m w b c d => sc ++ m ++ w.toBits ++ 5#3 ++ b ++ 0#1 ++ c ++ d ++ 0x50#7
  | .vminuCh sc m w b c d => sc ++ m ++ w.toBits ++ 6#3 ++ b ++ 0#1 ++ c ++ d ++ 0x50#7
  | .vmaxuCh sc m w b c d => sc ++ m ++ w.toBits ++ 7#3 ++ b ++ 0#1 ++ c ++ d ++ 0x50#7
  | .vandCh sc m w b c d => sc ++ m ++ w.toBits ++ 0#3 ++ b ++ 0#1 ++ c ++ d ++ 0x51#7
  | .vorCh sc m w b c d => sc ++ m ++ w.toBits ++ 1#3 ++ b ++ 0#1 ++ c ++ d ++ 0x51#7
  | .vxorCh sc m w b c d => sc ++ m ++ w.toBits ++ 2#3 ++ b ++ 0#1 ++ c ++ d ++ 0x51#7
  | .vandnCh sc m w b c d => sc ++ m ++ w.toBits ++ 3#3 ++ b ++ 0#1 ++ c ++ d ++ 0x51#7
  | .vshlCh sc m w b c d => sc ++ m ++ w.toBits ++ 4#3 ++ b ++ 0#1 ++ c ++ d ++ 0x51#7
  | .vshrCh sc m w b c d => sc ++ m ++ w.toBits ++ 5#3 ++ b ++ 0#1 ++ c ++ d ++ 0x51#7
  | .vshraCh sc m w b c d => sc ++ m ++ w.toBits ++ 6#3 ++ b ++ 0#1 ++ c ++ d ++ 0x51#7
  | .vpopcCh sc m w c d => sc ++ m ++ w.toBits ++ 448#9 ++ c ++ d ++ 0x51#7
  | .vfaddCh sc m f b c d => sc ++ m ++ f.toBits ++ 0#3 ++ b ++ 0#1 ++ c ++ d ++ 0x52#7
  | .vfsubCh sc m f b c d => sc ++ m ++ f.toBits ++ 1#3 ++ b ++ 0#1 ++ c ++ d ++ 0x52#7
  | .vfmulCh sc m f b c d => sc ++ m ++ f.toBits ++ 2#3 ++ b ++ 0#1 ++ c ++ d ++ 0x52#7
  | .vfdivCh m f b c d => 0#2 ++ m ++ f.toBits ++ 3#3 ++ b ++ 0#1 ++ c ++ d ++ 0x52#7
  | .vfminCh sc m f b c d => sc ++ m ++ f.toBits ++ 4#3 ++ b ++ 0#1 ++ c ++ d ++ 0x52#7
  | .vfmaxCh sc m f b c d => sc ++ m ++ f.toBits ++ 5#3 ++ b ++ 0#1 ++ c ++ d ++ 0x52#7
  | .vfsqrtCh sc m f c d => sc ++ m ++ f.toBits ++ 384#9 ++ c ++ d ++ 0x52#7
  | .vfabsCh sc m c d => sc ++ m ++ 448#11 ++ c ++ d ++ 0x52#7
  | .vfmaCh sc m f b c d => sc ++ m ++ f.toBits ++ 0#3 ++ b ++ 0#1 ++ c ++ d ++ 0x53#7
  | .vfmsCh sc m f b c d => sc ++ m ++ f.toBits ++ 1#3 ++ b ++ 0#1 ++ c ++ d ++ 0x53#7
  | .vfnmaCh sc m f b c d => sc ++ m ++ f.toBits ++ 2#3 ++ b ++ 0#1 ++ c ++ d ++ 0x53#7
  | .vfnmsCh sc m f b c d => sc ++ m ++ f.toBits ++ 3#3 ++ b ++ 0#1 ++ c ++ d ++ 0x53#7
  | .vcmpeqCh sc m w b c d => sc ++ m ++ w.toBits ++ 0#3 ++ b ++ 0#1 ++ c ++ 0#2 ++ d ++ 0x54#7
  | .vcmpneCh sc m w b c d => sc ++ m ++ w.toBits ++ 1#3 ++ b ++ 0#1 ++ c ++ 0#2 ++ d ++ 0x54#7
  | .vcmpltCh sc m w b c d => sc ++ m ++ w.toBits ++ 2#3 ++ b ++ 0#1 ++ c ++ 0#2 ++ d ++ 0x54#7
  | .vcmpleCh sc m w b c d => sc ++ m ++ w.toBits ++ 3#3 ++ b ++ 0#1 ++ c ++ 0#2 ++ d ++ 0x54#7
  | .vcmpltuCh sc m w b c d => sc ++ m ++ w.toBits ++ 4#3 ++ b ++ 0#1 ++ c ++ 0#2 ++ d ++ 0x54#7
  | .vcmpleuCh sc m w b c d => sc ++ m ++ w.toBits ++ 5#3 ++ b ++ 0#1 ++ c ++ 0#2 ++ d ++ 0x54#7
  | .vfcmpeqCh sc m fi b c d => sc ++ m ++ (BitVec.ofBool fi) ++ 0#4 ++ b ++ 0#1 ++ c ++ 0#2 ++ d ++ 0x55#7
  | .vfcmpltCh sc m fi b c d => sc ++ m ++ (BitVec.ofBool fi) ++ 1#4 ++ b ++ 0#1 ++ c ++ 0#2 ++ d ++ 0x55#7
  | .vfcmpleCh sc m fi b c d => sc ++ m ++ (BitVec.ofBool fi) ++ 2#4 ++ b ++ 0#1 ++ c ++ 0#2 ++ d ++ 0x55#7
  | .vfcmpunCh sc m fi b c d => sc ++ m ++ (BitVec.ofBool fi) ++ 3#4 ++ b ++ 0#1 ++ c ++ 0#2 ++ d ++ 0x55#7
  | .vbool3Ch sc t b c d => sc ++ t ++ b ++ 0#1 ++ c ++ d ++ 0x56#7
  | .vfshlCh sc h b c d => sc ++ h ++ 0#2 ++ b ++ 0#1 ++ c ++ d ++ 0x57#7
  | .vfshrCh sc h b c d => sc ++ h ++ 1#2 ++ b ++ 0#1 ++ c ++ d ++ 0x57#7
  | .vrotlCh sc h c d => sc ++ h ++ 128#8 ++ c ++ d ++ 0x57#7
  | .vrotrCh sc h c d => sc ++ h ++ 192#8 ++ c ++ d ++ 0x57#7
  | .vredsumCh sc m w c d => sc ++ m ++ w.toBits ++ 0#9 ++ c ++ d ++ 0x58#7
  | .vredminCh sc m w c d => sc ++ m ++ w.toBits ++ 64#9 ++ c ++ d ++ 0x58#7
  | .vredmaxCh sc m w c d => sc ++ m ++ w.toBits ++ 128#9 ++ c ++ d ++ 0x58#7
  | .vfredsumCh sc m f c d => sc ++ m ++ f.toBits ++ 192#9 ++ c ++ d ++ 0x58#7
  | .vfredminCh sc m f c d => sc ++ m ++ f.toBits ++ 256#9 ++ c ++ d ++ 0x58#7
  | .vfredmaxCh sc m f c d => sc ++ m ++ f.toBits ++ 320#9 ++ c ++ d ++ 0x58#7
  | .vscanCh sc m w c d => sc ++ m ++ w.toBits ++ 384#9 ++ c ++ d ++ 0x58#7
  | .vfscanCh sc m f c d => sc ++ m ++ f.toBits ++ 448#9 ++ c ++ d ++ 0x58#7
  | .vpermCh sc m w b c d => sc ++ m ++ w.toBits ++ 0#3 ++ b ++ 0#1 ++ c ++ d ++ 0x59#7
  | .vslideupCh sc m w b c d => sc ++ m ++ w.toBits ++ 1#3 ++ b ++ 0#1 ++ c ++ d ++ 0x59#7
  | .vslidednCh sc m w b c d => sc ++ m ++ w.toBits ++ 2#3 ++ b ++ 0#1 ++ c ++ d ++ 0x59#7
  | .vbcastCh sc m w b c d => sc ++ m ++ w.toBits ++ 3#3 ++ b ++ 0#1 ++ c ++ d ++ 0x59#7
  | .vcompressCh sc m w c d => sc ++ m ++ w.toBits ++ 256#9 ++ c ++ d ++ 0x59#7
  | .vexpandCh sc m w c d => sc ++ m ++ w.toBits ++ 320#9 ++ c ++ d ++ 0x59#7
  | .vselCh sc m w b c d => sc ++ m ++ w.toBits ++ 6#3 ++ b ++ 0#1 ++ c ++ d ++ 0x59#7
  | .vmvCh sc m w c d => sc ++ m ++ w.toBits ++ 448#9 ++ c ++ d ++ 0x59#7
  | .vmrguCh m w b c d => 0#2 ++ m ++ w.toBits ++ 0#3 ++ b ++ 0#1 ++ c ++ d ++ 0x5A#7
  | .vmrgiCh m w b c d => 0#2 ++ m ++ w.toBits ++ 1#3 ++ b ++ 0#1 ++ c ++ d ++ 0x5A#7
  | .vcvt sc m w k a d => sc ++ m ++ w.toBits ++ 0#3 ++ k ++ a ++ d ++ 0x4B#7
  | .vtbdec sc m w b a d => sc ++ m ++ w.toBits ++ 1#3 ++ b ++ a ++ d ++ 0x4B#7
  | .vtbenc sc m w b a d => sc ++ m ++ w.toBits ++ 2#3 ++ b ++ a ++ d ++ 0x4B#7
  | .vld ord m w g off a d => ord.toBits ++ m ++ w.toBits ++ g ++ 0#1 ++ off ++ a ++ d ++ 0x4C#7
  | .vst ord m w g off a d => ord.toBits ++ m ++ w.toBits ++ g ++ 1#1 ++ off ++ a ++ d ++ 0x4C#7
  | .vlds ord m w b a d => ord.toBits ++ m ++ w.toBits ++ 0#3 ++ b ++ a ++ d ++ 0x4D#7
  | .vsts ord m w b a d => ord.toBits ++ m ++ w.toBits ++ 1#3 ++ b ++ a ++ d ++ 0x4D#7
  | .vldx ord m w b a d => ord.toBits ++ m ++ w.toBits ++ 0#3 ++ b ++ a ++ d ++ 0x4E#7
  | .vstx ord m w b a d => ord.toBits ++ m ++ w.toBits ++ 1#3 ++ b ++ a ++ d ++ 0x4E#7
  | .vldt ord m w b a d => ord.toBits ++ m ++ w.toBits ++ 0#3 ++ b ++ a ++ d ++ 0x4F#7
  | .vpark b a d => 17#10 ++ b ++ a ++ d ++ 0x4F#7
  | .vunpark b a d => 18#10 ++ b ++ a ++ d ++ 0x4F#7
  | .vmvx sc m w a d => sc ++ m ++ w.toBits ++ 96#8 ++ a ++ d ++ 0x4F#7
  | .vmvxv sc w a d => sc ++ 0#3 ++ w.toBits ++ 128#8 ++ a ++ d ++ 0x4F#7
  | .kand sc b a d => sc ++ 0#10 ++ b ++ 0#2 ++ a ++ 0#2 ++ d ++ 0x5B#7
  | .kor sc b a d => sc ++ 4#10 ++ b ++ 0#2 ++ a ++ 0#2 ++ d ++ 0x5B#7
  | .kxor sc b a d => sc ++ 8#10 ++ b ++ 0#2 ++ a ++ 0#2 ++ d ++ 0x5B#7
  | .kandn sc b a d => sc ++ 12#10 ++ b ++ 0#2 ++ a ++ 0#2 ++ d ++ 0x5B#7
  | .knot sc a d => sc ++ 512#15 ++ a ++ 0#2 ++ d ++ 0x5B#7
  | .kmvKToX sc a d => sc ++ 0#15 ++ a ++ d ++ 0x5C#7
  | .kmvXToK sc a d => sc ++ 32#13 ++ a ++ 0#2 ++ d ++ 0x5C#7
  | .kpopc sc a d => sc ++ 256#15 ++ a ++ d ++ 0x5C#7
  | .kfirst sc a d => sc ++ 384#15 ++ a ++ d ++ 0x5C#7
  | .mzero b a => 0#10 ++ b ++ a ++ 0#5 ++ 0x60#7
  | .mrdv a d => 1024#15 ++ a ++ d ++ 0x60#7
  | .mwrv b a => 64#10 ++ b ++ a ++ 0#5 ++ 0x60#7
  | .mmac f sat b a d => 0#2 ++ f ++ 0#4 ++ (BitVec.ofBool sat) ++ b ++ a ++ d ++ 0x61#7
  | .mbin p sat b a d => 0#4 ++ (BitVec.ofBool p) ++ 0#4 ++ (BitVec.ofBool sat) ++ b ++ a ++ d ++ 0x62#7
  | .mstore ord k f b a => ord.toBits ++ 0#3 ++ k ++ f ++ b ++ a ++ 0#5 ++ 0x63#7
  | .mload ord k f b a => ord.toBits ++ 1#3 ++ k ++ f ++ b ++ a ++ 0#5 ++ 0x63#7
  | .mswap b a d => 0#10 ++ b ++ a ++ d ++ 0x64#7
  | .cpy a => 0#15 ++ a ++ 0#5 ++ 0x65#7
  | .gath a => 0#15 ++ a ++ 0#5 ++ 0x66#7
  | .scat a => 1024#15 ++ a ++ 0#5 ++ 0x66#7
  | .qmul b a d => 0#10 ++ b ++ a ++ d ++ 0x67#7
  | .qadd b a d => 32#10 ++ b ++ a ++ d ++ 0x67#7
  | .qresume a => 2048#15 ++ a ++ 0#5 ++ 0x67#7
  | .qcancel a d => 3072#15 ++ a ++ d ++ 0x67#7
  | .qstat a d => 4096#15 ++ a ++ d ++ 0x67#7
  | .qpool p b a d => 80#9 ++ (BitVec.ofBool p) ++ b ++ a ++ d ++ 0x67#7
  | .wtagany a d => 0#15 ++ a ++ d ++ 0x68#7
  | .wtagall a d => 1024#15 ++ a ++ d ++ 0x68#7
  | .ftag a d => 2048#15 ++ a ++ d ++ 0x68#7
  | .send n c b a => 0#5 ++ n ++ c ++ b ++ a ++ 0#5 ++ 0x70#7
  | .sendx n c b a => 1#5 ++ n ++ c ++ b ++ a ++ 0#5 ++ 0x70#7
  | .sendr c b a => 9#7 ++ c ++ b ++ a ++ 0#5 ++ 0x70#7
  | .gsend n c b a => 0#5 ++ n ++ c ++ b ++ a ++ 0#5 ++ 0x71#7
  | .htset b a => 0#10 ++ b ++ a ++ 0#5 ++ 0x72#7
  | .htget a d => 1024#15 ++ a ++ d ++ 0x72#7
  | .htclr a => 2048#15 ++ a ++ 0#5 ++ 0x72#7
  | .chmsk a d => 0#15 ++ a ++ d ++ 0x73#7
  | .chunm a d => 1024#15 ++ a ++ d ++ 0x73#7
  | .mpeek a d => 2048#15 ++ a ++ d ++ 0x73#7
  | .mdrop a => 3072#15 ++ a ++ 0#5 ++ 0x73#7
  | .join a d => 0#15 ++ a ++ d ++ 0x74#7
  | .leave a d => 1024#15 ++ a ++ d ++ 0x74#7
  | .gbar a => 2048#15 ++ a ++ 0#5 ++ 0x74#7
  | .xred b a => 0#10 ++ b ++ a ++ 0#5 ++ 0x75#7
  | .xbcast b a => 32#10 ++ b ++ a ++ 0#5 ++ 0x75#7
  | .actnew a d => 0#15 ++ a ++ d ++ 0x76#7
  | .actend => 1048576#25 ++ 0x76#7
  | .qpush b a => 0#10 ++ b ++ a ++ 0#5 ++ 0x77#7
  | .qpop b d => 32#10 ++ b ++ 0#5 ++ d ++ 0x77#7
  | .tarm b a => 0#10 ++ b ++ a ++ 0#5 ++ 0x78#7
  | .tdone a => 1024#15 ++ a ++ 0#5 ++ 0x78#7
  | .egpost b a => 0#10 ++ b ++ a ++ 0#5 ++ 0x79#7
  | .egrel a => 1024#15 ++ a ++ 0#5 ++ 0x79#7
  | .egdrop a => 2048#15 ++ a ++ 0#5 ++ 0x79#7
  | .evBudget _ _ => 0#32
  | .evDispatch _ _ => 0#32
  | .evDrawComplete _ _ => 0#32
  | .evCommit _ _ => 0#32
  | .evSequence _ _ => 0#32
  | .evTransmit _ _ => 0#32
  | .evJobStart _ => 0#32
  | .evJobComplete _ => 0#32
  | .evLeafCommit _ _ => 0#32
  | .evJobSuspend _ => 0#32
  | .evMswapPair _ _ => 0#32
  | .evEcallResume _ _ _ _ => 0#32
  | .evEcallRefuse _ _ => 0#32
  | .evWalkRequest _ _ => 0#32
  | .evWalk _ _ => 0#32
  | .evPageRequestAnswer _ _ _ => 0#32
  | .evWithdrawal _ _ _ => 0#32
  | .evZeroing _ _ _ => 0#32
  | .evKeyLoad _ _ => 0#32
  | .evPageRetirement _ => 0#32
  | .evScrub _ => 0#32
  | .evCoreCheckFailure _ => 0#32
  | .evMsg _ _ _ => 0#32
  | .evGrp _ _ _ => 0#32
  | .evTsk _ _ _ => 0#32
  | .evRd _ _ _ => 0#32
  | .evRdr _ _ _ => 0#32
  | .evWr _ _ _ => 0#32
  | .evWra _ _ _ => 0#32
  | .evAmo _ _ _ => 0#32
  | .evAmor _ _ _ => 0#32
  | .evRed _ _ _ => 0#32
  | .evJrd _ _ => 0#32
  | .evJwr _ _ => 0#32
  | .evEgr _ _ _ => 0#32
  | .evAck _ _ => 0#32
  | .evYoyo _ _ => 0#32
  | .evDefr _ _ => 0#32
  | .evTrim _ _ _ => 0#32
  | .evHoleRerequest _ _ _ => 0#32
  | .evAckTimer _ _ => 0#32
  | .evRto _ _ => 0#32
  | .evBackoffExpiry _ _ => 0#32
  | .evFrame _ _ => 0#32
  | .evLinkDown _ => 0#32
  | .evRouteRecompute => 0#32
  | .evDepthExchange _ => 0#32
  | .evDepthReceive _ => 0#32
  | .evUnbound _ _ _ => 0#32
  | .evEgpostTimeout _ _ => 0#32
  | .evLaunchStart _ _ => 0#32
  | .evInitialTaskPush _ => 0#32
  | .evQuiescence _ => 0#32
  | .evFaultReport _ => 0#32
  | .evLaunchEnd _ => 0#32
  | .evPreEmption _ => 0#32
  | .evContextResume _ => 0#32
  | .evVictimClaim _ => 0#32
  | .evEviction _ _ => 0#32
  | .evRestore _ _ _ => 0#32
  | .evHalt _ _ => 0#32
  | .evHaltreq _ _ => 0#32
  | .evResume _ _ => 0#32
  | .evStep _ _ => 0#32
  | .evBreak _ _ _ _ _ => 0#32
  | .evUnbreak _ _ _ => 0#32
  | .evRead _ _ _ => 0#32
  | .evWrite _ _ _ _ => 0#32
  | .evExec _ _ _ => 0#32
  | .evDetach _ => 0#32
  | .evBreakpoint _ _ => 0#32
  | .evReset => 0#32
  | .evBootsel _ => 0#32
  | .evMinsvnRaise _ => 0#32
  | .evQuoteRequest _ => 0#32
  | .evFirmwareUpdate _ _ => 0#32
  | .evPctlReqP0 => 0#32
  | .evPctlReqP1 => 0#32
  | .evPctlReqP2 => 0#32
  | .evPctlReqP3 => 0#32
  | .evPctlCap _ => 0#32
  | .evTransitionComplete => 0#32
  | .evThermalTrip _ => 0#32
  | .evTrip => 0#32
  | .evRefused => 0#32
  | .evClear _ _ => 0#32
  | .evChead _ _ => 0#32
  | .evRegisterWrite _ _ _ => 0#32
  | .evIllegal _ => 0#32
  | .evFetchOutsideText => 0#32
  | .evDirectoryLookup _ _ => 0#32
  | .evVariableLatencyWrite _ _ _ => 0#32
  | .evDebuggerAttach _ => 0#32
  | .evLinkBringUp _ _ => 0#32
  | .evCoolantLimit _ _ => 0#32

end Sys2Proof
end

