-- ==== Sys2Proof/Machine/State.lean ====
section
/-! DEFINITION. The state of the machine as plain data: one CXN-9480 module with the domain memory and network it
reaches. Every list keyed by an identifier leaves out the entries that stand at their reset value. Numbers that name
cores are the 24 bits of coreid (01 R36): module id in [23:12], die in [11:10], cluster in [9:5], core in [4:0].
Numbers that name nodes are the module id times 2^14 plus the node id of 13 R310. -/
namespace Sys2Proof.Machine

/-- Why the machine model stops. Every constructor is safe: the hardware goes on, or never meets the case. -/
inductive Fault where
  /-- Raised by an instruction word when the current slot runs no activation: no instruction can issue there. Safe. -/
  | noActivation
  /-- Raised by an event that its rule does not permit in the present state (10 R241): the agenda asked for a move that
  the hardware does not make. Safe: nothing is said of the hardware. -/
  | notPermitted (event : String)
  deriving DecidableEq, Repr

/-- Why an instruction has no meaning. -/
inductive Refusal where
  /-- Raised by an arm of exec whose instruction has no meaning yet. Safe: nothing is proved about it. -/
  | notModelled (mnemonic : String)
  deriving DecidableEq, Repr

/-! ### Slot-private state (01 R12 to R21) -/

/-- The register files of a slot. -/
inductive RegFile where | x | v | k
  deriving DecidableEq, Repr

/-- A register of a slot. -/
structure RegRef where
  file : RegFile
  n    : Nat
  deriving DecidableEq, Repr

/-- A fixed-latency write that has issued (R19): visible from issue clock vis. dead marks an earlier-issued write that a
later one has overtaken (R20): it is discarded when its clock comes and is pending until then. -/
structure PendFix where
  reg   : RegRef
  value : Vec
  vis   : Nat
  dead  : Bool
  deriving DecidableEq, Repr

/-- Flags that enter fflags at issue clock vis (R69). -/
structure PendFlags where
  flags : BitVec 5
  vis   : Nat
  deriving DecidableEq, Repr

/-- A local variable-latency result that has not completed (R21): its registers are interlocked. fp marks an FP result,
for which a CSR instruction that names fflags waits (R69). -/
structure LocalRes where
  writes : List (RegRef × Vec)
  flags  : BitVec 5
  fp     : Bool
  deriving DecidableEq, Repr

/-- A sequencer instance (R239, R246): a scope level and the number of its instance. -/
structure Seqr where
  scope : Scope
  inst  : Nat
  deriving DecidableEq, Repr

/-- What the response to an access does (R241 Respond). -/
inductive AccDst where
  /-- nothing: a store, or a load of x0 -/
  | none
  /-- n bytes into scalar register r -/
  | x (r n : Nat) (signed : Bool)
  /-- bytes into vector register r: the value moved up by shift bytes, where the byte mask is 1 -/
  | v (r : Nat) (mask : BitVec 64) (shift : Nat)
  /-- word w of send-buffer entry e (SENDX) -/
  | send (e w : Nat)
  /-- the record of an ACTNEW (R193) -/
  | actnew (rd : Nat)
  /-- an ACTNEW whose record has been read, and that waits for a frame of the region (R193, R302) -/
  | create (rd : Nat) (record : Vec)
  /-- the STATE read of a TDONE (R199) -/
  | tdone (b : Word)
  /-- the home step of a TARM (R198) -/
  | tarm (b : Word)
  /-- the member count of a JOIN or LEAVE (R188) -/
  | member (rd : Nat) (operand : Word)
  /-- the query of a collective (R189) -/
  | query (operand : Word)
  /-- operand block pos of matrix operation op (R207) -/
  | mat (op pos : Nat)
  /-- a read-modify-write or read of a commit in progress (R174) -/
  | commit (va : Word)
  deriving DecidableEq, Repr

/-- An access that has left the issue point and not completed (R237). load and store are the classes of R156. -/
structure Access where
  id    : Nat
  home  : Nat
  load  : Bool
  store : Bool
  block : Bool
  va    : Word
  epc   : Word
  dst   : AccDst
  deriving DecidableEq, Repr

/-- A fence in force (R247): later accesses of its Later class wait for these accesses. -/
structure FenceGate where
  kind : FenceKind
  wait : List Nat
  deriving DecidableEq, Repr

/-- A matrix operation of a slot that has issued and not completed (R203). blocks are the operand blocks that have
arrived, with their descriptors. -/
inductive MatKind where
  | mzero (first count : Nat)
  | mrdv (vd row : Nat)
  | mwrv (row : Nat) (value : Vec)
  | mmac (fmt : Nat) (sat : Bool) (tile : Word)
  | mbin (isAnd sat : Bool) (tile : Word)
  | mload (acc fmt : Nat) (tile : Word)
  deriving DecidableEq, Repr

structure MatOp where
  id     : Nat
  epc    : Word
  kind   : MatKind
  need   : Nat
  blocks : List (Nat × Vec × Desc)
  deriving DecidableEq, Repr

/-- A message (R36, R178): class, words, msgid; its arrival sequence on the core (R288), the cycles it has aged while its
context ran, and the core cycle from which it ages on; bad: an uncorrectable error has lost its data (R342). -/
structure Msg where
  cls   : Nat
  words : List Vec
  msgid : Word
  arr   : Nat
  age   : Nat
  since : Nat
  bad   : Bool
  deriving DecidableEq, Repr

/-- A task (R195): its words, the core whose commit released or pushed it (20 R384), and its arrival and its loss, as for a message. -/
structure Task where
  words : List Vec
  src   : Nat
  arr   : Nat
  age   : Nat
  since : Nat
  bad   : Bool
  deriving DecidableEq, Repr

/-- A held message (R31) and the number of its words that have been popped. -/
structure Held where
  chan    : Nat
  msg     : Msg
  pos     : Nat
  trigger : Bool
  deriving DecidableEq, Repr

/-- The kinds of a collective's arrival (R189). -/
inductive CollKind where
  | gbar
  | xred (op : Nat)
  | xbcast
  deriving DecidableEq, Repr

/-- What an egress instruction asks of its queue (R201). -/
inductive EgrOp where | post | rel | drop
  deriving DecidableEq, Repr

/-- An entry of the send buffer (R172, R173). -/
inductive SendEntry where
  | send (name chan cls : Nat) (words : List Vec)
  | red (va : Word) (pa key cls : Nat) (w0 w1 : Vec)
  | gsend (operand : Word) (cls : Nat) (words : List Vec)
  | coll (kind : CollKind) (operand : Word) (payload : Vec)
  | qpush (operand : Word) (level : Nat) (close : Bool) (words : List Vec)
  | tdone (b : Word)
  | tarmRelease (b : Word)
  | egr (op : EgrOp) (operand : Word) (data : Vec)
  | mdrop (chan : Nat)
  deriving DecidableEq, Repr

/-- How far the commit of a TDONE or of a TARM release has come (R174, R199): the successors still to read and to
decrement, the blocks released and their words as they stood after release. -/
inductive CommitStep where
  | idle
  /-- waiting for the home step of the block -/
  | block (b : Word)
  /-- successor i of n is to be read next -/
  | readSucc (list : Word) (i n : Nat) (rel : List (Word × Nat × Vec))
  /-- successor s is being decremented -/
  | decSucc (list : Word) (i n : Nat) (s : Word) (rel : List (Word × Nat × Vec))
  /-- released blocks still to push: address, level, block -/
  | push (rel : List (Word × Nat × Vec))
  deriving DecidableEq, Repr

/-- The kind of an access for translation (R264). -/
inductive AccessKind where | read | write | fetch
  deriving DecidableEq, Repr

/-- A matrix operation of an activation that has been aborted (R29, R203): its launch and actor, the operation, and its reads
that have not completed. It still takes effect. -/
structure LateMat where
  launch : Nat
  actor  : Nat
  op     : MatOp
  accs   : List Access
  deriving DecidableEq, Repr

/-- The request of an ECALL (R119 step 3) before the kernel thread: the slot, the service number a7, the arguments a0 to a5, and
actor, msgid, launch and ctx. -/
structure EcallRequest where
  core    : Nat
  slot    : Fin 4
  service : Word
  args    : List Word
  actor   : Nat
  msgid   : Word
  launch  : Nat
  ctx     : Nat
  deriving DecidableEq, Repr

/-- What a slot is doing (R17, R119 to R122, R211, R228, R248, R345). -/
inductive Status where
  | free
  | running
  /-- suspended on a translation miss; sent: the walk request has gone to the walker (R268) -/
  | walk (va : Word) (kind : AccessKind) (sent : Bool)
  /-- waiting for a sequencer token (R246) -/
  | token (q : Seqr)
  /-- a SEND or SENDX whose destination entry is not cached (R177) -/
  | lookup (name : Nat)
  /-- a QPOP whose draw has not completed (R196) -/
  | draw (rd vs2 : Nat)
  /-- ECALL delivered and not answered (R119) -/
  | ecall
  /-- halted for a debugger (R120, R345, R346) -/
  | halted
  /-- HEND has issued (R122) -/
  | hend
  /-- a commit waits for a walk (R174, R268) -/
  | hendWalk (va : Word) (kind : AccessKind) (sent : Bool)
  /-- MSWAP waits for its pair (R211): its order, destination, length, the parts of its range by physical address and
  length, and the range as it stood at issue -/
  | mswap (order rd len : Nat) (pieces : List (Nat × Nat)) (data : List Byte) (descs : List Desc)
  /-- a hardware leaf task of a quadtree job (R228) -/
  | leaf (job : Nat) (path : List Nat)
  /-- a leaf task whose MSWAP waits for its pair (R211, R228): as for mswap -/
  | leafSwap (job : Nat) (path : List Nat) (order len : Nat) (pieces : List (Nat × Nat)) (data : List Byte) (descs : List Desc)
  deriving DecidableEq, Repr

/-- Why the slot's next instruction does not issue (R17, R21, R242 to R248). -/
inductive Stall where
  | interlock (r : RegRef)
  | blocked
  | release
  | fence
  | earlier
  | tag (n : Nat)
  /-- a WTAGANY or WTAGALL that has issued (R171, R248) -/
  | tagWait
  | window
  | matrix
  | flags
  | outbound
  deriving DecidableEq, Repr

/-- One thread slot. -/
structure Slot where
  status  : Status
  stall   : Option Stall
  x       : Vector Word 32
  v       : Vector Vec 32
  k       : Vector (BitVec 64) 8
  pc      : Word
  clock   : Nat
  pend    : List PendFix
  pflags  : List PendFlags
  locals  : List LocalRes
  mats    : List MatOp
  accs    : List Access
  fences  : List FenceGate
  token   : Option Seqr
  /-- the number of the running activation, which names its thread scope (R239) -/
  act     : Nat
  fflags  : BitVec 5
  frm     : BitVec 3
  chk     : Bool
  oscope  : Scope
  active  : Bool
  nextReg : Nat
  cause   : BitVec 8
  epc     : Word
  tval    : Word
  budget  : Nat
  actor   : Nat
  task    : Bool
  cls     : Nat
  chan    : Nat
  msgid   : Word
  launch  : Nat
  ctx     : Nat
  sends   : List SendEntry
  actend  : Bool
  ended   : Nat
  commit  : CommitStep
  result  : Option (Nat × Vec × Desc)
  waited  : Nat
  held    : List Held
  htask   : Option (Task × Nat)
  popped  : List Task
  parked  : List Nat
  /-- a job card read by the instruction that waits at issue (R164, R218) -/
  card    : Option Nat
  /-- that instruction has claimed its job's tag (R164, R218) -/
  claimed : Bool
  dbgWords   : List (BitVec 32)
  inDebug : Bool
  oneStep : Bool
  /-- resumed at a breakpoint's address: the instruction there issues (R346) -/
  passBreak : Bool
  deriving DecidableEq, Repr

/-- A slot at reset. Register and pc values are DESIGN CHOICE 0 (log 2); the rest is R18, R36. -/
def Slot.reset : Slot where
  status := .free
  stall := none
  x := Vector.replicate 32 0
  v := Vector.replicate 32 0
  k := Vector.replicate 8 0
  pc := 0
  clock := 0
  pend := []
  pflags := []
  locals := []
  mats := []
  accs := []
  fences := []
  token := none
  act := 0
  fflags := 0
  frm := 0
  chk := false
  oscope := .core
  active := false
  nextReg := 0
  cause := 0
  epc := 0
  tval := 0
  budget := 0
  actor := 0
  task := false
  cls := 0
  chan := 0
  msgid := 0
  launch := 0
  ctx := 0
  sends := []
  actend := false
  ended := 0
  commit := .idle
  result := none
  waited := 0
  held := []
  htask := none
  popped := []
  parked := []
  card := none
  claimed := false
  dbgWords := []
  inDebug := false
  oneStep := false
  passBreak := false

/-! ### Core state (R22, R36, R286) -/

/-- What a core holds for one resident launch (R286). -/
structure Resident where
  launch  : Nat
  tagdone : BitVec 64
  busy    : BitVec 64
  cmask   : BitVec 8
  tasks   : List Task
  /-- depths received from the siblings and not yet acted on (R293): sibling, depth -/
  depths  : List (Nat × Nat)
  deriving DecidableEq, Repr

/-- An arrival of an open epoch (R189). -/
structure Arrival where
  name    : Nat
  root    : Bool
  chan    : Nat
  cls     : Nat
  payload : Vec
  member  : Bool
  deriving DecidableEq, Repr

/-- A group record at its home (R186, R187). -/
structure GroupRec where
  launch   : Nat
  id       : Nat
  members  : List Nat
  epoch    : Nat
  kind     : Option CollKind
  arrivals : List Arrival
  deriving DecidableEq, Repr

/-- An address breakpoint (R344); actor 0 is any actor. -/
structure Breakpoint where
  n      : Nat
  addr   : Word
  launch : Nat
  actor  : Nat
  deriving DecidableEq, Repr

/-- A unit left in place by a pre-empted context or an evicted actor (R302): its number and its owner's launch. -/
structure Victim where
  unit   : Nat
  launch : Nat
  deriving DecidableEq, Repr

/-- A cached directory entry of a core's network interface (R298): the node where it places an endpoint. -/
structure DirEntry where
  launch : Nat
  name   : Nat
  node   : Nat
  deriving DecidableEq, Repr

/-- A message of a core's own hardware (a completion, a delivery, a notification) for an actor on the core itself that its
mailbox has not taken yet (R176, R180, R189; log 22): context, launch, endpoint, channel. -/
structure Post where
  asid   : Nat
  launch : Nat
  name   : Nat
  chan   : Nat
  msg    : Msg
  deriving DecidableEq, Repr

/-- One core. -/
structure Core where
  id        : Nat
  slots     : Vector Slot 4
  cycle     : Nat
  seq       : BitVec 32
  arrival   : Nat
  rows      : List (Nat × Vec)
  engine    : Nat
  residents : List Resident
  groups    : List GroupRec
  breaks    : List Breakpoint
  victims   : List Victim
  frames    : List Victim
  /-- rows that hold an uncorrectable error (R342) -/
  badRows   : List Nat
  leaves    : List (Nat × List Nat)
  /-- depth exchanges sent (R293) -/
  exchanges : Nat
  dir       : List DirEntry
  late      : List LateMat
  posts     : List Post
  deriving DecidableEq, Repr

/-- A core at reset (R351 step 6; R36). -/
def Core.reset (id : Nat) : Core where
  id := id
  slots := Vector.replicate 4 Slot.reset
  cycle := 0
  seq := 0
  arrival := 0
  rows := []
  engine := 0
  residents := []
  groups := []
  breaks := []
  victims := []
  frames := []
  badRows := []
  leaves := []
  exchanges := 0
  dir := []
  late := []
  posts := []

/-! ### Clusters, dies, jobs -/

/-- A translation-cache entry (R267). -/
structure Tlb where
  asid : Nat
  base : Nat
  size : Nat
  pa   : Nat
  r    : Bool
  w    : Bool
  x    : Bool
  key  : Nat
  deriving DecidableEq, Repr

structure Cluster where
  id    : Nat
  cache : List Tlb
  tasks : List (Nat × List Task)
  /-- accepted copy and quadtree jobs in acceptance order (R252) -/
  window : List Nat
  deriving DecidableEq, Repr

/-- What the save area keeps of a row and of a frame that were claimed from their owner (R303), by core and by the launch that left
them, a row with the actor that owns it; bad: the data is lost to an uncorrectable error (R342), a row's or that of the blocks listed. -/
structure SavedRow where
  core   : Nat
  row    : Nat
  launch : Nat
  name   : Nat
  value  : Vec
  bad    : Bool
  deriving DecidableEq, Repr
structure SavedFrame where
  core   : Nat
  frame  : Nat
  launch : Nat
  bytes  : List Byte
  descs  : List Desc
  bad    : List Nat
  deriving DecidableEq, Repr

/-- A walk in the walker of a die (R268): the granule, the clusters that wait for it, and whether a page request is out. -/
structure Walk where
  asid     : Nat
  granule  : Nat
  va       : Word
  kind     : AccessKind
  clusters : List Nat
  paged    : Bool
  /-- the level and the table that are read next, once the walk has begun, and DP as its start read it (R266) -/
  pos      : Option (Nat × Nat × Bool)
  deriving DecidableEq, Repr

/-- A record of the music box (R343). -/
structure Event where
  seq    : BitVec 32
  source : Nat
  code   : Nat
  data   : BitVec 64
  deriving DecidableEq, Repr

/-- The counters of one crossbar port (R323). -/
structure Port where
  n      : Nat
  trims  : BitVec 64
  yotx   : BitVec 64
  yorx   : BitVec 64
  retx   : BitVec 64
  defers : BitVec 64
  bad    : BitVec 64
  hwait  : Vector (BitVec 64) 8
  deriving DecidableEq, Repr

structure Die where
  id     : Nat
  tasks  : List (Nat × List Task)
  walks  : List Walk
  /-- RTO, TTHR, YPER, YDEPTH, BOFF of FCFG (R324) -/
  rto    : Nat
  tthr   : Nat
  yper   : Nat
  ydepth : Nat
  boff   : Nat
  /-- SEL of RTAB (R325) -/
  sel    : BitVec 14
  ports  : List Port
  /-- the ring of the music box, newest last: slot and record; MBHEAD's slot and wraps; last SEQ of each source (R343) -/
  ring   : List (Nat × Event)
  head   : Nat
  wraps  : Nat
  seqs   : List (Nat × BitVec 32)
  /-- corrections counted (CECC) by agent, and by 4 KiB unit or row, units retired by agent (RETIRED), link replays (REPLAY) (R339) -/
  cecc    : List (Nat × Nat)
  units   : List (Nat × Nat)
  retired : List (Nat × Nat)
  replay  : List (Nat × Nat)
  /-- logical clusters that are not enabled: they failed and found no spare (R341) -/
  off     : List Nat
  /-- physical clusters that fail their self-test, and spares in use: logical, physical (R341, R351) -/
  failed  : List Nat
  spares  : List (Nat × Nat)
  deriving DecidableEq, Repr

/-- A die at reset (R323 to R325, R343, R351). -/
def Die.reset (id : Nat) : Die where
  id := id
  tasks := []
  walks := []
  rto := 64
  tthr := 512
  yper := 16
  ydepth := 4
  boff := 8
  sel := 0
  ports := []
  ring := []
  head := 0
  wraps := 0
  seqs := []
  cecc := []
  units := []
  retired := []
  replay := []
  off := []
  failed := []
  spares := []

/-- How a job signals its end (R169): its tag, or the notify channel, class and endpoint. -/
inductive Signal where
  | tag (t : Nat)
  | notify (name chan cls : Nat)
  deriving DecidableEq, Repr

inductive CopyKind where | cpy | gath | scat
  deriving DecidableEq, Repr

/-- The fields of a copy job card that the job uses (R163). -/
structure CopyCard where
  fill  : Word
  bound : Int
  nidx  : Nat
  idx   : Word
  rop   : Nat
  desc  : Bool
  esz   : Nat
  dstr  : List Int
  sstr  : List Int
  cnt   : List Nat
  dst   : Word
  src   : Word
  deriving DecidableEq, Repr

/-- A copy, gather or scatter job (R164 to R170). -/
structure CopyJob where
  id      : Nat
  kind    : CopyKind
  core    : Nat
  launch  : Nat
  ctx     : Nat
  addr    : Word
  card    : CopyCard
  signal  : Signal
  started : Bool
  /-- the translation that the job waits for (R269, R170) -/
  blocked : Option (Word × AccessKind)
  /-- the access that could not be resolved, by its address and the fault's ORIGIN, until the card says so (R170) -/
  failed  : Option (Word × Nat)
  /-- index entries read -/
  index   : List (Nat × Int)
  /-- elements read and not yet written -/
  vals    : List (Nat × Vec × Desc)
  /-- every element below front is written, and these above it -/
  front   : Nat
  ahead   : List Nat
  deriving DecidableEq, Repr

/-- The fields of a quadtree job card (R216). -/
structure QCard where
  tag     : Nat
  notify  : Bool
  nep     : Nat
  nch     : Nat
  reads   : List (Nat × Nat)
  writes  : List (Nat × Nat)
  nma     : Nat
  maxrank : Nat
  rfmt    : Nat
  gap     : Nat
  ta      : Bool
  tb      : Bool
  ord     : Bool
  demote  : Bool
  fill    : BitVec 32
  alpha   : BitVec 32
  fpl     : Word
  frame   : Word
  dpbase  : Word
  npbase  : Word
  cin     : Word
  deriving DecidableEq, Repr

/-- What a quadtree job waits for a translation for (R269): its tree, the leaf at a path, or what it writes as it ends or suspends. -/
inductive QNeed where
  | tree
  | leaf (path : List Nat)
  | ending
  deriving DecidableEq, Repr

/-- A quadtree job in its cluster's engine (R218 to R235). groups are the child groups allocated, assigned the leaves given to
cores whose tasks hold no slot yet, leaves those that run with their data allocations, all by path from the root (quadrant
numbers); committed holds the paths of committed result nodes. suspend is the cause of a suspension under way; failed holds the
allocations that failed and have not been made since, by the cause they gave and the path (R231). -/
structure QJob where
  id        : Nat
  mul       : Bool
  core      : Nat
  launch    : Nat
  ctx       : Nat
  addr      : Word
  card      : QCard
  croot     : Word
  aroot     : Word
  broot     : Word
  recA      : BitVec 256
  recB      : BitVec 256
  recC      : BitVec 256
  state     : Nat
  scause    : Nat
  depth     : Nat
  npnext    : Nat
  nplimit   : Nat
  dpnext    : Nat
  dplimit   : Nat
  started   : Bool
  suspend   : Nat
  failed    : List (Nat × List Nat)
  cancelled : Bool
  /-- the page requests of a suspension under way, and those of the last one while they are unresolved (R231) -/
  blocked   : List Word
  asked     : List Word
  /-- the engine is still to re-walk the result tree of the resumed job (R231) -/
  rewalk    : Bool
  /-- the translation that the job waits for in a walker, and what needs it (R269) -/
  wait      : Option (Word × AccessKind × QNeed)
  groups    : List (List Nat × Nat)
  assigned  : List (List Nat)
  leaves    : List (List Nat × Nat)
  nleaves   : Nat
  committed : List (List Nat)
  cache     : List (Nat × Vec × Desc)
  /-- data blocks of running leaves that have entered the job's queues: leaf, write (R227) -/
  staged    : List (List Nat × Nat)
  /-- nodes whose committed records have entered the job's queues and have not performed: node, write (R227) -/
  recording : List (List Nat × Nat)
  deriving DecidableEq, Repr

/-! ### Network (13 R309 to R322) -/

/-- The operations of the AMO major (R153). -/
inductive RmwOp where | add | and | or | xor | min | max | minu | maxu | swap
  deriving DecidableEq, Repr

/-- What an access does at its home (R249). Addresses are domain physical addresses. -/
inductive MemOp where
  | read (pa n : Nat)
  /-- a 64-byte block with its descriptor -/
  | readBlock (pa : Nat)
  | readDesc (pa : Nat)
  /-- the bytes of value whose mask bit is 1, from pa upward -/
  | write (pa : Nat) (value : Vec) (mask : BitVec 64)
  | writeBlock (pa : Nat) (value : Vec) (desc : Desc)
  /-- the same for some bytes of a block, and its descriptor (R224) -/
  | writePart (pa : Nat) (value : Vec) (mask : BitVec 64) (desc : Desc)
  | writeDesc (pa : Nat) (desc : Desc)
  | rmw (pa n : Nat) (op : RmwOp) (operand : Word)
  /-- fail: the failure ordering, 0 rlx, 1 acq, 2 sc (R154) -/
  | cas (pa n : Nat) (expect new : Word) (fail : Nat)
  | tarm (pa : Nat) (self count : Word)
  | tarmRelease (pa : Nat)
  | tdoneState (pa : Nat)
  | tdoneSet (pa : Nat)
  | decrement (pa : Nat)
  deriving DecidableEq, Repr

/-- The answer of a home: the value, the descriptor of the block, a code (0 done, 1 the operation's own condition failed),
and whether the data was poisoned (R342). -/
structure MemRes where
  value  : Vec
  desc   : Desc
  code   : Nat
  poison : Bool
  deriving DecidableEq, Repr

/-- The access that a response answers, and the sequencer token it returns (R246). -/
structure Who where
  core  : Nat
  slot  : Fin 4
  acc   : Nat
  token : Option Seqr
  deriving DecidableEq, Repr

/-- What a group item does at the group home (R188 to R194). -/
inductive GroupOp where
  | deliver (cls : Nat) (words : List Vec) (msgid : Word)
  | arrive (name : Nat) (kind : CollKind) (payload : Vec)
  | join (name : Nat)
  | leave (name : Nat)
  | query (name : Nat)
  | ended (name : Nat)
  deriving DecidableEq, Repr

/-- A fault that no activation takes, or the trap of an activation, on its way to the marionette die (R335, R336). -/
structure FaultReport where
  launch : Nat
  cause  : Nat
  origin : Nat
  tval   : Word
  epc    : Word
  msgid  : Word
  actor  : Nat
  core   : Nat
  slot   : Nat
  job    : Word
  prog   : Nat
  deriving DecidableEq, Repr

/-- The use of a packet (R311). -/
inductive Body where
  | msg (launch name chan : Nat) (m : Msg)
  | grp (launch : Nat) (operand : Word) (op : GroupOp) (who : Option Who)
  | tsk (launch level : Nat) (t : Task) (report : FaultReport)
  | rd (op : MemOp) (key : Nat) (who : Who)
  | rdr (who : Who) (res : MemRes)
  | wr (op : MemOp) (key : Nat) (who : Who)
  | wra (who : Who) (res : MemRes)
  | amo (op : MemOp) (key : Nat) (who : Who)
  | amor (who : Who) (res : MemRes)
  | red (launch pa key : Nat) (w0 w1 : Vec) (report : FaultReport)
  /-- read k of a job (R329), and its answer -/
  | jrd (job k : Nat) (op : MemOp) (key : Nat)
  | jrdr (job k : Nat) (res : MemRes)
  /-- write k of a job, combined by a scatter's ROP, and its answer -/
  | jwr (job k rop : Nat) (op : MemOp) (key : Nat)
  | jwra (job k : Nat) (res : MemRes)
  /-- a QPUSH CLOSE on its way to its die queue (R195; log 26) -/
  | close (launch : Nat)
  | egr (launch core q : Nat) (op : EgrOp) (operand : Word) (data : Vec)
  /-- a kind that R311 does not list, from a corruption that the link checks missed, and the Thrumlink port it comes by -/
  | bad (kind way : Nat)
  /-- a position whose message the source has sent again along another path (R300) -/
  | moved
  deriving DecidableEq, Repr

/-- A packet: the header fields that vary, and its use (R309). orig: a forwarded copy's original, by the source of its pair
and its sequence (R322). -/
structure Packet where
  seq   : Nat
  len   : Nat
  cls   : Nat
  asid  : Nat
  alt   : Bool
  hops  : Nat
  defer : Bool
  trim  : Bool
  /-- what the use does not say of OPX and ADDR (R311): the ORD of a write, at its bits, and the operation and address of the request
  that an answer answers -/
  opx   : Nat
  addr  : Nat
  body  : Body
  /-- the virtual address whose translation an access uses, which a withdrawal waits by (R270) -/
  via   : Word
  orig  : Option (Nat × Nat)
  deriving DecidableEq, Repr

/-- A packet of the retransmit store (R318, R320): resends for a yo-yo or a timeout, and the network cycle it was last
sent. -/
structure Sent where
  pkt     : Packet
  resends : Nat
  sentAt  : Nat
  deriving DecidableEq, Repr

/-- A hole of a reorder window (R316, R317, R321). fwd: the position waits for the forwarded copy (R322); hdr: the header that
stands at the hole, TRIM or DEFER set. -/
structure Hole where
  seq      : Nat
  since    : Nat
  asked    : Option Nat
  deferred : Bool
  fwd      : Bool
  hdr      : Option Packet
  deriving DecidableEq, Repr

/-- A control packet on its way to the source of a pair (R311). -/
inductive Ctl where
  | ack (seq : Nat)
  | yoyo (seq : Nat)
  | defr (seq reason : Nat)
  deriving DecidableEq, Repr

/-- All that the network holds for one ordered pair of nodes (R310): the answers of a home travel in the pair from the home (R237). -/
structure Pair where
  src      : Nat
  dst      : Nat
  out      : List Packet
  net      : List Packet
  next     : Nat
  store    : List Sent
  expected : Nat
  window   : List Packet
  holes    : List Hole
  ctl      : List Ctl
  unacked  : Nat
  oldest   : Option Nat
  /-- deferred sequences, each with the network cycle when its backoff ends and the reason; doublings of the wait (R321) -/
  backoff  : List (Nat × Nat × Nat)
  shift    : Nat
  deriving DecidableEq, Repr

/-- A pair that has carried nothing. The first sequence number is DESIGN CHOICE 0 (log 2). -/
def Pair.reset (src dst : Nat) : Pair where
  src := src
  dst := dst
  out := []
  net := []
  next := 0
  store := []
  expected := 0
  window := []
  holes := []
  ctl := []
  unacked := 0
  oldest := none
  backoff := []
  shift := 0

/-- A link of the domain between two nodes, by its ends and their ports (R326). -/
structure DomainLink where
  a  : Nat
  ap : Nat
  b  : Nat
  bp : Nat
  deriving DecidableEq, Repr

/-- The routes installed for another module: the hops of each, a port and the node it leads to (R326); equal: the ports whose links
lead where the first link of the primary path leads (R325). -/
structure Route where
  dest      : Nat
  primary   : List (Nat × Nat)
  alternate : List (Nat × Nat)
  equal     : List Nat
  deriving DecidableEq, Repr

/-! ### Launches, actors and contexts (12) -/

/-- One declared channel: its handler-table entry (R181) and its mailbox queue. ucount: cycles that the head message stood
with BOUND = 0 before its context was last pre-empted. unbound: since when the head message has
stood with BOUND = 0, in core cycles (R183). -/
structure Chan where
  num     : Nat
  offset  : BitVec 32
  task    : Bool
  words   : Nat
  bound   : Bool
  en      : Bool
  prio    : Nat
  queue   : List Msg
  unbound : Option Nat
  ucount  : Nat
  deriving DecidableEq, Repr

/-- Where the directory places an endpoint (R298); unclaimed while its launch waits for the resources of its core (R283 step 3). -/
inductive Place where | unclaimed | core | parked | ended
  deriving DecidableEq, Repr

/-- An actor of a launch (R27, R282, R298, R301). -/
structure Actor where
  name   : Nat
  place  : Place
  core   : Nat
  base   : Word
  size   : Nat
  stack  : Nat
  zbase  : Nat
  zrows  : Nat
  chans  : List Chan
  box    : List (Nat × Msg)
  groups : List Nat
  stubs  : List Nat
  halted : Bool
  firstHalt : Bool
  /-- its eviction has begun (R307) -/
  leaving : Bool
  /-- parked by an eviction, not by its context's pre-emption (R307) -/
  evicted : Bool
  deriving DecidableEq, Repr

/-- The life of a launch (R280 LSTATE, R283, R297). -/
inductive Phase where | waiting | running | ending | ended
  deriving DecidableEq, Repr

structure Launch where
  id       : Nat
  ctx      : Nat
  queue    : Nat
  desc     : Word
  status   : Word
  image    : Word
  tb       : Word
  phase    : Phase
  /-- the step of R283 that is under way, 9 when LSTATE 2 is written, and the cores still to install in step 4 -/
  step     : Nat
  todo     : List Nat
  budget   : Nat
  quiesce  : Bool
  oscope   : Scope
  chk      : Bool
  frm      : BitVec 3
  bthr     : Nat
  ezrows   : Nat
  words    : Nat
  actors   : List Actor
  /-- seeds and memberships of the image, until the start makes them (R282, R283): payload, name, channel; operand, name -/
  seeds    : List (Word × Nat × Nat)
  joins    : List (Word × Nat)
  /-- initial tasks still to push (R285): payload address and die -/
  late     : List (Word × Nat)
  /-- dies whose queues are closed for the launch (R195) -/
  closed   : List Nat
  dropped  : Nat
  nfault   : Nat
  fault    : Option FaultReport
  egdisc   : Nat
  endCode  : Nat
  /-- a debugger has access, and one is attached (R120, R344) -/
  granted  : Bool
  attached : Bool
  deriving DecidableEq, Repr

/-- A context (R266, R278, R279). saved, groups, queued: what the save engine keeps of cores, group homes and the task queues of
clusters (level 1) and dies (level 2) while it is pre-empted (R305). -/
structure Context where
  asid    : Nat
  valid   : Bool
  running : Bool
  leaving : Bool
  root    : Nat
  dp      : Bool
  keys    : List (Option Nat)
  queues  : List (Nat × List Word)
  saved   : List (Nat × Resident)
  groups  : List (Nat × GroupRec)
  queued  : List (Nat × Nat × Nat × List Task)
  deriving DecidableEq, Repr

/-! ### Gated egress (R201, R202, R330) -/

structure EgrEntry where
  launch : Nat
  stream : BitVec 24
  seq    : BitVec 32
  data   : Vec
  deriving DecidableEq, Repr

/-- The marks of a stream; none is below every sequence. -/
structure EgrStream where
  stream : BitVec 24
  rel    : Option (BitVec 32)
  drop   : Option (BitVec 32)
  deriving DecidableEq, Repr

structure Egress where
  q       : Nat
  owner   : Nat
  chead   : BitVec 32
  pres    : BitVec 32
  held    : List EgrEntry
  ring    : List EgrEntry
  streams : List EgrStream
  raised  : Nat
  deriving DecidableEq, Repr

/-! ### Boot, attestation and power (15) -/

/-- Where the boot of R351 stands. -/
inductive BootState where | running | bootfail | off
  deriving DecidableEq, Repr

structure Boot where
  state    : BootState
  degraded : Bool
  /-- flash bytes that differ from blank flash (0xFF) -/
  flash    : List (Nat × Byte)
  /-- the set that booted, 1 A or 2 B, and PREF (R349) -/
  booted   : Nat
  pref     : Nat
  rooth    : BitVec 512
  minsvn   : Nat
  secret   : BitVec 256
  identity : BitVec 256
  meas     : BitVec 512
  svns     : List Nat
  /-- the images that stand in the marionette die's SRAM, by load address (R348) -/
  loaded   : List (Nat × List Byte)
  /-- the last quote answered (R355) -/
  quote    : List Byte
  deriving DecidableEq, Repr

/-- A power transition under way (R358). -/
inductive PowerMove where | toP0 | toP1 | toP2
  deriving DecidableEq, Repr

structure Power where
  cap     : Nat
  req     : Nat
  clk     : Nat
  /-- the arithmetic clock in MHz that a change of clocks goes to (R358) -/
  goal    : Nat
  moving  : Option PowerMove
  trip    : Bool
  refused : Bool
  state   : Nat
  /-- firmware holds the module in P1, and the cap in watts at which it does (R360) -/
  coolant : Bool
  limit   : Nat
  /-- readings of the sensors at 95 degrees or above, by sensor number (R359) -/
  hot     : List (Nat × Nat)
  alert   : Bool
  deriving DecidableEq, Repr

/-! ### Moves of the environment -/

/-- Where messages, tasks and saved state stand that an uncorrectable error strikes (R342). -/
inductive LostAt where
  /-- a message or task of a core's mailboxes, queues or slots, by its arrival sequence -/
  | arrived (core arrival : Nat)
  /-- message n of an actor's parked mailbox -/
  | parked (launch name n : Nat)
  /-- task n of a launch's partition in the queue of a cluster (level 1) or die (level 2) -/
  | queued (level id launch n : Nat)
  /-- task n of a launch's core partition, or of its partition in a cluster or die, that a pre-empted context has in its save area -/
  | savedCore (ctx core launch n : Nat)
  | savedQueue (ctx level id launch n : Nat)
  /-- row n of the save area, and block b of frame n -/
  | savedRow (n : Nat)
  | savedBlock (n b : Nat)
  deriving DecidableEq, Repr

/-- What the operating system, the application cores, the cards and the board do outside the table's events. -/
inductive HostAction where
  | context (asid root : Nat) (valid dp : Bool) (keys : List (Option Nat))
  | append (asid queue : Nat) (desc : Word)
  | egress (q asid : Nat)
  | grant (launch : Nat)
  | write (pa : Nat) (bytes : List Byte)
  /-- a part of an image loaded from a block's start on, with the descriptors of its blocks; RAW where the list ends (02 R56) -/
  | load (pa : Nat) (bytes : List Byte) (descs : List Desc)
  | poison (pa : Nat)
  | poisonRow (core row : Nat)
  | poisonMessage (at_ : LostAt)
  /-- corruption that the link checks miss: the header that then stands (R311), and the Thrumlink port by which a packet of another
  module comes -/
  | corrupt (src dst seq way : Nat) (header : BitVec 256)
  /-- the links of the domain as the flooded link states give them (R327) -/
  | topology (links : List DomainLink)
  /-- a packet met a link that is down: queued for it, its source is told with reason 3, else it is lost (R327) -/
  | linkLoss (link src dst seq : Nat) (queued : Bool)
  | sensor (n celsius : Nat)
  /-- a correction of one block of memory, or of a row (R339) -/
  | correct (t : ScrubTarget)
  /-- a correction in a descriptor array, a mailbox, a queue or a retransmit store of a die: the node that makes it, the 4 KiB unit
  in which it stands, by its number at that node, and the address that names the unit (R339; log 74) -/
  | correctStore (node unit data : Nat)
  | present (modules : List Nat)
  | coolantOk
  /-- the firmware measures more power in P1 than the cap allows (R358) -/
  | overCap
  | failCluster (die physical : Nat)
  /-- the operating system binds a device's requester ID and PASID to an ASID (R331) -/
  | bindDevice (requester pasid asid : Nat)
  /-- a device writes through the mappings of the ASID it is bound to (R331) -/
  | deviceWrite (requester pasid : Nat) (va : Word) (bytes : List Byte)
  /-- a device reads n bytes through them (R331) -/
  | deviceRead (requester pasid : Nat) (va : Word) (n : Nat)
  deriving DecidableEq, Repr

/-- A move of the machine (R241), of its environment, or the passing of time. -/
inductive Move where
  /-- the slot issues its next instruction -/
  | issue (core : Nat) (slot : Fin 4)
  /-- an event row of the table -/
  | event (i : Instr)
  /-- n arithmetic cycles pass at a core -/
  | cycles (core n : Nat)
  /-- n network cycles pass -/
  | netCycles (n : Nat)
  /-- the engine assigns the leaf at a path of a quadtree job to a core (R228) -/
  | assignLeaf (job : Nat) (path : List Nat) (core : Nat)
  /-- an element access of a job enters its queue: read or write k (R252) -/
  | jobSend (job k : Nat) (write : Bool)
  /-- the mailbox of a core takes a message of the core's own hardware (log 22) -/
  | deliver (core n : Nat)
  /-- walk n of a die reads its next table entry (R268) -/
  | walkRead (die n : Nat)
  /-- a core of a launch that starts is installed (R283 step 4) -/
  | install (launch core : Nat)
  /-- the start of a launch goes on to the cores that are installed, before the others are (R283 step 9, R284) -/
  | early (launch : Nat)
  /-- an INTERNAL result node of a job whose children have committed commits (R227) -/
  | commitNode (job : Nat) (path : List Nat)
  /-- the engine re-walks the result tree of a resumed job, as far as it has fetched it (R231) -/
  | rewalk (job : Nat)
  /-- a leaf task of a gang issues an MSWAP of a range (R211, R228) -/
  | leafSwap (core : Nat) (slot : Fin 4) (va : Word) (len : Nat)
  /-- an ACTNEW that waited for frames makes its actor (R193, R302) -/
  | create (core : Nat) (slot : Fin 4)
  /-- the arithmetic clock changes by a step of 25 MHz (R358) -/
  | clockStep
  | host (a : HostAction)
  deriving DecidableEq, Repr

/-! ### The machine -/

structure State where
  module   : Nat
  modules  : List Nat
  cores    : List Core
  clusters : List Cluster
  dies     : List Die
  copies   : List CopyJob
  qjobs    : List QJob
  pairs    : List Pair
  buckets  : List (Nat × Nat × Nat)
  mem      : List Host.Cell
  descs    : List (Nat × Desc)
  blockKey : List (Nat × BitVec 512)
  poisoned : List Nat
  retired  : List Nat
  keys     : List (Nat × BitVec 512)
  tokens   : List Seqr
  contexts : List Context
  launches : List Launch
  nextLid  : Nat
  reports  : List FaultReport
  /-- requests of ECALLs that wait for their service (R119) -/
  requests : List EcallRequest
  egress   : List Egress
  /-- the ASID that a device's requester ID and PASID are bound to (R331), by requester ID · 2^20 + PASID -/
  bindings : List (Nat × Nat)
  /-- what the last device read gave; none of it where the read was refused (R331) -/
  deviceOut : List Byte
  /-- rows and frames of victims that were claimed, kept for their owners (R303) -/
  savedRows   : List SavedRow
  savedFrames : List SavedFrame
  /-- the ASID that an SRAM frame of the module is tagged with, by core · 32 + frame (R302) -/
  frameOwner : List (Nat × Nat)
  /-- frames reported to the operating system for retirement (R277) -/
  frameReports : List Nat
  linksDown  : List Nat
  /-- consecutive failed frames by link: Thrumlink ports 0 to 11, and die-to-die ports from 12 on (R328, R339) -/
  linkFails  : List (Nat × Nat)
  generation : Nat
  /-- the links of the domain, and the routes installed (R326) -/
  domain     : List DomainLink
  routes     : List Route
  /-- a recomputation of the tree is under way, and the modules whose routes it changes (R327) -/
  moving     : Bool
  changed    : List Nat
  boot     : Boot
  power    : Power
  dbgOut   : Vec
  /-- activations halted for a debugger that a launch's end aborted: launch, actor (R346) -/
  dbgTold  : List (Nat × Nat)
  netClock : Nat
  nextId   : Nat
  free     : Nat
  curCore  : Nat
  curSlot  : Fin 4
  agenda   : List Move
  deriving DecidableEq, Repr

/-- The module right after reset (R351): memory, rows, descriptors and key slots zero, registers of the fabric, power and
launches at the reset values of their maps. Values the specification does not give are those of log entries 2 and 3. -/
def State.reset : State where
  module := 0
  modules := [0]
  cores := []
  clusters := []
  dies := []
  copies := []
  qjobs := []
  pairs := []
  buckets := []
  mem := []
  descs := []
  blockKey := []
  poisoned := []
  retired := []
  keys := []
  tokens := []
  contexts := []
  launches := []
  nextLid := 1
  reports := []
  requests := []
  egress := []
  bindings := []
  deviceOut := []
  savedRows := []
  savedFrames := []
  frameOwner := []
  frameReports := []
  linksDown := []
  linkFails := []
  generation := 0
  domain := []
  routes := []
  moving := false
  changed := []
  boot := { state := .running, degraded := false, flash := [], booted := 1, pref := 1, rooth := 0, minsvn := 0,
            secret := 0, identity := 0, meas := 0, svns := [0, 0, 0], loaded := [], quote := [] }
  power := { cap := 3400, req := 0, clk := 1000, goal := 1000, moving := none, trip := false, refused := false, state := 0,
             coolant := false, limit := 0, hot := [], alert := false }
  dbgOut := 0
  dbgTold := []
  netClock := 0
  nextId := 0
  free := 0
  curCore := 0
  curSlot := 0
  agenda := []

end Sys2Proof.Machine
end

