-- ==== Sys2Proof/Machine/Flags.lean ====
section
/-! DEFINITION. The five FP flags of fflags (01 R36) and when they enter the register (03 R69). -/
namespace Sys2Proof.Machine

abbrev FFlags := BitVec 5

def flagNX : FFlags := 1
def flagUF : FFlags := 2
def flagOF : FFlags := 4
def flagDZ : FFlags := 8
def flagNV : FFlags := 16
def noFlags : FFlags := 0

/-- One flag when a condition holds. -/
def flagIf (b : Bool) (f : FFlags) : FFlags := if b then f else 0

/-- R69: a fixed-latency FP instruction that issues at the slot's clock raises its flags at clock + lat. -/
def accrueAt (sl : Slot) (f : FFlags) (lat : Nat) : Slot :=
  if f = 0 then sl else { sl with pflags := sl.pflags ++ [⟨f, sl.clock + lat⟩] }

/-- The flags whose clock has come. -/
def flagsDue (clock : Nat) : List PendFlags → FFlags
  | [] => 0
  | p :: r => (if p.vis ≤ clock then p.flags else 0) ||| flagsDue clock r

/-- R69: fflags with every flag visible at the slot's clock. -/
def settleFlags (sl : Slot) : Slot :=
  { sl with fflags := sl.fflags ||| flagsDue sl.clock sl.pflags,
            pflags := sl.pflags.filter (fun p => decide (sl.clock < p.vis)) }

end Sys2Proof.Machine
end

