-- ==== Sys2Proof/Machine/Num.lean ====
section
/-! DEFINITION. Number formats, rounding, FP32 arithmetic, conversions, DX blocks and XF accumulators (04 R77 to R103).
A finite value is a sign, a natural mantissa and an exponent of two, taken exactly; a result is rounded once. -/
namespace Sys2Proof.Machine

/-- A value read from a floating-point format. -/
inductive FVal where
  | nan (signalling : Bool)
  | inf (neg : Bool)
  | fin (neg : Bool) (m : Nat) (e : Int)
  deriving DecidableEq, Repr

/-- A floating-point format by its exponent and fraction widths (R78). -/
structure FFmt where
  eb : Nat
  fb : Nat
  deriving DecidableEq, Repr

def fmtFP32 : FFmt := ⟨8, 23⟩
def fmtFP16 : FFmt := ⟨5, 10⟩
def fmtBF16 : FFmt := ⟨8, 7⟩

def FFmt.bias (f : FFmt) : Int := 2 ^ (f.eb - 1) - 1
def FFmt.emin (f : FFmt) : Int := 1 - f.bias
def FFmt.signBit (f : FFmt) : Nat := 2 ^ (f.eb + f.fb)
def FFmt.infBits (f : FFmt) : Nat := (2 ^ f.eb - 1) * 2 ^ f.fb
def FFmt.nanBits (f : FFmt) : Nat := f.infBits + 2 ^ (f.fb - 1)

/-- The value of an encoding (R78). -/
def fdecode (f : FFmt) (b : Nat) : FVal :=
  let neg := b / f.signBit % 2 = 1
  let e := b / 2 ^ f.fb % 2 ^ f.eb
  let m := b % 2 ^ f.fb
  if e = 2 ^ f.eb - 1 then (if m = 0 then .inf neg else .nan (m < 2 ^ (f.fb - 1)))
  else if e = 0 then .fin neg m (f.emin - f.fb)
  else .fin neg (2 ^ f.fb + m) (f.emin - f.fb + (e - 1))

def signed (f : FFmt) (neg : Bool) (b : Nat) : Nat := if neg then f.signBit + b else b

/-- Rounding modes of frm (R88): 0 RNE, 1 RTZ, 2 RDN, 3 RUP, 4 RMM. -/
abbrev RMode := Nat
def RNE : RMode := 0

/-- Whether a magnitude that lies between q and q + 1 rounds up: r of 2^n is the part cut off. -/
def roundsUp (mode : RMode) (neg : Bool) (q r n : Nat) : Bool :=
  if r = 0 then false
  else match mode with
    | 0 => 2 * r > 2 ^ n || (2 * r = 2 ^ n && q % 2 = 1)
    | 1 => false
    | 2 => neg
    | 3 => !neg
    | _ => 2 * r ≥ 2 ^ n

/-- m times 2^e rounded to a whole number of 2^q: the number and whether it is inexact. -/
def roundAt (mode : RMode) (neg : Bool) (m : Nat) (e q : Int) : Nat × Bool :=
  if q ≤ e then (m * 2 ^ (e - q).toNat, false)
  else
    let n := (q - e).toNat
    let k := m / 2 ^ n
    let r := m % 2 ^ n
    (if roundsUp mode neg k r n then k + 1 else k, r != 0)

/-- R88: the overflow result. -/
def overflowBits (f : FFmt) (mode : RMode) (neg : Bool) : Nat :=
  let big := f.infBits - 1
  signed f neg (match mode with
    | 0 => f.infBits
    | 1 => big
    | 2 => if neg then f.infBits else big
    | 3 => if neg then big else f.infBits
    | _ => f.infBits)

/-- RoundFP of an exact non-zero magnitude, with its flags (R36, R88, R89). -/
def roundMag (f : FFmt) (mode : RMode) (neg : Bool) (m : Nat) (e : Int) : Nat × FFlags :=
  let top := e + m.log2
  let q := max (top - f.fb) (f.emin - f.fb)
  let r := roundAt mode neg m e q
  let u := roundAt mode neg m e (top - f.fb)
  let tiny := (if u.1 = 2 ^ (f.fb + 1) then top + 1 else top) < f.emin
  if r.1 < 2 ^ f.fb then
    (signed f neg r.1, flagIf r.2 flagNX ||| flagIf (r.2 && tiny) flagUF)
  else
    let k := if r.1 = 2 ^ (f.fb + 1) then (2 ^ f.fb, q + 1) else (r.1, q)
    let ef := k.2 + f.fb + f.bias
    if ef ≥ 2 ^ f.eb - 1 then (overflowBits f mode neg, flagOF ||| flagNX)
    else (signed f neg (ef.toNat * 2 ^ f.fb + (k.1 - 2 ^ f.fb)), flagIf r.2 flagNX ||| flagIf (r.2 && tiny) flagUF)

/-- A value in a format: RoundFP, with the canonical NaN (R79). A signalling NaN raises NV. -/
def fencode (f : FFmt) (mode : RMode) : FVal → Nat × FFlags
  | .nan sg => (f.nanBits, flagIf sg flagNV)
  | .inf neg => (signed f neg f.infBits, 0)
  | .fin neg m e => if m = 0 then (signed f neg 0, 0) else roundMag f mode neg m e

def FVal.isNan : FVal → Bool
  | .nan _ => true
  | _ => false
def FVal.isSnan : FVal → Bool
  | .nan sg => sg
  | _ => false
def FVal.isZero : FVal → Bool
  | .fin _ m _ => m == 0
  | _ => false
def FVal.neg : FVal → FVal
  | .nan sg => .nan sg
  | .inf n => .inf (!n)
  | .fin n m e => .fin (!n) m e
def FVal.isNeg : FVal → Bool
  | .nan _ => false
  | .inf n => n
  | .fin n _ _ => n

/-- A finite value as an integer at a lower exponent. -/
def scaled (neg : Bool) (m : Nat) (e lo : Int) : Int :=
  let v : Int := m * 2 ^ (e - lo).toNat
  if neg then -v else v

/-- An exact integer times 2^e; an exact zero takes the sign of the mode (R129). -/
def ofScaled (mode : RMode) (v : Int) (e : Int) : FVal :=
  if v = 0 then .fin (mode = 2) 0 e else .fin (v < 0) v.natAbs e

/-- The exact sum of two values; an invalid sum is a quiet NaN with NV (R129). -/
def fsum (mode : RMode) (a b : FVal) : FVal × FFlags :=
  match a, b with
  | .nan x, y => (.nan false, flagIf (x || y.isSnan) flagNV)
  | x, .nan y => (.nan false, flagIf (y || x.isSnan) flagNV)
  | .inf x, .inf y => if x = y then (.inf x, 0) else (.nan false, flagNV)
  | .inf x, _ => (.inf x, 0)
  | _, .inf y => (.inf y, 0)
  | .fin na ma ea, .fin nb mb eb =>
    if ma = 0 && mb = 0 then (.fin (if na = nb then na else mode = 2) 0 0, 0)
    else
      let lo := min ea eb
      (ofScaled mode (scaled na ma ea lo + scaled nb mb eb lo) lo, 0)

/-- The exact product (R129). -/
def fprod (a b : FVal) : FVal × FFlags :=
  match a, b with
  | .nan x, y => (.nan false, flagIf (x || y.isSnan) flagNV)
  | x, .nan y => (.nan false, flagIf (y || x.isSnan) flagNV)
  | .inf x, y => if y.isZero then (.nan false, flagNV) else (.inf (x != y.isNeg), 0)
  | x, .inf y => if x.isZero then (.nan false, flagNV) else (.inf (x.isNeg != y), 0)
  | .fin na ma ea, .fin nb mb eb => (.fin (na != nb) (ma * mb) (ea + eb), 0)

/-- The quotient, with enough bits and a sticky bit to round it once (R129). -/
def fquot (a b : FVal) : FVal × FFlags :=
  match a, b with
  | .nan x, y => (.nan false, flagIf (x || y.isSnan) flagNV)
  | x, .nan y => (.nan false, flagIf (y || x.isSnan) flagNV)
  | .inf _, .inf _ => (.nan false, flagNV)
  | .inf x, y => (.inf (x != y.isNeg), 0)
  | x, .inf y => (.fin (x.isNeg != y) 0 0, 0)
  | .fin na ma ea, .fin nb mb eb =>
    if mb = 0 then (if ma = 0 then (.nan false, flagNV) else (.inf (na != nb), flagDZ))
    else if ma = 0 then (.fin (na != nb) 0 0, 0)
    else
      let n := ma * 2 ^ 64
      (.fin (na != nb) (2 * (n / mb) + (if n % mb = 0 then 0 else 1)) (ea - eb - 65), 0)

/-- The integer square root of n, by bits from 2^k down. -/
def isqrt (n : Nat) : Nat → Nat → Nat
  | 0, r => if (r + 1) * (r + 1) ≤ n then r + 1 else r
  | k + 1, r => isqrt n k (if (r + 2 ^ (k + 1)) * (r + 2 ^ (k + 1)) ≤ n then r + 2 ^ (k + 1) else r)

/-- The square root, with a sticky bit (R129). -/
def fsqrt (a : FVal) : FVal × FFlags :=
  match a with
  | .nan x => (.nan false, flagIf x flagNV)
  | .inf neg => if neg then (.nan false, flagNV) else (.inf false, 0)
  | .fin neg m e =>
    if m = 0 then (.fin neg 0 0, 0)
    else if neg then (.nan false, flagNV)
    else
      let odd := e % 2 != 0
      let m' := if odd then 2 * m else m
      let e' := if odd then e - 1 else e
      let n := m' * 2 ^ 64
      let r := isqrt n 45 0
      (.fin false (2 * r + (if r * r = n then 0 else 1)) (e' / 2 - 33), 0)

/-- Whether a is below b, both not NaN; zeros are equal. -/
def fless (a b : FVal) : Bool :=
  match a, b with
  | .nan _, _ => false
  | _, .nan _ => false
  | .inf x, .inf y => x && !y
  | .inf x, _ => x
  | _, .inf y => !y
  | .fin na ma ea, .fin nb mb eb =>
    let lo := min ea eb
    scaled na ma ea lo < scaled nb mb eb lo
def fequal (a b : FVal) : Bool :=
  match a, b with
  | .nan _, _ => false
  | _, .nan _ => false
  | .inf x, .inf y => x == y
  | .inf _, _ => false
  | _, .inf _ => false
  | .fin na ma ea, .fin nb mb eb =>
    let lo := min ea eb
    scaled na ma ea lo == scaled nb mb eb lo

/-! ### FP32 operations on 32-bit patterns -/

def isSub32 (b : Nat) : Bool := b / 2 ^ 23 % 256 == 0 && b % 2 ^ 23 != 0
/-- R90: fi replaces a subnormal input by a zero of its sign. -/
def flushIn (fi : Bool) (b : Nat) : Nat := if fi && isSub32 b then b / 2 ^ 31 * 2 ^ 31 else b
/-- R90: fo replaces a subnormal result by a zero of its sign and raises UF and NX. -/
def flushOut (fo : Bool) (r : Nat × FFlags) : Nat × FFlags :=
  if fo && isSub32 r.1 then (r.1 / 2 ^ 31 * 2 ^ 31, r.2 ||| flagUF ||| flagNX) else r

/-- An exact value and the flags so far, rounded to FP32. -/
def finish32 (mode : RMode) (r : FVal × FFlags) : Nat × FFlags :=
  let q := fencode fmtFP32 mode r.1
  (q.1, q.2 ||| r.2)

def fp32 (b : Nat) : FVal := fdecode fmtFP32 b

def fadd32 (mode : RMode) (a b : Nat) : Nat × FFlags := finish32 mode (fsum mode (fp32 a) (fp32 b))
def fsub32 (mode : RMode) (a b : Nat) : Nat × FFlags := finish32 mode (fsum mode (fp32 a) (fp32 b).neg)
def fmul32 (mode : RMode) (a b : Nat) : Nat × FFlags := finish32 mode (fprod (fp32 a) (fp32 b))
def fdiv32 (mode : RMode) (a b : Nat) : Nat × FFlags := finish32 mode (fquot (fp32 a) (fp32 b))
def fsqrt32 (mode : RMode) (a : Nat) : Nat × FFlags := finish32 mode (fsqrt (fp32 a))
/-- ±(a × b) ± c with one rounding (R130); 0 × infinity raises NV whatever c is. -/
def fma32 (negP negC : Bool) (mode : RMode) (a b c : Nat) : Nat × FFlags :=
  let p := fprod (fp32 a) (fp32 b)
  let pv := if negP then p.1.neg else p.1
  let cv := if negC then (fp32 c).neg else fp32 c
  let r := fsum mode pv cv
  finish32 mode (r.1, r.2 ||| p.2)

/-- minimumNumber and maximumNumber (R129): −0 is below +0. -/
def fminmax32 (isMax : Bool) (a b : Nat) : Nat × FFlags :=
  let va := fp32 a
  let vb := fp32 b
  let nv := flagIf (va.isSnan || vb.isSnan) flagNV
  if va.isNan && vb.isNan then (fmtFP32.nanBits, nv)
  else if va.isNan then (b, nv)
  else if vb.isNan then (a, nv)
  else
    let aLess := fless va vb || (fequal va vb && va.isNeg && !vb.isNeg)
    (if aLess != isMax then a else b, nv)

/-- FP32 arithmetic of the matrix unit, the engines and the reduction homes: RNE, no flags (R89). -/
def radd (a b : Nat) : Nat := (fadd32 RNE a b).1
def rmul (a b : Nat) : Nat := (fmul32 RNE a b).1
def rfma (acc a b : Nat) : Nat := (fma32 false false RNE a b acc).1

/-! ### Conversions (R91) -/

def intVal (v : Int) : FVal := .fin (v < 0) v.natAbs 0

/-- A value rounded to an integer of a range (R91). -/
def toIntRange (mode : RMode) (lo hi : Int) : FVal → Int × FFlags
  | .nan _ => (0, flagNV)
  | .inf neg => (if neg then lo else hi, flagNV)
  | .fin neg m e =>
    let r := roundAt mode neg m e 0
    let v : Int := if neg then -(r.1 : Int) else r.1
    if v < lo then (lo, flagNV) else if v > hi then (hi, flagNV) else (v, flagIf r.2 flagNX)

def saturate (lo hi v : Int) : Int := if v < lo then lo else if v > hi then hi else v

/-- The low w bits of an integer. -/
def toBits (w : Nat) (v : Int) : Nat := (BitVec.ofInt w v).toNat
def sintOf (w b : Nat) : Int := (BitVec.ofNat w b).toInt

/-! ### DX elements (R81, R82, R92 to R94) -/

/-- E_hi and E_lo of a descriptor, or none for a NaN block (R84). -/
def dxExps (d : Desc) : Option (Int × Int) :=
  let scale := d.toNat / 256
  if scale = 255 then none
  else
    let hi : Int := scale - 127
    some (hi, hi - (d.toNat % 16 : Nat) - 1)

/-- The magnitude of a DX code in units of 2^(E − 9) for DX8, of 2^(E − 2) for DX4. -/
def dxMag (dx8 : Bool) (c : Nat) : Nat :=
  if dx8 then (if c / 8 = 0 then c % 8 else (8 + c % 8) * 2 ^ (c / 8 - 1))
  else (if c = 0 then 0 else 2 ^ (c - 1))
def dxUnit (dx8 : Bool) : Int := if dx8 then 9 else 2
def dxCodes (dx8 : Bool) : Nat := if dx8 then 63 else 3
/-- The bits of a DX code above the magnitude: selector and sign. -/
def dxSign (dx8 : Bool) : Nat := if dx8 then 64 else 4
def dxSel (dx8 : Bool) : Nat := if dx8 then 128 else 8

/-- The value of a DX element (R81, R82), NaN in a NaN block. -/
def dxValue (dx8 : Bool) (d : Desc) (code : Nat) : FVal :=
  match dxExps d with
  | none => .nan false
  | some (hi, lo) =>
    let e := if code / dxSel dx8 % 2 = 1 then lo else hi
    .fin (code / dxSign dx8 % 2 = 1) (dxMag dx8 (code % dxSign dx8)) (e - dxUnit dx8)

/-- Whether m·2^e ≥ k·2^u. -/
def magGe (m : Nat) (e : Int) (k : Nat) (u : Int) : Bool :=
  let lo := min e u
  m * 2 ^ (e - lo).toNat ≥ k * 2 ^ (u - lo).toNat

/-- The greatest code, at most n, whose magnitude does not exceed m·2^e. -/
def dxFloor (dx8 : Bool) (m : Nat) (e u : Int) : Nat → Nat
  | 0 => 0
  | n + 1 => if magGe m e (dxMag dx8 (n + 1)) u then n + 1 else dxFloor dx8 m e u n

/-- RoundDX (R93): the code of a magnitude, and whether it was saturated. -/
def roundDX (dx8 : Bool) (mode : RMode) (neg : Bool) (m : Nat) (e E : Int) : Nat × Bool :=
  let u := E - dxUnit dx8
  let top := dxCodes dx8
  let c := dxFloor dx8 m e u top
  let lo := min e u
  let x := m * 2 ^ (e - lo).toNat
  let a := dxMag dx8 c * 2 ^ (u - lo).toNat
  if x = a then (c, false)
  else if c = top then (top, true)
  else
    let b := dxMag dx8 (c + 1) * 2 ^ (u - lo).toNat
    let up := match mode with
      | 0 => 2 * x > a + b || (2 * x = a + b && c % 2 = 1)
      | 1 => false
      | 2 => neg
      | 3 => !neg
      | _ => 2 * x ≥ a + b
    (if up then c + 1 else c, false)

/-- |value of a code − x| at a common exponent. -/
def dxError (dx8 : Bool) (c : Nat) (u : Int) (m : Nat) (e lo : Int) : Nat :=
  ((dxMag dx8 c * 2 ^ (u - lo).toNat : Nat) - (m * 2 ^ (e - lo).toNat : Nat) : Int).natAbs

/-- The element of R93 with its flags: code with selector and sign. -/
def dxEncode (dx8 : Bool) (mode : RMode) (hi : Int) (gap : Nat) (neg : Bool) (m : Nat) (e : Int) : Nat × FFlags :=
  let el := hi - gap - 1
  let c0 := roundDX dx8 mode neg m e hi
  let c1 := roundDX dx8 mode neg m e el
  let u0 := hi - dxUnit dx8
  let u1 := el - dxUnit dx8
  let lo := min e u1
  let e0 := dxError dx8 c0.1 u0 m e lo
  let e1 := dxError dx8 c1.1 u1 m e lo
  let r := if e1 < e0 then (c1.1 + dxSel dx8, c1.2, e1) else (c0.1, c0.2, e0)
  (r.1 + (if neg then dxSign dx8 else 0), flagIf (r.2.2 != 0) flagNX ||| flagIf r.2.1 flagOF)

/-- R92: E_hi for a block from its inputs (finite magnitudes). -/
def dxScale (dx8 : Bool) (xs : List FVal) : Int :=
  let big := xs.foldl (fun (acc : Nat × Int) x => match x with
    | .fin _ m e => if m != 0 && (acc.1 = 0 || magGe m e acc.1 acc.2) then (m, e) else acc
    | _ => acc) (0, 0)
  let f : Int :=
    if big.1 = 0 then -127
    else
      let t := big.2 + big.1.log2
      if !dx8 && magGe big.1 big.2 3 (t - 1) then t + 1 else t
  min (max f (-127)) 127

/-- A block's codes and descriptor by R92 to R94, in RNE: FMT, the GAP given, and the inputs. -/
def dxBlock (dx8 : Bool) (gap : Nat) (xs : List FVal) : List Nat × Desc :=
  let fmt := if dx8 then 4 else 5
  if xs.any (fun x => match x with | .fin _ _ _ => false | _ => true) then
    (xs.map (fun _ => 0), BitVec.ofNat 16 (255 * 256 + fmt * 16 + gap))
  else
    let hi := dxScale dx8 xs
    (xs.map (fun x => match x with
      | .fin neg m e => (dxEncode dx8 RNE hi gap neg m e).1
      | _ => 0), BitVec.ofNat 16 ((hi + 127).toNat * 256 + fmt * 16 + gap))

/-! ### Block elements (R77) -/

/-- Bits per element of a format code (R77). -/
def fmtBits : Nat → Nat
  | 1 => 32
  | 2 => 16
  | 3 => 16
  | 4 => 8
  | 5 => 4
  | 6 => 8
  | 7 => 1
  | _ => 512

/-- Element i of a block: its bits. -/
def element (b : Vec) (fmt i : Nat) : Nat := b.toNat / 2 ^ (fmtBits fmt * i) % 2 ^ fmtBits fmt

/-- The value of an element of a format under a descriptor (R78 to R84). -/
def elementValue (fmt : Nat) (d : Desc) (bits : Nat) : FVal :=
  match fmt with
  | 1 => fdecode fmtFP32 bits
  | 2 => fdecode fmtBF16 bits
  | 3 => fdecode fmtFP16 bits
  | 4 => dxValue true d bits
  | 5 => dxValue false d bits
  | 6 => intVal (sintOf 8 bits)
  | _ => .fin false bits 0

/-- Elements packed into a block, element 0 lowest. -/
def packElems (bits : Nat) : List Nat → Nat
  | [] => 0
  | x :: r => x % 2 ^ bits + 2 ^ bits * packElems bits r

/-! ### XF accumulators (R97 to R99, R391) -/

/-- An XF element: MANT and EXP. -/
structure XF where
  m : Int
  e : Int
  deriving DecidableEq, Repr

def xfNaN : XF := ⟨-(2 ^ 47), 32767⟩
def XF.isNaN (a : XF) : Bool := a.m == -(2 ^ 47)
def xfDecode (b : Nat) : XF := ⟨sintOf 48 b, sintOf 16 (b / 2 ^ 48)⟩
def xfEncode (a : XF) : Nat := toBits 48 a.m + 2 ^ 48 * toBits 16 a.e

/-- Norm of R98; 47 doublings fill the mantissa. -/
def xfNorm (a : XF) : Nat → XF
  | 0 => a
  | n + 1 =>
    if a.m != 0 && decide (a.m.natAbs < 2 ^ 46) && decide (a.e > -32768) then xfNorm ⟨a.m * 2, a.e - 1⟩ n else a

/-- RoundRNE of m / 2^n. -/
def shiftRNE (m : Int) (n : Nat) : Int :=
  let r := (roundAt RNE false m.natAbs 0 n).1
  if m < 0 then -(r : Int) else r

/-- XFAdd (R98). -/
def xfAdd (a b : XF) : XF :=
  if a.isNaN || b.isNaN then xfNaN
  else if a.m = 0 then xfNorm b 48
  else if b.m = 0 then xfNorm a 48
  else
    let a := xfNorm a 48
    let b := xfNorm b 48
    let e := max a.e b.e
    let s := shiftRNE a.m (e - a.e).toNat + shiftRNE b.m (e - b.e).toNat
    let r : XF := if s.natAbs > 2 ^ 47 - 1 then ⟨shiftRNE s 1, e + 1⟩ else ⟨s, e⟩
    if r.m = 0 then ⟨0, 0⟩
    else if r.e > 32767 then ⟨if r.m < 0 then -(2 ^ 47 - 1) else 2 ^ 47 - 1, 32767⟩
    else xfNorm r 48

/-- The narrowing loop of ToXF, one bit at a time (R391). -/
def xfNarrow (m : Int) (k : Int) : Nat → Int × Int
  | 0 => (m, k)
  | n + 1 => if m.natAbs > 2 ^ 47 - 1 then xfNarrow (shiftRNE m 1) (k + 1) n else (m, k)
/-- The floor loop of ToXF: halving until the exponent floor, or until nothing is left. -/
def xfFloor (m : Int) (k : Int) : Nat → Int × Int
  | 0 => if k < -32768 then (0, k) else (m, k)
  | n + 1 => if k < -32768 && m != 0 then xfFloor (shiftRNE m 1) (k + 1) n else (m, k)

/-- ToXF (R391). -/
def toXF (m k : Int) : XF :=
  let a := xfNarrow m k (m.natAbs.log2 + 2)
  let b := xfFloor a.1 a.2 (a.1.natAbs.log2 + 3)
  if b.1 = 0 then ⟨0, 0⟩
  else if b.2 > 32767 then ⟨if b.1 < 0 then -(2 ^ 47 - 1) else 2 ^ 47 - 1, 32767⟩
  else ⟨b.1, b.2⟩

/-- A value made an XF element; an infinity or a NaN is the XF NaN (R391). -/
def xfOfVal : FVal → XF
  | .fin neg m e => toXF (if neg then -(m : Int) else m) e
  | _ => xfNaN

/-- The exact value of an XF element (R99). -/
def xfVal (a : XF) : FVal := if a.isNaN then .nan false else .fin (a.m < 0) a.m.natAbs a.e

/-- R102: one arrival of a reduction payload added into a 64-byte cell. -/
def reduceCell (cell w0 w1 : Vec) : Vec :=
  let e := sintOf 16 (w1.toNat % 2 ^ 16)
  BitVec.ofNat 512 (packElems 64 ((List.range 8).map fun j =>
    xfEncode (xfAdd (xfDecode (cell.toNat / 2 ^ (64 * j) % 2 ^ 64))
      (toXF (sintOf 64 (w0.toNat / 2 ^ (64 * j) % 2 ^ 64)) e))))

end Sys2Proof.Machine
end

