-- ==== Sys2Proof/Config.lean ====
section
/-! DEFINITION. What the specification leaves open as a VALUE: opaque constants, which no proof can evaluate.
Everything else of the module's configuration is a figure the specification states (00 R1) and stands where it is used. -/
namespace Sys2Proof.Config

/-- FREE VALUE (log 4). What a register that R28 leaves undefined holds at handler entry: a fresh value for each
number. -/
opaque undefReg : Nat → Vec

/-- FREE VALUE (log 6). SHA-512 (R350, R353, R354): the digest of a byte string. The function is named and not
spelled out by the specification. -/
opaque sha512 : List (BitVec 8) → BitVec 512

/-- FREE VALUE (log 6). Ed25519 verification (R350): public key, message, signature. -/
opaque ed25519Verify : BitVec 256 → List (BitVec 8) → BitVec 512 → Bool

/-- FREE VALUE (log 6). The Ed25519 public key of a 32-byte seed (R353). -/
opaque ed25519Public : BitVec 256 → BitVec 256

/-- FREE VALUE (log 6). The Ed25519 signature of a message under a 32-byte seed (R355). -/
opaque ed25519Sign : BitVec 256 → List (BitVec 8) → BitVec 512

/-- FREE VALUE (log 7). How many steps of 25 MHz above 250 MHz the firmware sets the arithmetic clock in P1 to hold the
measured power at the cap (R356, R358): a fresh value for each number. -/
opaque p1Steps : Nat → Nat

/-- FREE VALUE (log 7). The cap in watts that holds the sensors below 95 degrees with a poor coolant (R360): a fresh value for
each number. -/
opaque coolantCap : Nat → Nat

/-- FREE VALUE (log 66). Which entry a fill replaces in a full translation cache (R267): a fresh value for each number. -/
opaque replaced : Nat → Nat

end Sys2Proof.Config
end

