-- ==== Sys2Proof/Machine/Cipher.lean ====
section
/-! DEFINITION. AES-256 and its XTS mode, with which the channel agents encrypt DRAM (11 R273). The specification names the cipher;
its steps are those of FIPS 197 and IEEE 1619 (PRESUMED, log 5). Bytes are numbers below 256; a block of the cipher is a list of
sixteen, the byte at the lowest address first. -/
namespace Sys2Proof.Machine.Aes

/-! ### Bytes -/

/-- n bytes of a number, least significant first. -/
def bytesOf (v : Nat) : Nat → List Nat
  | 0 => []
  | n + 1 => v % 256 :: bytesOf (v / 256) n
def ofBytes (l : List Nat) : Nat := l.foldr (fun b acc => b + 256 * acc) 0
def xorBytes (a b : List Nat) : List Nat := a.zipWith (· ^^^ ·) b

/-! ### The substitutions: sixteen rows of sixteen bytes, the first of a row in its lowest byte -/

def substitutes : List Nat :=
  [0x76ABD7FE2B670130C56F6BF27B777C63, 0xC072A49CAFA2D4ADF04759FA7DC982CA, 0x1531D871F1E5A534CCF73F362693FDB7,
   0x75B227EBE28012079A059618C323C704, 0x842FE329B3D63B52A05A6E1B1A2C8309, 0xCF584C4A39BECB6A5BB1FC20ED00D153,
   0xA89F3C507F02F94585334D43FBAAEFD0, 0xD2F3FF1021DAB6BCF5389D928F40A351, 0x73195D643D7EA7C41744975FEC130CCD,
   0xDB0B5EDE14B8EE4688902A22DC4F8160, 0x79E4959162ACD3C25C2406490A3A32E0, 0x08AE7A65EAF4566CA94ED58D6D37C8E7,
   0x8A8BBD4B1F74DDE8C6B4A61C2E2578BA, 0x9E1DC186B95735610EF6034866B53E70, 0xDF2855CEE9871E9B948ED9691198F8E1,
   0x16BB54B00F2D99416842E6BF0D89A18C]

def unsubstitutes : List Nat :=
  [0xFBD7F3819EA340BF38A53630D56A0952, 0xCBE9DEC444438E3487FF2F9B8239E37C, 0x4EC3FA420B954CEE3D23C2A632947B54,
   0x25D18B6D49A25B76B224D92866A12E08, 0x92B6655DCC5CA4D41698688664F6F872, 0x849D8DA75746155EDAB9EDFD5048706C,
   0x0645B3B80558E4F70AD3BC8C00ABD890, 0x6B8A130103BDAFC1020F3FCA8F1E2CD0, 0x73E6B4F0CECFF297EADC674F4111913A,
   0x6EDF751CE837F9E28535ADE72274AC96, 0x1BBE18AA0E62B76F89C5291D711AF147, 0xF45ACD78FEC0DB9A2079D2C64B3E56FC,
   0x5FEC8027591012B131C7078833A8DD1F, 0xEF9CC9939F7AE52D0D4AB519A97F5160, 0x619953833CBBEBC8B0F52AAE4D3BE0A0,
   0x7D0C2155631469E126D677BA7E042B17]

def lookUp (table : List Nat) (x : Nat) : Nat := table.getD (x / 16) 0 / 256 ^ (x % 16) % 256
def sub (x : Nat) : Nat := lookUp substitutes x
def unsub (x : Nat) : Nat := lookUp unsubstitutes x

/-! ### The field of 256 elements -/

def double (x : Nat) : Nat := if x < 128 then 2 * x else 2 * x ^^^ 0x11B
/-- A product, by the n low bits of the second factor. -/
def mulBits (x y : Nat) : Nat → Nat
  | 0 => 0
  | n + 1 => (if y % 2 = 1 then x else 0) ^^^ mulBits (double x) (y / 2) n
def mul (x y : Nat) : Nat := mulBits x y 4

/-! ### Rounds: byte r + 4·c stands in row r and column c -/

def shiftRows (s : List Nat) : List Nat := (List.range 16).map fun n => s.getD (n % 4 + 4 * ((n / 4 + n % 4) % 4)) 0
def unshiftRows (s : List Nat) : List Nat := (List.range 16).map fun n => s.getD (n % 4 + 4 * ((n / 4 + 4 - n % 4) % 4)) 0
/-- Each column times the circulant matrix with a first row. -/
def mixWith (m0 m1 m2 m3 : Nat) (s : List Nat) : List Nat :=
  (List.range 16).map fun n =>
    let at_ (k : Nat) : Nat := s.getD (n / 4 * 4 + (n % 4 + k) % 4) 0
    mul (at_ 0) m0 ^^^ mul (at_ 1) m1 ^^^ mul (at_ 2) m2 ^^^ mul (at_ 3) m3
def mix : List Nat → List Nat := mixWith 2 3 1 1
def unmix : List Nat → List Nat := mixWith 14 11 13 9

/-! ### The key schedule: sixty words of four bytes, the newest first while it grows -/

def roundConstant : Nat → Nat
  | 0 => 1
  | n + 1 => double (roundConstant n)
/-- Word i from the word before it and the word eight before it. -/
def nextWord (i : Nat) (last eighth : List Nat) : List Nat :=
  let t := if i % 8 = 0 then xorBytes ((last.drop 1 ++ last.take 1).map sub) [roundConstant (i / 8 - 1), 0, 0, 0]
           else if i % 8 = 4 then last.map sub else last
  xorBytes eighth t
def growKey : Nat → List (List Nat) → List (List Nat)
  | 0, ws => ws
  | n + 1, ws => growKey n (nextWord ws.length (ws.getD 0 []) (ws.getD 7 []) :: ws)
/-- The fifteen round keys of a 256-bit key of 32 bytes. -/
def roundKeys (key : List Nat) : List (List Nat) :=
  let first := (List.range 8).map fun n => (key.drop (4 * n)).take 4
  let ws := (growKey 52 first.reverse).reverse
  (List.range 15).map fun r => ((ws.drop (4 * r)).take 4).flatten

/-! ### One block -/

def encryptRounds (keys : List (List Nat)) (s : List Nat) : List Nat :=
  match keys with
  | [] => s
  | [k] => xorBytes (shiftRows (s.map sub)) k
  | k :: r => encryptRounds r (xorBytes (mix (shiftRows (s.map sub))) k)
def encryptBlock (keys : List (List Nat)) (s : List Nat) : List Nat :=
  encryptRounds (keys.drop 1) (xorBytes s (keys.getD 0 []))

/-- The rounds of an encryption undone, the last first. -/
def decryptRounds (keys : List (List Nat)) (s : List Nat) : List Nat :=
  match keys with
  | [] => s
  | [k] => xorBytes s k
  | k :: r => decryptRounds r ((unshiftRows (unmix (xorBytes s k))).map unsub)
def decryptBlock (keys : List (List Nat)) (s : List Nat) : List Nat :=
  match keys.reverse with
  | [] => s
  | k :: r => decryptRounds r ((unshiftRows (xorBytes s k)).map unsub)

/-! ### XTS: a data unit of four blocks -/

/-- The tweak of the next block: times x in the field of 2^128 elements. -/
def nextTweak (t : Nat) : Nat := if t < 2 ^ 127 then 2 * t else (2 * t) % 2 ^ 128 ^^^ 0x87
def tweaks (t : Nat) : Nat → List Nat
  | 0 => []
  | n + 1 => t :: tweaks (nextTweak t) n

/-- A data unit of 64 bytes through a key: f works on each block between two additions of its tweak. The low 256 bits of the key are
for the data, the high ones for the tweak. -/
def xts (f : List (List Nat) → List Nat → List Nat) (key : BitVec 512) (unit : Nat) (data : Vec) : Vec :=
  let dataKeys := roundKeys (bytesOf (key.toNat % 2 ^ 256) 32)
  let tweakKeys := roundKeys (bytesOf (key.toNat / 2 ^ 256) 32)
  let ts := tweaks (ofBytes (encryptBlock tweakKeys (bytesOf unit 16))) 4
  BitVec.ofNat 512 (ofBytes ((ts.zip (List.range 4)).flatMap fun p =>
    let t := bytesOf p.1 16
    xorBytes (f dataKeys (xorBytes (bytesOf (data.toNat / 2 ^ (128 * p.2)) 16) t)) t))

def xtsEncrypt : BitVec 512 → Nat → Vec → Vec := xts encryptBlock
def xtsDecrypt : BitVec 512 → Nat → Vec → Vec := xts decryptBlock

end Sys2Proof.Machine.Aes
end

