-- ==== Sys2Proof/Machine/Memory.lean ====
section
/-! DEFINITION. Memory, descriptors, keys, the address map, homes, reaches, and translation (10 R238, R239, R249;
11 R255 to R274). -/
namespace Sys2Proof.Machine

/-! ### Keyed lists -/

/-- The entry of a keyed list. -/
def findBy {α : Type} (key : α → Nat) (k : Nat) (l : List α) : Option α := l.find? (fun x => key x == k)

/-- The list with an entry put in, by rising key. -/
def putBy {α : Type} (key : α → Nat) (x : α) : List α → List α
  | [] => [x]
  | y :: r =>
    if key x < key y then x :: y :: r
    else if key x = key y then x :: r
    else y :: putBy key x r

/-- The list without the entry of a key. -/
def dropBy {α : Type} (key : α → Nat) (k : Nat) (l : List α) : List α := l.filter (fun x => key x != k)

/-! ### Bytes (R6, R249) -/

/-- The byte at an address: what is listed, or 0 (log 3; R351 for SRAM). -/
def memByte : List Host.Cell → Nat → Byte
  | [], _ => 0
  | (b, v) :: r, a => if a = b then v else if a < b then 0 else memByte r a

/-- Memory with one byte written, in canonical form. -/
def memSet : List Host.Cell → Nat → Byte → List Host.Cell
  | [], a, v => if v = 0 then [] else [(a, v)]
  | (b, w) :: r, a, v =>
    if a < b then (if v = 0 then (b, w) :: r else (a, v) :: (b, w) :: r)
    else if a = b then (if v = 0 then r else (a, v) :: r)
    else (b, w) :: memSet r a v

/-- Canonical form from an address upward: addresses strictly rising, no entry 0. -/
def Memory.wfFrom : Nat → List Host.Cell → Bool
  | _, [] => true
  | lo, (a, v) :: r => decide (lo ≤ a) && (v != 0) && Memory.wfFrom (a + 1) r

/-- The canonical form of memory. -/
def Memory.wf (m : List Host.Cell) : Bool := Memory.wfFrom 0 m

/-- n bytes from an address, the first least significant. -/
def memRead (m : List Host.Cell) (a : Nat) : Nat → Nat
  | 0 => 0
  | n + 1 => (memByte m a).toNat + 256 * memRead m (a + 1) n

/-- n bytes written from an address; bit i of mask enables byte i. -/
def memWrite (m : List Host.Cell) (a v mask : Nat) : Nat → List Host.Cell
  | 0 => m
  | n + 1 =>
    memWrite (if mask % 2 = 1 then memSet m a (BitVec.ofNat 8 v) else m) (a + 1) (v / 256) (mask / 2) n

/-- n bytes as a list. -/
def memBytes (m : List Host.Cell) (a n : Nat) : List Byte := (List.range n).map (fun i => memByte m (a + i))

/-- A list of bytes written from an address. -/
def memPut (m : List Host.Cell) (a : Nat) : List Byte → List Host.Cell
  | [] => m
  | b :: r => memPut (memSet m a b) (a + 1) r

/-! ### The address map (R255 to R258) -/

def paModule (pa : Nat) : Nat := pa / 2 ^ 48
def paLocal (pa : Nat) : Nat := pa % 2 ^ 48
def isSram (pa : Nat) : Bool := paLocal pa < 0x80000000
def isGddr (pa : Nat) : Bool := 0x001000000000 ≤ paLocal pa && paLocal pa ≤ 0x002FFFFFFFFF
def isLpddr (pa : Nat) : Bool := 0x010000000000 ≤ paLocal pa && paLocal pa ≤ 0x01FFFFFFFFFF
def isDram (pa : Nat) : Bool := isGddr pa || isLpddr pa

/-- The node of a core (R310 kind 0). -/
def coreNode (core : Nat) : Nat := core / 4096 * 2 ^ 14 + core % 4096
/-- The core of a core node. -/
def nodeCore (node : Nat) : Nat := node / 2 ^ 14 * 4096 + node % 4096
/-- The kind of a node: 0 core, 1 DRAM agent, 2 die service node, 3 application-die node (R310). -/
def nodeKind (node : Nat) : Nat := node / 4096 % 4
def nodeModule (node : Nat) : Nat := node / 2 ^ 14 % 4096
/-- The egress agent of a module. -/
def egressNode (m : Nat) : Nat := m * 2 ^ 14 + 3 * 4096 + 1
/-- The die task queue and a cluster task queue of a module (R310 units 1 and 2). -/
def dieQueueNode (m die : Nat) : Nat := m * 2 ^ 14 + 2 * 4096 + die * 1024 + 1
def clusterQueueNode (m cl : Nat) : Nat := m * 2 ^ 14 + 2 * 4096 + cl * 32 + 2

/-- The home of a physical address (R238, R257, R258). -/
def homeOf (pa : Nat) : Nat :=
  let l := paLocal pa
  let b := paModule pa * 2 ^ 14
  if isSram pa then b + l / 0x80000
  else if isGddr pa then b + 4096 + (l - 0x001000000000) / 4096 % 32
  else b + 4096 + 32 + (l - 0x010000000000) / 4096 % 16

/-- The compute die of a home: the core's die, or the die whose controllers serve the agent (R258); none for others. -/
def nodeDie (node : Nat) : Option Nat :=
  let i := node % 4096
  match nodeKind node with
  | 0 => some (i / 1024)
  | 1 => some (if i < 32 then i / 8 else (i - 32) / 4)
  | 2 => some (i / 1024)
  | _ => none

/-- R239: whether a home lies in the reach of a scope for a thread on a core. -/
def inReach (core : Nat) (sc : Scope) (home : Nat) : Bool :=
  let own := coreNode core
  let same := nodeModule home == nodeModule own
  match sc with
  | .thread => false
  | .core => home == own
  | .cluster => same && nodeKind home == 0 && home / 32 == own / 32
  | .die => same && (nodeKind home == 0 || nodeKind home == 1) && nodeDie home == nodeDie own
  | .module => same
  | .domain => true

/-- The sequencer of a scope for the activation act that runs on a core (R239). -/
def seqrOf (core act : Nat) (sc : Scope) : Seqr :=
  match sc with
  | .thread => ⟨.thread, act⟩
  | .core => ⟨.core, core⟩
  | .cluster => ⟨.cluster, core / 32⟩
  | .die => ⟨.die, core / 1024⟩
  | .module => ⟨.module, core / 4096⟩
  | .domain => ⟨.domain, 0⟩

/-! ### Blocks, descriptors and keys -/

/-- The descriptor of the block that holds an address (R83). -/
def descOf (s : State) (pa : Nat) : Desc :=
  match findBy (·.1) (pa / 64) s.descs with
  | some p => p.2
  | none => 0

/-- State with the descriptor of a block written; a descriptor of 0 is not listed. -/
def setDesc (s : State) (pa : Nat) (d : Desc) : State :=
  { s with descs := if d = 0 then dropBy (·.1) (pa / 64) s.descs else putBy (·.1) (pa / 64, d) s.descs }

/-- The key in a key slot; every slot is zero after boot (R351, R272). -/
def keyValue (s : State) (slot : Nat) : BitVec 512 :=
  match findBy (·.1) slot s.keys with
  | some p => p.2
  | none => 0

/-- The key that a DRAM block was written with. -/
def blockKeyOf (s : State) (pa : Nat) : BitVec 512 :=
  match findBy (·.1) (pa / 64) s.blockKey with
  | some p => p.2
  | none => 0

/-- What a block written under one key reads as through another: AES-256-XTS, with the block's number for the tweak (R273, R274). -/
def recrypt (written reading : BitVec 512) (block : Nat) (plain : Vec) : Vec :=
  Aes.xtsDecrypt reading block (Aes.xtsEncrypt written block plain)

/-- R273, R274: the 64 bytes of a block as a read through a key slot gives them. -/
def blockThrough (s : State) (pa key : Nat) : Vec :=
  let plain := BitVec.ofNat 512 (memRead s.mem (pa / 64 * 64) 64)
  if isDram pa && blockKeyOf s pa != keyValue s key then recrypt (blockKeyOf s pa) (keyValue s key) (pa / 64) plain
  else plain

/-- n bytes within a block, read through a key slot. -/
def readThrough (s : State) (pa n key : Nat) : Vec :=
  if isDram pa && blockKeyOf s pa != keyValue s key then
    BitVec.ofNat 512 ((blockThrough s pa key).toNat / 256 ^ (pa % 64) % 256 ^ n)
  else BitVec.ofNat 512 (memRead s.mem pa n)

/-- A masked write of up to 64 bytes within a block, through a key slot. A DRAM block is written whole under the new key
(R273, R274). -/
def writeThrough (s : State) (pa key : Nat) (value : Vec) (mask : BitVec 64) : State :=
  if isDram pa && blockKeyOf s pa != keyValue s key then
    let old := blockThrough s pa key
    let m := memWrite s.mem (pa / 64 * 64) old.toNat (2 ^ 64 - 1) 64
    { s with mem := memWrite m pa value.toNat mask.toNat 64,
             blockKey := if keyValue s key = 0 then dropBy (·.1) (pa / 64) s.blockKey
                         else putBy (·.1) (pa / 64, keyValue s key) s.blockKey }
  else { s with mem := memWrite s.mem pa value.toNat mask.toNat 64 }

/-- A byte mask of n bytes. -/
def byteMask (n : Nat) : BitVec 64 := BitVec.ofNat 64 (2 ^ n - 1)

/-! ### Performing an access at its home (R249) -/

/-- The new value of an atomic (R153). Values are n bytes. -/
def rmwValue (op : RmwOp) (n : Nat) (old s : Nat) : Nat :=
  let w := 8 * n
  let o := BitVec.ofNat w old
  let t := BitVec.ofNat w s
  match op with
  | .add => (o + t).toNat
  | .and => (o &&& t).toNat
  | .or => (o ||| t).toNat
  | .xor => (o ^^^ t).toNat
  | .min => (if o.slt t then o else t).toNat
  | .max => (if o.slt t then t else o).toNat
  | .minu => (if o.ult t then o else t).toNat
  | .maxu => (if o.ult t then t else o).toNat
  | .swap => t.toNat

def okRes (v : Vec) : MemRes := ⟨v, 0, 0, false⟩

/-- R197: the STATE, LEVEL, NSUCC, COUNT and SUCC of a task control block image. -/
def tcbState (b : Vec) : Nat := b.toNat / 2 ^ 40 % 256
def tcbLevel (b : Vec) : Nat := b.toNat / 2 ^ 32 % 256
def tcbCount (b : Vec) : Nat := b.toNat % 2 ^ 32
def tcbNsucc (b : Vec) : Nat := b.toNat / 2 ^ 48 % 2 ^ 16
def tcbSucc (b : Vec) : Nat := b.toNat / 2 ^ 64 % 2 ^ 64

/-- A task control block image with other fields [47:40] and [31:0]. -/
def tcbSet (b : Vec) (state count : Nat) : Vec :=
  (b &&& ~~~(BitVec.ofNat 512 (0xFF * 2 ^ 40 + 0xFFFFFFFF))) ||| BitVec.ofNat 512 (state * 2 ^ 40 + count)

def isPoisoned (s : State) (pa : Nat) : Bool := s.poisoned.contains (pa / 64)

/-- A whole-block write clears the poison (R342). -/
def clearPoison (s : State) (pa : Nat) : State := { s with poisoned := s.poisoned.filter (· != pa / 64) }

/-- A perform at the home of an address, through a key slot: the new state and the answer. -/
def performMem (s : State) (op : MemOp) (key : Nat) : State × MemRes :=
  match op with
  | .read pa n => (s, ⟨readThrough s pa n key, 0, 0, isPoisoned s pa⟩)
  | .readBlock pa => (s, ⟨blockThrough s pa key, descOf s pa, 0, isPoisoned s pa⟩)
  | .readDesc pa => (s, ⟨(descOf s pa).setWidth 512, descOf s pa, 0, isPoisoned s pa⟩)
  | .write pa v m =>
    let s := writeThrough s pa key v m
    (if m = byteMask 64 then clearPoison s pa else s, okRes 0)
  | .writeBlock pa v d => (setDesc (clearPoison (writeThrough s pa key v (byteMask 64)) pa) pa d, okRes 0)
  | .writePart pa v m d =>
    let s := writeThrough s pa key v m
    (setDesc (if m = byteMask 64 then clearPoison s pa else s) pa d, okRes 0)
  | .writeDesc pa d => (setDesc s pa d, okRes 0)
  | .rmw pa n op b =>
    if isPoisoned s pa then (s, ⟨0, 0, 0, true⟩)
    else
      let old := readThrough s pa n key
      (writeThrough s pa key (BitVec.ofNat 512 (rmwValue op n old.toNat b.toNat)) (byteMask n), okRes old)
  | .cas pa n e b _ =>
    if isPoisoned s pa then (s, ⟨0, 0, 0, true⟩)
    else
      let old := readThrough s pa n key
      if old.toNat = e.toNat % 256 ^ n then
        (writeThrough s pa key (b.setWidth 512) (byteMask n), okRes old)
      else (s, okRes old)
  | .tarm pa self count =>
    if isPoisoned s pa then (s, ⟨0, 0, 0, true⟩)
    else
      let b := blockThrough s pa key
      let n := tcbNsucc b
      if tcbState b = 1 || tcbState b = 2 || 4 ≤ tcbState b || 3 ≤ tcbLevel b || 4096 < n
          || tcbSucc b % 8 != 0 then (s, ⟨b, 0, 1, false⟩)
      else
        let b' := tcbSet b 1 count.toNat
        let b' := (b' &&& ~~~(BitVec.ofNat 512 ((2 ^ 64 - 1) * 2 ^ 128))) ||| (self.setWidth 512 <<< 128)
        (writeThrough s pa key b' (byteMask 64), okRes b')
  | .tarmRelease pa =>
    if isPoisoned s pa then (s, ⟨0, 0, 0, true⟩)
    else
      let b := blockThrough s pa key
      if tcbState b = 1 && tcbCount b = 0 then
        let b' := tcbSet b 2 0
        (writeThrough s pa key b' (byteMask 64), okRes b')
      else (s, ⟨b, 0, 1, false⟩)
  | .tdoneState pa =>
    let b := blockThrough s pa key
    (s, ⟨b, 0, if tcbState b = 2 then 0 else 1, isPoisoned s pa⟩)
  | .tdoneSet pa =>
    if isPoisoned s pa then (s, ⟨0, 0, 0, true⟩)
    else
      let b := blockThrough s pa key
      if tcbState b = 2 then
        let b' := tcbSet b 3 (tcbCount b)
        (writeThrough s pa key b' (byteMask 64), okRes b')
      else (s, ⟨b, 0, 1, false⟩)
  | .decrement pa =>
    if isPoisoned s pa then (s, ⟨0, 0, 0, true⟩)
    else
      let b := blockThrough s pa key
      if tcbState b = 1 && tcbCount b != 0 then
        let c := tcbCount b - 1
        let b' := tcbSet b (if c = 0 then 2 else 1) c
        (writeThrough s pa key b' (byteMask 64), okRes b')
      else (s, ⟨b, 0, 1, false⟩)

/-! ### Page tables and translation (R260 to R268) -/

def getContext (s : State) (asid : Nat) : Option Context := findBy (·.asid) asid s.contexts
def setContext (s : State) (c : Context) : State := { s with contexts := putBy (·.asid) c s.contexts }

/-- R260: bits [63:57] all equal bit 56. -/
def canonicalVa (va : Word) : Bool :=
  let hi := va.toNat / 2 ^ 56
  hi = 0 || hi = 255

/-- What a walk finds: a leaf, a failure of R265, an entry with V = 0, or an entry in a poisoned block, which is never delivered
(R342 names no walker among its readers; DESIGN CHOICE, log 81). -/
inductive WalkResult where
  | leaf (t : Tlb)
  | fail
  | invalid
  | poison (pa : Nat)
  deriving DecidableEq, Repr

/-- R262: a field of a table entry. -/
def pteBits (e lo n : Nat) : Nat := e / 2 ^ lo % 2 ^ n

/-- The checks of R263 to R265 on a leaf, and its translation-cache entry. level is 2, 1 or 0. G64 = 1 in a leaf of level 1 or 2
fails: R262 has the bit at L0 only, and R265 does not list it (DESIGN CHOICE, log 80). -/
def leafEntry (s : State) (c : Context) (va e level : Nat) : WalkResult :=
  let size := if level = 2 then 2 ^ 30 else if level = 1 then 2 ^ 21 else if pteBits e 6 1 = 1 then 2 ^ 16 else 2 ^ 14
  let pa := pteBits e 14 46 * 2 ^ 14
  let r := pteBits e 2 1 = 1
  let w := pteBits e 3 1 = 1
  let x := pteBits e 4 1 = 1
  let ksel := pteBits e 7 3
  let key := (c.keys.getD ksel none)
  if pteBits e 60 4 != 0 || pteBits e 10 4 != 0 || pteBits e 5 1 != 0 then .fail
  else if level != 0 && pteBits e 6 1 = 1 then .fail
  else if pa % size != 0 then .fail
  else if (x && (r || w)) || (w && !r) then .fail
  else if !(s.modules.contains (paModule pa)) then .fail
  else if size = 2 ^ 14 then
    if isSram pa && ksel = 0 && key.isSome then .leaf ⟨c.asid, va / size * size, size, pa, r, w, x, 0⟩ else .fail
  else if !isDram pa then .fail
  else match key with
    | none => .fail
    | some k =>
      if paModule pa != s.module && 128 ≤ k then .fail
      else .leaf ⟨c.asid, va / size * size, size, pa, r, w, x, k⟩

/-- One entry of a table, read as it stands at its home. -/
def tableEntry (s : State) (table index : Nat) : Nat := memRead s.mem (table + 8 * index) 8

/-- The next table of a non-leaf entry, when R265 accepts it. -/
def nextTable (s : State) (e align : Nat) : Option Nat :=
  let t := pteBits e 10 50 * 2 ^ 10
  if pteBits e 60 4 != 0 || pteBits e 2 8 != 0 || t % align != 0 then none
  else if paModule t = s.module && isDram t then some t else none

/-- The walk of levels n to 0 (R260). -/
def walkFrom (s : State) (c : Context) (va : Nat) : Nat → Nat → WalkResult
  | 0, table =>
    let i := va / 2 ^ 14 % 128
    let e := tableEntry s table i
    if isPoisoned s (table + 8 * i) then .poison (table + 8 * i)
    else if e % 2 = 0 then .invalid
    else if pteBits e 1 1 = 0 then .fail
    else if pteBits e 6 1 = 1 then
      let b := i / 4 * 4
      if (List.range 4).all (fun k => tableEntry s table (b + k) == e) then leafEntry s c va e 0 else .fail
    else leafEntry s c va e 0
  | n + 1, table =>
    let i := va / 2 ^ (21 + 9 * n) % 512
    let e := tableEntry s table i
    if isPoisoned s (table + 8 * i) then .poison (table + 8 * i)
    else if e % 2 = 0 then .invalid
    else if pteBits e 1 1 = 1 then
      if n + 1 ≤ 2 then leafEntry s c va e (n + 1) else .fail
    else match nextTable s e (if n = 0 then 1024 else 4096) with
      | none => .fail
      | some t => walkFrom s c va n t

/-- The table where a walk of a context begins, or what its descriptor gives at once (R266). A context that does not exist, its V 0
or never set up, has no entry: the walk ends as at an entry with V = 0, with no page request and no record (the specification does
not say; DESIGN CHOICE, log 79). A ROOT outside the own module's DRAM fails the walk as such a NEXT does (R265 names NEXT alone; DESIGN
CHOICE, log 105). -/
def walkRoot (s : State) (c : Context) (va : Word) : Except WalkResult Nat :=
  if !canonicalVa va then .error .fail
  else if !c.valid then .error .invalid
  else if !(paModule c.root = s.module && isDram c.root && c.root % 4096 = 0) then .error .fail
  else .ok c.root

/-- A whole walk of a context for a canonical address (R266). -/
def walkTables (s : State) (c : Context) (va : Word) : WalkResult :=
  match walkRoot s c va with
  | .error r => r
  | .ok t => walkFrom s c (va.toNat % 2 ^ 57) 4 t

/-- The level and table to which one entry leads, where a walk goes on beyond it (R262). -/
def walkStep (s : State) (va level table : Nat) : Option (Nat × Nat) :=
  match level with
  | 0 => none
  | n + 1 =>
    let i := va / 2 ^ (21 + 9 * n) % 512
    let e := tableEntry s table i
    if !isPoisoned s (table + 8 * i) && e % 2 = 1 && pteBits e 1 1 = 0 then (nextTable s e (if n = 0 then 1024 else 4096)).map fun t => (n, t) else none

/-- What the walk of an ASID and an address gives. -/
def walkAsid (s : State) (asid : Nat) (va : Word) : WalkResult :=
  match getContext s asid with
  | none => .invalid
  | some c => walkTables s c va

def Tlb.covers (t : Tlb) (asid va : Nat) : Bool := t.asid == asid && t.base ≤ va && va < t.base + t.size
def Tlb.allows (t : Tlb) (k : AccessKind) : Bool :=
  match k with
  | .read => t.r
  | .write => t.w
  | .fetch => t.x

def getCluster (s : State) (id : Nat) : Cluster := (findBy (·.id) id s.clusters).getD ⟨id, [], [], []⟩
def setCluster (s : State) (c : Cluster) : State := { s with clusters := putBy (·.id) c s.clusters }

/-- What the translation of an access gives: a physical address and a key slot, a miss (R268), or no access (R147). -/
inductive Trans where
  | ok (pa key : Nat)
  | miss
  | bad
  deriving DecidableEq, Repr

def transOf (t : Tlb) (va : Word) (k : AccessKind) : Trans :=
  if t.allows k then .ok (t.pa + (va.toNat % 2 ^ 57 - t.base)) t.key else .bad

/-- Translation through a cluster's cache (R267, R268). -/
def translate (s : State) (cluster asid : Nat) (va : Word) (k : AccessKind) : Trans :=
  if !canonicalVa va then .bad
  else match (getCluster s cluster).cache.find? (fun t => t.covers asid (va.toNat % 2 ^ 57)) with
    | some t => transOf t va k
    | none => .miss

/-- Translation by the tables at once, for the marionette die. -/
def translateNow (s : State) (asid : Nat) (va : Word) (k : AccessKind) : Option (Nat × Nat) :=
  match walkAsid s asid va with
  | .leaf t => match transOf t va k with | .ok pa key => some (pa, key) | _ => none
  | _ => none

end Sys2Proof.Machine
end

