-- ==== Sys2Proof/Machine/Operands.lean ====
section
/-! DEFINITION. Operands: reading registers, the fixed-latency writes of 01 R19 and R20, the interlock of R21, and the
decision whether an instruction issues, waits or traps (03 R76). -/
namespace Sys2Proof.Machine

def xr (r : BitVec 5) : RegRef := ⟨.x, r.toNat⟩
def vr (r : BitVec 5) : RegRef := ⟨.v, r.toNat⟩
def kr (r : BitVec 3) : RegRef := ⟨.k, r.toNat⟩

/-- The x register n; x0 reads as zero (R12). -/
def Slot.getX (sl : Slot) (n : Nat) : Word :=
  if n = 0 then 0 else if h : n < 32 then sl.x[n] else 0
/-- The v register n (R14). -/
def Slot.getV (sl : Slot) (n : Nat) : Vec := if h : n < 32 then sl.v[n] else 0
/-- The k register n; k0 reads as all ones (R16). -/
def Slot.getK (sl : Slot) (n : Nat) : BitVec 64 :=
  if n = 0 then BitVec.allOnes 64 else if h : n < 8 then sl.k[n] else 0

def Slot.rx (sl : Slot) (r : BitVec 5) : Word := sl.getX r.toNat
def Slot.rv (sl : Slot) (r : BitVec 5) : Vec := sl.getV r.toNat
def Slot.rk (sl : Slot) (r : BitVec 3) : BitVec 64 := sl.getK r.toNat

/-- A register written; writes to x0 and k0 are discarded (R12, R16). -/
def Slot.setReg (sl : Slot) (r : RegRef) (v : Vec) : Slot :=
  match r.file with
  | .x => if h : r.n < 32 then (if r.n = 0 then sl else { sl with x := sl.x.set r.n (v.setWidth 64) }) else sl
  | .v => if h : r.n < 32 then { sl with v := sl.v.set r.n v } else sl
  | .k => if h : r.n < 8 then (if r.n = 0 then sl else { sl with k := sl.k.set r.n (v.setWidth 64) }) else sl

/-- Whether a register is one of the constants x0 and k0. -/
def RegRef.constant (r : RegRef) : Bool := r.n = 0 && (r.file = .x || r.file = .k)

/-- The registers after the pending writes that are visible at a clock have been made in the order they issued (R19). -/
def applyVisible (clock : Nat) (sl : Slot) : List PendFix → Slot
  | [] => sl
  | p :: r => applyVisible clock (if p.vis ≤ clock && !p.dead then sl.setReg p.reg p.value else sl) r

/-- R20: a write still pending is dead once a write that issued after it is visible. -/
def overtake (clock : Nat) : List PendFix → List PendFix
  | [] => []
  | p :: r =>
    if p.vis ≤ clock then overtake clock r
    else { p with dead := p.dead || r.any (fun q => q.reg == p.reg && decide (q.vis ≤ clock)) } :: overtake clock r

/-- The slot as an instruction that issues at its clock finds it (R19, R20, R69). -/
def Slot.settle (sl : Slot) : Slot :=
  settleFlags { applyVisible sl.clock sl sl.pend with pend := overtake sl.clock sl.pend }

/-- The registers that an access writes when it completes. -/
def AccDst.regs : AccDst → List RegRef
  | .x r _ _ => [⟨.x, r⟩]
  | .v r _ _ => [⟨.v, r⟩]
  | .actnew rd => [⟨.x, rd⟩]
  | .create rd _ => [⟨.x, rd⟩]
  | .member rd _ => [⟨.x, rd⟩]
  | _ => []

def MatOp.regs (m : MatOp) : List RegRef :=
  match m.kind with
  | .mrdv vd _ => [⟨.v, vd⟩]
  | _ => []

/-- The registers whose variable-latency write has not completed (R21). -/
def Slot.interlocked (sl : Slot) : List RegRef :=
  sl.locals.flatMap (fun l => l.writes.map (·.1)) ++ sl.accs.flatMap (fun a => a.dst.regs) ++ sl.mats.flatMap MatOp.regs

/-- R392: accesses whose trap is decided at another home before the slot issues its next instruction. -/
def AccDst.holdsIssue : AccDst → Bool
  | .actnew _ => true
  | .create _ _ => true
  | .tdone _ => true
  | .tarm _ => true
  | .member _ _ => true
  | .query _ => true
  | _ => false

/-- The registers that an access claims as it leaves: where its instruction may still trap (R392), those of its result are claimed
with the result (R76). -/
def AccDst.claims (d : AccDst) : List RegRef := if d.holdsIssue then [] else d.regs

/-- What becomes of an instruction at issue: it goes on, waits, or traps with a cause and a tval. -/
inductive Ready where
  | go
  | wait (w : Stall)
  | trap (cause : Nat) (tval : Word)

/-- R19: tval of EARLYREAD. -/
def earlyTval (r : RegRef) : Word :=
  BitVec.ofNat 64 ((match r.file with | .x => 0 | .v => 1 | .k => 2) * 256 + r.n)

/-- R19, R21, R392 for an instruction with these sources and destinations, in a settled slot. Where several sources have writes
pending, the tval of EARLYREAD names the first of the list srcs, which stands in the order of the instruction's operands: the
specification does not say which (R19, R126); DESIGN CHOICE, log 60. -/
def Slot.ready (sl : Slot) (srcs dsts : List RegRef) : Ready :=
  if sl.accs.any (fun a => a.dst.holdsIssue) then .wait .blocked
  else match (srcs ++ dsts).find? (fun r => !r.constant && sl.interlocked.contains r) with
    | some r => .wait (.interlock r)
    | none =>
      match (if sl.chk then srcs.find? (fun r => !r.constant && sl.pend.any (fun p => p.reg == r)) else none) with
      | some r => .trap 2 (earlyTval r)
      | none => .go

/-- A fixed-latency write that issues at the slot's clock (R19). -/
def Slot.writeFix (sl : Slot) (r : RegRef) (v : Vec) (lat : Nat) : Slot :=
  if r.constant then sl else { sl with pend := sl.pend ++ [⟨r, v, sl.clock + lat, false⟩] }

/-- R21: a variable-latency instruction's destinations: pending fixed-latency writes to them are overtaken. -/
def Slot.claim (sl : Slot) (dsts : List RegRef) : Slot :=
  { sl with pend := sl.pend.map (fun p => if dsts.contains p.reg then { p with dead := true } else p) }

/-- A variable-latency result that is complete when its instruction has issued (R21). -/
def Slot.setVar (sl : Slot) (r : RegRef) (v : Vec) : Slot := (sl.claim [r]).setReg r v

/-- A local variable-latency result that completes later (R21). -/
def Slot.writeVar (sl : Slot) (ws : List (RegRef × Vec)) (flags : FFlags) (fp : Bool) : Slot :=
  { sl.claim (ws.map (·.1)) with
    locals := sl.locals ++ [⟨ws.filter (fun w => !w.1.constant), flags, fp⟩] }

/-- All the writes of a result. -/
def Slot.setRegs (sl : Slot) : List (RegRef × Vec) → Slot
  | [] => sl
  | (r, v) :: rest => (sl.setReg r v).setRegs rest

/-- The mask operand: k0 is no register to wait for (R126). -/
def maskSrc (m : BitVec 3) : List RegRef := if m = 0 then [] else [kr m]
/-- The destination as an extra source: exactly when m3 is not 0 (R126). -/
def maskDst (m : BitVec 3) (d : BitVec 5) : List RegRef := if m = 0 then [] else [kr m, vr d]

/-- A scalar value in a 512-bit register value. -/
def ofWord (w : Word) : Vec := w.setWidth 512

end Sys2Proof.Machine
end

