-- ==== Sys2Proof/Machine/Ops.lean ====
section
/-! DEFINITION. The named operations on the machine: cores and slots, time and budget, actors and mailboxes, accumulator
rows, taking a trap (14 R334) and returning from debug execution (05 R121), and the issue of one instruction. -/
namespace Sys2Proof.Machine

abbrev Out := Host.Outcome State Fault Refusal

/-! ### Cores and slots -/

def getCore (s : State) (c : Nat) : Core := (findBy (·.id) c s.cores).getD (Core.reset c)
def setCore (s : State) (k : Core) : State := { s with cores := putBy (·.id) k s.cores }
def getSlot (s : State) (c : Nat) (sl : Fin 4) : Slot := (getCore s c).slots[sl]
def setSlot (s : State) (c : Nat) (sl : Fin 4) (v : Slot) : State :=
  let k := getCore s c
  setCore s { k with slots := k.slots.set sl v }
def modSlot (s : State) (c : Nat) (sl : Fin 4) (f : Slot → Slot) : State := setSlot s c sl (f (getSlot s c sl))
def modCore (s : State) (c : Nat) (f : Core → Core) : State := setCore s (f (getCore s c))

def getDie (s : State) (d : Nat) : Die := (findBy (·.id) d s.dies).getD (Die.reset d)
def setDie (s : State) (d : Die) : State := { s with dies := putBy (·.id) d s.dies }

/-- The cluster and the die of a core, by their numbers in the domain and in the module. -/
def clusterOf (c : Nat) : Nat := c / 32
def dieOf (c : Nat) : Nat := c / 1024 % 4

/-- Whether a core is one of the module. -/
def ownCore (s : State) (c : Nat) : Bool := c / 4096 == s.module

/-- Whether the clocks of the compute dies run (R351, R356, R359). -/
def clocksRun (s : State) : Bool :=
  s.boot.state == .running && (s.power.state == 0 || s.power.state == 1) && !s.power.trip

/-- Whether the management space is there: the marionette die has booted (R351). -/
def managed (s : State) : Bool := s.boot.state == .running
/-- What a write through management space leaves: nothing changes while a trip holds the module (R359; log 48). -/
def unlessTripped (s t : State) : State := if s.power.trip then s else t

/-- Whether a core's cluster is enabled (R341, R312): not one that failed and found no spare. -/
def coreEnabled (s : State) (c : Nat) : Bool := !(getDie s (dieOf c)).off.contains (clusterOf c % 32)

/-! ### Time (R37) -/

/-- R37, R119, R122, R345: whether budget counts in a slot. -/
def countsBudget (sl : Slot) : Bool :=
  match sl.status with
  | .free => false
  | .ecall => false
  | .halted => false
  | .hend => false
  | .hendWalk _ _ _ => false
  | .leaf _ _ => false
  | .leafSwap _ _ _ _ _ _ _ => false
  | _ => !sl.inDebug

/-- The fields of an egress operand (R201). -/
def egQueue (o : Word) : Nat := o.toNat % 64
def egStream (o : Word) : BitVec 24 := o.extractLsb' 8 24
def egSeq (o : Word) : BitVec 32 := o.extractLsb' 32 32

def getEgress (s : State) (q : Nat) : Egress := (findBy (·.q) q s.egress).getD ⟨q, 0, 0, 0, [], [], [], 0⟩
def setEgress (s : State) (e : Egress) : State := { s with egress := putBy (·.q) e s.egress }

/-- Entries of an egress queue: held, and presented and not yet consumed (R202, R330). -/
def egressCount (e : Egress) : Nat := e.held.length + (e.pres - e.chead).toNat
/-- Posts on their way to an egress queue. -/
def postsInFlight (s : State) (q : Nat) : Nat :=
  (s.pairs.map fun p => ((p.out ++ p.store.map (·.pkt)).filter fun x => match x.body with
    | .egr _ _ q' .post _ _ => q' == q
    | _ => false).length).sum
/-- Whether an egress queue has room for no further post (R202); posts on their way count (DESIGN CHOICE, log 86). -/
def egressFull (s : State) (q : Nat) : Bool := decide (4096 ≤ egressCount (getEgress s q) + postsInFlight s q)

/-- Whether a commit has come to a post whose queue is full, and waits (R202). -/
def egressWaits (s : State) (sl : Slot) : Bool :=
  sl.status == .hend && sl.accs.isEmpty && sl.mats.isEmpty && match sl.sends with
    | .egr .post o _ :: _ => egressFull s (egQueue o)
    | _ => false

/-- n arithmetic cycles in one slot: its budget counts, or its wait at a full egress queue. -/
def slotCycles (s : State) (n : Nat) (sl : Slot) : Slot :=
  if countsBudget sl then { sl with budget := sl.budget - n }
  else if egressWaits s sl then { sl with waited := sl.waited + n }
  else sl

/-- n arithmetic cycles pass at a core: every activation's budget counts (R37). -/
def passCycles (s : State) (c n : Nat) : State :=
  modCore s c fun k => { k with cycle := k.cycle + n, slots := k.slots.map (slotCycles s n) }

/-! ### Launches and actors -/

def getLaunch (s : State) (l : Nat) : Option Launch := findBy (·.id) l s.launches
def setLaunch (s : State) (l : Launch) : State := { s with launches := putBy (·.id) l s.launches }
def modLaunch (s : State) (l : Nat) (f : Launch → Launch) : State :=
  match getLaunch s l with
  | some x => setLaunch s (f x)
  | none => s

def Launch.actor (l : Launch) (name : Nat) : Option Actor := findBy (·.name) name l.actors
def Launch.setActor (l : Launch) (a : Actor) : Launch := { l with actors := putBy (·.name) a l.actors }
def getActor (s : State) (l name : Nat) : Option Actor := (getLaunch s l).bind (fun x => x.actor name)
def setActor (s : State) (l : Nat) (a : Actor) : State := modLaunch s l (fun x => x.setActor a)
def modActor (s : State) (l name : Nat) (f : Actor → Actor) : State :=
  match getActor s l name with
  | some a => setActor s l (f a)
  | none => s

def Actor.chan (a : Actor) (n : Nat) : Option Chan := findBy (·.num) n a.chans
def Actor.setChan (a : Actor) (c : Chan) : Actor := { a with chans := putBy (·.num) c a.chans }
def modChan (s : State) (l name n : Nat) (f : Chan → Chan) : State :=
  modActor s l name fun a => match a.chan n with | some c => a.setChan (f c) | none => a

/-- Whether the launch is one whose activations run. -/
def Launch.live (l : Launch) : Bool := l.phase == .running

/-- Whether an actor has an activation in a slot of its core (R287). -/
def Slot.runs (sl : Slot) (launch name : Nat) : Bool :=
  match sl.status with
  | .free => false
  | .leaf _ _ => false
  | .leafSwap _ _ _ _ _ _ _ => false
  | _ => sl.launch == launch && sl.actor == name

def slotsOf (k : Core) : List Slot := k.slots.toList

def actorBusy (s : State) (l : Nat) (a : Actor) : Bool := (slotsOf (getCore s a.core)).any (fun sl => sl.runs l a.name)

/-- The slot of an actor's activation. -/
def slotOfActor (s : State) (l : Nat) (a : Actor) : Option (Fin 4) :=
  (List.finRange 4).find? (fun i => (getSlot s a.core i).runs l a.name)

def getResident (s : State) (c l : Nat) : Resident :=
  (findBy (·.launch) l (getCore s c).residents).getD ⟨l, 0, 0, 0, [], []⟩
def setResident (s : State) (c : Nat) (r : Resident) : State :=
  modCore s c fun k => { k with residents := putBy (·.launch) r k.residents }
def modResident (s : State) (c l : Nat) (f : Resident → Resident) : State := setResident s c (f (getResident s c l))

/-- R288: the next value of a core's arrival sequence, and the core cycle. -/
def nextArrival (s : State) (c : Nat) : Nat × Nat × State :=
  let k := getCore s c
  (k.arrival, k.cycle, setCore s { k with arrival := k.arrival + 1 })

/-- R36: the next SEQ of a core: the counter plus 1, which becomes the counter. -/
def nextSeq (s : State) (c : Nat) : BitVec 32 × State :=
  let k := getCore s c
  (k.seq + 1, setCore s { k with seq := k.seq + 1 })

/-- msgid of R36: source module, source core, SEQ. -/
def msgidOf (core : Nat) (seq : BitVec 32) : Word :=
  BitVec.ofNat 64 (core / 4096 % 4096 * 2 ^ 52 + core % 4096 * 2 ^ 40 + seq.toNat)

/-- Words of messages queued in mailboxes and held by activations of a core (R1). -/
def chanWords (c : Chan) : Nat := (c.queue.map (fun m => m.words.length)).sum
def mailboxWords (s : State) (c : Nat) : Nat :=
  (s.launches.map fun l => (l.actors.map fun a =>
    if a.core = c && a.place == .core then (a.chans.map chanWords).sum else 0).sum).sum
  + ((slotsOf (getCore s c)).map fun sl => (sl.held.map fun h => h.msg.words.length).sum).sum

/-! ### Accumulator rows (R22 to R26, R393) -/

def rowValue (k : Core) (n : Nat) : Vec :=
  match findBy (·.1) n k.rows with
  | some p => p.2
  | none => 0
/-- A row written whole, which clears its poison (R342); an all-zero row is not listed. -/
def setRow (k : Core) (n : Nat) (v : Vec) : Core :=
  { k with rows := if v = 0 then dropBy (·.1) n k.rows else putBy (·.1) (n, v) k.rows,
           badRows := k.badRows.filter (· != n) }
def setRows (k : Core) (first : Nat) : List Vec → Core
  | [] => k
  | v :: r => setRows (setRow k first v) (first + 1) r

/-- Whether an actor owns a row. -/
def Actor.owns (a : Actor) (row : Nat) : Bool := a.zbase ≤ row && row < a.zbase + a.zrows
/-- Launches that hold their resources (R283 step 3, R297). -/
def Launch.holds (l : Launch) : Bool := l.phase != .ended
/-- Whether a saved row is that of an actor of a launch. -/
def SavedRow.isOf (r : SavedRow) (l : Nat) (a : Actor) (row : Nat) : Bool :=
  r.core == a.core && r.row == row && r.launch == l && r.name == a.name
/-- Whether a row of an actor of a launch stands in the save area, its group claimed by another (R303). -/
def rowSaved (s : State) (l : Nat) (a : Actor) (row : Nat) : Bool := s.savedRows.any fun r => r.isOf l a row
/-- Whether an actor of a launch that f picks owns a row of a core: a row is an owner's until it is claimed (R302, R303). -/
def rowOwnedIf (s : State) (c row : Nat) (f : Launch → Bool) : Bool :=
  s.launches.any fun l => f l && l.holds && l.actors.any fun a =>
    a.core == c && a.owns row && (a.place == .core || a.place == .parked) && !rowSaved s l.id a row
/-- Whether an actor of a core, of a launch other than one, owns a row. -/
def rowOwnedBut (s : State) (c but row : Nat) : Bool := rowOwnedIf s c row fun l => l.id != but
/-- Whether any actor of a core owns a row; launch ids begin at 1. -/
def rowOwned (s : State) (c row : Nat) : Bool := rowOwnedBut s c 0 row
def rowParked (k : Core) (row : Nat) : Bool := (slotsOf k).any fun sl => sl.parked.contains row
/-- A free row: not owned, not parked, not in the engine range, not a victim's (R22, R302). -/
def rowFree (s : State) (c row : Nat) : Bool :=
  let k := getCore s c
  row < 2048 - k.engine && !rowOwned s c row && !rowParked k row && !(k.victims.any fun v => v.unit == row / 16)
/-- R302: whether a row group of a core is held against a launch: owned by another launch, parked, in the engine range, or a
victim. -/
def groupHeld (s : State) (c l g : Nat) : Bool :=
  let k := getCore s c
  (k.victims.any fun v => v.unit == g) || (List.range 16).any fun n =>
    let row := 16 * g + n
    2048 - k.engine ≤ row || rowParked k row || rowOwnedBut s c l row
def freeRows (s : State) (c : Nat) : List Nat := (List.range 2048).filter (rowFree s c)
/-- R24: whether a handler's instruction may name a row. -/
def rowAccess (s : State) (sl : Slot) (row : Nat) : Bool :=
  row < 2048 && (sl.parked.contains row ||
    match getActor s sl.launch sl.actor with
    | some a => a.owns row
    | none => false)

/-! ### The music box (R343) -/

/-- A record of a source enters the ring of a die. -/
def musicRecord (d : Die) (source code : Nat) (data : BitVec 64) : Die :=
  let seq := (match findBy (·.1) source d.seqs with | some p => p.2 + 1 | none => 0)
  { d with ring := putBy (·.1) (d.head, ⟨seq, source, code, data⟩) d.ring,
           seqs := putBy (·.1) (source, seq) d.seqs,
           head := (d.head + 1) % 4096,
           wraps := if d.head = 4095 then d.wraps + 1 else d.wraps }
def music (s : State) (die source code : Nat) (data : BitVec 64) : State :=
  setDie s (musicRecord (getDie s die) source code data)
/-- The firmware of the marionette die records as node kind 3, index 2, into die 0. -/
def musicFirmware (s : State) (code : Nat) (data : BitVec 64) : State := music s 0 (3 * 4096 + 2) code data

/-! ### Taking a trap (R334) -/

def progBits (sl : Slot) : Nat := (if sl.active then 256 else 0) + sl.nextReg % 64

/-- The report of a fault (R335, R336). -/
def report (s : State) (r : FaultReport) : State := { s with reports := s.reports ++ [r] }

/-- R31: the held messages of a channel, the triggering one first, put back whole at its head. -/
def returnHeld (held : List Held) (c : Chan) : Chan :=
  let hs := held.filter (fun h => h.chan == c.num)
  { c with queue := (hs.filter (·.trigger)).map (·.msg) ++ (hs.filter (fun h => !h.trigger)).map (·.msg) ++ c.queue }

/-- The tasks an activation holds, the triggering task first (R33, R196). -/
def heldTasks (sl : Slot) : List Task := (match sl.htask with | some (t, _) => [t] | none => []) ++ sl.popped

/-- The matrix operations that have issued stay due (R29, R203): each with its reads that have not completed. A row move to a
register of the aborted activation is dead, and an operation that has lost an operand block is the one that traps. -/
def lateMats (sl : Slot) : List LateMat :=
  sl.mats.filterMap fun m =>
    let accs := sl.accs.filter fun a => match a.dst with | .mat op _ => op == m.id | _ => false
    match m.kind with
    | .mrdv _ _ => none
    | .mload _ _ _ => some ⟨sl.launch, sl.actor, m, accs⟩
    | _ => if m.blocks.length + accs.length = m.need then some ⟨sl.launch, sl.actor, m, accs⟩ else none

/-- A sequencer token that a slot holds comes back (R246). -/
def dropToken (s : State) (c : Nat) (i : Fin 4) : State :=
  let sl := getSlot s c i
  match sl.token with
  | some q => setSlot { s with tokens := s.tokens.filter (· != q) } c i { sl with token := none }
  | none => s

/-- R334 step 3 and R40: what the activation holds goes back, its parked rows are freed, the slot is free. Its tasks go to the head of the
core queue even where that has filled to 64 meanwhile (R196 and R1 do not say which yields; DESIGN CHOICE, log 82). -/
def abortSlot (s : State) (c : Nat) (i : Fin 4) : State :=
  let sl := getSlot s c i
  let s := modActor s sl.launch sl.actor fun a => { a with chans := a.chans.map (returnHeld sl.held) }
  let s := if (heldTasks sl).isEmpty then s
           else modResident s c sl.launch fun r => { r with tasks := heldTasks sl ++ r.tasks }
  let s := dropToken s c i
  let s := modCore { s with requests := s.requests.filter fun r => !(r.core == c && r.slot == i) } c fun k =>
    { k with late := k.late ++ lateMats sl }
  setSlot s c i Slot.reset

/-- The report of an activation's trap. -/
def trapReport (sl : Slot) (c : Nat) (i : Fin 4) (origin cause : Nat) (tval epc : Word) : FaultReport :=
  ⟨sl.launch, cause, origin, tval, epc, sl.msgid, sl.actor, c, i.val, 0, progBits sl⟩

/-- R334: a trap of the slot, with cause, tval and epc. During debug execution the activation stays halted at its resume point,
and the three values tell the debugger of the trap (R38, R346); else it is aborted and the fault is reported. prog stays as it was
at the trap (R39), until debug execution or the activation goes on (DEDUCED, log 24). -/
def trapFrom (origin : Nat) (s : State) (c : Nat) (i : Fin 4) (cause : Nat) (tval epc : Word) : State :=
  let sl := getSlot s c i
  if sl.inDebug then
    dropToken (setSlot s c i { sl with status := .halted, inDebug := false, dbgWords := [], stall := none, card := none,
                                       claimed := false, cause := BitVec.ofNat 8 cause, epc := epc, tval := tval }) c i
  else
    report (abortSlot s c i) (trapReport sl c i origin cause tval epc)

def takeTrap (s : State) (c : Nat) (i : Fin 4) (cause : Nat) (tval epc : Word) : State := trapFrom 0 s c i cause tval epc

def causeILLEGAL : Nat := 0x01
def causeEARLYREAD : Nat := 0x02
def causeMISALIGN : Nat := 0x03
def causeACCESS : Nat := 0x04
def causeBUDGET : Nat := 0x05
def causeUNBOUND : Nat := 0x06
def causeCHANNEL : Nat := 0x07
def causeQTREE : Nat := 0x08
def causePOOL : Nat := 0x09
def causeENGINE : Nat := 0x0A
def causeECALL : Nat := 0x0B
def causeEBREAK : Nat := 0x0C
def causeHALTREQ : Nat := 0x0D
def causeTASK : Nat := 0x0E
def causeEGRESS : Nat := 0x0F
def causeGROUP : Nat := 0x10

/-- The budget of an activation has ended (R37): tval is the budget that its launch gives. -/
def budgetTrap (s : State) (c : Nat) (i : Fin 4) : State :=
  let sl := getSlot s c i
  takeTrap s c i causeBUDGET (BitVec.ofNat 64 (match getLaunch s sl.launch with | some l => l.budget | none => 0)) sl.pc

/-- A trap that leaves the activation alive in its slot: cause, epc and tval are written and the wait begins (R334). -/
def holdSlot (sl : Slot) (st : Status) (cause : Nat) (epc tval : Word) : Slot :=
  { sl with status := st, stall := none, passBreak := false, card := none, cause := BitVec.ofNat 8 cause, epc := epc, tval := tval }

/-- R121, R344: the halted activation goes on at its resume point, which a debugger's write of epc moves (R120). -/
def returnFromDebug (sl : Slot) : Slot :=
  { sl with status := .running, inDebug := false, dbgWords := [], stall := none, passBreak := true, active := false, nextReg := 0 }

/-! ### Issue of one instruction -/

/-- R346: a stepped activation halts again after its one instruction, at npc. -/
def stepHalt (sl : Slot) (npc : Word) : Slot :=
  if sl.oneStep then { holdSlot sl .halted causeEBREAK npc 0x200 with oneStep := false } else sl

/-- R344: debug execution ends with its last word, once the accesses of the slot have their answers, so that a trap which an answer
brings still belongs to it (R346). With no TRET among its words the activation stays halted (log 24). -/
def debugEnds (sl : Slot) : Slot :=
  if sl.inDebug && sl.dbgWords.isEmpty && sl.accs.isEmpty then { sl with inDebug := false, status := .halted, stall := none } else sl

/-- R344: the word of debug execution is done. -/
def debugNext (sl : Slot) : Slot := debugEnds { sl with dbgWords := sl.dbgWords.tail }

/-- R18, R62: a slot that has issued its instruction with a count SC: its clock moves by 1 + SC, and npc comes next. During
debug execution the next word is that of the debugger, and pc stays. -/
def Slot.issued (sl : Slot) (sc : Nat) (npc : Word) : Slot :=
  let sl := { sl with stall := none, card := none, claimed := false, clock := sl.clock + 1 + sc }
  if sl.inDebug then debugNext sl else stepHalt { sl with pc := npc, passBreak := false } npc

/-- The slot has issued its instruction, and the core's cycles move by 1 + SC. -/
def retire (s : State) (c : Nat) (i : Fin 4) (sc : Nat) (npc : Word) : State :=
  passCycles (modSlot s c i fun sl => sl.issued sc npc) c (1 + sc)

/-- The slot waits at issue. -/
def stallSlot (s : State) (c : Nat) (i : Fin 4) (w : Stall) : State := modSlot s c i fun sl => { sl with stall := some w }

/-- The current slot, settled, when it runs an activation. -/
def onSlot (s : State) (f : State → Nat → Fin 4 → Slot → State) : Out :=
  let sl := getSlot s s.curCore s.curSlot
  match sl.status with
  | .running =>
    let sl := sl.settle
    .next (f (setSlot s s.curCore s.curSlot sl) s.curCore s.curSlot sl)
  | _ => .fault .noActivation

/-- R76 for an instruction of the current slot: it waits, traps, or goes on with its own effect. -/
def issue (s : State) (srcs dsts : List RegRef) (f : State → Nat → Fin 4 → Slot → State) : Out :=
  onSlot s fun s c i sl =>
    match sl.ready srcs dsts with
    | .wait w => stallSlot s c i w
    | .trap cause tval => takeTrap s c i cause tval sl.pc
    | .go => f s c i sl

/-- A fixed-latency instruction (R19): the value and flags that f computes from the slot become visible lat clocks on. -/
def issueFixed (s : State) (srcs : List RegRef) (dst : RegRef) (lat : Nat) (sc : BitVec 2)
    (f : Slot → Vec × FFlags) : Out :=
  issue s srcs [dst] fun s c i sl =>
    let r := f sl
    let s := setSlot s c i (accrueAt (sl.writeFix dst r.1 lat) r.2 lat)
    retire s c i sc.toNat (sl.pc + 4)

/-- A local variable-latency instruction (R21, R74): its results complete later. -/
def issueLocal (s : State) (srcs dsts : List RegRef) (fp : Bool) (f : Slot → List (RegRef × Vec) × FFlags) : Out :=
  issue s srcs dsts fun s c i sl =>
    let r := f sl
    let s := setSlot s c i (sl.writeVar r.1 r.2 fp)
    retire s c i 0 (sl.pc + 4)

/-! ### Channel words (R30 to R33) -/

/-- The first held message of a channel with a word left. -/
def heldOn (held : List Held) (ch : Nat) : Option Held := held.find? (fun h => h.chan == ch && h.pos < h.msg.words.length)

/-- Held messages with one more word of the channel popped. -/
def popHeld (ch : Nat) : List Held → List Held
  | [] => []
  | h :: r => if h.chan == ch && h.pos < h.msg.words.length then { h with pos := h.pos + 1 } :: r else h :: popHeld ch r

/-- The head message of a channel becomes held (R31). -/
def holdHead (s : State) (c : Nat) (i : Fin 4) (ch pos : Nat) : Option State :=
  let sl := getSlot s c i
  match (getActor s sl.launch sl.actor).bind (fun a => a.chan ch) with
  | none => none
  | some cn =>
    if cn.task then none else
    match cn.queue with
    | [] => none
    | m :: rest =>
      let since := if rest.isEmpty || cn.bound then none else some (getCore s c).cycle
      some (modSlot (modChan s sl.launch sl.actor ch fun x => { x with queue := rest, unbound := since, ucount := 0 }) c i
        fun sl => { sl with held := sl.held ++ [⟨ch, m, pos, false⟩] })

/-- The pop of one word (R30 to R33): the word and the state after it, or none where the instruction traps CHANNEL. -/
def popWord (s : State) (c : Nat) (i : Fin 4) (ch : Nat) : Option (Vec × State) :=
  let sl := getSlot s c i
  match (getActor s sl.launch sl.actor).bind (fun a => a.chan ch) with
  | none => none
  | some cn =>
    if cn.task then
      match sl.htask with
      | some (t, pos) =>
        if sl.chan = ch && pos < t.words.length then
          some (t.words.getD pos 0, setSlot s c i { sl with htask := some (t, pos + 1) })
        else none
      | none => none
    else match heldOn sl.held ch with
      | some h => some (h.msg.words.getD h.pos 0, setSlot s c i { sl with held := popHeld ch sl.held })
      | none =>
        match cn.queue with
        | [] => none
        | m :: _ => (holdHead s c i ch 1).map (fun s => (m.words.getD 0 0, s))

/-- Whether the message or task at the pop position of a channel has an uncorrectable error (R342). -/
def popPoisoned (s : State) (sl : Slot) (ch : Nat) : Bool :=
  match (getActor s sl.launch sl.actor).bind (fun a => a.chan ch) with
  | none => false
  | some cn =>
    if cn.task then sl.htask.any fun p => sl.chan = ch && p.2 < p.1.words.length && p.1.bad
    else match heldOn sl.held ch with
      | some h => h.msg.bad
      | none => cn.queue.head?.any (·.bad)

/-- R342: an instruction meets an uncorrectable error in a message or task of its core. A mailbox has no address: the event and tval
hold 0 (log 31). -/
def messagePoison (s : State) (c : Nat) (i : Fin 4) (epc : Word) : State :=
  trapFrom 6 (music s (dieOf c) (c % 4096) 3 0) c i causeACCESS 0 epc

/-- The vs1 operand: a register, or one popped word, which traps CHANNEL when there is none (R32, R146). -/
def withSrc (s : State) (c : Nat) (i : Fin 4) (sl : Slot) (src : VSrc) (f : State → Slot → Vec → State) : State :=
  match src with
  | .reg r => f s sl (sl.rv r)
  | .ch ch =>
    if popPoisoned s sl ch.toNat then messagePoison s c i sl.pc
    else match popWord s c i ch.toNat with
    | none => takeTrap s c i causeCHANNEL (BitVec.ofNat 64 ch.toNat) sl.pc
    | some (w, s) => f s (getSlot s c i) w

/-- The register that a vs1 operand reads. -/
def VSrcRegs : VSrc → List RegRef
  | .reg r => [vr r]
  | .ch _ => []

/-- A fixed-latency vector instruction with a vs1 operand that may be a channel. -/
def issueVec (s : State) (src : VSrc) (srcs : List RegRef) (dst : RegRef) (lat : Nat) (sc : BitVec 2)
    (f : Slot → Vec → Vec × FFlags) : Out :=
  issue s (VSrcRegs src ++ srcs) [dst] fun s c i sl =>
    withSrc s c i sl src fun s sl a =>
      let r := f sl a
      let s := setSlot s c i (accrueAt (sl.writeFix dst r.1 lat) r.2 lat)
      retire s c i sc.toNat (sl.pc + 4)

/-- A variable-latency vector instruction with a vs1 operand that may be a channel. -/
def issueVecLocal (s : State) (src : VSrc) (srcs dsts : List RegRef) (fp : Bool)
    (f : Slot → Vec → List (RegRef × Vec) × FFlags) : Out :=
  issue s (VSrcRegs src ++ srcs) dsts fun s c i sl =>
    withSrc s c i sl src fun s sl a =>
      let r := f sl a
      let s := setSlot s c i (sl.writeVar r.1 r.2 fp)
      retire s c i 0 (sl.pc + 4)

/-- A move that its rule does not permit now. -/
def notPermitted (event : String) : Out := .fault (.notPermitted event)

end Sys2Proof.Machine
end

