-- ==== Sys2Proof/Machine/Pairs.lean ====
section
/-! DEFINITION. Pairs of nodes (13 R310), packets entering them (R241 Issue and Commit), and where endpoints are placed
(12 R298, R301). -/
namespace Sys2Proof.Machine

/-- The number of an ordered pair; the source and destination have 27 bits. -/
def pairKey (src dst : Nat) : Nat := src * 2 ^ 27 + dst
def Pair.key (p : Pair) : Nat := pairKey p.src p.dst
def getPair (s : State) (src dst : Nat) : Pair := (findBy Pair.key (pairKey src dst) s.pairs).getD (Pair.reset src dst)
def setPair (s : State) (p : Pair) : State := { s with pairs := putBy Pair.key p s.pairs }
def modPair (s : State) (src dst : Nat) (f : Pair → Pair) : State := setPair s (f (getPair s src dst))

/-- A packet as its source makes it; it takes its sequence when it is transmitted (R309). -/
def newPacket (len cls asid : Nat) (body : Body) : Packet := ⟨0, len, cls, asid, false, 0, false, false, 0, 0, body, 0, none⟩
/-- The same for an access by a translated address (R270). -/
def newAccess (len asid : Nat) (va : Word) (body : Body) : Packet := { newPacket len 0 asid body with via := va }

/-- An item enters the tail of Q(src, dst), which holds any number of items (R241; DESIGN CHOICE, log 61). -/
def enqueue (s : State) (src dst : Nat) (p : Packet) : State :=
  modPair s src dst fun x => { x with out := x.out ++ [p] }

/-- Whether a packet is a message for an endpoint of a launch. -/
def isFor (l name : Nat) (k : Packet) : Bool :=
  match k.body with
  | .msg l' n' _ _ => l' == l && n' == name
  | _ => false

/-- R243: every item of the pair has performed. -/
def Pair.quiet (p : Pair) : Bool := p.out.isEmpty && p.next == p.expected

/-- The home of the parked mailboxes of a module: LPDDR agent 0 of the save area (R301; log 21). -/
def parkedNode (m : Nat) : Nat := m * 2 ^ 14 + 4096 + 32

/-- The node where the master directory places an actor (R298). -/
def Actor.node (a : Actor) : Nat :=
  match a.place with
  | .parked => parkedNode (a.core / 4096)
  | _ => coreNode a.core

/-- The cached directory entry of a core (R298). -/
def cachedNode (s : State) (c l name : Nat) : Option Nat :=
  ((getCore s c).dir.find? fun e => e.launch == l && e.name == name).map (·.node)

/-- A cached entry written. -/
def cacheNode (s : State) (c l name node : Nat) : State :=
  modCore s c fun k => { k with dir := ⟨l, name, node⟩ :: k.dir.filter fun e => !(e.launch == l && e.name == name) }

/-- Where a core addresses a message: its cached entry, else the master directory. -/
def addressOf (s : State) (c l name : Nat) : Option Nat :=
  match cachedNode s c l name with
  | some n => some n
  | none => (getActor s l name).map Actor.node

end Sys2Proof.Machine
end

