-- ==== Sys2Proof/Machine/Mailbox.lean ====
section
/-! DEFINITION. Messages at mailboxes, stubs and parked mailboxes (08 R176 to R178, 12 R299 to R301), task queues
(R291, R292), and group records (08 R186 to R192, R194). -/
namespace Sys2Proof.Machine

/-- A fault that no activation takes (R335). Its MSGID is 0 where the table gives 0, also for an EGRESS or GROUP fault of ORIGIN 5 or 7 that
an activation's commit has caused (R174; DEDUCED, log 85). -/
def agentFault (launch cause origin : Nat) (tval : Word) (core : Nat) : FaultReport :=
  ⟨launch, cause, origin, tval, 0, 0, 0, core, 0, 0, 0⟩

/-! ### Messages -/

/-- What a packet at position E does: it performs, is deferred with a reason (R321), or is forwarded (R322). -/
inductive Perf where
  | done (s : State)
  | defer (reason : Nat)
  | forward (node : Nat)
  deriving DecidableEq, Repr

def countDropped (s : State) (l n : Nat) : State :=
  modLaunch s l fun x => { x with dropped := min (x.dropped + n) (2 ^ 32 - 1) }

/-- R178: whether the actor declares a message channel with this word count. -/
def Actor.accepts (a : Actor) (ch words : Nat) : Bool :=
  match a.chan ch with
  | some c => !c.task && c.words == words
  | none => false

/-- A message enters the mailbox of an actor on its core and takes an arrival number (R288). -/
def intoMailbox (s : State) (l : Nat) (a : Actor) (ch : Nat) (m : Msg) : State :=
  let (n, t, s) := nextArrival s a.core
  let m := { m with arr := n, age := 0, since := t }
  modChan s l a.name ch fun c =>
    { c with queue := c.queue ++ [m], unbound := if c.queue.isEmpty && !c.bound then some t else c.unbound }

/-- A message enters the parked mailbox of an actor, which holds 1,024 words (R301): what stands in the actor's mailbox counts, as it
goes there. -/
def intoBox (s : State) (l : Nat) (a : Actor) (ch : Nat) (m : Msg) : Perf :=
  if (a.box.map fun b => b.2.words.length).sum + (a.chans.map chanWords).sum + m.words.length ≤ 1024 then
    .done (setActor s l { a with box := a.box ++ [(ch, m)] })
  else .defer 1

/-- A message enters the mailbox of an actor on its core when its parked mailbox has drained and the core has room (R178, R306). While
the context or the actor leaves, nothing makes room there: a message that finds none enters the parked mailbox, into which the
mailbox goes, so that it performs (R305 step 4, R307; DESIGN CHOICE, log 78). -/
def atMailbox (s : State) (l : Launch) (a : Actor) (ch : Nat) (m : Msg) : Perf :=
  let fits (x : Msg) : Bool := mailboxWords s a.core + x.words.length ≤ 256
  let leaving : Bool := a.leaving || (getContext s l.ctx).any (·.leaving)
  match a.box with
  | [] => if fits m then .done (intoMailbox s l.id a ch m) else if leaving then intoBox s l.id a ch m else .defer 0
  | (_, h) :: _ => if leaving && !fits h then intoBox s l.id a ch m else .defer 0

/-- A message of a launch for an endpoint performs at a node (R178, R299 to R301, R306, R321). A core that has not finished steps 4
and 5 of R283 for the launch takes none (R284). -/
def performMsg (s : State) (node l name ch : Nat) (m : Msg) : Perf :=
  match getLaunch s l with
  | none => .done s
  | some x =>
    if x.phase == .ending || x.phase == .ended then .done (countDropped s l 1)
    else match x.actor name with
      | none => .done (countDropped s l 1)
      | some a =>
        if a.place == .ended then .done (countDropped s l 1)
        else if a.place == .unclaimed || x.todo.contains a.core then .defer 0
        else if node != a.node then
          (if a.stubs.contains node then .forward a.node else .done (countDropped s l 1))
        else if !a.accepts ch m.words.length then .done (countDropped s l 1)
        else if a.place == .parked then intoBox s l a ch m
        else atMailbox s x a ch m

def msgPacket (asid l name ch : Nat) (m : Msg) : Packet :=
  newPacket (2 * m.words.length) m.cls asid (.msg l name ch m)

/-- Whether a message of a core for an endpoint has not been acknowledged from any other node than one (R300: one path at a time). A
copy that the core's stub forwards for another source is not the core's message (R322). -/
def strays (s : State) (c l name node : Nat) : Bool :=
  s.pairs.any fun p => p.src == coreNode c && p.dst != node
    && (p.out ++ p.store.map (·.pkt)).any fun k => isFor l name k && k.orig.isNone

/-- A message for the core's own node performs in the move that makes it, or goes on from a stub there (R241, R243, R299). none:
the mailbox does not take it yet, or an earlier message of the core for the actor is on its way along another path (R300). -/
def ownMsg (s : State) (c asid l name ch : Nat) (m : Msg) : Option State :=
  match performMsg s (coreNode c) l name ch m with
  | .done t => if strays s c l name (coreNode c) then none else some t
  | .defer _ => none
  | .forward n =>
    if strays s c l name n then none else some (enqueue s (coreNode c) n { msgPacket asid l name ch m with hops := 1 })

/-- Whether a message of a core's own hardware waits for an endpoint (R176; log 22). -/
def postWaits (posts : List Post) (l name : Nat) : Bool := posts.any fun q => q.launch == l && q.name == name

/-- A message that a core sends: it performs at once when its destination is the core itself (R241, R176), else it enters
its queue. none: the core's own mailbox has no room, and the message cannot be accepted yet. -/
def sendMsg (s : State) (c asid l name ch : Nat) (m : Msg) : Option State :=
  match addressOf s c l name with
  | none => some (countDropped s l 1)
  | some node =>
    if node = coreNode c then
      if postWaits (getCore s c).posts l name then none else ownMsg s c asid l name ch m
    else some (enqueue s (coreNode c) node (msgPacket asid l name ch m))

/-- A message of the core's own hardware (a completion, a delivery, a notification), along the path that the core keeps for its
endpoint (R298, R300): when the core's own mailbox has no room it waits at the core (log 22). -/
def postMsg (s : State) (c asid l name ch : Nat) (m : Msg) : State :=
  let s := match addressOf s c l name with
    | some n => cacheNode s c l name n
    | none => s
  match sendMsg s c asid l name ch m with
  | some s => s
  | none => modCore s c fun k => { k with posts := k.posts ++ [⟨asid, l, name, ch, m⟩] }

/-- The mailbox takes the n-th waiting message of a core's hardware, the first for its endpoint; none while it has no room. -/
def deliverPost (s : State) (c n : Nat) : Option State :=
  let ps := (getCore s c).posts
  match ps[n]? with
  | none => none
  | some p =>
    if postWaits (ps.take n) p.launch p.name then none
    else (ownMsg s c p.asid p.launch p.name p.chan p.msg).map fun s =>
      modCore s c fun k => { k with posts := k.posts.eraseIdx n }

/-- A message with the core's next SEQ (R36). -/
def newMsg (s : State) (c cls : Nat) (words : List Vec) : Msg × State :=
  let (q, s) := nextSeq s c
  (⟨cls, words, msgidOf c q, 0, 0, 0, false⟩, s)

/-! ### Task queues (R195, R291, R292) -/

def tasksOf (q : List (Nat × List Task)) (l : Nat) : List Task :=
  match findBy (·.1) l q with
  | some p => p.2
  | none => []
def setTasks (q : List (Nat × List Task)) (l : Nat) (ts : List Task) : List (Nat × List Task) :=
  if ts.isEmpty then dropBy (·.1) l q else putBy (·.1) (l, ts) q
def queueSize (q : List (Nat × List Task)) : Nat := (q.map fun p => p.2.length).sum
def coreTasks (k : Core) : Nat := (k.residents.map fun r => r.tasks.length).sum

/-- The oldest entries of a queue, and its n youngest. -/
def splitYoungest (n : Nat) (ts : List Task) : List Task × List Task :=
  (ts.take (ts.length - n), ts.drop (ts.length - n))

/-- A task enters the queue of a die; none when it is full (R292). -/
def enterDie (s : State) (die l : Nat) (ts : List Task) : Option State :=
  let d := getDie s die
  if queueSize d.tasks + ts.length ≤ 16384 then
    some (setDie s { d with tasks := setTasks d.tasks l (tasksOf d.tasks l ++ ts) })
  else none

/-- A task enters the queue of a cluster: a full queue passes it and its seven youngest on to the die (R292). -/
def enterCluster (s : State) (cl l : Nat) (t : Task) : Option State :=
  let k := getCluster s cl
  if queueSize k.tasks < 1024 then
    some (setCluster s { k with tasks := setTasks k.tasks l (tasksOf k.tasks l ++ [t]) })
  else
    let (old, young) := splitYoungest 7 (tasksOf k.tasks l)
    enterDie (setCluster s { k with tasks := setTasks k.tasks l old }) (cl / 32 % 4) l (young ++ [t])

def enterClusterAll (s : State) (cl l : Nat) : List Task → Option State
  | [] => some s
  | t :: r => (enterCluster s cl l t).bind fun s => enterClusterAll s cl l r

/-- A task enters the queue of a core (R288, R292). -/
def enterCore (s : State) (c l : Nat) (t : Task) : Option State :=
  if coreTasks (getCore s c) < 64 then
    let (n, now, s) := nextArrival s c
    some (modResident s c l fun r => { r with tasks := r.tasks ++ [{ t with arr := n, age := 0, since := now }] })
  else
    let (old, young) := splitYoungest 7 (getResident s c l).tasks
    enterClusterAll (modResident s c l fun r => { r with tasks := old }) (clusterOf c) l (young ++ [t])

/-- A task enters the queue of a level of a core's die. -/
def enterLevel (s : State) (c l level : Nat) (t : Task) : Option State :=
  if level = 0 then enterCore s c l t
  else if level = 1 then enterCluster s (clusterOf c) l t
  else enterDie s (dieOf c) l [t]

/-- R195: whether the queues of the die of a core are closed for a launch. -/
def dieClosed (s : State) (l die : Nat) : Bool :=
  match getLaunch s l with
  | some x => x.closed.contains die
  | none => false

def newTask (src : Nat) (words : List Vec) : Task := ⟨words, src, 0, 0, 0, false⟩

/-- The node of the queue of a level. -/
def queueNode (c level : Nat) : Nat :=
  if level = 1 then clusterQueueNode (c / 4096) (clusterOf c % 128) else dieQueueNode (c / 4096) (dieOf c)

/-- A task goes from a core to the queue of a level: into the core's own at once (R241), to the others by its pair. none: the
queue is full, and the commit waits (R292). The report is of the task that meets a closed queue (R195). -/
def pushTask (s : State) (c l asid level : Nat) (t : Task) (r : FaultReport) : Option State :=
  if level = 0 then enterCore s c l t
  else (enterLevel s c l level t).map fun _ =>
    enqueue s (coreNode c) (queueNode c level) (newPacket (2 * t.words.length) 0 asid (.tsk l level t r))

/-- R292: tasks drawn by a core: eight of the die queue into an empty cluster queue, then eight of the cluster queue; those that find the
core queue full go back to the cluster's tail (DESIGN CHOICE, log 87). -/
def drawTasks (s : State) (c l : Nat) : State :=
  let cl := clusterOf c
  let s :=
    if (tasksOf (getCluster s cl).tasks l).isEmpty then
      let d := getDie s (dieOf c)
      let ts := tasksOf d.tasks l
      let s := setDie s { d with tasks := setTasks d.tasks l (ts.drop 8) }
      let k := getCluster s cl
      setCluster s { k with tasks := setTasks k.tasks l (ts.take 8) }
    else s
  let k := getCluster s cl
  let ts := tasksOf k.tasks l
  let s := setCluster s { k with tasks := setTasks k.tasks l (ts.drop 8) }
  (ts.take 8).foldl (fun s t => (enterCore s c l t).getD s) s

/-- Whether a draw of a core would find a task. -/
def drawable (s : State) (c l : Nat) : Bool :=
  !(tasksOf (getCluster s (clusterOf c)).tasks l).isEmpty || !(tasksOf (getDie s (dieOf c)).tasks l).isEmpty

/-! ### Groups (R186 to R192) -/

def groupModule (o : Word) : Nat := o.toNat / 2 ^ 12 % 2 ^ 12
def groupId (o : Word) : Nat := o.toNat % 2 ^ 12
def groupHome (o : Word) : Nat := groupModule o * 4096 + groupId o
def groupChan (o : Word) : Nat := o.toNat / 2 ^ 24 % 16
def groupOp (o : Word) : Nat := o.toNat / 2 ^ 28 % 16
def groupClass (o : Word) : Nat := o.toNat / 2 ^ 32 % 8

def getGroup (s : State) (h l : Nat) : Option GroupRec := findBy (·.launch) l (getCore s h).groups
def setGroup (s : State) (h : Nat) (g : GroupRec) : State :=
  modCore s h fun k => { k with groups := putBy (·.launch) g k.groups }
def dropGroup (s : State) (h l : Nat) : State :=
  modCore s h fun k => { k with groups := dropBy (·.launch) l k.groups }

/-- A lane-by-lane combination of two words. -/
def laneFold (w n : Nat) (f : Nat → Nat → Nat) (a b : Vec) : Vec :=
  BitVec.ofNat 512 (((List.range n).map fun j =>
    f (a.toNat / 2 ^ (w * j) % 2 ^ w) (b.toNat / 2 ^ (w * j) % 2 ^ w) % 2 ^ w * 2 ^ (w * j)).sum)

/-- One step of an XRED combination (R191). -/
def xredStep (op : Nat) (a b : Vec) : Vec :=
  if op = 0 then laneFold 32 16 (fun x y => x + y) a b
  else if op = 1 then laneFold 64 8 (fun x y => x + y) a b
  else if op = 2 then laneFold 32 16 radd a b
  else if op = 3 then laneFold 32 16 (fun x y => if sintOf 32 x ≤ sintOf 32 y then x else y) a b
  else if op = 4 then laneFold 32 16 (fun x y => if sintOf 32 x ≤ sintOf 32 y then y else x) a b
  else if op = 5 then laneFold 32 16 (fun x y => (fminmax32 false x y).1) a b
  else if op = 6 then laneFold 32 16 (fun x y => (fminmax32 true x y).1) a b
  else if op = 7 then a ||| b
  else if op = 8 then a &&& b
  else a ^^^ b

/-- Arrivals by rising endpoint name. -/
def arrivalsByName : List Arrival → List Arrival
  | [] => []
  | a :: r => insertArrival a (arrivalsByName r)
where
  insertArrival (a : Arrival) : List Arrival → List Arrival
    | [] => [a]
    | b :: r => if a.name ≤ b.name then a :: b :: r else b :: insertArrival a r

/-- The completion word of an epoch (R190 to R192); none for an XBCAST epoch with no root (R189). -/
def completionWord (h : Nat) (g : GroupRec) : Option Vec :=
  match g.kind with
  | some (.xred op) =>
    match arrivalsByName g.arrivals with
    | [] => some 0
    | a :: r => some (r.foldl (fun acc x => xredStep op acc x.payload) a.payload)
  | some .xbcast => (g.arrivals.find? (·.root)).map (·.payload)
  | _ => some (BitVec.ofNat 512 (h % 2 ^ 24 + g.epoch % 2 ^ 32 * 2 ^ 64 + g.members.length * 2 ^ 96))

/-- The completion messages of an epoch, one for each arrived actor that is still a member. -/
def sendCompletions (s : State) (h asid l : Nat) (word : Vec) : List Arrival → State
  | [] => s
  | a :: r =>
    let s := if a.member then
        let (m, s) := newMsg s h a.cls [word]
        postMsg s h asid l a.name a.chan m
      else s
    sendCompletions s h asid l word r

def asidOf (s : State) (l : Nat) : Nat := match getLaunch s l with | some x => x.ctx | none => 0

/-- R189: the epoch completes when every current member has arrived. -/
def checkEpoch (s : State) (h l : Nat) : State :=
  match getGroup s h l with
  | none => s
  | some g =>
    if g.arrivals.isEmpty || !(g.members.all fun n => g.arrivals.any fun a => a.name == n && a.member) then s
    else match completionWord h g with
      | none => report s (agentFault l causeGROUP 7 (BitVec.ofNat 64 (h % 2 ^ 24)) h)
      | some w =>
        let s := setGroup s h { g with epoch := g.epoch + 1, kind := none, arrivals := [] }
        sendCompletions s h (asidOf s l) l w g.arrivals

/-- The answer of a group home: a value, and a code that is 1 when the operation's own condition fails. -/
def groupRes (v code : Nat) : MemRes := ⟨BitVec.ofNat 512 v, 0, code, false⟩

/-- A member leaves, by LEAVE or by ending; the last one dissolves the group (R188, R189). -/
def removeMember (s : State) (h l name : Nat) (ended : Bool) : State :=
  match getGroup s h l with
  | none => s
  | some g =>
    let ms := g.members.filter (· != name)
    let s := modActor s l name fun a => { a with groups := a.groups.filter (· != h) }
    if ms.isEmpty then dropGroup s h l
    else
      let as := if ended then g.arrivals.map fun a => if a.name == name then { a with member := false } else a
                else g.arrivals
      checkEpoch (setGroup s h { g with members := ms, arrivals := as }) h l

/-- R180: a delivery to each member that declares the channel with the word count; the others are counted as dropped. The copies leave in
the order in which the members joined (R180 does not say; DESIGN CHOICE, log 104). -/
def deliverGroup (s : State) (h l ch cls : Nat) (words : List Vec) (msgid : Word) : List Nat → State
  | [] => s
  | n :: r =>
    let ok : Bool := match getActor s l n with
      | some a => a.place != .ended && a.accepts ch words.length
      | none => false
    let s := if ok then postMsg s h (asidOf s l) l n ch ⟨cls, words, msgid, 0, 0, 0, false⟩ else countDropped s l 1
    deliverGroup s h l ch cls words msgid r

/-- A group item or operation performs at its home (R180, R188, R189, R194). -/
def performGroup (s : State) (l : Nat) (operand : Word) (op : GroupOp) : State × MemRes :=
  let h := groupHome operand
  match op with
  | .deliver cls words msgid =>
    match getGroup s h l with
    | none => (s, groupRes 0 0)
    | some g => (deliverGroup s h l (groupChan operand) cls words msgid g.members, groupRes 0 0)
  | .arrive name kind payload =>
    match getGroup s h l with
    | none => (s, groupRes 0 0)
    | some g =>
      let bad := report s (agentFault l causeGROUP 7 (BitVec.ofNat 64 (operand.toNat % 2 ^ 24)) h)
      let root := kind == .xbcast && groupOp operand == 1
      if (match g.kind with | some k => k != kind | none => false) then (bad, groupRes 0 0)
      else if root && g.arrivals.any (·.root) then (bad, groupRes 0 0)
      else
        let a : Arrival := ⟨name, root, groupChan operand, groupClass operand, payload, g.members.contains name⟩
        (checkEpoch (setGroup s h { g with kind := some kind, arrivals := g.arrivals ++ [a] }) h l, groupRes 0 0)
  | .join name =>
    let many := match getActor s l name with | some a => decide (16 ≤ a.groups.length) | none => true
    match getGroup s h l with
    | none =>
      if many || 256 ≤ (getCore s h).groups.length then (s, groupRes 0 1)
      else
        (modActor (setGroup s h ⟨l, groupId operand, [name], 0, none, []⟩) l name
          fun a => { a with groups := a.groups ++ [h] }, groupRes 1 0)
    | some g =>
      if many || g.members.contains name || 4096 ≤ g.members.length then (s, groupRes 0 1)
      else
        (modActor (setGroup s h { g with members := g.members ++ [name] }) l name
          fun a => { a with groups := a.groups ++ [h] }, groupRes (g.members.length + 1) 0)
  | .leave name =>
    match getGroup s h l with
    | none => (s, groupRes 0 1)
    | some g =>
      if !g.members.contains name || g.arrivals.any (fun a => a.name == name) then (s, groupRes 0 1)
      else (removeMember s h l name false, groupRes (g.members.length - 1) 0)
  | .query name =>
    match getGroup s h l with
    | none => (s, groupRes 0 1)
    | some g =>
      (s, groupRes 0 (if g.members.contains name && !g.arrivals.any (fun a => a.name == name && a.member) then 0 else 1))
  | .ended name => (removeMember s h l name true, groupRes 0 0)

end Sys2Proof.Machine
end

