-- ==== Sys2Proof/Machine/Access.lean ====
section
/-! DEFINITION. Accesses: the gates they pass (10 R242 to R248), leaving the issue point (R241), performing at the home, and
completing; the creation of an actor from its record (08 R193). -/
namespace Sys2Proof.Machine

/-! ### Creating an actor (R193) -/

def vecField (v : Vec) (lo n : Nat) : Nat := v.toNat / 2 ^ lo % 2 ^ n

/-- The SRAM pieces of a region of a core's slice: physical address and length of each part within one frame; none when a
page of it is not mapped writable there. R193 does not say what ACTNEW does with a page that is not mapped, or not for writing: the
region is walked at once, raises no page request, and the code is 4 (DESIGN CHOICE, log 103). -/
def regionPieces (s : State) (asid core : Nat) (base size : Nat) : Option (List (Nat × Nat)) :=
  let first := base / 16384
  let n := if size = 0 then 0 else (base + size - 1) / 16384 - first + 1
  (List.range n).mapM fun k =>
    let lo := max base ((first + k) * 16384)
    let hi := min (base + size) ((first + k + 1) * 16384)
    match translateNow s asid (BitVec.ofNat 64 lo) .write with
    | some (pa, _) => if isSram pa && homeOf pa == coreNode core then some (pa, hi - lo) else none
    | none => none

/-- An SRAM frame carries its owner's tag (R302). -/
def frameKey (pa : Nat) : Nat := nodeCore (homeOf pa) * 32 + pa % 0x80000 / 16384
def ownFrame (s : State) (asid pa : Nat) : State :=
  if isSram pa then { s with frameOwner := putBy (·.1) (frameKey pa, asid) s.frameOwner } else s

/-- The frame of an SRAM address: core and frame number (R257). -/
def frameOf (pa : Nat) : Nat × Nat := (nodeCore (homeOf pa), pa % 0x80000 / 16384)
def frameBase (core f : Nat) : Nat := core / 4096 * 2 ^ 48 + core % 4096 * 0x80000 + f * 16384
/-- The frames that the pieces of a region lie in. -/
def pieceFrames (ps : List (Nat × Nat)) : List Nat := (ps.map fun p => (frameOf p.1).2).eraseDups
/-- The SRAM frames of a state region on its core. -/
def regionFrames (s : State) (ctx : Nat) (a : Actor) : List Nat :=
  pieceFrames ((regionPieces s ctx a.core a.base.toNat a.size).getD [])

/-- Whether an SRAM frame is tagged with an ASID. -/
def frameTagged (s : State) (c f asid : Nat) : Bool := (findBy (·.1) (c * 32 + f) s.frameOwner).any fun p => p.2 == asid

/-- Where the frame of an SRAM address of an ASID stands in the save area: another owner has claimed it, and it has not come back
(R303, R304). -/
def savedAt (s : State) (asid pa : Nat) : Option Nat :=
  let (c, f) := frameOf pa
  if isSram pa && !frameTagged s c f asid then
    s.savedFrames.findIdx? fun r => r.core == c && r.frame == f && asidOf s r.launch == asid
  else none

/-- What stands there, with its place. -/
def frameSaved (s : State) (asid pa : Nat) : Option (Nat × SavedFrame) :=
  (savedAt s asid pa).bind fun i => (s.savedFrames[i]?).map fun r => (i, r)

/-- R302: whether a frame of a core is held against a context: tagged by another, a victim of another that is still to be claimed, or
in the state region of an actor of another. -/
def frameHeld (s : State) (c ctx f : Nat) : Bool :=
  ((findBy (·.1) (c * 32 + f) s.frameOwner).any fun p => p.2 != ctx)
  || ((getCore s c).frames.any fun v => v.unit == f && asidOf s v.launch != ctx)
  || s.launches.any fun l => l.holds && l.ctx != ctx && l.actors.any fun a =>
      a.core == c && a.place == .core && (regionFrames s l.ctx a).contains f

/-- The music box of a home's die, and its source number; another module's ring is its own (R343). -/
def homeMusic (s : State) (home code : Nat) (data : Nat) : State :=
  if nodeModule home = s.module then music s ((nodeDie home).getD 0) (home % 2 ^ 14) code (BitVec.ofNat 64 data) else s

/-- A row as the music box names it (R343). -/
def rowData (core row : Nat) : Nat := row + core % 4096 * 2 ^ 16

/-- R342: poisoned state that a save or a restore moves ends its launch. -/
def moveFault (s : State) (l c : Nat) (tval : Word) : State :=
  report (homeMusic s (coreNode c) 3 tval.toNat) (agentFault l causeACCESS 6 tval c)

/-- Whether two ranges of addresses meet. -/
def rangesMeet (a n b m : Nat) : Bool := a < b + m && b < a + n

/-- The launches of a context whose state a block of a core's slice is: those in a region of which it lies, else all of them. A launch
that has ended has no state any more. -/
def blockLaunches (s : State) (ctx c pa : Nat) : List Nat :=
  let ls := s.launches.filter fun l => l.ctx == ctx
  let own := ls.filter fun l => l.actors.any fun a =>
    a.core == c && ((regionPieces s ctx c a.base.toNat a.size).getD []).any fun p => rangesMeet p.1 p.2 pa 64
  ((if own.isEmpty then ls else own).filter Launch.holds).map (·.id)

/-- R342: a save or restore of a frame meets the blocks of it that are lost, each of which ends the launches whose state it is. -/
def frameFaults (s : State) (ctx : Nat) (r : SavedFrame) : State :=
  r.bad.foldl (fun s b =>
    let pa := frameBase r.core r.frame + 64 * b
    (blockLaunches s ctx r.core pa).foldl (fun s l => moveFault s l r.core (BitVec.ofNat 64 pa)) s) s

/-- The contents of a frame put into a frame of a core; what an uncorrectable error has lost of them stays poisoned (R342). -/
def putFrame (s : State) (pa : Nat) (r : SavedFrame) : State :=
  let s := { s with mem := memPut s.mem pa r.bytes,
                    poisoned := (s.poisoned.filter fun b => b * 64 < pa || pa + r.bytes.length < b * 64 + 64)
                                ++ r.bad.map fun b => pa / 64 + b }
  ((List.range r.descs.length).zip r.descs).foldl (fun s p => setDesc s (pa + 64 * p.1) p.2) s

/-- What was saved of a frame, if it was, put back at its base. -/
def putBack (s : State) (pa : Nat) : Option (Nat × SavedFrame) → State
  | none => s
  | some (i, r) => putFrame { s with savedFrames := s.savedFrames.eraseIdx i } pa r
/-- R304: a frame of a context that was claimed is filled from the save area; blocks of it that are lost end their launches (R342). -/
def refillFrame (s : State) (ctx c f : Nat) : State :=
  let r := frameSaved s ctx (frameBase c f)
  putBack (match r with
    | some (_, x) => frameFaults s ctx x
    | none => s) (frameBase c f) r

/-- A range of physical memory made zero, which clears the poison of its whole blocks (R249, R342). -/
def zeroRange (s : State) (pa len : Nat) : State :=
  { s with mem := s.mem.filter fun c => c.1 < pa || pa + len ≤ c.1,
           poisoned := s.poisoned.filter fun b => b * 64 < pa || pa + len < b * 64 + 64 }

/-- The descriptors of a range made 0x0000. -/
def zeroDescs (s : State) (pa len : Nat) : State :=
  { s with descs := s.descs.filter fun d => d.1 * 64 < pa || pa + len ≤ d.1 * 64 }

/-- A region of an ASID becomes zero, and its frames are the ASID's (R27, R302); a frame that was claimed is filled first, for what
else it holds (R304). -/
def zeroPieces (s : State) (asid : Nat) : List (Nat × Nat) → State
  | [] => s
  | (pa, len) :: r =>
    let s := refillFrame s asid (frameOf pa).1 (frameOf pa).2
    zeroPieces (ownFrame (zeroRange s pa len) asid pa) asid r

/-- R265, R343: the two records of a failed walk, of the source that walks. -/
def walkRecords (s : State) (die source asid : Nat) (va : Word) : State :=
  music (music s die source 6 va) die source 6 (BitVec.ofNat 64 (asid * 2 ^ 51))
/-- A walk of a source that may have failed is recorded in a die's ring (R265): an address that is not canonical is not walked (R260),
and a poisoned entry is an event of its own (R342; log 81). -/
def noteWalkOf (s : State) (die source asid : Nat) (va : Word) : State :=
  if canonicalVa va then
    match walkAsid s asid va with
    | .fail => walkRecords s die source asid va
    | .poison pa => homeMusic s (homeOf pa) 3 pa
    | _ => s
  else s
/-- The firmware of the marionette die meets a walk that may have failed. -/
def noteWalk (s : State) (asid : Nat) (va : Word) : State := noteWalkOf s 0 (3 * 4096 + 2) asid va
/-- The first page of a region whose walk fails. -/
def failedPage (s : State) (asid base size : Nat) : Option Word :=
  let pages := (List.range (if size = 0 then 0 else (base + size - 1) / 16384 - base / 16384 + 1)).map fun k =>
    BitVec.ofNat 64 (max base ((base / 16384 + k) * 16384))
  pages.find? fun va => match walkAsid s asid va with
    | .fail => true
    | .poison _ => true
    | _ => false
/-- It is recorded. -/
def noteRegion (s : State) (asid base size : Nat) : State :=
  match failedPage s asid base size with
  | some va => noteWalk s asid va
  | none => s

/-- R27: the conditions on a state region. -/
def regionOk (base size stack : Nat) : Bool :=
  base % 64 = 0 && size % 64 = 0 && 64 ≤ size && size ≤ 262144 && stack % 64 = 0 && stack ≤ size && base + size ≤ 2 ^ 64

/-- Actors that stand on a core, over all launches. -/
def actorsOn (s : State) (core : Nat) : List (Launch × Actor) :=
  (s.launches.filter Launch.holds).flatMap fun l =>
    (l.actors.filter fun a => a.place == .core && a.core == core).map fun a => (l, a)

def handlerEntries (s : State) (core : Nat) : Nat := ((actorsOn s core).map fun p => p.2.chans.length).sum

/-- Whether a region meets that of another actor of the context (R193). -/
def regionTaken (s : State) (ctx base size : Nat) : Bool :=
  s.launches.any fun l => l.holds && l.ctx == ctx && l.actors.any fun a =>
    a.place != .ended && a.place != .unclaimed && rangesMeet base size a.base.toNat a.size

/-- The channels of a new actor: its template's entries, with no message (R193). -/
def freshChans (cs : List Chan) : List Chan := cs.map fun c => { c with queue := [], unbound := none, ucount := 0 }

/-- The result code of R193 for a record, and the template when it is 0. -/
def actnewCode (s : State) (core : Nat) (l : Launch) (r : Vec) : Nat × List Chan :=
  let name := vecField r 0 32
  let base := vecField r 64 64
  let size := vecField r 128 32
  let zbase := vecField r 192 16
  let zrows := vecField r 208 16
  let tmpl := (l.actor (vecField r 224 32)).filter fun a => a.place == .core && a.core == core
  let chans := match tmpl with | some a => freshChans a.chans | none => []
  if vecField r 256 256 != 0 || vecField r 44 20 != 0 then (6, [])
  else if name = 0 || (l.actor name).isSome then (1, [])
  else if 64 ≤ (actorsOn s core).length then (2, [])
  else if tmpl.isNone || 256 < handlerEntries s core + chans.length then (3, [])
  else if !regionOk base size (vecField r 160 32) || regionTaken s l.ctx base size
      || (regionPieces s l.ctx core base size).isNone then (4, [])
  else if 0 < zrows && !((List.range zrows).all fun k => rowFree s core (zbase + k)) then (5, [])
  else (0, chans)

/-- The rows of a range become all-zero bits. -/
def zeroRows (k : Core) (first : Nat) : Nat → Core
  | 0 => k
  | n + 1 => zeroRows (setRow k first 0) (first + 1) n

/-- The core that a record names. -/
def recordCore (c : Nat) (r : Vec) : Nat := c / 4096 * 4096 + vecField r 32 12
/-- The frames of a record's region in the slice of its core. -/
def recordFrames (s : State) (ctx core : Nat) (r : Vec) : List Nat :=
  pieceFrames ((regionPieces s ctx core (vecField r 64 64) (vecField r 128 32)).getD [])
/-- R302: whether the creation of a record's actor waits for a frame that another owner holds or left (log 77). -/
def createWaits (s : State) (c lid : Nat) (r : Vec) : Bool :=
  match getLaunch s lid with
  | none => false
  | some l => (actnewCode s (recordCore c r) l r).1 = 0
      && (recordFrames s l.ctx (recordCore c r) r).any (frameHeld s (recordCore c r) l.ctx)

/-- R193: the actor of a record, created on its core; the state and the result code. R193 fills only the state region with zeros, and says
of the rows that they are owned: they are zero too (DESIGN CHOICE, log 102). -/
def createActor (s : State) (c lid : Nat) (r : Vec) : State × Nat :=
  match getLaunch s lid with
  | none => (s, 1)
  | some l =>
    let core := recordCore c r
    match actnewCode s core l r with
    | (0, chans) =>
      let base := vecField r 64 64
      let size := vecField r 128 32
      let s := zeroPieces s l.ctx ((regionPieces s l.ctx core base size).getD [])
      let a : Actor := ⟨vecField r 0 32, .core, core, BitVec.ofNat 64 base, size, vecField r 160 32, vecField r 192 16,
        vecField r 208 16, chans, [], [], [], false, false, false, false⟩
      (modCore (setActor s lid a) core fun k => zeroRows k a.zbase a.zrows, 0)
    | (code, _) => (if code = 4 then noteRegion s l.ctx (vecField r 64 64) (vecField r 128 32) else s, code)

/-! ### Completing an access (R241 Respond) -/

/-- n bytes as a register value, sign- or zero-extended (R151). -/
def extendBytes (v : Vec) (n : Nat) (signed : Bool) : Word :=
  let x := v.toNat % 256 ^ n
  if signed then BitVec.ofInt 64 (sintOf (8 * n) x) else BitVec.ofNat 64 x

/-- Bytes of new where the mask is 1, else of old. -/
def mergeBytes (old new : Vec) (mask : BitVec 64) : Vec :=
  let m := BitVec.ofNat 512 (((List.range 64).map fun j => if mask.getLsbD j then 255 * 256 ^ j else 0).sum)
  (old &&& ~~~m) ||| (new &&& m)

/-- A word of a buffered message. -/
def setSendWord (e : SendEntry) (w : Nat) (v : Vec) : SendEntry :=
  match e with
  | .send name ch cls ws => .send name ch cls (ws.set w v)
  | e => e

def setSend (sl : Slot) (e w : Nat) (v : Vec) : Slot :=
  match sl.sends[e]? with
  | some x => { sl with sends := sl.sends.set e (setSendWord x w v) }
  | none => sl

/-- An operand block that has arrived for a matrix operation. -/
def matBlock (sl : Slot) (op pos : Nat) (v : Vec) (d : Desc) : Slot :=
  { sl with mats := sl.mats.map fun m => if m.id == op then { m with blocks := m.blocks ++ [(pos, v, d)] } else m }

/-- ACTNEW's record has been read: its actor is created, or it waits for the frames of the region (R193, R302). -/
def createFrom (s : State) (c : Nat) (i : Fin 4) (epc va : Word) (rd : Nat) (record : Vec) : State :=
  let lid := (getSlot s c i).launch
  if createWaits s c lid record then
    modSlot { s with nextId := s.nextId + 1 } c i fun sl =>
      { sl with accs := sl.accs ++ [⟨s.nextId, coreNode c, false, false, false, va, epc, .create rd record⟩] }
  else
    let (s, code) := createActor s c lid record
    modSlot s c i fun sl => sl.setVar ⟨.x, rd⟩ (BitVec.ofNat 512 code)

/-- What the completion of an access does in its slot. -/
def completeDst (s : State) (c : Nat) (i : Fin 4) (epc va : Word) (dst : AccDst) (r : MemRes) : State :=
  if r.poison then trapFrom 6 s c i causeACCESS va epc
  else match dst with
    | .none => s
    | .x rd n signed => modSlot s c i fun sl => sl.setReg ⟨.x, rd⟩ (ofWord (extendBytes r.value n signed))
    | .v rd mask shift =>
      modSlot s c i fun sl => sl.setReg ⟨.v, rd⟩ (mergeBytes (sl.getV rd) (r.value <<< (8 * shift)) mask)
    | .send e w => modSlot s c i fun sl => setSend sl e w r.value
    | .actnew rd => createFrom s c i epc va rd r.value
    | .create rd record => createFrom s c i epc va rd record
    | .tdone b =>
      if r.code != 0 then takeTrap s c i causeTASK b epc
      else modSlot s c i fun sl => { sl with sends := sl.sends ++ [.tdone b] }
    | .tarm b =>
      if r.code != 0 then takeTrap s c i causeTASK b epc
      else if tcbCount r.value = 0 then modSlot s c i fun sl => { sl with sends := sl.sends ++ [.tarmRelease b] }
      else s
    | .member rd operand =>
      if r.code != 0 then takeTrap s c i causeGROUP operand epc
      else modSlot s c i fun sl => sl.setVar ⟨.x, rd⟩ r.value
    | .query operand =>
      if r.code != 0 then
        takeTrap (modSlot s c i fun sl => { sl with sends := sl.sends.dropLast }) c i causeGROUP operand epc
      else s
    | .mat op pos => modSlot s c i fun sl => matBlock sl op pos r.value r.desc
    | .commit _ => modSlot s c i fun sl => { sl with result := some (r.code, r.value, r.desc) }

/-- A sequencer token comes back (R246). -/
def returnToken (s : State) (t : Option Seqr) : State :=
  match t with
  | some q => { s with tokens := s.tokens.filter (· != q) }
  | none => s

/-- A block of a matrix operation of an aborted activation arrives (R29, R203); poisoned, the operation is dropped. -/
def lateBlock (acc : Nat) (r : MemRes) (m : LateMat) : Option LateMat :=
  match m.accs.find? (fun a => a.id == acc) with
  | none => some m
  | some a =>
    let m := { m with accs := m.accs.filter fun x => x.id != acc }
    if r.poison then none
    else match a.dst with
      | .mat _ pos => some { m with op := { m.op with blocks := m.op.blocks ++ [(pos, r.value, r.desc)] } }
      | _ => some m

/-- An answer that may bring a trap of the instruction itself (R392) finds the slot of debug execution as if the instruction had not
issued, for one that traps has no effect (R76): its clock is the instruction's. -/
def Slot.undecided (sl : Slot) (dst : AccDst) : Slot := if sl.inDebug && dst.holdsIssue then { sl with clock := sl.clock - 1 } else sl
/-- Debug execution goes on after an answer that has brought no trap, or ends with it. -/
def Slot.decided (sl : Slot) (dst : AccDst) : Slot :=
  if sl.inDebug then debugEnds (if dst.holdsIssue then { sl with clock := sl.clock + 1 } else sl) else sl

/-- The response reaches its slot: the access completes, and a token it held is returned. An access of an activation that has
ended returns its token, and brings its block to a matrix operation that is still due. -/
def respond (s : State) (w : Who) (r : MemRes) : State :=
  let s := returnToken s w.token
  let sl := getSlot s w.core w.slot
  match sl.accs.find? (fun a => a.id == w.acc) with
  | none => modCore s w.core fun k => { k with late := k.late.filterMap (lateBlock w.acc r) }
  | some a =>
    modSlot (completeDst (setSlot s w.core w.slot { sl.undecided a.dst with accs := sl.accs.filter (fun x => x.id != w.acc) })
      w.core w.slot a.epc a.va a.dst r) w.core w.slot fun x => x.decided a.dst

/-- The ACTNEW of a slot that waits for frames makes its actor once it can. -/
def createNow (s : State) (c : Nat) (i : Fin 4) : Option State :=
  let sl := getSlot s c i
  (sl.accs.findSome? fun a => match a.dst with | .create rd r => some (a, rd, r) | _ => none).bind fun (a, rd, r) =>
    if createWaits s c sl.launch r then none
    else some (modSlot (createFrom (setSlot s c i { sl with accs := sl.accs.filter fun x => x.id != a.id }) c i a.epc a.va rd r) c i
      debugEnds)
/-- Whether an ACTNEW waits for a frame of a core. -/
def createWants (s : State) (c f : Nat) : Bool :=
  s.cores.any fun k => (slotsOf k).any fun sl => sl.accs.any fun a => match a.dst with
    | .create _ r => recordCore k.id r == c && (recordFrames s sl.ctx c r).contains f
    | _ => false

/-! ### Gates (R244 to R247) -/

/-- The Later class of a fence holds an access (R156). -/
def fenceHolds (k : FenceKind) (load store : Bool) : Bool :=
  match k with
  | .ll => load
  | .ls => store
  | .ss => store
  | .full => true
  | .engine => false

/-- The Earlier class of a fence. -/
def fenceWaitsFor (k : FenceKind) (a : Access) : Bool :=
  match k with
  | .ll => a.load
  | .ls => a.load
  | .ss => a.store
  | .full => true
  | .engine => true

/-- A fence is in force while an access it waits for is outstanding. -/
def FenceGate.open (sl : Slot) (f : FenceGate) : Bool := !f.wait.any fun id => sl.accs.any fun a => a.id == id

/-- How an instruction's accesses are ordered (R240). -/
structure Gating where
  acquire : Bool
  release : Bool
  sc      : Bool
  scope   : Scope
  load    : Bool
  store   : Bool

/-- The ORD of a write as its packet carries it (R311 OPX): 0 rlx, 1 acq, 2 rel, 3 sc. -/
def Gating.code (g : Gating) : Nat := if g.sc then 3 else if g.release then 2 else if g.acquire then 1 else 0

/-- R244, R245, R247: why the instruction's accesses may not leave yet. -/
def gate (c : Nat) (sl : Slot) (g : Gating) : Option Stall :=
  if sl.active then none
  else if sl.accs.any (·.block) then some .blocked
  else if sl.fences.any (fun f => fenceHolds f.kind g.load g.store && !f.open sl) then some .fence
  else if g.release && sl.accs.any (fun a => inReach c g.scope a.home) then some .release
  else none

/-! ### Leaving the issue point -/

/-- One access: what it does at its home, and what its response does. -/
structure Req where
  op   : MemOp
  key  : Nat
  pa   : Nat
  va   : Word
  dst  : AccDst

/-- The physical address of an operation. -/
def MemOp.pa : MemOp → Nat
  | .read pa _ => pa
  | .readBlock pa => pa
  | .readDesc pa => pa
  | .write pa _ _ => pa
  | .writeBlock pa _ _ => pa
  | .writePart pa _ _ _ => pa
  | .writeDesc pa _ => pa
  | .rmw pa _ _ _ => pa
  | .cas pa _ _ _ _ => pa
  | .tarm pa _ _ => pa
  | .tarmRelease pa => pa
  | .tdoneState pa => pa
  | .tdoneSet pa => pa
  | .decrement pa => pa

def MemOp.body (op : MemOp) (key : Nat) (w : Who) : Body :=
  match op with
  | .read _ _ => .rd op key w
  | .readBlock _ => .rd op key w
  | .readDesc _ => .rd op key w
  | .write _ _ _ => .wr op key w
  | .writeBlock _ _ _ => .wr op key w
  | .writePart _ _ _ _ => .wr op key w
  | .writeDesc _ _ => .wr op key w
  | .tdoneState _ => .rd op key w
  | _ => .amo op key w

/-- Payload flits of a request (R311). -/
def MemOp.flits (op : MemOp) : Nat :=
  match op with
  | .read _ _ => 0
  | .readBlock _ => 0
  | .readDesc _ => 0
  | .tdoneState _ => 0
  | .write _ _ m => if m.toNat < 2 ^ 32 then 1 else 2
  | .writeBlock _ _ _ => 2
  | .writePart _ _ _ _ => 2
  | _ => 1

/-- A Perform at the home of an address; a poisoned read writes the event 0x0003 (R342). -/
def performAt (s : State) (op : MemOp) (key pa : Nat) : State × MemRes :=
  let (s, r) := performMem s op key
  (if r.poison then homeMusic s (homeOf pa) 3 pa else s, r)

/-- R241 Issue: an access leaves the issue point, and its destination is claimed (R21, R392). In the core's own slice it performs and
completes at once; poisoned, it has no effect (R76, R342). -/
def leaveIssue (s : State) (c : Nat) (i : Fin 4) (g : Gating) (r : Req) : State :=
  let sl := getSlot s c i
  let home := homeOf r.pa
  if home = coreNode c then
    let t := sl.token
    let s := returnToken (setSlot s c i { sl with token := none }) t
    let (s, res) := performAt s r.op r.key r.pa
    completeDst (if res.poison then s else modSlot s c i fun sl => sl.claim r.dst.claims) c i sl.pc r.va r.dst res
  else
    let id := s.nextId
    let a : Access := ⟨id, home, g.load, g.store, g.acquire || g.sc, r.va, sl.pc, r.dst⟩
    let s := setSlot { s with nextId := id + 1 } c i { sl.claim r.dst.claims with accs := sl.accs ++ [a], token := none }
    enqueue s (coreNode c) home
      { newAccess r.op.flits sl.ctx r.va (r.op.body r.key ⟨c, i, id, sl.token⟩) with opx := g.code * 32 }

/-- One element of a memory instruction: its unit of restart (R160, R210) in bits [5:0] of idx, the value of prog NEXT that names
it, with what tells the elements of a unit apart above; its address and size, the permission, what it does at a physical address,
and what its response does. -/
structure Elem where
  idx  : Nat
  va   : Word
  size : Nat
  kind : AccessKind
  op   : Nat → MemOp
  dst  : AccDst

/-- Where an element stands by prog NEXT: at the beginning of a unit, or, where an sc access waits for its token, at an element. -/
def atPlace (next : Nat) (e : Elem) : Bool := if next < 64 then e.idx % 64 == next else e.idx == next

/-- A restartable instruction keeps its place (R39, R160). -/
def keepPlace (sl : Slot) (multi : Bool) (idx : Nat) : Slot :=
  if multi then { sl with active := true, nextReg := idx } else sl

/-- What the elements of a unit find: MISALIGN, then ACCESS, then a miss, element by element (R147, R148). -/
inductive UnitCheck where
  | ok
  | misaligned (va : Word)
  | bad (va : Word)
  | miss (va : Word) (kind : AccessKind)
  deriving DecidableEq, Repr

def checkUnit (s : State) (cluster asid : Nat) : List Elem → UnitCheck
  | [] => .ok
  | e :: rest =>
    if e.va.toNat % e.size != 0 then .misaligned e.va
    else match translate s cluster asid e.va e.kind with
      | .bad => .bad e.va
      | .miss => .miss e.va e.kind
      | .ok _ _ => checkUnit s cluster asid rest

/-- R244 to R248, R147, R148 for the elements of an instruction in ascending order. A unit is checked whole before an element of it
leaves (log 14). Each element leaves the issue point, or the instruction suspends there, or traps, with the place kept that R39
gives. begun: an element has left before; check: the unit is to be checked. Whether every element has left. -/
def runElems (c : Nat) (i : Fin 4) (g : Gating) (multi : Bool) (s : State) (begun check : Bool) : List Elem → State × Bool
  | [] => (s, true)
  | e :: rest =>
    let sl := getSlot s c i
    let q := seqrOf c sl.act g.scope
    let unit := e :: rest.takeWhile fun x => x.idx % 64 == e.idx % 64
    match (if check then checkUnit s (clusterOf c) sl.ctx unit else .ok) with
    | .misaligned va => (takeTrap (setSlot s c i (keepPlace sl (multi && begun) (e.idx % 64))) c i causeMISALIGN va sl.pc, false)
    | .bad va => (takeTrap (setSlot s c i (keepPlace sl (multi && begun) (e.idx % 64))) c i causeACCESS va sl.pc, false)
    | .miss va kind =>
      (setSlot s c i { keepPlace sl multi (e.idx % 64) with status := .walk va kind false, stall := none }, false)
    | .ok =>
      match translate s (clusterOf c) sl.ctx e.va e.kind with
      | .ok pa key =>
        if g.sc && sl.token != some q then
          (setSlot s c i { keepPlace sl multi e.idx with status := .token q, stall := none }, false)
        else
          let s := if multi && begun then setSlot s c i (keepPlace sl true (e.idx % 64)) else s
          let s := leaveIssue s c i g ⟨e.op pa, key, pa, e.va, e.dst⟩
          let next := match rest with | x :: _ => x.idx % 64 != e.idx % 64 | [] => true
          if (getSlot s c i).status == .running then runElems c i g multi s true next rest else (s, false)
      | _ => (s, false)

/-- A memory instruction in a slot that is ready: its gates, then its elements from where it stands, then it retires. multi: it is
restartable (R160, R210). -/
def memInstr (s : State) (c : Nat) (i : Fin 4) (sl : Slot) (g : Gating) (multi : Bool) (dsts : List RegRef) (es : List Elem) :
    State :=
  match gate c sl g with
  | some w => stallSlot s c i w
  | none =>
    let es := if sl.active then es.dropWhile (fun e => !atPlace sl.nextReg e) else es
    match runElems c i g multi (setSlot s c i sl) sl.active true es with
    | (s, true) => retire (modSlot s c i fun sl => { sl.claim dsts with active := false, nextReg := 0 }) c i 0 (sl.pc + 4)
    | (s, false) => s

/-! ### Physical checks shared by instructions that read or check several blocks at once -/

/-- What becomes of a list of addresses that an instruction checks before it does anything. -/
inductive Checked where
  | ok (pas : List (Nat × Nat))
  | misaligned (va : Word)
  | bad (va : Word)
  | miss (va : Word)

/-- MISALIGN, then ACCESS, address by address (R148). -/
def checkAll (s : State) (cluster asid : Nat) (kind : AccessKind) (size : Nat) : List Word → Checked
  | [] => .ok []
  | va :: r =>
    if va.toNat % size != 0 then .misaligned va
    else match translate s cluster asid va kind with
      | .bad => .bad va
      | .miss => .miss va
      | .ok pa key =>
        match checkAll s cluster asid kind size r with
        | .ok ps => .ok ((pa, key) :: ps)
        | x => x

/-! ### Walk requests (R268) -/

def walkGranule (va : Word) : Nat := va.toNat / 2 ^ 14

/-- A walk request joins the walk of its granule, or queues a new one. -/
def addWalk (asid : Nat) (va : Word) (kind : AccessKind) (cluster : Nat) (ws : List Walk) : List Walk :=
  let it (w : Walk) : Bool := w.asid == asid && w.granule == walkGranule va
  if ws.any it then
    ws.map fun w => if it w && !w.clusters.contains cluster then { w with clusters := w.clusters ++ [cluster] } else w
  else ws ++ [⟨asid, walkGranule va, va, kind, [cluster], false, none⟩]

/-- A cluster asks the walker of its die. -/
def requestWalk (s : State) (cluster asid : Nat) (va : Word) (kind : AccessKind) : State :=
  let d := getDie s (cluster / 32 % 4)
  setDie s { d with walks := addWalk asid va kind cluster d.walks }

/-- The slot waits at issue for a translation (R268). -/
def suspendWalk (s : State) (c : Nat) (i : Fin 4) (va : Word) (kind : AccessKind) : State :=
  modSlot s c i fun sl => { sl with status := .walk va kind false, stall := none }

/-- An instruction that checks all its addresses first: it traps, suspends, or goes on with their translations. -/
def withChecked (s : State) (c : Nat) (i : Fin 4) (sl : Slot) (kind : AccessKind) (size : Nat) (vas : List Word)
    (f : List (Nat × Nat) → State) : State :=
  match checkAll s (clusterOf c) sl.ctx kind size vas with
  | .misaligned va => takeTrap s c i causeMISALIGN va sl.pc
  | .bad va => takeTrap s c i causeACCESS va sl.pc
  | .miss va => suspendWalk s c i va kind
  | .ok ps => f ps

/-- A message-family access to a group home: JOIN, LEAVE and the query of a collective (R188, R189). Its packet takes the CLASS of the
operand, which is 0 for JOIN and LEAVE (DESIGN CHOICE, log 107). -/
def groupAccess (s : State) (c : Nat) (i : Fin 4) (operand : Word) (op : GroupOp) (dst : AccDst) : State :=
  let sl := getSlot s c i
  let h := groupHome operand
  if coreNode h = coreNode c then
    let (s, r) := performGroup s sl.launch operand op
    completeDst s c i sl.pc operand dst r
  else
    let id := s.nextId
    let a : Access := ⟨id, coreNode h, false, false, false, operand, sl.pc, dst⟩
    let s := setSlot { s with nextId := id + 1 } c i { sl with accs := sl.accs ++ [a] }
    enqueue s (coreNode c) (coreNode h)
      (newPacket 0 (groupClass operand) sl.ctx (.grp sl.launch operand op (some ⟨c, i, id, none⟩)))

end Sys2Proof.Machine
end

