-- ==== Sys2Proof/Machine/Scalar.lean ====
section
/-! DEFINITION. Scalar integer, bit-manipulation, jump and branch instructions (05 R104 to R114). -/
namespace Sys2Proof.Machine

/-- A register-immediate operation of latency 1 (R105, R106). -/
def aluImm (f : Word → Word) (sc : BitVec 2) (a d : BitVec 5) (s : State) : Out :=
  issueFixed s [xr a] (xr d) 1 sc fun sl => (ofWord (f (sl.rx a)), noFlags)

/-- A register-register operation (R108, R109, R111). -/
def aluReg (f : Word → Word → Word) (lat : Nat) (sc : BitVec 2) (b a d : BitVec 5) (s : State) : Out :=
  issueFixed s [xr a, xr b] (xr d) lat sc fun sl => (ofWord (f (sl.rx a) (sl.rx b)), noFlags)

/-- A one-register operation of latency 1 (R111). -/
def aluUnary (f : Word → Word) (sc : BitVec 2) (a d : BitVec 5) (s : State) : Out :=
  issueFixed s [xr a] (xr d) 1 sc fun sl => (ofWord (f (sl.rx a)), noFlags)

def boolWord (b : Bool) : Word := if b then 1 else 0

def execAddi (sc : BitVec 2) (imm : BitVec 13) (a d : BitVec 5) (s : State) : Out :=
  aluImm (fun x => x + imm.signExtend 64) sc a d s
def execAndi (sc : BitVec 2) (imm : BitVec 13) (a d : BitVec 5) (s : State) : Out :=
  aluImm (fun x => x &&& imm.signExtend 64) sc a d s
def execOri (sc : BitVec 2) (imm : BitVec 13) (a d : BitVec 5) (s : State) : Out :=
  aluImm (fun x => x ||| imm.signExtend 64) sc a d s
def execXori (sc : BitVec 2) (imm : BitVec 13) (a d : BitVec 5) (s : State) : Out :=
  aluImm (fun x => x ^^^ imm.signExtend 64) sc a d s
def execSlti (sc : BitVec 2) (imm : BitVec 13) (a d : BitVec 5) (s : State) : Out :=
  aluImm (fun x => boolWord (x.slt (imm.signExtend 64))) sc a d s
def execSltiu (sc : BitVec 2) (imm : BitVec 13) (a d : BitVec 5) (s : State) : Out :=
  aluImm (fun x => boolWord (x.ult (imm.signExtend 64))) sc a d s

def execSlli (sc : BitVec 2) (h : BitVec 6) (a d : BitVec 5) (s : State) : Out :=
  aluImm (fun x => x <<< h.toNat) sc a d s
def execSrli (sc : BitVec 2) (h : BitVec 6) (a d : BitVec 5) (s : State) : Out :=
  aluImm (fun x => x >>> h.toNat) sc a d s
def execSrai (sc : BitVec 2) (h : BitVec 6) (a d : BitVec 5) (s : State) : Out :=
  aluImm (fun x => x.sshiftRight h.toNat) sc a d s
def execRori (sc : BitVec 2) (h : BitVec 6) (a d : BitVec 5) (s : State) : Out :=
  aluImm (fun x => x.rotateRight h.toNat) sc a d s

/-- imm_U of R64: the 32-bit value of the immediate times 4,096, sign-extended. -/
def immU (imm : BitVec 20) : Word := (imm ++ 0#12).signExtend 64

/-- An instruction of the U format: SC is 0 (R63). -/
def execLui (imm : BitVec 20) (d : BitVec 5) (s : State) : Out :=
  issueFixed s [] (xr d) 1 0 fun _ => (ofWord (immU imm), noFlags)
/-- AUIPC (R112). As a word of debug execution its P is the pc of the halted activation (DESIGN CHOICE, log 68). -/
def execAuipc (imm : BitVec 20) (d : BitVec 5) (s : State) : Out :=
  issueFixed s [] (xr d) 1 0 fun sl => (ofWord (sl.pc + immU imm), noFlags)

/-- The shift amount of R108: bits [5:0]. -/
def shamt (b : Word) : Nat := b.toNat % 64

def execAdd (sc : BitVec 2) (b a d : BitVec 5) (s : State) : Out := aluReg (fun x y => x + y) 1 sc b a d s
def execSub (sc : BitVec 2) (b a d : BitVec 5) (s : State) : Out := aluReg (fun x y => x - y) 1 sc b a d s
def execAnd (sc : BitVec 2) (b a d : BitVec 5) (s : State) : Out := aluReg (fun x y => x &&& y) 1 sc b a d s
def execOr (sc : BitVec 2) (b a d : BitVec 5) (s : State) : Out := aluReg (fun x y => x ||| y) 1 sc b a d s
def execXor (sc : BitVec 2) (b a d : BitVec 5) (s : State) : Out := aluReg (fun x y => x ^^^ y) 1 sc b a d s
def execAndn (sc : BitVec 2) (b a d : BitVec 5) (s : State) : Out := aluReg (fun x y => x &&& ~~~y) 1 sc b a d s
def execSll (sc : BitVec 2) (b a d : BitVec 5) (s : State) : Out := aluReg (fun x y => x <<< shamt y) 1 sc b a d s
def execSrl (sc : BitVec 2) (b a d : BitVec 5) (s : State) : Out := aluReg (fun x y => x >>> shamt y) 1 sc b a d s
def execSra (sc : BitVec 2) (b a d : BitVec 5) (s : State) : Out :=
  aluReg (fun x y => x.sshiftRight (shamt y)) 1 sc b a d s
def execRol (sc : BitVec 2) (b a d : BitVec 5) (s : State) : Out :=
  aluReg (fun x y => x.rotateLeft (shamt y)) 1 sc b a d s
def execRor (sc : BitVec 2) (b a d : BitVec 5) (s : State) : Out :=
  aluReg (fun x y => x.rotateRight (shamt y)) 1 sc b a d s
def execSlt (sc : BitVec 2) (b a d : BitVec 5) (s : State) : Out :=
  aluReg (fun x y => boolWord (x.slt y)) 1 sc b a d s
def execSltu (sc : BitVec 2) (b a d : BitVec 5) (s : State) : Out :=
  aluReg (fun x y => boolWord (x.ult y)) 1 sc b a d s
def execMin (sc : BitVec 2) (b a d : BitVec 5) (s : State) : Out :=
  aluReg (fun x y => if x.slt y then x else y) 1 sc b a d s
def execMax (sc : BitVec 2) (b a d : BitVec 5) (s : State) : Out :=
  aluReg (fun x y => if x.slt y then y else x) 1 sc b a d s
def execMinu (sc : BitVec 2) (b a d : BitVec 5) (s : State) : Out :=
  aluReg (fun x y => if x.ult y then x else y) 1 sc b a d s
def execMaxu (sc : BitVec 2) (b a d : BitVec 5) (s : State) : Out :=
  aluReg (fun x y => if x.ult y then y else x) 1 sc b a d s

/-- Bits [127:64] of an exact product (R109). -/
def mulHigh (p : Int) : Word := BitVec.ofInt 64 (p / 2 ^ 64)

def execMul (sc : BitVec 2) (b a d : BitVec 5) (s : State) : Out := aluReg (fun x y => x * y) 3 sc b a d s
def execMulh (sc : BitVec 2) (b a d : BitVec 5) (s : State) : Out :=
  aluReg (fun x y => mulHigh (x.toInt * y.toInt)) 3 sc b a d s
def execMulhu (sc : BitVec 2) (b a d : BitVec 5) (s : State) : Out :=
  aluReg (fun x y => mulHigh ((x.toNat : Int) * (y.toNat : Int))) 3 sc b a d s
def execMulhsu (sc : BitVec 2) (b a d : BitVec 5) (s : State) : Out :=
  aluReg (fun x y => mulHigh (x.toInt * (y.toNat : Int))) 3 sc b a d s

/-- A divide (R110): variable-latency and interlocked. -/
def divide (f : Word → Word → Word) (b a d : BitVec 5) (s : State) : Out :=
  issueLocal s [xr a, xr b] [xr d] false fun sl => ([(xr d, ofWord (f (sl.rx a) (sl.rx b)))], noFlags)

def execDiv (b a d : BitVec 5) (s : State) : Out :=
  divide (fun x y => if y = 0 then -1 else BitVec.ofInt 64 (x.toInt.tdiv y.toInt)) b a d s
def execDivu (b a d : BitVec 5) (s : State) : Out :=
  divide (fun x y => if y = 0 then -1 else BitVec.ofNat 64 (x.toNat / y.toNat)) b a d s
def execRem (b a d : BitVec 5) (s : State) : Out :=
  divide (fun x y => if y = 0 then x else BitVec.ofInt 64 (x.toInt.tmod y.toInt)) b a d s
def execRemu (b a d : BitVec 5) (s : State) : Out :=
  divide (fun x y => if y = 0 then x else BitVec.ofNat 64 (x.toNat % y.toNat)) b a d s

/-- The number of 1 bits among the low n bits. -/
def popCount (x : Nat) : Nat → Nat
  | 0 => 0
  | n + 1 => x % 2 + popCount (x / 2) n
/-- Trailing zero bits, at most n. -/
def trailZeros (x : Nat) : Nat → Nat
  | 0 => 0
  | n + 1 => if x % 2 = 1 then 0 else 1 + trailZeros (x / 2) n
/-- Leading zero bits of an n-bit value. -/
def leadZeros (x : Nat) : Nat → Nat
  | 0 => 0
  | n + 1 => if x / 2 ^ n % 2 = 1 then 0 else 1 + leadZeros x n
/-- BEXT of R111: the bits of x at the set bits of m, packed from bit 0. -/
def bitExtract (x m : Nat) : Nat → Nat
  | 0 => 0
  | n + 1 => if m % 2 = 1 then x % 2 + 2 * bitExtract (x / 2) (m / 2) n else bitExtract (x / 2) (m / 2) n
/-- BDEP of R111: the low bits of x placed at the set bits of m. -/
def bitDeposit (x m : Nat) : Nat → Nat
  | 0 => 0
  | n + 1 => if m % 2 = 1 then x % 2 + 2 * bitDeposit (x / 2) (m / 2) n else 2 * bitDeposit x (m / 2) n
/-- The bytes of a value in reverse order, n of them. -/
def reverseBytes (x : Nat) : Nat → Nat
  | 0 => 0
  | n + 1 => x % 256 * 256 ^ n + reverseBytes (x / 256) n

def execClz (sc : BitVec 2) (a d : BitVec 5) (s : State) : Out :=
  aluUnary (fun x => BitVec.ofNat 64 (leadZeros x.toNat 64)) sc a d s
def execCtz (sc : BitVec 2) (a d : BitVec 5) (s : State) : Out :=
  aluUnary (fun x => BitVec.ofNat 64 (trailZeros x.toNat 64)) sc a d s
def execPopc (sc : BitVec 2) (a d : BitVec 5) (s : State) : Out :=
  aluUnary (fun x => BitVec.ofNat 64 (popCount x.toNat 64)) sc a d s
def execBext (sc : BitVec 2) (b a d : BitVec 5) (s : State) : Out :=
  aluReg (fun x m => BitVec.ofNat 64 (bitExtract x.toNat m.toNat 64)) 1 sc b a d s
def execBdep (sc : BitVec 2) (b a d : BitVec 5) (s : State) : Out :=
  aluReg (fun x m => BitVec.ofNat 64 (bitDeposit x.toNat m.toNat 64)) 1 sc b a d s
def execSextb (sc : BitVec 2) (a d : BitVec 5) (s : State) : Out :=
  aluUnary (fun x => (x.setWidth 8).signExtend 64) sc a d s
def execSexth (sc : BitVec 2) (a d : BitVec 5) (s : State) : Out :=
  aluUnary (fun x => (x.setWidth 16).signExtend 64) sc a d s
def execSextw (sc : BitVec 2) (a d : BitVec 5) (s : State) : Out :=
  aluUnary (fun x => (x.setWidth 32).signExtend 64) sc a d s
def execRev8 (sc : BitVec 2) (a d : BitVec 5) (s : State) : Out :=
  aluUnary (fun x => BitVec.ofNat 64 (reverseBytes x.toNat 8)) sc a d s

/-! ### Jumps and branches (R112 to R114) -/

/-- JAL. As a word of debug execution its P is the pc of the halted activation and its target is dropped, as every word of debug
execution leaves the pc (DESIGN CHOICE, log 68). -/
def execJal (imm : BitVec 20) (d : BitVec 5) (s : State) : Out :=
  issue s [] [xr d] fun s c i sl =>
    let s := setSlot s c i (sl.writeFix (xr d) (ofWord (sl.pc + 4)) 1)
    retire s c i 0 (sl.pc + imm.signExtend 64 * 4)

/-- JALR; as a word of debug execution as JAL is (DESIGN CHOICE, log 68). -/
def execJalr (imm : BitVec 13) (a d : BitVec 5) (s : State) : Out :=
  issue s [xr a] [xr d] fun s c i sl =>
    let t := sl.rx a + imm.signExtend 64
    if t.toNat % 4 != 0 then takeTrap s c i causeMISALIGN t sl.pc
    else
      let s := setSlot s c i (sl.writeFix (xr d) (ofWord (sl.pc + 4)) 1)
      retire s c i 0 t

/-- A branch (R114): no register is written. As a word of debug execution its target is dropped (DESIGN CHOICE, log 68). -/
def branch (cond : Word → Word → Bool) (off : BitVec 12) (b a : BitVec 5) (s : State) : Out :=
  issue s [xr a, xr b] [] fun s c i sl =>
    retire s c i 0 (if cond (sl.rx a) (sl.rx b) then sl.pc + off.signExtend 64 * 4 else sl.pc + 4)

def execBeq (off : BitVec 12) (b a : BitVec 5) (s : State) : Out := branch (fun x y => x == y) off b a s
def execBne (off : BitVec 12) (b a : BitVec 5) (s : State) : Out := branch (fun x y => x != y) off b a s
def execBlt (off : BitVec 12) (b a : BitVec 5) (s : State) : Out := branch (fun x y => x.slt y) off b a s
def execBge (off : BitVec 12) (b a : BitVec 5) (s : State) : Out := branch (fun x y => !x.slt y) off b a s
def execBltu (off : BitVec 12) (b a : BitVec 5) (s : State) : Out := branch (fun x y => x.ult y) off b a s
def execBgeu (off : BitVec 12) (b a : BitVec 5) (s : State) : Out := branch (fun x y => !x.ult y) off b a s

end Sys2Proof.Machine
end

