-- ==== Sys2Proof/Machine/Vector.lean ====
section
/-! DEFINITION. Vector, mask and merge instructions and their channel twins (06 R125 to R146). Each instruction is a
definition of its own over the shared lane operations; a twin differs from its base only in the vs1 operand. -/
namespace Sys2Proof.Machine

/-! ### Lanes (R14, R126) -/

def lane (v : Vec) (w j : Nat) : Nat := v.toNat / 2 ^ (w * j) % 2 ^ w
def maskBit (m : BitVec 64) (j : Nat) : Bool := m.getLsbD j
def ofLanes (w : Nat) (xs : List Nat) : Vec := BitVec.ofNat 512 (packElems w xs)

/-- Active lanes computed, disabled lanes as the destination held them (R16, R126). -/
def mergeLanes (w : Nat) (m : BitVec 64) (old : Vec) (f : Nat → Nat) : Vec :=
  ofLanes w ((List.range (512 / w)).map fun j => if maskBit m j then f j else lane old w j)

/-- The flags of the active lanes together (R127). -/
def laneFlags (n : Nat) (m : BitVec 64) (f : Nat → FFlags) : FFlags :=
  (List.range n).foldl (fun acc j => if maskBit m j then acc ||| f j else acc) 0

/-! ### Integer lanes (R128) -/

/-- An integer lane operation on values of w bits. -/
abbrev LaneOp := (w : Nat) → BitVec w → BitVec w → BitVec w

/-- log2(w) bits of a shift amount (R128). -/
def laneShift (w : Nat) (b : BitVec w) : Nat := b.toNat % w

def vecInt (f : LaneOp) (src : VSrc) (sc : BitVec 2) (m : BitVec 3) (w : Width) (b d : BitVec 5) (s : State) : Out :=
  issueVec s src ([vr b] ++ maskDst m d) (vr d) 2 sc fun sl a =>
    let n := w.bits
    (mergeLanes n (sl.rk m) (sl.rv d) fun j =>
      (f n (BitVec.ofNat n (lane a n j)) (BitVec.ofNat n (lane (sl.rv b) n j))).toNat, noFlags)

def vecPopc (src : VSrc) (sc : BitVec 2) (m : BitVec 3) (w : Width) (d : BitVec 5) (s : State) : Out :=
  issueVec s src (maskDst m d) (vr d) 2 sc fun sl a =>
    (mergeLanes w.bits (sl.rk m) (sl.rv d) fun j => popCount (lane a w.bits j) w.bits, noFlags)

/-- bits(sext(a) × sext(b), 2w − 1, w). -/
def laneMulh : LaneOp := fun w a b => BitVec.ofInt w ((a.toInt * b.toInt) / 2 ^ w)

/-! ### FP32 lanes (R129, R130) -/

def rmode (sl : Slot) : RMode := sl.frm.toNat

def vecFpLanes (sl : Slot) (m : BitVec 3) (d : BitVec 5) (f : Nat → Nat × FFlags) : Vec × FFlags :=
  (mergeLanes 32 (sl.rk m) (sl.rv d) fun j => (f j).1, laneFlags 16 (sl.rk m) fun j => (f j).2)

def vecFp (f : RMode → Nat → Nat → Nat × FFlags) (src : VSrc) (sc : BitVec 2) (m : BitVec 3) (x : Flush)
    (b d : BitVec 5) (s : State) : Out :=
  issueVec s src ([vr b] ++ maskDst m d) (vr d) 4 sc fun sl a =>
    vecFpLanes sl m d fun j =>
      flushOut x.fo (f (rmode sl) (flushIn x.fi (lane a 32 j)) (flushIn x.fi (lane (sl.rv b) 32 j)))

def vecDiv (src : VSrc) (m : BitVec 3) (x : Flush) (b d : BitVec 5) (s : State) : Out :=
  issueVecLocal s src ([vr b] ++ maskDst m d) [vr d] true fun sl a =>
    let r := vecFpLanes sl m d fun j =>
      flushOut x.fo (fdiv32 (rmode sl) (flushIn x.fi (lane a 32 j)) (flushIn x.fi (lane (sl.rv b) 32 j)))
    ([(vr d, r.1)], r.2)

def vecSqrt (src : VSrc) (sc : BitVec 2) (m : BitVec 3) (x : Flush) (d : BitVec 5) (s : State) : Out :=
  issueVec s src (maskDst m d) (vr d) 4 sc fun sl a =>
    vecFpLanes sl m d fun j => flushOut x.fo (fsqrt32 (rmode sl) (flushIn x.fi (lane a 32 j)))

def vecAbs (src : VSrc) (sc : BitVec 2) (m : BitVec 3) (d : BitVec 5) (s : State) : Out :=
  issueVec s src (maskDst m d) (vr d) 4 sc fun sl a => vecFpLanes sl m d fun j => (lane a 32 j % 2 ^ 31, noFlags)

/-- R130: vd is the addend and always a source. -/
def vecFma (negP negC : Bool) (src : VSrc) (sc : BitVec 2) (m : BitVec 3) (x : Flush) (b d : BitVec 5) (s : State) : Out :=
  issueVec s src ([vr b, vr d] ++ maskSrc m) (vr d) 4 sc fun sl a =>
    vecFpLanes sl m d fun j =>
      flushOut x.fo (fma32 negP negC (rmode sl) (flushIn x.fi (lane a 32 j)) (flushIn x.fi (lane (sl.rv b) 32 j))
        (flushIn x.fi (lane (sl.rv d) 32 j)))

/-! ### Comparisons (R131) -/

/-- The predicate of n lanes: bit j is lane j's condition where the lane is active, higher bits 0 (R15). -/
def predicate (n : Nat) (m : BitVec 64) (f : Nat → Bool) : Vec :=
  BitVec.ofNat 512 (packElems 1 ((List.range n).map fun j => if maskBit m j && f j then 1 else 0))

def vecCmp (f : (w : Nat) → BitVec w → BitVec w → Bool) (src : VSrc) (sc : BitVec 2) (m : BitVec 3) (w : Width)
    (b : BitVec 5) (d : BitVec 3) (s : State) : Out :=
  issueVec s src ([vr b] ++ maskSrc m) (kr d) 2 sc fun sl a =>
    let n := w.bits
    (predicate w.lanes (sl.rk m) fun j =>
      f n (BitVec.ofNat n (lane a n j)) (BitVec.ofNat n (lane (sl.rv b) n j)), noFlags)

def vecFcmp (f : FVal → FVal → Bool) (quietNv : Bool) (src : VSrc) (sc : BitVec 2) (m : BitVec 3) (fi : Bool)
    (b : BitVec 5) (d : BitVec 3) (s : State) : Out :=
  issueVec s src ([vr b] ++ maskSrc m) (kr d) 4 sc fun sl a =>
    let va := fun j => fp32 (flushIn fi (lane a 32 j))
    let vb := fun j => fp32 (flushIn fi (lane (sl.rv b) 32 j))
    (predicate 16 (sl.rk m) fun j => f (va j) (vb j),
     laneFlags 16 (sl.rk m) fun j =>
       flagIf ((va j).isSnan || (vb j).isSnan || (quietNv && ((va j).isNan || (vb j).isNan))) flagNV)

/-! ### Bit logic (R132, R133) -/

/-- The three-input function of a truth table at every bit. -/
def bool3 (t : BitVec 8) (a b d : Vec) : Vec :=
  (List.range 8).foldl (fun acc k =>
    if t.getLsbD k then
      acc ||| ((if k / 4 % 2 = 1 then a else ~~~a) &&& (if k / 2 % 2 = 1 then b else ~~~b)
        &&& (if k % 2 = 1 then d else ~~~d))
    else acc) 0

def vecBool3 (src : VSrc) (sc : BitVec 2) (t : BitVec 8) (b d : BitVec 5) (s : State) : Out :=
  issueVec s src [vr b, vr d] (vr d) 1 sc fun sl a => (bool3 t a (sl.rv b) (sl.rv d), noFlags)

def vecFunnel (left : Bool) (src : VSrc) (sc : BitVec 2) (h : BitVec 6) (b d : BitVec 5) (s : State) : Out :=
  issueVec s src [vr b] (vr d) 1 sc fun sl a =>
    let n := h.toNat
    (ofLanes 64 ((List.range 8).map fun j =>
      let x := lane a 64 j
      let y := lane (sl.rv b) 64 j
      if n = 0 then x
      else if left then (x * 2 ^ n + y / 2 ^ (64 - n)) % 2 ^ 64
      else x / 2 ^ n + y * 2 ^ (64 - n) % 2 ^ 64), noFlags)

def vecRotate (left : Bool) (src : VSrc) (sc : BitVec 2) (h : BitVec 6) (d : BitVec 5) (s : State) : Out :=
  issueVec s src [] (vr d) 1 sc fun _ a =>
    (ofLanes 64 ((List.range 8).map fun j =>
      let x := BitVec.ofNat 64 (lane a 64 j)
      (if left then x.rotateLeft h.toNat else x.rotateRight h.toNat).toNat), noFlags)

/-! ### Reductions and scans (R134, R135) -/

/-- The active lanes of a vector, in ascending order. -/
def activeLanes (w : Nat) (m : BitVec 64) (a : Vec) : List Nat :=
  ((List.range (512 / w)).filter (maskBit m)).map (lane a w)

/-- Lane 0 replaced. -/
def withLane0 (w : Nat) (old : Vec) (v : Nat) : Vec :=
  ofLanes w ((List.range (512 / w)).map fun j => if j = 0 then v else lane old w j)

def vecRed (f : LaneOp) (none : Nat → Nat) (src : VSrc) (sc : BitVec 2) (m : BitVec 3) (w : Width) (d : BitVec 5)
    (s : State) : Out :=
  issueVec s src ([vr d] ++ maskSrc m) (vr d) 4 sc fun sl a =>
    let n := w.bits
    let r := match activeLanes n (sl.rk m) a with
      | [] => none n
      | x :: rest => rest.foldl (fun acc y => (f n (BitVec.ofNat n acc) (BitVec.ofNat n y)).toNat) x
    (withLane0 n (sl.rv d) r, noFlags)

/-- R134: the lowest active lane enters as the first partial result. -/
def fpFirst (x : Flush) (v : Nat) : Nat × FFlags :=
  let v := flushIn x.fi v
  let q := fp32 v
  if q.isNan then (fmtFP32.nanBits, flagIf q.isSnan flagNV) else flushOut x.fo (v, 0)

/-- The partial results of an FP reduction in ascending order, each with the flags so far. -/
def fpPartials (f : RMode → Nat → Nat → Nat × FFlags) (mode : RMode) (x : Flush) :
    Option (Nat × FFlags) → List Nat → List (Nat × FFlags)
  | _, [] => []
  | none, v :: r => fpFirst x v :: fpPartials f mode x (some (fpFirst x v)) r
  | some (acc, fl), v :: r =>
    let q := flushOut x.fo (f mode acc (flushIn x.fi v))
    (q.1, q.2 ||| fl) :: fpPartials f mode x (some (q.1, q.2 ||| fl)) r

def vecFred (f : RMode → Nat → Nat → Nat × FFlags) (none : Nat) (src : VSrc) (sc : BitVec 2) (m : BitVec 3) (x : Flush)
    (d : BitVec 5) (s : State) : Out :=
  issueVec s src ([vr d] ++ maskSrc m) (vr d) 8 sc fun sl a =>
    let r := ((fpPartials f (rmode sl) x Option.none (activeLanes 32 (sl.rk m) a)).getLast?).getD (none, 0)
    (withLane0 32 (sl.rv d) r.1, r.2)

/-- Results of the active lanes put back in their places. -/
def scatterActive (w : Nat) (m : BitVec 64) (old : Vec) (rs : List Nat) : Vec :=
  mergeLanes w m old fun j => rs.getD ((List.range j).filter (maskBit m)).length 0

def scanSums (w : Nat) (acc : Nat) : List Nat → List Nat
  | [] => []
  | x :: r => (acc + x) % 2 ^ w :: scanSums w ((acc + x) % 2 ^ w) r

def vecScan (src : VSrc) (sc : BitVec 2) (m : BitVec 3) (w : Width) (d : BitVec 5) (s : State) : Out :=
  issueVec s src (maskDst m d) (vr d) 4 sc fun sl a =>
    (scatterActive w.bits (sl.rk m) (sl.rv d) (scanSums w.bits 0 (activeLanes w.bits (sl.rk m) a)), noFlags)

def vecFscan (src : VSrc) (sc : BitVec 2) (m : BitVec 3) (x : Flush) (d : BitVec 5) (s : State) : Out :=
  issueVec s src (maskDst m d) (vr d) 8 sc fun sl a =>
    let rs := fpPartials fadd32 (rmode sl) x none (activeLanes 32 (sl.rk m) a)
    (scatterActive 32 (sl.rk m) (sl.rv d) (rs.map (·.1)), (rs.getLast?.map (·.2)).getD 0)

/-! ### Permutations and selection (R136) -/

def laneOr0 (a : Vec) (w i : Nat) : Nat := if i < 512 / w then lane a w i else 0

def vecPerm (src : VSrc) (sc : BitVec 2) (m : BitVec 3) (w : Width) (b d : BitVec 5) (s : State) : Out :=
  issueVec s src ([vr b] ++ maskDst m d) (vr d) 2 sc fun sl a =>
    (mergeLanes w.bits (sl.rk m) (sl.rv d) fun j => laneOr0 a w.bits (lane (sl.rv b) w.bits j), noFlags)

/-- A permutation whose vs2 field names an x register: f gives the source lane of lane j, or none for 0. -/
def vecSlide (f : Nat → Nat → Option Nat) (src : VSrc) (sc : BitVec 2) (m : BitVec 3) (w : Width) (b d : BitVec 5)
    (s : State) : Out :=
  issueVec s src ([xr b] ++ maskDst m d) (vr d) 2 sc fun sl a =>
    (mergeLanes w.bits (sl.rk m) (sl.rv d) fun j =>
      match f j (sl.rx b).toNat with
      | some i => laneOr0 a w.bits i
      | none => 0, noFlags)

/-- vd is always read. -/
def vecCompress (src : VSrc) (sc : BitVec 2) (m : BitVec 3) (w : Width) (d : BitVec 5) (s : State) : Out :=
  issueVec s src ([vr d] ++ maskSrc m) (vr d) 2 sc fun sl a =>
    let xs := activeLanes w.bits (sl.rk m) a
    (ofLanes w.bits ((List.range w.lanes).map fun j => if j < xs.length then xs.getD j 0 else lane (sl.rv d) w.bits j),
     noFlags)

def vecExpand (src : VSrc) (sc : BitVec 2) (m : BitVec 3) (w : Width) (d : BitVec 5) (s : State) : Out :=
  issueVec s src (maskDst m d) (vr d) 2 sc fun sl a =>
    (scatterActive w.bits (sl.rk m) (sl.rv d) ((List.range w.lanes).map (lane a w.bits)), noFlags)

/-- vd is not read. -/
def vecSel (src : VSrc) (sc : BitVec 2) (m : BitVec 3) (w : Width) (b d : BitVec 5) (s : State) : Out :=
  issueVec s src ([vr b] ++ maskSrc m) (vr d) 2 sc fun sl a =>
    (mergeLanes w.bits (sl.rk m) (sl.rv b) fun j => lane a w.bits j, noFlags)

def vecMv (src : VSrc) (sc : BitVec 2) (m : BitVec 3) (w : Width) (d : BitVec 5) (s : State) : Out :=
  issueVec s src (maskDst m d) (vr d) 2 sc fun sl a =>
    (mergeLanes w.bits (sl.rk m) (sl.rv d) fun j => lane a w.bits j, noFlags)

/-! ### The streaming merge unit (R137, R138) -/

/-- Where a merge stands. -/
structure MergeAt where
  i    : Nat
  j    : Nat
  done : Bool

/-- The while loop of R138: the next output and its origin. Each turn consumes a lane, so 2n + 1 turns are enough. -/
def mergeNext (union : Bool) (w : Nat) (x y : Vec) (st : MergeAt) : Nat → Nat × Nat × MergeAt
  | 0 => (2 ^ w - 1, 0, st)
  | fuel + 1 =>
    let sent := 2 ^ w - 1
    if st.done then (sent, 0, st)
    else
      let a := if st.i < 512 / w then lane x w st.i else sent
      let b := if st.j < 512 / w then lane y w st.j else sent
      if a = sent && b = sent then (sent, 0, { st with done := true })
      else if !union && (a = sent || b = sent) then (sent, 0, { st with done := true })
      else if a = b then (a, (0x80 + st.i) * 256 + 0x80 + st.j, ⟨st.i + 1, st.j + 1, false⟩)
      else if a < b then
        if union then (a, (0x80 + st.i) * 256, ⟨st.i + 1, st.j, false⟩)
        else mergeNext union w x y ⟨st.i + 1, st.j, false⟩ fuel
      else
        if union then (b, 0x80 + st.j, ⟨st.i, st.j + 1, false⟩)
        else mergeNext union w x y ⟨st.i, st.j + 1, false⟩ fuel

/-- The outputs of the active lanes, in order. -/
def mergeRun (union : Bool) (w : Nat) (x y : Vec) : MergeAt → Nat → List (Nat × Nat) × MergeAt
  | st, 0 => ([], st)
  | st, n + 1 =>
    let r := mergeNext union w x y st (2 * (512 / w) + 1)
    let rest := mergeRun union w x y r.2.2 n
    ((r.1, r.2.1) :: rest.1, rest.2)

def vecMerge (union : Bool) (src : VSrc) (m : BitVec 3) (w : Width) (b d : BitVec 5) (s : State) : Out :=
  issueVecLocal s src ([vr b] ++ (if m = 0 then [] else [kr m, vr d, vr (d + 1)])) [vr d, vr (d + 1), vr (d + 2)] false
    fun sl a =>
      let n := w.bits
      let k := sl.rk m
      let r := mergeRun union n a (sl.rv b) ⟨0, 0, false⟩ ((List.range w.lanes).filter (maskBit k)).length
      let made := (r.1.filter (fun p => p.1 != 2 ^ n - 1)).length
      ([(vr d, scatterActive n k (sl.rv d) (r.1.map (·.1))),
        (vr (d + 1), scatterActive n k (sl.rv (d + 1)) (r.1.map (·.2))),
        (vr (d + 2), ofLanes n [r.2.i, r.2.j, made])], noFlags)

/-! ### Conversions and typed blocks (R139 to R142) -/

/-- The conversion of a code (R139): result bits and flags from the lane's value. -/
def convert (code : Nat) (mode : RMode) (w x : Nat) : Nat × FFlags :=
  let fp := fun f n => fdecode f (x % 2 ^ n)
  let int := fun lo hi (v : FVal) => let r := toIntRange mode lo hi v; (toBits w r.1, r.2)
  match code with
  | 0 => fencode fmtBF16 mode (fp fmtFP32 32)
  | 1 => fencode fmtFP16 mode (fp fmtFP32 32)
  | 2 => fencode fmtFP32 mode (fp fmtBF16 16)
  | 3 => fencode fmtFP32 mode (fp fmtFP16 16)
  | 4 => fencode fmtFP16 mode (fp fmtBF16 16)
  | 5 => fencode fmtBF16 mode (fp fmtFP16 16)
  | 6 => fencode fmtFP32 mode (intVal (sintOf 32 x))
  | 7 => fencode fmtFP32 mode (intVal (x % 2 ^ 32 : Nat))
  | 8 => fencode fmtFP32 mode (intVal (sintOf 64 x))
  | 9 => fencode fmtFP32 mode (intVal (x % 2 ^ 64 : Nat))
  | 10 => int (-(2 ^ 31)) (2 ^ 31 - 1) (fp fmtFP32 32)
  | 11 => int 0 (2 ^ 32 - 1) (fp fmtFP32 32)
  | 12 => int (-(2 ^ 63)) (2 ^ 63 - 1) (fp fmtFP32 32)
  | 13 => int 0 (2 ^ 64 - 1) (fp fmtFP32 32)
  | 14 => fencode fmtFP32 mode (intVal (sintOf 8 x))
  | 15 => fencode fmtBF16 mode (intVal (sintOf 8 x))
  | 16 => (toBits w (saturate (-128) 127 (sintOf 32 x)), 0)
  | _ => (toBits w (saturate (-(2 ^ 31)) (2 ^ 31 - 1) (sintOf 64 x)), 0)

def execVcvt (sc : BitVec 2) (m : BitVec 3) (w : Width) (k a d : BitVec 5) (s : State) : Out :=
  issueVec s (.reg a) (maskDst m d) (vr d) 3 sc fun sl x =>
    let f := fun j => convert k.toNat (rmode sl) w.bits (lane x w.bits j)
    (mergeLanes w.bits (sl.rk m) (sl.rv d) fun j => (f j).1, laneFlags w.lanes (sl.rk m) fun j => (f j).2)

/-- Elements per block of a format code (R77). -/
def blockElems (fmt : Nat) : Nat := 512 / fmtBits fmt

/-- The run-time checks of R140 on the x operand of VTBDEC and VTBENC. -/
def tblockOk (x : Word) (n : Nat) : Bool :=
  let fmt := x.toNat / 16 % 16
  let e0 := x.toNat / 2 ^ 16 % 512
  x.toNat < 2 ^ 25 && 1 ≤ fmt && fmt ≤ 7 && e0 % n = 0 && e0 < blockElems fmt

/-- The FP32 or BF16 lane format that w selects (R140). -/
def laneFmt (w : Width) : FFmt := if w.bits = 16 then fmtBF16 else fmtFP32

def decodeElems (sl : Slot) (w : Width) (blk : Vec) (x : Word) (j : Nat) : Nat × FFlags :=
  let fmt := x.toNat / 16 % 16
  let i := x.toNat / 2 ^ 16 % 512 + j
  if i < blockElems fmt then
    match dxExps (x.setWidth 16), (fmt = 4 || fmt = 5 : Bool) with
    | none, true => ((laneFmt w).nanBits, 0)
    | _, _ => fencode (laneFmt w) (rmode sl) (elementValue fmt (x.setWidth 16) (element blk fmt i))
  else (0, 0)

/-- Typed-block instructions: the checks come after EARLYREAD and trap ILLEGAL with the word (R140). -/
def tblock (word : BitVec 32) (srcs : List RegRef) (sc : BitVec 2) (w : Width) (b d : BitVec 5)
    (f : Slot → Word → Vec × FFlags) (s : State) : Out :=
  issue s srcs [vr d] fun s c i sl =>
    let x := sl.rx b
    if tblockOk x w.lanes then
      let r := f sl x
      retire (setSlot s c i (accrueAt (sl.writeFix (vr d) r.1 3) r.2 3)) c i sc.toNat (sl.pc + 4)
    else takeTrap s c i causeILLEGAL (word.setWidth 64) sl.pc

def execVtbdec (sc : BitVec 2) (m : BitVec 3) (w : Width) (b a d : BitVec 5) (s : State) : Out :=
  tblock (encode (.vtbdec sc m w b a d)) ([vr a, xr b] ++ maskDst m d) sc w b d (fun sl x =>
    let f := decodeElems sl w (sl.rv a) x
    (mergeLanes w.bits (sl.rk m) (sl.rv d) fun j => (f j).1, laneFlags w.lanes (sl.rk m) fun j => (f j).2)) s

/-- The code of one encoded element, with its flags (R142). -/
def encodeElem (mode : RMode) (fmt : Nat) (desc : Desc) (v : FVal) : Nat × FFlags :=
  match fmt with
  | 1 => fencode fmtFP32 mode v
  | 2 => fencode fmtBF16 mode v
  | 3 => fencode fmtFP16 mode v
  | 6 => let r := toIntRange mode (-128) 127 v; (toBits 8 r.1, r.2)
  | 7 => (if !v.isNan && !v.isZero && !v.isNeg then 1 else 0, flagIf v.isNan flagNV)
  | _ =>
    match dxExps desc, v with
    | some (hi, _), .fin neg m e => dxEncode (fmt = 4) mode hi (desc.toNat % 16) neg m e
    | _, _ => (0, flagNV)

def execVtbenc (sc : BitVec 2) (m : BitVec 3) (w : Width) (b a d : BitVec 5) (s : State) : Out :=
  tblock (encode (.vtbenc sc m w b a d)) ([vr a, xr b, vr d] ++ maskSrc m) sc w b d (fun sl x =>
    let fmt := x.toNat / 16 % 16
    let e0 := x.toNat / 2 ^ 16 % 512
    let f := fun j => encodeElem (rmode sl) fmt (x.setWidth 16) (fdecode (laneFmt w) (lane (sl.rv a) w.bits j))
    let act := fun i => e0 ≤ i && i < e0 + w.lanes && maskBit (sl.rk m) (i - e0)
    (ofLanes (fmtBits fmt) ((List.range (blockElems fmt)).map fun i =>
      if act i then (f (i - e0)).1 else element (sl.rv d) fmt i),
     (List.range w.lanes).foldl (fun acc j =>
       if maskBit (sl.rk m) j && e0 + j < blockElems fmt then acc ||| (f j).2 else acc) 0)) s

/-! ### Moves between files and mask instructions (R143 to R145) -/

def execVmvx (sc : BitVec 2) (m : BitVec 3) (w : Width) (a d : BitVec 5) (s : State) : Out :=
  issueFixed s ([xr a] ++ maskDst m d) (vr d) 2 sc fun sl =>
    (mergeLanes w.bits (sl.rk m) (sl.rv d) fun j => if j = 0 then (sl.rx a).toNat % 2 ^ w.bits else 0, noFlags)

def execVmvxv (sc : BitVec 2) (w : Width) (a d : BitVec 5) (s : State) : Out :=
  issueFixed s [vr a] (xr d) 2 sc fun sl =>
    (BitVec.ofNat 512 (toBits 64 (sintOf w.bits (lane (sl.rv a) w.bits 0))), noFlags)

def maskOp (f : BitVec 64 → BitVec 64 → BitVec 64) (sc : BitVec 2) (b a d : BitVec 3) (s : State) : Out :=
  issueFixed s [kr a, kr b] (kr d) 1 sc fun sl => ((f (sl.rk a) (sl.rk b)).setWidth 512, noFlags)

def execKand (sc : BitVec 2) (b a d : BitVec 3) (s : State) : Out := maskOp (fun x y => x &&& y) sc b a d s
def execKor (sc : BitVec 2) (b a d : BitVec 3) (s : State) : Out := maskOp (fun x y => x ||| y) sc b a d s
def execKxor (sc : BitVec 2) (b a d : BitVec 3) (s : State) : Out := maskOp (fun x y => x ^^^ y) sc b a d s
def execKandn (sc : BitVec 2) (b a d : BitVec 3) (s : State) : Out := maskOp (fun x y => x &&& ~~~y) sc b a d s
def execKnot (sc : BitVec 2) (a d : BitVec 3) (s : State) : Out :=
  issueFixed s [kr a] (kr d) 1 sc fun sl => ((~~~(sl.rk a)).setWidth 512, noFlags)
def execKmvKToX (sc : BitVec 2) (a : BitVec 3) (d : BitVec 5) (s : State) : Out :=
  issueFixed s [kr a] (xr d) 1 sc fun sl => (ofWord (sl.rk a), noFlags)
def execKmvXToK (sc : BitVec 2) (a : BitVec 5) (d : BitVec 3) (s : State) : Out :=
  issueFixed s [xr a] (kr d) 1 sc fun sl => (ofWord (sl.rx a), noFlags)
def execKpopc (sc : BitVec 2) (a : BitVec 3) (d : BitVec 5) (s : State) : Out :=
  issueFixed s [kr a] (xr d) 1 sc fun sl => (ofWord (BitVec.ofNat 64 (popCount (sl.rk a).toNat 64)), noFlags)
def execKfirst (sc : BitVec 2) (a : BitVec 3) (d : BitVec 5) (s : State) : Out :=
  issueFixed s [kr a] (xr d) 1 sc fun sl => (ofWord (BitVec.ofNat 64 (trailZeros (sl.rk a).toNat 64)), noFlags)

/-! ### The instructions of majors 0x40 to 0x4A and their twins -/

/-- VADD (R128). -/
def execVadd (sc : BitVec 2) (m : BitVec 3) (w : Width) (b a d : BitVec 5) (s : State) : Out :=
  vecInt (fun _ x y => x + y) (.reg a) sc m w b d s

/-- VSUB (R128). -/
def execVsub (sc : BitVec 2) (m : BitVec 3) (w : Width) (b a d : BitVec 5) (s : State) : Out :=
  vecInt (fun _ x y => x - y) (.reg a) sc m w b d s

/-- VMUL (R128). -/
def execVmul (sc : BitVec 2) (m : BitVec 3) (w : Width) (b a d : BitVec 5) (s : State) : Out :=
  vecInt (fun _ x y => x * y) (.reg a) sc m w b d s

/-- VMULH (R128). -/
def execVmulh (sc : BitVec 2) (m : BitVec 3) (w : Width) (b a d : BitVec 5) (s : State) : Out :=
  vecInt laneMulh (.reg a) sc m w b d s

/-- VMIN (R128). -/
def execVmin (sc : BitVec 2) (m : BitVec 3) (w : Width) (b a d : BitVec 5) (s : State) : Out :=
  vecInt (fun _ x y => if x.slt y then x else y) (.reg a) sc m w b d s

/-- VMAX (R128). -/
def execVmax (sc : BitVec 2) (m : BitVec 3) (w : Width) (b a d : BitVec 5) (s : State) : Out :=
  vecInt (fun _ x y => if x.slt y then y else x) (.reg a) sc m w b d s

/-- VMINU (R128). -/
def execVminu (sc : BitVec 2) (m : BitVec 3) (w : Width) (b a d : BitVec 5) (s : State) : Out :=
  vecInt (fun _ x y => if x.ult y then x else y) (.reg a) sc m w b d s

/-- VMAXU (R128). -/
def execVmaxu (sc : BitVec 2) (m : BitVec 3) (w : Width) (b a d : BitVec 5) (s : State) : Out :=
  vecInt (fun _ x y => if x.ult y then y else x) (.reg a) sc m w b d s

/-- VAND (R128). -/
def execVand (sc : BitVec 2) (m : BitVec 3) (w : Width) (b a d : BitVec 5) (s : State) : Out :=
  vecInt (fun _ x y => x &&& y) (.reg a) sc m w b d s

/-- VOR (R128). -/
def execVor (sc : BitVec 2) (m : BitVec 3) (w : Width) (b a d : BitVec 5) (s : State) : Out :=
  vecInt (fun _ x y => x ||| y) (.reg a) sc m w b d s

/-- VXOR (R128). -/
def execVxor (sc : BitVec 2) (m : BitVec 3) (w : Width) (b a d : BitVec 5) (s : State) : Out :=
  vecInt (fun _ x y => x ^^^ y) (.reg a) sc m w b d s

/-- VANDN (R128). -/
def execVandn (sc : BitVec 2) (m : BitVec 3) (w : Width) (b a d : BitVec 5) (s : State) : Out :=
  vecInt (fun _ x y => x &&& ~~~y) (.reg a) sc m w b d s

/-- VSHL (R128). -/
def execVshl (sc : BitVec 2) (m : BitVec 3) (w : Width) (b a d : BitVec 5) (s : State) : Out :=
  vecInt (fun w x y => x <<< laneShift w y) (.reg a) sc m w b d s

/-- VSHR (R128). -/
def execVshr (sc : BitVec 2) (m : BitVec 3) (w : Width) (b a d : BitVec 5) (s : State) : Out :=
  vecInt (fun w x y => x >>> laneShift w y) (.reg a) sc m w b d s

/-- VSHRA (R128). -/
def execVshra (sc : BitVec 2) (m : BitVec 3) (w : Width) (b a d : BitVec 5) (s : State) : Out :=
  vecInt (fun w x y => x.sshiftRight (laneShift w y)) (.reg a) sc m w b d s

/-- VPOPC (R128). -/
def execVpopc (sc : BitVec 2) (m : BitVec 3) (w : Width) (a d : BitVec 5) (s : State) : Out :=
  vecPopc (.reg a) sc m w d s

/-- VFADD (R129). -/
def execVfadd (sc : BitVec 2) (m : BitVec 3) (f : Flush) (b a d : BitVec 5) (s : State) : Out :=
  vecFp fadd32 (.reg a) sc m f b d s

/-- VFSUB (R129). -/
def execVfsub (sc : BitVec 2) (m : BitVec 3) (f : Flush) (b a d : BitVec 5) (s : State) : Out :=
  vecFp fsub32 (.reg a) sc m f b d s

/-- VFMUL (R129). -/
def execVfmul (sc : BitVec 2) (m : BitVec 3) (f : Flush) (b a d : BitVec 5) (s : State) : Out :=
  vecFp fmul32 (.reg a) sc m f b d s

/-- VFDIV (R129). -/
def execVfdiv (m : BitVec 3) (f : Flush) (b a d : BitVec 5) (s : State) : Out :=
  vecDiv (.reg a) m f b d s

/-- VFMIN (R129). -/
def execVfmin (sc : BitVec 2) (m : BitVec 3) (f : Flush) (b a d : BitVec 5) (s : State) : Out :=
  vecFp (fun _ x y => fminmax32 false x y) (.reg a) sc m f b d s

/-- VFMAX (R129). -/
def execVfmax (sc : BitVec 2) (m : BitVec 3) (f : Flush) (b a d : BitVec 5) (s : State) : Out :=
  vecFp (fun _ x y => fminmax32 true x y) (.reg a) sc m f b d s

/-- VFSQRT (R129). -/
def execVfsqrt (sc : BitVec 2) (m : BitVec 3) (f : Flush) (a d : BitVec 5) (s : State) : Out :=
  vecSqrt (.reg a) sc m f d s

/-- VFABS (R129). -/
def execVfabs (sc : BitVec 2) (m : BitVec 3) (a d : BitVec 5) (s : State) : Out :=
  vecAbs (.reg a) sc m d s

/-- VFMA (R130). -/
def execVfma (sc : BitVec 2) (m : BitVec 3) (f : Flush) (b a d : BitVec 5) (s : State) : Out :=
  vecFma false false (.reg a) sc m f b d s

/-- VFMS (R130). -/
def execVfms (sc : BitVec 2) (m : BitVec 3) (f : Flush) (b a d : BitVec 5) (s : State) : Out :=
  vecFma false true (.reg a) sc m f b d s

/-- VFNMA (R130). -/
def execVfnma (sc : BitVec 2) (m : BitVec 3) (f : Flush) (b a d : BitVec 5) (s : State) : Out :=
  vecFma true true (.reg a) sc m f b d s

/-- VFNMS (R130). -/
def execVfnms (sc : BitVec 2) (m : BitVec 3) (f : Flush) (b a d : BitVec 5) (s : State) : Out :=
  vecFma true false (.reg a) sc m f b d s

/-- VCMPEQ (R131). -/
def execVcmpeq (sc : BitVec 2) (m : BitVec 3) (w : Width) (b a : BitVec 5) (d : BitVec 3) (s : State) : Out :=
  vecCmp (fun _ x y => x == y) (.reg a) sc m w b d s

/-- VCMPNE (R131). -/
def execVcmpne (sc : BitVec 2) (m : BitVec 3) (w : Width) (b a : BitVec 5) (d : BitVec 3) (s : State) : Out :=
  vecCmp (fun _ x y => x != y) (.reg a) sc m w b d s

/-- VCMPLT (R131). -/
def execVcmplt (sc : BitVec 2) (m : BitVec 3) (w : Width) (b a : BitVec 5) (d : BitVec 3) (s : State) : Out :=
  vecCmp (fun _ x y => x.slt y) (.reg a) sc m w b d s

/-- VCMPLE (R131). -/
def execVcmple (sc : BitVec 2) (m : BitVec 3) (w : Width) (b a : BitVec 5) (d : BitVec 3) (s : State) : Out :=
  vecCmp (fun _ x y => x.sle y) (.reg a) sc m w b d s

/-- VCMPLTU (R131). -/
def execVcmpltu (sc : BitVec 2) (m : BitVec 3) (w : Width) (b a : BitVec 5) (d : BitVec 3) (s : State) : Out :=
  vecCmp (fun _ x y => x.ult y) (.reg a) sc m w b d s

/-- VCMPLEU (R131). -/
def execVcmpleu (sc : BitVec 2) (m : BitVec 3) (w : Width) (b a : BitVec 5) (d : BitVec 3) (s : State) : Out :=
  vecCmp (fun _ x y => x.ule y) (.reg a) sc m w b d s

/-- VFCMPEQ (R131). -/
def execVfcmpeq (sc : BitVec 2) (m : BitVec 3) (fi : Bool) (b a : BitVec 5) (d : BitVec 3) (s : State) : Out :=
  vecFcmp fequal false (.reg a) sc m fi b d s

/-- VFCMPLT (R131). -/
def execVfcmplt (sc : BitVec 2) (m : BitVec 3) (fi : Bool) (b a : BitVec 5) (d : BitVec 3) (s : State) : Out :=
  vecFcmp fless true (.reg a) sc m fi b d s

/-- VFCMPLE (R131). -/
def execVfcmple (sc : BitVec 2) (m : BitVec 3) (fi : Bool) (b a : BitVec 5) (d : BitVec 3) (s : State) : Out :=
  vecFcmp (fun x y => fless x y || fequal x y) true (.reg a) sc m fi b d s

/-- VFCMPUN (R131). -/
def execVfcmpun (sc : BitVec 2) (m : BitVec 3) (fi : Bool) (b a : BitVec 5) (d : BitVec 3) (s : State) : Out :=
  vecFcmp (fun x y => x.isNan || y.isNan) false (.reg a) sc m fi b d s

/-- VBOOL3 (R132). -/
def execVbool3 (sc : BitVec 2) (t : BitVec 8) (b a d : BitVec 5) (s : State) : Out :=
  vecBool3 (.reg a) sc t b d s

/-- VFSHL (R133). -/
def execVfshl (sc : BitVec 2) (h : BitVec 6) (b a d : BitVec 5) (s : State) : Out :=
  vecFunnel true (.reg a) sc h b d s

/-- VFSHR (R133). -/
def execVfshr (sc : BitVec 2) (h : BitVec 6) (b a d : BitVec 5) (s : State) : Out :=
  vecFunnel false (.reg a) sc h b d s

/-- VROTL (R133). -/
def execVrotl (sc : BitVec 2) (h : BitVec 6) (a d : BitVec 5) (s : State) : Out :=
  vecRotate true (.reg a) sc h d s

/-- VROTR (R133). -/
def execVrotr (sc : BitVec 2) (h : BitVec 6) (a d : BitVec 5) (s : State) : Out :=
  vecRotate false (.reg a) sc h d s

/-- VREDSUM (R134). -/
def execVredsum (sc : BitVec 2) (m : BitVec 3) (w : Width) (a d : BitVec 5) (s : State) : Out :=
  vecRed (fun _ x y => x + y) (fun _ => 0) (.reg a) sc m w d s

/-- VREDMIN (R134). -/
def execVredmin (sc : BitVec 2) (m : BitVec 3) (w : Width) (a d : BitVec 5) (s : State) : Out :=
  vecRed (fun _ x y => if x.slt y then x else y) (fun w => 2 ^ (w - 1) - 1) (.reg a) sc m w d s

/-- VREDMAX (R134). -/
def execVredmax (sc : BitVec 2) (m : BitVec 3) (w : Width) (a d : BitVec 5) (s : State) : Out :=
  vecRed (fun _ x y => if x.slt y then y else x) (fun w => 2 ^ (w - 1)) (.reg a) sc m w d s

/-- VFREDSUM (R134). -/
def execVfredsum (sc : BitVec 2) (m : BitVec 3) (f : Flush) (a d : BitVec 5) (s : State) : Out :=
  vecFred fadd32 0 (.reg a) sc m f d s

/-- VFREDMIN (R134). -/
def execVfredmin (sc : BitVec 2) (m : BitVec 3) (f : Flush) (a d : BitVec 5) (s : State) : Out :=
  vecFred (fun _ x y => fminmax32 false x y) 0x7F800000 (.reg a) sc m f d s

/-- VFREDMAX (R134). -/
def execVfredmax (sc : BitVec 2) (m : BitVec 3) (f : Flush) (a d : BitVec 5) (s : State) : Out :=
  vecFred (fun _ x y => fminmax32 true x y) 0xFF800000 (.reg a) sc m f d s

/-- VSCAN (R135). -/
def execVscan (sc : BitVec 2) (m : BitVec 3) (w : Width) (a d : BitVec 5) (s : State) : Out :=
  vecScan (.reg a) sc m w d s

/-- VFSCAN (R135). -/
def execVfscan (sc : BitVec 2) (m : BitVec 3) (f : Flush) (a d : BitVec 5) (s : State) : Out :=
  vecFscan (.reg a) sc m f d s

/-- VPERM (R136). -/
def execVperm (sc : BitVec 2) (m : BitVec 3) (w : Width) (b a d : BitVec 5) (s : State) : Out :=
  vecPerm (.reg a) sc m w b d s

/-- VSLIDEUP (R136). -/
def execVslideup (sc : BitVec 2) (m : BitVec 3) (w : Width) (b a d : BitVec 5) (s : State) : Out :=
  vecSlide (fun j n => if j < n then none else some (j - n)) (.reg a) sc m w b d s

/-- VSLIDEDN (R136). -/
def execVslidedn (sc : BitVec 2) (m : BitVec 3) (w : Width) (b a d : BitVec 5) (s : State) : Out :=
  vecSlide (fun j n => some (j + n)) (.reg a) sc m w b d s

/-- VBCAST (R136). -/
def execVbcast (sc : BitVec 2) (m : BitVec 3) (w : Width) (b a d : BitVec 5) (s : State) : Out :=
  vecSlide (fun _ n => some n) (.reg a) sc m w b d s

/-- VCOMPRESS (R136). -/
def execVcompress (sc : BitVec 2) (m : BitVec 3) (w : Width) (a d : BitVec 5) (s : State) : Out :=
  vecCompress (.reg a) sc m w d s

/-- VEXPAND (R136). -/
def execVexpand (sc : BitVec 2) (m : BitVec 3) (w : Width) (a d : BitVec 5) (s : State) : Out :=
  vecExpand (.reg a) sc m w d s

/-- VSEL (R136). -/
def execVsel (sc : BitVec 2) (m : BitVec 3) (w : Width) (b a d : BitVec 5) (s : State) : Out :=
  vecSel (.reg a) sc m w b d s

/-- VMV (R136). -/
def execVmv (sc : BitVec 2) (m : BitVec 3) (w : Width) (a d : BitVec 5) (s : State) : Out :=
  vecMv (.reg a) sc m w d s

/-- VMRGU (R138). -/
def execVmrgu (m : BitVec 3) (w : Width) (b a d : BitVec 5) (s : State) : Out :=
  vecMerge true (.reg a) m w b d s

/-- VMRGI (R138). -/
def execVmrgi (m : BitVec 3) (w : Width) (b a d : BitVec 5) (s : State) : Out :=
  vecMerge false (.reg a) m w b d s

/-- VADD_CH (R146). -/
def execVaddCh (sc : BitVec 2) (m : BitVec 3) (w : Width) (b : BitVec 5) (c : BitVec 4) (d : BitVec 5) (s : State) : Out :=
  vecInt (fun _ x y => x + y) (.ch c) sc m w b d s

/-- VSUB_CH (R146). -/
def execVsubCh (sc : BitVec 2) (m : BitVec 3) (w : Width) (b : BitVec 5) (c : BitVec 4) (d : BitVec 5) (s : State) : Out :=
  vecInt (fun _ x y => x - y) (.ch c) sc m w b d s

/-- VMUL_CH (R146). -/
def execVmulCh (sc : BitVec 2) (m : BitVec 3) (w : Width) (b : BitVec 5) (c : BitVec 4) (d : BitVec 5) (s : State) : Out :=
  vecInt (fun _ x y => x * y) (.ch c) sc m w b d s

/-- VMULH_CH (R146). -/
def execVmulhCh (sc : BitVec 2) (m : BitVec 3) (w : Width) (b : BitVec 5) (c : BitVec 4) (d : BitVec 5) (s : State) : Out :=
  vecInt laneMulh (.ch c) sc m w b d s

/-- VMIN_CH (R146). -/
def execVminCh (sc : BitVec 2) (m : BitVec 3) (w : Width) (b : BitVec 5) (c : BitVec 4) (d : BitVec 5) (s : State) : Out :=
  vecInt (fun _ x y => if x.slt y then x else y) (.ch c) sc m w b d s

/-- VMAX_CH (R146). -/
def execVmaxCh (sc : BitVec 2) (m : BitVec 3) (w : Width) (b : BitVec 5) (c : BitVec 4) (d : BitVec 5) (s : State) : Out :=
  vecInt (fun _ x y => if x.slt y then y else x) (.ch c) sc m w b d s

/-- VMINU_CH (R146). -/
def execVminuCh (sc : BitVec 2) (m : BitVec 3) (w : Width) (b : BitVec 5) (c : BitVec 4) (d : BitVec 5) (s : State) : Out :=
  vecInt (fun _ x y => if x.ult y then x else y) (.ch c) sc m w b d s

/-- VMAXU_CH (R146). -/
def execVmaxuCh (sc : BitVec 2) (m : BitVec 3) (w : Width) (b : BitVec 5) (c : BitVec 4) (d : BitVec 5) (s : State) : Out :=
  vecInt (fun _ x y => if x.ult y then y else x) (.ch c) sc m w b d s

/-- VAND_CH (R146). -/
def execVandCh (sc : BitVec 2) (m : BitVec 3) (w : Width) (b : BitVec 5) (c : BitVec 4) (d : BitVec 5) (s : State) : Out :=
  vecInt (fun _ x y => x &&& y) (.ch c) sc m w b d s

/-- VOR_CH (R146). -/
def execVorCh (sc : BitVec 2) (m : BitVec 3) (w : Width) (b : BitVec 5) (c : BitVec 4) (d : BitVec 5) (s : State) : Out :=
  vecInt (fun _ x y => x ||| y) (.ch c) sc m w b d s

/-- VXOR_CH (R146). -/
def execVxorCh (sc : BitVec 2) (m : BitVec 3) (w : Width) (b : BitVec 5) (c : BitVec 4) (d : BitVec 5) (s : State) : Out :=
  vecInt (fun _ x y => x ^^^ y) (.ch c) sc m w b d s

/-- VANDN_CH (R146). -/
def execVandnCh (sc : BitVec 2) (m : BitVec 3) (w : Width) (b : BitVec 5) (c : BitVec 4) (d : BitVec 5) (s : State) : Out :=
  vecInt (fun _ x y => x &&& ~~~y) (.ch c) sc m w b d s

/-- VSHL_CH (R146). -/
def execVshlCh (sc : BitVec 2) (m : BitVec 3) (w : Width) (b : BitVec 5) (c : BitVec 4) (d : BitVec 5) (s : State) : Out :=
  vecInt (fun w x y => x <<< laneShift w y) (.ch c) sc m w b d s

/-- VSHR_CH (R146). -/
def execVshrCh (sc : BitVec 2) (m : BitVec 3) (w : Width) (b : BitVec 5) (c : BitVec 4) (d : BitVec 5) (s : State) : Out :=
  vecInt (fun w x y => x >>> laneShift w y) (.ch c) sc m w b d s

/-- VSHRA_CH (R146). -/
def execVshraCh (sc : BitVec 2) (m : BitVec 3) (w : Width) (b : BitVec 5) (c : BitVec 4) (d : BitVec 5) (s : State) : Out :=
  vecInt (fun w x y => x.sshiftRight (laneShift w y)) (.ch c) sc m w b d s

/-- VPOPC_CH (R146). -/
def execVpopcCh (sc : BitVec 2) (m : BitVec 3) (w : Width) (c : BitVec 4) (d : BitVec 5) (s : State) : Out :=
  vecPopc (.ch c) sc m w d s

/-- VFADD_CH (R146). -/
def execVfaddCh (sc : BitVec 2) (m : BitVec 3) (f : Flush) (b : BitVec 5) (c : BitVec 4) (d : BitVec 5) (s : State) : Out :=
  vecFp fadd32 (.ch c) sc m f b d s

/-- VFSUB_CH (R146). -/
def execVfsubCh (sc : BitVec 2) (m : BitVec 3) (f : Flush) (b : BitVec 5) (c : BitVec 4) (d : BitVec 5) (s : State) : Out :=
  vecFp fsub32 (.ch c) sc m f b d s

/-- VFMUL_CH (R146). -/
def execVfmulCh (sc : BitVec 2) (m : BitVec 3) (f : Flush) (b : BitVec 5) (c : BitVec 4) (d : BitVec 5) (s : State) : Out :=
  vecFp fmul32 (.ch c) sc m f b d s

/-- VFDIV_CH (R146). -/
def execVfdivCh (m : BitVec 3) (f : Flush) (b : BitVec 5) (c : BitVec 4) (d : BitVec 5) (s : State) : Out :=
  vecDiv (.ch c) m f b d s

/-- VFMIN_CH (R146). -/
def execVfminCh (sc : BitVec 2) (m : BitVec 3) (f : Flush) (b : BitVec 5) (c : BitVec 4) (d : BitVec 5) (s : State) : Out :=
  vecFp (fun _ x y => fminmax32 false x y) (.ch c) sc m f b d s

/-- VFMAX_CH (R146). -/
def execVfmaxCh (sc : BitVec 2) (m : BitVec 3) (f : Flush) (b : BitVec 5) (c : BitVec 4) (d : BitVec 5) (s : State) : Out :=
  vecFp (fun _ x y => fminmax32 true x y) (.ch c) sc m f b d s

/-- VFSQRT_CH (R146). -/
def execVfsqrtCh (sc : BitVec 2) (m : BitVec 3) (f : Flush) (c : BitVec 4) (d : BitVec 5) (s : State) : Out :=
  vecSqrt (.ch c) sc m f d s

/-- VFABS_CH (R146). -/
def execVfabsCh (sc : BitVec 2) (m : BitVec 3) (c : BitVec 4) (d : BitVec 5) (s : State) : Out :=
  vecAbs (.ch c) sc m d s

/-- VFMA_CH (R146). -/
def execVfmaCh (sc : BitVec 2) (m : BitVec 3) (f : Flush) (b : BitVec 5) (c : BitVec 4) (d : BitVec 5) (s : State) : Out :=
  vecFma false false (.ch c) sc m f b d s

/-- VFMS_CH (R146). -/
def execVfmsCh (sc : BitVec 2) (m : BitVec 3) (f : Flush) (b : BitVec 5) (c : BitVec 4) (d : BitVec 5) (s : State) : Out :=
  vecFma false true (.ch c) sc m f b d s

/-- VFNMA_CH (R146). -/
def execVfnmaCh (sc : BitVec 2) (m : BitVec 3) (f : Flush) (b : BitVec 5) (c : BitVec 4) (d : BitVec 5) (s : State) : Out :=
  vecFma true true (.ch c) sc m f b d s

/-- VFNMS_CH (R146). -/
def execVfnmsCh (sc : BitVec 2) (m : BitVec 3) (f : Flush) (b : BitVec 5) (c : BitVec 4) (d : BitVec 5) (s : State) : Out :=
  vecFma true false (.ch c) sc m f b d s

/-- VCMPEQ_CH (R146). -/
def execVcmpeqCh (sc : BitVec 2) (m : BitVec 3) (w : Width) (b : BitVec 5) (c : BitVec 4) (d : BitVec 3) (s : State) : Out :=
  vecCmp (fun _ x y => x == y) (.ch c) sc m w b d s

/-- VCMPNE_CH (R146). -/
def execVcmpneCh (sc : BitVec 2) (m : BitVec 3) (w : Width) (b : BitVec 5) (c : BitVec 4) (d : BitVec 3) (s : State) : Out :=
  vecCmp (fun _ x y => x != y) (.ch c) sc m w b d s

/-- VCMPLT_CH (R146). -/
def execVcmpltCh (sc : BitVec 2) (m : BitVec 3) (w : Width) (b : BitVec 5) (c : BitVec 4) (d : BitVec 3) (s : State) : Out :=
  vecCmp (fun _ x y => x.slt y) (.ch c) sc m w b d s

/-- VCMPLE_CH (R146). -/
def execVcmpleCh (sc : BitVec 2) (m : BitVec 3) (w : Width) (b : BitVec 5) (c : BitVec 4) (d : BitVec 3) (s : State) : Out :=
  vecCmp (fun _ x y => x.sle y) (.ch c) sc m w b d s

/-- VCMPLTU_CH (R146). -/
def execVcmpltuCh (sc : BitVec 2) (m : BitVec 3) (w : Width) (b : BitVec 5) (c : BitVec 4) (d : BitVec 3) (s : State) : Out :=
  vecCmp (fun _ x y => x.ult y) (.ch c) sc m w b d s

/-- VCMPLEU_CH (R146). -/
def execVcmpleuCh (sc : BitVec 2) (m : BitVec 3) (w : Width) (b : BitVec 5) (c : BitVec 4) (d : BitVec 3) (s : State) : Out :=
  vecCmp (fun _ x y => x.ule y) (.ch c) sc m w b d s

/-- VFCMPEQ_CH (R146). -/
def execVfcmpeqCh (sc : BitVec 2) (m : BitVec 3) (fi : Bool) (b : BitVec 5) (c : BitVec 4) (d : BitVec 3) (s : State) : Out :=
  vecFcmp fequal false (.ch c) sc m fi b d s

/-- VFCMPLT_CH (R146). -/
def execVfcmpltCh (sc : BitVec 2) (m : BitVec 3) (fi : Bool) (b : BitVec 5) (c : BitVec 4) (d : BitVec 3) (s : State) : Out :=
  vecFcmp fless true (.ch c) sc m fi b d s

/-- VFCMPLE_CH (R146). -/
def execVfcmpleCh (sc : BitVec 2) (m : BitVec 3) (fi : Bool) (b : BitVec 5) (c : BitVec 4) (d : BitVec 3) (s : State) : Out :=
  vecFcmp (fun x y => fless x y || fequal x y) true (.ch c) sc m fi b d s

/-- VFCMPUN_CH (R146). -/
def execVfcmpunCh (sc : BitVec 2) (m : BitVec 3) (fi : Bool) (b : BitVec 5) (c : BitVec 4) (d : BitVec 3) (s : State) : Out :=
  vecFcmp (fun x y => x.isNan || y.isNan) false (.ch c) sc m fi b d s

/-- VBOOL3_CH (R146). -/
def execVbool3Ch (sc : BitVec 2) (t : BitVec 8) (b : BitVec 5) (c : BitVec 4) (d : BitVec 5) (s : State) : Out :=
  vecBool3 (.ch c) sc t b d s

/-- VFSHL_CH (R146). -/
def execVfshlCh (sc : BitVec 2) (h : BitVec 6) (b : BitVec 5) (c : BitVec 4) (d : BitVec 5) (s : State) : Out :=
  vecFunnel true (.ch c) sc h b d s

/-- VFSHR_CH (R146). -/
def execVfshrCh (sc : BitVec 2) (h : BitVec 6) (b : BitVec 5) (c : BitVec 4) (d : BitVec 5) (s : State) : Out :=
  vecFunnel false (.ch c) sc h b d s

/-- VROTL_CH (R146). -/
def execVrotlCh (sc : BitVec 2) (h : BitVec 6) (c : BitVec 4) (d : BitVec 5) (s : State) : Out :=
  vecRotate true (.ch c) sc h d s

/-- VROTR_CH (R146). -/
def execVrotrCh (sc : BitVec 2) (h : BitVec 6) (c : BitVec 4) (d : BitVec 5) (s : State) : Out :=
  vecRotate false (.ch c) sc h d s

/-- VREDSUM_CH (R146). -/
def execVredsumCh (sc : BitVec 2) (m : BitVec 3) (w : Width) (c : BitVec 4) (d : BitVec 5) (s : State) : Out :=
  vecRed (fun _ x y => x + y) (fun _ => 0) (.ch c) sc m w d s

/-- VREDMIN_CH (R146). -/
def execVredminCh (sc : BitVec 2) (m : BitVec 3) (w : Width) (c : BitVec 4) (d : BitVec 5) (s : State) : Out :=
  vecRed (fun _ x y => if x.slt y then x else y) (fun w => 2 ^ (w - 1) - 1) (.ch c) sc m w d s

/-- VREDMAX_CH (R146). -/
def execVredmaxCh (sc : BitVec 2) (m : BitVec 3) (w : Width) (c : BitVec 4) (d : BitVec 5) (s : State) : Out :=
  vecRed (fun _ x y => if x.slt y then y else x) (fun w => 2 ^ (w - 1)) (.ch c) sc m w d s

/-- VFREDSUM_CH (R146). -/
def execVfredsumCh (sc : BitVec 2) (m : BitVec 3) (f : Flush) (c : BitVec 4) (d : BitVec 5) (s : State) : Out :=
  vecFred fadd32 0 (.ch c) sc m f d s

/-- VFREDMIN_CH (R146). -/
def execVfredminCh (sc : BitVec 2) (m : BitVec 3) (f : Flush) (c : BitVec 4) (d : BitVec 5) (s : State) : Out :=
  vecFred (fun _ x y => fminmax32 false x y) 0x7F800000 (.ch c) sc m f d s

/-- VFREDMAX_CH (R146). -/
def execVfredmaxCh (sc : BitVec 2) (m : BitVec 3) (f : Flush) (c : BitVec 4) (d : BitVec 5) (s : State) : Out :=
  vecFred (fun _ x y => fminmax32 true x y) 0xFF800000 (.ch c) sc m f d s

/-- VSCAN_CH (R146). -/
def execVscanCh (sc : BitVec 2) (m : BitVec 3) (w : Width) (c : BitVec 4) (d : BitVec 5) (s : State) : Out :=
  vecScan (.ch c) sc m w d s

/-- VFSCAN_CH (R146). -/
def execVfscanCh (sc : BitVec 2) (m : BitVec 3) (f : Flush) (c : BitVec 4) (d : BitVec 5) (s : State) : Out :=
  vecFscan (.ch c) sc m f d s

/-- VPERM_CH (R146). -/
def execVpermCh (sc : BitVec 2) (m : BitVec 3) (w : Width) (b : BitVec 5) (c : BitVec 4) (d : BitVec 5) (s : State) : Out :=
  vecPerm (.ch c) sc m w b d s

/-- VSLIDEUP_CH (R146). -/
def execVslideupCh (sc : BitVec 2) (m : BitVec 3) (w : Width) (b : BitVec 5) (c : BitVec 4) (d : BitVec 5) (s : State) : Out :=
  vecSlide (fun j n => if j < n then none else some (j - n)) (.ch c) sc m w b d s

/-- VSLIDEDN_CH (R146). -/
def execVslidednCh (sc : BitVec 2) (m : BitVec 3) (w : Width) (b : BitVec 5) (c : BitVec 4) (d : BitVec 5) (s : State) : Out :=
  vecSlide (fun j n => some (j + n)) (.ch c) sc m w b d s

/-- VBCAST_CH (R146). -/
def execVbcastCh (sc : BitVec 2) (m : BitVec 3) (w : Width) (b : BitVec 5) (c : BitVec 4) (d : BitVec 5) (s : State) : Out :=
  vecSlide (fun _ n => some n) (.ch c) sc m w b d s

/-- VCOMPRESS_CH (R146). -/
def execVcompressCh (sc : BitVec 2) (m : BitVec 3) (w : Width) (c : BitVec 4) (d : BitVec 5) (s : State) : Out :=
  vecCompress (.ch c) sc m w d s

/-- VEXPAND_CH (R146). -/
def execVexpandCh (sc : BitVec 2) (m : BitVec 3) (w : Width) (c : BitVec 4) (d : BitVec 5) (s : State) : Out :=
  vecExpand (.ch c) sc m w d s

/-- VSEL_CH (R146). -/
def execVselCh (sc : BitVec 2) (m : BitVec 3) (w : Width) (b : BitVec 5) (c : BitVec 4) (d : BitVec 5) (s : State) : Out :=
  vecSel (.ch c) sc m w b d s

/-- VMV_CH (R146). -/
def execVmvCh (sc : BitVec 2) (m : BitVec 3) (w : Width) (c : BitVec 4) (d : BitVec 5) (s : State) : Out :=
  vecMv (.ch c) sc m w d s

/-- VMRGU_CH (R146). -/
def execVmrguCh (m : BitVec 3) (w : Width) (b : BitVec 5) (c : BitVec 4) (d : BitVec 5) (s : State) : Out :=
  vecMerge true (.ch c) m w b d s

/-- VMRGI_CH (R146). -/
def execVmrgiCh (m : BitVec 3) (w : Width) (b : BitVec 5) (c : BitVec 4) (d : BitVec 5) (s : State) : Out :=
  vecMerge false (.ch c) m w b d s

end Sys2Proof.Machine
end

