-- ==== Sys2Proof/Machine/LoadStore.lean ====
section
/-! DEFINITION. Scalar and vector loads and stores, descriptors, atomics, fences and parking (07 R151 to R162). -/
namespace Sys2Proof.Machine

/-- The ordering of a load, store or atomic (R240, R244, R245). -/
def gating (o : Ord) (sc : Scope) (load store : Bool) : Gating :=
  ⟨o == .acq, o == .rel || o == .sc, o == .sc, sc, load, store⟩

def dstX (d : BitVec 5) (n : Nat) (signed : Bool) : AccDst := if d = 0 then .none else .x d.toNat n signed

/-! ### Scalar loads and stores (R151, R152) -/

def load (n : Nat) (signed : Bool) (o : Ord) (imm : BitVec 13) (a d : BitVec 5) (s : State) : Out :=
  issue s [xr a] [xr d] fun s c i sl =>
    memInstr s c i sl (gating o sl.oscope true false) false [xr d]
      [⟨0, sl.rx a + imm.signExtend 64, n, .read, fun pa => .read pa n, dstX d n signed⟩]

def execLdb (o : Ord) (imm : BitVec 13) (a d : BitVec 5) (s : State) : Out := load 1 true o imm a d s
def execLdh (o : Ord) (imm : BitVec 13) (a d : BitVec 5) (s : State) : Out := load 2 true o imm a d s
def execLdw (o : Ord) (imm : BitVec 13) (a d : BitVec 5) (s : State) : Out := load 4 true o imm a d s
def execLdd (o : Ord) (imm : BitVec 13) (a d : BitVec 5) (s : State) : Out := load 8 false o imm a d s
def execLdbu (o : Ord) (imm : BitVec 13) (a d : BitVec 5) (s : State) : Out := load 1 false o imm a d s
def execLdhu (o : Ord) (imm : BitVec 13) (a d : BitVec 5) (s : State) : Out := load 2 false o imm a d s
def execLdwu (o : Ord) (imm : BitVec 13) (a d : BitVec 5) (s : State) : Out := load 4 false o imm a d s

def store (n : Nat) (o : Ord) (imm : BitVec 13) (b a : BitVec 5) (s : State) : Out :=
  issue s [xr a, xr b] [] fun s c i sl =>
    memInstr s c i sl (gating o sl.oscope false true) false []
      [⟨0, sl.rx a + imm.signExtend 64, n, .write, fun pa => .write pa (ofWord (sl.rx b)) (byteMask n), .none⟩]

def execStb (o : Ord) (imm : BitVec 13) (b a : BitVec 5) (s : State) : Out := store 1 o imm b a s
def execSth (o : Ord) (imm : BitVec 13) (b a : BitVec 5) (s : State) : Out := store 2 o imm b a s
def execStw (o : Ord) (imm : BitVec 13) (b a : BitVec 5) (s : State) : Out := store 4 o imm b a s
def execStd (o : Ord) (imm : BitVec 13) (b a : BitVec 5) (s : State) : Out := store 8 o imm b a s

/-! ### Descriptors (R155) -/

def execLdtag (o : Ord) (a d : BitVec 5) (s : State) : Out :=
  issue s [xr a] [xr d] fun s c i sl =>
    memInstr s c i sl (gating o sl.oscope true false) false [xr d]
      [⟨0, sl.rx a, 64, .read, fun pa => .readDesc pa, dstX d 2 false⟩]

def execSttag (o : Ord) (b a : BitVec 5) (s : State) : Out :=
  issue s [xr a, xr b] [] fun s c i sl =>
    memInstr s c i sl (gating o sl.oscope false true) false []
      [⟨0, sl.rx a, 64, .write, fun pa => .writeDesc pa ((sl.rx b).setWidth 16), .none⟩]

/-! ### Atomics (R153, R154) -/

def amo (op : RmwOp) (o : Ord) (sc : Scope) (w64 : Bool) (b a d : BitVec 5) (s : State) : Out :=
  issue s [xr a, xr b] [xr d] fun s c i sl =>
    let n := if w64 then 8 else 4
    memInstr s c i sl (gating o sc true true) false [xr d]
      [⟨0, sl.rx a, n, .write, fun pa => .rmw pa n op (sl.rx b), dstX d n true⟩]

def execAmoadd (o : Ord) (sc : Scope) (w : Bool) (b a d : BitVec 5) (s : State) : Out := amo .add o sc w b a d s
def execAmoand (o : Ord) (sc : Scope) (w : Bool) (b a d : BitVec 5) (s : State) : Out := amo .and o sc w b a d s
def execAmoor (o : Ord) (sc : Scope) (w : Bool) (b a d : BitVec 5) (s : State) : Out := amo .or o sc w b a d s
def execAmoxor (o : Ord) (sc : Scope) (w : Bool) (b a d : BitVec 5) (s : State) : Out := amo .xor o sc w b a d s
def execAmomin (o : Ord) (sc : Scope) (w : Bool) (b a d : BitVec 5) (s : State) : Out := amo .min o sc w b a d s
def execAmomax (o : Ord) (sc : Scope) (w : Bool) (b a d : BitVec 5) (s : State) : Out := amo .max o sc w b a d s
def execAmominu (o : Ord) (sc : Scope) (w : Bool) (b a d : BitVec 5) (s : State) : Out := amo .minu o sc w b a d s
def execAmomaxu (o : Ord) (sc : Scope) (w : Bool) (b a d : BitVec 5) (s : State) : Out := amo .maxu o sc w b a d s
def execAmoswap (o : Ord) (sc : Scope) (w : Bool) (b a d : BitVec 5) (s : State) : Out := amo .swap o sc w b a d s

/-- R244, R245: the gates of a CAS look at ORD and at the failure ordering. -/
def casGating (o fail : Ord) (sc : Scope) : Gating :=
  ⟨o == .acq || fail == .acq, o == .rel || o == .sc || fail == .sc, o == .sc || fail == .sc, sc, true, true⟩

/-- The failure ordering as f5 tells it, above 9 (R154). -/
def failCode : Ord → Nat
  | .acq => 1
  | .sc => 2
  | _ => 0

def cas (fail o : Ord) (sc : Scope) (w64 : Bool) (b a d : BitVec 5) (s : State) : Out :=
  issue s [xr a, xr b, xr d] [xr d] fun s c i sl =>
    let n := if w64 then 8 else 4
    memInstr s c i sl (casGating o fail sc) false [xr d]
      [⟨0, sl.rx a, n, .write, fun pa => .cas pa n (sl.rx d) (sl.rx b) (failCode fail), dstX d n true⟩]

def execCasFailRlx (o : Ord) (sc : Scope) (w : Bool) (b a d : BitVec 5) (s : State) : Out := cas .rlx o sc w b a d s
def execCasFailAcq (o : Ord) (sc : Scope) (w : Bool) (b a d : BitVec 5) (s : State) : Out := cas .acq o sc w b a d s
def execCasFailSc (o : Ord) (sc : Scope) (w : Bool) (b a d : BitVec 5) (s : State) : Out := cas .sc o sc w b a d s

/-! ### Fences (R156, R247) -/

def execFence (sc : Scope) (kind : FenceKind) (s : State) : Out :=
  issue s [] [] fun s c i sl =>
    let wait := (sl.accs.filter fun a => fenceWaitsFor kind a && inReach c sc a.home).map (·.id)
    let old := sl.fences.filter fun f => !f.open sl
    retire (setSlot s c i { sl with fences := if wait.isEmpty then old else old ++ [⟨kind, wait⟩] }) c i 0 (sl.pc + 4)

/-! ### Vector loads and stores (R157 to R160) -/

/-- The bytes of the active lanes at width w. -/
def laneBytes (w : Nat) (k : BitVec 64) : BitVec 64 :=
  BitVec.ofNat 64 (((List.range 64).map fun j => if k.getLsbD (j / (w / 8)) then 2 ^ j else 0).sum)

/-- The bytes of lane j at width w. -/
def oneLane (w j : Nat) : BitVec 64 := BitVec.ofNat 64 ((2 ^ (w / 8) - 1) * 2 ^ (w / 8 * j))

/-- The registers of a group that begins at d. -/
def group (d : BitVec 5) (n : Nat) : List Nat := (List.range n).map (d.toNat + ·)
def groupRefs (d : BitVec 5) (n : Nat) : List RegRef := (group d n).map fun r => ⟨.v, r⟩

def vldOffset (off : BitVec 5) : Word := off.signExtend 64 * 64

/-- VLD (R157): of one register, it is no multi-register instruction and leaves prog (R39, 20 R385). -/
def execVld (o : Ord) (m : BitVec 3) (w : Width) (g : BitVec 2) (off a d : BitVec 5) (s : State) : Out :=
  let n := 2 ^ g.toNat
  let rs := groupRefs d n
  issue s ([xr a] ++ maskSrc m ++ (if m = 0 then [] else rs)) rs fun s c i sl =>
    let mask := laneBytes w.bits (sl.rk m)
    let es := if mask = 0 then [] else (List.range n).map fun (k : Nat) =>
      (⟨d.toNat + k, sl.rx a + vldOffset off + BitVec.ofNat 64 (64 * k), 64, .read, fun pa => .read pa 64,
        .v (d.toNat + k) mask 0⟩ : Elem)
    memInstr s c i sl (gating o sl.oscope true false) (1 < n) rs es

def execVst (o : Ord) (m : BitVec 3) (w : Width) (g : BitVec 2) (off a d : BitVec 5) (s : State) : Out :=
  let n := 2 ^ g.toNat
  issue s ([xr a] ++ maskSrc m ++ groupRefs d n) [] fun s c i sl =>
    let mask := laneBytes w.bits (sl.rk m)
    let es := if mask = 0 then [] else (List.range n).map fun (k : Nat) =>
      (⟨d.toNat + k, sl.rx a + vldOffset off + BitVec.ofNat 64 (64 * k), 64, .write,
        fun pa => .write pa (sl.getV (d.toNat + k)) mask, .none⟩ : Elem)
    memInstr s c i sl (gating o sl.oscope false true) (1 < n) [] es

/-- The active lanes of a width, ascending. -/
def lanesOn (w : Nat) (k : BitVec 64) : List Nat := (List.range (512 / w)).filter fun j => k.getLsbD j

/-- Lane j's address with a stride (R158). -/
def stridedVa (base stride : Word) (j : Nat) : Word := base + BitVec.ofNat 64 j * stride
/-- Lane j's address with an index vector (R158). -/
def indexedVa (base : Word) (idx : Vec) (w j : Nat) : Word :=
  base + BitVec.ofInt 64 (sintOf w (lane idx w j)) * BitVec.ofNat 64 (w / 8)

def laneLoads (w : Nat) (k : BitVec 64) (d : BitVec 5) (va : Nat → Word) : List Elem :=
  (lanesOn w k).map fun j =>
    ⟨j, va j, w / 8, .read, fun pa => .read pa (w / 8), .v d.toNat (oneLane w j) (w / 8 * j)⟩

def laneStores (w : Nat) (k : BitVec 64) (v : Vec) (va : Nat → Word) : List Elem :=
  (lanesOn w k).map fun j =>
    ⟨j, va j, w / 8, .write, fun pa => .write pa (BitVec.ofNat 512 (lane v w j)) (byteMask (w / 8)), .none⟩

def execVlds (o : Ord) (m : BitVec 3) (w : Width) (b a d : BitVec 5) (s : State) : Out :=
  issue s ([xr a, xr b] ++ maskDst m d) [vr d] fun s c i sl =>
    memInstr s c i sl (gating o sl.oscope true false) true [vr d]
      (laneLoads w.bits (sl.rk m) d (stridedVa (sl.rx a) (sl.rx b)))

def execVsts (o : Ord) (m : BitVec 3) (w : Width) (b a d : BitVec 5) (s : State) : Out :=
  issue s ([xr a, xr b, vr d] ++ maskSrc m) [] fun s c i sl =>
    memInstr s c i sl (gating o sl.oscope false true) true []
      (laneStores w.bits (sl.rk m) (sl.rv d) (stridedVa (sl.rx a) (sl.rx b)))

def execVldx (o : Ord) (m : BitVec 3) (w : Width) (b a d : BitVec 5) (s : State) : Out :=
  issue s ([xr a, vr b] ++ maskDst m d) [vr d] fun s c i sl =>
    memInstr s c i sl (gating o sl.oscope true false) true [vr d]
      (laneLoads w.bits (sl.rk m) d (indexedVa (sl.rx a) (sl.rv b) w.bits))

def execVstx (o : Ord) (m : BitVec 3) (w : Width) (b a d : BitVec 5) (s : State) : Out :=
  issue s ([xr a, vr b, vr d] ++ maskSrc m) [] fun s c i sl =>
    memInstr s c i sl (gating o sl.oscope false true) true []
      (laneStores w.bits (sl.rk m) (sl.rv d) (indexedVa (sl.rx a) (sl.rv b) w.bits))

/-- VLDT (R159): element i of row r goes to lane r of register vd + i. An element's idx is its register with its row above
bit 6: the unit of restart is the register (R160, log 14). -/
def execVldt (o : Ord) (m : BitVec 3) (w : Width) (b a d : BitVec 5) (s : State) : Out :=
  let n := 512 / w.bits
  let rs := groupRefs d n
  issue s ([xr a, xr b] ++ maskSrc m ++ (if m = 0 then [] else rs)) rs fun s c i sl =>
    let e := w.bits / 8
    let es := (List.range n).flatMap fun k => (lanesOn w.bits (sl.rk m)).map fun r =>
      (⟨d.toNat + k + 64 * r, stridedVa (sl.rx a) (sl.rx b) r + BitVec.ofNat 64 (k * e), if k = 0 then 64 else e, .read,
        fun pa => .read pa e, .v (d.toNat + k) (oneLane w.bits r) (e * r)⟩ : Elem)
    memInstr s c i sl (gating o sl.oscope true false) true rs es

/-! ### Parking (R161, R162) -/

/-- The first of n free rows in a run, the lowest there is, at or above a row (R25, R162). -/
def freeRun (s : State) (c n : Nat) : Option Nat :=
  (List.range 2048).find? fun z => z + n ≤ 2048 && (List.range n).all fun k => rowFree s c (z + k)

def execVpark (b a d : BitVec 5) (s : State) : Out :=
  let n := b.toNat + 1 - d.toNat
  issue s (groupRefs d n) [xr a] fun s c i sl =>
    match freeRun s c n with
    | none => retire (setSlot s c i (sl.setVar (xr a) 0x800)) c i 0 (sl.pc + 4)
    | some z =>
      let s := modCore s c fun k => setRows k z ((group d n).map sl.getV)
      let sl := { sl.setVar (xr a) (BitVec.ofNat 512 z) with parked := sl.parked ++ (List.range n).map (z + ·) }
      retire (setSlot s c i sl) c i 0 (sl.pc + 4)

/-- An error that the code cannot correct, met by a row instruction (R342). -/
def rowPoisonTrap (s : State) (c : Nat) (i : Fin 4) (row : Nat) : State :=
  trapFrom 6 (homeMusic s (coreNode c) 3 (c % 4096 * 2 ^ 16 + row)) c i causeACCESS (BitVec.ofNat 64 row)
    (getSlot s c i).pc

/-- The registers of a group take the rows from first upward. -/
def rowsToRegs (k : Core) (first : Nat) (sl : Slot) : List Nat → Slot
  | [] => sl
  | r :: rest => rowsToRegs k (first + 1) (sl.setVar ⟨.v, r⟩ (rowValue k first)) rest

/-- VUNPARK. The rows are read in program order with the slot's matrix instructions (09 R203). -/
def execVunpark (b a d : BitVec 5) (s : State) : Out :=
  let n := b.toNat + 1 - d.toNat
  issue s [xr a] (groupRefs d n) fun s c i sl =>
    if !sl.mats.isEmpty then stallSlot s c i .matrix
    else
      let z := (sl.rx a).toNat
      let run := (List.range n).map (z + ·)
      match run.find? (fun r => !sl.parked.contains r) with
      | some r => takeTrap s c i causeACCESS (BitVec.ofNat 64 r) sl.pc
      | none =>
        let k := getCore s c
        match run.find? (fun r => k.badRows.contains r) with
        | some r => rowPoisonTrap s c i r
        | none =>
          let sl := rowsToRegs k z sl (group d n)
          retire (setSlot s c i { sl with parked := sl.parked.filter (fun r => !run.contains r) }) c i 0 (sl.pc + 4)

end Sys2Proof.Machine
end

