-- ==== Sys2Proof/Machine/Messages.lean ====
section
/-! DEFINITION. Message, actor, group, task and egress instructions (08 R172 to R202): the checks at issue and the entries
of the send buffer. -/
namespace Sys2Proof.Machine

/-- R173: tval of a full send buffer. -/
def fullTval : Word := BitVec.ofNat 64 (2 ^ 63)

def bufferFull (sl : Slot) : Bool := decide (64 ≤ sl.sends.length)

/-- A buffered instruction records its entry and retires (R172), or traps on a full buffer with its family's cause (R173). -/
def bufferEntry (s : State) (c : Nat) (i : Fin 4) (sl : Slot) (cause : Nat) (e : SendEntry) : State :=
  if bufferFull sl then takeTrap s c i cause fullTval sl.pc
  else retire (setSlot s c i { sl with sends := sl.sends ++ [e] }) c i 0 (sl.pc + 4)

/-- The instruction retires unless its access has trapped. -/
def retireIfRunning (s : State) (c : Nat) (i : Fin 4) (npc : Word) : State :=
  if (getSlot s c i).status == .running then retire s c i 0 npc else s

/-- The instruction retires; or, where its access has trapped in debug execution, it leaves the slot as f says (R76). -/
def retireOr (s : State) (c : Nat) (i : Fin 4) (npc : Word) (f : Slot → Slot) : State :=
  match (getSlot s c i).status with
  | .running => retire s c i 0 npc
  | .halted => modSlot s c i f
  | _ => s

/-- An entry of the send buffer and the reads for it are taken back. -/
def unsend (e : Nat) (sl : Slot) : Slot :=
  { sl with sends := sl.sends.take e,
            accs := sl.accs.map fun a => match a.dst with
              | .send x _ => if x = e then { a with dst := .none } else a
              | _ => a }

/-! ### Sending messages (R177 to R180) -/

def opName (o : Word) : Nat := o.toNat % 2 ^ 32
def opChan (o : Word) : Nat := o.toNat / 2 ^ 32 % 16

/-- What an endpoint operand gives (R177): it traps, misses the directory cache, or is good. -/
inductive Endpoint where
  | bad
  | miss
  | good

def endpointCheck (s : State) (c : Nat) (sl : Slot) (o : Word) (n : Nat) : Endpoint :=
  if 2 ^ 36 ≤ o.toNat || opName o = 0 then .bad
  else match getActor s sl.launch (opName o) with
    | none => .bad
    | some a =>
      if a.place == .ended || !a.accepts (opChan o) n then .bad
      else if (cachedNode s c sl.launch (opName o)).isNone then .miss
      else .good

/-- The checks of R177 at issue. -/
def withEndpoint (s : State) (c : Nat) (i : Fin 4) (sl : Slot) (o : Word) (n : Nat) (f : State) : State :=
  match endpointCheck s c sl o n with
  | .bad => takeTrap s c i causeCHANNEL o sl.pc
  | .miss => setSlot s c i { sl with status := .lookup (opName o), stall := none }
  | .good => f

def sendRegs (b : BitVec 5) (n : BitVec 2) : List RegRef := groupRefs b (n.toNat + 1)
def sendWords (sl : Slot) (b : BitVec 5) (n : BitVec 2) : List Vec := (group b (n.toNat + 1)).map sl.getV

def execSend (n : BitVec 2) (c : BitVec 3) (b a : BitVec 5) (s : State) : Out :=
  issue s ([xr a] ++ sendRegs b n) [] fun s co i sl =>
    let o := sl.rx a
    withEndpoint s co i sl o (n.toNat + 1)
      (bufferEntry s co i sl causeCHANNEL (.send (opName o) (opChan o) c.toNat (sendWords sl b n)))

/-- A relaxed load at oscope. -/
def relaxedLoad (sl : Slot) : Gating := gating .rlx sl.oscope true false

/-- Reads of several blocks leave the issue point one after another; each traps where it meets an error. -/
def leaveReads (c : Nat) (i : Fin 4) (g : Gating) (s : State) : List Req → State
  | [] => s
  | r :: rest =>
    let s := leaveIssue s c i g r
    if (getSlot s c i).status == .running then leaveReads c i g s rest else s

/-- The 64-byte blocks of a payload. -/
def payloadVas (va : Word) (n : Nat) : List Word := (List.range n).map fun k => va + BitVec.ofNat 64 (64 * k)

/-- The reads of a payload's words, from the k-th on. -/
def payloadReads (e k : Nat) : List Word → List (Nat × Nat) → List Req
  | va :: vs, (pa, key) :: ps => ⟨.read pa 64, key, pa, va, .send e k⟩ :: payloadReads e (k + 1) vs ps
  | _, _ => []

def execSendx (n : BitVec 2) (c : BitVec 3) (b a : BitVec 5) (s : State) : Out :=
  issue s [xr a, xr b] [] fun s co i sl =>
    let o := sl.rx a
    let k := n.toNat + 1
    let vas := payloadVas (sl.rx b) k
    withEndpoint s co i sl o k <|
      withChecked s co i sl .read 64 vas fun ps =>
        match gate co sl (relaxedLoad sl) with
        | some w => stallSlot s co i w
        | none =>
          if bufferFull sl then takeTrap s co i causeCHANNEL fullTval sl.pc
          else
            let e := sl.sends.length
            let sl' := { sl with sends := sl.sends ++ [.send (opName o) (opChan o) c.toNat (List.replicate k 0)] }
            retireOr (leaveReads co i (relaxedLoad sl) (setSlot s co i sl') (payloadReads e 0 vas ps)) co i (sl.pc + 4)
              (unsend e)

def execSendr (c : BitVec 3) (b a : BitVec 5) (s : State) : Out :=
  issue s ([xr a] ++ groupRefs b 2) [] fun s co i sl =>
    withChecked s co i sl .write 64 [sl.rx a] fun ps =>
      let (pa, key) := ps.headD (0, 0)
      bufferEntry s co i sl causeCHANNEL (.red (sl.rx a) pa key c.toNat (sl.getV b.toNat) (sl.getV (b.toNat + 1)))

/-- R186: the checks of a group operand; chan, op and cls say which fields the instruction uses. -/
def groupOk (s : State) (o : Word) (chan cls : Bool) (maxOp : Nat) : Bool :=
  o.toNat < 2 ^ 35 && groupId o != 0 && (chan || groupChan o == 0) && (cls || groupClass o == 0)
    && groupClass o != 7 && groupOp o ≤ maxOp && s.modules.contains (groupModule o)

def execGsend (n : BitVec 2) (c : BitVec 3) (b a : BitVec 5) (s : State) : Out :=
  issue s ([xr a] ++ sendRegs b n) [] fun s co i sl =>
    let o := sl.rx a
    if !groupOk s o true false 0 then takeTrap s co i causeGROUP o sl.pc
    else bufferEntry s co i sl causeCHANNEL (.gsend o c.toNat (sendWords sl b n))

/-! ### The handler table (R181 to R183) -/

/-- The channel that a register names, when the running actor declares it. -/
def ownChan (s : State) (sl : Slot) (v : Word) : Option Chan :=
  if 16 ≤ v.toNat then none else (getActor s sl.launch sl.actor).bind fun a => a.chan v.toNat

/-- A handler-table entry as HTGET reads it (R181). -/
def entryWord (c : Chan) : Word :=
  c.offset.setWidth 64 <<< 32 ||| BitVec.ofNat 64
    ((if c.task then 2 ^ 19 else 0) + (c.words - 1) % 4 * 2 ^ 16 + (if c.bound then 2 ^ 11 else 0)
      + (if c.queue.isEmpty then 0 else 2 ^ 10) + (if c.en then 2 ^ 8 else 0) + c.prio % 8)

/-- TB + 4 × OFFSET (R181). -/
def entryAddress (s : State) (l : Nat) (offset : BitVec 32) : Word :=
  (match getLaunch s l with | some x => x.tb | none => 0) + offset.setWidth 64 * 4

/-- R183: since when a channel's head stands unbound, after a write of its entry at a core cycle. -/
def watchUnbound (cycle : Nat) (c : Chan) : Chan :=
  { c with ucount := if c.bound then 0 else c.ucount, unbound := if c.bound || c.queue.isEmpty then none else match c.unbound with
                        | some t => some t
                        | none => some cycle }

/-- HTSET (R182): an entry to be bound must lie in text, a page that permits fetches (R115, R264). -/
def execHtset (b a : BitVec 5) (s : State) : Out :=
  issue s [xr a, xr b] [] fun s c i sl =>
    let v := sl.rx b
    match ownChan s sl (sl.rx a) with
    | none => takeTrap s c i causeCHANNEL (sl.rx a) sl.pc
    | some ch =>
      let off : BitVec 32 := v.extractLsb' 32 32
      let bound := v.getLsbD 11
      let at_ := entryAddress s sl.launch off
      let set (s : State) : State :=
        retire (modChan s sl.launch sl.actor ch.num fun x =>
          watchUnbound (getCore s c).cycle { x with offset := off, bound := bound, en := v.getLsbD 8, prio := v.toNat % 8 })
          c i 0 (sl.pc + 4)
      if bound then match translate s (clusterOf c) sl.ctx at_ .fetch with
        | .ok _ _ => set s
        | .miss => suspendWalk s c i at_ .fetch
        | .bad => takeTrap s c i causeACCESS at_ sl.pc
      else set s

def execHtget (a d : BitVec 5) (s : State) : Out :=
  issue s [xr a] [xr d] fun s c i sl =>
    match ownChan s sl (sl.rx a) with
    | none => takeTrap s c i causeCHANNEL (sl.rx a) sl.pc
    | some ch => retire (setSlot s c i (sl.writeVar [(xr d, ofWord (entryWord ch))] 0 false)) c i 0 (sl.pc + 4)

def execHtclr (a : BitVec 5) (s : State) : Out :=
  issue s [xr a] [] fun s c i sl =>
    match ownChan s sl (sl.rx a) with
    | none => takeTrap s c i causeCHANNEL (sl.rx a) sl.pc
    | some ch =>
      let s := modChan s sl.launch sl.actor ch.num fun x =>
        watchUnbound (getCore s c).cycle { x with offset := 0, bound := false }
      retire s c i 0 (sl.pc + 4)

/-! ### Class masks, peeking and dropping (R184, R185) -/

/-- CHMSK and CHUNM: the new mask from the old one and the low bits of X[rs1]. -/
def classMask (f : BitVec 8 → BitVec 8 → BitVec 8) (a d : BitVec 5) (s : State) : Out :=
  issue s [xr a] [xr d] fun s c i sl =>
    let v := sl.rx a
    if 2 ^ 7 ≤ v.toNat then takeTrap s c i causeCHANNEL v sl.pc
    else
      let old := (getResident s c sl.launch).cmask
      let s := modResident s c sl.launch fun r => { r with cmask := f r.cmask (v.setWidth 8) }
      retire (setSlot s c i (sl.writeVar [(xr d, old.setWidth 512)] 0 false)) c i 0 (sl.pc + 4)

def execChmsk (a d : BitVec 5) (s : State) : Out := classMask (fun m v => m ||| v) a d s
def execChunm (a d : BitVec 5) (s : State) : Out := classMask (fun m v => m &&& ~~~v) a d s

/-- The words of the message, or task, at the pop position of a channel, and the position (R30, R33, R185). -/
def popPoint (s : State) (sl : Slot) (ch : Nat) : Option (List Vec × Nat) :=
  match (getActor s sl.launch sl.actor).bind (fun a => a.chan ch) with
  | none => none
  | some cn =>
    if cn.task then
      match sl.htask with
      | some (t, pos) => if sl.chan = ch && pos < t.words.length then some (t.words, pos) else none
      | none => none
    else match heldOn sl.held ch with
      | some h => some (h.msg.words, h.pos)
      | none => match cn.queue with
        | [] => none
        | m :: _ => some (m.words, 0)

def execMpeek (a d : BitVec 5) (s : State) : Out :=
  issue s [xr a] [vr d] fun s c i sl =>
    let v := sl.rx a
    let word := if 64 ≤ v.toNat then none else
      (popPoint s sl (v.toNat % 16)).bind fun p => p.1[p.2 + v.toNat / 16 % 4]?
    match word with
    | none => takeTrap s c i causeCHANNEL v sl.pc
    | some w =>
      if popPoisoned s sl (v.toNat % 16) then messagePoison s c i sl.pc
      else retire (setSlot s c i (sl.writeVar [(vr d, w)] 0 false)) c i 0 (sl.pc + 4)

/-- The message at the pop position is held and fully popped (R185). -/
def dropPoint (s : State) (c : Nat) (i : Fin 4) (sl : Slot) (ch : Nat) : State :=
  match heldOn sl.held ch with
  | some h =>
    setSlot s c i { sl with held := sl.held.map fun x => if x == h then { x with pos := x.msg.words.length } else x }
  | none =>
    if sl.chan = ch && sl.htask.isSome then
      setSlot s c i { sl with htask := sl.htask.map fun p => (p.1, p.1.words.length) }
    else match (getActor s sl.launch sl.actor).bind (fun a => a.chan ch) with
      | some cn => (holdHead s c i ch ((cn.queue.headD ⟨0, [], 0, 0, 0, 0, false⟩).words.length)).getD s
      | none => s

def execMdrop (a : BitVec 5) (s : State) : Out :=
  issue s [xr a] [] fun s c i sl =>
    let v := sl.rx a
    if 16 ≤ v.toNat || (popPoint s sl v.toNat).isNone then takeTrap s c i causeCHANNEL v sl.pc
    else if bufferFull sl then takeTrap s c i causeCHANNEL fullTval sl.pc
    else
      let s := dropPoint s c i sl v.toNat
      let sl := getSlot s c i
      bufferEntry s c i sl causeCHANNEL (.mdrop v.toNat)

/-! ### Groups (R186 to R192) -/

def execJoin (a d : BitVec 5) (s : State) : Out :=
  issue s [xr a] [xr d] fun s c i sl =>
    let o := sl.rx a
    if !groupOk s o false false 0 then takeTrap s c i causeGROUP o sl.pc
    else retireIfRunning (groupAccess (setSlot s c i sl) c i o (.join sl.actor) (.member d.toNat o)) c i
      (sl.pc + 4)

/-- Whether an arrival at a group is buffered in the activation (R188, R189). -/
def arrivalBuffered (sl : Slot) (o : Word) : Bool :=
  sl.sends.any fun e => match e with
    | .coll _ p _ => groupHome p == groupHome o
    | _ => false

def execLeave (a d : BitVec 5) (s : State) : Out :=
  issue s [xr a] [xr d] fun s c i sl =>
    let o := sl.rx a
    if !groupOk s o false false 0 || arrivalBuffered sl o then takeTrap s c i causeGROUP o sl.pc
    else retireIfRunning (groupAccess (setSlot s c i sl) c i o (.leave sl.actor) (.member d.toNat o)) c i
      (sl.pc + 4)

/-- A collective at issue (R189): the operand, the arrivals buffered, the full buffer, then the query of the home. -/
def collective (s : State) (c : Nat) (i : Fin 4) (sl : Slot) (o : Word) (maxOp : Nat) (kind : CollKind) (payload : Vec) :
    State :=
  if !groupOk s o true true maxOp || arrivalBuffered sl o then takeTrap s c i causeGROUP o sl.pc
  else if bufferFull sl then takeTrap s c i causeGROUP fullTval sl.pc
  else
    let s := setSlot s c i { sl with sends := sl.sends ++ [.coll kind o payload] }
    retireIfRunning (groupAccess s c i o (.query sl.actor) (.query o)) c i (sl.pc + 4)

def execGbar (a : BitVec 5) (s : State) : Out :=
  issue s [xr a] [] fun s c i sl => collective s c i sl (sl.rx a) 0 .gbar 0
def execXred (b a : BitVec 5) (s : State) : Out :=
  issue s [xr a, vr b] [] fun s c i sl => collective s c i sl (sl.rx a) 9 (.xred (groupOp (sl.rx a))) (sl.rv b)
def execXbcast (b a : BitVec 5) (s : State) : Out :=
  issue s [xr a, vr b] [] fun s c i sl => collective s c i sl (sl.rx a) 1 .xbcast (sl.rv b)

/-! ### Actors (R193, R194) -/

def execActnew (a d : BitVec 5) (s : State) : Out :=
  issue s [xr a] [xr d] fun s c i sl =>
    memInstr s c i sl (relaxedLoad sl) false [] [⟨0, sl.rx a, 64, .read, fun pa => .read pa 64, .actnew d.toNat⟩]

def execActend (s : State) : Out :=
  issue s [] [] fun s c i sl => retire (setSlot s c i { sl with actend := true }) c i 0 (sl.pc + 4)

/-! ### Tasks (R195 to R199) -/

/-- W of the slot's launch. -/
def taskWords (s : State) (sl : Slot) : Nat := match getLaunch s sl.launch with | some l => l.words | none => 1

/-- Registers that an operand's value adds to those an instruction names: they wait or trap as the others (R19, R21). -/
def alsoReady (s : State) (c : Nat) (i : Fin 4) (sl : Slot) (srcs dsts : List RegRef) (f : State) : State :=
  match sl.ready srcs dsts with
  | .wait w => stallSlot s c i w
  | .trap cause tval => takeTrap s c i cause tval sl.pc
  | .go => f

def execQpush (b a : BitVec 5) (s : State) : Out :=
  issue s [xr a] [] fun s c i sl =>
    let o := sl.rx a
    let w := taskWords s sl
    let level := o.toNat % 4
    let close := o.getLsbD 8
    let regs := (group b w).filter (· < 32)
    alsoReady s c i sl (if close then [] else regs.map fun r => ⟨.v, r⟩) [] <|
      if level = 3 || o.toNat / 2 ^ 9 != 0 || o.toNat / 4 % 64 != 0 || (close && level != 2) || 32 < b.toNat + w then
        takeTrap s c i causeTASK o sl.pc
      else bufferEntry s c i sl causeTASK (.qpush o level close (if close then [] else regs.map sl.getV))

/-- Registers from r upward take the words of a task. -/
def taskToRegs (sl : Slot) (r : Nat) : List Vec → Slot
  | [] => sl
  | w :: rest => taskToRegs (sl.setVar ⟨.v, r⟩ w) (r + 1) rest

/-- R196: QPOP takes the oldest task of the core queue, or finds the three queues empty, or waits for a draw. -/
def takeOrDraw (s : State) (c : Nat) (i : Fin 4) (rd vs2 : Nat) : State :=
  let sl := getSlot s c i
  let sl := { sl with status := .running, stall := none }
  let r := getResident s c sl.launch
  match r.tasks with
  | t :: rest =>
    if t.bad then messagePoison s c i sl.pc else
    let s := setResident s c { r with tasks := rest }
    retire (setSlot s c i
      { taskToRegs (sl.setVar ⟨.x, rd⟩ 0) vs2 t.words with popped := sl.popped ++ [t] }) c i 0 (sl.pc + 4)
  | [] =>
    if drawable s c sl.launch then setSlot s c i { sl with status := .draw rd vs2 }
    else
      retire (setSlot s c i (sl.setVar ⟨.x, rd⟩ (if dieClosed s sl.launch (dieOf c) then 2 else 1))) c i 0 (sl.pc + 4)

def execQpop (b d : BitVec 5) (s : State) : Out :=
  issue s [] [xr d] fun s c i sl =>
    let w := taskWords s sl
    if 32 < b.toNat + w then takeTrap s c i causeTASK (BitVec.ofNat 64 w) sl.pc
    else if 64 ≤ sl.popped.length then takeTrap s c i causeTASK fullTval sl.pc
    else alsoReady s c i sl [] (groupRefs b w) (takeOrDraw s c i d.toNat b.toNat)

def execTarm (b a : BitVec 5) (s : State) : Out :=
  issue s [xr a, xr b] [] fun s c i sl =>
    withChecked s c i sl .write 64 [sl.rx a] fun _ =>
      if sl.rx b = 0 && bufferFull sl then takeTrap s c i causeTASK fullTval sl.pc
      else if 2 ^ 32 ≤ (sl.rx b).toNat then takeTrap s c i causeTASK (sl.rx a) sl.pc
      else memInstr s c i sl (gating .rel .module true true) false []
        [⟨0, sl.rx a, 64, .write, fun pa => .tarm pa (sl.rx a) (sl.rx b), .tarm (sl.rx a)⟩]

/-- TDONE at issue (R199): the block must be writable, since its commit writes it (log 15). -/
def execTdone (a : BitVec 5) (s : State) : Out :=
  issue s [xr a] [] fun s c i sl =>
    withChecked s c i sl .write 64 [sl.rx a] fun _ =>
      if bufferFull sl then takeTrap s c i causeTASK fullTval sl.pc
      else memInstr s c i sl (gating .acq .module true false) false []
        [⟨0, sl.rx a, 64, .write, fun pa => .tdoneState pa, .tdone (sl.rx a)⟩]

/-! ### Gated egress (R200, R201) -/

def egressOp (op : EgrOp) (data : Slot → Vec) (srcs : List RegRef) (a : BitVec 5) (s : State) : Out :=
  issue s ([xr a] ++ srcs) [] fun s c i sl =>
    let o := sl.rx a
    if o.toNat / 64 % 4 != 0 || (getEgress s (egQueue o)).owner != sl.ctx then takeTrap s c i causeEGRESS o sl.pc
    else bufferEntry s c i sl causeEGRESS (.egr op o (data sl))

def execEgpost (b a : BitVec 5) (s : State) : Out := egressOp .post (fun sl => sl.rv b) [vr b] a s
def execEgrel (a : BitVec 5) (s : State) : Out := egressOp .rel (fun _ => 0) [] a s
def execEgdrop (a : BitVec 5) (s : State) : Out := egressOp .drop (fun _ => 0) [] a s

end Sys2Proof.Machine
end

