-- ==== Sys2Proof/Machine/Matrix.lean ====
section
/-! DEFINITION. The matrix unit: row moves, multiply-accumulate, tiles to and from memory, mirrored swaps (09 R203 to R212). -/
namespace Sys2Proof.Machine

/-! ### Tiles (R204, R205) -/

def tZb (t : Word) : Nat := t.toNat % 2 ^ 11
def tM (t : Word) : Nat := t.toNat / 2 ^ 16 % 64
def tN (t : Word) : Nat := t.toNat / 2 ^ 32 % 64
def tGap (t : Word) : Nat := t.toNat / 2 ^ 44 % 16
def tAstr (t : Word) : Nat := t.toNat / 2 ^ 48 % 256
def tBstr (t : Word) : Nat := t.toNat / 2 ^ 56

/-- Accumulator kinds: 0 FP32, 1 INT32, 2 XF. -/
def accBits (acc : Nat) : Nat := if acc = 2 then 64 else 32
def accPerRow (acc : Nat) : Nat := 512 / accBits acc
def accPitch (acc : Nat) : Nat := if acc = 2 then 6 else 3
/-- Accumulator rows that one tile row touches. -/
def tileRowSpan (acc : Nat) (t : Word) : Nat := (tN t + accPerRow acc - 1) / accPerRow acc
def tileRow (acc : Nat) (t : Word) (i q : Nat) : Nat := tZb t + accPitch acc * i + q
/-- The rows that a tile touches, ascending within each tile row. -/
def tileRows (acc : Nat) (t : Word) : List Nat :=
  (List.range (tM t)).flatMap fun i => (List.range (tileRowSpan acc t)).map fun q => tileRow acc t i q

/-- R205 step 1: whether the fields of a tile word are good; gap and bstr say whether those fields may be used. -/
def tileOk (t : Word) (gap bstr : Bool) : Bool :=
  1 ≤ tM t && tM t ≤ 48 && 1 ≤ tN t && tN t ≤ 48 && t.toNat / 2 ^ 38 % 64 = 0 && t.toNat / 2 ^ 22 % 1024 = 0
    && t.toNat / 2 ^ 11 % 32 = 0 && (gap || tGap t = 0) && (bstr || tBstr t = 0)

/-- The lowest row of a list that the activation may not name (R24, R205). -/
def lowestBad (s : State) (sl : Slot) (rows : List Nat) : Option Nat :=
  rows.foldl (fun acc r => if rowAccess s sl r then acc else match acc with
    | some x => some (min x r)
    | none => some r) none

/-- R205: the checks of a tile word at issue. -/
def withTile (s : State) (c : Nat) (i : Fin 4) (sl : Slot) (acc : Nat) (t : Word) (gap bstr : Bool) (f : State) : State :=
  if !tileOk t gap bstr then takeTrap s c i causeENGINE t sl.pc
  else match lowestBad s sl (tileRows acc t) with
    | some r => takeTrap s c i causeACCESS (BitVec.ofNat 64 r) sl.pc
    | none => f

/-- Element (i, j) of a tile, as bits. -/
def tileElem (k : Core) (acc : Nat) (t : Word) (i j : Nat) : Nat :=
  lane (rowValue k (tileRow acc t i (j / accPerRow acc))) (accBits acc) (j % accPerRow acc)

/-- A row of a tile with each element of it replaced. -/
def updateRow (k : Core) (acc : Nat) (t : Word) (i q : Nat) (f : Nat → Nat → Nat → Nat) : Vec :=
  let old := rowValue k (tileRow acc t i q)
  ofLanes (accBits acc) ((List.range (accPerRow acc)).map fun l =>
    let j := q * accPerRow acc + l
    if j < tN t then f i j (lane old (accBits acc) l) else lane old (accBits acc) l)

/-- A tile with each element replaced by f i j old, for the tile rows and row positions listed. -/
def updateRows (acc : Nat) (t : Word) (f : Nat → Nat → Nat → Nat) (k : Core) : List (Nat × Nat) → Core
  | [] => k
  | (i, q) :: rest => updateRows acc t f (setRow k (tileRow acc t i q) (updateRow k acc t i q f)) rest

def updateTile (k : Core) (acc : Nat) (t : Word) (f : Nat → Nat → Nat → Nat) : Core :=
  updateRows acc t f k ((List.range (tM t)).flatMap fun i => (List.range (tileRowSpan acc t)).map fun q => (i, q))

/-! ### Queueing and completing (R203) -/

def queueMat (s : State) (c : Nat) (i : Fin 4) (kind : MatKind) (need : Nat) : State :=
  let sl := getSlot s c i
  setSlot { s with nextId := s.nextId + 1 } c i { sl with mats := sl.mats ++ [⟨s.nextId, sl.pc, kind, need, []⟩] }

/-- The formats of MMAC (R207) as format codes of R77, and their accumulators. -/
def mmacFmt (f : Nat) : Nat :=
  match f with
  | 0 => 2
  | 1 => 3
  | 2 => 4
  | 3 => 5
  | 4 => 1
  | _ => 6
def mmacAcc (f : Nat) : Nat := match f with | 2 => 2 | 3 => 2 | 5 => 1 | _ => 0

/-- One product added to an accumulator element (R95, R96, R98). -/
def macStep (f : Nat) (sat : Bool) (acc : Nat) (a b : FVal) : Nat :=
  if mmacAcc f = 2 then xfEncode (xfAdd (xfDecode acc) (xfOfVal (fprod a b).1))
  else if mmacAcc f = 1 then
    let p : Int := match a, b with
      | .fin na ma _, .fin nb mb _ => (if na then -(ma : Int) else ma) * (if nb then -(mb : Int) else mb)
      | _, _ => 0
    let v := sintOf 32 acc + p
    toBits 32 (if sat then saturate (-(2 ^ 31)) (2 ^ 31 - 1) v else v)
  else (finish32 RNE (fsum RNE (fp32 acc) (fprod a b).1)).1

/-- Block pos of an operation. -/
def blockAt (m : MatOp) (pos : Nat) : Vec × Desc :=
  match m.blocks.find? (fun b => b.1 == pos) with
  | some b => b.2
  | none => (0, 0)

/-- A dot product in ascending k (R100). -/
def macRow (f : Nat) (sat : Bool) (a b : Vec × Desc) (acc : Nat) : Nat :=
  let fmt := mmacFmt f
  (List.range (512 / fmtBits fmt)).foldl (fun acc k =>
    macStep f sat acc (elementValue fmt a.2 (element a.1 fmt k)) (elementValue fmt b.2 (element b.1 fmt k))) acc

/-- R208: the population count added once. -/
def binStep (isAnd sat : Bool) (a b : Vec) (acc : Nat) : Nat :=
  let n := popCount (if isAnd then a &&& b else a ^^^ b).toNat 512
  let v := sintOf 32 acc + (n : Int)
  toBits 32 (if sat then saturate (-(2 ^ 31)) (2 ^ 31 - 1) v else v)

/-- A memory element taken into an accumulator (R210). An XF element is the significand and exponent that the format's decoding gives
(R391 allows any pair of the value; DESIGN CHOICE, log 88), and a NaN becomes the canonical one (DESIGN CHOICE, log 89). -/
def loadElem (acc fmt : Nat) (d : Desc) (bits : Nat) : Nat :=
  if acc = 1 then toBits 32 (sintOf 8 bits)
  else if acc = 2 then xfEncode (xfOfVal (elementValue fmt d bits))
  else (fencode fmtFP32 RNE (elementValue fmt d bits)).1

/-- Elements in a memory block of a format; a raw block holds one accumulator row. -/
def perBlock (acc fmt : Nat) : Nat := if fmt = 0 then accPerRow acc else 512 / fmtBits fmt
def blocksPerRow (acc fmt : Nat) (t : Word) : Nat := (tN t + perBlock acc fmt - 1) / perBlock acc fmt

/-- An MLOAD's blocks that have arrived, put into the tile: pos is the tile row with the block above bit 6. -/
def loadBlocks (acc fmt : Nat) (t : Word) (k : Core) : List (Nat × Vec × Desc) → Core
  | [] => k
  | (pos, v, d) :: rest =>
    let i := pos % 64
    let b := pos / 64
    let n := perBlock acc fmt
    let qs := (List.range (tileRowSpan acc t)).filter fun q =>
      rangesMeet (b * n) n (q * accPerRow acc) (accPerRow acc)
    let k := updateRows acc t (fun _ j old =>
      if b * n ≤ j && j < (b + 1) * n then
        (if fmt = 0 then lane v (accBits acc) (j - b * n) else loadElem acc fmt d (element v fmt (j - b * n)))
      else old) k (qs.map fun q => (i, q))
    loadBlocks acc fmt t k rest

/-- The rows that the blocks of an MLOAD write only in part: they stay poisoned (R342). -/
def partRows (acc fmt : Nat) (t : Word) (blocks : List (Nat × Vec × Desc)) : List Nat :=
  (List.range (tM t)).flatMap fun i => ((List.range (tileRowSpan acc t)).filter fun q =>
    (List.range (accPerRow acc)).any fun l =>
      let j := q * accPerRow acc + l
      tN t ≤ j || !blocks.any fun b => b.1 == i + 64 * (j / perBlock acc fmt)).map (tileRow acc t i)

/-- The rows an operation reads. -/
def MatOp.rowsRead (m : MatOp) : List Nat :=
  match m.kind with
  | .mrdv _ row => [row]
  | .mmac f _ t => tileRows (mmacAcc f) t
  | .mbin _ _ t => tileRows 1 t
  | _ => []

/-- What an operation whose operands have arrived does to the rows of its core (R206 to R210). -/
def landMat (k : Core) (m : MatOp) : Core :=
  match m.kind with
  | .mzero first count => zeroRows k first count
  | .mrdv _ _ => k
  | .mwrv row v => setRow k row v
  | .mmac f sat t => updateTile k (mmacAcc f) t fun x y acc => macRow f sat (blockAt m x) (blockAt m (tM t + y)) acc
  | .mbin isAnd sat t => updateTile k 1 t fun x y acc => binStep isAnd sat (blockAt m x).1 (blockAt m (tM t + y)).1 acc
  | .mload acc fmt t =>
    let k' := loadBlocks acc fmt t k m.blocks
    { k' with badRows := k'.badRows ++ (partRows acc fmt t m.blocks).filter fun r => k.badRows.contains r && !k'.badRows.contains r }

/-- A matrix operation whose operands have arrived takes effect (R203); a poisoned row traps (R342). -/
def completeMat (s : State) (c : Nat) (i : Fin 4) (m : MatOp) : State :=
  let k := getCore s c
  match m.rowsRead.find? (fun r => k.badRows.contains r) with
  | some r =>
    trapFrom 6 (homeMusic s (coreNode c) 3 (c % 4096 * 2 ^ 16 + r)) c i causeACCESS (BitVec.ofNat 64 r) m.epc
  | none =>
    match m.kind with
    | .mrdv vd row => modSlot s c i fun sl => sl.setReg ⟨.v, vd⟩ (rowValue k row)
    | _ => setCore s (landMat k m)

/-- The first operation of an aborted activation that may take effect: its blocks have arrived and no earlier operation of its
actor is due (R203). -/
def firstLate : List LateMat → List LateMat → Option LateMat
  | _, [] => none
  | before, m :: rest =>
    if m.accs.isEmpty && !before.any (fun x => x.launch == m.launch && x.actor == m.actor) then some m
    else firstLate (before ++ [m]) rest

/-- A matrix operation of an aborted activation takes effect on the rows that its actor owns (R29); rows that were parked are free.
A poisoned row stops it and is recorded (R342). -/
def landLate (s : State) (c : Nat) (m : LateMat) : State :=
  let k := getCore s c
  let rest := k.late.filter fun x => x.op.id != m.op.id
  let own (row : Nat) : Bool := match getActor s m.launch m.actor with | some a => a.owns row | none => false
  match m.op.rowsRead.find? (fun r => k.badRows.contains r) with
  | some r => homeMusic (setCore s { k with late := rest }) (coreNode c) 3 (c % 4096 * 2 ^ 16 + r)
  | none =>
    let t := landMat k m.op
    setCore s { k with late := rest
                       rows := (t.rows.filter fun r => own r.1).foldl (fun l r => putBy (·.1) r l) (k.rows.filter fun r => !own r.1)
                       badRows := k.badRows.filter fun r => !own r || t.badRows.contains r }

/-! ### Row moves (R206) -/

/-- R206: a row range that is not accessible traps with its lowest offending row, or with X[rs1] above 2,047. -/
def withRows (s : State) (c : Nat) (i : Fin 4) (sl : Slot) (first count : Nat) (f : State) : State :=
  match ((List.range (min count 2049)).map (first + ·)).find? (fun r => !rowAccess s sl r) with
  | some r => takeTrap s c i causeACCESS (BitVec.ofNat 64 r) sl.pc
  | none => f

def execMzero (b a : BitVec 5) (s : State) : Out :=
  issue s [xr a, xr b] [] fun s c i sl =>
    withRows s c i sl (sl.rx a).toNat (sl.rx b).toNat <|
      retire (queueMat s c i (.mzero (sl.rx a).toNat (sl.rx b).toNat) 0) c i 0 (sl.pc + 4)

def execMrdv (a d : BitVec 5) (s : State) : Out :=
  issue s [xr a] [vr d] fun s c i sl =>
    withRows s c i sl (sl.rx a).toNat 1 <|
      retire (queueMat (setSlot s c i (sl.claim [vr d])) c i (.mrdv d.toNat (sl.rx a).toNat) 0) c i 0 (sl.pc + 4)

def execMwrv (b a : BitVec 5) (s : State) : Out :=
  issue s [xr a, vr b] [] fun s c i sl =>
    withRows s c i sl (sl.rx a).toNat 1 <|
      retire (queueMat s c i (.mwrv (sl.rx a).toNat (sl.rv b)) 0) c i 0 (sl.pc + 4)

/-! ### Multiply-accumulate (R207, R208) -/

/-- The operand blocks of a tile: M rows of A, then N rows of B. -/
def operandVas (t a b : Word) : List Word :=
  (List.range (tM t)).map (fun i => a + BitVec.ofNat 64 (64 * tAstr t * i))
    ++ (List.range (tN t)).map (fun j => b + BitVec.ofNat 64 (64 * tBstr t * j))

def operandReads (op pos : Nat) : List Word → List (Nat × Nat) → List Req
  | va :: vs, (pa, key) :: ps => ⟨.readBlock pa, key, pa, va, .mat op pos⟩ :: operandReads op (pos + 1) vs ps
  | _, _ => []

/-- An operation keeps the blocks of some positions, whose reads have left; with none it is no operation. -/
def trimMat (sl : Slot) (op : Nat) (kept : List Nat) : Slot :=
  { sl with mats := if kept.isEmpty then sl.mats.filter (fun m => m.id != op)
                    else sl.mats.map fun m => if m.id == op then
                        { m with need := kept.length, blocks := m.blocks.filter fun b => kept.contains b.1 } else m,
            accs := sl.accs.map fun a => match a.dst with
              | .mat x pos => if x = op && !kept.contains pos then { a with dst := .none } else a
              | _ => a }

/-- The shared issue of MMAC and MBIN: the tile word, every block, then the reads (R207). -/
def tileReads (s : State) (c : Nat) (i : Fin 4) (sl : Slot) (acc : Nat) (t a b : Word) (kind : MatKind) : State :=
  withTile s c i sl acc t false true <|
    withChecked s c i sl .read 64 (operandVas t a b) fun ps =>
      match gate c sl (relaxedLoad sl) with
      | some w => stallSlot s c i w
      | none =>
        let op := s.nextId
        let s := queueMat s c i kind (tM t + tN t)
        retireOr (leaveReads c i (relaxedLoad sl) s (operandReads op 0 (operandVas t a b) ps)) c i (sl.pc + 4)
          (fun sl => trimMat sl op [])

def execMmac (f : BitVec 3) (sat : Bool) (b a d : BitVec 5) (s : State) : Out :=
  issue s [xr d, xr a, xr b] [] fun s c i sl =>
    tileReads s c i sl (mmacAcc f.toNat) (sl.rx d) (sl.rx a) (sl.rx b) (.mmac f.toNat sat (sl.rx d))

def execMbin (p sat : Bool) (b a d : BitVec 5) (s : State) : Out :=
  issue s [xr d, xr a, xr b] [] fun s c i sl =>
    tileReads s c i sl 1 (sl.rx d) (sl.rx a) (sl.rx b) (.mbin p sat (sl.rx d))

/-! ### Tiles to and from memory (R209, R210) -/

/-- An accumulator element as a value. -/
def accValue (acc : Nat) (bits : Nat) : FVal :=
  if acc = 2 then xfVal (xfDecode bits) else if acc = 1 then intVal (sintOf 32 bits) else fp32 bits

/-- A value as an element of a memory format other than DX (R91, R99): RNE, saturating for INT8; a NaN as the canonical one (DESIGN
CHOICE, log 89). -/
def storeElem (fmt : Nat) (v : FVal) : Nat :=
  match fmt with
  | 1 => (fencode fmtFP32 RNE v).1
  | 2 => (fencode fmtBF16 RNE v).1
  | 3 => (fencode fmtFP16 RNE v).1
  | _ => toBits 8 (toIntRange RNE (-128) 127 v).1

/-- A block of values in a memory format, with its descriptor (R92 to R94, R210). -/
def storeBlock (fmt gap : Nat) (xs : List FVal) : Vec × Desc :=
  if fmt = 4 || fmt = 5 then
    let r := dxBlock (fmt == 4) gap xs
    (BitVec.ofNat 512 (packElems (fmtBits fmt) r.1), r.2)
  else (BitVec.ofNat 512 (packElems (fmtBits fmt) (xs.map (storeElem fmt))), BitVec.ofNat 16 (fmt * 16))

/-- Block b of tile row i as MSTORE writes it. -/
def tileBlock (k : Core) (acc fmt : Nat) (t : Word) (i b : Nat) : Vec × Desc :=
  if fmt = 0 then (rowValue k (tileRow acc t i b), 0)
  else
    let n := perBlock acc fmt
    storeBlock fmt (tGap t) ((List.range n).map fun l =>
      let j := b * n + l
      if j < tN t then accValue acc (tileElem k acc t i j) else .fin false 0 0)

/-- The blocks of a tile in memory: tile row, block, address. idx is the tile row, the unit of restart (R210), with the block above
bit 6. -/
def tileElems (acc fmt : Nat) (t base : Word) (f : Nat → Nat → Elem) : List Elem :=
  (List.range (tM t)).flatMap fun i => (List.range (blocksPerRow acc fmt t)).map fun b =>
    { f i b with idx := i + 64 * b, va := base + BitVec.ofNat 64 (64 * tAstr t * i + 64 * b), size := 64 }

def execMstore (o : Ord) (k : BitVec 2) (f : BitVec 3) (b a : BitVec 5) (s : State) : Out :=
  issue s [xr a, xr b] [] fun s c i sl =>
    let t := sl.rx b
    let acc := k.toNat
    let fmt := f.toNat
    withTile s c i sl acc t (fmt == 4 || fmt == 5) false <|
      if !sl.mats.isEmpty then stallSlot s c i .matrix
      else
        let co := getCore s c
        match (tileRows acc t).find? (fun r => co.badRows.contains r) with
        | some r => rowPoisonTrap s c i r
        | none =>
          memInstr s c i sl (gating o sl.oscope false true) true [] (tileElems acc fmt t (sl.rx a) fun x y =>
            let v := tileBlock co acc fmt t x y
            ⟨0, 0, 64, .write, fun pa => .writeBlock pa v.1 v.2, .none⟩)

def execMload (o : Ord) (k : BitVec 2) (f : BitVec 3) (b a : BitVec 5) (s : State) : Out :=
  issue s [xr a, xr b] [] fun s c i sl =>
    let t := sl.rx b
    let acc := k.toNat
    let fmt := f.toNat
    let g := gating o sl.oscope true false
    withTile s c i sl acc t false false <|
      match gate c sl g with
      | some w => stallSlot s c i w
      | none =>
        let op := s.nextId
        let all := tileElems acc fmt t (sl.rx a) fun x y =>
          ⟨0, 0, 64, .read, fun pa => .readBlock pa, .mat op (x + 64 * y)⟩
        let es := if sl.active then all.dropWhile (fun e => !atPlace sl.nextReg e) else all
        match runElems c i g true (queueMat s c i (.mload acc fmt t) es.length) sl.active true es with
        | (s, true) => retire (modSlot s c i fun sl => { sl with active := false, nextReg := 0 }) c i 0 (sl.pc + 4)
        | (s, false) =>
          modSlot s c i fun now => trimMat now op
            (if now.active then (es.takeWhile fun e => !atPlace now.nextReg e).map (·.idx) else [])

/-! ### Mirrored swaps (R211) -/

/-- The mirror of a core in its cluster. -/
def mirrorCore (c : Nat) : Nat := c / 32 * 32 + c % 4 * 8 + c / 4 % 2 * 4 + c / 8 % 4

/-- The parts of a range, page by page, in the core's own slice; or the address that fails. -/
def slicePieces (s : State) (c asid : Nat) (va : Word) : Nat → Nat → Except Trans (List (Nat × Nat))
  | 0, _ => .ok []
  | fuel + 1, len =>
    if len = 0 then .ok []
    else
      let n := min len (16384 - va.toNat % 16384)
      match translate s (clusterOf c) asid va .write with
      | .ok pa _ =>
        if homeOf pa != coreNode c || !isSram pa then .error .bad
        else match slicePieces s c asid (va + BitVec.ofNat 64 n) fuel (len - n) with
          | .ok ps => .ok ((pa, n) :: ps)
          | .error e => .error e
      | t => .error t

/-- The address of the first page of a range whose translation is not at hand. -/
def firstMiss (s : State) (c asid : Nat) (va : Word) : Nat → Word
  | 0 => va
  | fuel + 1 =>
    match translate s (clusterOf c) asid va .write with
    | .miss => va
    | _ => firstMiss s c asid (va + BitVec.ofNat 64 (16384 - va.toNat % 16384)) fuel

/-- The first poisoned block of a range of the own slice, given by its parts: its virtual and its physical address. -/
def poisonedIn (s : State) (va : Word) : List (Nat × Nat) → Option (Word × Nat)
  | [] => none
  | (pa, n) :: rest =>
    match (List.range (n / 64)).find? fun k => isPoisoned s (pa + 64 * k) with
    | some k => some (va + BitVec.ofNat 64 (64 * k), pa + 64 * k)
    | none => poisonedIn s (va + BitVec.ofNat 64 n) rest

/-- The bytes and descriptors of a range of the own slice, given by its parts. -/
def rangeData (s : State) (ps : List (Nat × Nat)) : List Byte := ps.flatMap fun p => memBytes s.mem p.1 p.2
def rangeDescs (s : State) (ps : List (Nat × Nat)) : List Desc :=
  ps.flatMap fun p => (List.range (p.2 / 64)).map fun k => descOf s (p.1 + 64 * k)

def execMswap (b a d : BitVec 5) (s : State) : Out :=
  issue s [xr a, xr b] [xr d] fun s c i sl =>
    let va := sl.rx a
    let len := (sl.rx b).toNat
    if va.toNat % 64 != 0 || len % 64 != 0 then takeTrap s c i causeMISALIGN va sl.pc
    else if len < 64 || 32768 < len then takeTrap s c i causeACCESS va sl.pc
    else match slicePieces s c sl.ctx va 4 len with
      | .error .miss => suspendWalk s c i (firstMiss s c sl.ctx va 3) .write
      | .error _ => takeTrap s c i causeACCESS va sl.pc
      | .ok ps =>
        if mirrorCore c = c then retire (setSlot s c i (sl.setVar (xr d) 0)) c i 0 (sl.pc + 4)
        else match poisonedIn s va ps with
          | some bad => trapFrom 6 (homeMusic s (coreNode c) 3 bad.2) c i causeACCESS bad.1 sl.pc
          | none =>
            setSlot { s with nextId := s.nextId + 1 } c i
              { sl.claim [xr d] with status := .mswap s.nextId d.toNat len ps (rangeData s ps) (rangeDescs s ps), stall := none }

/-- The bytes and descriptors of a range written at the same offsets of another core's slice. -/
def swapInto (s : State) (core : Nat) (data : List Byte) (descs : List Desc) : List (Nat × Nat) → State
  | [] => s
  | (pa, n) :: rest =>
    let q := core / 4096 * 2 ^ 48 + core % 4096 * 0x80000 + pa % 0x80000
    let s := { s with mem := memPut s.mem q (data.take n),
                      poisoned := s.poisoned.filter fun b => b * 64 < q || q + n < b * 64 + 64 }
    let s := ((List.range (n / 64)).zip descs).foldl (fun s p => setDesc s (q + 64 * p.1) p.2) s
    swapInto s core (data.drop n) (descs.drop (n / 64)) rest

/-- The first unpaired MSWAP of a launch on a core, of an activation or of a leaf task, which names no register. -/
def firstSwap (s : State) (c l : Nat) : Option (Fin 4 × Nat × Nat × List (Nat × Nat) × List Byte × List Desc) :=
  let l := (List.finRange 4).filterMap fun i =>
    let sl := getSlot s c i
    match sl.status with
    | .mswap o rd len ps data descs => if sl.launch == l then some (o, i, rd, len, ps, data, descs) else none
    | .leafSwap _ _ o len ps data descs => if sl.launch == l then some (o, i, 0, len, ps, data, descs) else none
    | _ => none
  (l.foldl (fun acc x => match acc with
    | some y => if x.1 < y.1 then some x else acc
    | none => some x) none).map (·.2)

/-- An MSWAP ends with a result; a leaf task goes on. -/
def endSwap (s : State) (c : Nat) (i : Fin 4) (rd : Nat) (v : Vec) : State :=
  let sl := getSlot s c i
  match sl.status with
  | .leafSwap job path _ _ _ _ _ => setSlot s c i { sl with status := .leaf job path }
  | _ => retire (setSlot s c i { sl.setReg ⟨.x, rd⟩ v with status := .running }) c i 0 (sl.pc + 4)

/-- MSWAP_PAIR (R211): the two sides exchange their ranges, or with different lengths transfer nothing. -/
def execEvMswapPair (c launch : Nat) (s : State) : Out :=
  if mirrorCore c = c || !clocksRun s then notPermitted "MSWAP_PAIR"
  else match firstSwap s c launch, firstSwap s (mirrorCore c) launch with
    | some (i, rd, len, ps, data, descs), some (j, rd', len', ps', data', descs') =>
      if len != len' then .next (endSwap (endSwap s c i rd 1) (mirrorCore c) j rd' 1)
      else
        let s := swapInto (swapInto s (mirrorCore c) data descs ps) c data' descs' ps'
        .next (endSwap (endSwap s c i rd 0) (mirrorCore c) j rd' 0)
    | _, _ => notPermitted "MSWAP_PAIR"

end Sys2Proof.Machine
end

