-- ==== Sys2Proof/Machine/Commit.lean ====
section
/-! DEFINITION. The end of an activation: HEND steps 2 to 5 and the commit of the send buffer (05 R122, 08 R172 to R176,
R194, R195, R198, R199, R202), the handler budget (01 R37), and results that complete (R21). -/
namespace Sys2Proof.Machine

/-- Moves of the compute dies are made only while their clocks run (R351, R356, R359). -/
def guarded (event : String) (s : State) (ok : Bool) (f : State) : Out :=
  if clocksRun s && ok then .next f else notPermitted event

/-- A command to the marionette die, or an access to its devices: it is there once the module has booted (R351), and changes nothing
while a trip holds the module (R359). -/
def command (event : String) (s : State) (ok : Bool) (t : State) : Out :=
  if managed s && ok then .next (unlessTripped s t) else notPermitted event

/-! ### Reductions (R102) -/

/-- A SENDR payload is added into its cell at the home. A poisoned cell ends the launch, reported as the commit that met it
(R335 origin 6, R342). -/
def performRed (s : State) (pa key : Nat) (w0 w1 : Vec) (r : FaultReport) : State :=
  if isPoisoned s pa then report (homeMusic s (homeOf pa) 3 pa) r
  else
    writeThrough s pa key (reduceCell (blockThrough s pa key) w0 w1) (byteMask 64)

/-! ### Accesses of a commit (R174) -/

def commitGating : Gating := ⟨false, false, false, .module, true, true⟩

/-- An access of a commit leaves; its answer is kept in the slot. -/
def commitAccess (s : State) (c : Nat) (i : Fin 4) (pa key : Nat) (va : Word) (op : MemOp) (st : CommitStep) : State :=
  leaveIssue (modSlot s c i fun sl => { sl with commit := st, result := none }) c i commitGating ⟨op, key, pa, va, .commit va⟩

/-- What a step of a commit comes to. -/
inductive Committed where
  /-- a step of the entry is made -/
  | step (s : State)
  /-- the entry is committed -/
  | done (s : State)
  /-- it cannot be accepted yet -/
  | wait
  /-- the translation of an address is not cached (R268) -/
  | miss (va : Word) (kind : AccessKind)
  /-- a fault that the core's own group home has found and reported (R189): this entry and the later ones are discarded -/
  | reported (s : State)
  /-- a fault found at commit -/
  | fault (cause : Nat) (tval : Word)

/-- An access of a commit at an address goes on with the translation, waits for a walk, or is a fault found at commit (R174). -/
def withCommitPa (s : State) (c asid : Nat) (va : Word) (kind : AccessKind) (f : Nat → Nat → State) : Committed :=
  match translate s (clusterOf c) asid va kind with
  | .ok pa key => .step (f pa key)
  | .miss => .miss va kind
  | .bad => .fault causeACCESS va

/-- Released blocks by rising address (R199). -/
def insertRelease (x : Word × Nat × Vec) : List (Word × Nat × Vec) → List (Word × Nat × Vec)
  | [] => [x]
  | y :: r => if x.1.toNat ≤ y.1.toNat then x :: y :: r else y :: insertRelease x r

/-- The task of a released block: its block as it stands after release, then zeros (R199). -/
def releaseTask (s : State) (c l : Nat) (b : Vec) : Task :=
  newTask c (b :: List.replicate ((match getLaunch s l with | some x => x.words | none => 1) - 1) 0)

/-- The report of a task that a commit pushes and that meets a closed queue (R195, R335). -/
def pushReport (sl : Slot) (c : Nat) (i : Fin 4) (tval : Word) : FaultReport :=
  { trapReport sl c i 2 causeTASK tval sl.pc with prog := 0 }

/-- Every task that a core has pushed to the queues above its own has performed (R174). -/
def queuesQuiet (s : State) (c : Nat) : Bool :=
  (getPair s (coreNode c) (queueNode c 1)).quiet && (getPair s (coreNode c) (queueNode c 2)).quiet

/-- One released block is pushed at its level of the committing core. -/
def pushRelease (s : State) (c : Nat) (i : Fin 4) (l : Nat) (b : Word) (level : Nat) (v : Vec)
    (rest : List (Word × Nat × Vec)) : Committed :=
  let sl := getSlot s c i
  if dieClosed s l (dieOf c) then .fault causeTASK b
  else match pushTask s c l sl.ctx level (releaseTask s c l v) (pushReport sl c i b) with
    | none => .wait
    | some s =>
      let s := modSlot s c i fun sl => { sl with commit := .push rest }
      if rest.isEmpty && queuesQuiet s c then .done s else .step s

/-- The steps of the commit of a TDONE or a TARM release after its first (R198, R199). -/
def commitStep (s : State) (c : Nat) (i : Fin 4) (tdone : Bool) : Committed :=
  let sl := getSlot s c i
  match sl.commit, sl.result with
  | .block b, some (code, v, _) =>
    if code != 0 then .fault causeTASK b
    else if tdone then
      .step (setSlot s c i { sl with commit := .readSucc (BitVec.ofNat 64 (tcbSucc v)) 0 (tcbNsucc v) [], result := none })
    else .step (setSlot s c i { sl with commit := .push [(b, tcbLevel v, v)], result := none })
  | .readSucc list k n rel, none =>
    if n ≤ k then
      (if rel.isEmpty then .done s else .step (setSlot s c i { sl with commit := .push rel }))
    else
      let a := list + BitVec.ofNat 64 (8 * k)
      withCommitPa s c sl.ctx a .read fun pa key => commitAccess s c i pa key a (.read pa 8) (.readSucc list k n rel)
  | .readSucc list k n rel, some (_, v, _) =>
    let b : Word := v.setWidth 64
    if b.toNat % 64 != 0 then .fault causeTASK b
    else withCommitPa s c sl.ctx b .write fun pa key =>
      commitAccess s c i pa key b (.decrement pa) (.decSucc list k n b rel)
  | .decSucc list k n b rel, some (code, v, _) =>
    if code != 0 then .fault causeTASK b
    else
      let rel := if tcbCount v = 0 then insertRelease (b, tcbLevel v, v) rel else rel
      .step (setSlot s c i { sl with commit := .readSucc list (k + 1) n rel, result := none })
  | .push ((b, level, v) :: rest), _ =>
    if queuesQuiet s c then pushRelease s c i sl.launch b level v rest else .wait
  | .push [], _ => if queuesQuiet s c then .done s else .wait
  | _, _ => .wait

/-- The effect of an entry at commit (R174). The packet of a GBAR, XRED or XBCAST, which has no class of its own, takes the CLASS of the
group operand (R325 does not say; DESIGN CHOICE, log 107). -/
def commitEntry (s : State) (c : Nat) (i : Fin 4) (e : SendEntry) : Committed :=
  let sl := getSlot s c i
  match e with
  | .send name ch cls words =>
    let (m, s) := newMsg s c cls words
    match sendMsg s c sl.ctx sl.launch name ch m with
    | some s => .done s
    | none => .wait
  | .red va pa key _ w0 w1 =>
    let r : FaultReport := { trapReport sl c i 6 causeACCESS va sl.pc with prog := 0 }
    if homeOf pa = coreNode c then .done (performRed s pa key w0 w1 r)
    else .done (enqueue s (coreNode c) (homeOf pa) (newAccess 4 sl.ctx va (.red sl.launch pa key w0 w1 r)))
  | .gsend o cls words =>
    let (q, s) := nextSeq s c
    let op := GroupOp.deliver cls words (msgidOf c q)
    if groupHome o = c then .done (performGroup s sl.launch o op).1
    else .done (enqueue s (coreNode c) (coreNode (groupHome o))
      (newPacket (2 * words.length) cls sl.ctx (.grp sl.launch o op none)))
  | .coll kind o payload =>
    let op := GroupOp.arrive sl.actor kind payload
    if groupHome o = c then
      let t := (performGroup s sl.launch o op).1
      if s.reports.length < t.reports.length then .reported t else .done t
    else .done (enqueue s (coreNode c) (coreNode (groupHome o))
      (newPacket (if kind == .gbar then 0 else 2) (groupClass o) sl.ctx (.grp sl.launch o op none)))
  | .qpush o level close words =>
    if close then
      .done (enqueue s (coreNode c) (queueNode c 2) (newPacket 0 0 sl.ctx (.close sl.launch)))
    else if dieClosed s sl.launch (dieOf c) then .fault causeTASK o
    else
      match pushTask s c sl.launch sl.ctx level (newTask c words) (pushReport sl c i o) with
      | none => .wait
      | some s => .done s
  | .tdone b =>
    match sl.commit with
    | .idle =>
      withCommitPa s c sl.ctx b .write fun pa key => commitAccess s c i pa key b (.tdoneSet pa) (.block b)
    | _ => commitStep s c i true
  | .tarmRelease b =>
    match sl.commit with
    | .idle =>
      withCommitPa s c sl.ctx b .write fun pa key => commitAccess s c i pa key b (.tarmRelease pa) (.block b)
    | _ => commitStep s c i false
  | .egr op o data =>
    if op == .post && egressFull s (egQueue o) then .wait
    else .done (enqueue s (coreNode c) (egressNode (c / 4096))
      (newPacket (if op == .post then 2 else 0) 0 sl.ctx (.egr sl.launch c (egQueue o) op o data)))
  | .mdrop _ => .done s

/-- The leave of an ending actor from its groups, each behind the arrivals committed before it (R194). -/
def leaveGroups (s : State) (c l name asid : Nat) : List Nat → State
  | [] => s
  | h :: r =>
    let o : Word := BitVec.ofNat 64 h
    let s := if h = c then (performGroup s l o (.ended name)).1
             else enqueue s (coreNode c) (coreNode h) (newPacket 0 0 asid (.grp l o (.ended name) none))
    leaveGroups s c l name asid r

/-- R194: the effect of ACTEND at the end of HEND step 3. -/
def endActor (s : State) (c l name asid : Nat) : State :=
  match getActor s l name with
  | none => s
  | some a =>
    let s := leaveGroups s c l name asid a.groups
    let n := (a.chans.map fun ch => ch.queue.length).sum + a.box.length
    let s := countDropped s l n
    modActor s l name fun a => { a with place := .ended, zrows := 0, chans := [], box := [] }

/-- HEND steps 4 and 5: held messages and tasks are consumed, parked rows are freed, slot and actor are free (R122, R40). -/
def finishSlot (s : State) (c : Nat) (i : Fin 4) : State :=
  let sl := getSlot s c i
  let s := if sl.actend then endActor s c sl.launch sl.actor sl.ctx else s
  let s := if sl.oneStep then modActor s sl.launch sl.actor fun a => { a with firstHalt := true } else s
  setSlot s c i Slot.reset

/-- The entry is committed: the next one comes. -/
def nextEntry (s : State) (c : Nat) (i : Fin 4) : State :=
  modSlot s c i fun sl => { sl with sends := sl.sends.tail, commit := .idle, result := none, waited := 0 }

/-- COMMIT (R174, R122): once step 2 of HEND holds, one step of the next entry, or the end of the activation. -/
def execEvCommit (c : Nat) (sl : Fin 4) (s : State) : Out :=
  let x := getSlot s c sl
  let live := match getLaunch s x.launch with | some l => l.live | none => false
  if clocksRun s && x.status == .hend && x.accs.isEmpty && x.mats.isEmpty && live then
    match x.sends with
    | [] => .next (finishSlot s c sl)
    | e :: _ =>
      match commitEntry s c sl e with
      | .step s => .next s
      | .done s => .next (nextEntry s c sl)
      | .wait => notPermitted "COMMIT"
      | .miss va kind => .next (setSlot s c sl { x with status := .hendWalk va kind false })
      | .reported s => .next (abortSlot s c sl)
      | .fault cause tval => .next (trapFrom 2 s c sl cause tval x.pc)
  else notPermitted "COMMIT"

/-- EGPOST_TIMEOUT (R202): a post that has waited 2^24 cycles at commit for a full queue ends the launch. -/
def execEvEgpostTimeout (c : Nat) (sl : Fin 4) (s : State) : Out :=
  let x := getSlot s c sl
  guarded "EGPOST_TIMEOUT" s
    (egressWaits s x && decide (2 ^ 24 ≤ x.waited))
    (report (abortSlot s c sl) { agentFault x.launch causeEGRESS 5 0 c with actor := x.actor })

/-- BUDGET (R37): the budget has reached 0 before HEND. -/
def execEvBudget (c : Nat) (sl : Fin 4) (s : State) : Out :=
  let x := getSlot s c sl
  guarded "BUDGET" s (countsBudget x && x.budget == 0) (budgetTrap s c sl)

/-- SEQUENCE (R246): a free token is given to a waiting sc access. -/
def execEvSequence (c : Nat) (sl : Fin 4) (s : State) : Out :=
  let x := getSlot s c sl
  match x.status with
  | .token q =>
    guarded "SEQUENCE" s (!s.tokens.contains q)
      (setSlot { s with tokens := s.tokens ++ [q] } c sl { x with status := .running, token := some q })
  | _ => notPermitted "SEQUENCE"

/-- A local variable-latency result takes effect (R21): its registers and flags. -/
def completeLocal (sl : Slot) (r : LocalRes) : Slot :=
  { sl.setRegs r.writes with fflags := sl.fflags ||| r.flags }

/-- VARIABLE_LATENCY_WRITE (R21, R203): result n of the slot completes, or, with n their number, its oldest matrix
operation, or, with n one more, the first operation that an aborted activation has left due (R29). -/
def execEvVariableLatencyWrite (c : Nat) (sl : Fin 4) (n : Nat) (s : State) : Out :=
  let x := getSlot s c sl
  match x.locals[n]? with
  | some r =>
    guarded "VARIABLE_LATENCY_WRITE" s true (setSlot s c sl (completeLocal { x with locals := x.locals.eraseIdx n } r))
  | none =>
    if n == x.locals.length + 1 then
      match firstLate [] (getCore s c).late with
      | some m => guarded "VARIABLE_LATENCY_WRITE" s true (landLate s c m)
      | none => notPermitted "VARIABLE_LATENCY_WRITE"
    else match x.mats with
    | m :: rest =>
      guarded "VARIABLE_LATENCY_WRITE" s (n == x.locals.length && m.blocks.length == m.need)
        (completeMat (setSlot s c sl { x with mats := rest }) c sl m)
    | [] => notPermitted "VARIABLE_LATENCY_WRITE"

/-- DIRECTORY_LOOKUP (R177): a miss is resolved and the slot goes on. -/
def execEvDirectoryLookup (c : Nat) (sl : Fin 4) (s : State) : Out :=
  let x := getSlot s c sl
  match x.status with
  | .lookup name =>
    let node := match getActor s x.launch name with | some a => a.node | none => coreNode c
    guarded "DIRECTORY_LOOKUP" s true (cacheNode (setSlot s c sl { x with status := .running }) c x.launch name node)
  | _ => notPermitted "DIRECTORY_LOOKUP"

/-- A slot's request has been answered. -/
def answered (s : State) (c : Nat) (i : Fin 4) : State :=
  { s with requests := s.requests.filter fun r => !(r.core == c && r.slot == i) }

/-- ECALL_RESUME (R119): a0 and a1 take the results, visible to the next instruction. A debugger's STEP over the ECALL halts here, at the
instruction after it (R346 does not say when; DESIGN CHOICE, log 83). -/
def execEvEcallResume (c : Nat) (sl : Fin 4) (r0 r1 : Word) (s : State) : Out :=
  let x := getSlot s c sl
  guarded "ECALL_RESUME" s (x.status == .ecall)
    (setSlot (answered s c sl) c sl (stepHalt { (x.setReg ⟨.x, 5⟩ (ofWord r0)).setReg ⟨.x, 6⟩ (ofWord r1) with status := .running } x.pc))

/-- ECALL_REFUSE (R119): the activation is aborted and the launch ends with cause ECALL. -/
def execEvEcallRefuse (c : Nat) (sl : Fin 4) (s : State) : Out :=
  let x := getSlot s c sl
  guarded "ECALL_REFUSE" s (x.status == .ecall) (takeTrap s c sl causeECALL 0 x.epc)

end Sys2Proof.Machine
end

