-- ==== Sys2Proof/Machine/Schedule.lean ====
section
/-! DEFINITION. Dispatch (12 R287 to R290, 01 R28), task draws and balancing (R292, R293), and UNBOUND (08 R183). -/
namespace Sys2Proof.Machine

/-! ### Selection (R287 to R289) -/

/-- Whether a context is running and not being pre-empted (R278, R305). -/
def ctxRuns (s : State) (asid : Nat) : Bool :=
  match getContext s asid with
  | some c => c.running && !c.leaving
  | none => false

/-- A dispatch candidate: its launch, actor and channel, whether it is a task candidate, its effective priority and its
arrival. -/
structure Candidate where
  launch : Nat
  name   : Nat
  chan   : Nat
  task   : Bool
  e      : Nat
  arr    : Nat
  deriving DecidableEq, Repr

/-- R288: the effective priority of a priority and a wait. -/
def effective (prio wait : Nat) : Nat := min 7 (prio + wait / 2 ^ 16)

/-- The candidates of an actor on its core. -/
def actorCandidates (s : State) (l : Launch) (a : Actor) : List Candidate :=
  let k := getCore s a.core
  let r := getResident s a.core l.id
  a.chans.filterMap fun ch =>
    if !ch.bound || !ch.en then none
    else if ch.task then
      (r.tasks.head?).map fun t => ⟨l.id, a.name, ch.num, true, effective ch.prio (t.age + (k.cycle - t.since)), t.arr⟩
    else match ch.queue with
      | [] => none
      | m :: _ =>
        if r.cmask.getLsbD m.cls then none
        else some ⟨l.id, a.name, ch.num, false, effective ch.prio (m.age + (k.cycle - m.since)), m.arr⟩

/-- R287: an actor whose dispatch may be considered: idle, on its core, not halted. -/
def idleActor (s : State) (l : Launch) (a : Actor) : Bool :=
  a.place == .core && !a.halted && !a.leaving && !actorBusy s l.id a

/-- R302: whether a context may take a row group of a core back: it is no victim of another context, and no row of it is parked, in
the engine range, or owned in another context. -/
def groupOpen (s : State) (c ctx g : Nat) : Bool :=
  let k := getCore s c
  k.victims.all (fun v => v.unit != g || asidOf s v.launch == ctx) && (List.range 16).all fun n =>
    let row := 16 * g + n
    row < 2048 - k.engine && !rowParked k row && !rowOwnedIf s c row fun l => l.ctx != ctx

/-- The rows of an actor that stand in the save area. -/
def savedOf (s : State) (l : Launch) (a : Actor) : List SavedRow :=
  s.savedRows.filter fun r => a.owns r.row && r.isOf l.id a r.row

/-- R304: whether the claimed rows of an actor can come back: no other owner holds them. -/
def rowsReady (s : State) (l : Launch) (a : Actor) : Bool :=
  (savedOf s l a).all fun r => groupOpen s a.core l.ctx (r.row / 16) && !rowOwnedBut s a.core l.id r.row

/-- Whether the start of a launch is done with a core: its steps 4 and 5, and the memberships and seeds of its actors (R283
step 9). -/
def Launch.startedOn (l : Launch) (c : Nat) : Bool :=
  let on (name : Nat) : Bool := (l.actor name).any fun a => a.core == c
  !l.todo.contains c && !(l.joins.any fun j => on j.2) && !(l.seeds.any fun x => on x.2.1)

/-- Whether a core has sent a fault report of a launch that the marionette die has not taken: it dispatches the launch no more
(R334 step 5; log 30). -/
def struck (s : State) (c l : Nat) : Bool := s.reports.any fun r => r.launch == l && r.core == c

/-- Whether a launch may be dispatched on a core. -/
def launchRuns (s : State) (c : Nat) (l : Launch) : Bool :=
  l.live && ctxRuns s l.ctx && l.startedOn c && !struck s c l.id

def candidates (s : State) (c : Nat) : List Candidate :=
  (s.launches.filter (launchRuns s c)).flatMap fun l =>
    (l.actors.filter fun a => a.core == c && idleActor s l a && rowsReady s l a).flatMap (actorCandidates s l)

/-- R289: whether x is selected before y: greatest e, then lowest arrival, then lowest endpoint name, then lowest channel. -/
def Candidate.before (x y : Candidate) : Bool :=
  if x.e != y.e then y.e < x.e
  else if x.arr != y.arr then x.arr < y.arr
  else if x.name != y.name then x.name < y.name
  else x.chan < y.chan

def bestOf (cs : List Candidate) : Option Candidate :=
  cs.foldl (fun acc x => match acc with
    | some y => if x.before y then some x else acc
    | none => some x) none

/-- What a free slot takes. -/
inductive Selected where
  | handler (x : Candidate)
  | leaf (job : Nat) (path : List Nat)
  | nothing
  deriving DecidableEq, Repr

/-- A leaf task that may take a slot: its context runs, and its leaf has its data, or its job may still allocate (R225, R229). -/
def leafMayRun (s : State) (p : Nat × List Nat) : Bool :=
  match findBy (·.id) p.1 s.qjobs with
  | some j => ctxRuns s j.ctx
      && (j.leaves.any (fun l => l.1 == p.2) || (j.suspend = 0 && j.state = 1 && !j.cancelled && j.wait.isNone))
  | none => false

/-- Leaf tasks in the order they were assigned. -/
def leafReady (s : State) (c : Nat) : Option (Nat × List Nat) := (getCore s c).leaves.find? (leafMayRun s)

def select (s : State) (c : Nat) : Selected :=
  match bestOf (candidates s c) with
  | some x =>
    if 4 ≤ x.e then .handler x
    else match leafReady s c with
      | some p => .leaf p.1 p.2
      | none => .handler x
  | none =>
    match leafReady s c with
    | some p => .leaf p.1 p.2
    | none => .nothing

/-! ### Entry of an activation (R28) -/

/-- The rows of an actor leave the save area. -/
def forgetRows (s : State) (l : Launch) (a : Actor) : State :=
  { s with savedRows := s.savedRows.filter fun r => !(a.owns r.row && r.isOf l.id a r.row) }

/-- A row that was saved comes back; lost to an error, it stays so (R342). -/
def fillRow (k : Core) (r : SavedRow) : Core :=
  let k := setRow k r.row r.value
  if r.bad then { k with badRows := k.badRows ++ [r.row] } else k

/-- A restore that moves a lost row ends the launch (R342). -/
def restoreRow (s : State) (c : Nat) (r : SavedRow) : State :=
  let s := modCore s c fun k => fillRow k r
  if r.bad then moveFault s r.launch c (BitVec.ofNat 64 (rowData c r.row)) else s

/-- R304: the claimed rows of an actor come back before its first activation. A leaf task finds nothing of an earlier one in its
engine rows (R393), so none come back for it. -/
def restoreRows (s : State) (l : Launch) (a : Actor) : State :=
  (savedOf s l a).foldl (fun s r => restoreRow s a.core r) (forgetRows s l a)

/-- The slot's state that R28 leaves undefined: fresh free values (log 4). -/
def undefinedSlot (s : State) : Slot :=
  { Slot.reset with
    x := Vector.ofFn fun j => (Config.undefReg (s.free + j.val)).setWidth 64
    v := Vector.ofFn fun j => Config.undefReg (s.free + 32 + j.val)
    k := Vector.ofFn fun j => (Config.undefReg (s.free + 64 + j.val)).setWidth 64 }

/-- R28: the slot of an activation of an actor of a launch on one of its channels. -/
def entrySlot (s : State) (l : Launch) (a : Actor) (ch : Chan) (cls words : Nat) (msgid : Word) : Slot :=
  let sl := undefinedSlot s
  let sl := ((((sl.setReg ⟨.x, 3⟩ (ofWord a.base)).setReg ⟨.x, 2⟩ (ofWord (a.base + BitVec.ofNat 64 a.size))).setReg
    ⟨.x, 5⟩ (BitVec.ofNat 512 ch.num)).setReg ⟨.x, 6⟩ (BitVec.ofNat 512 words)).setReg ⟨.x, 7⟩
      (BitVec.ofNat 512 (msgid.toNat % 2 ^ 32))
  let pc := l.tb + ch.offset.setWidth 64 * 4
  let sl := { sl with status := .running, act := s.nextId, pc := pc, frm := l.frm, chk := l.chk, oscope := l.oscope, budget := l.budget,
                      actor := a.name, task := ch.task, cls := cls, chan := ch.num, msgid := msgid, launch := l.id,
                      ctx := l.ctx }
  if a.firstHalt then holdSlot sl .halted causeEBREAK pc 0x200 else sl

/-- R342: a dispatch that meets an uncorrectable error in its message or task ends the launch; the data is not delivered, and a
message counts as dropped (R297 step 2). -/
def lostDispatch (s : State) (c l : Nat) (msgid : Word) : State :=
  report (homeMusic s (coreNode c) 3 0) { agentFault l causeACCESS 6 0 c with msgid := msgid }

/-- A handler activation starts on a message or a task (R289). A task has no message class: the CLASS field of chan is 0 for it
(R36; DESIGN CHOICE, log 65). -/
def dispatchHandler (s : State) (c : Nat) (i : Fin 4) (x : Candidate) : State :=
  match getLaunch s x.launch with
  | none => s
  | some l => match l.actor x.name with
    | none => s
    | some a => match a.chan x.chan with
      | none => s
      | some ch =>
        let s0 := s
        let s := restoreRows s l a
        let s := { modActor s l.id a.name fun a => { a with firstHalt := false } with
                   free := s.free + 96, nextId := s.nextId + 1 }
        if x.task then
          let r := getResident s c l.id
          match r.tasks with
          | [] => s
          | t :: rest =>
            let s := setResident s c { r with tasks := rest }
            if t.bad then lostDispatch s c l.id (msgidOf t.src 0)
            else setSlot s c i { entrySlot s0 l a ch 0 t.words.length (msgidOf t.src 0) with htask := some (t, 0) }
        else match ch.queue with
          | [] => s
          | m :: rest =>
            let s := modChan s l.id a.name ch.num fun y => { y with queue := rest, unbound := none, ucount := 0 }
            if m.bad then lostDispatch (countDropped s l.id 1) c l.id m.msgid
            else setSlot s c i { entrySlot s0 l a ch m.cls m.words.length m.msgid with held := [⟨ch.num, m, 0, true⟩] }

/-! ### Draws and balancing -/

/-- The slots of a core that wait for a draw of a launch. -/
def drawWaiters (s : State) (c l : Nat) : List (Fin 4 × Nat × Nat) :=
  (List.finRange 4).filterMap fun i =>
    let sl := getSlot s c i
    match sl.status with
    | .draw rd vs2 => if sl.launch == l then some (i, rd, vs2) else none
    | _ => none

/-- R287: an idle actor with a bound and enabled task channel starts a draw. -/
def wantsDraw (s : State) (c l : Nat) : Bool :=
  match getLaunch s l with
  | none => false
  | some x => launchRuns s c x && x.actors.any fun a =>
      a.core == c && idleActor s x a && a.chans.any fun ch => ch.task && ch.bound && ch.en

/-- DRAW_COMPLETE (R292, R196): the drawn tasks enter the core queue, and waiting QPOPs look again. -/
def execEvDrawComplete (c launch : Nat) (s : State) : Out :=
  let ws := drawWaiters s c launch
  if clocksRun s && (!ws.isEmpty || (wantsDraw s c launch && (getResident s c launch).tasks.isEmpty && drawable s c launch)) then
    let s := if (getResident s c launch).tasks.isEmpty then drawTasks s c launch else s
    .next (ws.foldl (fun s w => takeOrDraw s c w.1 w.2.1 w.2.2) s)
  else notPermitted "DRAW_COMPLETE"

/-- The siblings of a core (R293). -/
def siblings (c : Nat) : List Nat := [c / 32 * 32 + (c + 1) % 32, c / 32 * 32 + (c + 31) % 32]

/-- Whether a core is still to be installed for a launch: nothing of the launch enters its queue (R284). -/
def toInstall (s : State) (c l : Nat) : Bool := (getLaunch s l).any fun x => x.todo.contains c

/-- The depth of one core queue on its way to the siblings where the launch is resident, between cores that are installed (R284,
R293). -/
def sendDepth (s : State) (c : Nat) (r : Resident) : State :=
  (siblings c).foldl (fun s x =>
    if (getCore s x).residents.any (fun y => y.launch == r.launch) && !toInstall s c r.launch && !toInstall s x r.launch then
      modResident s x r.launch fun y => { y with depths := y.depths ++ [(c, r.tasks.length)] }
    else s) s

/-- DEPTH_EXCHANGE (R293): every 4,096 cycles a core sends its depths to its siblings. -/
def execEvDepthExchange (c : Nat) (s : State) : Out :=
  let k := getCore s c
  guarded "DEPTH_EXCHANGE" s (decide ((k.exchanges + 1) * 4096 ≤ k.cycle))
    (k.residents.foldl (fun s r => sendDepth s c r) (setCore s { k with exchanges := k.exchanges + 1 }))

/-- A block of tasks moves to a sibling's queue (R293), none to a sibling that is still to be installed (R284). -/
def moveBlock (s : State) (c sib l d : Nat) : State :=
  let r := getResident s c l
  let bthr := match getLaunch s l with | some x => x.bthr | none => 0
  let room := 64 - coreTasks (getCore s sib)
  if bthr != 0 && d + bthr < r.tasks.length && room != 0 && !toInstall s sib l then
    let (old, young) := splitYoungest (min 8 room) r.tasks
    young.foldl (fun s t => (enterCore s sib l t).getD s) (setResident s c { r with tasks := old })
  else s

/-- DEPTH_RECEIVE (R293): the oldest depth received is acted on. -/
def execEvDepthReceive (c : Nat) (s : State) : Out :=
  match (getCore s c).residents.find? fun r => !r.depths.isEmpty with
  | some r =>
    match r.depths with
    | (sib, d) :: rest =>
      guarded "DEPTH_RECEIVE" s true (moveBlock (setResident s c { r with depths := rest }) c sib r.launch d)
    | [] => notPermitted "DEPTH_RECEIVE"
  | none => notPermitted "DEPTH_RECEIVE"

/-! ### UNBOUND (R183) -/

/-- UNBOUND: a message has stood at the head of an unbound channel for the handler budget. -/
def execEvUnbound (launch name chan : Nat) (s : State) : Out :=
  match getLaunch s launch with
  | none => notPermitted "UNBOUND"
  | some l => match (l.actor name).bind (fun a => (a.chan chan).map fun ch => (a, ch)) with
    | none => notPermitted "UNBOUND"
    | some (a, ch) =>
      match ch.unbound, ch.queue with
      | some t, m :: _ =>
        guarded "UNBOUND" s
          (a.place == .core && l.live && ctxRuns s l.ctx && decide (t + l.budget ≤ (getCore s a.core).cycle + ch.ucount))
          (report (modChan s launch name chan fun c => { c with unbound := none, ucount := 0 })
            { agentFault launch causeUNBOUND 5 (BitVec.ofNat 64 (name * 256 + chan)) a.core with
              msgid := m.msgid, actor := name })
      | _, _ => notPermitted "UNBOUND"

end Sys2Proof.Machine
end

