-- ==== Sys2Proof/Machine/Jobs.lean ====
section
/-! DEFINITION. Copy, gather and scatter jobs: their cards, acceptance, footprints and element accesses, and the completion
tags (07 R163 to R171, 13 R329). -/
namespace Sys2Proof.Machine

/-! ### Cards (R163, R164) -/

/-- n bits of a card from bit lo up. -/
def cardField (card lo n : Nat) : Nat := card / 2 ^ lo % 2 ^ n
def cardInt (card lo n : Nat) : Int := sintOf n (cardField card lo n)

/-- The fields of a copy card. -/
def parseCard (c : Nat) : CopyCard where
  fill := BitVec.ofNat 64 (cardField c 704 64)
  bound := cardInt c 672 32
  nidx := cardField c 640 32
  idx := BitVec.ofNat 64 (cardField c 576 64)
  rop := cardField c 464 8
  desc := cardField c 456 1 = 1
  esz := cardField c 448 8
  dstr := (List.range 4).map fun n => cardInt c (320 + 32 * n) 32
  sstr := (List.range 4).map fun n => cardInt c (192 + 32 * n) 32
  cnt := (List.range 4).map fun n => cardField c (128 + 16 * n) 16
  dst := BitVec.ofNat 64 (cardField c 64 64)
  src := BitVec.ofNat 64 (cardField c 0 64)

/-- The signal of a card by its FLAGS, TAG, NCH and NEP; none where they are malformed (R164, R218). A TAG of 64 or more with
NOTIFY = 0 counts as malformed: R163 gives 0 to 63 and R164 does not name it (DESIGN CHOICE, log 64). -/
def parseSignal (notify : Bool) (tag nch nep : Nat) : Option Signal :=
  if notify then
    if tag = 0 && nch < 128 && nch / 16 < 7 then some (.notify nep (nch % 16) (nch / 16)) else none
  else if nch = 0 && nep = 0 && tag < 64 then some (.tag tag) else none

def divisible (x : Int) (n : Nat) : Bool := x % (2 ^ n : Int) = 0

/-- Whether a card is well-formed for a kind of job (R164 step 3). -/
def cardOk (kind : CopyKind) (c : Nat) : Bool :=
  let k := parseCard c
  let cn (n : Nat) := k.cnt.getD n 0
  let ss (n : Nat) := k.sstr.getD n 0
  let ds (n : Nat) := k.dstr.getD n 0
  let al (used : Bool) (x : Int) : Bool := !used || divisible x k.esz
  let table := decide (1 < k.bound)
  let many := decide (1 < k.nidx)
  let common := cardField c 960 64 = 0 && cardField c 520 56 = 0 && cardField c 458 6 = 0 && k.esz ≤ 6
    && k.cnt.all (0 < ·) && divisible k.src.toNat k.esz && divisible k.dst.toNat k.esz
    && (!k.desc || k.esz = 6)
    && (parseSignal (cardField c 457 1 = 1) (cardField c 472 8) (cardField c 512 8) (cardField c 480 32)).isSome
  let indexed := (List.range 3).all (fun n => cn (n + 1) = 1) && ss 2 = 0 && ss 3 = 0 && ds 2 = 0 && ds 3 = 0
    && 1 ≤ k.nidx && k.nidx ≤ 2 ^ 24 && 0 ≤ k.bound && k.idx.toNat % 4 = 0
    && al (1 < cn 0) (ss 0) && al (1 < cn 0) (ds 0)
  common && match kind with
    | .cpy => k.idx = 0 && k.nidx = 0 && k.bound = 0 && k.fill = 0 && k.rop = 0
        && (List.range 4).all fun n => al (1 < cn n) (ss n) && al (1 < cn n) (ds n)
    | .gath => indexed && k.rop = 0 && al table (ss 1) && al many (ds 1)
    | .scat => indexed && k.fill = 0 && al table (ds 1) && al many (ss 1) && k.rop ≤ 5
        && (k.rop = 0 || (!k.desc && k.esz = if k.rop = 2 then 3 else 2))

/-- A card read once at issue: MISALIGN, ACCESS, then its 1,024 bits (R164 steps 1 and 2; log 17).
It waits for the slot's earlier accesses to the homes of the card (R243). -/
def withCard (s : State) (c : Nat) (i : Fin 4) (sl : Slot) (align : Nat) (kind : AccessKind) (va : Word)
    (f : Nat → State) : State :=
  if va.toNat % align != 0 then takeTrap s c i causeMISALIGN va sl.pc
  else withChecked s c i sl kind 64 [va, va + 64] fun ps =>
    if sl.accs.any fun a => ps.any fun p => homeOf p.1 == a.home then stallSlot s c i .earlier else
    let blocks := ps.map fun p => (performAt s (.readBlock p.1) p.2 p.1).2
    if blocks.any (·.poison) then
      trapFrom 6 (ps.foldl (fun s p => (performAt s (.readBlock p.1) p.2 p.1).1) s) c i causeACCESS va sl.pc
    else f ((blocks.map fun r => r.value.toNat).foldr (fun b acc => b + 2 ^ 512 * acc) 0)

/-- Why a job of the slot is not accepted yet: a fence of kind engine, or an acquire (R247, R244). -/
def jobGate (sl : Slot) : Option Stall :=
  if sl.accs.any (·.block) then some .blocked
  else if sl.fences.any (fun f => f.kind == .engine && !f.open sl) then some .fence
  else none

/-- R164 step 4: the tag is claimed: a done tag is cleared; a busy tag is waited for. -/
def claimTag (s : State) (c l : Nat) (sig : Signal) : Option State :=
  match sig with
  | .notify _ _ _ => some s
  | .tag t =>
    let r := getResident s c l
    let bit : BitVec 64 := 1 <<< t
    if r.busy &&& bit != 0 then none
    else some (setResident s c { r with busy := r.busy ||| bit, tagdone := r.tagdone &&& ~~~bit })

/-- The claim of the instruction of a slot, made once: it keeps it while it waits further (R164, R218). -/
def takeClaim (s : State) (c : Nat) (i : Fin 4) (l : Nat) (sig : Signal) : Option State :=
  if (getSlot s c i).claimed then some s
  else (claimTag s c l sig).map fun s => modSlot s c i fun sl => { sl with claimed := true }

/-- A job enters its cluster's window at the tail (R252). -/
def enterWindow (s : State) (c id : Nat) : State :=
  let k := getCluster s (clusterOf c)
  setCluster s { k with window := k.window ++ [id] }
def leaveWindow (s : State) (c id : Nat) : State :=
  let k := getCluster s (clusterOf c)
  setCluster s { k with window := k.window.filter (· != id) }

def getCopy (s : State) (j : Nat) : Option CopyJob := findBy (·.id) j s.copies
def setCopy (s : State) (j : CopyJob) : State := { s with copies := putBy (·.id) j s.copies }
def dropCopy (s : State) (j : CopyJob) : State :=
  leaveWindow { s with copies := dropBy (·.id) j.id s.copies } j.core j.id

/-- Jobs of a die whose accesses a fabric interface serves (R329). -/
def servedJobs (s : State) (c : Nat) : Nat := (s.copies.filter fun j => j.kind != .cpy && dieOf j.core == dieOf c).length

/-- An instruction that has read its card keeps the values it read while it waits (R164, R218). -/
def keepCard (s : State) (c : Nat) (i : Fin 4) (card : Nat) : State := modSlot s c i fun sl => { sl with card := some card }

/-- A card that has been read is checked, and its job is accepted, or waits at issue with the values it read (R164). -/
def acceptCopy (s : State) (c : Nat) (i : Fin 4) (sl : Slot) (kind : CopyKind) (va : Word) (card : Nat) : State :=
  let sig := parseSignal (cardField card 457 1 = 1) (cardField card 472 8) (cardField card 512 8) (cardField card 480 32)
  let keep (s : State) (w : Stall) : State := stallSlot (keepCard s c i card) c i w
  if !cardOk kind card then takeTrap s c i causeENGINE va sl.pc
  else match takeClaim s c i sl.launch (sig.getD (.tag 0)) with
    | none => keep s (.tag (cardField card 472 8))
    | some s' =>
      if kind != .cpy && 4 ≤ servedJobs s c then keep s' .window
      else
        let id := s.nextId
        let j : CopyJob := ⟨id, kind, c, sl.launch, sl.ctx, va, parseCard card, sig.getD (.tag 0), false, none, none, [], [], 0, []⟩
        retire (enterWindow (setCopy { s' with nextId := id + 1 } j) c id) c i 0 (sl.pc + 4)

/-- CPY, GATH and SCAT (R164). -/
def copyJob (kind : CopyKind) (a : BitVec 5) (s : State) : Out :=
  issue s [xr a] [] fun s c i sl =>
    let va := sl.rx a
    match jobGate sl, sl.card with
    | some w, _ => stallSlot s c i w
    | none, some card => acceptCopy s c i sl kind va card
    | none, none => withCard s c i sl 64 .read va (acceptCopy s c i sl kind va)

def execCpy (a : BitVec 5) (s : State) : Out := copyJob .cpy a s
def execGath (a : BitVec 5) (s : State) : Out := copyJob .gath a s
def execScat (a : BitVec 5) (s : State) : Out := copyJob .scat a s

/-! ### Completion tags (R171) -/

/-- A tag wait returns tagdone AND X[rs1] once its condition holds. -/
def tagWait (waits : Resident → BitVec 64 → Bool) (a d : BitVec 5) (s : State) : Out :=
  issue s [xr a] [xr d] fun s c i sl =>
    let r := getResident s c sl.launch
    if waits r (sl.rx a) then stallSlot s c i .tagWait
    else retire (setSlot s c i (sl.writeVar [(xr d, ofWord (r.tagdone &&& sl.rx a))] 0 false)) c i 0 (sl.pc + 4)

def execWtagany (a d : BitVec 5) (s : State) : Out :=
  tagWait (fun r t => r.tagdone &&& t == 0 && r.busy &&& t != 0) a d s
def execWtagall (a d : BitVec 5) (s : State) : Out := tagWait (fun r t => r.busy &&& t != 0) a d s

def execFtag (a d : BitVec 5) (s : State) : Out :=
  issue s [xr a] [xr d] fun s c i sl =>
    let r := getResident s c sl.launch
    let s := setResident s c { r with tagdone := r.tagdone &&& ~~~(sl.rx a) }
    retire (setSlot s c i (sl.writeVar [(xr d, ofWord (r.tagdone &&& sl.rx a))] 0 false)) c i 0 (sl.pc + 4)

/-! ### Elements (R165 to R167) -/

def CopyCard.size (k : CopyCard) : Nat := 2 ^ k.esz
def CopyCard.count (k : CopyCard) (n : Nat) : Nat := k.cnt.getD n 1
/-- An address from a base and offsets, modulo 2^64. -/
def atOffset (base : Word) (off : Int) : Word := base + BitVec.ofInt 64 off

/-- The loop indices i0 to i3 of element k of a CPY. -/
def loopIndex (k : CopyCard) (n : Nat) : List Nat :=
  let c := k.count
  [n % c 0, n / c 0 % c 1, n / (c 0 * c 1) % c 2, n / (c 0 * c 1 * c 2)]

def strided (idx : List Nat) (str : List Int) : Int := ((idx.zip str).map fun p => (p.1 : Int) * p.2).sum

/-- Elements of a job: all of a CPY, entries times elements of a gather or scatter. -/
def CopyJob.total (j : CopyJob) : Nat :=
  match j.kind with
  | .cpy => j.card.count 0 * j.card.count 1 * j.card.count 2 * j.card.count 3
  | _ => j.card.nidx * j.card.count 0

/-- The index of an entry, once it is read. -/
def CopyJob.entry (j : CopyJob) (n : Nat) : Option Int := (findBy (·.1) n j.index).map (·.2)
def legalRow (j : CopyJob) (x : Int) : Bool := decide (0 ≤ x && x < j.card.bound)

/-- The entry of element n. -/
def CopyJob.entryOf (j : CopyJob) (n : Nat) : Nat := n / j.card.count 0

/-- Whether the index entries that element n needs are read: those up to its own, and for a SCAT with ROP 0, which sends only
the last entry of a row, all of them (R166, R167, R329). The index list is kept by rising entry. -/
def CopyJob.indexed (j : CopyJob) (n : Nat) : Bool :=
  match j.kind with
  | .cpy => true
  | .gath => (j.index[j.entryOf n]?).any fun p => p.1 == j.entryOf n
  | .scat => if j.card.rop = 0 then j.index.length == j.card.nidx
             else (j.index[j.entryOf n]?).any fun p => p.1 == j.entryOf n

/-- The first entry that names the same row as entry n (R166). -/
def firstEntry (j : CopyJob) (n : Nat) : Nat :=
  ((List.range n).find? fun m => j.entry m == j.entry n).getD n
/-- Whether a later entry names the same row (R329). -/
def laterEntry (j : CopyJob) (n : Nat) : Bool :=
  (List.range (j.card.nidx - n - 1)).any fun m => j.entry (n + 1 + m) == j.entry n

/-- Whether element n of the job is written: a sentinel is skipped, SCAT drops what is out of bounds and, with ROP 0, all
but the last entry of a row (R166, R167, R329). -/
def writes (j : CopyJob) (n : Nat) : Bool :=
  match j.kind with
  | .cpy => true
  | .gath => j.entry (n / j.card.count 0) != some (-1)
  | .scat =>
    match j.entry (n / j.card.count 0) with
    | some x => legalRow j x && !(j.card.rop = 0 && laterEntry j (n / j.card.count 0))
    | none => true

/-- The element whose value a write uses. -/
def valueKey (j : CopyJob) (n : Nat) : Nat :=
  match j.kind with
  | .gath => firstEntry j (n / j.card.count 0) * j.card.count 0 + n % j.card.count 0
  | _ => n

/-- Whether a write reads a source element at all: a gather's fill does not (R166). -/
def readsSource (j : CopyJob) (n : Nat) : Bool :=
  match j.kind with
  | .gath => match j.entry (n / j.card.count 0) with
    | some x => legalRow j x
    | none => true
  | _ => true

/-- The source address of element n. -/
def sourceVa (j : CopyJob) (n : Nat) : Word :=
  let k := j.card
  match j.kind with
  | .cpy => atOffset k.src (strided (loopIndex k n) k.sstr)
  | .gath => atOffset k.src ((j.entry (n / k.count 0)).getD 0 * k.sstr.getD 1 0 + (n % k.count 0 : Nat) * k.sstr.getD 0 0)
  | .scat => atOffset k.src ((n / k.count 0 : Nat) * k.sstr.getD 1 0 + (n % k.count 0 : Nat) * k.sstr.getD 0 0)

/-- The destination address of element n. -/
def destVa (j : CopyJob) (n : Nat) : Word :=
  let k := j.card
  match j.kind with
  | .cpy => atOffset k.dst (strided (loopIndex k n) k.dstr)
  | .gath => atOffset k.dst ((n / k.count 0 : Nat) * k.dstr.getD 1 0 + (n % k.count 0 : Nat) * k.dstr.getD 0 0)
  | .scat => atOffset k.dst ((j.entry (n / k.count 0)).getD 0 * k.dstr.getD 1 0 + (n % k.count 0 : Nat) * k.dstr.getD 0 0)

def indexVa (j : CopyJob) (n : Nat) : Word := j.card.idx + BitVec.ofNat 64 (4 * n)

/-! ### Footprints (R168, R217) -/

/-- A range of addresses modulo 2^64: where it begins and its length. -/
abbrev Region := Nat × Nat

/-- The smallest range that holds base + i·stride for i below count, for several strides, with the element size; with a count of 0
there is no element, and the range is empty. -/
def spanOf (base : Word) (dims : List (Nat × Int)) (size : Nat) : Region :=
  if dims.any (·.1 == 0) then (base.toNat, 0)
  else
    let ends := dims.map fun d => ((d.1 : Int) - 1) * d.2
    let lo := (ends.map fun e => min e 0).sum
    let hi := (ends.map fun e => max e 0).sum
    (((base.toNat + lo) % 2 ^ 64).toNat, (hi - lo).toNat + size)

/-- Whether two ranges share an address. -/
def spansMeet (a b : Region) : Bool :=
  0 < a.2 && 0 < b.2 && ((b.1 + 2 ^ 64 - a.1) % 2 ^ 64 < a.2 || (a.1 + 2 ^ 64 - b.1) % 2 ^ 64 < b.2)

/-- The read and write regions of a copy job. -/
def copyFootprint (j : CopyJob) : List Region × List Region :=
  let k := j.card
  let z := k.size
  let c := k.count
  let ss (n : Nat) := k.sstr.getD n 0
  let ds (n : Nat) := k.dstr.getD n 0
  let idx : Region := (k.idx.toNat, 4 * k.nidx)
  match j.kind with
  | .cpy => ([spanOf k.src ((List.range 4).map fun n => (c n, ss n)) z], [spanOf k.dst ((List.range 4).map fun n => (c n, ds n)) z])
  | .gath => ([spanOf k.src [(c 0, ss 0), (k.bound.toNat, ss 1)] z, idx], [spanOf k.dst [(c 0, ds 0), (k.nidx, ds 1)] z])
  | .scat => ([spanOf k.src [(c 0, ss 0), (k.nidx, ss 1)] z, idx], [spanOf k.dst [(c 0, ds 0), (k.bound.toNat, ds 1)] z])

/-! ### The status in a card (R163, R169, R170) -/

/-- Whether jobs of a context may move: it runs, or only drains (R305). -/
def ctxHeld (s : State) (asid : Nat) : Bool :=
  match getContext s asid with
  | some c => !c.running
  | none => true

/-- Elements written, or index entries completed (R163 DONE). -/
def CopyJob.doneCount (j : CopyJob) : Nat :=
  match j.kind with
  | .cpy => j.front + j.ahead.length
  | _ => ((List.range j.card.nidx).filter fun n => (j.entry n).isSome && (List.range (j.card.count 0)).all fun k =>
      let e := n * j.card.count 0 + k
      e < j.front || j.ahead.contains e || !writes j e).length

/-- The address of STATE, DONE and FVA in a copy card. -/
def CopyJob.statusVa (j : CopyJob) : Word := j.addr + 96
def CopyJob.cluster (j : CopyJob) : Nat := clusterOf j.core

/-- STATE, DONE and FVA of a copy card. -/
def copyStatus (state done : Nat) (fva : Word) : Vec := BitVec.ofNat 512 (state + done * 2 ^ 64 + fva.toNat * 2 ^ 128)

/-- n bytes written into a frame that stands in the save area; a block written whole is lost no longer (R342). -/
def putSaved (s : State) (i off : Nat) (v : Vec) (n : Nat) : State :=
  { s with savedFrames := s.savedFrames.modify i fun r =>
      { r with bytes := r.bytes.mapIdx fun k b => if off ≤ k && k < off + n then v.extractLsb' (8 * (k - off)) 8 else b
               bad := r.bad.filter fun b => b * 64 < off || off + n < b * 64 + 64 } }

/-- n bytes at a translated address of an ASID, in memory or, for a frame that was claimed, in the save area, from which the frame
is filled again (R304; log 19). -/
def putAt (s : State) (asid pa key : Nat) (v : Vec) (n : Nat) : State :=
  match savedAt s asid pa with
  | some i => putSaved s i (pa % 16384) v n
  | none => (performMem s (.write pa v (byteMask n)) key).1

/-- A write that waits for no walk: of the marionette die, or the last of an engine for a launch that ends (log 19). none: there is
no page that permits it. -/
def writeVirt (s : State) (asid : Nat) (va : Word) (v : Vec) (n : Nat) : Option State :=
  (translateNow s asid va .write).map fun p => putAt s asid p.1 p.2 v n
/-- The same; a walk that fails is recorded (R265). -/
def lastWrite (s : State) (asid : Nat) (va : Word) (v : Vec) (n : Nat) : State :=
  (writeVirt s asid va v n).getD (noteWalk s asid va)

/-- R170, R269: a translation miss suspends the job until the walk it asks for ends. -/
def suspendCopy (s : State) (j : CopyJob) (va : Word) (kind : AccessKind) : State :=
  setCopy (requestWalk s j.cluster j.ctx va kind) { j with blocked := some (va, kind) }

/-- A copy job ends its launch. -/
def endFaulted (s : State) (j : CopyJob) (va : Word) (origin : Nat) : State :=
  dropCopy (report s { agentFault j.launch causeACCESS origin va j.core with job := j.addr }) j

/-- R170: an access of a copy job that cannot be resolved is fatal to the launch, and the card says so, once its page is at hand (R269).
origin 6 where the data was poisoned. -/
def copyFault (s : State) (j : CopyJob) (va : Word) (origin : Nat) : State :=
  match translate s j.cluster j.ctx j.statusVa .write with
  | .miss => suspendCopy s { j with failed := some (va, origin) } j.statusVa .write
  | .bad => endFaulted s j va origin
  | .ok pa key => endFaulted (performMem s (.write pa (copyStatus 2 j.doneCount va) (byteMask 24)) key).1 j va origin

/-- An access of a job at an address: it goes on with the translation, waits for a walk, or is fatal (R170). -/
def withJobPa (s : State) (j : CopyJob) (va : Word) (kind : AccessKind) (f : Nat → Nat → Option State) : Option State :=
  match translate s j.cluster j.ctx va kind with
  | .ok pa key => f pa key
  | .miss => some (suspendCopy s j va kind)
  | .bad => some (copyFault s j va 3)

/-! ### Element accesses (R165 to R167, R252, R329) -/

/-- Whether element n's write has performed. -/
def CopyJob.written (j : CopyJob) (n : Nat) : Bool := n < j.front || j.ahead.contains n || !writes j n
def CopyJob.hasVal (j : CopyJob) (n : Nat) : Bool := j.vals.any fun v => v.1 == n

/-- The node from which the accesses of a job leave: the fabric interface of its die for a gather or scatter (R329), else the engine
of its cluster (log 62). -/
def jobNode (core : Nat) (die : Bool) : Nat := core / 4096 * 2 ^ 14 + 2 * 4096 + core % 4096 / (if die then 1024 else 32) * (if die then 1024 else 32)
def CopyJob.node (j : CopyJob) : Nat := jobNode j.core (j.kind != .cpy)

/-- Whether access k of a job, or its answer, is on its way. -/
def elementSent (s : State) (j k : Nat) (write : Bool) : Bool :=
  s.pairs.any fun p => (p.out ++ p.store.map (·.pkt)).any fun x => match x.body with
    | .jrd j' k' _ _ => !write && j' == j && k' == k
    | .jrdr j' k' _ => !write && j' == j && k' == k
    | .jwr j' k' _ _ _ => write && j' == j && k' == k
    | .jwra j' k' _ => write && j' == j && k' == k
    | _ => false

/-- Whether any access of a job is on its way. -/
def jobInFlight (s : State) (j : Nat) : Bool :=
  s.pairs.any fun p => (p.out ++ p.store.map (·.pkt)).any fun x => match x.body with
    | .jrd j' _ _ _ => j' == j
    | .jrdr j' _ _ => j' == j
    | .jwr j' _ _ _ _ => j' == j
    | .jwra j' _ _ => j' == j
    | _ => false

/-- The home of a job element's address, where its translation is at hand. -/
def jobHome (s : State) (j : CopyJob) (va : Word) (kind : AccessKind) : Option Nat :=
  match translate s j.cluster j.ctx va kind with
  | .ok pa _ => some (homeOf pa)
  | _ => none

/-- R252: the earlier accesses of the job to a home have performed, in the order of R165 to R167; before a write, the reads of
the elements up to it are earlier accesses too, of a CPY; a scatter's reads are not ordered with its writes (R167 does not say; DESIGN
CHOICE, log 84). An access whose home is not known yet holds the later ones. -/
def earlierDone (s : State) (j : CopyJob) (n home : Nat) : Bool :=
  (List.range (n - j.front)).all fun m =>
    let e := j.front + m
    (j.written e || (jobHome s j (destVa j e) .write).any (· != home))
      && (j.kind != .cpy || j.written e || j.hasVal e || (jobHome s j (sourceVa j e) .read).any (· != home))

/-- Bytes of a gather's fill (R166). -/
def fillVec (k : CopyCard) : Vec :=
  if k.esz ≤ 3 then k.fill.setWidth 512 else BitVec.ofNat 512 ((List.range 8).map fun n => k.fill.toNat * 2 ^ (64 * n)).sum

/-- Whether read k of a job is of an index entry, and its address and size: entry k below NIDX of a gather or scatter, else element
k − NIDX (k of a CPY). -/
def CopyJob.isIndex (j : CopyJob) (k : Nat) : Bool := j.kind != .cpy && decide (k < j.card.nidx)
def CopyJob.elementOf (j : CopyJob) (k : Nat) : Nat := if j.kind == .cpy then k else k - j.card.nidx
def CopyJob.readVa (j : CopyJob) (k : Nat) : Word := if j.isIndex k then indexVa j k else sourceVa j (j.elementOf k)

/-- Whether read k of a started job is still to be made, and may be made now as far as the job goes. -/
def CopyJob.wantsRead (j : CopyJob) (k : Nat) : Bool :=
  let n := j.elementOf k
  j.started && j.blocked.isNone && j.failed.isNone &&
    if j.isIndex k then (j.entry k).isNone
    else n < j.total && !j.hasVal n && writes j n && readsSource j n && valueKey j n == n && !j.written n && j.indexed n

/-- Read k of a copy job enters its queue (R252). -/
def copyRead (s : State) (j : CopyJob) (k : Nat) : Option State :=
  if !j.wantsRead k || elementSent s j.id k false then none
  else withJobPa s j (j.readVa k) .read fun pa key =>
    if j.kind == .cpy && !earlierDone s j (j.elementOf k) (homeOf pa) then none
    else
      let op := if j.isIndex k then MemOp.read pa 4 else if j.card.desc then .readBlock pa else .read pa j.card.size
      some (enqueue s j.node (homeOf pa) (newAccess 0 j.ctx (j.readVa k) (.jrd j.id k op key)))

/-- The value that a write uses, once it is read. -/
def CopyJob.value (j : CopyJob) (n : Nat) : Option (Vec × Desc) :=
  if readsSource j n then (j.vals.find? fun v => v.1 == valueKey j n).map (·.2) else some (fillVec j.card, 0)

/-- Write n of a copy job enters its queue (R252). -/
def copyWrite (s : State) (j : CopyJob) (n : Nat) : Option State :=
  match j.value n with
  | none => none
  | some (v, d) =>
    if !(j.started && j.blocked.isNone && j.failed.isNone && n < j.total && !j.written n && j.indexed n) || elementSent s j.id n true then none
    else withJobPa s j (destVa j n) .write fun pa key =>
      if !earlierDone s j n (homeOf pa) then none
      else
        let op := if j.card.desc then MemOp.writeBlock pa v d else .write pa v (byteMask j.card.size)
        some (enqueue s j.node (homeOf pa) (newAccess op.flits j.ctx (destVa j n) (.jwr j.id n j.card.rop op key)))

/-- One element combined at its home (R167). -/
def reduceElem (rop : Nat) (old new : Nat) : Nat :=
  match rop with
  | 1 => (old + new) % 2 ^ 32
  | 2 => (old + new) % 2 ^ 64
  | 3 => radd (old % 2 ^ 32) (new % 2 ^ 32)
  | 4 => if sintOf 32 old ≤ sintOf 32 new then old else new
  | _ => if sintOf 32 old ≤ sintOf 32 new then new else old

/-- A JWR performs at the home: a plain write, or a scatter's combination (R167, R329), which reads the element. -/
def performElem (s : State) (rop : Nat) (op : MemOp) (key : Nat) : State × MemRes :=
  match rop, op with
  | 0, _ => performAt s op key op.pa
  | _, .write pa v m =>
    let z := if rop = 2 then 8 else 4
    let (s, old) := performAt s (.read pa z) key pa
    if old.poison then (s, old)
    else performAt s (.write pa (BitVec.ofNat 512 (reduceElem rop old.value.toNat (v.toNat % 256 ^ z))) m) key pa
  | _, _ => performAt s op key op.pa

def getQJob (s : State) (j : Nat) : Option QJob := findBy (·.id) j s.qjobs
def setQJob (s : State) (j : QJob) : State := { s with qjobs := putBy (·.id) j s.qjobs }

/-! ### A quadtree job that ends as faulted (R235) -/

/-- Whether a node, or a node above it, has committed. -/
def QJob.done (j : QJob) (p : List Nat) : Bool := j.committed.any fun c => c.isPrefixOf p

/-- A write of a quadtree job by its address: of leaf data, of a committed record, or of a record that is not (R225, R227). -/
def dataKey (va : Word) : Nat := 4 * va.toNat
def recordKey (va : Word) : Nat := 4 * va.toNat + 1
def groupKey (va : Word) : Nat := 4 * va.toNat + 2

/-- The leaf tasks of a job are taken from the cores; those of one leaf, or of all. -/
def dropTasks (s : State) (j : QJob) (path : Option (List Nat)) : State :=
  let mine (id : Nat) (p : List Nat) : Bool := id == j.id && (path == none || path == some p)
  let clear (sl : Slot) : Slot := match sl.status with
    | .leaf id p => if mine id p then Slot.reset else sl
    | .leafSwap id p _ _ _ _ _ => if mine id p then Slot.reset else sl
    | _ => sl
  { s with cores := s.cores.map fun k =>
      { k with slots := k.slots.map clear, leaves := k.leaves.filter fun x => !mine x.1 x.2 } }

def dropQJob (s : State) (j : QJob) : State :=
  leaveWindow { dropTasks s j none with qjobs := dropBy (·.id) j.id s.qjobs } j.core j.id

/-- R234 step 3: the result records that have not committed, the root included. -/
def openRecords (j : QJob) : List Word :=
  (if j.done [] then [] else [j.croot]) ++ j.groups.flatMap fun g =>
    ((List.range 4).filter fun q => !j.done (g.1 ++ [q])).map fun q => BitVec.ofNat 64 (g.2 + 32 * q)

/-- The writes of a job's records that have not performed come to nothing: POISON overwrites them (R235; log 40). -/
def voidRecords (s : State) (j : QJob) : State :=
  let void (k : Packet) : Packet := match k.body with
    | .jwr id n _ _ _ => if id == j.id && n % 4 != 0 then { k with body := .moved } else k
    | _ => k
  { s with pairs := s.pairs.map fun p =>
      { p with out := p.out.map void, net := p.net.map void, window := p.window.map void,
               store := p.store.map fun x => { x with pkt := void x.pkt } } }

/-- A last write of the engine for a job that ends as faulted (R235). -/
def qLastWrite (s : State) (j : QJob) (va : Word) (v n : Nat) : State := lastWrite s j.ctx va (BitVec.ofNat 512 v) n

def poisonRecord : Nat := 15

/-- R235: the job ends as faulted, without a signal: POISON in every open record, and STATE 4. -/
def killQJob (s : State) (j : QJob) : State :=
  let s := (openRecords j).foldl (fun s va => qLastWrite s j va poisonRecord 32) (voidRecords s j)
  dropQJob (qLastWrite s j (j.addr + 116) 4 1) j

/-- R235: a fault of the job ends the launch. -/
def qFault (s : State) (j : QJob) (cause origin : Nat) (tval : Word) : State :=
  report (killQJob s j) { agentFault j.launch cause origin tval j.core with job := j.addr }

/-- R227: write k of a job has performed; that of a record with COMMIT = 1 commits its node, and LEAVES counts a leaf. -/
def landRecord (s : State) (job k : Nat) : State :=
  match getQJob s job with
  | none => s
  | some j => match j.recording.find? fun x => x.2 == k with
    | none => s
    | some (p, _) =>
      let leaf := !j.groups.any fun g => g.1 == p
      setQJob s { j with recording := j.recording.filter (fun x => x.1 != p), committed := j.committed ++ [p],
                         nleaves := if leaf then j.nleaves + 1 else j.nleaves }

/-- The answer to read k of a job: an index entry or an element of a copy job, poisoned data fatal (R342); the block at address k
of a quadtree job, read ahead of the leaves that use it, where poisoned data ends the launch too. -/
def landRead (s : State) (job k : Nat) (r : MemRes) : State :=
  match getCopy s job, getQJob s job with
  | some j, _ =>
    if j.failed.isSome then s
    else if r.poison then copyFault s j (j.readVa k) 6
    else if j.isIndex k then setCopy s { j with index := putBy (·.1) (k, sintOf 32 r.value.toNat) j.index }
    else setCopy s { j with vals := j.vals ++ [(j.elementOf k, r.value, r.desc)] }
  | none, some q =>
    if r.poison then qFault s q causeACCESS 6 (BitVec.ofNat 64 k)
    else setQJob s { q with cache := q.cache ++ [(k / 64 * 64, r.value, r.desc)] }
  | none, none => s

/-- The job after element n is written: front moves over every element written. -/
def copyAdvance (j : CopyJob) : Nat → CopyJob
  | 0 => j
  | f + 1 =>
    if j.ahead.contains j.front then
      copyAdvance { j with front := j.front + 1, ahead := j.ahead.filter (· != j.front) } f
    else j

/-- The answer to write n of a copy job: the element is written. -/
def landWrite (s : State) (job n : Nat) (r : MemRes) : State :=
  match getCopy s job with
  | some j =>
    if r.poison then if j.failed.isSome then s else copyFault s j (destVa j n) 6
    else
      let j := { j with vals := if j.kind == .gath then j.vals else j.vals.filter (fun x => x.1 != n), ahead := j.ahead ++ [n] }
      setCopy s (copyAdvance j j.ahead.length)
  | none => s

/-! ### The end of a copy job (R169) -/

/-- R169, R227: the signal of a job that has ended: its tag on a core, or one message from that core. -/
def signalJob (s : State) (core launch ctx : Nat) (sig : Signal) (word : Vec) : State :=
  match sig with
  | .tag t =>
    let bit : BitVec 64 := 1 <<< t
    modResident s core launch fun r => { r with tagdone := r.tagdone ||| bit, busy := r.busy &&& ~~~bit }
  | .notify name ch cls =>
    let (m, s) := newMsg s core cls [word]
    postMsg s core ctx launch name ch m

/-- Whether the jobs of a launch still signal (R297 step 3). -/
def signals (s : State) (l : Nat) : Bool :=
  match getLaunch s l with
  | some x => x.live
  | none => false

/-- Whether every write of a copy job has performed. -/
def CopyJob.complete (j : CopyJob) : Bool :=
  j.started && j.blocked.isNone && j.failed.isNone && (j.kind == .cpy || j.index.length == j.card.nidx)
    && (List.range (j.total - j.front)).all fun m => j.written (j.front + m)

/-- R169: the completion of a copy job: the card, then the signal. The write of the card is an access of the job (R170). -/
def finishCopy (s : State) (j : CopyJob) : State :=
  match translate s j.cluster j.ctx j.statusVa .write with
  | .miss => suspendCopy s j j.statusVa .write
  | .bad => copyFault s j j.statusVa 3
  | .ok pa key =>
    let done := if j.kind == .cpy then j.total else j.card.nidx
    let s := dropCopy (performMem s (.write pa (copyStatus 1 done 0) (byteMask 24)) key).1 j
    if signals s j.launch then
      signalJob s j.core j.launch j.ctx j.signal (BitVec.ofNat 512 (j.addr.toNat + done * 2 ^ 64))
    else s

end Sys2Proof.Machine
end

