-- ==== Sys2Proof/Machine/Routes.lean ====
section
/-! DEFINITION. The domain tree and its up-down routes (13 R326), and the modules whose routes change (R327). A node of the domain is
a module, by its id, or a domain switch, by 2^12 and its number; the specification gives switches no ids (log 92). -/
namespace Sys2Proof.Machine

/-! ### Links and neighbours -/

/-- Whether a link of the domain is up: neither end is a Thrumlink port of the own module that is marked down. -/
def DomainLink.up (s : State) (e : DomainLink) : Bool :=
  !((e.a == s.module && s.linksDown.contains e.ap) || (e.b == s.module && s.linksDown.contains e.bp))

/-- A hop: the port by which it leaves a node, and the node it comes to. -/
abbrev Hop := Nat × Nat

/-- The hops from a node over the links that are up, by rising port. -/
def hopsFrom (s : State) (x : Nat) : List Hop :=
  ((s.domain.filter (DomainLink.up s)).flatMap fun e =>
    (if e.a == x then [(e.ap, e.b)] else []) ++ (if e.b == x then [(e.bp, e.a)] else [])).foldl (fun l h => putBy (·.1) h l) []

/-! ### The spanning tree (R326 steps 1 and 2) -/

/-- The nodes that a breadth-first search reaches in n further levels, with their depths; d is the depth of the last level found. -/
def spread (s : State) : Nat → Nat → List (Nat × Nat) → List (Nat × Nat)
  | 0, _, seen => seen
  | n + 1, d, seen =>
    let new := ((seen.filter fun p => p.2 == d).flatMap fun p => (hopsFrom s p.1).map (·.2)).eraseDups.filter fun y =>
      !seen.any fun p => p.1 == y
    spread s n (d + 1) (seen ++ new.map fun y => (y, d + 1))

/-- More levels than any search over the links of the domain has. -/
def treeFuel (s : State) : Nat := s.domain.length + 1

/-- Whether a node of the domain is a module: at most 2,304 of them (R1). -/
def isModule (x : Nat) : Bool := x < 2304
/-- A link that the domain can have: each end is one of the 12 Thrumlink ports of a module, or a port of a switch (R1). -/
def DomainLink.sound (e : DomainLink) : Bool :=
  let end_ (x port : Nat) : Bool := (isModule x && port < 12) || 4096 ≤ x
  end_ e.a e.ap && end_ e.b e.bp

/-- The root: the reachable module with the lowest id. -/
def treeRoot (s : State) : Nat :=
  (((spread s (treeFuel s) 0 [(s.module, 0)]).map (·.1)).filter isModule).foldl min s.module
/-- The depth of each reachable node in the breadth-first tree. -/
def treeDepths (s : State) : List (Nat × Nat) := spread s (treeFuel s) 0 [(treeRoot s, 0)]
def depthOf (ds : List (Nat × Nat)) (x : Nat) : Nat := ((findBy (·.1) x ds).map (·.2)).getD 0
/-- A hop goes up when its far end has the smaller depth and id. -/
def goesUp (ds : List (Nat × Nat)) (x y : Nat) : Bool :=
  depthOf ds y < depthOf ds x || (depthOf ds y == depthOf ds x && y < x)

/-! ### Legal routes (R326 step 3) -/

/-- A legal route under way: where it stands, whether it has gone down, and its hops so far. -/
structure Way where
  at_  : Nat
  down : Bool
  hops : List Hop
  deriving DecidableEq, Repr

/-- The legal ways one hop longer than a way: after a hop down, none goes up. -/
def Way.grow (s : State) (ds : List (Nat × Nat)) (w : Way) : List Way :=
  (hopsFrom s w.at_).filterMap fun h =>
    let up := goesUp ds w.at_ h.2
    if w.down && up then none else some ⟨h.2, w.down || !up, w.hops ++ [h]⟩

/-- Whether two ways need not both be followed: they stand at one node in one direction and left by one port. -/
def Way.same (v w : Way) : Bool := v.at_ == w.at_ && v.down == w.down && (v.hops.head?.map (·.1)) == (w.hops.head?.map (·.1))

/-- Ways of a list that repeat none of those found before. -/
def freshWays (seen : List Way) : List Way → List Way
  | [] => []
  | w :: r => if seen.any w.same then freshWays seen r else w :: freshWays (w :: seen) r

/-- The shortest legal ways by rising length, to each node in each direction by each first port: n further lengths. -/
def legalWays (s : State) (ds : List (Nat × Nat)) : Nat → List Way → List Way → List Way
  | 0, _, seen => seen
  | n + 1, last, seen =>
    let next := freshWays seen (last.flatMap (Way.grow s ds))
    legalWays s ds n next (seen ++ next)

/-- The ports of the module whose links lead where one hop leads (R325). -/
def equalPorts (s : State) (h : Option Hop) : List Nat := ((hopsFrom s s.module).filter fun x => some x.2 == h.map (·.2)).map (·.1)

/-- The routes to a node among legal ways by rising length: the shortest, and the next shortest that leaves by another port, or the
shortest itself. Which of equal length comes first is not said; the lower port does (log 49). -/
def routeTo (s : State) (ways : List Way) (m : Nat) : Option Route :=
  match ways.filter fun w => w.at_ == m with
  | [] => none
  | w :: r =>
    some ⟨m, w.hops, ((r.find? fun v => v.hops.head?.map (·.1) != w.hops.head?.map (·.1)).map (·.hops)).getD w.hops,
      equalPorts s w.hops.head?⟩

/-- The routes from the module to every other module, over the links as they stand. -/
def routesNow (s : State) : List Route :=
  let ds := treeDepths s
  let start : Way := ⟨s.module, false, []⟩
  let ways := legalWays s ds (2 * treeFuel s) [start] [start]
  ((ds.map (·.1)).filter fun m => isModule m && m != s.module).filterMap (routeTo s ways)

/-! ### Recomputation (R327) -/

def routeOf (rs : List Route) (m : Nat) : Option Route := findBy (·.dest) m rs

/-- The modules whose installed routes are not those of the links as they stand. -/
def changedRoutes (s : State) : List Nat :=
  let now := routesNow s
  ((s.routes ++ now).map (·.dest)).eraseDups.filter fun m => routeOf s.routes m != routeOf now m

/-- The links have changed: the tree is computed anew, and packets for modules whose routes change are held until it is installed. -/
def recompute (s : State) : State := { s with moving := true, changed := (s.changed ++ changedRoutes s).eraseDups }

/-- The new tree is installed. -/
def installRoutes (s : State) : State := { s with moving := false, changed := [], routes := routesNow s, generation := s.generation + 1 }

end Sys2Proof.Machine
end

