-- ==== Sys2Proof/Machine/Fabric.lean ====
section
/-! DEFINITION. The fabric (13): sequences, reorder windows, trims, yo-yos, acknowledgements, deferrals, forwarding stubs,
links and routes, fabric registers, and the egress agent (R330). -/
namespace Sys2Proof.Machine

/-! ### Counters (R323) -/

/-- The die and the port at which a node's interface events of a pair with another node count. R323 does not say which port counts those
of the nodes of a die (its queues and its fabric interface): port 62 does (DESIGN CHOICE, log 96). -/
def portOf (node other : Nat) : Nat × Nat :=
  let i := node % 4096
  match nodeKind node with
  | 0 => (i / 1024, i / 32 % 32)
  | 1 => if i < 32 then (i / 8, 56 + i % 8 / 2) else ((i - 32) / 4, 56 + (i - 32) % 4)
  | 2 => (i / 1024, 62)
  | _ => ((nodeDie other).getD 0, 60)

def Port.zero (n : Nat) : Port := ⟨n, 0, 0, 0, 0, 0, 0, Vector.replicate 8 0⟩
def getPort (d : Die) (n : Nat) : Port := (findBy (·.n) n d.ports).getD (Port.zero n)

/-- The counters of a port changed. -/
def countPort (s : State) (die n : Nat) (f : Port → Port) : State :=
  let d := getDie s die
  setDie s { d with ports := putBy (·.n) (f (getPort d n)) d.ports }

/-- A counter of the port of a node's interface, when it is of the own module. -/
def countAt (s : State) (node other : Nat) (f : Port → Port) : State :=
  if nodeModule node != s.module then s
  else countPort s (portOf node other).1 (portOf node other).2 f

/-- The crossbar outputs toward a node: its port, or either port of its link (R312). -/
def outputsTo (node other : Nat) : List (Nat × Nat) :=
  let p := portOf node other
  match nodeKind node with
  | 0 => [p]
  | 1 => [p]
  | 2 => [(p.1, 62), (p.1, 63)]
  | _ => [(p.1, 60), (p.1, 61)]

/-- The eight ports of the links from a die to another (R312). -/
def dieLinkPorts (a b : Nat) : List (Nat × Nat) :=
  if a = b then [] else (List.range 8).map fun k => (a, 32 + 8 * (if b < a then b else b - 1) + k)

/-- The die at which a packet of a pair leaves or enters the crossbars: that of its node, or, for an application-die node, of the
other node (R323). -/
def crossbarDie (node other : Nat) : Nat := (portOf node other).1

/-- What RTAB of a die selects for a class (R325): 0 spread, 1 primary, 2 alternate. It has no field for class 7, which spreads
(DESIGN CHOICE, log 98). -/
def routeSel (s : State) (die cls : Nat) : Nat := (getDie s die).sel.toNat / 4 ^ cls % 4

/-- The link that the switch of a die picks among the links of a path, by the class of the packet and its ALT (R325): spread over them
by the nodes of the pair, the first, or the one four places further on. -/
def pickLink {α : Type} (s : State) (die : Nat) (k : Packet) (src dst : Nat) (links : List α) : List α :=
  let sel := routeSel s die k.cls
  let first := if sel = 0 then (src ^^^ dst) % links.length else 0
  (links[(first + if k.alt || sel = 2 then 4 else 0) % links.length]?).toList

/-- The Thrumlink port by which a packet leaves the module for another (R325, R326); none where there is no route. -/
def thrumPort (s : State) (k : Packet) (src dst : Nat) : Option Nat :=
  (routeOf s.routes (nodeModule dst)).bind fun r =>
    let sel := routeSel s (crossbarDie src dst) k.cls
    if k.alt || sel = 2 then r.alternate.head?.map (·.1)
    else if sel = 1 then r.primary.head?.map (·.1)
    else r.equal[(src ^^^ dst) % r.equal.length]?

/-- A packet takes the alternate route at the first hop where one exists (R325): once it has left by its alternate Thrumlink port, it
goes by its class. -/
def pastAlternate (s : State) (k : Packet) (dst : Nat) : Packet :=
  { k with alt := k.alt && !(routeOf s.routes (nodeModule dst)).any fun r => r.alternate != r.primary }

/-- The output ports of the own module by which a packet goes (R312, R323, R325): its source's cluster switch, a link between dies, the
port toward another module, and the output to its destination. Of a packet from another module the model does not say on which die it
enters, nor whether its alternate route was taken before. -/
def trimPorts (s : State) (k : Packet) (src dst : Nat) : List (Nat × Nat) :=
  let a := crossbarDie src dst
  let b := crossbarDie dst src
  let first := if nodeKind src = 0 then [portOf src dst] else []
  let last := pickLink s b k src dst (outputsTo dst src)
  if nodeModule src = s.module then
    if nodeModule dst = s.module then first ++ pickLink s a k src dst (dieLinkPorts a b) ++ last
    else first ++ (thrumPort s k src dst).toList.flatMap fun port =>
      pickLink s a (pastAlternate s k dst) src dst (dieLinkPorts a (port / 3)) ++ pickLink s (port / 3) k src dst [(port / 3, 62), (port / 3, 63)]
  else if nodeModule dst = s.module then
    (List.range 4).flatMap (fun d => pickLink s d { k with alt := false } src dst (dieLinkPorts d b)
      ++ if k.alt then pickLink s d k src dst (dieLinkPorts d b) else []) ++ last
  else []

/-- The ports of the own module through which a packet comes to its destination: that of a link between dies at the die it enters, and
the output to the node (R312, R323; log 93). way: the Thrumlink port by which a packet of another module comes. -/
def cameThrough (s : State) (k : Packet) (src dst way : Nat) : List (Nat × Nat) :=
  let b := crossbarDie dst src
  let a := if nodeModule src = s.module then crossbarDie src dst else way % 12 / 3
  if nodeModule dst = s.module then
    pickLink s a k src dst (dieLinkPorts b a) ++ pickLink s b k src dst (outputsTo dst src)
  else []
/-- BAD counts at each of them (R311, R323). -/
def countBad (s : State) (k : Packet) (src dst way : Nat) : State :=
  (cameThrough s k src dst way).foldl (fun s p => countPort s p.1 p.2 fun x => { x with bad := x.bad + 1 }) s

/-- The histogram bucket of a hole's wait. -/
def holeBucket (w : Nat) : Fin 8 :=
  if w < 64 then 0 else if w < 256 then 1 else if w < 1024 then 2 else if w < 4096 then 3 else if w < 16384 then 4
  else if w < 65536 then 5 else if w < 262144 then 6 else 7

/-- The fabric control register of a node's die (R324). The rule names none for the nodes of the application die: die 0's governs them
(DESIGN CHOICE, log 97). -/
def fcfg (s : State) (node : Nat) : Die := getDie s ((nodeDie node).getD 0)

/-! ### Sequences -/

/-- How far a sequence lies above another, modulo 2^16. -/
def seqDist (a b : Nat) : Nat := (a + 2 ^ 16 - b) % 2 ^ 16
/-- Whether a sequence is at or below another. -/
def seqLe (a b : Nat) : Bool := seqDist b a < 2 ^ 15

/-- The kind of a use (R311). -/
def kindOf : Body → Nat
  | .msg _ _ _ _ => 0x01
  | .grp _ _ _ _ => 0x02
  | .tsk _ _ _ _ => 0x03
  | .rd _ _ _ => 0x10
  | .rdr _ _ => 0x11
  | .wr _ _ _ => 0x12
  | .wra _ _ => 0x13
  | .amo _ _ _ => 0x14
  | .amor _ _ => 0x15
  | .red _ _ _ _ _ _ => 0x16
  | .jrd _ _ _ _ => 0x17
  | .jrdr _ _ _ => 0x11
  | .jwr _ _ _ _ _ => 0x18
  | .jwra _ _ _ => 0x13
  | .close _ => 0x03
  | .egr _ _ _ _ _ _ => 0x20
  | .bad k _ => k
  | .moved => 0x01

def Body.isBad : Body → Bool
  | .bad _ _ => true
  | _ => false

/-! ### The egress agent (R201, R202, R330) -/

def seqBelow (x : BitVec 32) (mark : Option (BitVec 32)) : Bool :=
  match mark with
  | some m => x ≤ m
  | none => false
def raiseMark (x : BitVec 32) (mark : Option (BitVec 32)) : Option (BitVec 32) :=
  match mark with
  | some m => some (if m ≤ x then x else m)
  | none => some x

/-- Entries presented in order; the vector is raised when the queue was empty for the card (R330). -/
def present (e : Egress) (xs : List EgrEntry) : Egress :=
  if xs.isEmpty then e
  else { e with ring := e.ring ++ xs, pres := e.pres + BitVec.ofNat 32 xs.length,
                raised := if e.pres = e.chead then e.raised + 1 else e.raised }

/-- An egress item performs; none where a post finds the queue full and waits. -/
def performEgr (s : State) (launch core q : Nat) (op : EgrOp) (operand : Word) (data : Vec) : Option State :=
  let e := getEgress s q
  let st := egStream operand
  let x := egSeq operand
  let r := e.streams.find? fun r => r.stream == st
  if op == .post && 4096 ≤ egressCount e then none
  else if r.isNone && op == .drop && x == 0xFFFFFFFF#32 then some s
  else if r.isNone && 1024 ≤ e.streams.length then
    some (report s (agentFault launch causeEGRESS 5 operand core))
  else
    let r := r.getD ⟨st, none, none⟩
    let put (e : Egress) (r : EgrStream) : Egress :=
      { e with streams := e.streams.filter (fun y => y.stream != st) ++ [r] }
    let covered (y : EgrEntry) : Bool := y.stream == st && y.seq ≤ x
    some <| setEgress s <|
      match op with
      | .post =>
        let y : EgrEntry := ⟨launch, st, x, data⟩
        let e := put e r
        if seqBelow x r.drop then e
        else if seqBelow x r.rel then present e [y]
        else { e with held := e.held ++ [y] }
      | .rel =>
        let e := put e { r with rel := raiseMark x r.rel }
        present { e with held := e.held.filter fun y => !covered y } (e.held.filter covered)
      | .drop =>
        let e := { e with held := e.held.filter fun y => !covered y }
        if x == 0xFFFFFFFF#32 then { e with streams := e.streams.filter fun y => y.stream != st }
        else put e { r with drop := raiseMark x r.drop }

/-! ### Performing a packet at position E (R249, R316) -/

inductive Outcome3 where
  | done (s : State)
  | defer (reason : Nat)
  | forward (node : Nat)
  | wait
  deriving DecidableEq, Repr

/-- The base-2 logarithm of a size, as OPX carries it: the least power of two that holds n bytes. -/
def log2Size (n : Nat) : Nat := (List.range 7).countP fun k => 2 ^ k < n

/-- Bytes up to the last one that a mask names. -/
def maskSize (m : BitVec 64) : Nat := ((List.range 64).map fun k => if m.getLsbD k then k + 1 else 0).foldl max 0

/-- Number of an atomic of R153. -/
def rmwCode : RmwOp → Nat
  | .add => 0
  | .and => 1
  | .or => 2
  | .xor => 3
  | .min => 4
  | .max => 5
  | .minu => 6
  | .maxu => 7
  | .swap => 8

/-- OPX of what an access does: the size, two bytes and bit 7 for a descriptor; the f5 of an atomic, with bit 7 that of a CAS, which
tells its failure ordering (R154). Log 75 gives the home steps of tasks numbers of their own. -/
def opxOf : MemOp → Nat
  | .read _ n => log2Size n
  | .readBlock _ => 6
  | .readDesc _ => 0x81
  | .write _ _ m => log2Size (maskSize m)
  | .writeBlock _ _ _ => 6
  | .writePart _ _ m _ => log2Size (maskSize m)
  | .writeDesc _ _ => 0x81
  | .rmw _ n op _ => 2 * rmwCode op + n / 8
  | .cas _ n _ _ fail => 0x80 + 2 * (9 + fail) + n / 8
  | .tarm _ _ _ => 2 * 12 + 1
  | .tarmRelease _ => 2 * 13 + 1
  | .tdoneState _ => 6
  | .tdoneSet _ => 2 * 14 + 1
  | .decrement _ => 2 * 15 + 1

/-- A response goes back to the source in the pair from the home, where it takes its place among the packets of that pair (R237, R241,
R310, R316). opx, addr: of the request that it answers. -/
def respondTo (s : State) (p : Pair) (k : Packet) (len opx addr : Nat) (b : Body) : State :=
  enqueue s p.dst p.src { newAccess len k.asid k.via b with opx := opx, addr := addr }

/-- Payload flits of a read response. -/
def MemOp.answerFlits : MemOp → Nat
  | .read _ n => if n ≤ 32 then 1 else 2
  | .readDesc _ => 1
  | _ => 2

/-- A task reaches a queue node (R195, R292). -/
def performTsk (s : State) (dst l level : Nat) (t : Task) (r : FaultReport) : Outcome3 :=
  let die := dst % 4096 / 1024
  match getLaunch s l with
  | none => .done s
  | some x =>
    if x.phase == .ending || x.phase == .ended then .done s
    else if x.closed.contains die then .done (report s r)
    else
      let e := if level = 1 then enterCluster s (nodeModule dst * 128 + dst % 4096 / 32) l t else enterDie s die l [t]
      match e with
      | some s => .done s
      | none => .wait

def performPacket (s : State) (p : Pair) (k : Packet) : Outcome3 :=
  match k.body with
  | .msg l name ch m =>
    match performMsg s p.dst l name ch m with
    | .done s => .done s
    | .defer r => .defer r
    | .forward n => if 4 ≤ k.hops then .defer 2 else .forward n
  | .grp l o op who =>
    let (s, r) := performGroup s l o op
    match who with
    | some w => .done (respondTo s p k 1 0 0 (.rdr w r))
    | none => .done s
  | .tsk l level t r => performTsk s p.dst l level t r
  | .rd op key w =>
    let (s, r) := performAt s op key op.pa
    .done (respondTo s p k op.answerFlits (opxOf op) op.pa (.rdr w r))
  | .wr op key w =>
    let (s, r) := performAt s op key op.pa
    .done (respondTo s p k 0 0 op.pa (.wra w r))
  | .amo op key w =>
    let (s, r) := performAt s op key op.pa
    .done (respondTo s p k 1 (opxOf op) op.pa (.amor w r))
  | .rdr w r => .done (respond s w r)
  | .wra w r => .done (respond s w r)
  | .amor w r => .done (respond s w r)
  | .red _ pa key w0 w1 r => .done (performRed s pa key w0 w1 r)
  | .jrd j n op key =>
    let (s, r) := performAt s op key op.pa
    .done (respondTo s p k op.answerFlits (opxOf op) op.pa (.jrdr j n r))
  | .jrdr j n r => .done (landRead s j n r)
  | .jwr j n rop op key =>
    let (s, r) := performElem s rop op key
    let s := landRecord s j n
    .done (respondTo s p k 0 0 op.pa (.jwra j n r))
  | .jwra j n r => .done (landWrite s j n r)
  | .close l => .done (modLaunch s l fun x => { x with closed := x.closed ++ [p.dst % 4096 / 1024] })
  | .egr l c q op o data =>
    match performEgr s l c q op o data with
    | some s => .done s
    | none => .wait
  | .bad kind way =>
    .done (homeMusic (countBad s k p.src p.dst way) p.dst 9 (kind % 256 + p.src % 2 ^ 14 * 2 ^ 8))
  | .moved => .done s

/-- A cumulative acknowledgement, carrying E − 1, leaves the receiver (R319). -/
def sendAck (p : Pair) : Pair :=
  { p with ctl := p.ctl ++ [.ack (seqDist p.expected 1)], unacked := 0, oldest := none }

/-- The packet at position E has performed (R316, R319). -/
def advance (now : Nat) (p : Pair) : Pair :=
  let e := p.expected
  let p := { p with expected := (e + 1) % 2 ^ 16, window := p.window.filter (fun k => k.seq != e),
                    holes := p.holes.filter (fun h => h.seq != e), unacked := p.unacked + 1,
                    oldest := match p.oldest with | some t => some t | none => some now }
  if 8 ≤ p.unacked then sendAck p else p

/-- The packets at position E perform in sequence order while they can (R316, R321, R322). -/
def drain (src dst : Nat) : Nat → State → State
  | 0, s => s
  | n + 1, s =>
    let p := getPair s src dst
    match p.window.find? (fun k => k.seq == p.expected) with
    | none => s
    | some k =>
      if p.holes.any (fun h => h.seq == p.expected && h.fwd) then s
      else match performPacket s p k with
        | .done s => drain src dst n (modPair s src dst (advance s.netClock))
        | .wait => s
        | .defer r =>
          let h : Hole := ⟨k.seq, s.netClock, none, true, false, some { k with len := 0, defer := true }⟩
          countAt (modPair s src dst fun p =>
            { p with window := p.window.filter (fun x => x.seq != k.seq), holes := p.holes ++ [h],
                     ctl := p.ctl ++ [.defr k.seq r] }) dst src fun x => { x with defers := x.defers + 1 }
        | .forward node =>
          let h : Hole := ⟨k.seq, s.netClock, none, false, true, none⟩
          let copy : Packet := { k with seq := 0, hops := k.hops + 1, alt := false, orig := some (src, k.seq) }
          enqueue (modPair s src dst fun p => { p with holes := p.holes ++ [h] }) dst node copy

/-- A hole filled: its wait is counted and an acknowledgement is sent (R319, R323). -/
def fillHole (s : State) (src dst seq : Nat) : State :=
  let p := getPair s src dst
  match p.holes.find? (fun h => h.seq == seq) with
  | none => s
  | some h =>
    countAt (setPair s { p with holes := p.holes.filter fun x => x.seq != seq }) dst src fun x =>
      let b := holeBucket (s.netClock - h.since)
      { x with hwait := x.hwait.set b (x.hwait[b] + 1) }

/-- A list without its first element that satisfies a test. -/
def eraseFirst {α : Type} (f : α → Bool) : List α → List α
  | [] => []
  | x :: r => if f x then r else x :: eraseFirst f r

/-- Whether a packet that stands at E can perform now: no forwarded copy is waited for, and its destination does not hold it. -/
def canPerform (s : State) (p : Pair) (k : Packet) : Bool :=
  !p.holes.any (fun h => h.seq == p.expected && h.fwd) && match performPacket s p k with
    | .wait => false
    | _ => true

/-- The holes with that of a trimmed header: a deferred position becomes an ordinary hole; an ordinary one stands (R315, R316;
log 63). -/
def recordHole (now : Nat) (k : Packet) (holes : List Hole) : List Hole :=
  if holes.any (fun h => h.seq == k.seq && !h.deferred) then holes
  else holes.filter (fun h => h.seq != k.seq) ++ [⟨k.seq, now, none, false, false, some k⟩]

/-- A whole packet at a position of the window that is not filled is stored, and the packets at E perform while they can. -/
def storePacket (s : State) (src dst : Nat) (k : Packet) : State :=
  let filled := (getPair s src dst).holes.any fun h => h.seq == k.seq
  let s := fillHole (modPair s src dst fun q => { q with window := q.window ++ [k] }) src dst k.seq
  let s := drain src dst 33 s
  if filled then modPair s src dst sendAck else s

/-- A packet reaches its destination (R316): below E or already there it is discarded; trimmed it is a hole; whole it is stored. A trimmed
copy for a position that holds the whole packet is discarded like any other (the TRIM row does not say; DESIGN CHOICE, log 99). -/
def receive (s : State) (src dst : Nat) (k : Packet) : State :=
  let q := getPair s src dst
  if 32 ≤ seqDist k.seq q.expected then setPair s (sendAck q)
  else if q.window.any (fun x => x.seq == k.seq) || q.holes.any (fun h => h.seq == k.seq && h.fwd) then s
  else if k.trim then setPair s { q with holes := recordHole s.netClock k q.holes }
  else storePacket s src dst k

/-- A packet that isIt names arrives, or stands at E and tries again (R316). -/
def arriveBy (event : String) (isIt : Packet → Bool) (src dst : Nat) (s : State) : Out :=
  let p := getPair s src dst
  match p.net.find? isIt with
  | none =>
    guarded event s ((p.window.find? isIt).any fun k => k.seq == p.expected && canPerform s p k) (drain src dst 33 s)
  | some k => guarded event s true (receive (setPair s { p with net := eraseFirst isIt p.net }) src dst k)

/-- A packet of a kind arrives. -/
def arrive (event : String) (kind : Nat → Bool) (src dst seq : Nat) (s : State) : Out :=
  arriveBy event (fun k => k.seq == seq && (kind (kindOf k.body) || k.body.isBad)) src dst s

def execEvMsg (src dst seq : Nat) (s : State) : Out := arrive "MSG" (· == 0x01) src dst seq s
def execEvGrp (src dst seq : Nat) (s : State) : Out := arrive "GRP" (· == 0x02) src dst seq s
def execEvTsk (src dst seq : Nat) (s : State) : Out := arrive "TSK" (· == 0x03) src dst seq s
def execEvRd (src dst seq : Nat) (s : State) : Out := arrive "RD" (· == 0x10) src dst seq s
def execEvRdr (src dst seq : Nat) (s : State) : Out := arrive "RDR" (· == 0x11) src dst seq s
def execEvWr (src dst seq : Nat) (s : State) : Out := arrive "WR" (· == 0x12) src dst seq s
def execEvWra (src dst seq : Nat) (s : State) : Out := arrive "WRA" (· == 0x13) src dst seq s
def execEvAmo (src dst seq : Nat) (s : State) : Out := arrive "AMO" (· == 0x14) src dst seq s
def execEvAmor (src dst seq : Nat) (s : State) : Out := arrive "AMOR" (· == 0x15) src dst seq s
def execEvRed (src dst seq : Nat) (s : State) : Out := arrive "RED" (· == 0x16) src dst seq s

/-- The pair that holds the packet of an element access of a job. -/
def elementPair (s : State) (isIt : Packet → Bool) : Option Pair :=
  s.pairs.find? fun p => p.net.any isIt || p.window.any isIt

/-- JRD and JWR (R311, R329): access k of a job reaches its home, and performs in its pair's order (R316). -/
def arriveElement (event : String) (isIt : Packet → Bool) (s : State) : Out :=
  match elementPair s isIt with
  | some p => arriveBy event isIt p.src p.dst s
  | none => notPermitted event
def Packet.isRead (j k : Nat) (x : Packet) : Bool := match x.body with | .jrd j' k' _ _ => j' == j && k' == k | _ => false
def Packet.isWrite (j k : Nat) (x : Packet) : Bool := match x.body with | .jwr j' k' _ _ _ => j' == j && k' == k | _ => false
def execEvJrd (j k : Nat) (s : State) : Out := arriveElement "JRD" (Packet.isRead j k) s
def execEvJwr (j k : Nat) (s : State) : Out := arriveElement "JWR" (Packet.isWrite j k) s
def execEvEgr (src dst seq : Nat) (s : State) : Out := arrive "EGR" (· == 0x20) src dst seq s

/-! ### Transmitting and resending (R318, R320) -/

/-- Lines of a node's retransmit store, and those in use (R318). The rule gives none for the nodes of the application die: they have
256 KiB, as a die's nodes have (DESIGN CHOICE, log 100). -/
def storeLines (node : Nat) : Nat := if nodeKind node = 0 then 1024 else 8192
def linesUsed (s : State) (node : Nat) : Nat :=
  (s.pairs.map fun p => if p.src = node then (p.store.map fun x => 1 + x.pkt.len).sum else 0).sum

/-- TRANSMIT (R241, R318, R327): the head of an outbound queue enters the network. -/
def execEvTransmit (src dst : Nat) (s : State) : Out :=
  let p := getPair s src dst
  match p.out with
  | [] => notPermitted "TRANSMIT"
  | k :: rest =>
    let k := { k with seq := p.next }
    guarded "TRANSMIT" s
      (p.store.length < 32 && linesUsed s src + 1 + k.len ≤ storeLines src
        && !(s.moving && nodeModule src != nodeModule dst && s.changed.contains (nodeModule dst)))
      (setPair s { p with out := rest, next := (p.next + 1) % 2 ^ 16, net := p.net ++ [k],
                          store := p.store ++ [⟨k, 0, s.netClock⟩] })

/-- A copy of a stored packet is sent again; counted resends change the path every four and record every sixteenth
(R320). -/
def resend (s : State) (src dst seq : Nat) (counted : Bool) : State :=
  let p := getPair s src dst
  match p.store.find? (fun x => x.pkt.seq == seq) with
  | none => s
  | some x =>
    let n := x.resends + (if counted then 1 else 0)
    let k := { x.pkt with alt := (n - 1) / 4 % 2 == 1 }
    let x' : Sent := ⟨k, n, s.netClock⟩
    let s := setPair s { p with net := p.net ++ [k],
                                store := p.store.map fun y => if y.pkt.seq == seq then x' else y }
    let s := countAt s src dst fun q => { q with retx := q.retx + 1 }
    if counted && n % 16 == 0 then homeMusic s src 8 (seq + dst % 2 ^ 14 * 2 ^ 16) else s

/-- A control packet at the head of a pair's class-7 lane reaches the source. -/
def takeCtl (event : String) (src dst : Nat) (s : State) (f : Ctl → Option (State → State)) : Out :=
  let p := getPair s src dst
  match p.ctl with
  | [] => notPermitted event
  | x :: rest =>
    match f x with
    | none => notPermitted event
    | some g => guarded event s true (g (setPair s { p with ctl := rest }))

/-- Originals whose forwarded copies are acknowledged perform in their own pairs (R322). -/
def settleForwards (stub : Nat) : List Sent → State → State
  | [], s => s
  | x :: r, s =>
    match x.pkt.orig with
    | none => settleForwards stub r s
    | some (src, seq) =>
      let p := getPair s src stub
      let s := if p.expected == seq && p.holes.any (fun h => h.seq == seq && h.fwd) then
          drain src stub 33 (setPair s (advance s.netClock p))
        else s
      settleForwards stub r s

/-- ACK (R319): every packet at or below the sequence is acknowledged. -/
def execEvAck (src dst : Nat) (s : State) : Out :=
  takeCtl "ACK" src dst s fun
    | .ack n => some fun s =>
        let p := getPair s src dst
        let gone := p.store.filter fun x => seqLe x.pkt.seq n
        settleForwards src gone
          (setPair s { p with store := p.store.filter (fun x => !seqLe x.pkt.seq n), shift := 0 })
    | _ => none

/-- YOYO (R320). -/
def execEvYoyo (src dst : Nat) (s : State) : Out :=
  takeCtl "YOYO" src dst s fun
    | .yoyo n => some fun s => resend (countAt s src dst fun q => { q with yorx := q.yorx + 1 }) src dst n true
    | _ => none

/-- DEFR (R321): the backoff begins, doubled at each further deferral of the pair, up to 2^16. -/
def execEvDefr (src dst : Nat) (s : State) : Out :=
  takeCtl "DEFR" src dst s fun
    | .defr n reason => some fun s =>
        let wait (p : Pair) : Nat := min (2 ^ ((fcfg s src).boff + p.shift)) (2 ^ 16)
        modPair s src dst fun p =>
          { p with backoff := (p.backoff.filter fun b => b.1 != n) ++ [(n, s.netClock + wait p, reason)],
                   shift := p.shift + 1 }
    | _ => none

/-- A packet with its position given up, where it is a message for one endpoint (R300). -/
def giveUp (l name : Nat) (k : Packet) : Packet :=
  if isFor l name k then { k with body := .moved, len := 0, orig := none } else k

/-- R300: the deferred message and those after it for its actor go to another node, with HOPS 0, forwarded copies still for their
originals (R322); the positions they had stand as performed. -/
def reroute (s : State) (src dst l name node : Nat) : State :=
  let p := getPair s src dst
  let moving := (p.store.map (·.pkt) ++ p.out).filter (isFor l name)
  let s := setPair s { p with
    store := p.store.map (fun x => { x with pkt := giveUp l name x.pkt }),
    net := p.net.map (giveUp l name), window := p.window.map (giveUp l name),
    out := p.out.filter (fun k => !isFor l name k) }
  moving.foldl (fun s k => enqueue s src node { k with seq := 0, hops := 0, alt := false }) s

/-- The directory entry of a core refreshed from the master directory (R298). -/
def refreshEntry (s : State) (src l name node : Nat) : State :=
  if nodeKind src = 0 then cacheNode s (nodeCore src) l name node else s

/-- A deferred message and those of its pair after it for its actor start again with HOPS 0 (R299, R321 reason 2). -/
def restartHops (s : State) (src dst l name n : Nat) : State :=
  let start (k : Packet) : Packet := if isFor l name k then { k with hops := 0 } else k
  modPair s src dst fun p =>
    { p with store := p.store.map (fun x => if seqLe n x.pkt.seq then { x with pkt := start x.pkt } else x), out := p.out.map start }

/-- A deferred packet whose backoff has run out is sent again (R321, R300), a message once its entry is refreshed, to where that points,
and to another node only once every earlier message for its actor has been acknowledged; none while it waits. -/
def expire (s : State) (src dst : Nat) (b : Nat × Nat × Nat) : Option State :=
  let p := getPair s src dst
  let n := b.1
  let s0 := setPair s { p with backoff := p.backoff.filter fun x => x.1 != n }
  let body : Option Body := (p.store.find? (fun x => x.pkt.seq == n)).map (fun x => x.pkt.body)
  if s.netClock < b.2.1 then none
  else match body with
    | some (.msg l name _ _) =>
      let node := ((getActor s l name).map Actor.node).getD dst
      let s1 := refreshEntry s0 src l name node
      if node = dst then some (resend (if b.2.2 = 2 then restartHops s1 src dst l name n else s1) src dst n false)
      else if p.store.any fun x => seqDist n x.pkt.seq != 0 && seqLe x.pkt.seq n && isFor l name x.pkt then none
      else some (resend (reroute s1 src dst l name node) src dst n false)
    | _ => some (resend s0 src dst n false)

/-- BACKOFF_EXPIRY (R321): the first deferred packet of the pair that can be sent again is. -/
def execEvBackoffExpiry (src dst : Nat) (s : State) : Out :=
  match (getPair s src dst).backoff.findSome? (expire s src dst) with
  | some t => guarded "BACKOFF_EXPIRY" s true t
  | none => notPermitted "BACKOFF_EXPIRY"

/-- A packet as a switch trims it, or moves it whole to the class-7 lane (R315). -/
def Packet.cut (k : Packet) : Packet := if k.len = 0 then { k with cls := 7 } else { k with len := 0, trim := true, cls := 7 }

/-- TRIM (R315): at one output of its way a packet of classes 0 to 6 is trimmed to its header; with LEN 0 it moves whole to the
class-7 lane. place is the packet's 16-bit sequence with the number of the output above it. Beyond the own module's outputs stand
the domain switches, which count nothing here. -/
def execEvTrim (src dst place : Nat) (s : State) : Out :=
  let seq := place % 2 ^ 16
  let hop := place / 2 ^ 16
  let p := getPair s src dst
  let isIt (k : Packet) : Bool := k.seq == seq && k.cls != 7
  match p.net.find? isIt with
  | none => notPermitted "TRIM"
  | some k =>
    let s' := setPair s { p with net := eraseFirst isIt p.net ++ [k.cut] }
    match (trimPorts s k src dst)[hop]? with
    | some port => guarded "TRIM" s true (if k.len = 0 then s' else countPort s' port.1 port.2 fun x => { x with trims := x.trims + 1 })
    | none => guarded "TRIM" s (nodeModule src != nodeModule dst) s'

/-- The yo-yo tokens of an interface at the present network cycle (R317). -/
def yoTokens (s : State) (node : Nat) : Nat :=
  let d := fcfg s node
  match s.buckets.find? (fun b => b.1 == node) with
  | none => d.ydepth
  | some (_, n, t) => min d.ydepth (n + (s.netClock - t) / d.yper)

/-- Whether a hole may be re-requested at a network cycle (R317). -/
def Hole.askable (h : Hole) (now : Nat) : Bool :=
  !h.deferred && !h.fwd && match h.asked with
    | none => true
    | some t => decide (t + 1024 ≤ now)

/-- HOLE_REREQUEST (R317): the oldest hole of an interface is re-requested with a yo-yo. -/
def execEvHoleRerequest (src dst seq : Nat) (s : State) : Out :=
  let p := getPair s src dst
  match p.holes.find? (fun h => h.seq == seq) with
  | none => notPermitted "HOLE_REREQUEST"
  | some h =>
    let older := s.pairs.any fun q => q.dst == dst && q.holes.any fun x => x.askable s.netClock && x.since < h.since
    let d := fcfg s dst
    let left := yoTokens s dst - 1
    let t := match s.buckets.find? (fun b => b.1 == dst) with
      | some (_, n, t) => if d.ydepth ≤ n + (s.netClock - t) / d.yper then s.netClock
                          else t + (s.netClock - t) / d.yper * d.yper
      | none => s.netClock
    guarded "HOLE_REREQUEST" s (h.askable s.netClock && !older && 0 < yoTokens s dst)
      (countAt { setPair s { p with
          holes := p.holes.map (fun x => if x.seq == seq then { x with asked := some s.netClock } else x),
          ctl := p.ctl ++ [.yoyo seq] }
        with buckets := putBy (·.1) (dst, left, t) s.buckets } dst src fun x => { x with yotx := x.yotx + 1 })

/-- ACK_TIMER (R319): 64 network cycles after the oldest unacknowledged Perform. -/
def execEvAckTimer (src dst : Nat) (s : State) : Out :=
  let p := getPair s src dst
  match p.oldest with
  | some t => guarded "ACK_TIMER" s (decide (t + 64 ≤ s.netClock)) (setPair s (sendAck p))
  | none => notPermitted "ACK_TIMER"

/-- RTO (R320): the oldest unacknowledged packet of the pair is sent again. -/
def execEvRto (src dst : Nat) (s : State) : Out :=
  match (getPair s src dst).store with
  | x :: _ =>
    guarded "RTO" s (decide (x.sentAt + (fcfg s src).rto * 1024 ≤ s.netClock)) (resend s src dst x.pkt.seq true)
  | [] => notPermitted "RTO"

/-! ### Links and routes (R326 to R328, R332) -/

/-- The links: Thrumlink ports 0 to 11, three to a die, and the 24 die-to-die ports of each die from 12 on (R312, R328). -/
def linkCount : Nat := 108
/-- The die of a link, and its crossbar port, or 0x80 and its Thrumlink port (R343). -/
def linkDie (link : Nat) : Nat := if link < 12 then link / 3 else (link - 12) / 24
def linkPort (link : Nat) : Nat := if link < 12 then 0x80 + link else 32 + (link - 12) % 24
/-- The other end of a link in the module: a Thrumlink port has none. -/
def linkPeer (link : Nat) : Nat :=
  if link < 12 then link
  else
    let d := linkDie link
    let g := (link - 12) % 24 / 8
    let e := if g < d then g else g + 1
    12 + e * 24 + (if d < e then d else d - 1) * 8 + (link - 12) % 8

/-- A link is marked down by its ends (R327): the event is written and the tree must be recomputed. -/
def markDown (s : State) (link : Nat) : State :=
  let die := linkDie link
  let ends := if linkPeer link = link then [link] else [link, linkPeer link]
  music (recompute { s with linksDown := s.linksDown.filter (fun l => !ends.contains l) ++ ends }) die
    (2 * 4096 + die * 1024) 7 (BitVec.ofNat 64 (linkPort link))

/-- FRAME (R328, R339): a frame arrives; one that fails its CRC is replayed, and the failure of the sixteenth replay in a row marks
the link down. -/
def execEvFrame (link : Nat) (good : Bool) (s : State) : Out :=
  if clocksRun s && link < linkCount && !s.linksDown.contains link then
    if good then .next { s with linkFails := dropBy (·.1) link s.linkFails }
    else
      let n := 1 + match findBy (·.1) link s.linkFails with | some p => p.2 | none => 0
      if 17 ≤ n then .next (markDown { s with linkFails := dropBy (·.1) link s.linkFails } link)
      else
        let d := getDie s (linkDie link)
        let r := 1 + match findBy (·.1) link d.replay with | some p => p.2 | none => 0
        .next (setDie { s with linkFails := putBy (·.1) (link, n) s.linkFails } { d with replay := putBy (·.1) (link, r) d.replay })
  else notPermitted "FRAME"

/-- LINK_DOWN (R327). -/
def execEvLinkDown (link : Nat) (s : State) : Out :=
  guarded "LINK_DOWN" s (link < linkCount && !s.linksDown.contains link) (markDown s link)

/-- Whether a packet of a pair crosses a link (R325, R326); one of another module may come by any Thrumlink port. -/
def onLink (s : State) (link : Nat) (k : Packet) (src dst : Nat) : Bool :=
  if link < 12 then
    nodeModule src != nodeModule dst
      && ((nodeModule src == s.module && thrumPort s k src dst == some link) || nodeModule dst == s.module)
  else (trimPorts s k src dst).contains (linkDie link, linkPort link)

/-- A packet that meets a link that is down (R327 step 2, R321 reason 3): queued for the link, it is deferred to its source; on the
link, it is lost, and its source's timeout recovers it. The deferral counts at the port of the packet's receiver (R321). none: there is no such link or packet. -/
def loseOnLink (s : State) (link src dst seq : Nat) (queued : Bool) : Option State :=
  let p := getPair s src dst
  let isIt (k : Packet) : Bool := k.seq == seq && onLink s link k src dst
  if s.moving && s.linksDown.contains link && p.net.any isIt then
    let s := setPair s { p with net := eraseFirst isIt p.net, ctl := if queued then p.ctl ++ [.defr seq 3] else p.ctl }
    some (if queued then countAt s dst src fun x => { x with defers := x.defers + 1 } else s)
  else none

/-- ROUTE_RECOMPUTE (R327): every node has installed the new tree under a new generation. -/
def execEvRouteRecompute (s : State) : Out :=
  command "ROUTE_RECOMPUTE" s s.moving (musicFirmware (installRoutes s) 0xB (BitVec.ofNat 64 (s.generation + 1)))

/-- LINK_BRING_UP (R332, R327): a link that passes training and the tests joins the tree; one that fails is kept down. -/
def execEvLinkBringUp (link : Nat) (good : Bool) (s : State) : Out :=
  command "LINK_BRING_UP" s (link < linkCount)
    (if good then recompute { s with linksDown := s.linksDown.filter (fun l => l != link && l != linkPeer link),
                                     linkFails := dropBy (·.1) link s.linkFails }
     else markDown s link)

/-! ### Registers (R323 to R325, R330) -/

/-- CLEAR (R323): every counter of the port's block becomes 0 in one step. -/
def execEvClear (die port : Nat) (s : State) : Out :=
  let d := getDie s die
  command "CLEAR" s (die < 4 && port < 64) (setDie s { d with ports := dropBy (·.n) port d.ports })

/-- A field write that leaves the field unchanged outside its range (R324). -/
def inRange (old v lo hi : Nat) : Nat := if lo ≤ v && v ≤ hi then v else old

/-- A write of FCFG (R324). -/
def writeFcfg (d : Die) (v : Nat) : Die :=
  { d with rto := inRange d.rto (v / 2 ^ 48 % 2 ^ 16) 1 65535, tthr := inRange d.tthr (v / 2 ^ 32 % 2 ^ 16) 64 65535,
           yper := inRange d.yper (v / 2 ^ 24 % 2 ^ 8) 1 255, ydepth := inRange d.ydepth (v / 2 ^ 20 % 16) 1 15,
           boff := inRange d.boff (v / 2 ^ 16 % 16) 4 16 }

/-- A write of RTAB: 3 leaves a class unchanged (R325). -/
def writeRtab (d : Die) (v : BitVec 64) : Die :=
  { d with sel := BitVec.ofNat 14 (((List.range 7).map fun c =>
      (if v.toNat / 4 ^ c % 4 = 3 then d.sel.toNat / 4 ^ c % 4 else v.toNat / 4 ^ c % 4) * 4 ^ c).sum) }

/-- REGISTER_WRITE (R324, R325). -/
def execEvRegisterWrite (die offset : Nat) (val : BitVec 64) (s : State) : Out :=
  command "REGISTER_WRITE" s (die < 4 && (offset = 0x8000 || offset = 0x8008))
    (setDie s (if offset = 0x8000 then writeFcfg (getDie s die) val.toNat else writeRtab (getDie s die) val))

/-- The register of an egress queue: HELD, PRES, CHEAD and OWNER (R330). The twelve bits of HELD read 0 where 4,096 entries are held (R330
does not say; DESIGN CHOICE, log 101). -/
def egressRegister (e : Egress) : BitVec 128 :=
  BitVec.ofNat 128 (e.held.length % 2 ^ 12 + e.pres.toNat * 2 ^ 32 + e.chead.toNat * 2 ^ 64 + e.owner % 2 ^ 13 * 2 ^ 96)

/-- The 128 bytes of a presented slot: data, SEQ, STREAM, zeros (R330). -/
def slotImage (y : EgrEntry) : BitVec 1024 :=
  BitVec.ofNat 1024 (y.data.toNat + y.seq.toNat * 2 ^ 512 + y.stream.toNat * 2 ^ 544)

/-- The presented entry in slot n of a queue's ring, until the card has consumed it. -/
def presentedIn (e : Egress) (n : Nat) : Option EgrEntry := e.ring[(n + 4096 - e.chead.toNat % 4096) % 4096]?

/-- A byte of the egress agent's window, as a card reads it: the registers at 0x40 × q, the rings from 0x10_0000 on, zeros for every
other read (R330). -/
def windowByte (s : State) (a : Nat) : Byte :=
  let e (q : Nat) : Egress := getEgress s q
  if a < 0x1000 then (if a % 64 < 16 then (egressRegister (e (a / 64))).extractLsb' (8 * (a % 64)) 8 else 0)
  else if 0x100000 ≤ a && a < 0x100000 + 64 * 0x80000 then
    let off := a - 0x100000
    match presentedIn (e (off / 0x80000)) (off % 0x80000 / 128) with
    | some y => (slotImage y).extractLsb' (8 * (off % 128)) 8
    | none => 0
  else 0

/-- CHEAD (R330): consumed slots are freed; a write below the current value or beyond PRES is ignored. -/
def execEvChead (q : Nat) (val : BitVec 32) (s : State) : Out :=
  let e := getEgress s q
  command "CHEAD" s (q < 64)
    (if val - e.chead ≤ e.pres - e.chead then setEgress s { e with chead := val, ring := e.ring.drop (val - e.chead).toNat } else s)

end Sys2Proof.Machine
end

