-- ==== Sys2Proof/Machine/Quadtree.lean ====
section
/-! DEFINITION. Quadtree jobs: node records and views (09 R213 to R219), the result tree and the leaf algebra (R220 to R224),
allocation, commit, suspension and faults (R225 to R231, R234, R235), and the instructions of the quadtree major. -/
namespace Sys2Proof.Machine

/-! ### Reading operands -/

/-- Why the engine cannot go on at a node or an element. -/
inductive QErr where
  /-- QTREE at a node (R215) -/
  | qtree (addr : Word)
  /-- unreadable: ACCESS (R215) -/
  | access (va : Word)
  /-- poisoned data, and its physical address (R342) -/
  | poison (va : Word) (pa : Nat)
  /-- a translation that is not cached (R269) -/
  | miss (va : Word) (kind : AccessKind)
  /-- a block that the engine has still to fetch (R252) -/
  | unread (va : Word)
  /-- a path that is no node of the result tree -/
  | path
  deriving DecidableEq, Repr

/-- The 64-byte block that holds an address, read at its home at once: for the instructions and the re-start that read a card or capture
roots and footprints (R218, R231). -/
def qRead (s : State) (j : QJob) (va : Word) : Except QErr (Vec × Desc) :=
  match translate s (clusterOf j.core) j.ctx va .read with
  | .bad => .error (.access va)
  | .miss => .error (.miss va .read)
  | .ok pa key =>
    let r := (performMem s (.readBlock pa) key).2
    if r.poison then .error (.poison va pa) else .ok (r.value, r.desc)

/-- The block as the engine has fetched it from its home; one that it has not is still to be fetched (R252). -/
def qBlock (s : State) (j : QJob) (va : Word) : Except QErr (Vec × Desc) :=
  match findBy (·.1) (va.toNat / 64 * 64) j.cache with
  | some b => .ok b.2
  | none => match translate s (clusterOf j.core) j.ctx va .read with
    | .bad => .error (.access va)
    | .miss => .error (.miss va .read)
    | .ok _ _ => .error (.unread va)

/-- The 32 bytes at an address in a block. -/
def recordIn (b : Vec) (va : Word) : BitVec 256 := BitVec.ofNat 256 (b.toNat / 256 ^ (va.toNat % 64))
/-- The 32-byte record of a root, captured (R218). -/
def qRecord (s : State) (j : QJob) (va : Word) : Except QErr (BitVec 256) := do .ok (recordIn (← qRead s j va).1 va)
/-- The 32-byte record of a node that the engine has fetched. -/
def qNode (s : State) (j : QJob) (va : Word) : Except QErr (BitVec 256) := do .ok (recordIn (← qBlock s j va).1 va)

/-- A byte of an index array. -/
def qByte (s : State) (j : QJob) (va : Word) : Except QErr Nat := do
  let b ← qBlock s j va
  .ok (b.1.toNat / 256 ^ (va.toNat % 64) % 256)

/-! ### Node records and views (R213, R215, R219) -/

/-- An operand as it is viewed at a position: the node's type (0 ZERO, 1 IDENT, 2 DIAG, 3 LOWRANK, 4 DENSE, 7 INTERNAL), the LG
of the view and of the stored leaf, whether it is transposed, whether it is an A operand, the offsets of the view in the
leaf, its place in the operand, and the operand's bounds. -/
structure QView where
  t    : Nat
  lg   : Nat
  slg  : Nat
  tr   : Bool
  isA  : Bool
  r0   : Nat
  c0   : Nat
  row  : Nat
  col  : Nat
  rows : Nat
  cols : Nat
  al   : Nat
  fmt  : Nat
  p1   : Word
  p2   : Word
  rank : Nat
  nm   : Nat
  addr : Word
  deriving DecidableEq, Repr

def recField (r : BitVec 256) (lo n : Nat) : Nat := r.toNat / 2 ^ lo % 2 ^ n

/-- A malformed N:M byte (R213). -/
def nmOk (nm : Nat) : Bool := 2 ≤ nm / 16 && nm / 16 ≤ 5 && 1 ≤ nm % 16 && nm % 16 < 2 ^ (nm / 16)

/-- Whether a record breaks no condition of R215 on its own fields. -/
def recordOk (r : BitVec 256) (root isA : Bool) (nma : Nat) : Bool :=
  let t := recField r 0 8
  let lg := recField r 16 8
  let sparse := recField r 25 1 = 1
  let p1 := recField r 64 64
  let p2 := recField r 128 64
  let rank := recField r 224 16
  let nm := recField r 240 8
  let rows := recField r 32 16
  let cols := recField r 48 16
  (t ≤ 4 || t = 7) && recField r 248 8 = 0 && recField r 26 6 = 0
    && 1 ≤ lg && lg ≤ 16 && (t != 4 || lg ≤ 9) && (t != 7 || 2 ≤ lg)
    && (if root then rows ≤ 2 ^ lg && cols ≤ 2 ^ lg else rows = 0 && cols = 0)
    && (!(t = 2 || t = 3 || t = 4) || (1 ≤ recField r 8 8 && recField r 8 8 ≤ 5))
    && (if t = 3 then 1 ≤ rank && rank ≤ 64 else rank = 0)
    && (if sparse then t = 4 && isA && nmOk nm && nm = nma && 2 ^ (nm / 16) ≤ 2 ^ lg else nm = 0)
    && (2 ≤ t || p1 = 0) && (t = 3 || (t = 4 && sparse) || p2 = 0)
    && (if t = 7 then p1 % 128 = 0 else p1 % 64 = 0 && (t != 3 || p2 % 64 = 0) && (t != 4 || p2 % 64 = 0))

/-- A record as a view at a place of its operand. -/
def viewOf (r : BitVec 256) (addr : Word) (root isA tr : Bool) (nma row col rows cols : Nat) : Except QErr QView :=
  if !recordOk r root isA nma then .error (.qtree addr)
  else
    let lg := recField r 16 8
    let bound (n : Nat) := if n = 0 then 2 ^ lg else n
    let rb := bound (recField r 32 16)
    let cb := bound (recField r 48 16)
    .ok { t := recField r 0 8, lg := lg, slg := lg, tr := tr, isA := isA, r0 := 0, c0 := 0, row := row, col := col,
          rows := if root then (if tr then cb else rb) else rows, cols := if root then (if tr then rb else cb) else cols,
          al := recField r 192 32, fmt := recField r 8 8, p1 := BitVec.ofNat 64 (recField r 64 64),
          p2 := BitVec.ofNat 64 (recField r 128 64), rank := recField r 224 16, nm := recField r 240 8, addr := addr }

/-- A view at a quadrant (R219). -/
def QView.quadrant (s : State) (j : QJob) (v : QView) (qr qc : Nat) : Except QErr QView := do
  let h := 2 ^ (v.lg - 1)
  if v.t = 7 then
    let a := v.p1 + BitVec.ofNat 64 (32 * (if v.tr then 2 * qc + qr else 2 * qr + qc))
    let r ← qNode s j a
    let c ← viewOf r a false v.isA v.tr j.card.nma (v.row + qr * h) (v.col + qc * h) v.rows v.cols
    if c.lg + 1 = v.lg then .ok c else .error (.qtree a)
  else
    .ok { v with t := if (v.t = 1 || v.t = 2) && qr != qc then 0 else v.t, lg := v.lg - 1, r0 := v.r0 + qr * h,
                 c0 := v.c0 + qc * h, row := v.row + qr * h, col := v.col + qc * h }

/-! ### Leaf data (R214): every element is taken to FP32 (R91) -/

/-- Bytes of a row of n elements of a format. -/
def rowPitch (fmt n : Nat) : Nat := (n * fmtBits fmt + 511) / 512 * 64

/-- Element k of a row of n elements at a base address. -/
def qElem (s : State) (j : QJob) (fmt : Nat) (base : Word) (row k n : Nat) : Except QErr Nat := do
  let per := 512 / fmtBits fmt
  let b ← qBlock s j (base + BitVec.ofNat 64 (row * rowPitch fmt n + k / per * 64))
  .ok (fencode fmtFP32 RNE (elementValue fmt b.2 (element b.1 fmt (k % per)))).1

/-- The place of a column in an N:M group among its index bytes; the bytes must ascend and stay below M (R214, R215). -/
def nmPlace (idx : List Nat) (m col : Nat) : Option (Option Nat) :=
  if idx.all (· < m) && (idx.zip idx.tail).all (fun p => p.1 < p.2) then some (idx.findIdx? (· == col)) else none

/-- Element (a, c) of a stored DENSE leaf. -/
def denseElem (s : State) (j : QJob) (v : QView) (a c : Nat) : Except QErr Nat := do
  if v.nm = 0 then qElem s j v.fmt v.p1 a c (2 ^ v.slg)
  else
    let n := v.nm % 16
    let m := 2 ^ (v.nm / 16)
    let w := 2 ^ v.slg / m * n
    let idx ← (List.range n).mapM fun k => qByte s j (v.p2 + BitVec.ofNat 64 (a * w + c / m * n + k))
    match nmPlace idx m (c % m) with
    | none => .error (.qtree v.addr)
    | some none => .ok 0
    | some (some k) => qElem s j v.fmt v.p1 a (c / m * n + k) w

def QView.dim (v : QView) : Nat := 2 ^ v.lg

def qDiag (s : State) (j : QJob) (v : QView) : Except QErr (List Nat) :=
  (List.range v.dim).mapM fun i => qElem s j v.fmt v.p1 0 (v.r0 + i) (2 ^ v.slg)

def qRows (s : State) (j : QJob) (v : QView) (base : Word) (off : Nat) : Except QErr (List (List Nat)) :=
  (List.range v.dim).mapM fun i => (List.range v.rank).mapM fun t => qElem s j v.fmt base (off + i) t v.rank

/-- U and V; a transposed view exchanges them (R219). -/
def qLow (s : State) (j : QJob) (v : QView) : Except QErr (List (List Nat) × List (List Nat)) := do
  let u ← qRows s j v (if v.tr then v.p2 else v.p1) v.r0
  let w ← qRows s j v (if v.tr then v.p1 else v.p2) v.c0
  .ok (u, w)

/-- The elements of a DENSE view; outside the root's bounds they read as FILL (R219). -/
def qDense (s : State) (j : QJob) (v : QView) : Except QErr (List (List Nat)) :=
  (List.range v.dim).mapM fun i => (List.range v.dim).mapM fun k =>
    if v.rows ≤ v.row + i || v.cols ≤ v.col + k then .ok j.card.fill.toNat
    else if v.tr then denseElem s j v (v.c0 + k) (v.r0 + i) else denseElem s j v (v.r0 + i) (v.c0 + k)

/-! ### The leaf algebra (R221 to R223) -/

/-- An entry of a contribution list: an addend or sum term, or a product with its card scalar. -/
inductive Contrib where
  | term (x : QView)
  | prod (ac : Nat) (a b : QView)
  deriving DecidableEq, Repr

/-- A contribution's value. prod holds the factors of a DENSE×DENSE product. -/
inductive QVal where
  | zero
  | ident (al : Nat)
  | diag (d : List Nat)
  | low (u v : List (List Nat))
  | dense (x : List (List Nat))
  | prod (a b : List (List Nat))
  deriving DecidableEq, Repr

def scaleRow (g : Nat) (r : List Nat) : List Nat := r.map (rmul g)
def scaleMat (g : Nat) (m : List (List Nat)) : List (List Nat) := m.map (scaleRow g)
/-- Σ of R221, in ascending index from +0. -/
def qDot (x y : List Nat) : Nat := (x.zip y).foldl (fun acc p => rfma acc p.1 p.2) 0
def column (m : List (List Nat)) (k : Nat) : List Nat := m.map fun r => r.getD k 0
def columns (m : List (List Nat)) (n : Nat) : List (List Nat) := (List.range n).map (column m)

/-- An addend or sum term with its α folded in (R221). -/
def termValue (s : State) (j : QJob) (v : QView) : Except QErr QVal := do
  match v.t with
  | 0 => .ok .zero
  | 1 => .ok (.ident v.al)
  | 2 => do .ok (.diag (scaleRow v.al (← qDiag s j v)))
  | 3 => do
    let (u, w) ← qLow s j v
    .ok (.low (scaleMat v.al u) w)
  | _ => do .ok (.dense (scaleMat v.al (← qDense s j v)))

/-- The product of two LOWRANK values (R221). -/
def lowLow (g : Nat) (ra rb : Nat) (u1 v1 u2 v2 : List (List Nat)) : QVal :=
  let w := (columns v1 ra).map fun a => (columns u2 rb).map fun b => qDot a b
  if ra ≤ rb then .low (scaleMat g u1) (v2.map fun r => w.map fun ws => qDot r ws)
  else .low ((scaleMat g u1).map fun r => (columns w rb).map fun wc => qDot r wc) v2

/-- A product of leaves (R221). -/
def prodValue (s : State) (j : QJob) (ac : Nat) (a b : QView) : Except QErr QVal := do
  let g := rmul (rmul ac a.al) b.al
  match a.t, b.t with
  | 1, 1 => .ok (.ident g)
  | 1, 2 => do .ok (.diag (scaleRow g (← qDiag s j b)))
  | 2, 1 => do .ok (.diag (scaleRow g (← qDiag s j a)))
  | 2, 2 => do
    let d ← qDiag s j a
    let f ← qDiag s j b
    .ok (.diag (((scaleRow g d).zip f).map fun p => rmul p.1 p.2))
  | 1, 3 => do
    let (u, v) ← qLow s j b
    .ok (.low (scaleMat g u) v)
  | 3, 1 => do
    let (u, v) ← qLow s j a
    .ok (.low (scaleMat g u) v)
  | 2, 3 => do
    let d ← qDiag s j a
    let (u, v) ← qLow s j b
    .ok (.low (((scaleRow g d).zip u).map fun p => scaleRow p.1 p.2) v)
  | 3, 2 => do
    let (u, v) ← qLow s j a
    let d ← qDiag s j b
    .ok (.low (scaleMat g u) ((d.zip v).map fun p => scaleRow p.1 p.2))
  | 1, 4 => do .ok (.dense (scaleMat g (← qDense s j b)))
  | 4, 1 => do .ok (.dense (scaleMat g (← qDense s j a)))
  | 2, 4 => do
    let d ← qDiag s j a
    let x ← qDense s j b
    .ok (.dense (((scaleRow g d).zip x).map fun p => scaleRow p.1 p.2))
  | 4, 2 => do
    let x ← qDense s j a
    let d ← qDiag s j b
    .ok (.dense ((scaleMat g x).map fun r => (r.zip d).map fun p => rmul p.1 p.2))
  | 3, 3 => do
    let (u1, v1) ← qLow s j a
    let (u2, v2) ← qLow s j b
    .ok (lowLow g a.rank b.rank u1 v1 u2 v2)
  | 3, 4 => do
    let (u, v) ← qLow s j a
    let x ← qDense s j b
    .ok (.low (scaleMat g u) ((columns x b.dim).map fun c => (columns v a.rank).map fun w => qDot c w))
  | 4, 3 => do
    let x ← qDense s j a
    let (u, v) ← qLow s j b
    .ok (.low ((scaleMat g x).map fun r => (columns u b.rank).map fun w => qDot r w) v)
  | 4, 4 => do .ok (.prod (scaleMat g (← qDense s j a)) (← qDense s j b))
  | _, _ => .ok .zero

def contribValue (s : State) (j : QJob) : Contrib → Except QErr QVal
  | .term x => termValue s j x
  | .prod ac a b => prodValue s j ac a b

/-- The type and rank of a contribution before any value is computed. -/
def contribType : Contrib → Nat × Nat
  | .term x => (x.t, if x.t = 3 then x.rank else 0)
  | .prod _ a b =>
    if a.t = 0 || b.t = 0 then (0, 0)
    else if a.t = 1 && b.t = 1 then (1, 0)
    else if a.t ≤ 2 && b.t ≤ 2 then (2, 0)
    else if a.t = 3 && b.t = 3 then (3, min a.rank b.rank)
    else if a.t = 3 then (3, a.rank)
    else if b.t = 3 then (3, b.rank)
    else (4, 0)

/-- R222 on types: a rank above MAXRANK becomes DENSE. -/
def foldType (maxrank : Nat) (r p : Nat × Nat) : Nat × Nat :=
  let x :=
    if p.1 = 0 then r
    else if r.1 = 0 then p
    else if r.1 = 1 && p.1 = 1 then (1, 0)
    else if r.1 ≤ 2 && p.1 ≤ 2 then (2, 0)
    else if r.1 = 3 && p.1 = 3 then (3, r.2 + p.2)
    else (4, 0)
  if x.1 = 3 && maxrank < x.2 then (4, 0) else x

def leafType (maxrank : Nat) (cl : List Contrib) : Nat × Nat :=
  (cl.map contribType).foldl (foldType maxrank) (0, 0)

/-- The diagonal of an IDENT or DIAG value of dimension d. -/
def diagOf (d : Nat) : QVal → List Nat
  | .ident al => List.replicate d al
  | .diag x => x
  | _ => List.replicate d 0

/-- R222 on values, where the folded type is not DENSE. -/
def foldValue (d : Nat) (r p : QVal) : QVal :=
  match r, p with
  | .zero, p => p
  | r, .zero => r
  | .ident a, .ident b => .ident (radd a b)
  | .low u v, .low u' v' => .low ((u.zip u').map fun x => x.1 ++ x.2) ((v.zip v').map fun x => x.1 ++ x.2)
  | r, p => .diag (((diagOf d r).zip (diagOf d p)).map fun x => radd x.1 x.2)

/-- The accumulator of R223: FP32, or XF where RFMT is DX8 or DX4. -/
inductive QAcc where
  | fp (b : Nat)
  | xf (a : XF)
  deriving DecidableEq, Repr

/-- A product is added. -/
def QAcc.mac (x y : Nat) : QAcc → QAcc
  | .fp b => .fp (rfma b x y)
  | .xf a => .xf (xfAdd a (xfOfVal (fprod (fp32 x) (fp32 y)).1))
/-- A value is added. -/
def QAcc.add (x : Nat) : QAcc → QAcc
  | .fp b => .fp (radd b x)
  | .xf a => .xf (xfAdd a (xfOfVal (fp32 x)))
def QAcc.value : QAcc → FVal
  | .fp b => fp32 b
  | .xf a => xfVal a

/-- A contribution is added to element (i, k) of a DENSE result (R223). -/
def addContrib (i k : Nat) (acc : QAcc) : QVal → QAcc
  | .zero => acc
  | .ident al => if i = k then acc.add al else acc
  | .diag d => if i = k then acc.add (d.getD i 0) else acc
  | .low u v => ((u.getD i []).zip (v.getD k [])).foldl (fun acc p => acc.mac p.1 p.2) acc
  | .dense x => acc.add ((x.getD i []).getD k 0)
  | .prod a b => ((a.getD i []).zip (column b k)).foldl (fun acc p => acc.mac p.1 p.2) acc

/-- Whether a result format accumulates in XF. -/
def isDx (rfmt : Nat) : Bool := rfmt = 4 || rfmt = 5

def denseValue (rfmt : Nat) (vals : List QVal) (i k : Nat) : FVal :=
  (vals.foldl (addContrib i k) (if isDx rfmt then .xf ⟨0, 0⟩ else .fp 0)).value

/-! ### The result tree (R220) -/

/-- The root list, the LG of the result and its bounds; the checks of R219 on the roots. -/
structure QRoot where
  cl   : List Contrib
  lg   : Nat
  rows : Nat
  cols : Nat

def identView (lg : Nat) : QView :=
  ⟨1, lg, lg, false, false, 0, 0, 0, 0, 2 ^ lg, 2 ^ lg, 0x3F800000, 0, 0, 0, 0, 0, 0⟩

def qRoot (j : QJob) : Except QErr QRoot := do
  let k := j.card
  let a ← viewOf j.recA j.aroot true true k.ta k.nma 0 0 0 0
  let b ← viewOf j.recB j.broot true false k.tb k.nma 0 0 0 0
  let bad := Except.error (QErr.qtree j.aroot)
  if a.lg != b.lg then bad
  else if (if j.mul then a.cols != b.rows else a.rows != b.rows || a.cols != b.cols) then bad
  else
    let al := k.alpha.toNat
    let rest := if j.mul then [Contrib.prod al a b] else [.term a, .prod al (identView a.lg) b]
    if k.cin = 0 then .ok ⟨rest, a.lg, a.rows, b.cols⟩
    else
      let c ← viewOf j.recC k.cin true false false k.nma 0 0 0 0
      if c.lg != a.lg || c.rows != a.rows || c.cols != b.cols then bad
      else .ok ⟨.term c :: rest, a.lg, a.rows, b.cols⟩

/-- A contribution list without the products that have a ZERO member. -/
def pruneZero (cl : List Contrib) : List Contrib :=
  cl.filter fun c => match c with
    | .term _ => true
    | .prod _ a b => a.t != 0 && b.t != 0

def hasInternal (cl : List Contrib) : Bool :=
  cl.any fun c => match c with
    | .term x => x.t == 7
    | .prod _ a b => a.t == 7 || b.t == 7

/-- The contributions of an entry to quadrant (qr, qc): k = 0 before k = 1. -/
def subContrib (s : State) (j : QJob) (qr qc : Nat) : Contrib → Except QErr (List Contrib)
  | .term x => do .ok [.term (← x.quadrant s j qr qc)]
  | .prod ac a b => do
    let a0 ← a.quadrant s j qr 0
    let b0 ← b.quadrant s j 0 qc
    let a1 ← a.quadrant s j qr 1
    let b1 ← b.quadrant s j 1 qc
    .ok [.prod ac a0 b0, .prod ac a1 b1]

/-- The list of quadrant q of a node. -/
def subList (s : State) (j : QJob) (q : Nat) (cl : List Contrib) : Except QErr (List Contrib) := do
  let ls ← cl.mapM (subContrib s j (q / 2) (q % 2))
  .ok ls.flatten

/-- The list at a path from a node; only INTERNAL result nodes have quadrants. -/
def listAt (s : State) (j : QJob) : List Nat → List Contrib → Except QErr (List Contrib)
  | [], cl => .ok (pruneZero cl)
  | q :: qs, cl =>
    let cl := pruneZero cl
    if hasInternal cl && q < 4 then do listAt s j qs (← subList s j q cl) else .error .path

/-- The result rows and columns at which a path begins. -/
def placeOf (lg : Nat) : List Nat → Nat × Nat
  | [] => (0, 0)
  | q :: qs =>
    let p := placeOf (lg - 1) qs
    (q / 2 * 2 ^ (lg - 1) + p.1, q % 2 * 2 ^ (lg - 1) + p.2)

def QJob.groupAt (j : QJob) (p : List Nat) : Option Nat := (j.groups.find? fun g => g.1 == p).map (·.2)
def QJob.leafAt (j : QJob) (p : List Nat) : Option Nat := (j.leaves.find? fun g => g.1 == p).map (·.2)
/-- Whether a node, or a node above it, has committed, or is about to: its record has entered the job's queues. -/
def QJob.taken (j : QJob) (p : List Nat) : Bool := j.done p || j.recording.any fun x => x.1.isPrefixOf p

/-- The address of a result record; none while its parent has no child group. -/
def recordVa (j : QJob) (p : List Nat) : Option Word :=
  match p.getLast? with
  | none => some j.croot
  | some q => (j.groupAt p.dropLast).map fun g => BitVec.ofNat 64 (g + 32 * q)

/-- The first leaf in pre-order that is neither assigned nor committed, or the first node before it that cannot be read. -/
def nextLeaf (s : State) (j : QJob) : Nat → List Nat → List Contrib → Option (List Nat)
  | 0, _, _ => none
  | fuel + 1, p, cl =>
    if j.taken p || (j.leafAt p).isSome || j.assigned.contains p then none
    else
      let cl := pruneZero cl
      if !hasInternal cl then some p
      else
        let find (q : Nat) : Option (List Nat) :=
          match subList s j q cl with
          | .error _ => some (p ++ [q])
          | .ok l => nextLeaf s j fuel (p ++ [q]) l
        match find 0 with
        | some x => some x
        | none => match find 1 with
          | some x => some x
          | none => match find 2 with
            | some x => some x
            | none => find 3

/-! ### Writing (R213, R224) -/

/-- A masked write of the engine into its card, its frames, or a record that a cancelled job leaves, when nothing of the job is on its
way. -/
def qWrite (s : State) (j : QJob) (va : Word) (v : Vec) (mask : BitVec 64) : Except QErr State :=
  match translate s (clusterOf j.core) j.ctx va .write with
  | .bad => .error (.access va)
  | .miss => .error (.miss va .write)
  | .ok pa key => .ok (performMem s (.write pa v mask) key).1

/-- A result record written whole. -/
def qWriteRec (s : State) (j : QJob) (va : Word) (r : Nat) : Except QErr State := qWrite s j va (BitVec.ofNat 512 r) (byteMask 32)

/-- Write k of a job enters its queue to the home of its address (R252). -/
def qSend (s : State) (j : QJob) (k : Nat) (va : Word) (op : Nat → MemOp) : Except QErr State :=
  match translate s (clusterOf j.core) j.ctx va .write with
  | .bad => .error (.access va)
  | .miss => .error (.miss va .write)
  | .ok pa key =>
    .ok (enqueue s (jobNode j.core false) (homeOf pa) (newAccess (op pa).flits j.ctx va (.jwr j.id k 0 (op pa) key)))

/-- A record of the result on its way. -/
def sendRecord (s : State) (j : QJob) (k : Nat) (va : Word) (r : Nat) : Except QErr State :=
  qSend s j k va fun pa => .write pa (BitVec.ofNat 512 r) (byteMask 32)

/-- The record of a result node (R213, R224). -/
def resultRecord (j : QJob) (t lg rows cols al rank : Nat) (commit : Bool) (p1 p2 : Nat) : Nat :=
  t + j.card.rfmt * 2 ^ 8 + lg * 2 ^ 16 + (if commit then 2 ^ 24 else 0) + rows * 2 ^ 32 + cols * 2 ^ 48 + p1 * 2 ^ 64
    + p2 * 2 ^ 128 + al * 2 ^ 192 + rank * 2 ^ 224

/-- The bounds that a record carries: those of the root on the root record, 2^LG written as 0. -/
def recordBounds (r : QRoot) (p : List Nat) : Nat × Nat :=
  if p.isEmpty then (r.rows % 2 ^ r.lg, r.cols % 2 ^ r.lg) else (0, 0)

/-- One block of a result leaf as it is stored: an address, its contents with the bytes to be written, its descriptor. -/
structure QOut where
  va   : Word
  val  : Vec
  mask : BitVec 64
  desc : Desc

/-- The block of row values from position k on; a value none is outside the bounds. old is the block's contents, for the other
half of a byte that two DX4 elements share. -/
def outBlock (rfmt gap : Nat) (xs : List (Option FVal)) (old : Vec) : Vec × BitVec 64 × Desc :=
  let n := 512 / fmtBits rfmt
  let ys := (List.range n).map fun k => match xs.getD k (some (.fin false 0 0)) with
    | some v => v
    | none => .fin false 0 0
  let b := storeBlock rfmt gap ys
  let skip (k : Nat) : Bool := match xs.getD k (some (.fin false 0 0)) with | some _ => false | none => true
  let bits := fmtBits rfmt
  let v := (List.range n).map fun k => if skip k then element old rfmt k else element b.1 rfmt k
  let mask := ((List.range 64).map fun y =>
    if (List.range n).any (fun k => !skip k && (k * bits / 8 == y || (k * bits ≤ 8 * y && 8 * y < (k + 1) * bits)))
    then 2 ^ y else 0).sum
  (BitVec.ofNat 512 (packElems bits v), BitVec.ofNat 64 mask, b.2)

/-- The stored blocks of a row at an address. A block is not written when every position of it is an
element outside the bounds; the padding of the last block is +0. -/
def outRow (s : State) (j : QJob) (va : Word) (xs : List (Option FVal)) : Except QErr (List QOut) :=
  let n := 512 / fmtBits j.card.rfmt
  (List.range ((xs.length + n - 1) / n)).filterMapM fun b => do
    let part := (xs.drop (b * n)).take n
    let a := va + BitVec.ofNat 64 (64 * b)
    if part.length = n && part.all (·.isNone) then .ok none
    else
      let old ← if part.any (·.isNone) && fmtBits j.card.rfmt < 8 then (do .ok (← qBlock s j a).1) else .ok 0
      let o := outBlock j.card.rfmt j.card.gap part old
      .ok (some ⟨a, o.1, o.2.1, o.2.2⟩)

/-- R224 DEMOTE: whether every element of a row within bounds is stored as a zero. -/
def rowStoredZero (rfmt gap : Nat) (xs : List (Option FVal)) : Bool :=
  let n := 512 / fmtBits rfmt
  (List.range ((xs.length + n - 1) / n)).all fun b =>
    let part := (xs.drop (b * n)).take n
    let o := outBlock rfmt gap part 0
    (List.range part.length).all fun k =>
      (part.getD k none).isNone || (elementValue rfmt o.2.2 (element o.1 rfmt k)).isZero

/-- A result leaf: its type, rank, α, and the rows of its data. -/
structure QLeaf where
  t    : Nat
  rank : Nat
  al   : Nat
  rows : List (List (Option FVal))

/-- Bytes of a leaf's data (R225). -/
def leafBytes (rfmt t rank d : Nat) : Nat :=
  if t = 2 then rowPitch rfmt d else if t = 3 then 2 * d * rowPitch rfmt rank else if t = 4 then d * rowPitch rfmt d else 0

/-- The values of a result leaf at a place of the result (R222 to R224). -/
def leafResult (s : State) (j : QJob) (r : QRoot) (lg : Nat) (place : Nat × Nat) (cl : List Contrib) : Except QErr QLeaf := do
  let d := 2 ^ lg
  let one := 0x3F800000
  let (t, rank) := leafType j.card.maxrank cl
  if t = 0 then .ok ⟨0, 0, one, []⟩
  else
    let vals ← cl.mapM (contribValue s j)
    if t = 4 then
      let rows := (List.range d).map fun i => (List.range d).map fun k =>
        if r.rows ≤ place.1 + i || r.cols ≤ place.2 + k then none else some (denseValue j.card.rfmt vals i k)
      if j.card.demote && rows.all (rowStoredZero j.card.rfmt j.card.gap) then .ok ⟨0, 0, one, []⟩
      else .ok ⟨4, 0, one, rows⟩
    else match vals.foldl (foldValue d) .zero with
      | .ident al => .ok ⟨1, 0, al, []⟩
      | .diag x => .ok ⟨2, 0, one, [x.map fun b => some (fp32 b)]⟩
      | .low u v => .ok ⟨3, rank, one, (u ++ v).map fun row => row.map fun b => some (fp32 b)⟩
      | _ => .ok ⟨0, 0, one, []⟩

/-- The blocks of a leaf's data at its allocation. -/
def leafBlocks (s : State) (j : QJob) (lg : Nat) (l : QLeaf) (base : Nat) : Except QErr (List QOut) := do
  let pitch := rowPitch j.card.rfmt (if l.t = 3 then l.rank else 2 ^ lg)
  let bs ← ((List.range l.rows.length).zip l.rows).mapM fun p =>
    outRow s j (BitVec.ofNat 64 (base + pitch * p.1)) p.2
  .ok bs.flatten

/-! ### Jobs -/

/-- The job of a card in a cluster. -/
def qjobAt (s : State) (cluster : Nat) (va : Word) (ctx : Nat) : Option QJob :=
  s.qjobs.find? fun j => clusterOf j.core == cluster && j.addr == va && j.ctx == ctx

/-- Bytes of the card written by the engine. -/
def qCard (s : State) (j : QJob) (off v n : Nat) : Except QErr State :=
  qWrite s j (j.addr + BitVec.ofNat 64 off) (BitVec.ofNat 512 v) (byteMask n)

/-- Whether a slot runs a task of a leaf, and whether the task waits in an MSWAP. -/
def Slot.onLeaf (sl : Slot) (id : Nat) (p : List Nat) : Bool :=
  match sl.status with
  | .leaf j q => j == id && q == p
  | .leafSwap j q _ _ _ _ _ => j == id && q == p
  | _ => false
def Slot.swaps (sl : Slot) : Bool := match sl.status with | .leafSwap _ _ _ _ _ _ _ => true | _ => false

/-- The leaf tasks of a leaf: whether any still waits for a slot, whether one is in a slot, whether one waits in an MSWAP. -/
def leafWaits (s : State) (j : QJob) (p : List Nat) : Bool := s.cores.any fun k => k.leaves.contains (j.id, p)
def leafRuns (s : State) (j : QJob) (p : List Nat) : Bool := s.cores.any fun k => (slotsOf k).any fun sl => sl.onLeaf j.id p
def leafSwaps (s : State) (j : QJob) (p : List Nat) : Bool :=
  s.cores.any fun k => (slotsOf k).any fun sl => sl.swaps && sl.onLeaf j.id p

/-- Whether path p comes before path q in pre-order. -/
def pathBefore : List Nat → List Nat → Bool
  | [], _ :: _ => true
  | p :: ps, q :: qs => if p = q then pathBefore ps qs else decide (p < q)
  | _, _ => false

/-- Whether a read of the block at an address is on its way for a job. -/
def blockSent (s : State) (j va : Nat) : Bool :=
  s.pairs.any fun p => (p.out ++ p.store.map (·.pkt)).any fun x => match x.body with
    | .jrd j' k _ _ => j' == j && k / 64 == va / 64
    | .jrdr j' k _ => j' == j && k / 64 == va / 64
    | _ => false
/-- A read of the block at an address enters its queue to the block's home (R252); none where it is on its way or fetched. -/
def prefetch (s : State) (q : QJob) (va : Nat) : Option State :=
  if blockSent s q.id va || (findBy (·.1) (va / 64 * 64) q.cache).isSome then none
  else match translate s (clusterOf q.core) q.ctx (BitVec.ofNat 64 va) .read with
    | .ok pa key => some (enqueue s (jobNode q.core false) (homeOf pa)
        (newAccess 0 q.ctx (BitVec.ofNat 64 va) (.jrd q.id va (.readBlock (pa / 64 * 64)) key)))
    | _ => none
/-- The engine fetches a block that it needs; it waits where the block is on its way. -/
def fetchBlock (s : State) (q : QJob) (va : Word) : State := (prefetch s q va.toNat).getD s

/-- A leaf whose page the operating system must give goes back to the engine with its data allocation, and with ORD = 1, where no later
leaf can commit before it, so do the later ones (R226, R229 step 2). An allocation below one that stays is lost (log 41). -/
def unassign (s : State) (j : QJob) (p : List Nat) : State × QJob :=
  let drop (x : List Nat) : Bool := x == p || (j.card.ord && pathBefore p x)
  let ls := j.leaves.filter fun l => drop l.1
  let kept := j.leaves.filter fun l => !drop l.1
  let s := ls.foldl (fun s l => dropTasks s j (some l.1)) s
  let low := ls.foldl (fun acc x => if x.2 = 0 then acc else min acc x.2) j.dpnext
  (s, { j with leaves := kept, staged := j.staged.filter (fun x => !drop x.1),
               dpnext := if kept.any fun l => low ≤ l.2 then j.dpnext else low })

/-- Whether the page of an address is among those of a list (log 37). -/
def pageIn (l : List Word) (va : Word) : Bool := l.any fun a => walkGranule a == walkGranule va

/-- R229, R269: the walker asks the operating system for a page: the job is to suspend with SCAUSE 3, if nothing suspends it yet. A leaf
that needs the page goes back; what the job writes as it ends or suspends waits for the answer. A page that was asked for before the
job resumed ends the launch (R231). -/
def qPage (s : State) (j : QJob) (va : Word) (kind : AccessKind) (need : QNeed) : State :=
  if pageIn j.asked va then qFault s j causeACCESS 4 va
  else
    let j := { j with wait := none, suspend := if j.suspend = 0 && j.state = 1 then 3 else j.suspend, blocked := j.blocked ++ [va] }
    match need with
    | .tree => setQJob s j
    | .leaf p => let (s, j) := unassign s j p; setQJob s j
    | .ending => setQJob s { j with wait := some (va, kind, need) }

/-- Whether the page of an address has been asked for, and not been answered (R268). -/
def pageAsked (s : State) (cluster asid : Nat) (va : Word) : Bool :=
  (getDie s (cluster / 32 % 4)).walks.any fun w => w.asid == asid && w.granule == walkGranule va && w.paged

/-- R269: the job waits for the walk it asks for, or for the page that has been asked for. -/
def qWait (s : State) (j : QJob) (va : Word) (kind : AccessKind) (need : QNeed) : State :=
  let s := requestWalk s (clusterOf j.core) j.ctx va kind
  if pageAsked s (clusterOf j.core) j.ctx va then qPage s j va kind need
  else setQJob s { j with wait := some (va, kind, need) }

/-- What becomes of a job whose engine meets an error: it waits for a walk, or the launch ends (R235, R269); poisoned data is
recorded (R342). -/
def qError (s : State) (j : QJob) (need : QNeed) (e : QErr) : State :=
  match e with
  | .qtree a => qFault s j causeQTREE 4 a
  | .access va => qFault s j causeACCESS 4 va
  | .poison va pa => qFault (homeMusic s (homeOf pa) 3 pa) j causeACCESS 6 va
  | .miss va k => qWait s j va k need
  | .unread va => fetchBlock s j va
  | .path => s

/-! ### Allocation (R225, R226) -/

/-- A bump allocation: the address and the pool's new NEXT. -/
def bump (next limit size align : Nat) : Option (Nat × Nat) :=
  let a := (next + align - 1) / align * align
  if a + size ≤ limit then some (a, a + size) else none

/-- An allocation fails: the job is to suspend with its cause; that of a node or leaf whose allocation failed before ends the launch with
POOL (R229, R231). -/
def poolFails (s : State) (j : QJob) (cause : Nat) (p : List Nat) : State :=
  if j.failed.contains (cause, p) then qFault s j causePOOL 4 j.addr
  else setQJob s { j with suspend := cause, failed := j.failed ++ [(cause, p)] }
/-- It succeeds. -/
def QJob.allocated (j : QJob) (cause : Nat) (p : List Nat) : QJob := { j with failed := j.failed.filter (· != (cause, p)) }

/-- The records of a new child group, POISON with COMMIT = 0; a record below the root becomes INTERNAL with COMMIT = 0
(R225, R230). -/
def writeGroup (s : State) (j : QJob) (p : List Nat) (g lg : Nat) : Except QErr State := do
  let s ← (List.range 4).foldlM (fun s q =>
    let va := BitVec.ofNat 64 (g + 32 * q)
    sendRecord s j (groupKey va) va poisonRecord) s
  match p, recordVa j p with
  | _ :: _, some va => sendRecord s j (groupKey va) va (resultRecord j 7 lg 0 0 0x3F800000 0 false g 0)
  | _, _ => .ok s

/-- The child groups along a path are allocated from the root down; the job as it stands, or how it stopped. -/
def allocGroups (s : State) (id : Nat) (lg : Nat) : List Nat → List Nat → Option State
  | _, [] => some s
  | p, q :: qs =>
    match getQJob s id with
    | none => none
    | some j =>
      if j.suspend != 0 || j.wait.isSome then some s
      else if (j.groupAt p).isSome then allocGroups s id lg (p ++ [q]) qs
      else match bump j.npnext j.nplimit 128 128 with
        | none => some (poolFails s j 1 p)
        | some (g, n) => match writeGroup s j p g (lg - p.length) with
          | .error e => some (qError s j .tree e)
          | .ok s => allocGroups (setQJob s { j.allocated 1 p with npnext := n, groups := j.groups ++ [(p, g)] }) id lg (p ++ [q]) qs

/-- The leaf tasks of a leaf queue on a core. -/
def queueLeaf (s : State) (id : Nat) (p : List Nat) (core : Nat) : State :=
  modCore s core fun k => { k with leaves := k.leaves ++ [(id, p)] }

/-- Whether cores of a cluster are in one transposition gang (R211, R228). -/
def sameGang (a b : Nat) : Bool := a / 4 % 2 == b / 4 % 2

/-- The cores that hold tasks of a leaf. -/
def leafCores (s : State) (id : Nat) (p : List Nat) : List Nat :=
  (s.cores.filter fun k => k.leaves.contains (id, p) || (slotsOf k).any fun sl => sl.onLeaf id p).map (·.id)

/-- The data of an assigned leaf is allocated as its first task takes a slot (R225, R228; log 40). -/
def allocLeaf (s : State) (j : QJob) (r : QRoot) (p : List Nat) : State :=
  match listAt s j p r.cl with
  | .error e => qError s j .tree e
  | .ok cl =>
    let (t, rank) := leafType j.card.maxrank cl
    let size := leafBytes j.card.rfmt t rank (2 ^ (r.lg - p.length))
    let take (j : QJob) (a : Nat) : QJob := { j with leaves := j.leaves ++ [(p, a)], assigned := j.assigned.filter (· != p) }
    if size = 0 then setQJob s (take j 0)
    else match bump j.dpnext j.dplimit size 64 with
      | none => poolFails s j 2 p
      | some (a, n) => setQJob s (take { j.allocated 2 p with dpnext := n } a)

/-- Whether a job may go on with its tree: its context runs, and nothing suspends or holds it. -/
def QJob.active (s : State) (j : QJob) : Bool :=
  ctxRuns s j.ctx && j.started && j.state = 1 && j.suspend = 0 && !j.cancelled && j.wait.isNone && !j.rewalk

/-- The engine assigns a leaf to a core of its cluster (R225, R226, R228); none where it may not. With ORD = 1 the leaves are assigned
in pre-order, each after the one before it has its data. A leaf of LG 7 to 9 may have tasks on further cores of its gang. -/
def assignLeaf (s : State) (id : Nat) (p : List Nat) (core : Nat) : Option State :=
  match getQJob s id with
  | none => none
  | some j =>
    if !(j.active s && clusterOf core = clusterOf j.core) then none
    else match qRoot j with
      | .error e => some (qError s j .tree e)
      | .ok r =>
        if (j.leafAt p).isSome then
          let cs := leafCores s id p
          let lg := r.lg - p.length
          if 7 ≤ lg && lg ≤ 9 && !cs.contains core && cs.all (sameGang core) && cs.length < 16 then
            some (queueLeaf s id p core)
          else none
        else if j.taken p || j.assigned.contains p then none
        else match listAt s j p r.cl with
          | .error .path => none
          | .error e => some (qError s j .tree e)
          | .ok cl =>
            if hasInternal cl then none
            else
              if j.card.ord && (!j.assigned.isEmpty || nextLeaf s j (r.lg + 1) [] r.cl != some p) then none
              else match allocGroups s id r.lg [] p with
                | none => none
                | some s => match getQJob s id with
                  | some j =>
                    if j.suspend = 0 && j.wait.isNone then
                      some (queueLeaf (setQJob s { j with assigned := j.assigned ++ [p] }) id p core)
                    else some s
                  | none => some s

/-! ### Commit (R227) -/

/-- The contributions of a leaf, read again by the engine. -/
def leafList (j : QJob) (s : State) (p : List Nat) : Except QErr (List Contrib) := do
  let r ← qRoot j
  listAt s j p r.cl

/-- A leaf as its tasks compute it, and the blocks of its data at its allocation. -/
def leafOut (s : State) (j : QJob) (p : List Nat) (base : Nat) : Except QErr (QLeaf × List QOut) := do
  let r ← qRoot j
  let cl ← listAt s j p r.cl
  let l ← leafResult s j r (r.lg - p.length) (placeOf r.lg p) cl
  .ok (l, ← leafBlocks s j (r.lg - p.length) l base)

/-- The core and slot of a leaf task. -/
def leafSlot (s : State) (j : QJob) (p : List Nat) : Nat × Nat :=
  ((s.cores.flatMap fun k => (List.finRange 4).filterMap fun i =>
    if k.slots[i].onLeaf j.id p then some (k.id, i.val) else none).head?).getD (j.core, 0)

/-- A fault that a leaf task meets (R335 origin 1, or 6 for poisoned data): its core and slot, and the job. -/
def leafFault (s : State) (j : QJob) (p : List Nat) (cause origin : Nat) (tval : Word) : State :=
  let at_ := leafSlot s j p
  report (killQJob s j) { agentFault j.launch cause origin tval at_.1 with slot := at_.2, job := j.addr }

/-- What a leaf meets on its way to its commit. -/
def leafError (s : State) (j : QJob) (p : List Nat) (e : QErr) : State :=
  match e with
  | .miss va k => qWait s j va k (.leaf p)
  | .qtree va => leafFault s j p causeQTREE 1 va
  | .access va => leafFault s j p causeACCESS 1 va
  | .poison va pa => leafFault (homeMusic s (homeOf pa) 3 pa) j p causeACCESS 6 va
  | .unread va => fetchBlock s j va
  | .path => s

/-- The record of a leaf, whose data stands at base. -/
def leafRecord (j : QJob) (r : QRoot) (p : List Nat) (base : Nat) (l : QLeaf) : Nat :=
  let lg := r.lg - p.length
  let b := recordBounds r p
  resultRecord j l.t lg b.1 b.2 l.al l.rank true (if l.t = 0 || l.t = 1 then 0 else base)
    (if l.t = 3 then base + 2 ^ lg * rowPitch j.card.rfmt l.rank else 0)

/-- A leaf whose data stands: its record enters the job's queue, and its tasks end. -/
def commitLeaf (s : State) (j : QJob) (p : List Nat) (base : Nat) (l : QLeaf) : Except QErr State := do
  let r ← qRoot j
  match recordVa j p with
  | none => .error .path
  | some va =>
    let s ← sendRecord s j (recordKey va) va (leafRecord j r p base l)
    .ok (setQJob (dropTasks s j (some p))
      { j with recording := j.recording ++ [(p, recordKey va)], leaves := j.leaves.filter (fun x => x.1 != p),
               staged := j.staged.filter (fun x => x.1 != p) })

/-- LEAF_COMMIT (R227): a leaf whose tasks run commits once its data has performed; one of a cancelled job only ends (R234). With ORD = 1
the leaves commit one after another (R226). -/
def execEvLeafCommit (j : Nat) (path : List Nat) (s : State) : Out :=
  match getQJob s j with
  | none => notPermitted "LEAF_COMMIT"
  | some q => match q.leafAt path with
    | none => notPermitted "LEAF_COMMIT"
    | some base =>
      if leafWaits s q path || !leafRuns s q path || q.state != 1 || q.wait.isSome then notPermitted "LEAF_COMMIT"
      else if q.cancelled then
        guarded "LEAF_COMMIT" s true
          (setQJob (dropTasks s q (some path)) { q with leaves := q.leaves.filter fun x => x.1 != path })
      else if leafSwaps s q path || (q.card.ord && (q.leaves.head? != some (path, base) || !q.recording.isEmpty)) then
        notPermitted "LEAF_COMMIT"
      else match leafList q s path with
        | .error (.unread _) => notPermitted "LEAF_COMMIT"
        | .error e => guarded "LEAF_COMMIT" s true (qError s q (.leaf path) e)
        | .ok _ => match leafOut s q path base with
          | .error (.unread _) => notPermitted "LEAF_COMMIT"
          | .error e => guarded "LEAF_COMMIT" s true (leafError s q path e)
          | .ok (l, bs) =>
            let stands (b : QOut) : Bool := q.staged.contains (path, dataKey b.va) && !elementSent s j (dataKey b.va) true
            guarded "LEAF_COMMIT" s (bs.all stands) <|
              match commitLeaf s q path base l with
              | .ok t => t
              | .error e => leafError s q path e

/-- Whether the engine goes on with what a job has begun: it reads and writes ahead, and commits. -/
def QJob.moves (s : State) (q : QJob) : Bool :=
  q.started && q.state = 1 && !q.cancelled && q.wait.isNone && !q.rewalk && !ctxHeld s q.ctx

/-- Whether an INTERNAL node may commit: its four children have (R227), and the page of its record is not one that the job suspends
for (R269). -/
def QJob.ready (j : QJob) (p : List Nat) : Bool :=
  (j.groupAt p).isSome && !j.taken p && ((List.range 4).all fun q => j.committed.contains (p ++ [q]))
    && !(recordVa j p).any (pageIn j.blocked)

/-- The record of an INTERNAL node whose children have committed enters the job's queue. -/
def sendNode (s : State) (j : QJob) (p : List Nat) : Except QErr State := do
  let r ← qRoot j
  match recordVa j p, j.groupAt p with
  | some va, some g =>
    let b := recordBounds r p
    let s ← sendRecord s j (recordKey va) va (resultRecord j 7 (r.lg - p.length) b.1 b.2 0x3F800000 0 true g 0)
    .ok (setQJob s { j with recording := j.recording ++ [(p, recordKey va)] })
  | _, _ => .error .path

def commitNode (s : State) (id : Nat) (p : List Nat) : Option State :=
  (getQJob s id).bind fun j =>
    if !(j.moves s && j.ready p) then none
    else some (match sendNode s j p with
      | .ok t => t
      | .error e => qError s j .tree e)

/-! ### A gang's exchange (R211, R228) -/

/-- Whether a transposed DENSE operand stands in a contribution list. -/
def transposes (cl : List Contrib) : Bool :=
  let dense (v : QView) : Bool := v.t == 4 && v.tr
  cl.any fun c => match c with
    | .term x => dense x
    | .prod _ a b => dense a || dense b

/-- A leaf task of a gang that reads a transposed DENSE leaf issues an MSWAP, which its mirror core's first MSWAP of the launch meets
(R211, R228). The range is one of the data pool that no leaf has, in the core's slice (DESIGN CHOICE, log 91). -/
def leafSwap (s : State) (c : Nat) (i : Fin 4) (va : Word) (len : Nat) : Option State :=
  let sl := getSlot s c i
  match sl.status with
  | .leaf job path => (getQJob s job).bind fun q =>
    let reads : Bool := match leafList q s path with | .ok cl => transposes cl | .error _ => false
    let gang := mirrorCore c != c && (leafCores s job path).contains (mirrorCore c)
    let room := q.dpnext ≤ va.toNat && va.toNat + len ≤ q.dplimit
    if q.moves s && reads && gang && room && va.toNat % 64 = 0 && len % 64 = 0 && 64 ≤ len && len ≤ 32768 then
      match slicePieces s c q.ctx va 4 len with
      | .ok ps =>
        some (setSlot { s with nextId := s.nextId + 1 } c i
          { sl with status := .leafSwap job path s.nextId len ps (rangeData s ps) (rangeDescs s ps) })
      | .error _ => none
    else none
  | _ => none

/-! ### Suspension (R229, R230) and the end of a job -/

/-- The frames: the INTERNAL nodes with a child group on the path to the first uncommitted node. -/
def framesOf (j : QJob) : Nat → List Nat → List (List Nat × Nat × Nat)
  | 0, _ => []
  | n + 1, p =>
    match j.groupAt p, (List.range 4).find? fun q => !j.done (p ++ [q]) with
    | some g, some q => (p, g, q) :: framesOf j n (p ++ [q])
    | _, _ => []

/-- Frame f as it is written. -/
def frameBits (j : QJob) (lg : Nat) (last : Bool) (f : List Nat × Nat × Nat) : Nat :=
  let pl := placeOf lg f.1
  (if last then 0 else f.2.2) * 2 ^ 80 + (lg - f.1.length) * 2 ^ 88 + pl.2 * 2 ^ 96 + pl.1 * 2 ^ 112
    + ((recordVa j f.1).getD 0).toNat * 2 ^ 128 + f.2.1 * 2 ^ 192

def writeFrames (s : State) (j : QJob) (lg : Nat) (fs : List (List Nat × Nat × Nat)) : Except QErr State :=
  ((List.range fs.length).zip fs).foldlM (fun s f =>
    qWrite s j (j.card.frame + BitVec.ofNat 64 (32 * f.1)) (BitVec.ofNat 512 (frameBits j lg (f.1 + 1 == fs.length) f.2))
      (byteMask 32)) s

/-- The pool fields of the card. -/
def writePools (s : State) (j : QJob) : Except QErr State := do
  let s ← qCard s j 40 j.nplimit 8
  let s ← qCard s j 48 j.npnext 8
  let s ← qCard s j 64 j.dplimit 8
  qCard s j 72 j.dpnext 8

/-- A suspension writes the pool fields, DEPTH, SCAUSE, STATE and LEAVES (R229, R216). -/
def writeSuspended (s : State) (j : QJob) : Except QErr State := do
  let s ← writePools s j
  qCard s j 116 (j.state + j.scause * 2 ^ 8 + j.depth * 2 ^ 16 + j.nleaves * 2 ^ 32) 8

def QJob.signal (j : QJob) : Signal :=
  if j.card.notify then .notify j.card.nep (j.card.nch % 16) (j.card.nch / 16) else .tag j.card.tag

/-- R227: the signal of a quadtree job, with the notify word. -/
def qSignal (s : State) (j : QJob) : State :=
  if signals s j.launch then
    signalJob s j.core j.launch j.ctx j.signal
      (BitVec.ofNat 512 (j.addr.toNat + j.state * 2 ^ 64 + j.scause * 2 ^ 72))
  else s

/-- The suspension of a job whose leaves have committed: its frames, its card, and, but for a pre-emption, its signal. Leaves that
no slot has taken go back. A job whose tree is still to be re-walked leaves its frames as they are. -/
def suspendQJob (s : State) (j : QJob) : State :=
  let lg := recField j.recA 16 8
  let fs := if j.rewalk then [] else framesOf j (lg + 1) []
  let j' := { j with state := 3, scause := j.suspend, depth := if j.rewalk then j.depth else fs.length, suspend := 0, cache := [],
                     assigned := [], rewalk := false }
  let r : Except QErr State := do
    let s ← writeFrames s j lg fs
    writeSuspended s j'
  match r with
  | .error e => qError s j .ending e
  | .ok s =>
    let s := setQJob (dropTasks s j none) j'
    if j'.scause = 4 then s else qSignal s j'

/-- Whether a context is being pre-empted (R305). -/
def ctxLeaves (s : State) (asid : Nat) : Bool := match getContext s asid with | some c => c.leaving | none => false

/-- JOB_SUSPEND (R229): once nothing of the job is on its way or due to commit; a job whose root has committed suspends for a page that
its last writes need. -/
def execEvJobSuspend (j : Nat) (s : State) : Out :=
  match getQJob s j with
  | none => notPermitted "JOB_SUSPEND"
  | some q =>
    let cause := if q.suspend = 0 && ctxLeaves s q.ctx then 4 else q.suspend
    guarded "JOB_SUSPEND" s (q.state = 1 && cause != 0 && !q.cancelled && (!q.done [] || cause = 3) && q.leaves.isEmpty
        && q.wait.isNone && !jobInFlight s j && !(q.groups.any fun g => q.ready g.1))
      (suspendQJob s { q with suspend := cause })

/-- Whether a quadtree job has ended: its root has committed, or it is cancelled and no leaf of it runs. -/
def QJob.ended (j : QJob) : Bool := !j.rewalk && if j.cancelled then j.leaves.isEmpty else j.done [] && j.state = 1 && j.suspend != 3

/-- R227, R234: the end of a quadtree job. -/
def finishQJob (s : State) (j : QJob) : State :=
  let j' := { j with state := if j.cancelled then 5 else 2 }
  let r : Except QErr State :=
    if j.cancelled then do
      let s ← (openRecords j).foldlM (fun s va => qWriteRec s j va poisonRecord) s
      qCard s j 116 5 1
    else do
      let s ← writePools s j
      let s ← qCard s j 120 j.nleaves 4
      qCard s j 116 2 1
  match r with
  | .ok s => qSignal (dropQJob s j) j'
  | .error e => qError s j .ending e

/-! ### The re-walk of a resumed job (R231) -/

/-- The child records of a group, and of the groups below it: what has committed and what is partly built. -/
def rewalk (s : State) (j : QJob) (lg : Nat) : Nat → List Nat → Nat → Except QErr QJob
  | 0, _, _ => .ok j
  | n + 1, p, g => do
    let j := { j with groups := j.groups ++ [(p, g)] }
    (List.range 4).foldlM (fun j q => do
      let va := BitVec.ofNat 64 (g + 32 * q)
      let r ← qNode s j va
      let t := recField r 0 8
      if r = BitVec.ofNat 256 poisonRecord then .ok j
      else if recField r 16 8 + p.length + 1 != lg then .error (.qtree va)
      else if recField r 24 1 = 1 then
        if t ≤ 4 || t = 7 then .ok { j with committed := j.committed ++ [p ++ [q]] } else .error (.qtree va)
      else if t = 7 && recField r 64 64 % 128 = 0 then rewalk s j lg n (p ++ [q]) (recField r 64 64)
      else .error (.qtree va)) j

/-- Whether the frames describe the path from the root to the first uncommitted node of the tree as reread. -/
def checkFrames (s : State) (j : QJob) (lg : Nat) (fs : List (List Nat × Nat × Nat)) : Except QErr Unit :=
  ((List.range fs.length).zip fs).forM fun f => do
    let va := j.card.frame + BitVec.ofNat 64 (32 * f.1)
    let r ← qNode s j va
    if r = BitVec.ofNat 256 (frameBits j lg (f.1 + 1 == fs.length) f.2) then .ok () else .error (.qtree va)

/-- The job as its frames and result records describe it, as the engine has fetched them. -/
def rebuild (s : State) (j : QJob) : Except QErr QJob := do
  let lg := recField j.recA 16 8
  let j0 := { j with groups := [], committed := [], leaves := [], assigned := [], staged := [], recording := [] }
  if j.depth = 0 then .ok { j0 with committed := if j.done [] then [[]] else [] }
  else
    let r ← qNode s j j.card.frame
    let g := recField r 192 64
    if g % 128 != 0 || j.depth > 24 then .error (.qtree j.card.frame)
    else
      let j1 ← rewalk s j0 lg (lg + 1) [] g
      let fs := framesOf j1 (lg + 1) []
      if fs.length != j.depth then .error (.qtree j.card.frame)
      else do
        checkFrames s j1 lg fs
        .ok j1

/-- The pool fields of a card (R216, R218 step 4). -/
def poolsOk (c : Nat) : Bool :=
  cardField c 256 64 % 128 = 0 && cardField c 256 64 ≤ cardField c 384 64 && cardField c 384 64 ≤ cardField c 320 64
    && cardField c 448 64 % 64 = 0 && cardField c 448 64 ≤ cardField c 576 64 && cardField c 576 64 ≤ cardField c 512 64

/-- A suspended job goes on: STATE 1 and SCAUSE 0, its pools reread, its tree to be re-walked. What its page requests asked for and is
still not at hand is kept in mind (R231). -/
def resumeQJob (s : State) (j : QJob) (card : Nat) : Except QErr (State × QJob) := do
  let still := j.blocked.filter fun va => translate s (clusterOf j.core) j.ctx va .read == .miss
  let j := { j with state := 1, scause := 0, suspend := 0, asked := still, blocked := [], wait := none, rewalk := true, cache := [],
                    npnext := cardField card 384 64, nplimit := cardField card 320 64,
                    dpnext := cardField card 576 64, dplimit := cardField card 512 64,
                    depth := cardField card 944 8,
                    card := { j.card with npbase := BitVec.ofNat 64 (cardField card 256 64),
                                          dpbase := BitVec.ofNat 64 (cardField card 448 64) } }
  .ok (← qCard s j 116 1 2, j)

/-- The engine's re-walk: it fetches what it still has to read, or ends with the job as its frames and records describe it. -/
def rewalkQJob (s : State) (id : Nat) : Option State :=
  (getQJob s id).bind fun j =>
    if !(j.rewalk && j.state = 1 && j.wait.isNone) then none
    else some (match rebuild s j with
      | .ok j => setQJob s { j with rewalk := false, cache := [] }
      | .error e => qError s j .tree e)

/-- The 1,024 bits of a job's card. -/
def qCardBits (s : State) (j : QJob) : Except QErr Nat := do
  let a ← qRead s j j.addr
  let b ← qRead s j (j.addr + 64)
  .ok (a.1.toNat + 2 ^ 512 * b.1.toNat)

/-- A job that its context's pre-emption suspended goes on by itself (R231, R306). -/
def wakeQJob (s : State) (j : QJob) : State :=
  match (do let card ← qCardBits s j; resumeQJob s j card : Except QErr (State × QJob)) with
  | .ok (s, j) => setQJob s j
  | .error e => qError s j .ending e

/-! ### QMUL and QADD (R216 to R218) -/

/-- A job card; the footprint list is read beside it. -/
def parseQCard (c : Nat) (reads writes : List (Nat × Nat)) : QCard where
  tag := cardField c 864 8
  notify := cardField c 880 1 = 1
  nep := cardField c 896 32
  nch := cardField c 872 8
  reads := reads
  writes := writes
  nma := cardField c 856 8
  maxrank := cardField c 848 8
  rfmt := cardField c 840 4
  gap := cardField c 844 4
  ta := cardField c 832 1 = 1
  tb := cardField c 833 1 = 1
  ord := cardField c 834 1 = 1
  demote := cardField c 835 1 = 1
  fill := BitVec.ofNat 32 (cardField c 800 32)
  alpha := BitVec.ofNat 32 (cardField c 768 32)
  fpl := BitVec.ofNat 64 (cardField c 704 64)
  frame := BitVec.ofNat 64 (cardField c 640 64)
  dpbase := BitVec.ofNat 64 (cardField c 448 64)
  npbase := BitVec.ofNat 64 (cardField c 256 64)
  cin := BitVec.ofNat 64 (cardField c 192 64)

def qcardSignal (c : Nat) : Option Signal :=
  parseSignal (cardField c 880 1 = 1) (cardField c 864 8) (cardField c 872 8) (cardField c 896 32)

/-- R218 step 4. -/
def qcardOk (c : Nat) : Bool :=
  let state := cardField c 928 8
  let rfmt := cardField c 840 4
  let nma := cardField c 856 8
  let reads := cardField c 888 4
  let writes := cardField c 892 4
  cardField c 992 32 = 0 && cardField c 836 4 = 0 && cardField c 881 7 = 0
    && (state = 0 || state = 2 || state = 4 || state = 5)
    && 1 ≤ rfmt && rfmt ≤ 5 && (cardField c 844 4 = 0 || isDx rfmt)
    && cardField c 848 8 ≤ 64 && (nma = 0 || nmOk nma)
    && poolsOk c && cardField c 640 64 % 64 = 0
    && reads ≤ 4 && writes ≤ 4 && (reads + writes = 0 || cardField c 704 64 % 16 = 0)
    && (qcardSignal c).isSome

/-- Entries of a footprint list: base and length (R217). -/
def footprintList (s : State) (j : QJob) (fpl : Word) (first n : Nat) : Except QErr (List (Nat × Nat)) :=
  (List.range n).mapM fun k => do
    let va := fpl + BitVec.ofNat 64 (16 * (first + k))
    let b ← qRead s j va
    let x := b.1.toNat / 256 ^ (va.toNat % 64)
    .ok (x % 2 ^ 64, x / 2 ^ 64 % 2 ^ 64)

/-- What a job captures at acceptance: the footprint list and the root records. -/
def capture (s : State) (j : QJob) (card : Nat) : Except QErr QJob := do
  let n := cardField card 888 4
  let reads ← footprintList s j j.card.fpl 0 n
  let writes ← footprintList s j j.card.fpl n (cardField card 892 4)
  let a ← qRecord s j j.aroot
  let b ← qRecord s j j.broot
  let c ← if j.card.cin = 0 then .ok 0 else qRecord s j j.card.cin
  .ok { j with recA := a, recB := b, recC := c, card := { j.card with reads := reads, writes := writes } }

/-- The job of a card as it is accepted, before its captures. -/
def newQJob (s : State) (mul : Bool) (c : Nat) (sl : Slot) (addr croot aroot broot : Word) (card : Nat) : QJob :=
  { id := s.nextId, mul := mul, core := c, launch := sl.launch, ctx := sl.ctx, addr := addr, card := parseQCard card [] [],
    croot := croot, aroot := aroot, broot := broot, recA := 0, recB := 0, recC := 0, state := 1, scause := 0, depth := 0,
    npnext := cardField card 384 64, nplimit := cardField card 320 64, dpnext := cardField card 576 64,
    dplimit := cardField card 512 64, started := false, suspend := 0, failed := [], cancelled := false, blocked := [],
    asked := [], rewalk := false, wait := none, groups := [], assigned := [], leaves := [], nleaves := 0, committed := [], cache := [], staged := [],
    recording := [] }

/-- The card as acceptance leaves it: CROOT, AROOT and BROOT; STATE 1, SCAUSE, DEPTH and LEAVES 0. -/
def acceptCard (s : State) (j : QJob) : Except QErr State := do
  let s ← qCard s j 0 j.croot.toNat 8
  let s ← qCard s j 8 j.aroot.toNat 8
  let s ← qCard s j 16 j.broot.toNat 8
  qCard s j 116 1 8

/-- Jobs accepted by a cluster's engine. -/
def acceptedJobs (s : State) (cluster : Nat) : Nat := (s.qjobs.filter fun j => clusterOf j.core == cluster).length

/-- The acceptance of a job whose card is good (R218 steps 5 and 6); it may wait, with the card as it was read, once, and the tag
claimed. -/
def acceptQJob (s : State) (c : Nat) (i : Fin 4) (sl : Slot) (j : QJob) (card : Nat) : State :=
  let kept (s : State) : State := keepCard s c i card
  match takeClaim s c i sl.launch j.signal with
  | none => stallSlot (kept s) c i (.tag j.card.tag)
  | some s =>
    if 16 ≤ acceptedJobs s (clusterOf c) then stallSlot (kept s) c i .window
    else
      let accept (s : State) (j : QJob) : State :=
        retire (enterWindow (setQJob { s with nextId := s.nextId + 1 } j) c j.id) c i 0 (sl.pc + 4)
      match acceptCard s j, capture s j card with
      | .ok t, .ok j => accept t j
      | .error (.miss va k), _ => suspendWalk (kept s) c i va k
      | _, .error (.miss va k) => suspendWalk (kept s) c i va k
      | .ok t, .error e => qError (accept t j) j .tree e
      | .error e, _ => qError (accept s j) j .tree e

/-- QMUL and QADD (R218). -/
def quadJob (mul : Bool) (b a d : BitVec 5) (s : State) : Out :=
  let dn : BitVec 5 := d + 1
  issue s [xr d, xr a, xr b, xr dn] [] fun s c i sl =>
    let va := sl.rx dn
    let accept (card : Nat) : State :=
      acceptQJob s c i sl (newQJob s mul c sl va (sl.rx d) (sl.rx a) (sl.rx b) card) card
    match jobGate sl, sl.card with
    | some w, _ => stallSlot s c i w
    | none, some card => accept card
    | none, none =>
      if va.toNat % 128 != 0 then takeTrap s c i causeMISALIGN va sl.pc
      else match [sl.rx d, sl.rx a, sl.rx b].find? fun r => r.toNat % 32 != 0 with
        | some r => takeTrap s c i causeMISALIGN r sl.pc
        | none =>
          withCard s c i sl 128 .write va fun card =>
            let cin := cardField card 192 64
            if cin % 32 != 0 then takeTrap s c i causeMISALIGN (BitVec.ofNat 64 cin) sl.pc
            else if !qcardOk card then takeTrap s c i causeENGINE va sl.pc
            else accept card

def execQmul (b a d : BitVec 5) (s : State) : Out := quadJob true b a d s
def execQadd (b a d : BitVec 5) (s : State) : Out := quadJob false b a d s

/-! ### QRESUME, QPOOL, QSTAT and QCANCEL (R231 to R234) -/

def execQresume (a : BitVec 5) (s : State) : Out :=
  issue s [xr a] [] fun s c i sl =>
    let va := sl.rx a
    let found := (qjobAt s (clusterOf c) va sl.ctx).filter fun j => j.state = 3 && !j.cancelled && j.scause != 4
    match jobGate sl, found with
    | some w, _ => stallSlot s c i w
    | none, none => takeTrap s c i causeENGINE va sl.pc
    | none, some j =>
      withCard s c i sl 128 .write va fun card =>
        if !poolsOk card then takeTrap s c i causeENGINE va sl.pc
        else match takeClaim s c i sl.launch j.signal with
          | none => stallSlot s c i (.tag j.card.tag)
          | some s =>
            let j := { j with core := c, launch := sl.launch }
            match resumeQJob s j card with
            | .ok (t, j) => retire (setQJob t j) c i 0 (sl.pc + 4)
            | .error (.miss va k) => suspendWalk s c i va k
            | .error e => qError (retire s c i 0 (sl.pc + 4)) j .tree e

/-- The result of a local variable-latency quadtree instruction. -/
def quadResult (s : State) (c : Nat) (i : Fin 4) (d : BitVec 5) (v : Nat) : State :=
  let sl := getSlot s c i
  retire (setSlot s c i (sl.writeVar [(xr d, BitVec.ofNat 512 v)] 0 false)) c i 0 (sl.pc + 4)

def execQcancel (a d : BitVec 5) (s : State) : Out :=
  issue s [xr a] [xr d] fun s c i sl =>
    match (qjobAt s (clusterOf c) (sl.rx a) sl.ctx).filter fun j => !j.cancelled with
    | none => quadResult s c i d 1
    | some j =>
      let waiting := j.leaves.filter fun l => !leafRuns s j l.1
      let s := waiting.foldl (fun s l => dropTasks s j (some l.1)) s
      let s := j.assigned.foldl (fun s p => dropTasks s j (some p)) s
      let j := { j with cancelled := true, assigned := [], leaves := j.leaves.filter fun l => !waiting.contains l }
      quadResult (setQJob s j) c i d 0

/-- Bytes of a context's memory by their translations, lowest first, with the first physical address that is poisoned. -/
def cardBytes (s : State) (ps : List (Nat × Nat)) : Nat × Option Nat :=
  ((ps.map fun p => (readThrough s p.1 1 p.2).toNat % 256).foldr (fun b acc => b + 256 * acc) 0,
    (ps.find? fun p => isPoisoned s p.1).map (·.1))

def execQstat (a d : BitVec 5) (s : State) : Out :=
  issue s [xr a] [xr d] fun s c i sl =>
    let va := sl.rx a
    match qjobAt s (clusterOf c) va sl.ctx with
    | some j => quadResult s c i d (j.state + j.scause * 2 ^ 8 + j.depth * 2 ^ 16 + j.nleaves * 2 ^ 32)
    | none =>
      withChecked s c i sl .read 1 ((List.range 8).map fun k => va + 116 + BitVec.ofNat 64 k) fun ps =>
        if sl.accs.any fun x => ps.any fun p => homeOf p.1 == x.home then stallSlot s c i .earlier
        else
          let r := cardBytes s ps
          match r.2 with
          | some pa => trapFrom 6 (homeMusic s (homeOf pa) 3 pa) c i causeACCESS va sl.pc
          | none => quadResult s c i d (r.1 % 2 ^ 24 + r.1 / 2 ^ 32 * 2 ^ 32)

/-- The limit of a pool of a job: of a suspended one the card's field, which the program may have changed, is the only copy (R231). -/
def poolLimit (s : State) (j : QJob) (data : Bool) : Except QErr Nat :=
  if j.state = 3 then do .ok (cardField (← qCardBits s j) (if data then 512 else 320) 64)
  else .ok (if data then j.dplimit else j.nplimit)

/-- QPOOL (R232). A value that is the current limit is accepted also where it is not aligned (DESIGN CHOICE, log 76). -/
def execQpool (data : Bool) (b a d : BitVec 5) (s : State) : Out :=
  issue s [xr a, xr b] [xr d] fun s c i sl =>
    let limit := (sl.rx b).toNat
    let fails (s : State) (j : QJob) (e : QErr) : State := match e with
      | .miss va k => suspendWalk s c i va k
      | e => qError (quadResult s c i d 0) j .tree e
    match (qjobAt s (clusterOf c) (sl.rx a) sl.ctx).filter fun j => !j.cancelled with
    | none => quadResult s c i d 1
    | some j =>
      match poolLimit s j data with
      | .error e => fails s j e
      | .ok now =>
        if limit = now then quadResult s c i d 0
        else if limit < now || limit % (if data then 64 else 128) != 0 then quadResult s c i d 2
        else
          let j' := if data then { j with dplimit := limit } else { j with nplimit := limit }
          match (if j.state = 3 then qCard s j (if data then 64 else 40) limit 8 else .ok s) with
          | .ok s => quadResult (setQJob s j') c i d 0
          | .error e => fails s j' e

/-! ### Starting, completing and the element accesses of jobs (R252, R169) -/

/-- The read and write regions of a quadtree job (R217). -/
def quadFootprint (j : QJob) : List Region × List Region :=
  let k := j.card
  (k.reads ++ [(j.aroot.toNat, 32), (j.broot.toNat, 32)] ++ (if k.cin = 0 then [] else [(k.cin.toNat, 32)]),
   k.writes ++ [(j.croot.toNat, 32), (k.npbase.toNat, j.nplimit - k.npbase.toNat), (k.dpbase.toNat, j.dplimit - k.dpbase.toNat),
     (k.frame.toNat, 768), (j.addr.toNat, 128)])

/-- The footprint of a job of a window. -/
def jobRegions (s : State) (id : Nat) : Option (List Region × List Region) :=
  match getCopy s id with
  | some j => some (copyFootprint j)
  | none => (getQJob s id).map quadFootprint

def regionsMeet (a b : List Region) : Bool := a.any fun x => b.any (spansMeet x)

/-- R168: whether a later job conflicts with an earlier one. -/
def jobsConflict (s : State) (early late : Nat) : Bool :=
  match jobRegions s early, jobRegions s late with
  | some (r, w), some (r', w') => regionsMeet w' w || regionsMeet r' w || regionsMeet w' r
  | _, _ => false

/-- R252 Start: no earlier job of the window conflicts. -/
def mayStart (s : State) (core id : Nat) : Bool :=
  let w := (getCluster s (clusterOf core)).window
  !(w.takeWhile (· != id)).any fun e => jobsConflict s e id

/-- JOB_START (R252); or a job that a pre-emption suspended goes on (R306 step 5). -/
def execEvJobStart (j : Nat) (s : State) : Out :=
  match getCopy s j, getQJob s j with
  | some x, _ => guarded "JOB_START" s (!x.started && !ctxHeld s x.ctx && mayStart s x.core j) (setCopy s { x with started := true })
  | none, some q =>
    if q.state = 3 && q.scause = 4 then guarded "JOB_START" s (ctxRuns s q.ctx && q.wait.isNone && !q.cancelled) (wakeQJob s q)
    else guarded "JOB_START" s (!q.started && !ctxHeld s q.ctx && q.suspend = 0 && q.state = 1 && mayStart s q.core j)
      (setQJob s { q with started := true })
  | none, none => notPermitted "JOB_START"

/-- JOB_COMPLETE (R169, R227, R234), or the end of a copy job whose card waited to say that it faulted (R170). -/
def execEvJobComplete (j : Nat) (s : State) : Out :=
  match getCopy s j, getQJob s j with
  | some x, _ => match x.failed with
    | some (va, origin) => guarded "JOB_COMPLETE" s (x.blocked.isNone && !ctxHeld s x.ctx) (copyFault s x va origin)
    | none => guarded "JOB_COMPLETE" s (x.complete && !ctxHeld s x.ctx) (finishCopy s x)
  | none, some q =>
    guarded "JOB_COMPLETE" s (q.ended && q.wait.isNone && !jobInFlight s j && !ctxHeld s q.ctx) (finishQJob s q)
  | none, none => notPermitted "JOB_COMPLETE"

/-- A block of the data of a leaf that runs enters its queue (R227, R228): write k. Where no leaf is ready with it, what the first leaf
that is not meets on the way comes: a block to fetch, a walk, or its error. -/
def stageBlock (s : State) (q : QJob) (k : Nat) : Option State :=
  let outs := (q.leaves.filter fun l => leafRuns s q l.1).map fun l => (l.1, leafOut s q l.1 l.2)
  let found := outs.findSome? fun x => match x.2 with
    | .ok (_, bs) => (bs.find? fun b => dataKey b.va == k).map fun b => (x.1, b)
    | .error _ => none
  match found with
  | some (p, b) =>
    if q.staged.contains (p, k) then none
    else some (match qSend s q k b.va (fun pa => .writePart pa b.val b.mask b.desc) with
      | .ok t => setQJob t { q with staged := q.staged ++ [(p, k)] }
      | .error e => leafError s q p e)
  | none => outs.findSome? fun x => match x.2 with
    | .error e => some (leafError s q x.1 e)
    | .ok _ => none

/-- An element access of a job enters its queue E(j, h) (R252): read or write k. -/
def sendElement (s : State) (j k : Nat) (write : Bool) : Option State :=
  match getCopy s j, getQJob s j with
  | some x, _ => if ctxHeld s x.ctx then none else if write then copyWrite s x k else copyRead s x k
  | none, some q => if !q.moves s then none else if write then stageBlock s q k else prefetch s q k
  | none, none => none

/-! ### Dispatch (R287 to R290) -/

/-- A hardware leaf task takes the slot (R228, R287); the first of its leaf has its data allocated (R225). -/
def dispatchLeaf (s : State) (c : Nat) (i : Fin 4) (job : Nat) (path : List Nat) : State :=
  match getQJob s job with
  | none => s
  | some j =>
    let take (s : State) : State :=
      let s' := modCore s c fun k => { k with leaves := k.leaves.filter fun p => p != (job, path) }
      setSlot { s' with free := s.free + 96 } c i { undefinedSlot s with status := .leaf job path, launch := j.launch, ctx := j.ctx }
    if (j.leafAt path).isSome then take s
    else match qRoot j with
      | .error e => qError s j .tree e
      | .ok r =>
        let s := allocLeaf s j r path
        match getQJob s job with
        | some j' => if (j'.leafAt path).isSome then take s else s
        | none => s

/-- DISPATCH (R287 to R290). -/
def execEvDispatch (c : Nat) (sl : Fin 4) (s : State) : Out :=
  if clocksRun s && coreEnabled s c && (getSlot s c sl).status == .free && s.power.moving != some .toP2 then
    match select s c with
    | .handler x => .next (dispatchHandler s c sl x)
    | .leaf j p => .next (dispatchLeaf s c sl j p)
    | .nothing => notPermitted "DISPATCH"
  else notPermitted "DISPATCH"

end Sys2Proof.Machine
end

