-- ==== Sys2Proof/Machine/Walks.lean ====
section
/-! DEFINITION. Packets that have not performed, walks and page requests (11 R268 to R270), SRAM frames and their tags (12 R302 to
R304), keys, zeroing and retirement (11 R272, R275 to R277), and hidden failures (14 R340 to R342). -/
namespace Sys2Proof.Machine

/-! ### What has not performed -/

/-- The packets of a pair that have not performed at their destination (R243). -/
def Pair.undone (p : Pair) : List Packet :=
  p.out ++ (p.store.map (·.pkt)).filter fun k => seqDist k.seq p.expected < 2 ^ 15

/-- The launch of an item that its activations committed. -/
def Body.launch : Body → Option Nat
  | .msg l _ _ _ => some l
  | .grp l _ _ _ => some l
  | .tsk l _ _ _ => some l
  | .red l _ _ _ _ _ => some l
  | .close l => some l
  | .egr l _ _ _ _ _ => some l
  | _ => none

/-- The physical address that a packet accesses. -/
def Body.target : Body → Option Nat
  | .rd op _ _ => some op.pa
  | .wr op _ _ => some op.pa
  | .amo op _ _ => some op.pa
  | .red _ pa _ _ _ _ => some pa
  | .jrd _ _ op _ => some op.pa
  | .jwr _ _ _ op _ => some op.pa
  | _ => none

/-- Whether an item of a launch has still to perform. -/
def inFlight (s : State) (l : Nat) : Bool := s.pairs.any fun p => p.undone.any fun k => k.body.launch == some l

/-- Whether a range of physical memory is named by an access that has left the issue point and not performed, by a buffered SENDR,
or by an MSWAP that waits for its pair. -/
def outstanding (s : State) (pa size : Nat) : Bool :=
  (s.pairs.any fun p => p.undone.any fun k => k.body.target.any fun a => pa ≤ a && a < pa + size)
  || s.cores.any fun k => (slotsOf k).any fun sl =>
      (sl.sends.any fun e => match e with | .red _ a _ _ _ _ => pa ≤ a && a < pa + size | _ => false)
      || match sl.status with
        | .mswap _ _ _ ps _ _ => ps.any fun p => rangesMeet p.1 p.2 pa size
        | .leafSwap _ _ _ _ ps _ _ => ps.any fun p => rangesMeet p.1 p.2 pa size
        | _ => false

/-! ### Who waits for a walk -/

/-- WALK_REQUEST (R268): a suspended access asks the walker of its die. -/
def execEvWalkRequest (c : Nat) (sl : Fin 4) (s : State) : Out :=
  let x := getSlot s c sl
  match x.status with
  | .walk va kind false =>
    guarded "WALK_REQUEST" s true (requestWalk (setSlot s c sl { x with status := .walk va kind true }) (clusterOf c) x.ctx va kind)
  | .hendWalk va kind false =>
    guarded "WALK_REQUEST" s true
      (requestWalk (setSlot s c sl { x with status := .hendWalk va kind true }) (clusterOf c) x.ctx va kind)
  | _ => notPermitted "WALK_REQUEST"

/-- The address and kind of the access for which a slot waits for a walk that it has asked for. -/
def Status.awaits : Status → Option (Word × AccessKind)
  | .walk va kind true => some (va, kind)
  | .hendWalk va kind true => some (va, kind)
  | _ => none

/-- Whether a walk is for the granule of an address of an ASID, asked for by a cluster. -/
def Walk.serves (w : Walk) (cluster asid : Nat) (va : Word) : Bool :=
  asid == w.asid && walkGranule va == w.granule && w.clusters.contains cluster

/-- The slots that wait for a walk: core, slot, address, kind. -/
def walkWaiters (s : State) (w : Walk) : List (Nat × Fin 4 × Word × AccessKind) :=
  s.cores.flatMap fun k => (List.finRange 4).filterMap fun i =>
    let sl := k.slots[i]
    match sl.status.awaits with
    | some (va, kind) => if w.serves (clusterOf k.id) sl.ctx va then some (k.id, i, va, kind) else none
    | none => none

/-- The copy jobs and the quadtree jobs that wait for a walk (R269). -/
def copyWaiters (s : State) (w : Walk) : List (Nat × Word × AccessKind) :=
  s.copies.filterMap fun j => match j.blocked with
    | some (va, kind) => if w.serves j.cluster j.ctx va then some (j.id, va, kind) else none
    | none => none
def quadWaiters (s : State) (w : Walk) : List (Nat × Word × AccessKind × QNeed) :=
  s.qjobs.filterMap fun q => match q.wait with
    | some (va, kind, need) => if w.serves (clusterOf q.core) q.ctx va then some (q.id, va, kind, need) else none
    | none => none

/-- How a wait for a walk ends: the access may leave, or it is refused (R268), or the walk met a poisoned entry (R342; log 81). -/
inductive WaitEnd where | go | refused | poisoned
  deriving DecidableEq, Repr

/-- The ORIGIN of a fault whose own origin is given, where a wait has ended badly (R335). -/
def WaitEnd.origin (e : WaitEnd) (own : Nat) : Nat := if e = .poisoned then 6 else own

/-- A slot's wait for a walk ends: its access may leave, or it traps ACCESS; at commit it is a fault found there (R174). -/
def endWait (s : State) (c : Nat) (i : Fin 4) (va : Word) (e : WaitEnd) : State :=
  let sl := getSlot s c i
  let (next, own) : Status × Nat := match sl.status with
    | .hendWalk _ _ _ => (.hend, 2)
    | _ => (.running, 0)
  if e = .go then setSlot s c i { sl with status := next } else trapFrom (e.origin own) s c i causeACCESS va sl.pc

/-- A copy job's wait ends: it goes on, or its access is fatal (R170); so is the fault that its card cannot take. -/
def endCopyWait (s : State) (job : Nat) (va : Word) (e : WaitEnd) : State :=
  match getCopy s job with
  | some j =>
    if e = .go then setCopy s { j with blocked := none }
    else match j.failed with
      | some x => endFaulted s j x.1 x.2
      | none => copyFault s j va (e.origin 3)
  | none => s

/-- A quadtree job's wait ends: it goes on, its page being at hand, or the access is fatal (R235). -/
def endQuadWait (s : State) (job : Nat) (va : Word) (need : QNeed) (e : WaitEnd) : State :=
  match getQJob s job with
  | none => s
  | some q =>
    if e = .go then setQJob s { q with wait := none, asked := q.asked.filter fun a => walkGranule a != walkGranule va }
    else match need with
      | .leaf p => leafFault s q p causeACCESS (e.origin 1) va
      | _ => qFault s q causeACCESS (e.origin 4) va

/-- A walk ends for all that wait for it: f says how, by the kind of access (R268 steps 4 to 6). -/
def endWalk (s : State) (w : Walk) (f : AccessKind → WaitEnd) : State :=
  let t := (walkWaiters s w).foldl (fun s x => endWait s x.1 x.2.1 x.2.2.1 (f x.2.2.2)) s
  let t := (copyWaiters s w).foldl (fun s x => endCopyWait s x.1 x.2.1 (f x.2.2)) t
  (quadWaiters s w).foldl (fun s x => endQuadWait s x.1 x.2.1 x.2.2.2 (f x.2.2.1)) t

/-- The kinds of access that wait for a walk. -/
def walkKinds (s : State) (w : Walk) : List AccessKind :=
  (walkWaiters s w).map (·.2.2.2) ++ (copyWaiters s w).map (·.2.2) ++ (quadWaiters s w).map (·.2.2.1)

/-! ### Walks (R267, R268) -/

/-- An entry enters a cluster's cache, in the place of that of its page; a full cache of 4,096 gives up an entry that nothing
fixes (R267; log 66). -/
def fillCache (s : State) (t : Tlb) (cl : Nat) : State :=
  let k := getCluster s cl
  let rest := k.cache.filter fun x => !(x.asid == t.asid && x.base == t.base)
  if rest.length < 4096 then setCluster s { k with cache := t :: rest }
  else setCluster { s with free := s.free + 1 } { k with cache := t :: rest.eraseIdx (Config.replaced s.free % 4096) }

/-- What a walk finds when it goes on from where it stands. The context's key set is read as it stands at the leaf: R266 fixes the start
of the walk for the descriptor alone (DESIGN CHOICE, log 106). -/
def walkEnd (s : State) (w : Walk) : WalkResult :=
  match getContext s w.asid, w.pos with
  | none, _ => .invalid
  | some c, none => walkTables s c w.va
  | some c, some (level, table, _) => walkFrom s c (w.va.toNat % 2 ^ 57) level table
/-- V and DP as the start of a walk has read them (R266): whether an entry with V = 0 asks for the page. -/
def walkPages (s : State) (w : Walk) : Bool :=
  match w.pos with
  | some (_, _, dp) => dp
  | none => (getContext s w.asid).any fun c => c.valid && c.dp

/-- Walk n of a die, among its first 64, reads its next table entry, where that is no leaf (R268 steps 2 and 3). -/
def walkRead (s : State) (die n : Nat) : Option State :=
  let d := getDie s die
  match d.walks[n]? with
  | none => none
  | some w =>
    let here : Option (Nat × Nat × Bool) := match w.pos with
      | some p => some p
      | none => (getContext s w.asid).bind fun c => match walkRoot s c w.va with
        | .ok t => some (4, t, c.dp)
        | .error _ => none
    if w.paged || 64 ≤ n then none
    else here.bind fun (level, table, dp) => (walkStep s (w.va.toNat % 2 ^ 57) level table).map fun p =>
      setDie s { d with walks := d.walks.set n { w with pos := some (p.1, p.2, dp) } }

/-- WALK (R268): walk n of a die, among its first 64, finishes. A frame that another owner holds is waited for; one that was claimed is
filled again (R304). A walk that waits for the answer to its page request keeps its place among the 64 (R268 does not say; DESIGN
CHOICE, log 90). -/
def execEvWalk (die n : Nat) (s : State) : Out :=
  let d := getDie s die
  match d.walks[n]? with
  | none => notPermitted "WALK"
  | some w =>
    let gone := setDie s { d with walks := d.walks.eraseIdx n }
    let ok := !w.paged && decide (n < 64)
    let refuse (e : WaitEnd) (s : State) : State := endWalk s w fun _ => e
    match walkEnd s w with
    | .leaf t =>
      let (c, f) := frameOf t.pa
      let s' := if isSram t.pa then ownFrame (refillFrame gone w.asid c f) w.asid t.pa else gone
      let s' := if (walkKinds s w).any t.allows then w.clusters.foldl (fun s cl => fillCache s t cl) s' else s'
      guarded "WALK" s (ok && !(isSram t.pa && frameHeld s c w.asid f))
        (endWalk s' w fun k => if t.allows k then .go else .refused)
    | .fail => guarded "WALK" s ok (refuse .refused (walkRecords gone die (2 * 4096 + die * 1024 + 3) w.asid w.va))
    | .poison pa => guarded "WALK" s ok (refuse .poisoned (homeMusic gone (homeOf pa) 3 pa))
    | .invalid =>
      let pages := walkPages s w
      guarded "WALK" s ok
        (if pages then
          (quadWaiters s w).foldl (fun s x => match getQJob s x.1 with
            | some q => qPage s q x.2.1 x.2.2.1 x.2.2.2
            | none => s) (setDie s { d with walks := d.walks.set n { w with paged := true } })
         else refuse .refused gone)

/-- PAGE_REQUEST_ANSWER (R268 step 7, R269): the walker walks again, or the waiting accesses are refused. -/
def execEvPageRequestAnswer (die n : Nat) (retry : Bool) (s : State) : Out :=
  let d := getDie s die
  match d.walks[n]? with
  | none => notPermitted "PAGE_REQUEST_ANSWER"
  | some w =>
    command "PAGE_REQUEST_ANSWER" s w.paged
      (if retry then setDie s { d with walks := d.walks.set n { w with paged := false, pos := none } }
       else endWalk (setDie s { d with walks := d.walks.eraseIdx n }) w fun _ => .refused)

/-! ### Withdrawal (R270) -/

/-- The cache entries of an ASID that cover part of a range. -/
def Tlb.meets (t : Tlb) (asid base len : Nat) : Bool := t.asid == asid && rangesMeet t.base t.size base len
def Walk.meets (w : Walk) (asid base len : Nat) : Bool :=
  w.asid == asid && rangesMeet (w.va.toNat % 2 ^ 57 / 16384 * 16384) 16384 base len

/-- Whether an access goes to memory by its address: not to a group home, and not one that waits for frames. -/
def Access.byAddress (a : Access) : Bool :=
  match a.dst with
  | .member _ _ => false
  | .query _ => false
  | .create _ _ => false
  | _ => true

/-- A slot of an ASID that still uses a translation of a range: an access, or a buffered SENDR; or an MSWAP that waits for its pair,
whatever its range (log 57). -/
def Slot.uses (sl : Slot) (asid base len : Nat) : Bool :=
  let meets (va : Word) : Bool := rangesMeet (va.toNat % 2 ^ 57) 64 base len
  sl.ctx == asid && ((sl.accs.any fun a => a.byAddress && meets a.va)
    || (sl.sends.any fun e => match e with | .red va _ _ _ _ _ => meets va | _ => false)
    || match sl.status with
      | .mswap _ _ _ _ _ _ => true
      | .leafSwap _ _ _ _ _ _ _ => true
      | _ => false)

/-- Whether a packet is an access, or the answer to one, that went by an address (R270). -/
def Body.byAddress : Body → Bool
  | .rd _ _ _ => true
  | .rdr _ _ => true
  | .wr _ _ _ => true
  | .wra _ _ => true
  | .amo _ _ _ => true
  | .amor _ _ => true
  | .red _ _ _ _ _ _ => true
  | .jrd _ _ _ _ => true
  | .jrdr _ _ _ => true
  | .jwr _ _ _ _ _ => true
  | .jwra _ _ _ => true
  | _ => false
def Packet.uses (k : Packet) (asid base len : Nat) : Bool :=
  k.asid == asid && k.body.byAddress && rangesMeet (k.via.toNat % 2 ^ 57) 64 base len

/-- Whether a translation of a range is in use: by a slot, by an operation that an aborted activation has left, or by an access of an
activation or an engine, running or ended, that has not performed or whose answer is on its way (R270, R254; log 57). -/
def rangeUsed (s : State) (asid base len : Nat) : Bool :=
  (s.cores.any fun k => ((slotsOf k).any fun sl => sl.uses asid base len)
    || k.late.any fun m => asidOf s m.launch == asid && m.accs.any fun a => rangesMeet (a.va.toNat % 2 ^ 57) 64 base len)
  || s.pairs.any fun p => p.undone.any fun k => k.uses asid base len

/-- A slot whose walk is discarded asks again. -/
def askAgain (sl : Slot) : Slot :=
  match sl.status with
  | .walk va kind _ => { sl with status := .walk va kind false }
  | .hendWalk va kind _ => { sl with status := .hendWalk va kind false }
  | _ => sl

/-- A walk is discarded: who waits for it asks again. -/
def discardWalk (s : State) (w : Walk) : State :=
  let t := (walkWaiters s w).foldl (fun s x => modSlot s x.1 x.2.1 askAgain) s
  let t := (copyWaiters s w).foldl (fun s x => endCopyWait s x.1 x.2.1 .go) t
  (quadWaiters s w).foldl (fun s x => match getQJob s x.1 with
    | some q => setQJob s { q with wait := none }
    | none => s) t

/-- WITHDRAWAL (R270): complete once every access through the entries it discards has completed. -/
def execEvWithdrawal (asid : Nat) (base : Word) (len : Nat) (s : State) : Out :=
  let b := base.toNat % 2 ^ 57
  let es := (s.clusters.flatMap (·.cache)).filter fun t => t.meets asid b len
  let ws := (s.dies.flatMap (·.walks)).filter fun w => w.meets asid b len
  let t := ws.foldl discardWalk s
  command "WITHDRAWAL" s (!rangeUsed s asid b len) { t with
    clusters := t.clusters.map fun k => { k with cache := k.cache.filter fun t => !t.meets asid b len }
    dies := t.dies.map fun d => { d with walks := d.walks.filter fun w => !w.meets asid b len }
    frameOwner := t.frameOwner.filter fun p => !(p.2 == asid && es.any fun t => isSram t.pa && frameKey t.pa == p.1) }

/-! ### Zeroing, keys and retirement (R272, R275 to R277) -/

/-- Blocks of a range that hold data written under a key. -/
def rekey (s : State) (pa size key : Nat) : State :=
  let v := keyValue s key
  let first := pa / 64
  let n := size / 64
  let s := { s with blockKey := s.blockKey.filter fun b => b.1 < first || first + n ≤ b.1 }
  if v = 0 then s else { s with blockKey := (List.range n).foldl (fun m k => putBy (·.1) (first + k, v) m) s.blockKey }

/-- A frame that the operating system hands on carries no tag (R302). -/
def untagFrame (s : State) (pa : Nat) : State :=
  let (c, f) := frameOf pa
  modCore { s with frameOwner := dropBy (·.1) (frameKey pa) s.frameOwner } c fun k =>
    { k with frames := k.frames.filter fun v => v.unit != f }

/-- ZEROING (R275, R253): zero plaintext under the new mapping's key slot, and descriptors 0, once no translation of the frame
is cached and no access to it is outstanding. -/
def execEvZeroing (pa size key : Nat) (s : State) : Out :=
  let sizeOk := if isSram pa then size = 2 ^ 14 else size = 2 ^ 16 || size = 2 ^ 21 || size = 2 ^ 30
  let mapped := s.clusters.any fun k => k.cache.any fun t => rangesMeet t.pa t.size pa size
  let t := zeroDescs (zeroRange s pa size) pa size
  guarded "ZEROING" s (sizeOk && pa % size = 0 && paModule pa = s.module
      && (isSram pa || (isDram pa && isDram (pa + size - 1))) && key < 1024 && !mapped && !outstanding s pa size)
    (if isDram pa then rekey t pa size key else untagFrame t pa)

/-- KEY_LOAD (R272): the firmware loads a slot, once the module has booted (R351 step 8). -/
def execEvKeyLoad (slot : Nat) (key : Vec) (s : State) : Out :=
  command "KEY_LOAD" s (decide (slot < 1024))
    { s with keys := if key = 0 then dropBy (·.1) slot s.keys else putBy (·.1) (slot, key) s.keys }

/-- Units that an agent of a die has retired. -/
def retiredBy (d : Die) (agent : Nat) : Nat :=
  match findBy (·.1) agent d.retired with
  | some p => p.2
  | none => 0

/-- PAGE_RETIREMENT (R276, R277): the unit moves to a spare; an agent without spares records the frame and reports it to the operating
system. The smallest frame of DRAM, 64 KiB, is the one named (log 67). -/
def execEvPageRetirement (pa : Nat) (s : State) : Out :=
  let home := homeOf pa
  let die := (nodeDie home).getD 0
  let d := getDie s die
  let n := retiredBy d (home % 2 ^ 14)
  let frame := pa / 65536 * 65536
  guarded "PAGE_RETIREMENT" s (isDram pa && paModule pa = s.module)
    (if n < 256 then
      homeMusic (setDie { s with retired := s.retired ++ [pa / 4096] }
        { d with retired := putBy (·.1) (home % 2 ^ 14, n + 1) d.retired }) home 4 (pa / 4096 * 4096)
    else homeMusic { s with frameReports := s.frameReports ++ [frame] } home 5 frame)

/-! ### Scrubbing and failed cores (R340 to R342) -/

/-- SCRUB (R340, R342): no value changes; a poisoned unit records the event. -/
def execEvScrub (t : ScrubTarget) (s : State) : Out :=
  match t with
  | .block pa =>
    guarded "SCRUB" s (nodeModule (homeOf pa) == s.module && (isSram pa || isDram pa)) (if isPoisoned s pa then homeMusic s (homeOf pa) 3 pa else s)
  | .row c r =>
    guarded "SCRUB" s (ownCore s c && decide (r < 2048)) (if (getCore s c).badRows.contains r then homeMusic s (coreNode c) 3 (rowData c r) else s)

/-- The physical cluster of a die that stands as a logical one (R341). -/
def physicalCluster (d : Die) (logical : Nat) : Nat := ((findBy (·.1) logical d.spares).map (·.2)).getD logical

/-- CORE_CHECK_FAILURE (R341): every launch resident on the core ends, as R342 has it, and its cluster is replaced at the next
reset. -/
def execEvCoreCheckFailure (c : Nat) (s : State) : Out :=
  let d := getDie s (dieOf c)
  let s' := setDie s { d with failed := d.failed ++ [physicalCluster d (c / 32 % 32)] }
  guarded "CORE_CHECK_FAILURE" s (ownCore s c)
    ((getCore s c).residents.foldl (fun s r => report s (agentFault r.launch causeACCESS 6 0 c))
      (homeMusic s' (coreNode c) 3 (rowData c 0)))

end Sys2Proof.Machine
end

