-- ==== Sys2Proof/Machine/Launches.lean ====
section
/-! DEFINITION. Launches from their image to their end (12 R279 to R286, R295 to R297, R393, 14 R336 to R338). -/
namespace Sys2Proof.Machine

/-! ### Reading a launch image (R280 to R282) -/

/-- Why the marionette die cannot take a launch image as it stands. -/
inductive ImageErr where
  | unreadable (va : Word)
  /-- poisoned data (R342) -/
  | poison (va : Word) (pa : Nat)
  /-- a check of R283 step 2 that fails -/
  | bad
  deriving DecidableEq, Repr

/-- What a reader of an image gives. -/
abbrev Read := Except ImageErr

def need {α : Type} (o : Option α) : Read α := match o with | some x => .ok x | none => .error .bad
def check (ok : Bool) : Read Unit := if ok then .ok () else .error .bad

/-- A byte of a context's memory, where it stands or as it was saved (R304). -/
def readByte (s : State) (asid : Nat) (va : Word) : Read Nat :=
  match translateNow s asid va .read with
  | none => .error (.unreadable va)
  | some (pa, key) =>
    match frameSaved s asid pa with
    | some (_, r) => if r.bad.contains (pa % 16384 / 64) then .error (.poison va pa) else .ok (r.bytes.getD (pa % 16384) 0).toNat
    | none => if isPoisoned s pa then .error (.poison va pa) else .ok ((readThrough s pa 1 key).toNat % 256)

/-- n bytes of a context's memory. -/
def readBytes (s : State) (asid : Nat) (va : Word) : Nat → Read Nat
  | 0 => .ok 0
  | n + 1 => do
    let lo ← readBytes s asid va n
    let b ← readByte s asid (va + BitVec.ofNat 64 n)
    .ok (lo + b * 256 ^ n)

def bits (v lo n : Nat) : Nat := v / 2 ^ lo % 2 ^ n

/-- Entry k of a table of entries of n bytes. -/
def tableRow (s : State) (asid : Nat) (table : Nat) (k n : Nat) : Read Nat :=
  readBytes s asid (BitVec.ofNat 64 (table + k * n)) n

/-- A channel of a channel entry (R181, R282). -/
def parseChan (e : Nat) : Option Chan :=
  if bits e 28 4 = 0 && bits e 20 4 = 0 && bits e 18 1 = 0 && bits e 9 7 = 0 && bits e 3 5 = 0 then
    some { num := bits e 24 4, offset := BitVec.ofNat 32 (bits e 32 32), task := bits e 19 1 = 1, words := bits e 16 2 + 1,
           bound := true, en := bits e 8 1 = 1, prio := bits e 0 3, queue := [], unbound := none, ucount := 0 }
  else none

/-- Whether numbers ascend strictly. -/
def ascending (l : List Nat) : Bool := (l.zip l.tail).all fun p => p.1 < p.2

/-- A state region whose pages lie in the slice of its core; a walk that fails there is named (R265). -/
def regionMapped (s : State) (asid core base size : Nat) : Read Unit :=
  if (regionPieces s asid core base size).isSome then .ok ()
  else match failedPage s asid base size with
    | some va => .error (.unreadable va)
    | none => .error .bad

/-- An actor of an actor entry, with its channels (R282, R27, R23). -/
def parseActor (s : State) (asid chn nchn ez e : Nat) : Read Actor := do
  let nch := bits e 256 8
  let ch0 := bits e 224 32
  check (bits e 264 248 = 0 && bits e 44 20 = 0 && 1 ≤ nch && nch ≤ 16 && ch0 + nch ≤ nchn && bits e 0 32 != 0)
  let cs ← (List.range nch).mapM fun k => do need (parseChan (← tableRow s asid chn (ch0 + k) 8))
  let core := s.module * 4096 + bits e 32 12
  let base := bits e 64 64
  let size := bits e 128 32
  let zb := bits e 192 16
  let zr := bits e 208 16
  check (coreEnabled s core && ascending (cs.map (·.num)) && regionOk base size (bits e 160 32) && (zr = 0 || zb + zr ≤ 2048 - ez))
  regionMapped s asid core base size
  .ok ⟨bits e 0 32, .unclaimed, core, BitVec.ofNat 64 base, size, bits e 160 32, zb, zr, cs, [], [], [], false, false, false, false⟩

/-- No two of a list are in a symmetric relation. -/
def noPair {α : Type} (f : α → α → Bool) : List α → Bool
  | [] => true
  | x :: r => r.all (fun y => !f x y) && noPair f r

/-- The conditions among the actors of an image (R23, R282, R283, and the 64 actors of a core of R58). -/
def actorsOk (as : List Actor) : Bool :=
  noPair (fun a b => a.name == b.name || rangesMeet a.base.toNat a.size b.base.toNat b.size
    || (a.core == b.core && 0 < a.zrows && 0 < b.zrows && rangesMeet a.zbase a.zrows b.zbase b.zrows)) as
  && as.all (fun a => (as.filter fun b => b.core == a.core).length ≤ 64)
  && noPair (fun x y => x != y) ((as.flatMap (·.chans)).filterMap fun c => if c.task then some c.words else none)

/-- The task word count of a launch (R195). -/
def imageWords (as : List Actor) : Nat := (((as.flatMap (·.chans)).find? (·.task)).map (·.words)).getD 1

/-- What an image gives: its actors, seeds, initial tasks and memberships. -/
structure Image where
  tb     : Word
  actors : List Actor
  seeds  : List (Word × Nat × Nat)
  tasks  : List (Word × Nat)
  joins  : List (Word × Nat)
  deriving DecidableEq, Repr

def parseSeed (as : List Actor) (e : Nat) : Option (Word × Nat × Nat) :=
  let ok := match as.find? fun a => a.name == bits e 64 32 with
    | some a => match a.chan (bits e 96 4) with
      | some c => !c.task
      | none => false
    | none => false
  if ok && bits e 0 64 % 64 = 0 && bits e 100 28 = 0 then some (BitVec.ofNat 64 (bits e 0 64), bits e 64 32, bits e 96 4) else none

def parseTask (e : Nat) : Option (Word × Nat) :=
  if bits e 0 64 % 64 = 0 && bits e 66 62 = 0 then some (BitVec.ofNat 64 (bits e 0 64), bits e 64 2) else none

def parseJoin (s : State) (as : List Actor) (e : Nat) : Option (Word × Nat) :=
  if bits e 24 8 = 0 && bits e 0 12 != 0 && s.modules.contains (bits e 12 12) && as.any fun a => a.name == bits e 32 32 then
    some (BitVec.ofNat 64 (bits e 0 24), bits e 32 32)
  else none

/-- The image at an address, when every check on it holds (R283 step 2). -/
def parseImage (s : State) (asid ez : Nat) (image : Word) : Read Image := do
  let h ← readBytes s asid image 64
  let nact := bits h 32 32
  let nchn := bits h 64 32
  let ngrp := bits h 96 32
  let nseed := bits h 16 16
  check (1 ≤ nact && nact ≤ 262144 && 1 ≤ nchn && nchn ≤ 16 * nact && ngrp ≤ 65536 && nseed ≤ 256)
  let as ← (List.range nact).mapM fun k => do
    parseActor s asid (bits h 384 64) nchn ez (← tableRow s asid (bits h 448 64) k 64)
  check (actorsOk as)
  let seeds ← (List.range nseed).mapM fun k => do need (parseSeed as (← tableRow s asid (bits h 320 64) k 16))
  let tasks ← (List.range (bits h 0 16)).mapM fun k => do need (parseTask (← tableRow s asid (bits h 256 64) k 16))
  let joins ← (List.range ngrp).mapM fun k => do need (parseJoin s as (← tableRow s asid (bits h 192 64) k 8))
  .ok ⟨BitVec.ofNat 64 (bits h 128 64), as, seeds, tasks, joins⟩

/-- The checks on the fields of a descriptor (R280). -/
def descriptorOk (s : State) (asid d : Nat) : Bool :=
  bits d 448 64 % 64 = 0 && (translateNow s asid (BitVec.ofNat 64 (bits d 448 64)) .write).isSome && bits d 384 64 % 64 = 0
    && bits d 249 135 = 0 && bits d 72 120 = 0 && 1 ≤ bits d 224 25 && bits d 224 25 ≤ 2 ^ 24 && bits d 220 3 ≤ 5
    && bits d 216 3 ≤ 4 && bits d 208 8 ≤ 56 && 16 ≤ bits d 192 16 && bits d 192 16 ≤ 1024 && bits d 192 16 % 16 = 0

def launchScope : Nat → Scope
  | 0 => .thread
  | 1 => .core
  | 2 => .cluster
  | 3 => .die
  | 4 => .module
  | _ => .domain

/-! ### Ending a launch (R297, R336 to R338) -/

/-- A launch's queued messages and parked mailboxes are discarded and counted. -/
def discardMessages (l : Launch) : Launch :=
  let n := (l.actors.map fun a => (a.chans.map fun c => c.queue.length).sum + a.box.length).sum
  { l with dropped := min (l.dropped + n) (2 ^ 32 - 1),
           actors := l.actors.map fun a =>
             { a with box := [], chans := a.chans.map fun c => { c with queue := [], unbound := none, ucount := 0 } } }

/-- The messages of a launch's own hardware that wait at cores are discarded and counted. -/
def discardPosts (s : State) (l : Nat) : State :=
  let n := (s.cores.map fun k => (k.posts.filter fun p => p.launch == l).length).sum
  countDropped { s with cores := s.cores.map fun k => { k with posts := k.posts.filter fun p => p.launch != l } } l n

/-- The slots of a launch's activations. -/
def launchSlots (s : State) (l : Nat) : List (Nat × Fin 4) :=
  s.cores.flatMap fun k => (List.finRange 4).filterMap fun i =>
    let sl := k.slots[i]
    match sl.status with
    | .free => none
    | .leaf _ _ => none
    | .leafSwap _ _ _ _ _ _ _ => none
    | _ => if sl.launch == l then some (k.id, i) else none

/-- The tasks of a launch leave every queue. -/
def discardTasks (s : State) (l : Nat) : State :=
  { s with cores := s.cores.map fun k =>
             { k with residents := k.residents.map fun r => if r.launch == l then { r with tasks := [] } else r },
           clusters := s.clusters.map fun k => { k with tasks := dropBy (·.1) l k.tasks },
           dies := s.dies.map fun d => { d with tasks := dropBy (·.1) l d.tasks },
           contexts := s.contexts.map fun c => { c with saved := c.saved.filter (fun r => r.2.launch != l),
                                                        queued := c.queued.filter fun q => q.2.2.1 != l } }

/-- R297 step 1: an activation is aborted; the debugger is told of one that it had halted (R346). -/
def endActivation (s : State) (c : Nat) (i : Fin 4) : State :=
  let sl := getSlot s c i
  let s := if sl.status == .halted || sl.inDebug then { s with dbgTold := s.dbgTold ++ [(sl.launch, sl.actor)] } else s
  abortSlot s c i

/-- R297 steps 1 to 3: the end of a launch begins, with its END code. -/
def beginEnd (s : State) (l code : Nat) : State :=
  let s := (launchSlots s l).foldl (fun s x => endActivation s x.1 x.2) s
  let s := (s.qjobs.filter fun j => j.launch == l).foldl killQJob s
  modLaunch (discardPosts (discardTasks s l) l) l fun x =>
    discardMessages { x with phase := .ending, endCode := code, late := [], seeds := [], joins := [], todo := [] }

/-- R336: the marionette die takes a report. -/
def takeReport (s : State) (r : FaultReport) : State :=
  match getLaunch s r.launch with
  | none => s
  | some l =>
    if l.phase == .ended then s
    else if l.phase == .ending then setLaunch s { l with nfault := min (l.nfault + 1) 65535 }
    else beginEnd (setLaunch s { l with fault := some r }) l.id 3

/-- FAULT_REPORT (R336): report n is taken. -/
def execEvFaultReport (n : Nat) (s : State) : Out :=
  match s.reports[n]? with
  | some r => guarded "FAULT_REPORT" s true (takeReport { s with reports := s.reports.eraseIdx n } r)
  | none => notPermitted "FAULT_REPORT"

/-- The status record (R338). -/
def statusRecord (l : Launch) : Vec :=
  let head := l.dropped * 2 ^ 192 + l.id % 2 ^ 32 * 2 ^ 160 + l.nfault * 2 ^ 144 + l.egdisc % 2 ^ 32 * 2 ^ 64 + l.endCode * 2 ^ 16
  BitVec.ofNat 512 (match l.fault with
    | none => head
    | some r => head + r.job.toNat * 2 ^ 448 + r.tval.toNat * 2 ^ 384 + r.epc.toNat * 2 ^ 320 + r.msgid.toNat * 2 ^ 256
        + r.actor % 2 ^ 32 * 2 ^ 224 + r.prog % 2 ^ 9 * 2 ^ 128 + r.core % 4096 * 2 ^ 116 + r.slot % 4 * 2 ^ 114
        + r.origin % 256 * 2 ^ 96 + r.cause % 256)

/-- LSTATE of a launch's descriptor (R280). -/
def writeLstate (s : State) (l : Launch) (v : Nat) : State := lastWrite s l.ctx (l.desc + 8) (BitVec.ofNat 512 v) 1

/-- R393: the engine range that the launches resident on a core need; pre-emption does not free it (R305). -/
def engineNeed (s : State) (c : Nat) : Nat :=
  let kept := s.contexts.flatMap fun x => (x.saved.filter fun r => r.1 == c).map fun r => r.2.launch
  let here := (getCore s c).residents.map (·.launch) ++ kept
  ((s.launches.filter fun l => l.holds && here.contains l.id).map (·.ezrows)).foldl max 0

/-- The engine range of a core shrinks to what its launches need. -/
def shrinkEngine (s : State) (c : Nat) : State := modCore s c fun k => { k with engine := min k.engine (engineNeed s c) }

/-- R297 step 5: the launch's entries, rows, queues and directory entries are free. Frames keep their contents. -/
def freeLaunch (s : State) (l : Launch) : State :=
  let s := setLaunch s { l with phase := .ended, actors := l.actors.map fun a => { a with place := .ended, chans := [], zrows := 0 } }
  let clear (k : Core) : Core :=
    { k with residents := dropBy (·.launch) l.id k.residents, groups := dropBy (·.launch) l.id k.groups,
             breaks := k.breaks.filter (fun b => b.launch != l.id), dir := k.dir.filter (fun e => e.launch != l.id),
             victims := k.victims.filter (fun v => v.launch != l.id) }
  let ungroup (c : Context) : Context := { c with groups := c.groups.filter fun g => g.2.launch != l.id }
  let s : State := { s with savedRows := s.savedRows.filter (fun r => r.launch != l.id), cores := s.cores.map clear,
                            contexts := s.contexts.map ungroup }
  s.cores.foldl (fun s k => shrinkEngine s k.id) s

/-- The descriptor leaves the head of its queue. -/
def advanceQueue (s : State) (l : Launch) : State :=
  match getContext s l.ctx with
  | none => s
  | some c => setContext s { c with queues := c.queues.map fun q => if q.1 == l.queue then (q.1, q.2.tail) else q }

/-- R297 step 4: on a fatal end, the held entries that the launch posted are discarded and counted (R338 EGDISC). -/
def discardEgress (s : State) (l : Launch) : State × Launch :=
  if l.endCode = 3 then
    let n := (s.egress.map fun e => (e.held.filter fun y => y.launch == l.id).length).sum
    ({ s with egress := s.egress.map fun e => { e with held := e.held.filter fun y => y.launch != l.id } },
      { l with egdisc := l.egdisc + n })
  else (s, l)

/-- R297 steps 4 to 6. -/
def finishEnd (s : State) (l : Launch) : State :=
  let (s, l) := discardEgress s l
  let s := freeLaunch s l
  let s := if l.status.toNat % 64 = 0 then lastWrite s l.ctx l.status (statusRecord l) 64 else s
  let s := match l.fault with
    | some r => musicFirmware s 1 (BitVec.ofNat 64 (l.id % 2 ^ 32 * 2 ^ 32 + r.origin * 2 ^ 8 + r.cause))
    | none => s
  advanceQueue (writeLstate s l 3) l

def copying (s : State) (l : Nat) : Bool := s.copies.any fun j => j.launch == l

/-- Whether matrix operations of a launch's aborted activations are still due (R29). -/
def matsDue (s : State) (l : Nat) : Bool := s.cores.any fun k => k.late.any fun m => m.launch == l

/-- Whether every actor of a launch has ended and its copy jobs have completed (R296). -/
def allEnded (s : State) (l : Launch) : Bool := l.phase == .running && l.actors.all (fun a => a.place == .ended) && !copying s l.id

/-- The end sequence as far as it can go: it waits for the launch's copy jobs and matrix operations, for its items in flight, and
for the fault reports that are on their way (R297, R336). -/
def endLaunch (s : State) (l : Nat) : Option State :=
  match getLaunch s l with
  | none => none
  | some x =>
    if x.phase == .ending && !copying s l && !inFlight s l && !matsDue s l && s.reports.all (fun r => r.launch != l) then
      some (finishEnd s x)
    else none

/-- LAUNCH_END (R296, R297). -/
def execEvLaunchEnd (launch : Nat) (s : State) : Out :=
  match getLaunch s launch with
  | none => notPermitted "LAUNCH_END"
  | some l =>
    if allEnded s l then
      let t := beginEnd s launch 1
      guarded "LAUNCH_END" s true ((endLaunch t launch).getD t)
    else match endLaunch s launch with
      | some t => guarded "LAUNCH_END" s true t
      | none => notPermitted "LAUNCH_END"

/-- R295: nothing of a launch runs, waits or travels. -/
def quiescent (s : State) (l : Launch) : Bool :=
  l.phase == .running && l.step = 9 && l.late.isEmpty && (launchSlots s l.id).isEmpty && !copying s l.id && !inFlight s l.id
  && l.actors.all (fun a => a.box.isEmpty && a.chans.all fun c => c.queue.isEmpty)
  && s.cores.all (fun k => (k.residents.all fun r => r.launch != l.id || r.tasks.isEmpty)
      && (k.groups.all fun g => g.launch != l.id || g.arrivals.isEmpty) && k.posts.all fun p => p.launch != l.id)
  && s.clusters.all (fun k => (tasksOf k.tasks l.id).isEmpty) && s.dies.all (fun d => (tasksOf d.tasks l.id).isEmpty)
  && s.contexts.all (fun c => (c.saved.all fun r => r.2.launch != l.id || r.2.tasks.isEmpty)
      && (c.queued.all fun q => q.2.2.1 != l.id) && c.groups.all fun g => g.2.launch != l.id || g.2.arrivals.isEmpty)
  && s.qjobs.all fun j => j.launch != l.id || (j.state = 3 && j.scause != 4)

/-- QUIESCENCE (R295, R296). -/
def execEvQuiescence (launch : Nat) (s : State) : Out :=
  match getLaunch s launch with
  | none => notPermitted "QUIESCENCE"
  | some l => guarded "QUIESCENCE" s (l.quiesce && quiescent s l) (beginEnd s launch 2)

/-! ### Claiming (R283 step 3, R393) -/

/-- The row groups of a range of rows. -/
def rowGroups (first n : Nat) : List Nat := if n = 0 then [] else (List.range ((first + n - 1) / 16 - first / 16 + 1)).map (first / 16 + ·)

/-- The engine row groups that a core gains for a launch (R393). -/
def engineGain (s : State) (c ez : Nat) : List Nat :=
  let now := (getCore s c).engine
  if ez ≤ now then [] else rowGroups (2048 - ez) (ez - now)

/-- Whether a core's engine range can grow to what a launch needs (R393). -/
def engineOpen (s : State) (c l ez : Nat) : Bool :=
  (engineGain s c ez).all fun g => !groupHeld s c l g && (List.range 16).all fun n => !rowOwned s c (16 * g + n)

/-- R283 step 3: whether what actors of a launch need on a core is free or can be taken. -/
def claimable (s : State) (l : Launch) (c : Nat) (as : List Actor) : Bool :=
  let k := getCore s c
  let entry := k.residents.any (fun r => r.launch == l.id) || k.residents.length < 8
  entry && (actorsOn s c).length + as.length ≤ 64
    && handlerEntries s c + (as.map fun a => a.chans.length).sum ≤ 256
    && engineOpen s c l.id l.ezrows
    && as.all fun a =>
        (rowGroups a.zbase a.zrows).all (fun g => !groupHeld s c l.id g)
        && !regionTaken s l.ctx a.base.toNat a.size
        && (regionFrames s l.ctx a).all fun f => !frameHeld s c l.ctx f

/-- The launch takes what its actors need on a core. -/
def claimCore (s : State) (l : Launch) (c : Nat) : State × Launch :=
  let as := l.actors.filter fun a => a.core == c && a.place == .unclaimed
  if as.isEmpty || !claimable s l c as then (s, l)
  else
    let l := { l with actors := l.actors.map fun a => if a.core == c && a.place == .unclaimed then { a with place := .core } else a }
    let s := modCore (setLaunch s l) c fun k => { k with engine := max k.engine l.ezrows }
    (setResident s c ⟨l.id, 0, 0, 0, [], []⟩, l)

def launchCores (l : Launch) : List Nat := (l.actors.map (·.core)).eraseDups

def claimAll (s : State) (l : Launch) : List Nat → State × Launch
  | [] => (s, l)
  | c :: r => let (s, l) := claimCore s l c; claimAll s l r

/-- Step 3: the start waits until it holds everything; then the cores are to be installed. -/
def claimLaunch (s : State) (l : Launch) : State :=
  let (s, l) := claimAll (setLaunch s l) l (launchCores l)
  if l.actors.all fun a => a.place != .unclaimed then
    setLaunch s { l with phase := .running, step := 4, todo := launchCores l }
  else s

/-! ### Installing and the steps after it (R283 steps 4 to 9) -/

/-- The directory entries of a launch on a core: the network interface's cached copies (R284, R298). -/
def installDirectory (s : State) (l : Launch) (c : Nat) : State :=
  modCore s c fun k => { k with dir := (l.actors.filter fun a => a.place != .ended).map (fun a => ⟨l.id, a.name, a.node⟩)
                                        ++ k.dir.filter fun e => e.launch != l.id }

/-- The marionette die ends a launch with a fault of its own (R335 origin 5). -/
def refuseLaunch (s : State) (l cause : Nat) (tval : Word) : State := takeReport s (agentFault l cause 5 tval 0)

/-- What the marionette die meets in reading for a launch: a failed check or an unreadable address is the cause given, poisoned data
ends the launch as R342 has it. -/
def refuseRead (s : State) (l : Launch) (cause : Nat) (tval : Word) (e : ImageErr) : State :=
  match e with
  | .unreadable va => refuseLaunch (noteWalk s l.ctx va) l.id cause tval
  | .poison va pa => takeReport (homeMusic s (homeOf pa) 3 pa) (agentFault l.id causeACCESS 6 va 0)
  | .bad => refuseLaunch s l.id cause tval

/-- Whether the rows and frames of an actor can be zeroed on its core: none is in another owner's hands (R302). -/
def actorOpen (s : State) (l : Launch) (a : Actor) : Bool :=
  (rowGroups a.zbase a.zrows).all (groupOpen s a.core l.ctx) && (regionFrames s l.ctx a).all fun f => !frameHeld s a.core l.ctx f

/-- Step 4 for one actor: region and rows zero; what was saved of its rows is forgotten. -/
def zeroActor (s : State) (l : Launch) (a : Actor) : State :=
  modCore (zeroPieces (forgetRows s l a) l.ctx ((regionPieces s l.ctx a.core a.base.toNat a.size).getD [])) a.core fun k =>
    zeroRows k a.zbase a.zrows

/-- Steps 4 and 5 on one core; none while it lacks a unit. It goes on while the context leaves: what was committed to actors of the
core has to perform before the save (R284, R305 step 4; log 78). -/
def installCore (s : State) (l : Launch) (c : Nat) : Option State :=
  let as := l.actors.filter fun a => a.core == c && a.place == .core
  if l.todo.contains c && l.phase == .running && (getContext s l.ctx).any (·.running) && as.all (actorOpen s l) then
    let s := installDirectory (as.foldl (fun s a => zeroActor s l a) s) l c
    let s := modResident s c l.id fun r => { r with tagdone := 0, cmask := 0 }
    some (modLaunch s l.id fun x => { x with todo := x.todo.filter (· != c) })
  else none

/-- n words of a payload. -/
def payload (s : State) (asid : Nat) (va : Word) (n : Nat) : Read (List Vec) :=
  (List.range n).mapM fun k => do .ok (BitVec.ofNat 512 (← readBytes s asid (va + BitVec.ofNat 64 (64 * k)) 64))

/-- Step 6: the first membership that is still to be made. -/
def makeJoin (s : State) (l : Launch) (o : Word) (name : Nat) (rest : List (Word × Nat)) : State :=
  let (s', res) := performGroup (setLaunch s { l with joins := rest }) l.id o (.join name)
  if res.code != 0 then refuseLaunch s l.id causeGROUP o else s'

/-- An initial task pushed: none while the die queue has no room; a closed die or an unreadable payload ends the launch
(R195, R285). -/
def pushInitial (s : State) (l : Launch) (e : Word × Nat) : Option State :=
  if l.closed.contains e.2 then some (refuseLaunch s l.id causeTASK e.1)
  else match payload s l.ctx e.1 (imageWords l.actors) with
    | .error x => some (refuseRead s l causeACCESS e.1 x)
    | .ok ws => enterDie s e.2 l.id [newTask (s.module * 4096 + e.2 * 1024) ws]

/-- Step 7: initial tasks, in table order, until the partition fills. -/
def pushTasks (s : State) (l : Nat) : List (Word × Nat) → State
  | [] => modLaunch s l fun x => { x with late := [] }
  | e :: r =>
    match getLaunch s l with
    | none => s
    | some x =>
      if x.phase != .running then s
      else match pushInitial s x e with
        | some s => pushTasks s l r
        | none => modLaunch s l fun x => { x with late := e :: r }

/-- Step 8: the first seed that is still to be sent: a message of its actor's core to the actor. -/
def sendSeed (s : State) (l : Launch) (va : Word) (name ch : Nat) (rest : List (Word × Nat × Nat)) : State :=
  let s := setLaunch s { l with seeds := rest }
  match l.actor name with
  | none => s
  | some a => match payload s l.ctx va (match a.chan ch with | some c => c.words | none => 1) with
    | .error x => refuseRead s l causeACCESS va x
    | .ok ws =>
      let (m, s) := newMsg s a.core 0 ws
      postMsg s a.core l.ctx l.id name ch m

/-- Step 5: the LID is written; memberships, tasks and seeds come next. -/
def writeLid (s : State) (l : Launch) : State :=
  lastWrite (setLaunch s { l with step := 6 }) l.ctx l.desc (BitVec.ofNat 512 (l.id % 2 ^ 32 * 2 ^ 32)) 8

/-- A start goes on to step 6 for the cores that are installed before every core is: a core that has had its part of steps 4 to 8
dispatches (R283 step 9), and what it sends may meet a core that is still to be installed (R284). -/
def startEarly (s : State) (l : Launch) : Option State :=
  if l.phase == .running && l.step = 4 && l.todo != [] && l.todo.length < (launchCores l).length && ctxRuns s l.ctx then
    some (writeLid s l)
  else none

/-- The first core still to be installed. -/
def installNext (s : State) (l : Launch) : Option State := l.todo.head?.bind (installCore s l)
/-- Whether an actor stands on a core that is still to be installed. -/
def Launch.uninstalled (l : Launch) (name : Nat) : Bool := (l.actor name).any fun a => l.todo.contains a.core

/-- The next part of a start that holds everything: a core installed, the LID written, a membership, the initial tasks, a seed, LSTATE
2. A membership or a seed of an actor whose core is not installed waits for that. none while a core waits for a unit. -/
def startStep (s : State) (l : Launch) : Option State :=
  if l.step = 4 then
    if l.todo.isEmpty then some (writeLid s l) else installNext s l
  else if l.step = 6 then
    match l.joins with
    | (o, name) :: r => if l.uninstalled name then installNext s l else some (makeJoin s l o name r)
    | [] => some (pushTasks (setLaunch s { l with step := 8 }) l.id l.late)
  else if l.step = 8 then
    match l.seeds with
    | (va, name, ch) :: r => if l.uninstalled name then installNext s l else some (sendSeed s l va name ch r)
    | [] => if l.todo.isEmpty then some (writeLstate (setLaunch s { l with step := 9 }) l 2) else installNext s l
  else none

/-- A launch as its descriptor gives it. -/
def newLaunch (s : State) (ctx q : Nat) (desc : Word) (d : Nat) : Launch :=
  { id := s.nextLid, ctx := ctx, queue := q, desc := desc, status := BitVec.ofNat 64 (bits d 448 64),
    image := BitVec.ofNat 64 (bits d 384 64), tb := 0, phase := .waiting, step := 3, todo := [], budget := bits d 224 25,
    quiesce := bits d 223 1 = 1, oscope := launchScope (bits d 220 3), chk := bits d 219 1 = 1, frm := BitVec.ofNat 3 (bits d 216 3),
    bthr := bits d 208 8, ezrows := bits d 192 16, words := 1, actors := [], seeds := [], joins := [], late := [], closed := [],
    dropped := 0, nfault := 0, fault := none, egdisc := 0, endCode := 0, granted := false, attached := false }

/-- R283 steps 1 and 2, and on. -/
def startLaunch (s : State) (ctx q : Nat) (desc : Word) : State :=
  let d := readBytes s ctx desc 64
  let l := newLaunch s ctx q desc (match d with | .ok d => d | .error _ => 0)
  let s := setLaunch { writeLstate s l 1 with nextLid := s.nextLid + 1 } l
  match d with
  | .error e => refuseRead s l causeENGINE desc e
  | .ok d =>
    if desc.toNat % 64 != 0 || !descriptorOk s ctx d then refuseLaunch (noteWalk s ctx l.status) l.id causeENGINE desc
    else match parseImage s ctx l.ezrows l.image with
      | .error e => refuseRead s l causeENGINE l.image e
      | .ok m =>
        claimLaunch s { l with tb := m.tb, actors := m.actors, words := imageWords m.actors, seeds := m.seeds, joins := m.joins,
                               late := m.tasks }

/-- LAUNCH_START (R279, R283): the head of queue q of a running context starts, or goes on with its start. -/
def execEvLaunchStart (ctx q : Nat) (s : State) : Out :=
  match s.launches.find? fun l => l.ctx == ctx && l.queue == q && l.phase != .ended with
  | some l =>
    if !ctxRuns s ctx then notPermitted "LAUNCH_START"
    else if l.phase == .waiting then guarded "LAUNCH_START" s true (claimLaunch s l)
    else match (if l.phase == .running then startStep s l else none) with
      | some s' => guarded "LAUNCH_START" s true s'
      | none => notPermitted "LAUNCH_START"
  | none =>
    match (getContext s ctx).bind fun c => (findBy (·.1) q c.queues).bind fun p => p.2.head? with
    | some desc => guarded "LAUNCH_START" s (ctxRuns s ctx && decide (q < 16)) (startLaunch s ctx q desc)
    | none => notPermitted "LAUNCH_START"

/-- INITIAL_TASK_PUSH (R285): the next initial task that waited. -/
def execEvInitialTaskPush (launch : Nat) (s : State) : Out :=
  match getLaunch s launch with
  | none => notPermitted "INITIAL_TASK_PUSH"
  | some l =>
    match l.late with
    | [] => notPermitted "INITIAL_TASK_PUSH"
    | e :: r =>
      if !(l.phase == .running && 8 ≤ l.step && ctxRuns s l.ctx) then notPermitted "INITIAL_TASK_PUSH"
      else match pushInitial s l e with
        | some s' => guarded "INITIAL_TASK_PUSH" s true (modLaunch s' launch fun x => { x with late := if x.phase == .running then r else [] })
        | none => notPermitted "INITIAL_TASK_PUSH"

end Sys2Proof.Machine
end

