-- ==== Sys2Proof/Machine/Preempt.lean ====
section
/-! DEFINITION. Pre-emption and resumption of a context (12 R305, R306), claims of victims (R302, R303), and eviction and restore of
one actor (R307, R308). -/
namespace Sys2Proof.Machine

/-! ### Parked mailboxes and waits -/

/-- Messages in arrival order. -/
def byArrival (l : List (Nat × Msg)) : List (Nat × Msg) := l.foldl insertMsg []
where
  insertMsg (acc : List (Nat × Msg)) (m : Nat × Msg) : List (Nat × Msg) :=
    acc.takeWhile (fun x => x.2.arr ≤ m.2.arr) ++ m :: acc.dropWhile (fun x => x.2.arr ≤ m.2.arr)

/-- A channel at the core cycle when its context stops running: the waits so far are kept, and do not go on (R288, R294). -/
def pauseChan (now : Nat) (c : Chan) : Chan :=
  { c with queue := c.queue.map fun m => { m with age := m.age + (now - m.since), since := now },
           ucount := match c.unbound with | some t => c.ucount + (now - t) | none => 0,
           unbound := c.unbound.map fun _ => now }
def pauseActor (now : Nat) (a : Actor) : Actor := { a with chans := a.chans.map (pauseChan now) }
/-- The core queues of a core, the same way; depths on their way are out of date. -/
def pauseTasks (now : Nat) (r : Resident) : Resident :=
  { r with tasks := r.tasks.map fun t => { t with age := t.age + (now - t.since), since := now } }

/-- The waits of a launch stop, core by core. -/
def pauseLaunch (s : State) (l : Launch) : State :=
  let cycle (c : Nat) : Nat := (getCore s c).cycle
  let t := setLaunch s { l with actors := l.actors.map fun a => if a.place == .core then pauseActor (cycle a.core) a else a }
  { t with cores := t.cores.map fun k =>
      { k with residents := k.residents.map fun r => if r.launch == l.id then pauseTasks k.cycle r else r } }

/-- R305 step 6 for one actor whose waits have stopped: its mailbox becomes its parked mailbox. -/
def parkActor (evicted : Bool) (a : Actor) : Actor :=
  { a with place := .parked, leaving := false, evicted := evicted,
           box := byArrival (a.chans.flatMap fun c => c.queue.map fun m => (c.num, m)) ++ a.box,
           chans := a.chans.map fun c => { c with queue := [], ucount := if c.unbound.isSome then c.ucount else 0 } }

/-! ### Victims (R302) -/

/-- Units of a core are tagged as victims that a launch leaves. -/
def addVictims (l : Nat) (xs : List Victim) (us : List Nat) : List Victim :=
  xs ++ (us.filter fun u => !xs.any fun v => v.unit == u).map fun u => ⟨u, l⟩

/-- R305 step 5: row groups and frames of a core become victims. -/
def victimise (s : State) (l c : Nat) (groups frames : List Nat) : State :=
  modCore s c fun k => { k with victims := addVictims l k.victims groups, frames := addVictims l k.frames frames }

/-- The frames of a core that are tagged with an ASID. -/
def ownedFrames (s : State) (c asid : Nat) : List Nat :=
  (s.frameOwner.filter fun p => p.2 == asid && p.1 / 32 == c).map fun p => p.1 % 32

/-- Every frame of a context becomes a victim that a launch of it leaves. -/
def victimiseFrames (s : State) (ctx : Nat) : State :=
  match s.launches.find? fun l => l.ctx == ctx with
  | some l => ((s.frameOwner.filter fun p => p.2 == ctx).map fun p => p.1 / 32).eraseDups.foldl
      (fun s c => victimise s l.id c [] (ownedFrames s c ctx)) s
  | none => s

/-! ### Pre-emption (R305) -/

/-- The launches of a context that hold resources. -/
def ctxLaunches (s : State) (ctx : Nat) : List Launch := s.launches.filter fun l => l.ctx == ctx && l.holds

/-- A start that still waits for units gives back what it has claimed; nothing stands in it yet (R305 step 7). -/
def unclaimLaunch (s : State) (l : Launch) : State :=
  let s := setLaunch s { l with actors := l.actors.map fun a => if a.place == .core then { a with place := .unclaimed } else a }
  let drop (k : Core) : Core := { k with residents := dropBy (·.launch) l.id k.residents }
  (launchCores l).foldl (fun s c => shrinkEngine (modCore s c drop) c) s

/-- The first core of a cluster (level 1) or die (level 2), which names it in a report. -/
def queueCore (s : State) (level id : Nat) : Nat := if level = 1 then id * 32 else s.module * 4096 + id * 1024

/-- The queue partitions of a launch in clusters and dies. -/
def partitions (s : State) (l : Nat) : List (Nat × Nat × Nat × List Task) :=
  (s.clusters.map fun k => (1, k.id, l, tasksOf k.tasks l)).filter (fun q => !q.2.2.2.isEmpty)
  ++ (s.dies.map fun d => (2, d.id, l, tasksOf d.tasks l)).filter fun q => !q.2.2.2.isEmpty

/-- The partitions of a launch leave the clusters and dies. -/
def dropPartitions (s : State) (l : Nat) : State :=
  { s with clusters := s.clusters.map fun k => { k with tasks := dropBy (·.1) l k.tasks },
           dies := s.dies.map fun d => { d with tasks := dropBy (·.1) l d.tasks } }

/-- A save or a restore of messages or tasks, one of which has an uncorrectable error, ends their launch (R342; log 31). -/
def saveMessages (s : State) (l c : Nat) (lost : Bool) : State := if lost then moveFault s l c 0 else s

/-- Whether a message of an actor's mailbox has an uncorrectable error. -/
def Actor.lost (a : Actor) : Bool := a.chans.any fun ch => ch.queue.any (·.bad)

/-- R305 steps 5 to 7 for a launch that holds its units: rows become victims; mailboxes, tag sets, masks, queue partitions and group
records are saved and their room is freed; the directory points to the parked mailboxes. -/
def saveLaunch (s : State) (l : Launch) : State :=
  let here := l.actors.filter fun a => a.place == .core
  let s := here.foldl (fun s a => victimise s l.id a.core (rowGroups a.zbase a.zrows) []) s
  let s := (launchCores l).foldl (fun s c => saveMessages s l.id c
    (here.any (fun a => a.core == c && a.lost) || (getResident s c l.id).tasks.any (·.bad))) s
  let rs := s.cores.filterMap fun k => (findBy (·.launch) l.id k.residents).map fun r => (k.id, { r with depths := [] })
  let gs := s.cores.filterMap fun k => (findBy (·.launch) l.id k.groups).map fun g => (k.id, g)
  let qs := partitions s l.id
  let s := qs.foldl (fun s q => saveMessages s l.id (queueCore s q.1 q.2.1) (q.2.2.2.any (·.bad))) s
  let s := setLaunch s { l with actors := l.actors.map fun a => if a.place == .core then parkActor false a else a }
  let clear (k : Core) : Core :=
    { k with residents := dropBy (·.launch) l.id k.residents, groups := dropBy (·.launch) l.id k.groups,
             dir := k.dir.filter fun e => e.launch != l.id }
  let s := dropPartitions { s with cores := s.cores.map clear } l.id
  match getContext s l.ctx with
  | some c => setContext s { c with saved := c.saved ++ rs, groups := c.groups ++ gs, queued := c.queued ++ qs }
  | none => s

/-- R305 steps 2 to 4: no activation, leaf task, job or item of the context is left that has not ended, suspended or performed. -/
def drained (s : State) (ctx : Nat) : Bool :=
  (ctxLaunches s ctx).all (fun l => (launchSlots s l.id).isEmpty && !inFlight s l.id && !matsDue s l.id)
    && s.cores.all (fun k => (slotsOf k).all (fun sl => sl.status == .free || sl.ctx != ctx) && k.posts.all fun p => p.asid != ctx)
    && s.copies.all (fun j => j.ctx != ctx)
    && s.qjobs.all fun j => j.ctx != ctx || (j.state = 3 && !jobInFlight s j.id)

/-- R229, R305 step 3: the quadtree jobs of the context are to suspend with SCAUSE 4; leaf tasks that hold no slot go back. -/
def suspendJobs (s : State) (ctx : Nat) : State :=
  (s.qjobs.filter fun j => j.ctx == ctx && j.state = 1 && !j.cancelled).foldl (fun s j =>
    let unqueue (k : Core) : Core := { k with leaves := k.leaves.filter fun p => p.1 != j.id }
    setQJob { s with cores := s.cores.map unqueue } { j with suspend := if j.suspend = 0 then 4 else j.suspend, assigned := [] }) s

/-- The context's kernel thread is descheduled: dispatch stops, and with it the waits of R288 and R294. -/
def leaveContext (s : State) (c : Context) : State :=
  suspendJobs ((ctxLaunches s c.asid).foldl pauseLaunch (setContext s { c with leaving := true })) c.asid

/-- Everything of a drained context is saved. -/
def saveContext (s : State) (ctx : Nat) : State :=
  let s := (ctxLaunches s ctx).foldl (fun s l => if l.phase == .waiting then unclaimLaunch s l else saveLaunch s l) (victimiseFrames s ctx)
  match getContext s ctx with
  | some c => setContext s { c with running := false, leaving := false }
  | none => s

/-- PRE_EMPTION (R305): first the context leaves; then, once it has drained, its state is saved. -/
def execEvPreEmption (ctx : Nat) (s : State) : Out :=
  match getContext s ctx with
  | none => notPermitted "PRE_EMPTION"
  | some c =>
    if !c.running then notPermitted "PRE_EMPTION"
    else if !c.leaving then guarded "PRE_EMPTION" s true (leaveContext s c)
    else guarded "PRE_EMPTION" s (drained s ctx) (saveContext s ctx)

/-! ### Resumption (R306) -/

/-- One message of a parked mailbox enters the mailbox of its core, with its wait so far (R306 step 3). -/
def drainOne (s : State) (l : Nat) (a : Actor) : Option State :=
  match a.box with
  | [] => none
  | (ch, m) :: rest =>
    if mailboxWords s a.core + m.words.length ≤ 256 then
      let s := intoMailbox (setActor (saveMessages s l a.core m.bad) l { a with box := rest }) l { a with box := rest } ch m
      some (modChan s l a.name ch fun c => match c.queue.getLast? with
        | some x => { c with queue := c.queue.dropLast ++ [{ x with age := m.age }] }
        | none => c)
    else none

def drainBox (s : State) (l name : Nat) : Nat → State
  | 0 => s
  | n + 1 =>
    match getActor s l name with
    | none => s
    | some a =>
      if a.place != .core then s
      else match drainOne s l a with
        | some s => drainBox s l name n
        | none => s

def drainLaunch (s : State) (l : Launch) : State :=
  l.actors.foldl (fun s a => drainBox s l.id a.name a.box.length) s

/-- A parked actor's directory entry points to its core again; the parked mailbox's place is a stub (R306 step 4). -/
def unparkActor (m : Nat) (a : Actor) : Actor := { a with place := .core, evicted := false, stubs := a.stubs ++ [parkedNode m] }

/-- Whether an actor was parked by its context's pre-emption. -/
def Actor.preempted (a : Actor) : Bool := a.place == .parked && !a.evicted

/-- What a launch had on one core comes back: slot, entries, tag set, mask and queue partition; none while it lacks room (R306 step
1). -/
def returnCore (s : State) (l : Launch) (c : Nat) (r : Resident) : Option State :=
  let k := getCore s c
  let as := l.actors.filter fun a => a.core == c && a.preempted
  if k.residents.length < 8 && (actorsOn s c).length + as.length ≤ 64
      && handlerEntries s c + (as.map fun a => a.chans.length).sum ≤ 256 && coreTasks k + r.tasks.length ≤ 64
      && engineOpen s c l.id l.ezrows then
    let s := as.foldl (fun s a => setActor s l.id (unparkActor (c / 4096) a)) s
    let s := setResident s c { r with tasks := r.tasks.map fun t => { t with since := k.cycle } }
    some (saveMessages (modCore s c fun k => { k with engine := max k.engine l.ezrows }) l.id c (r.tasks.any (·.bad)))
  else none

/-- A group record comes back to its home; none while the home has 256 (R187, R306). -/
def returnGroup (s : State) (h : Nat) (g : GroupRec) : Option State :=
  if (getCore s h).groups.length < 256 then some (setGroup s h g) else none

/-- A queue partition comes back to its cluster or die; none while the queue lacks room (R291, R306). -/
def returnQueue (s : State) (level id l : Nat) (ts : List Task) : Option State :=
  let s := saveMessages s l (queueCore s level id) (ts.any (·.bad))
  if level = 1 then
    let k := getCluster s id
    if queueSize k.tasks + ts.length ≤ 1024 then some (setCluster s { k with tasks := setTasks k.tasks l ts }) else none
  else
    let d := getDie s id
    if queueSize d.tasks + ts.length ≤ 16384 then some (setDie s { d with tasks := setTasks d.tasks l ts }) else none

/-- A launch of a context comes back, as far as it was saved (R306 steps 1 and 4). -/
def returnLaunch (s : State) (c : Context) (l : Launch) : Option State := do
  let s ← (c.saved.filter fun r => r.2.launch == l.id).foldlM (fun s r => returnCore s l r.1 r.2) s
  let s ← (c.groups.filter fun g => g.2.launch == l.id).foldlM (fun s g => returnGroup s g.1 g.2) s
  let s ← (c.queued.filter fun q => q.2.2.1 == l.id).foldlM (fun s q => returnQueue s q.1 q.2.1 q.2.2.1 q.2.2.2) s
  let x ← getLaunch s l.id
  some ((launchCores x).foldl (fun s c => if x.todo.contains c then s else installDirectory s x c) s)

/-- Whether an evicted actor of a context keeps a unit of a core tagged (R307). -/
def evictedUnit (s : State) (ctx c : Nat) (units : Launch → Actor → List Nat) (u : Nat) : Bool :=
  s.launches.any fun l => l.ctx == ctx && l.holds && l.actors.any fun a =>
    a.core == c && a.place == .parked && a.evicted && (units l a).contains u

/-- The units that a context finds still tagged with it are its own again (R304). -/
def untagContext (s : State) (ctx : Nat) : State :=
  let keep (c : Nat) (units : Launch → Actor → List Nat) (v : Victim) : Bool :=
    asidOf s v.launch != ctx || evictedUnit s ctx c units v.unit
  { s with cores := s.cores.map fun k =>
      { k with victims := k.victims.filter (keep k.id fun _ a => rowGroups a.zbase a.zrows),
               frames := k.frames.filter (keep k.id fun _ a => regionFrames s ctx a) } }

/-- CONTEXT_RESUME (R306): the context comes back once its cores have room, or a parked mailbox drains further. -/
def execEvContextResume (ctx : Nat) (s : State) : Out :=
  match getContext s ctx with
  | none => notPermitted "CONTEXT_RESUME"
  | some c =>
    let ls := ctxLaunches s ctx
    if c.running then
      guarded "CONTEXT_RESUME" s (ls.any fun l => l.actors.any fun a =>
          a.place == .core && (drainOne s l.id a).isSome)
        (ls.foldl drainLaunch s)
    else if !(c.valid && (s.contexts.filter (·.running)).length < 64) then notPermitted "CONTEXT_RESUME"
    else match ls.foldlM (fun s l => returnLaunch s c l) s with
      | none => notPermitted "CONTEXT_RESUME"
      | some s' =>
        guarded "CONTEXT_RESUME" s true <|
          let s' := untagContext (setContext s' { c with running := true, saved := [], groups := [], queued := [] }) ctx
          (ctxLaunches s' ctx).foldl drainLaunch s'

/-! ### Claims of victims (R302, R303) -/

/-- Whether an actor waits for units on a core: its launch's start does, its launch's core is still to be installed, or it is evicted
and may be restored there. owner: the launch that left the unit. -/
def wantsUnits (l : Launch) (a : Actor) (c owner : Nat) : Bool :=
  (a.core == c && (a.place == .unclaimed || (a.place == .core && l.todo.contains c)))
    || (a.place == .parked && a.evicted && !(l.id == owner && a.core == c))

/-- Whether a row group that a launch left on a core is one that another owner or a claimant waits for. -/
def rowsWanted (s : State) (c g owner : Nat) : Bool :=
  s.launches.any fun l => l.holds &&
    (l.actors.any (fun a => wantsUnits l a c owner && (rowGroups a.zbase a.zrows).contains g)
      || (l.phase == .waiting && (launchCores l).contains c && (engineGain s c l.ezrows).contains g)
      || s.savedRows.any fun r => r.core == c && r.row / 16 == g && r.launch == l.id && ctxRuns s l.ctx)

/-- Whether a walk of any die has found a frame of a core. -/
def frameWalked (s : State) (c f owner : Nat) : Bool :=
  s.dies.any fun d => d.walks.any fun w => w.asid != owner && match walkEnd s w with
    | .leaf t => isSram t.pa && frameOf t.pa == (c, f)
    | _ => false

/-- Whether a frame that a context left is one that another owner or a claimant waits for. -/
def frameWanted (s : State) (c f owner : Nat) : Bool :=
  frameWalked s c f (asidOf s owner) || createWants s c f || s.launches.any fun l => l.holds && l.actors.any fun a =>
    wantsUnits l a c owner && (((regionPieces s l.ctx c a.base.toNat a.size).getD []).any fun p => p.1 % 0x80000 / 16384 == f)

/-- The rows of a group as they are saved for their owners. -/
def ownedRows (s : State) (c g : Nat) : List SavedRow :=
  let k := getCore s c
  s.launches.flatMap fun l => if l.holds then
      (l.actors.filter fun a => a.core == c && a.place == .parked).flatMap fun a =>
        (((List.range 16).map (16 * g + ·)).filter fun row => a.owns row && !rowSaved s l.id a row).map fun row =>
          ⟨c, row, l.id, a.name, rowValue k row, k.badRows.contains row⟩
    else []

/-- Whether a row group holds nothing but what was left in it: no parked row, no engine row, no row of an actor that stands there. -/
def groupLeft (s : State) (c g : Nat) : Bool :=
  let k := getCore s c
  (List.range 16).all fun n =>
    let row := 16 * g + n
    row < 2048 - k.engine && !rowParked k row && !(actorsOn s c).any fun p => p.2.owns row

/-- VICTIM_CLAIM of a row group (R303): its rows are saved, and it is zero and free; lost data ends the launch of each row (R342). -/
def claimRows (s : State) (c g : Nat) : State :=
  let rows := ownedRows s c g
  let s := (rows.filter (·.bad)).foldl (fun s r => moveFault s r.launch c (BitVec.ofNat 64 (rowData c r.row))) s
  modCore { s with savedRows := s.savedRows ++ rows } c fun k =>
    zeroRows { k with victims := k.victims.filter fun x => x.unit != g } (16 * g) 16

/-- What stands in a frame of a core. -/
def frameHere (s : State) (c f launch : Nat) : SavedFrame :=
  let pa := frameBase c f
  ⟨c, f, launch, memBytes s.mem pa 16384, (List.range 256).map fun n => descOf s (pa + 64 * n),
    (List.range 256).filter fun n => isPoisoned s (pa + 64 * n)⟩

/-- VICTIM_CLAIM of a frame (R303): its mappings are withdrawn, its data and descriptors are saved, and it is zero and free. -/
def claimFrame (s : State) (c f owner : Nat) : State :=
  let pa := frameBase c f
  let r := frameHere s c f owner
  let s := frameFaults s (asidOf s owner) r
  let unmap (k : Cluster) : Cluster := { k with cache := k.cache.filter fun t => !rangesMeet t.pa t.size pa 16384 }
  untagFrame (zeroDescs (zeroRange { s with savedFrames := s.savedFrames ++ [r], clusters := s.clusters.map unmap } pa 16384)
    pa 16384) pa

/-- VICTIM_CLAIM (R303): the contents are saved, the unit is zeroed and free. -/
def execEvVictimClaim (u : ClaimUnit) (s : State) : Out :=
  match u with
  | .rows c g =>
    match (getCore s c).victims.find? fun v => v.unit == g with
    | none => notPermitted "VICTIM_CLAIM"
    | some v => guarded "VICTIM_CLAIM" s (rowsWanted s c g v.launch && groupLeft s c g) (claimRows s c g)
  | .frame c f =>
    match (getCore s c).frames.find? fun v => v.unit == f with
    | none => notPermitted "VICTIM_CLAIM"
    | some v =>
      guarded "VICTIM_CLAIM" s (frameWanted s c f v.launch && !outstanding s (frameBase c f) 16384) (claimFrame s c f v.launch)

/-! ### Eviction (R307) -/

/-- The row groups and frames that only one actor of its context uses on its core. -/
def ownGroups (s : State) (l : Launch) (a : Actor) : List Nat :=
  (rowGroups a.zbase a.zrows).filter fun g => !(actorsOn s a.core).any fun p =>
    !(p.1.id == l.id && p.2.name == a.name) && (rowGroups p.2.zbase p.2.zrows).contains g
def ownFrames (s : State) (l : Launch) (a : Actor) : List Nat :=
  (regionFrames s l.ctx a).filter fun f => !(actorsOn s a.core).any fun p =>
    !(p.1.id == l.id && p.2.name == a.name) && (regionFrames s p.1.ctx p.2).contains f

/-- Whether anything committed to an actor, or by its core for its launch, has still to perform (R307, R305 step 4). -/
def evictionWaits (s : State) (l : Launch) (a : Actor) : Bool :=
  (s.pairs.any fun p => p.undone.any fun k =>
    isFor l.id a.name k || (p.src == coreNode a.core && k.body.launch == some l.id))
  || s.cores.any fun k => k.posts.any fun p => p.launch == l.id && p.name == a.name

/-- EVICTION (R307): first the actor's dispatch stops; then, once no activation of it runs and all that was committed has performed, it
is parked. -/
def execEvEviction (launch name : Nat) (s : State) : Out :=
  match getLaunch s launch with
  | none => notPermitted "EVICTION"
  | some l => match l.actor name with
    | none => notPermitted "EVICTION"
    | some a =>
      if !(l.live && ctxRuns s l.ctx && a.place == .core) then notPermitted "EVICTION"
      else if !a.leaving then guarded "EVICTION" s true (setActor s launch { a with leaving := true })
      else guarded "EVICTION" s (!actorBusy s launch a && !evictionWaits s l a) <|
        let s := saveMessages (victimise s l.id a.core (ownGroups s l a) (ownFrames s l a)) l.id a.core a.lost
        setActor s launch { parkActor true (pauseActor (getCore s a.core).cycle a) with stubs := a.stubs ++ [coreNode a.core] }

/-! ### Restore (R308) -/

/-- A row of an evicted actor, where it stands or as it was saved, and whether it is lost (R342). -/
def actorRow (s : State) (l : Nat) (a : Actor) (row : Nat) : Vec × Bool :=
  match s.savedRows.find? fun r => r.isOf l a row with
  | some r => (r.value, r.bad)
  | none => (rowValue (getCore s a.core) row, (getCore s a.core).badRows.contains row)

/-- A frame of an evicted actor's region on its old core: where the save area keeps it, if it does. -/
def oldSaved (s : State) (l : Launch) (old f : Nat) : Option Nat :=
  (s.savedFrames.findIdx? fun r => r.core == old && r.frame == f && r.launch == l.id).or (savedAt s l.ctx (frameBase old f))
/-- Whether a frame of a core is a victim of a context, or tagged with it. -/
def frameMine (s : State) (ctx c f : Nat) : Bool :=
  frameTagged s c f ctx || (getCore s c).frames.any fun v => v.unit == f && asidOf s v.launch == ctx
/-- What a restore takes over for a frame of the old core, as it was saved or as it stands; none where an earlier restore took it. -/
def oldFrame (s : State) (l : Launch) (old f : Nat) : Option SavedFrame :=
  match (oldSaved s l old f).bind fun i => s.savedFrames[i]? with
  | some r => some r
  | none => if frameMine s l.ctx old f then some (frameHere s old f l.id) else none

/-- The tags of row groups that a launch has left on the core of an actor, without those that only that actor left. -/
def otherTags (l : Launch) (a : Actor) (vs : List Victim) : List Victim :=
  vs.filter fun v => !(v.launch == l.id && (rowGroups a.zbase a.zrows).contains v.unit)
    || l.actors.any fun b => b.name != a.name && b.core == a.core && b.place == .parked && (rowGroups b.zbase b.zrows).contains v.unit

/-- The rows of an evicted actor are its old core's no longer. -/
def forgetUnits (s : State) (l : Launch) (a : Actor) : State :=
  modCore (forgetRows s l a) a.core fun k => { k with victims := otherTags l a k.victims }

/-- A frame that has come over is in the save area no longer, or is free on the old core. -/
def forgetFrame (s : State) (l : Launch) (old f : Nat) : State :=
  match oldSaved s l old f with
  | some i => { s with savedFrames := s.savedFrames.eraseIdx i }
  | none =>
    let s := modCore s old fun k => { k with frames := k.frames.filter fun v => !(v.unit == f && asidOf s v.launch == l.ctx) }
    if frameTagged s old f l.ctx then untagFrame s (frameBase old f) else s

/-- A frame of an evicted actor's region moves, whole, to the frame of the same number of another core (R308). -/
def moveFrame (l : Launch) (old core : Nat) (s : State) (f : Nat) : State :=
  match oldFrame s l old f with
  | none => s
  | some r => ownFrame (putFrame (frameFaults (forgetFrame s l old f) l.ctx r) (frameBase core f) r) l.ctx (frameBase core f)

/-- An evicted actor's rows and frames move to another core (R308); what is lost of them stays poisoned and ends its launch (R342). -/
def moveActor (s : State) (l : Launch) (a : Actor) (core : Nat) (ps : List (Nat × Nat)) : State :=
  let rows := (List.range a.zrows).map fun k => (a.zbase + k, actorRow s l.id a (a.zbase + k))
  let bad := (rows.filter fun r => r.2.2).map (·.1)
  let s := (pieceFrames ps).foldl (moveFrame l a.core core) (forgetUnits s l a)
  let s := bad.foldl (fun s r => moveFault s l.id a.core (BitVec.ofNat 64 (rowData a.core r))) s
  modCore s core fun k =>
    let k := setRows k a.zbase (rows.map fun r => r.2.1)
    { k with badRows := k.badRows ++ bad }

/-- R302, R303: whether a frame of a core is free for what a restore brings to it: it holds nothing, or nothing is brought. -/
def frameFree (s : State) (l : Launch) (old core f : Nat) : Bool :=
  !frameHeld s core l.ctx f
    && (!frameMine s l.ctx core f || (oldFrame s l old f).isNone) && !(getCore s core).frames.any fun v => v.unit == f

/-- Whether a core can take an evicted actor: a launch slot, an actor entry, handler entries, the engine range and its row
numbers, in which no row of another actor stands that has not been saved (R303, R308). -/
def restorable (s : State) (l : Launch) (a : Actor) (core : Nat) : Bool :=
  let k := getCore s core
  let others (x : Launch) : Bool := x.id != l.id
  (k.residents.any (fun r => r.launch == l.id) || k.residents.length < 8)
    && (actorsOn s core).length < 64 && handlerEntries s core + a.chans.length ≤ 256
    && engineOpen s core l.id l.ezrows
    && (rowGroups a.zbase a.zrows).all (groupOpen s core l.ctx)
    && (List.range a.zrows).all fun n =>
        !rowOwnedIf s core (a.zbase + n) others
          && !l.actors.any fun b => b.name != a.name && b.core == core && b.owns (a.zbase + n)
              && (b.place == .core || (b.place == .parked && !rowSaved s l.id b (a.zbase + n)))

/-- The actor stands on a core again; its parked mailbox drains and its place is a stub. -/
def restoreActor (s : State) (l : Launch) (a : Actor) (core : Nat) : State :=
  let s := if (getCore s core).residents.any fun r => r.launch == l.id then s else setResident s core ⟨l.id, 0, 0, 0, [], []⟩
  let s := modCore s core fun k => { k with engine := max k.engine l.ezrows }
  drainBox (setActor s l.id (unparkActor (core / 4096) { a with core := core })) l.id a.name a.box.length

/-- RESTORE (R308): an evicted actor comes back on a core; a restore that lacks a unit waits. -/
def execEvRestore (launch name core : Nat) (s : State) : Out :=
  match getLaunch s launch with
  | none => notPermitted "RESTORE"
  | some l => match l.actor name with
    | none => notPermitted "RESTORE"
    | some a =>
      let ok := l.live && ctxRuns s l.ctx && a.place == .parked && a.evicted && core / 4096 == a.core / 4096
        && coreEnabled s core && restorable s l a core
      if core == a.core then
        guarded "RESTORE" s (ok && (regionFrames s l.ctx a).all fun f =>
            !frameHeld s core l.ctx f && !((oldSaved s l core f).isSome && frameMine s l.ctx core f))
          (restoreActor (modCore s core fun k =>
            { k with victims := otherTags l a k.victims,
                     frames := k.frames.filter fun v => !(v.launch == launch && (regionFrames s l.ctx a).contains v.unit) }) l a core)
      else match regionPieces s l.ctx core a.base.toNat a.size with
        | none => notPermitted "RESTORE"
        | some ps =>
          guarded "RESTORE" s (ok && (pieceFrames ps).all (frameFree s l a.core core))
            (restoreActor (moveActor s l a core ps) l a core)

end Sys2Proof.Machine
end

