-- ==== Sys2Proof/Machine/Boot.lean ====
section
/-! DEFINITION. Boot and the boot record (15 R347 to R352), attestation (R353 to R355), power (R356 to R358), the thermal trip
(R359), the coolant limit (R360) and firmware update (R361). -/
namespace Sys2Proof.Machine

/-! ### Flash (R347 to R349) -/

/-- A byte of flash; blank flash reads 0xFF. -/
def flashByte (b : Boot) (a : Nat) : Byte :=
  match findBy (·.1) a b.flash with
  | some p => p.2
  | none => 0xFF
def flashBytes (b : Boot) (a n : Nat) : List Byte := (List.range n).map fun k => flashByte b (a + k)
/-- n bytes of flash as a number, least significant byte first. -/
def flashNat (b : Boot) (a n : Nat) : Nat := (flashBytes b a n).foldr (fun x acc => x.toNat + 256 * acc) 0
def setFlash (b : Boot) (a : Nat) (x : Byte) : Boot :=
  { b with flash := if x = 0xFF then dropBy (·.1) a b.flash else putBy (·.1) (a, x) b.flash }
def putFlash (b : Boot) (a : Nat) : List Byte → Boot
  | [] => b
  | x :: r => putFlash (setFlash b a x) (a + 1) r

/-- Where a set begins and the last byte an image of it may use: 1 A, 2 B. -/
def setBase (set : Nat) : Nat := if set = 2 then 0x10000000 else 0
def setLast (set : Nat) : Nat := if set = 2 then 0x1FFEFFFF else 0x0FFFFFFF

/-- The offset of the boot record. -/
def bootRecord : Nat := 0x1FFF0000
/-- PREF of the record: 0xB5 prefers set B, every other value set A. -/
def recordPref (b : Boot) : Nat := if flashByte b bootRecord = 0xB5 then 2 else 1

/-! ### Images (R348, R350) -/

/-- The load address in the marionette die's SRAM, 0 for an image that stays in flash. -/
def imageLoad (b : Boot) (a : Nat) : Nat := flashNat b (a + 16) 8
def imageBody (b : Boot) (a : Nat) : List Byte := flashBytes b (a + 128) (flashNat b (a + 12) 4)
/-- The images at offsets as they are placed at their load addresses (R348). -/
def placeImages (b : Boot) (as : List Nat) : List (Nat × List Byte) :=
  (as.filter fun a => imageLoad b a != 0).map fun a => (imageLoad b a, imageBody b a)

def imageLength (b : Boot) (a : Nat) : Nat := flashNat b (a + 12) 4
def imageSvn (b : Boot) (a : Nat) : Nat := flashNat b (a + 8) 4
/-- The image after one: at the next 4 KiB boundary. -/
def nextImage (b : Boot) (a : Nat) : Nat := (a + 128 + imageLength b a + 4095) / 4096 * 4096
/-- Header bytes 0 to 63 and the body. -/
def imageText (b : Boot) (a : Nat) : List Byte := flashBytes b a 64 ++ flashBytes b (a + 128) (imageLength b a)

/-- A number as n bytes, least significant first. -/
def toBytes (v : Nat) : Nat → List Byte
  | 0 => []
  | n + 1 => BitVec.ofNat 8 v :: toBytes (v / 256) n

/-- R350: whether the image at an offset, of a set and an expected kind, is valid. -/
def imageValid (b : Boot) (set a kind : Nat) : Bool :=
  let len := imageLength b a
  let svn := imageSvn b a
  let key := flashNat b (a + 32) 32
  flashNat b a 4 = 0x424E5843 && flashNat b (a + 4) 4 = kind && 1 ≤ len && len ≤ 0x04000000 && flashNat b (a + 24) 8 = 0
    && a + 128 + len ≤ setLast set + 1
    && Config.sha512 (toBytes key 32) = b.rooth
    && Config.ed25519Verify (BitVec.ofNat 256 key) (imageText b a) (BitVec.ofNat 512 (flashNat b (a + 64) 64))
    && svn ≤ 64 && b.minsvn ≤ svn

/-- R354: MEAS after an image is measured. -/
def extend (meas : BitVec 512) (text : List Byte) : BitVec 512 :=
  Config.sha512 (toBytes meas.toNat 64 ++ toBytes (Config.sha512 text).toNat 64)

/-- R353: the seed of the identity key: CXN-ID in ASCII follows the secret. -/
def identitySeed (b : Boot) : BitVec 256 :=
  (Config.sha512 (toBytes b.secret.toNat 32 ++ [0x43, 0x58, 0x4E, 0x2D, 0x49, 0x44])).setWidth 256

/-- R351 steps 2 to 4: the set that boots, its measurements, or BOOTFAIL. -/
def bootImages (b : Boot) : Boot :=
  let pref := recordPref b
  let other := 3 - pref
  let fw (set : Nat) : Bool := imageValid b set (setBase set) 1
  let b := { b with pref := pref, meas := 0, quote := [], degraded := false, svns := [0, 0, 0], loaded := [] }
  if !fw pref && !fw other then { b with state := .bootfail }
  else
    let set := if fw pref then pref else other
    let a1 := setBase set
    let a2 := nextImage b a1
    let a3 := nextImage b a2
    let b := { b with booted := set, identity := Config.ed25519Public (identitySeed b), meas := extend 0 (imageText b a1),
                      svns := [imageSvn b a1, imageSvn b a2, imageSvn b a3], loaded := placeImages b [a1] }
    if imageValid b set a2 2 && imageValid b set a3 3 then
      { b with state := .running, meas := extend (extend b.meas (imageText b a2)) (imageText b a3), loaded := placeImages b [a1, a2] }
    else { b with state := .bootfail }

/-! ### The compute dies at boot (R341, R351 steps 5 and 6) -/

/-- Failed logical clusters of a die take the working spares, physical clusters 32 and 33, in rising order. -/
def assignSpares : List Nat → List Nat → List (Nat × Nat)
  | l :: ls, p :: ps => (l, p) :: assignSpares ls ps
  | _, _ => []

/-- A die after boot: what R343 keeps, and the reset values of the rest. -/
def bootDie (d : Die) : Die :=
  let bad := (List.range 32).filter d.failed.contains
  let spare := [32, 33].filter fun p => !d.failed.contains p
  let m := assignSpares bad spare
  { Die.reset d.id with ring := d.ring, head := d.head, wraps := d.wraps, seqs := d.seqs, failed := d.failed, spares := m,
                        off := bad.drop m.length }

/-- Clusters of a die that are enabled (R341, R355). -/
def Die.enabled (d : Die) : Nat := 32 - d.off.length

/-- The event of each spare enabled. Physical clusters 32 and 33 do not fit the five bits of the field: its low five bits are written
(R343 does not say; DESIGN CHOICE, log 94). -/
def recordSpares (s : State) : List (Nat × Nat) → State
  | [] => s
  | (l, p) :: r => recordSpares (musicFirmware s 0xC (BitVec.ofNat 64 (l + p % 32 * 32))) r

/-- R351 step 7: the module joins the domain tree; the first generation of its routes is installed (R326, R327). -/
def joinTree (s : State) : State := musicFirmware { installRoutes s with generation := 1 } 0xB 1

/-- The arithmetic clock in P1 that the firmware sets (log 7). -/
def p1Clock (n : Nat) : Nat := 250 + 25 * (Config.p1Steps n % 31)

/-- Power after a boot: P0, or P1 while the coolant is poor (R357, R360). -/
def bootPower (s : State) : Power :=
  let p := { State.reset.power with hot := s.power.hot, coolant := s.power.coolant, limit := s.power.limit }
  if p.coolant then { p with state := 1, clk := p1Clock s.free, goal := p1Clock s.free } else p

/-- R351: the module after a power-on or reset. What is kept: flash and fuses, the music box, the domain it stands in, its
environment. -/
def bootModule (s : State) : State :=
  let b := bootImages s.boot
  let s0 := { State.reset with module := s.module, modules := s.modules, domain := s.domain, agenda := s.agenda, free := s.free + 1,
                               power := bootPower s }
  let ids := [0, 1, 2, 3]
  if b.state != .running then
    { s0 with boot := b, dies := ids.map fun d =>
        { Die.reset d with ring := (getDie s d).ring, head := (getDie s d).head, wraps := (getDie s d).wraps,
                           seqs := (getDie s d).seqs, failed := (getDie s d).failed } }
  else
    let ds := ids.map fun d => bootDie (getDie s d)
    let s1 := { s0 with boot := { b with degraded := ds.any fun d => d.enabled < 32 }, dies := ds }
    joinTree (recordSpares s1 (ds.flatMap (·.spares)))

/-- RESET (R351). -/
def execEvReset (s : State) : Out := .next (bootModule s)

/-! ### The boot record, MINSVN and quotes (R349, R352, R355) -/

/-- BOOTSEL (R349): PREF 1 or 2 rewrites the record; 0 and 3 leave it. -/
def execEvBootsel (val : BitVec 64) (s : State) : Out :=
  let p := val.toNat % 4
  command "BOOTSEL" s true
    (if p = 1 || p = 2 then { s with boot := { setFlash s.boot bootRecord (if p = 2 then 0xB5 else 0xFF) with pref := p } } else s)

/-- MINSVN_RAISE (R352): a raise beyond the lowest SVN of the booted set is refused and blows nothing. -/
def execEvMinsvnRaise (n : Nat) (s : State) : Out :=
  command "MINSVN_RAISE" s true
    (if s.boot.svns.all (fun v => s.boot.minsvn < v && n ≤ v) && s.boot.minsvn < n then { s with boot := { s.boot with minsvn := n } }
     else s)

/-- The quote's first 176 bytes (R355). -/
def quoteBody (s : State) (nonce : BitVec 256) : List Byte :=
  toBytes nonce.toNat 32 ++ toBytes s.boot.meas.toNat 64 ++ toBytes s.boot.minsvn 4
    ++ s.boot.svns.map (fun v => BitVec.ofNat 8 (min v 255)) ++ [0]
    ++ [0, 1, 2, 3].flatMap (fun d => toBytes (getDie s d).enabled 2)
    ++ toBytes s.boot.identity.toNat 32 ++ toBytes 0 32

/-- QUOTE_REQUEST (R355). -/
def execEvQuoteRequest (nonce : BitVec 256) (s : State) : Out :=
  let q := quoteBody s nonce
  command "QUOTE_REQUEST" s true
    { s with boot := { s.boot with quote := q ++ toBytes (Config.ed25519Sign (identitySeed s.boot) q).toNat 64 } }

/-- FIRMWARE_UPDATE (R361): only the image set that did not boot is written. -/
def execEvFirmwareUpdate (offset : Nat) (bytes : List Byte) (s : State) : Out :=
  let set := 3 - s.boot.booted
  command "FIRMWARE_UPDATE" s (setBase set ≤ offset && offset + bytes.length ≤ setLast set + 1)
    { s with boot := putFlash s.boot offset bytes }

/-! ### Power (R356 to R358) -/

/-- A request that is accepted starts a transition, to an arithmetic clock that the firmware sets in P1. While the coolant is poor the
firmware keeps the module in P1: a request of P0 leads there (R360; log 95). -/
def startMove (s : State) (req : Nat) (m : PowerMove) : State :=
  let m := if m == .toP0 && s.power.coolant then .toP1 else m
  let goal := match m with
    | .toP0 => 1000
    | .toP1 => p1Clock s.free
    | .toP2 => 0
  { s with power := { s.power with req := req, moving := some m, goal := goal, refused := false }, free := s.free + 1 }
def refuse (s : State) : State := { s with power := { s.power with refused := true } }

/-- A write of REQ: refused while BUSY or TRIP, else as the state allows. -/
def request (event : String) (s : State) (f : State) : Out :=
  if s.boot.state == .bootfail then notPermitted event
  else .next (if s.power.trip || s.power.moving.isSome then refuse s else f)

/-- PCTL_REQ_P0 (R358): from P1 and P2 the clocks change; from P3 the module boots. -/
def execEvPctlReqP0 (s : State) : Out :=
  request "PCTL_REQ_P0" s
    (if s.power.state = 3 then bootModule s
     else if (s.power.state = 1 && !s.power.coolant) || s.power.state = 2 then startMove s 0 .toP0
     else refuse s)

/-- PCTL_REQ_P1 (R358). -/
def execEvPctlReqP1 (s : State) : Out :=
  request "PCTL_REQ_P1" s (if s.power.state = 0 || s.power.state = 2 then startMove s 1 .toP1 else refuse s)

/-- PCTL_REQ_P2 (R358): new dispatch stops; the transition waits for the pre-emption of every running context. -/
def execEvPctlReqP2 (s : State) : Out :=
  request "PCTL_REQ_P2" s (if s.power.state = 0 || s.power.state = 1 then startMove s 2 .toP2 else refuse s)

/-- PCTL_REQ_P3 (R358): from P2 the power is removed; only the music box, flash and fuses are kept. -/
def execEvPctlReqP3 (s : State) : Out :=
  request "PCTL_REQ_P3" s
    (if s.power.state = 2 then
      let s0 := { State.reset with module := s.module, modules := s.modules, domain := s.domain, agenda := s.agenda, free := s.free,
                                   boot := { s.boot with state := .off, loaded := [] },
                                   power := { s.power with state := 3, req := 3, clk := 0, goal := 0, refused := false } }
      { s0 with dies := s.dies.map fun d =>
          { Die.reset d.id with ring := d.ring, head := d.head, wraps := d.wraps, seqs := d.seqs, failed := d.failed } }
     else refuse s)

/-- A new cap for P1: the clocks change to what holds it. -/
def newCap (s : State) : State :=
  if s.power.moving == some .toP1 || (s.power.state = 1 && s.power.moving.isNone) then
    { s with power := { s.power with moving := some .toP1, goal := p1Clock s.free }, free := s.free + 1 }
  else s

/-- PCTL_CAP (R357, R358): a cap in range is taken; in P1 the clocks change to it. The register is there in P3 too. -/
def execEvPctlCap (cap : Nat) (s : State) : Out :=
  if s.boot.state == .bootfail then notPermitted "PCTL_CAP"
  else .next (if s.power.trip || cap < 800 || 3400 < cap then s else newCap { s with power := { s.power with cap := cap } })

/-- One step of 25 MHz of the arithmetic clock toward a goal. -/
def stepClock (clk goal : Nat) : Nat := if clk < goal then min goal (clk + 25) else max goal (clk - 25)

/-- R358: between P0 and P1, and for a new cap, the clock changes by steps; none where no change is under way. -/
def clockStep (s : State) : Option State :=
  if clocksRun s && s.power.clk != s.power.goal && (s.power.moving == some .toP0 || s.power.moving == some .toP1) then
    some { s with power := { s.power with clk := stepClock s.power.clk s.power.goal } }
  else none

/-- R358: in P1 the firmware lowers the clock by a step when the measured power is above the cap. -/
def lowerClock (s : State) : Option State :=
  if clocksRun s && s.power.state = 1 && s.power.moving.isNone && 275 ≤ s.power.clk then
    some { s with power := { s.power with clk := s.power.clk - 25, goal := s.power.clk - 25 } }
  else none

/-- TRANSITION_COMPLETE (R358): BUSY clears and the state is the one requested, once the clock has come to its goal; clocks that stood
start at it. -/
def execEvTransitionComplete (s : State) : Out :=
  let there : Bool := s.power.state = 2 || s.power.clk = s.power.goal
  let arrive (st : Nat) : Out :=
    if there then .next { s with power := { s.power with moving := none, state := st, clk := s.power.goal } }
    else notPermitted "TRANSITION_COMPLETE"
  if s.power.trip then notPermitted "TRANSITION_COMPLETE"
  else match s.power.moving with
  | some .toP0 => arrive 0
  | some .toP1 => arrive 1
  | some .toP2 =>
    if s.contexts.any (·.running) then notPermitted "TRANSITION_COMPLETE"
    else .next { s with power := { s.power with moving := none, state := 2, clk := 0 } }
  | none => notPermitted "TRANSITION_COMPLETE"

/-! ### The thermal trip and the coolant limit (R359, R360) -/

/-- The last reading of a sensor at 95 degrees or above. -/
def reading (s : State) (sensor : Nat) : Nat := match findBy (·.1) sensor s.power.hot with | some p => p.2 | none => 0

/-- The source and the die of a sensor's records: the sensor block of a compute die, or the firmware for the marionette die. -/
def sensorRecord (s : State) (sensor : Nat) : State :=
  if sensor < 16 then music s (sensor / 4) (2 * 4096 + sensor / 4 * 1024 + 4) 0xA (BitVec.ofNat 64 sensor)
  else musicFirmware s 0xA (BitVec.ofNat 64 sensor)

/-- THERMAL_TRIP (R359): a sensor reads 105 degrees or more. -/
def execEvThermalTrip (sensor : Nat) (s : State) : Out :=
  if sensor < 20 && 105 ≤ reading s sensor && !s.power.trip && s.power.state != 3 && managed s then
    let s := sensorRecord s sensor
    .next { s with power := { s.power with trip := true, state := 2, clk := 0, goal := 0, moving := none, alert := true } }
  else notPermitted "THERMAL_TRIP"

/-- TRIP (R357): writing 1 clears TRIP once every sensor reads below the resume limit. The register is there in P3 too. -/
def execEvTrip (s : State) : Out :=
  if s.boot.state == .bootfail then notPermitted "TRIP"
  else .next (if s.power.hot.all fun p => p.2 < 95 then { s with power := { s.power with trip := false, alert := false } } else s)

/-- REFUSED (R357): writing 1 clears it. -/
def execEvRefused (s : State) : Out :=
  if s.boot.state == .bootfail then notPermitted "REFUSED"
  else .next (if s.power.trip then s else { s with power := { s.power with refused := false } })

/-- COOLANT_LIMIT (R360): below 3 L/min, or above 40 degrees at the inlet, the firmware keeps the module in P1, at a cap that holds the
sensors below 95 degrees. -/
def execEvCoolantLimit (flow inlet : Nat) (s : State) : Out :=
  command "COOLANT_LIMIT" s (flow < 3 || 40 < inlet)
    (let s := { s with power := { s.power with coolant := true, limit := 800 + Config.coolantCap s.free % 2601 }, free := s.free + 1 }
     if (s.power.state = 0 && s.power.moving.isNone) || s.power.moving == some .toP0 then
       { s with power := { s.power with moving := some .toP1, goal := p1Clock s.free }, free := s.free + 1 }
     else newCap s)

end Sys2Proof.Machine
end

