-- ==== Sys2Proof/Machine/System.lean ====
section
/-! DEFINITION. CSR instructions (05 R116, R117) and the system instructions (R118 to R122). -/
namespace Sys2Proof.Machine

/-- The code of a scope in oscope and f3 (R36, R239). -/
def scopeCode : Scope → Nat
  | .thread => 0
  | .core => 1
  | .cluster => 2
  | .die => 3
  | .module => 4
  | .domain => 5

/-- The scope of a code, if it is one. -/
def scopeOf : Nat → Option Scope
  | 0 => some .thread
  | 1 => some .core
  | 2 => some .cluster
  | 3 => some .die
  | 4 => some .module
  | 5 => some .domain
  | _ => none

/-- zfree of R36: the lowest free row and the number of free rows. -/
def zfreeValue (s : State) (c : Nat) : Word :=
  let f := freeRows s c
  BitVec.ofNat 64 ((f.headD 0x800) * 2 ^ 16 + f.length)

/-- chan of R36. -/
def chanValue (sl : Slot) : Word :=
  BitVec.ofNat 64 ((if sl.task then 2 ^ 16 else 0) + sl.cls % 8 * 2 ^ 8 + sl.chan % 16)

/-- The value of a CSR by its number (R34, R36), read in a settled slot. -/
def csrRead (s : State) (c : Nat) (i : Fin 4) (sl : Slot) (n : Nat) : Word :=
  if n = 0x001 then sl.fflags.setWidth 64
  else if n = 0x002 then sl.frm.setWidth 64
  else if n = 0x003 then (if sl.chk then 1 else 0)
  else if n = 0x004 then BitVec.ofNat 64 (scopeCode sl.oscope)
  else if n = 0xC00 then BitVec.ofNat 64 (c % 2 ^ 24)
  else if n = 0xC01 then BitVec.ofNat 64 i.val
  else if n = 0xC02 then BitVec.ofNat 64 (sl.actor % 2 ^ 32)
  else if n = 0xC03 then chanValue sl
  else if n = 0xC04 then sl.msgid
  else if n = 0xC05 then BitVec.ofNat 64 (sl.launch % 2 ^ 32)
  else if n = 0xC06 then BitVec.ofNat 64 (sl.ctx % 2 ^ 13)
  else if n = 0xC07 then (getResident s c sl.launch).tagdone
  else if n = 0xC08 then zfreeValue s c
  else if n = 0xC09 then (getResident s c sl.launch).cmask.setWidth 64
  else if n = 0xC0A then BitVec.ofNat 64 (sl.budget % 2 ^ 25)
  else if n = 0xC0B then BitVec.ofNat 64 (progBits sl)
  else if n = 0xC0C then sl.cause.setWidth 64
  else if n = 0xC0D then sl.epc
  else if n = 0xC0E then sl.tval
  else 0

/-- A write of one of the four writable CSRs, field by field (R36, R117). -/
def csrWrite (sl : Slot) (n : Nat) (v : Word) : Slot :=
  if n = 0x001 then { sl with fflags := v.setWidth 5 }
  else if n = 0x002 then (if v.toNat % 8 ≤ 4 then { sl with frm := v.setWidth 3 } else sl)
  else if n = 0x003 then { sl with chk := v.getLsbD 0 }
  else if n = 0x004 then
    match scopeOf (v.toNat % 8) with
    | some x => { sl with oscope := x }
    | none => sl
  else sl

/-- The word of a CSR instruction, for tval. -/
def csrWord (major : BitVec 7) (sc : BitVec 2) (immSrc : Bool) (csr : BitVec 12) (a d : BitVec 5) : Word :=
  (sc ++ BitVec.ofBool immSrc ++ csr ++ a ++ d ++ major : BitVec 32).setWidth 64

/-- A CSR instruction (R116). writes is decided from the field. -/
def csrOp (major : BitVec 7) (writes : Bool) (f : Word → Word → Word) (sc : BitVec 2) (immSrc : Bool)
    (csr : BitVec 12) (a d : BitVec 5) (s : State) : Out :=
  if !csrAssigned csr || (writes && csrReadOnly csr) then
    onSlot s fun s c i sl => takeTrap s c i causeILLEGAL (csrWord major sc immSrc csr a d) sl.pc
  else
    issue s (if immSrc then [] else [xr a]) [xr d] fun s c i sl =>
      if csr = 1 && sl.locals.any (·.fp) then stallSlot s c i .flags
      else
        let old := csrRead s c i sl csr.toNat
        let v := if immSrc then a.setWidth 64 else sl.rx a
        let sl := if writes then csrWrite sl csr.toNat (f old v) else sl
        retire (setSlot s c i (sl.writeFix (xr d) (ofWord old) 1)) c i sc.toNat (sl.pc + 4)

def execCsrrw (sc : BitVec 2) (immSrc : Bool) (csr : BitVec 12) (a d : BitVec 5) (s : State) : Out :=
  csrOp 0x25#7 true (fun _ v => v) sc immSrc csr a d s
def execCsrrs (sc : BitVec 2) (immSrc : Bool) (csr : BitVec 12) (a d : BitVec 5) (s : State) : Out :=
  csrOp 0x26#7 (a != 0) (fun old v => old ||| v) sc immSrc csr a d s
def execCsrrc (sc : BitVec 2) (immSrc : Bool) (csr : BitVec 12) (a d : BitVec 5) (s : State) : Out :=
  csrOp 0x27#7 (a != 0) (fun old v => old &&& ~~~v) sc immSrc csr a d s

/-! ### System instructions -/

/-- Clocks until the last pending fixed-latency write is visible. -/
def pendingClocks (clock : Nat) : List PendFix → Nat
  | [] => 0
  | p :: r => max (p.vis - clock) (pendingClocks clock r)

/-- R119 step 1: what an ECALL or EBREAK waits for. -/
def serviceWait (sl : Slot) : Option Stall :=
  if sl.interlocked.any (fun r => r.file != .k) then some .blocked
  else if sl.accs.any (·.store) then some .earlier
  else none

/-- R119 step 1: once nothing is waited for, the clock moves to the last pending write. -/
def afterPending (s : State) (c : Nat) (i : Fin 4) (sl : Slot) : State :=
  let n := pendingClocks sl.clock sl.pend
  passCycles (setSlot s c i { sl with clock := sl.clock + n }.settle) c n

/-- R119 step 1 for an ECALL or EBREAK: it waits, or its clock comes to the last pending write; where the budget ends in that wait the
activation traps BUDGET (R37). -/
def issueService (s : State) (f : State → Nat → Fin 4 → Slot → State) : Out :=
  issue s [] [] fun s c i sl =>
    match serviceWait sl with
    | some w => stallSlot s c i w
    | none =>
      let s := afterPending s c i sl
      let t := getSlot s c i
      if countsBudget t && t.budget == 0 then budgetTrap s c i else f s c i t

/-- The request that an ECALL delivers (R119 step 3): a7 is x12 and a0 to a5 are x5 to x10 (R13). -/
def ecallRequest (c : Nat) (i : Fin 4) (sl : Slot) : EcallRequest :=
  ⟨c, i, sl.getX 12, (List.range 6).map fun k => sl.getX (5 + k), sl.actor, sl.msgid, sl.launch, sl.ctx⟩

/-- ECALL (R119): the request is delivered and the activation waits for the service. The cycle in which an ECALL or EBREAK issues
passes with the wait begun and does not count against the budget (R37 does not say; DESIGN CHOICE, log 69). -/
def execEcall (s : State) : Out :=
  issueService s fun s c i t =>
    if t.inDebug then takeTrap s c i causeECALL 0 t.pc
    else
      let s := { s with requests := s.requests ++ [ecallRequest c i t] }
      passCycles (setSlot s c i { holdSlot t .ecall causeECALL t.pc 0 with clock := t.clock + 1, pc := t.pc + 4 }) c 1

/-- EBREAK (R120): it halts for an attached debugger, else it is fatal. Reached under a STEP it halts with the values of R120, not those
that R346 gives a STEP, and the step is done (DESIGN CHOICE, log 70); its own cycle is as for ECALL (log 69). -/
def execEbreak (s : State) : Out :=
  issueService s fun s c i t =>
    let attached := match getLaunch s t.launch with | some l => l.attached | none => false
    if t.inDebug || !attached then takeTrap s c i causeEBREAK 0 t.pc
    else
      passCycles (setSlot s c i
        { holdSlot t .halted causeEBREAK t.pc 0 with clock := t.clock + 1, pc := t.pc + 4, oneStep := false }) c 1

/-- TRET (R121): the end of debug execution; elsewhere ILLEGAL. Its own cycle counts against the budget (DESIGN CHOICE, log 69). -/
def execTret (s : State) : Out :=
  issue s [] [] fun s c i sl =>
    if sl.inDebug then
      passCycles (setSlot s c i { returnFromDebug sl with clock := sl.clock + 1 }) c 1
    else takeTrap s c i causeILLEGAL 0x00800028 sl.pc

/-- HEND (R122): budget stops and the wait of step 2 begins; the commits and the end are COMMIT moves. As a word of debug execution it
ends the activation and drops the words after it (DESIGN CHOICE, log 71). -/
def execHend (s : State) : Out :=
  issue s [] [] fun s c i sl =>
    setSlot s c i { sl with status := .hend, stall := none, inDebug := false, dbgWords := [], waited := 0 }

end Sys2Proof.Machine
end

