-- ==== Sys2Proof/Machine/Debug.lean ====
section
/-! DEFINITION. Debugging a running launch (14 R344 to R346), and the traps of a word that is no instruction (03 R75) and of a
fetch outside the text (05 R115). -/
namespace Sys2Proof.Machine

/-! ### Decode and fetch traps -/

/-- ILLEGAL (R75, R76): the word at the current slot's pc is no instruction. -/
def execEvIllegal (w : BitVec 32) (s : State) : Out :=
  onSlot s fun s c i sl => takeTrap s c i causeILLEGAL (w.setWidth 64) sl.pc

/-- FETCH_OUTSIDE_TEXT (R115): the current slot's pc lies outside the launch's text; epc and tval are that address. -/
def execEvFetchOutsideText (s : State) : Out :=
  onSlot s fun s c i sl => takeTrap s c i causeACCESS sl.pc sl.pc

/-! ### The debugger's launch -/

/-- DEBUGGER_ATTACH (R120, R344): a debugger attaches to a launch whose context has granted it access. -/
def execEvDebuggerAttach (launch : Nat) (s : State) : Out :=
  match getLaunch s launch with
  | none => notPermitted "DEBUGGER_ATTACH"
  | some l => command "DEBUGGER_ATTACH" s (l.granted && l.holds) (setLaunch s { l with attached := true })

def attached (s : State) (l : Nat) : Bool := match getLaunch s l with | some x => x.attached && x.holds | none => false

/-- The slot of an actor's halted activation. -/
def haltedSlot (s : State) (l name : Nat) : Option (Nat × Fin 4) :=
  (getActor s l name).bind fun a => (slotOfActor s l a).bind fun i =>
    if (getSlot s a.core i).status == .halted then some (a.core, i) else none

/-! ### Halting (R345) -/

/-- HALT: the actor's dispatch is masked. -/
def execEvHalt (launch name : Nat) (s : State) : Out :=
  match getActor s launch name with
  | some a => command "HALT" s (attached s launch) (setActor s launch { a with halted := true })
  | none => notPermitted "HALT"

/-- Whether a running activation stands at an instruction boundary with what it issued completed, a wait for tags included (R345). -/
def atBoundary (sl : Slot) : Bool :=
  sl.status == .running && !sl.inDebug && !sl.oneStep && !sl.active && !sl.claimed && sl.stall != some .tagWait
    && sl.accs.isEmpty && sl.locals.isEmpty && sl.mats.isEmpty

/-- HALTREQ: the activation of a halted actor halts at its next instruction. A token granted to that instruction comes back
(R246). -/
def execEvHaltreq (c : Nat) (sl : Fin 4) (s : State) : Out :=
  let x := getSlot s c sl
  let masked := match getActor s x.launch x.actor with | some a => a.halted | none => false
  guarded "HALTREQ" s (masked && atBoundary x) (dropToken (setSlot s c sl (holdSlot x .halted causeHALTREQ x.pc 0)) c sl)

/-- RESUME: dispatch is unmasked, and a halted activation goes on at epc. After a STEP over HEND the next activation still halts before
its first instruction (R346). -/
def execEvResume (launch name : Nat) (s : State) : Out :=
  match getActor s launch name with
  | none => notPermitted "RESUME"
  | some a =>
    let t := setActor s launch { a with halted := false }
    command "RESUME" s (attached s launch) (match haltedSlot t launch name with
      | some (c, i) => modSlot t c i returnFromDebug
      | none => t)

/-- STEP (R346): the halted activation issues one instruction and halts again. -/
def execEvStep (launch name : Nat) (s : State) : Out :=
  match haltedSlot s launch name with
  | some (c, i) =>
    command "STEP" s (attached s launch) (modSlot s c i fun sl => { returnFromDebug sl with oneStep := true })
  | none => notPermitted "STEP"

/-! ### Breakpoints (R346) -/

/-- BREAK: breakpoint n of a core is set. -/
def execEvBreak (launch c n : Nat) (addr : Word) (name : Nat) (s : State) : Out :=
  command "BREAK" s (attached s launch && decide (n < 4))
    (modCore s c fun k => { k with breaks := putBy (·.n) ⟨n, addr, launch, name⟩ k.breaks })

/-- UNBREAK: breakpoint n of a core is cleared. -/
def execEvUnbreak (launch c n : Nat) (s : State) : Out :=
  command "UNBREAK" s (attached s launch && decide (n < 4))
    (modCore s c fun k => { k with breaks := k.breaks.filter fun b => !(b.n == n && b.launch == launch) })

/-- The breakpoint that an activation has reached. -/
def reached (k : Core) (sl : Slot) : Option Breakpoint :=
  k.breaks.find? fun b => b.addr == sl.pc && b.launch == sl.launch && (b.actor == 0 || b.actor == sl.actor)

/-- BREAKPOINT: the activation halts before the instruction at the address issues. -/
def execEvBreakpoint (c : Nat) (sl : Fin 4) (s : State) : Out :=
  let x := getSlot s c sl
  match reached (getCore s c) x with
  | some b =>
    guarded "BREAKPOINT" s (x.status == .running && !x.inDebug && !x.passBreak && !x.active)
      (dropToken (setSlot s c sl { holdSlot x .halted causeEBREAK x.pc (BitVec.ofNat 64 (0x100 + b.n)) with oneStep := false }) c sl)
  | none => notPermitted "BREAKPOINT"

/-! ### Registers and debug execution -/

/-- The value that READ gives, with the writes that are visible at the slot's clock made. -/
def dbgRead (s : State) (c : Nat) (i : Fin 4) (sl : Slot) : DbgReg → Vec
  | .x n => ofWord (sl.getX n)
  | .v n => sl.getV n
  | .k n => ofWord (sl.getK n)
  | .csr n => ofWord (csrRead s c i sl n)

/-- WRITE: x, v and k registers, the writable CSRs and epc, from which the activation goes on. Any value of epc is taken, one that is no
multiple of 4 too (R120 does not say; DESIGN CHOICE, log 72). -/
def dbgWrite (sl : Slot) (r : DbgReg) (v : Vec) : Slot :=
  match r with
  | .x n => sl.setReg ⟨.x, n⟩ v
  | .v n => sl.setReg ⟨.v, n⟩ v
  | .k n => sl.setReg ⟨.k, n⟩ v
  | .csr n => if n = 0xC0D then { sl with epc := v.setWidth 64, pc := v.setWidth 64 } else csrWrite sl n (v.setWidth 64)

/-- Whether a name is a register of the slot or a CSR; w asks whether WRITE may name it. -/
def dbgNames (w : Bool) : DbgReg → Bool
  | .x n => decide (n < 32)
  | .v n => decide (n < 32)
  | .k n => decide (n < 8)
  | .csr n => decide (n < 4096) && csrAssigned (BitVec.ofNat 12 n) && (!w || n == 0xC0D || !csrReadOnly (BitVec.ofNat 12 n))

/-- READ (R344). -/
def execEvRead (launch name : Nat) (r : DbgReg) (s : State) : Out :=
  match haltedSlot s launch name with
  | some (c, i) =>
    command "READ" s (attached s launch && dbgNames false r) { s with dbgOut := dbgRead s c i (getSlot s c i).settle r }
  | none => notPermitted "READ"

/-- WRITE (R344). -/
def execEvWrite (launch name : Nat) (r : DbgReg) (val : Vec) (s : State) : Out :=
  match haltedSlot s launch name with
  | some (c, i) =>
    command "WRITE" s (attached s launch && dbgNames true r) (setSlot s c i (dbgWrite (getSlot s c i).settle r val))
  | none => notPermitted "WRITE"

/-- EXEC (R344, R121): up to 16 words run in the halted slot. -/
def execEvExec (launch name : Nat) (words : List (BitVec 32)) (s : State) : Out :=
  match haltedSlot s launch name with
  | some (c, i) =>
    command "EXEC" s (attached s launch && decide (1 ≤ words.length && words.length ≤ 16))
      (modSlot s c i fun sl => { returnFromDebug sl with inDebug := true, dbgWords := words, passBreak := sl.passBreak })
  | none => notPermitted "EXEC"

/-- A slot once its debugger is gone: halted, or among debug words, it goes on at its resume point; a step ends (R344). -/
def freeSlot (s : State) (c : Nat) (i : Fin 4) : State :=
  let sl := getSlot s c i
  if sl.inDebug then
    dropToken (setSlot s c i { returnFromDebug sl with card := none, claimed := false, oneStep := false }) c i
  else if sl.status == .halted then setSlot s c i { returnFromDebug sl with oneStep := false }
  else setSlot s c i { sl with oneStep := false }

/-- DETACH (R344): every breakpoint is cleared and every halted actor resumes. -/
def execEvDetach (launch : Nat) (s : State) : Out :=
  match getLaunch s launch with
  | none => notPermitted "DETACH"
  | some l =>
    let t := setLaunch s { l with attached := false,
                                  actors := l.actors.map fun a => { a with halted := false, firstHalt := false } }
    let t := { t with cores := t.cores.map fun k => { k with breaks := k.breaks.filter fun b => b.launch != launch } }
    command "DETACH" s (attached s launch) ((launchSlots t launch).foldl (fun s x => freeSlot s x.1 x.2) t)

end Sys2Proof.Machine
end

