-- ==== Sys2Proof/Machine/Dispatch.lean ====
section
/-! DEFINITION. One arm per instruction and event: its meaning. -/
namespace Sys2Proof.Machine

/-- What an instruction word issued by the current slot, or an event, does. -/
def exec (i : Instr) (s : State) : Host.Outcome State Fault Refusal :=
  match i with
  | .addi sc imm a d => Sys2Proof.Machine.execAddi sc imm a d s
  | .andi sc imm a d => Sys2Proof.Machine.execAndi sc imm a d s
  | .ori sc imm a d => Sys2Proof.Machine.execOri sc imm a d s
  | .xori sc imm a d => Sys2Proof.Machine.execXori sc imm a d s
  | .slti sc imm a d => Sys2Proof.Machine.execSlti sc imm a d s
  | .sltiu sc imm a d => Sys2Proof.Machine.execSltiu sc imm a d s
  | .slli sc h a d => Sys2Proof.Machine.execSlli sc h a d s
  | .srli sc h a d => Sys2Proof.Machine.execSrli sc h a d s
  | .srai sc h a d => Sys2Proof.Machine.execSrai sc h a d s
  | .rori sc h a d => Sys2Proof.Machine.execRori sc h a d s
  | .lui imm d => Sys2Proof.Machine.execLui imm d s
  | .auipc imm d => Sys2Proof.Machine.execAuipc imm d s
  | .add sc b a d => Sys2Proof.Machine.execAdd sc b a d s
  | .sub sc b a d => Sys2Proof.Machine.execSub sc b a d s
  | .and sc b a d => Sys2Proof.Machine.execAnd sc b a d s
  | .or sc b a d => Sys2Proof.Machine.execOr sc b a d s
  | .xor sc b a d => Sys2Proof.Machine.execXor sc b a d s
  | .andn sc b a d => Sys2Proof.Machine.execAndn sc b a d s
  | .sll sc b a d => Sys2Proof.Machine.execSll sc b a d s
  | .srl sc b a d => Sys2Proof.Machine.execSrl sc b a d s
  | .sra sc b a d => Sys2Proof.Machine.execSra sc b a d s
  | .rol sc b a d => Sys2Proof.Machine.execRol sc b a d s
  | .ror sc b a d => Sys2Proof.Machine.execRor sc b a d s
  | .slt sc b a d => Sys2Proof.Machine.execSlt sc b a d s
  | .sltu sc b a d => Sys2Proof.Machine.execSltu sc b a d s
  | .min sc b a d => Sys2Proof.Machine.execMin sc b a d s
  | .max sc b a d => Sys2Proof.Machine.execMax sc b a d s
  | .minu sc b a d => Sys2Proof.Machine.execMinu sc b a d s
  | .maxu sc b a d => Sys2Proof.Machine.execMaxu sc b a d s
  | .mul sc b a d => Sys2Proof.Machine.execMul sc b a d s
  | .mulh sc b a d => Sys2Proof.Machine.execMulh sc b a d s
  | .mulhu sc b a d => Sys2Proof.Machine.execMulhu sc b a d s
  | .mulhsu sc b a d => Sys2Proof.Machine.execMulhsu sc b a d s
  | .div b a d => Sys2Proof.Machine.execDiv b a d s
  | .divu b a d => Sys2Proof.Machine.execDivu b a d s
  | .rem b a d => Sys2Proof.Machine.execRem b a d s
  | .remu b a d => Sys2Proof.Machine.execRemu b a d s
  | .clz sc a d => Sys2Proof.Machine.execClz sc a d s
  | .ctz sc a d => Sys2Proof.Machine.execCtz sc a d s
  | .popc sc a d => Sys2Proof.Machine.execPopc sc a d s
  | .bext sc b a d => Sys2Proof.Machine.execBext sc b a d s
  | .bdep sc b a d => Sys2Proof.Machine.execBdep sc b a d s
  | .sextb sc a d => Sys2Proof.Machine.execSextb sc a d s
  | .sexth sc a d => Sys2Proof.Machine.execSexth sc a d s
  | .sextw sc a d => Sys2Proof.Machine.execSextw sc a d s
  | .rev8 sc a d => Sys2Proof.Machine.execRev8 sc a d s
  | .ldb ord imm a d => Sys2Proof.Machine.execLdb ord imm a d s
  | .ldh ord imm a d => Sys2Proof.Machine.execLdh ord imm a d s
  | .ldw ord imm a d => Sys2Proof.Machine.execLdw ord imm a d s
  | .ldd ord imm a d => Sys2Proof.Machine.execLdd ord imm a d s
  | .ldbu ord imm a d => Sys2Proof.Machine.execLdbu ord imm a d s
  | .ldhu ord imm a d => Sys2Proof.Machine.execLdhu ord imm a d s
  | .ldwu ord imm a d => Sys2Proof.Machine.execLdwu ord imm a d s
  | .stb ord imm b a => Sys2Proof.Machine.execStb ord imm b a s
  | .sth ord imm b a => Sys2Proof.Machine.execSth ord imm b a s
  | .stw ord imm b a => Sys2Proof.Machine.execStw ord imm b a s
  | .std ord imm b a => Sys2Proof.Machine.execStd ord imm b a s
  | .ldtag ord a d => Sys2Proof.Machine.execLdtag ord a d s
  | .sttag ord b a => Sys2Proof.Machine.execSttag ord b a s
  | .amoadd ord scope w64 b a d => Sys2Proof.Machine.execAmoadd ord scope w64 b a d s
  | .amoand ord scope w64 b a d => Sys2Proof.Machine.execAmoand ord scope w64 b a d s
  | .amoor ord scope w64 b a d => Sys2Proof.Machine.execAmoor ord scope w64 b a d s
  | .amoxor ord scope w64 b a d => Sys2Proof.Machine.execAmoxor ord scope w64 b a d s
  | .amomin ord scope w64 b a d => Sys2Proof.Machine.execAmomin ord scope w64 b a d s
  | .amomax ord scope w64 b a d => Sys2Proof.Machine.execAmomax ord scope w64 b a d s
  | .amominu ord scope w64 b a d => Sys2Proof.Machine.execAmominu ord scope w64 b a d s
  | .amomaxu ord scope w64 b a d => Sys2Proof.Machine.execAmomaxu ord scope w64 b a d s
  | .amoswap ord scope w64 b a d => Sys2Proof.Machine.execAmoswap ord scope w64 b a d s
  | .casFailRlx ord scope w64 b a d => Sys2Proof.Machine.execCasFailRlx ord scope w64 b a d s
  | .casFailAcq ord scope w64 b a d => Sys2Proof.Machine.execCasFailAcq ord scope w64 b a d s
  | .casFailSc ord scope w64 b a d => Sys2Proof.Machine.execCasFailSc ord scope w64 b a d s
  | .fence scope kind => Sys2Proof.Machine.execFence scope kind s
  | .jalr imm a d => Sys2Proof.Machine.execJalr imm a d s
  | .jal imm d => Sys2Proof.Machine.execJal imm d s
  | .beq off b a => Sys2Proof.Machine.execBeq off b a s
  | .bne off b a => Sys2Proof.Machine.execBne off b a s
  | .blt off b a => Sys2Proof.Machine.execBlt off b a s
  | .bge off b a => Sys2Proof.Machine.execBge off b a s
  | .bltu off b a => Sys2Proof.Machine.execBltu off b a s
  | .bgeu off b a => Sys2Proof.Machine.execBgeu off b a s
  | .csrrw sc immSrc csr a d => Sys2Proof.Machine.execCsrrw sc immSrc csr a d s
  | .csrrs sc immSrc csr a d => Sys2Proof.Machine.execCsrrs sc immSrc csr a d s
  | .csrrc sc immSrc csr a d => Sys2Proof.Machine.execCsrrc sc immSrc csr a d s
  | .ecall => Sys2Proof.Machine.execEcall s
  | .ebreak => Sys2Proof.Machine.execEbreak s
  | .tret => Sys2Proof.Machine.execTret s
  | .hend => Sys2Proof.Machine.execHend s
  | .vadd sc m w b a d => Sys2Proof.Machine.execVadd sc m w b a d s
  | .vsub sc m w b a d => Sys2Proof.Machine.execVsub sc m w b a d s
  | .vmul sc m w b a d => Sys2Proof.Machine.execVmul sc m w b a d s
  | .vmulh sc m w b a d => Sys2Proof.Machine.execVmulh sc m w b a d s
  | .vmin sc m w b a d => Sys2Proof.Machine.execVmin sc m w b a d s
  | .vmax sc m w b a d => Sys2Proof.Machine.execVmax sc m w b a d s
  | .vminu sc m w b a d => Sys2Proof.Machine.execVminu sc m w b a d s
  | .vmaxu sc m w b a d => Sys2Proof.Machine.execVmaxu sc m w b a d s
  | .vand sc m w b a d => Sys2Proof.Machine.execVand sc m w b a d s
  | .vor sc m w b a d => Sys2Proof.Machine.execVor sc m w b a d s
  | .vxor sc m w b a d => Sys2Proof.Machine.execVxor sc m w b a d s
  | .vandn sc m w b a d => Sys2Proof.Machine.execVandn sc m w b a d s
  | .vshl sc m w b a d => Sys2Proof.Machine.execVshl sc m w b a d s
  | .vshr sc m w b a d => Sys2Proof.Machine.execVshr sc m w b a d s
  | .vshra sc m w b a d => Sys2Proof.Machine.execVshra sc m w b a d s
  | .vpopc sc m w a d => Sys2Proof.Machine.execVpopc sc m w a d s
  | .vfadd sc m f b a d => Sys2Proof.Machine.execVfadd sc m f b a d s
  | .vfsub sc m f b a d => Sys2Proof.Machine.execVfsub sc m f b a d s
  | .vfmul sc m f b a d => Sys2Proof.Machine.execVfmul sc m f b a d s
  | .vfdiv m f b a d => Sys2Proof.Machine.execVfdiv m f b a d s
  | .vfmin sc m f b a d => Sys2Proof.Machine.execVfmin sc m f b a d s
  | .vfmax sc m f b a d => Sys2Proof.Machine.execVfmax sc m f b a d s
  | .vfsqrt sc m f a d => Sys2Proof.Machine.execVfsqrt sc m f a d s
  | .vfabs sc m a d => Sys2Proof.Machine.execVfabs sc m a d s
  | .vfma sc m f b a d => Sys2Proof.Machine.execVfma sc m f b a d s
  | .vfms sc m f b a d => Sys2Proof.Machine.execVfms sc m f b a d s
  | .vfnma sc m f b a d => Sys2Proof.Machine.execVfnma sc m f b a d s
  | .vfnms sc m f b a d => Sys2Proof.Machine.execVfnms sc m f b a d s
  | .vcmpeq sc m w b a d => Sys2Proof.Machine.execVcmpeq sc m w b a d s
  | .vcmpne sc m w b a d => Sys2Proof.Machine.execVcmpne sc m w b a d s
  | .vcmplt sc m w b a d => Sys2Proof.Machine.execVcmplt sc m w b a d s
  | .vcmple sc m w b a d => Sys2Proof.Machine.execVcmple sc m w b a d s
  | .vcmpltu sc m w b a d => Sys2Proof.Machine.execVcmpltu sc m w b a d s
  | .vcmpleu sc m w b a d => Sys2Proof.Machine.execVcmpleu sc m w b a d s
  | .vfcmpeq sc m fi b a d => Sys2Proof.Machine.execVfcmpeq sc m fi b a d s
  | .vfcmplt sc m fi b a d => Sys2Proof.Machine.execVfcmplt sc m fi b a d s
  | .vfcmple sc m fi b a d => Sys2Proof.Machine.execVfcmple sc m fi b a d s
  | .vfcmpun sc m fi b a d => Sys2Proof.Machine.execVfcmpun sc m fi b a d s
  | .vbool3 sc t b a d => Sys2Proof.Machine.execVbool3 sc t b a d s
  | .vfshl sc h b a d => Sys2Proof.Machine.execVfshl sc h b a d s
  | .vfshr sc h b a d => Sys2Proof.Machine.execVfshr sc h b a d s
  | .vrotl sc h a d => Sys2Proof.Machine.execVrotl sc h a d s
  | .vrotr sc h a d => Sys2Proof.Machine.execVrotr sc h a d s
  | .vredsum sc m w a d => Sys2Proof.Machine.execVredsum sc m w a d s
  | .vredmin sc m w a d => Sys2Proof.Machine.execVredmin sc m w a d s
  | .vredmax sc m w a d => Sys2Proof.Machine.execVredmax sc m w a d s
  | .vfredsum sc m f a d => Sys2Proof.Machine.execVfredsum sc m f a d s
  | .vfredmin sc m f a d => Sys2Proof.Machine.execVfredmin sc m f a d s
  | .vfredmax sc m f a d => Sys2Proof.Machine.execVfredmax sc m f a d s
  | .vscan sc m w a d => Sys2Proof.Machine.execVscan sc m w a d s
  | .vfscan sc m f a d => Sys2Proof.Machine.execVfscan sc m f a d s
  | .vperm sc m w b a d => Sys2Proof.Machine.execVperm sc m w b a d s
  | .vslideup sc m w b a d => Sys2Proof.Machine.execVslideup sc m w b a d s
  | .vslidedn sc m w b a d => Sys2Proof.Machine.execVslidedn sc m w b a d s
  | .vbcast sc m w b a d => Sys2Proof.Machine.execVbcast sc m w b a d s
  | .vcompress sc m w a d => Sys2Proof.Machine.execVcompress sc m w a d s
  | .vexpand sc m w a d => Sys2Proof.Machine.execVexpand sc m w a d s
  | .vsel sc m w b a d => Sys2Proof.Machine.execVsel sc m w b a d s
  | .vmv sc m w a d => Sys2Proof.Machine.execVmv sc m w a d s
  | .vmrgu m w b a d => Sys2Proof.Machine.execVmrgu m w b a d s
  | .vmrgi m w b a d => Sys2Proof.Machine.execVmrgi m w b a d s
  | .vaddCh sc m w b c d => Sys2Proof.Machine.execVaddCh sc m w b c d s
  | .vsubCh sc m w b c d => Sys2Proof.Machine.execVsubCh sc m w b c d s
  | .vmulCh sc m w b c d => Sys2Proof.Machine.execVmulCh sc m w b c d s
  | .vmulhCh sc m w b c d => Sys2Proof.Machine.execVmulhCh sc m w b c d s
  | .vminCh sc m w b c d => Sys2Proof.Machine.execVminCh sc m w b c d s
  | .vmaxCh sc m w b c d => Sys2Proof.Machine.execVmaxCh sc m w b c d s
  | .vminuCh sc m w b c d => Sys2Proof.Machine.execVminuCh sc m w b c d s
  | .vmaxuCh sc m w b c d => Sys2Proof.Machine.execVmaxuCh sc m w b c d s
  | .vandCh sc m w b c d => Sys2Proof.Machine.execVandCh sc m w b c d s
  | .vorCh sc m w b c d => Sys2Proof.Machine.execVorCh sc m w b c d s
  | .vxorCh sc m w b c d => Sys2Proof.Machine.execVxorCh sc m w b c d s
  | .vandnCh sc m w b c d => Sys2Proof.Machine.execVandnCh sc m w b c d s
  | .vshlCh sc m w b c d => Sys2Proof.Machine.execVshlCh sc m w b c d s
  | .vshrCh sc m w b c d => Sys2Proof.Machine.execVshrCh sc m w b c d s
  | .vshraCh sc m w b c d => Sys2Proof.Machine.execVshraCh sc m w b c d s
  | .vpopcCh sc m w c d => Sys2Proof.Machine.execVpopcCh sc m w c d s
  | .vfaddCh sc m f b c d => Sys2Proof.Machine.execVfaddCh sc m f b c d s
  | .vfsubCh sc m f b c d => Sys2Proof.Machine.execVfsubCh sc m f b c d s
  | .vfmulCh sc m f b c d => Sys2Proof.Machine.execVfmulCh sc m f b c d s
  | .vfdivCh m f b c d => Sys2Proof.Machine.execVfdivCh m f b c d s
  | .vfminCh sc m f b c d => Sys2Proof.Machine.execVfminCh sc m f b c d s
  | .vfmaxCh sc m f b c d => Sys2Proof.Machine.execVfmaxCh sc m f b c d s
  | .vfsqrtCh sc m f c d => Sys2Proof.Machine.execVfsqrtCh sc m f c d s
  | .vfabsCh sc m c d => Sys2Proof.Machine.execVfabsCh sc m c d s
  | .vfmaCh sc m f b c d => Sys2Proof.Machine.execVfmaCh sc m f b c d s
  | .vfmsCh sc m f b c d => Sys2Proof.Machine.execVfmsCh sc m f b c d s
  | .vfnmaCh sc m f b c d => Sys2Proof.Machine.execVfnmaCh sc m f b c d s
  | .vfnmsCh sc m f b c d => Sys2Proof.Machine.execVfnmsCh sc m f b c d s
  | .vcmpeqCh sc m w b c d => Sys2Proof.Machine.execVcmpeqCh sc m w b c d s
  | .vcmpneCh sc m w b c d => Sys2Proof.Machine.execVcmpneCh sc m w b c d s
  | .vcmpltCh sc m w b c d => Sys2Proof.Machine.execVcmpltCh sc m w b c d s
  | .vcmpleCh sc m w b c d => Sys2Proof.Machine.execVcmpleCh sc m w b c d s
  | .vcmpltuCh sc m w b c d => Sys2Proof.Machine.execVcmpltuCh sc m w b c d s
  | .vcmpleuCh sc m w b c d => Sys2Proof.Machine.execVcmpleuCh sc m w b c d s
  | .vfcmpeqCh sc m fi b c d => Sys2Proof.Machine.execVfcmpeqCh sc m fi b c d s
  | .vfcmpltCh sc m fi b c d => Sys2Proof.Machine.execVfcmpltCh sc m fi b c d s
  | .vfcmpleCh sc m fi b c d => Sys2Proof.Machine.execVfcmpleCh sc m fi b c d s
  | .vfcmpunCh sc m fi b c d => Sys2Proof.Machine.execVfcmpunCh sc m fi b c d s
  | .vbool3Ch sc t b c d => Sys2Proof.Machine.execVbool3Ch sc t b c d s
  | .vfshlCh sc h b c d => Sys2Proof.Machine.execVfshlCh sc h b c d s
  | .vfshrCh sc h b c d => Sys2Proof.Machine.execVfshrCh sc h b c d s
  | .vrotlCh sc h c d => Sys2Proof.Machine.execVrotlCh sc h c d s
  | .vrotrCh sc h c d => Sys2Proof.Machine.execVrotrCh sc h c d s
  | .vredsumCh sc m w c d => Sys2Proof.Machine.execVredsumCh sc m w c d s
  | .vredminCh sc m w c d => Sys2Proof.Machine.execVredminCh sc m w c d s
  | .vredmaxCh sc m w c d => Sys2Proof.Machine.execVredmaxCh sc m w c d s
  | .vfredsumCh sc m f c d => Sys2Proof.Machine.execVfredsumCh sc m f c d s
  | .vfredminCh sc m f c d => Sys2Proof.Machine.execVfredminCh sc m f c d s
  | .vfredmaxCh sc m f c d => Sys2Proof.Machine.execVfredmaxCh sc m f c d s
  | .vscanCh sc m w c d => Sys2Proof.Machine.execVscanCh sc m w c d s
  | .vfscanCh sc m f c d => Sys2Proof.Machine.execVfscanCh sc m f c d s
  | .vpermCh sc m w b c d => Sys2Proof.Machine.execVpermCh sc m w b c d s
  | .vslideupCh sc m w b c d => Sys2Proof.Machine.execVslideupCh sc m w b c d s
  | .vslidednCh sc m w b c d => Sys2Proof.Machine.execVslidednCh sc m w b c d s
  | .vbcastCh sc m w b c d => Sys2Proof.Machine.execVbcastCh sc m w b c d s
  | .vcompressCh sc m w c d => Sys2Proof.Machine.execVcompressCh sc m w c d s
  | .vexpandCh sc m w c d => Sys2Proof.Machine.execVexpandCh sc m w c d s
  | .vselCh sc m w b c d => Sys2Proof.Machine.execVselCh sc m w b c d s
  | .vmvCh sc m w c d => Sys2Proof.Machine.execVmvCh sc m w c d s
  | .vmrguCh m w b c d => Sys2Proof.Machine.execVmrguCh m w b c d s
  | .vmrgiCh m w b c d => Sys2Proof.Machine.execVmrgiCh m w b c d s
  | .vcvt sc m w k a d => Sys2Proof.Machine.execVcvt sc m w k a d s
  | .vtbdec sc m w b a d => Sys2Proof.Machine.execVtbdec sc m w b a d s
  | .vtbenc sc m w b a d => Sys2Proof.Machine.execVtbenc sc m w b a d s
  | .vld ord m w g off a d => Sys2Proof.Machine.execVld ord m w g off a d s
  | .vst ord m w g off a d => Sys2Proof.Machine.execVst ord m w g off a d s
  | .vlds ord m w b a d => Sys2Proof.Machine.execVlds ord m w b a d s
  | .vsts ord m w b a d => Sys2Proof.Machine.execVsts ord m w b a d s
  | .vldx ord m w b a d => Sys2Proof.Machine.execVldx ord m w b a d s
  | .vstx ord m w b a d => Sys2Proof.Machine.execVstx ord m w b a d s
  | .vldt ord m w b a d => Sys2Proof.Machine.execVldt ord m w b a d s
  | .vpark b a d => Sys2Proof.Machine.execVpark b a d s
  | .vunpark b a d => Sys2Proof.Machine.execVunpark b a d s
  | .vmvx sc m w a d => Sys2Proof.Machine.execVmvx sc m w a d s
  | .vmvxv sc w a d => Sys2Proof.Machine.execVmvxv sc w a d s
  | .kand sc b a d => Sys2Proof.Machine.execKand sc b a d s
  | .kor sc b a d => Sys2Proof.Machine.execKor sc b a d s
  | .kxor sc b a d => Sys2Proof.Machine.execKxor sc b a d s
  | .kandn sc b a d => Sys2Proof.Machine.execKandn sc b a d s
  | .knot sc a d => Sys2Proof.Machine.execKnot sc a d s
  | .kmvKToX sc a d => Sys2Proof.Machine.execKmvKToX sc a d s
  | .kmvXToK sc a d => Sys2Proof.Machine.execKmvXToK sc a d s
  | .kpopc sc a d => Sys2Proof.Machine.execKpopc sc a d s
  | .kfirst sc a d => Sys2Proof.Machine.execKfirst sc a d s
  | .mzero b a => Sys2Proof.Machine.execMzero b a s
  | .mrdv a d => Sys2Proof.Machine.execMrdv a d s
  | .mwrv b a => Sys2Proof.Machine.execMwrv b a s
  | .mmac f sat b a d => Sys2Proof.Machine.execMmac f sat b a d s
  | .mbin p sat b a d => Sys2Proof.Machine.execMbin p sat b a d s
  | .mstore ord k f b a => Sys2Proof.Machine.execMstore ord k f b a s
  | .mload ord k f b a => Sys2Proof.Machine.execMload ord k f b a s
  | .mswap b a d => Sys2Proof.Machine.execMswap b a d s
  | .cpy a => Sys2Proof.Machine.execCpy a s
  | .gath a => Sys2Proof.Machine.execGath a s
  | .scat a => Sys2Proof.Machine.execScat a s
  | .qmul b a d => Sys2Proof.Machine.execQmul b a d s
  | .qadd b a d => Sys2Proof.Machine.execQadd b a d s
  | .qresume a => Sys2Proof.Machine.execQresume a s
  | .qcancel a d => Sys2Proof.Machine.execQcancel a d s
  | .qstat a d => Sys2Proof.Machine.execQstat a d s
  | .qpool p b a d => Sys2Proof.Machine.execQpool p b a d s
  | .wtagany a d => Sys2Proof.Machine.execWtagany a d s
  | .wtagall a d => Sys2Proof.Machine.execWtagall a d s
  | .ftag a d => Sys2Proof.Machine.execFtag a d s
  | .send n c b a => Sys2Proof.Machine.execSend n c b a s
  | .sendx n c b a => Sys2Proof.Machine.execSendx n c b a s
  | .sendr c b a => Sys2Proof.Machine.execSendr c b a s
  | .gsend n c b a => Sys2Proof.Machine.execGsend n c b a s
  | .htset b a => Sys2Proof.Machine.execHtset b a s
  | .htget a d => Sys2Proof.Machine.execHtget a d s
  | .htclr a => Sys2Proof.Machine.execHtclr a s
  | .chmsk a d => Sys2Proof.Machine.execChmsk a d s
  | .chunm a d => Sys2Proof.Machine.execChunm a d s
  | .mpeek a d => Sys2Proof.Machine.execMpeek a d s
  | .mdrop a => Sys2Proof.Machine.execMdrop a s
  | .join a d => Sys2Proof.Machine.execJoin a d s
  | .leave a d => Sys2Proof.Machine.execLeave a d s
  | .gbar a => Sys2Proof.Machine.execGbar a s
  | .xred b a => Sys2Proof.Machine.execXred b a s
  | .xbcast b a => Sys2Proof.Machine.execXbcast b a s
  | .actnew a d => Sys2Proof.Machine.execActnew a d s
  | .actend => Sys2Proof.Machine.execActend s
  | .qpush b a => Sys2Proof.Machine.execQpush b a s
  | .qpop b d => Sys2Proof.Machine.execQpop b d s
  | .tarm b a => Sys2Proof.Machine.execTarm b a s
  | .tdone a => Sys2Proof.Machine.execTdone a s
  | .egpost b a => Sys2Proof.Machine.execEgpost b a s
  | .egrel a => Sys2Proof.Machine.execEgrel a s
  | .egdrop a => Sys2Proof.Machine.execEgdrop a s
  | .evBudget c sl => Sys2Proof.Machine.execEvBudget c sl s
  | .evDispatch c sl => Sys2Proof.Machine.execEvDispatch c sl s
  | .evDrawComplete c launch => Sys2Proof.Machine.execEvDrawComplete c launch s
  | .evCommit c sl => Sys2Proof.Machine.execEvCommit c sl s
  | .evSequence c sl => Sys2Proof.Machine.execEvSequence c sl s
  | .evTransmit src dst => Sys2Proof.Machine.execEvTransmit src dst s
  | .evJobStart j => Sys2Proof.Machine.execEvJobStart j s
  | .evJobComplete j => Sys2Proof.Machine.execEvJobComplete j s
  | .evLeafCommit j path => Sys2Proof.Machine.execEvLeafCommit j path s
  | .evJobSuspend j => Sys2Proof.Machine.execEvJobSuspend j s
  | .evMswapPair c launch => Sys2Proof.Machine.execEvMswapPair c launch s
  | .evEcallResume c sl r0 r1 => Sys2Proof.Machine.execEvEcallResume c sl r0 r1 s
  | .evEcallRefuse c sl => Sys2Proof.Machine.execEvEcallRefuse c sl s
  | .evWalkRequest c sl => Sys2Proof.Machine.execEvWalkRequest c sl s
  | .evWalk die n => Sys2Proof.Machine.execEvWalk die n s
  | .evPageRequestAnswer die n retry => Sys2Proof.Machine.execEvPageRequestAnswer die n retry s
  | .evWithdrawal asid base len => Sys2Proof.Machine.execEvWithdrawal asid base len s
  | .evZeroing pa size key => Sys2Proof.Machine.execEvZeroing pa size key s
  | .evKeyLoad slot key => Sys2Proof.Machine.execEvKeyLoad slot key s
  | .evPageRetirement pa => Sys2Proof.Machine.execEvPageRetirement pa s
  | .evScrub t => Sys2Proof.Machine.execEvScrub t s
  | .evCoreCheckFailure c => Sys2Proof.Machine.execEvCoreCheckFailure c s
  | .evMsg src dst seq => Sys2Proof.Machine.execEvMsg src dst seq s
  | .evGrp src dst seq => Sys2Proof.Machine.execEvGrp src dst seq s
  | .evTsk src dst seq => Sys2Proof.Machine.execEvTsk src dst seq s
  | .evRd src dst seq => Sys2Proof.Machine.execEvRd src dst seq s
  | .evRdr src dst seq => Sys2Proof.Machine.execEvRdr src dst seq s
  | .evWr src dst seq => Sys2Proof.Machine.execEvWr src dst seq s
  | .evWra src dst seq => Sys2Proof.Machine.execEvWra src dst seq s
  | .evAmo src dst seq => Sys2Proof.Machine.execEvAmo src dst seq s
  | .evAmor src dst seq => Sys2Proof.Machine.execEvAmor src dst seq s
  | .evRed src dst seq => Sys2Proof.Machine.execEvRed src dst seq s
  | .evJrd j k => Sys2Proof.Machine.execEvJrd j k s
  | .evJwr j k => Sys2Proof.Machine.execEvJwr j k s
  | .evEgr src dst seq => Sys2Proof.Machine.execEvEgr src dst seq s
  | .evAck src dst => Sys2Proof.Machine.execEvAck src dst s
  | .evYoyo src dst => Sys2Proof.Machine.execEvYoyo src dst s
  | .evDefr src dst => Sys2Proof.Machine.execEvDefr src dst s
  | .evTrim src dst place => Sys2Proof.Machine.execEvTrim src dst place s
  | .evHoleRerequest src dst seq => Sys2Proof.Machine.execEvHoleRerequest src dst seq s
  | .evAckTimer src dst => Sys2Proof.Machine.execEvAckTimer src dst s
  | .evRto src dst => Sys2Proof.Machine.execEvRto src dst s
  | .evBackoffExpiry src dst => Sys2Proof.Machine.execEvBackoffExpiry src dst s
  | .evFrame link good => Sys2Proof.Machine.execEvFrame link good s
  | .evLinkDown link => Sys2Proof.Machine.execEvLinkDown link s
  | .evRouteRecompute => Sys2Proof.Machine.execEvRouteRecompute s
  | .evDepthExchange c => Sys2Proof.Machine.execEvDepthExchange c s
  | .evDepthReceive c => Sys2Proof.Machine.execEvDepthReceive c s
  | .evUnbound launch name chan => Sys2Proof.Machine.execEvUnbound launch name chan s
  | .evEgpostTimeout c sl => Sys2Proof.Machine.execEvEgpostTimeout c sl s
  | .evLaunchStart ctx q => Sys2Proof.Machine.execEvLaunchStart ctx q s
  | .evInitialTaskPush launch => Sys2Proof.Machine.execEvInitialTaskPush launch s
  | .evQuiescence launch => Sys2Proof.Machine.execEvQuiescence launch s
  | .evFaultReport n => Sys2Proof.Machine.execEvFaultReport n s
  | .evLaunchEnd launch => Sys2Proof.Machine.execEvLaunchEnd launch s
  | .evPreEmption ctx => Sys2Proof.Machine.execEvPreEmption ctx s
  | .evContextResume ctx => Sys2Proof.Machine.execEvContextResume ctx s
  | .evVictimClaim u => Sys2Proof.Machine.execEvVictimClaim u s
  | .evEviction launch name => Sys2Proof.Machine.execEvEviction launch name s
  | .evRestore launch name core => Sys2Proof.Machine.execEvRestore launch name core s
  | .evHalt launch name => Sys2Proof.Machine.execEvHalt launch name s
  | .evHaltreq c sl => Sys2Proof.Machine.execEvHaltreq c sl s
  | .evResume launch name => Sys2Proof.Machine.execEvResume launch name s
  | .evStep launch name => Sys2Proof.Machine.execEvStep launch name s
  | .evBreak launch c n addr name => Sys2Proof.Machine.execEvBreak launch c n addr name s
  | .evUnbreak launch c n => Sys2Proof.Machine.execEvUnbreak launch c n s
  | .evRead launch name r => Sys2Proof.Machine.execEvRead launch name r s
  | .evWrite launch name r val => Sys2Proof.Machine.execEvWrite launch name r val s
  | .evExec launch name words => Sys2Proof.Machine.execEvExec launch name words s
  | .evDetach launch => Sys2Proof.Machine.execEvDetach launch s
  | .evBreakpoint c sl => Sys2Proof.Machine.execEvBreakpoint c sl s
  | .evReset => Sys2Proof.Machine.execEvReset s
  | .evBootsel val => Sys2Proof.Machine.execEvBootsel val s
  | .evMinsvnRaise n => Sys2Proof.Machine.execEvMinsvnRaise n s
  | .evQuoteRequest nonce => Sys2Proof.Machine.execEvQuoteRequest nonce s
  | .evFirmwareUpdate offset bytes => Sys2Proof.Machine.execEvFirmwareUpdate offset bytes s
  | .evPctlReqP0 => Sys2Proof.Machine.execEvPctlReqP0 s
  | .evPctlReqP1 => Sys2Proof.Machine.execEvPctlReqP1 s
  | .evPctlReqP2 => Sys2Proof.Machine.execEvPctlReqP2 s
  | .evPctlReqP3 => Sys2Proof.Machine.execEvPctlReqP3 s
  | .evPctlCap cap => Sys2Proof.Machine.execEvPctlCap cap s
  | .evTransitionComplete => Sys2Proof.Machine.execEvTransitionComplete s
  | .evThermalTrip sensor => Sys2Proof.Machine.execEvThermalTrip sensor s
  | .evTrip => Sys2Proof.Machine.execEvTrip s
  | .evRefused => Sys2Proof.Machine.execEvRefused s
  | .evClear die port => Sys2Proof.Machine.execEvClear die port s
  | .evChead q val => Sys2Proof.Machine.execEvChead q val s
  | .evRegisterWrite die offset val => Sys2Proof.Machine.execEvRegisterWrite die offset val s
  | .evIllegal w => Sys2Proof.Machine.execEvIllegal w s
  | .evFetchOutsideText => Sys2Proof.Machine.execEvFetchOutsideText s
  | .evDirectoryLookup c sl => Sys2Proof.Machine.execEvDirectoryLookup c sl s
  | .evVariableLatencyWrite c sl n => Sys2Proof.Machine.execEvVariableLatencyWrite c sl n s
  | .evDebuggerAttach launch => Sys2Proof.Machine.execEvDebuggerAttach launch s
  | .evLinkBringUp link good => Sys2Proof.Machine.execEvLinkBringUp link good s
  | .evCoolantLimit flow inlet => Sys2Proof.Machine.execEvCoolantLimit flow inlet s

end Sys2Proof.Machine
end

