-- ==== Sys2Proof/Machine/Header.lean ====
section
/-! DEFINITION. The 256-bit header in which a packet travels, and that of a control packet (13 R309, R311). What the two maps leave
open is log 75. -/
namespace Sys2Proof.Machine

/-! ### Kind-specific fields -/

/-- OPX of a group item: the f3 of its instruction, and the low bit of its major at bit 3 (R311 does not place them; DESIGN CHOICE,
log 108). -/
def groupOpx : GroupOp → Nat
  | .deliver _ _ _ => 0 + 8
  | .arrive _ .gbar _ => 2
  | .arrive _ (.xred _) _ => 0 + 8
  | .arrive _ .xbcast _ => 1 + 8
  | .join _ => 0
  | .leave _ => 1
  | .ended _ => 1
  | .query _ => 2

def egrOpx : EgrOp → Nat
  | .post => 0
  | .rel => 1
  | .drop => 2

/-- The fields of a header that depend on the use of the packet. -/
structure Fields where
  kslot : Nat
  opx   : Nat
  addr  : Nat
  ep    : Nat
  chan  : Nat
  deriving DecidableEq, Repr

/-- Those of an access or a job element at an address: the key slot for DRAM. -/
def accessFields (op : MemOp) (key extra : Nat) : Fields := ⟨if isDram op.pa then key else 0, opxOf op + extra, op.pa, 0, 0⟩

/-- The actor that a group item names. -/
def groupName : GroupOp → Nat
  | .deliver _ _ _ => 0
  | .arrive n _ _ => n
  | .join n => n
  | .leave n => n
  | .query n => n
  | .ended n => n

def groupSeq : GroupOp → Nat
  | .deliver _ _ m => m.toNat % 2 ^ 32
  | _ => 0

/-- The fields of each use (R309 ADDR, EP, KSLOT, CHAN; R311 OPX). opx, addr: what the packet adds. -/
def Body.fields (opx addr : Nat) : Body → Fields
  | .msg _ name ch m => ⟨0, 0, m.msgid.toNat % 2 ^ 32, name, ch⟩
  | .grp _ o op _ => ⟨0, groupOpx op, groupSeq op, groupName op, groupChan o⟩
  | .tsk _ level _ _ => ⟨0, level, 0, 0, 0⟩
  | .rd op key _ => accessFields op key 0
  | .rdr _ _ => ⟨0, opx, addr, 0, 0⟩
  | .wr op key _ => accessFields op key opx
  | .wra _ _ => ⟨0, 0, addr, 0, 0⟩
  | .amo op key _ => accessFields op key 0
  | .amor _ _ => ⟨0, opx, addr, 0, 0⟩
  | .red _ pa key _ _ _ => ⟨if isDram pa then key else 0, 0, pa, 0, 0⟩
  | .jrd _ _ op key => accessFields op key 0
  | .jrdr _ _ _ => ⟨0, opx, addr, 0, 0⟩
  | .jwr _ _ rop op key => accessFields op key (rop % 8 * 2 ^ 3)
  | .jwra _ _ _ => ⟨0, 0, addr, 0, 0⟩
  | .close _ => ⟨0, 2, 0, 0, 0⟩
  | .egr _ _ q op o _ => ⟨0, egrOpx op, (egStream o).toNat + q % 64 * 2 ^ 24, (egSeq o).toNat, 0⟩
  | .bad _ _ => ⟨0, 0, 0, 0, 0⟩
  | .moved => ⟨0, 0, 0, 0, 0⟩

/-! ### The header (R309) -/

/-- Fields put at their lowest bits: value, width and place. -/
def layOut (l : List (Nat × Nat × Nat)) : BitVec 256 := BitVec.ofNat 256 (l.map fun f => f.1 % 2 ^ f.2.1 * 2 ^ f.2.2).sum

/-- The header of a packet of a pair. -/
def header (p : Pair) (k : Packet) : BitVec 256 :=
  let f := k.body.fields k.opx k.addr
  let src := p.src
  layOut [(kindOf k.body, 8, 0), (k.cls, 3, 8), (k.trim.toNat, 1, 11), (k.defer.toNat, 1, 12), (k.hops, 3, 13), (k.len, 4, 16),
    (f.chan, 4, 20), (k.seq, 16, 24), (src, 14, 40), (nodeModule src, 12, 54), (p.dst, 14, 66), (nodeModule p.dst, 12, 80),
    (k.alt.toNat, 1, 92), (f.ep, 32, 96), (f.addr, 60, 128), (f.opx, 8, 192), (k.asid, 13, 200), (f.kslot, 10, 216)]

/-- The sequence and the reason of a control packet, and its kind (R311). -/
def ctlFields : Ctl → Nat × Nat × Nat
  | .ack n => (0x30, n, 0)
  | .yoyo n => (0x31, n, 0)
  | .defr n r => (0x32, n, r)

/-- The header of a control packet of a pair: it goes from the destination to the source, on the class-7 lane (R311). -/
def ctlHeader (p : Pair) (c : Ctl) : BitVec 256 :=
  let (kind, seq, reason) := ctlFields c
  let src := p.src
  layOut [(kind, 8, 0), (7, 3, 8), (seq, 16, 24), (p.dst, 14, 40), (nodeModule p.dst, 12, 54), (src, 14, 66),
    (nodeModule src, 12, 80), (reason, 8, 192)]

/-! ### What a receiver checks (R311) -/

/-- The kinds of R311. -/
def listedKinds : List Nat :=
  [0x01, 0x02, 0x03, 0x10, 0x11, 0x12, 0x13, 0x14, 0x15, 0x16, 0x17, 0x18, 0x20, 0x30, 0x31, 0x32]

/-- The fields of a header that must be 0: [255:226], [215:213], [191:188] and [95:93]. -/
def mustBeZero : BitVec 256 := layOut [(2 ^ 30 - 1, 30, 226), (7, 3, 213), (15, 4, 188), (7, 3, 93)]

/-- Whether a receiver discards a packet with a header: an unlisted kind, or a field that must be 0 and is not. -/
def discards (h : BitVec 256) : Bool := !listedKinds.contains (h.toNat % 256) || h &&& mustBeZero != 0

end Sys2Proof.Machine
end

