-- ==== Sys2Proof/Machine/Policy.lean ====
section
/-! DEFINITION. Fetching (05 R115), the moves of the machine and of its environment (10 R241), and which move comes when the
agenda names none. -/
namespace Sys2Proof.Machine

/-! ### Issuing the next instruction of a slot -/

/-- What stands at a slot's pc. -/
inductive Fetched where
  | word (w : BitVec 32)
  /-- outside the launch's text (R115) -/
  | outside
  /-- the translation is not cached (R268) -/
  | miss
  /-- poisoned text at a physical address (R342) -/
  | poison (pa : Nat)
  deriving DecidableEq, Repr

/-- The word at the pc of a slot of a core: the four bytes at that address, also where pc is no multiple of 4, which a debugger's write
of epc and an image's TB allow (R62 does not say; DESIGN CHOICE, log 72). -/
def fetch (s : State) (c : Nat) (sl : Slot) : Fetched :=
  match translate s (clusterOf c) sl.ctx sl.pc .fetch with
  | .bad => .outside
  | .miss => .miss
  | .ok pa key =>
    let r := (performMem s (.read pa 4) key).2
    if r.poison then .poison pa else .word (r.value.setWidth 32)

/-- A word issues: its instruction, or ILLEGAL (R75, R76). -/
noncomputable def issueWord (s : State) (w : BitVec 32) : Out :=
  match decodeWord w with
  | .ok i => exec i s
  | .error _ => exec (.evIllegal w) s

/-- The slot's next word, of debug execution or at pc. Debug execution that has issued its last word waits for its accesses. -/
noncomputable def issueFetched (s : State) (c : Nat) (i : Fin 4) (sl : Slot) : Out :=
  if sl.inDebug then
    match sl.dbgWords with
    | w :: _ => issueWord s w
    | [] => .next (stallSlot s c i .blocked)
  else match fetch s c sl with
    | .word w => issueWord s w
    | .outside => exec .evFetchOutsideText s
    | .miss => .next (suspendWalk s c i sl.pc .fetch)
    | .poison pa => .next (trapFrom 6 (homeMusic s (homeOf pa) 3 pa) c i causeACCESS sl.pc sl.pc)

/-- Whether a halt strikes the activation of a slot at this boundary (R345). A HALT stays in force until RESUME: an activation that
TRET sends on before that halts again at its next instruction (R121 does not say; DESIGN CHOICE, log 73). -/
def haltDue (s : State) (sl : Slot) : Bool :=
  atBoundary sl && match getActor s sl.launch sl.actor with
    | some a => a.halted
    | none => false

/-- R241 Issue: the slot's next instruction, or the trap or halt that comes before it. -/
noncomputable def issueNext (s : State) (c : Nat) (i : Fin 4) : Out :=
  let s := { s with curCore := c, curSlot := i }
  let sl := getSlot s c i
  if !clocksRun s || sl.status != .running then .fault .noActivation
  else if countsBudget sl && sl.budget == 0 then exec (.evBudget c i) s
  else if haltDue s sl then exec (.evHaltreq c i) s
  else if (reached (getCore s c) sl).isSome && !sl.inDebug && !sl.passBreak && !sl.active then exec (.evBreakpoint c i) s
  else issueFetched s c i sl

/-! ### The environment -/

/-- A context descriptor, with V, and a key set written by the operating system (R266, R271). -/
def setupContext (s : State) (asid root : Nat) (valid dp : Bool) (keys : List (Option Nat)) : State :=
  match getContext s asid with
  | some c => setContext s { c with valid := valid, root := root, dp := dp, keys := keys }
  | none => setContext s ⟨asid, valid, false, false, root, dp, keys, [], [], [], []⟩

/-- The kernel thread appends a launch descriptor to a queue (R279). -/
def appendLaunch (s : State) (c : Context) (q : Nat) (desc : Word) : State :=
  let ds := match findBy (·.1) q c.queues with | some p => p.2 | none => []
  setContext s { c with queues := putBy (·.1) (q, ds ++ [desc]) c.queues }

/-- A count kept by a key, raised by one; and the new count. -/
def countUp (key : Nat) (l : List (Nat × Nat)) : Nat × List (Nat × Nat) :=
  let n := 1 + match findBy (·.1) key l with | some p => p.2 | none => 0
  (n, putBy (·.1) (key, n) l)

/-- R339: a correction at an agent of a die; the fourth in one unit is recorded. -/
def countCorrection (s : State) (die agent unit data : Nat) : State :=
  let d := getDie s die
  let (n, us) := countUp unit d.units
  let s := setDie s { d with units := us, cecc := (countUp agent d.cecc).2 }
  if n = 4 then music s die agent 2 (BitVec.ofNat 64 data) else s

/-- Bytes written into memory. A block that is written whole is poisoned no longer (R342). -/
def hostWrite (s : State) (pa : Nat) (bytes : List Byte) : State :=
  { s with mem := memPut s.mem pa bytes, poisoned := s.poisoned.filter fun b => b * 64 < pa || pa + bytes.length < b * 64 + 64 }

/-- A part of an image loaded, with the descriptor of each of its blocks, RAW where none is given (02 R56). -/
def loadImage (s : State) (pa : Nat) (bytes : List Byte) (ds : List Desc) : State :=
  (List.range ((bytes.length + 63) / 64)).foldl (fun s n => setDesc s (pa + 64 * n) (ds.getD n 0)) (hostWrite s pa bytes)

/-- A message or task of a core loses its data. -/
def loseArrived (s : State) (c arr : Nat) : State :=
  let hit (m : Msg) : Msg := if m.arr = arr then { m with bad := true } else m
  let strike (t : Task) : Task := if t.arr = arr then { t with bad := true } else t
  let mailbox (a : Actor) : Actor :=
    if a.core = c && a.place == .core then { a with chans := a.chans.map fun ch => { ch with queue := ch.queue.map hit } } else a
  let slot (sl : Slot) : Slot :=
    { sl with held := sl.held.map fun h => { h with msg := hit h.msg }, htask := sl.htask.map fun p => (strike p.1, p.2) }
  modCore { s with launches := s.launches.map fun l => { l with actors := l.actors.map mailbox } } c fun k =>
    { k with residents := k.residents.map fun r => { r with tasks := r.tasks.map strike }, slots := k.slots.map slot }

/-- Task n of a launch's partition loses its data. -/
def loseTask (n : Nat) (ts : List Task) : List Task := ts.modify n fun t => { t with bad := true }
def loseOf (l n : Nat) (q : List (Nat × List Task)) : List (Nat × List Task) :=
  q.map fun p => if p.1 = l then (p.1, loseTask n p.2) else p

/-- R342: an uncorrectable error strikes a message, a task, or saved state. -/
def lose (s : State) (x : LostAt) : State :=
  let saved (asid : Nat) (f : Context → Context) : State :=
    { s with contexts := s.contexts.map fun c => if c.asid = asid then f c else c }
  match x with
  | .arrived c arr => loseArrived s c arr
  | .parked l name n => modActor s l name fun a => { a with box := a.box.modify n fun b => (b.1, { b.2 with bad := true }) }
  | .queued level id l n =>
    if level = 1 then setCluster s { getCluster s id with tasks := loseOf l n (getCluster s id).tasks }
    else setDie s { getDie s id with tasks := loseOf l n (getDie s id).tasks }
  | .savedCore asid c l n => saved asid fun x =>
    { x with saved := x.saved.map fun r => if r.1 = c && r.2.launch = l then (r.1, { r.2 with tasks := loseTask n r.2.tasks }) else r }
  | .savedQueue asid level id l n => saved asid fun x =>
    { x with queued := x.queued.map fun q =>
        if q.1 = level && q.2.1 = id && q.2.2.1 = l then (q.1, q.2.1, q.2.2.1, loseTask n q.2.2.2) else q }
  | .savedRow n => { s with savedRows := s.savedRows.modify n fun r => { r with bad := true } }
  | .savedBlock n b => { s with savedFrames := s.savedFrames.modify n fun r => { r with bad := r.bad ++ [b] } }

/-- Whether a place that an error strikes is one of the module: a core, a cluster, a die, a block of a frame. -/
def LostAt.sound (s : State) (x : LostAt) : Bool :=
  match x with
  | .arrived c _ => ownCore s c
  | .queued level id _ _ => if level = 1 then id / 128 == s.module else decide (level = 2 ∧ id < 4)
  | .savedBlock _ b => decide (b < 256)
  | _ => true

/-- R331: the ASID that a device's requester ID and PASID are bound to. -/
def deviceAsid (s : State) (requester pasid : Nat) : Option Nat :=
  (findBy (·.1) (requester * 2 ^ 20 + pasid) s.bindings).map (·.2)

/-- The node that counts the corrections of a die's own stores: its fabric interface (R310, R339). -/
def dieAgent (die : Nat) : Nat := 2 * 4096 + die * 1024

/-- R339: a correction in a unit: of memory, by its agent or die; of a row; of another store of a die, by the node that holds it. -/
def correctBlock (s : State) (pa : Nat) : State :=
  let home := homeOf pa
  let die := (nodeDie home).getD 0
  countCorrection s die (if isDram pa then home % 2 ^ 14 else dieAgent die) (pa / 4096) (pa / 4096 * 4096)
def correctRow (s : State) (c r : Nat) : State := countCorrection s (dieOf c) (dieAgent (dieOf c)) (2 ^ 60 + c * 2048 + r) (rowData c r)
def correctStore (s : State) (node unit data : Nat) : State :=
  let die := (nodeDie node).getD 0
  countCorrection s die (dieAgent die) (2 ^ 61 + node * 2 ^ 20 + unit) data

/-- Bytes of an ASID written one after another. -/
def writeBytes (s : State) (asid pa key : Nat) : List Byte → State
  | [] => s
  | b :: r => writeBytes (putAt s asid pa key (b.setWidth 512) 1) asid (pa + 1) key r

/-- The application die, by which devices access memory, as the music box names it (R343). -/
def deviceSource : Nat := 3 * 4096

/-- R331: device memory access walks the page tables of the ASID bound to the device, and reaches only memory that such a
mapping reaches: nothing is written where the mapping is missing or not writable, or the bytes leave the page; a walk that fails is
recorded by the application die (R265, R343). A block that is written whole is poisoned no longer (R342). none: no such device. -/
def deviceStore (s : State) (requester pasid : Nat) (va : Word) (bytes : List Byte) : Option State :=
  (deviceAsid s requester pasid).map fun asid =>
    match walkAsid s asid va with
    | .leaf t =>
      let off := va.toNat % t.size
      let pa := t.pa + off
      if t.w && off + bytes.length ≤ t.size then
        let u := writeBytes s asid pa t.key bytes
        { u with poisoned := u.poisoned.filter fun b => b * 64 < pa || pa + bytes.length < b * 64 + 64 }
      else s
    | _ => noteWalkOf s 0 deviceSource asid va

/-- R331: a device reads n bytes the same way; a read that the mapping refuses gives nothing, and neither does lost data (R342). -/
def deviceLoad (s : State) (requester pasid : Nat) (va : Word) (n : Nat) : Option State :=
  (deviceAsid s requester pasid).map fun asid =>
    match readBytes s asid va n with
    | .ok v => { s with deviceOut := (List.range n).map fun k => BitVec.ofNat 8 (v / 256 ^ k) }
    | .error (.unreadable x) => { noteWalkOf s 0 deviceSource asid x with deviceOut := [] }
    | .error (.poison _ pa) => { homeMusic s (homeOf pa) 3 pa with deviceOut := [] }
    | .error .bad => { s with deviceOut := [] }

/-- The modules of the domain change: a node that joins, or one that is gone, makes the tree be computed again (R327), where there is
firmware to do so (R351); nothing changes while a trip holds the module (R359). -/
def setModules (s : State) (ms : List Nat) : State :=
  let others := (ms ++ s.modules).filter fun m => !(ms.contains m && s.modules.contains m)
  let s := { s with modules := ms }
  if others.isEmpty || !managed s then s
  else
    let t := recompute s
    { t with changed := (t.changed ++ others).eraseDups }

/-- Whether bytes from an address on lie in memory. -/
def inMemory (pa n : Nat) : Bool := (isSram pa && isSram (pa + n - 1)) || (isDram pa && isDram (pa + n - 1))

/-- What the operating system, the cards, the board and nature do. Data they write comes as plaintext. What the marionette die, its
application cores or its devices do waits for the boot, and changes nothing while a trip holds the module (R351, R359). An access to
memory and a correction need the clocks of the compute dies: they stand before the boot, in P2, in P3 and in a trip (R356). -/
def hostAct (s : State) (a : HostAction) : Out :=
  match a with
  | .context asid root v dp keys =>
    command "HOST" s (1 ≤ asid && asid ≤ 8191 && root % 4096 = 0 && keys.length = 8 && keys.all fun k => k.all (· < 1024))
      (setupContext s asid root v dp keys)
  | .append asid q desc =>
    match getContext s asid with
    | some c => command "HOST" s (decide (q < 16)) (appendLaunch s c q desc)
    | none => notPermitted "HOST"
  | .egress q asid => command "HOST" s (decide (q < 64 ∧ asid < 8192)) (setEgress s { getEgress s q with owner := asid })
  | .grant l => command "HOST" s true (modLaunch s l fun x => { x with granted := true })
  | .write pa bytes => guarded "HOST" s (inMemory pa bytes.length) (hostWrite s pa bytes)
  | .load pa bytes ds =>
    guarded "HOST" s (pa % 64 = 0 && inMemory pa bytes.length && ds.length ≤ (bytes.length + 63) / 64) (loadImage s pa bytes ds)
  | .poison pa => .next { s with poisoned := s.poisoned ++ [pa / 64] }
  | .poisonRow c r =>
    if ownCore s c && r < 2048 then .next (modCore s c fun k => { k with badRows := k.badRows ++ [r] }) else notPermitted "HOST"
  | .poisonMessage x => if x.sound s then .next (lose s x) else notPermitted "HOST"
  | .correct (.block pa) =>
    guarded "HOST" s (nodeModule (homeOf pa) == s.module && (isSram pa || isDram pa)) (correctBlock s pa)
  | .correct (.row c r) => guarded "HOST" s (ownCore s c && decide (r < 2048)) (correctRow s c r)
  | .correctStore node unit data =>
    guarded "HOST" s (nodeModule node == s.module && decide (unit < 2 ^ 20)) (correctStore s node unit data)
  | .corrupt src dst seq way h =>
    guarded "HOST" s (discards h) (modPair s src dst fun p =>
      { p with net := p.net.map fun k => if k.seq == seq then { k with body := .bad (h.toNat % 256) way } else k })
  | .topology links => command "HOST" s (links.all DomainLink.sound) (recompute { s with domain := links })
  | .linkLoss link src dst seq queued =>
    match loseOnLink s link src dst seq queued with
    | some t => guarded "HOST" s true t
    | none => notPermitted "HOST"
  | .sensor n celsius =>
    .next { s with power := { s.power with hot := if 95 ≤ celsius then putBy (·.1) (n, celsius) s.power.hot
                                                    else dropBy (·.1) n s.power.hot } }
  | .present ms =>
    if ms.contains s.module && ms.all isModule then .next (unlessTripped s (setModules s ms)) else notPermitted "HOST"
  | .coolantOk => command "HOST" s true { s with power := { s.power with coolant := false, limit := 0 } }
  | .overCap =>
    match lowerClock s with
    | some t => .next t
    | none => notPermitted "HOST"
  | .failCluster die p =>
    if die < 4 && p < 34 then .next (setDie s { getDie s die with failed := (getDie s die).failed ++ [p] }) else notPermitted "HOST"
  | .bindDevice r p asid =>
    command "HOST" s (decide (r < 2 ^ 16 ∧ p < 2 ^ 20 ∧ 1 ≤ asid ∧ asid ≤ 8191))
      { s with bindings := putBy (·.1) (r * 2 ^ 20 + p, asid) s.bindings }
  | .deviceWrite r p va bytes =>
    match deviceStore s r p va bytes with
    | some t => guarded "HOST" s true t
    | none => notPermitted "HOST"
  | .deviceRead r p va n =>
    match deviceLoad s r p va n with
    | some t => guarded "HOST" s true t
    | none => notPermitted "HOST"

/-! ### Moves (R241) -/

/-- Whether an instruction is an event that the agenda may name: not a word, and not a trap that only a fetch raises. -/
def isEvent (i : Instr) : Bool :=
  match i with
  | .evIllegal _ => false
  | .evFetchOutsideText => false
  | i => i.check == some .noEncoding

/-- A move that some state permits, while the clocks run. -/
def moveTo (event : String) (s : State) (t : Option State) : Out :=
  match t with
  | some t => guarded event s true t
  | none => notPermitted event

noncomputable def runMove (s : State) (m : Move) : Out :=
  match m with
  | .issue c i => issueNext s c i
  | .event i => if isEvent i then exec i s else notPermitted "EVENT"
  | .cycles c n => guarded "CYCLES" s true (passCycles s c n)
  | .netCycles n => guarded "CYCLES" s true { s with netClock := s.netClock + n }
  | .assignLeaf j p core => moveTo "ASSIGN" s (assignLeaf s j p core)
  | .jobSend j k w => moveTo "JOB_SEND" s (sendElement s j k w)
  | .deliver c n => moveTo "DELIVER" s (deliverPost s c n)
  | .walkRead die n => moveTo "WALK_READ" s (walkRead s die n)
  | .install l c => moveTo "INSTALL" s ((getLaunch s l).bind fun x => installCore s x c)
  | .early l => moveTo "EARLY" s ((getLaunch s l).bind (startEarly s))
  | .create c i => moveTo "CREATE" s (createNow s c i)
  | .commitNode j p => moveTo "COMMIT_NODE" s (commitNode s j p)
  | .rewalk j => moveTo "REWALK" s (rewalkQJob s j)
  | .leafSwap c i va len => moveTo "LEAF_SWAP" s (leafSwap s c i va len)
  | .clockStep => moveTo "CLOCK_STEP" s (clockStep s)
  | .host a => hostAct s a

/-! ### The move that comes when the agenda is empty -/

/-- The event that a slot in a wait is due. -/
noncomputable def slotMoves (s : State) (c : Nat) (i : Fin 4) : List Move :=
  let sl := getSlot s c i
  let own : List Move := match sl.status with
    | .free => [.event (.evDispatch c i)]
    | .running => []
    | .walk _ _ _ => [.event (.evWalkRequest c i)]
    | .token _ => [.event (.evSequence c i)]
    | .lookup _ => [.event (.evDirectoryLookup c i)]
    | .draw _ _ => [.event (.evDrawComplete c sl.launch)]
    | .ecall => []
    | .halted => []
    | .hend => [.event (.evCommit c i), .event (.evEgpostTimeout c i)]
    | .mswap _ _ _ _ _ _ => [.event (.evMswapPair c sl.launch)]
    | .hendWalk _ _ _ => [.event (.evWalkRequest c i)]
    | .leaf j p => [.event (.evLeafCommit j p)]
    | .leafSwap _ _ _ _ _ _ _ => [.event (.evMswapPair c sl.launch)]
  own ++ (if sl.accs.any fun a => !a.byAddress then [.create c i] else []) ++ [.event (.evVariableLatencyWrite c i sl.locals.length), .event (.evVariableLatencyWrite c i 0),
          .event (.evVariableLatencyWrite c i (sl.locals.length + 1)), .event (.evBudget c i)]

/-- The moves of a core that its slots do not name: its hardware's messages, draws, depths received, depth exchanges. -/
noncomputable def coreMoves (k : Core) : List Move :=
  (List.range k.posts.length).map (fun n => .deliver k.id n)
    ++ k.residents.map (fun r => .event (.evDrawComplete k.id r.launch))
    ++ [.event (.evDepthReceive k.id), .event (.evDepthExchange k.id)]

/-- The event of a packet of a kind. -/
noncomputable def packetEvent (b : Body) (src dst seq : Nat) : Instr :=
  match b with
  | .msg _ _ _ _ => .evMsg src dst seq
  | .grp _ _ _ _ => .evGrp src dst seq
  | .tsk _ _ _ _ => .evTsk src dst seq
  | .rd _ _ _ => .evRd src dst seq
  | .rdr _ _ => .evRdr src dst seq
  | .wr _ _ _ => .evWr src dst seq
  | .wra _ _ => .evWra src dst seq
  | .amo _ _ _ => .evAmo src dst seq
  | .amor _ _ => .evAmor src dst seq
  | .red _ _ _ _ _ _ => .evRed src dst seq
  | .jrd j k _ _ => .evJrd j k
  | .jrdr _ _ _ => .evRdr src dst seq
  | .jwr j k _ _ _ => .evJwr j k
  | .jwra _ _ _ => .evWra src dst seq
  | .close _ => .evTsk src dst seq
  | .egr _ _ _ _ _ _ => .evEgr src dst seq
  | .bad _ _ => .evMsg src dst seq
  | .moved => .evMsg src dst seq

noncomputable def pairMoves (p : Pair) : List Move :=
  (p.net ++ p.window).map (fun k => .event (packetEvent k.body p.src p.dst k.seq))
    ++ [.event (.evAck p.src p.dst), .event (.evYoyo p.src p.dst), .event (.evDefr p.src p.dst),
        .event (.evTransmit p.src p.dst), .event (.evAckTimer p.src p.dst), .event (.evBackoffExpiry p.src p.dst), .event (.evRto p.src p.dst)]
    ++ p.holes.map (fun h => .event (.evHoleRerequest p.src p.dst h.seq))

/-- The first element of a copy job from n on that is still to be written, looking at f of them. -/
def nextElement (j : CopyJob) (n : Nat) : Nat → Nat
  | 0 => n
  | f + 1 => if j.written n then nextElement j (n + 1) f else n

/-- The accesses of a copy job that come next in its order: index entry, element read, element write. -/
noncomputable def copyMoves (j : CopyJob) : List Move :=
  let n := nextElement j j.front (j.total - j.front)
  [.event (.evJobStart j.id), .event (.evJobComplete j.id), .jobSend j.id j.index.length false,
   .jobSend j.id (if j.kind == .cpy then n else j.card.nidx + valueKey j n) false, .jobSend j.id n true]

/-- The accesses and commits of a quadtree job that come next: the data of the leaves that run, and the INTERNAL nodes that are ready. -/
noncomputable def quadMoves (s : State) (j : QJob) : List Move :=
  (j.leaves.filter fun l => leafRuns s j l.1).flatMap (fun l => match leafOut s j l.1 l.2 with
    | .ok (_, bs) => bs.map fun b => .jobSend j.id (dataKey b.va) true
    | .error _ => [.jobSend j.id 0 true])
  ++ (j.groups.filter fun g => j.ready g.1).map fun g => .commitNode j.id g.1

noncomputable def jobMoves (s : State) : List Move :=
  s.copies.flatMap copyMoves ++ s.qjobs.flatMap (quadMoves s)
  ++ s.qjobs.flatMap (fun j => [.event (.evJobStart j.id), .event (.evJobComplete j.id), .event (.evJobSuspend j.id), .rewalk j.id]
      ++ match qRoot j with
         | .ok r => match nextLeaf s j (r.lg + 1) [] r.cl with
           | some p => [.assignLeaf j.id p j.core]
           | none => []
         | .error _ => [.assignLeaf j.id [] j.core])

/-- The moves of a launch: its start, its end, messages that stand unbound, evictions under way. -/
noncomputable def launchMoves (l : Launch) : List Move :=
  l.todo.map (fun c => .install l.id c)
  ++ [.event (.evLaunchEnd l.id), .event (.evInitialTaskPush l.id), .event (.evQuiescence l.id)]
  ++ l.actors.flatMap fun a => (if a.leaving then [.event (.evEviction l.id a.name)] else [])
    ++ a.chans.map fun ch => .event (.evUnbound l.id a.name ch.num)

/-- The moves of a context: the heads of its queues, its return, a pre-emption under way. -/
noncomputable def contextMoves (c : Context) : List Move :=
  c.queues.map (fun q => .event (.evLaunchStart c.asid q.1))
  ++ if c.leaving then [.event (.evPreEmption c.asid)] else if c.running then [.event (.evContextResume c.asid)] else []

/-- Moves of the machine itself that may be due, in a fixed order: a trip and reports first. -/
noncomputable def dueMoves (s : State) : List Move :=
  s.power.hot.map (fun h => .event (.evThermalTrip h.1))
  ++ (if s.reports.isEmpty then [] else [.event (.evFaultReport 0)])
  ++ s.cores.flatMap (fun k => (List.finRange 4).flatMap (slotMoves s k.id) ++ coreMoves k)
  ++ s.dies.flatMap (fun d => (List.range d.walks.length).flatMap fun n => [.walkRead d.id n, .event (.evWalk d.id n)])
  ++ s.pairs.flatMap pairMoves ++ jobMoves s
  ++ s.cores.flatMap (fun k => (List.finRange 4).map fun i => .issue k.id i)
  ++ s.launches.flatMap launchMoves ++ s.contexts.flatMap contextMoves
  ++ s.cores.flatMap (fun k => k.victims.map (fun v => .event (.evVictimClaim (.rows k.id v.unit)))
      ++ k.frames.map fun v => .event (.evVictimClaim (.frame k.id v.unit)))
  ++ if s.power.moving.isSome then [.clockStep, .event .evTransitionComplete] else []

/-- The first of a list of moves that is permitted and changes the machine. -/
noncomputable def firstMove (s : State) : List Move → Option State
  | [] => none
  | m :: r =>
    match runMove s m with
    | .next t => if t = { s with curCore := t.curCore, curSlot := t.curSlot } then firstMove s r else some t
    | _ => firstMove s r

/-- One arithmetic cycle of every core that has left its reset state, and the two network cycles that pass with it in P0 and P1
(15 R356); nothing while the clocks stand. -/
def idleCycle (s : State) : State :=
  if clocksRun s then
    let s := s.cores.foldl (fun s k => passCycles s k.id 1) s
    { s with netClock := s.netClock + 2 }
  else s

/-- With no agenda: the current slot issues while nothing holds it back; else another move that is due; else time passes. -/
noncomputable def defaultMove (s : State) : Out :=
  let sl := getSlot s s.curCore s.curSlot
  if clocksRun s && sl.status == .running && sl.stall.isNone then issueNext s s.curCore s.curSlot
  else match firstMove s (dueMoves s) with
    | some t => .next t
    | none => .next (idleCycle s)

/-! ### Placing a word where the next step fetches (log 50) -/

/-- An activation on core 0, slot 0, of a launch of one actor, as DISPATCH leaves it. Its context has key slot 0 and no
tables. -/
def placeActivation (s : State) : State :=
  let lid := s.nextLid
  let a : Actor := ⟨1, .core, s.curCore, 0, 64, 64, 0, 0, [], [], [], [], false, false, false, false⟩
  let l : Launch := { id := lid, ctx := 1, queue := 0, desc := 0, status := 0, image := 0, tb := 0x10000, phase := .running, step := 9, todo := [],
                      budget := 2 ^ 18, quiesce := false, oscope := .core, chk := false, frm := 0, bthr := 0, ezrows := 0,
                      words := 4, actors := [a], seeds := [], joins := [], late := [], closed := [], dropped := 0,
                      nfault := 0, fault := none, egdisc := 0, endCode := 0, granted := false, attached := false }
  let c : Context := match getContext s 1 with
    | some c => { c with valid := true, running := true, leaving := false }
    | none => ⟨1, true, true, false, 0, false, some 0 :: List.replicate 7 none, [], [], [], []⟩
  let s := { setLaunch (setContext s c) l with nextLid := lid + 1 }
  setSlot s s.curCore s.curSlot
    { Slot.reset with status := .running, pc := 0x10000, budget := 2 ^ 18, actor := 1, launch := lid, ctx := 1 }

/-- The current slot's next instruction may issue: it runs, and no debug execution, stall, halt or breakpoint stands before
the fetch. -/
def placeReady (s : State) : State :=
  let s := if (getSlot s s.curCore s.curSlot).status == .running then s else placeActivation s
  let sl := getSlot s s.curCore s.curSlot
  let s := setSlot s s.curCore s.curSlot
    { sl with stall := none, inDebug := false, dbgWords := [], passBreak := true,
              pc := if canonicalVa sl.pc then sl.pc else 0x10000, budget := if sl.budget = 0 then 2 ^ 18 else sl.budget }
  modActor s sl.launch sl.actor fun a => { a with halted := false }

/-- The address and key slot at which a slot's pc is fetched. Where its cluster caches no text page for it, a page of
GDDR7 is cached there. -/
def placeText (s : State) : State × Nat × Nat :=
  let sl := getSlot s s.curCore s.curSlot
  let va := sl.pc.toNat % 2 ^ 57
  match translate s (clusterOf s.curCore) sl.ctx sl.pc .fetch with
  | .ok pa key => (s, pa, key)
  | _ =>
    let cl := getCluster s (clusterOf s.curCore)
    let t : Tlb := ⟨sl.ctx, va / 2 ^ 16 * 2 ^ 16, 2 ^ 16, 0x001000000000, false, false, true, 0⟩
    (setCluster s { cl with cache := t :: cl.cache }, 0x001000000000 + va % 2 ^ 16, 0)

/-- A word where the next step fetches: the clocks run, the agenda is empty, the current slot's instruction is the word. -/
def placeWord (s : State) (w : BitVec 32) : State :=
  let s := { s with agenda := [], boot := { s.boot with state := .running },
                    power := if clocksRun s then s.power else { s.power with state := 0, trip := false } }
  let r := placeText (placeReady s)
  clearPoison (writeThrough r.1 r.2.1 r.2.2 (w.setWidth 512) (byteMask 4)) r.2.1

end Sys2Proof.Machine
end

