-- ==== Sys2Proof/Machine/Step.lean ====
section
/-! DEFINITION. One step of the machine, and the word that it fetches next. -/
namespace Sys2Proof.Machine

/-- One step: the next move of the agenda, or with no agenda the move that `defaultMove` names (10 R241). -/
noncomputable def step (s : State) : Host.Outcome State Fault Refusal :=
  match s.agenda with
  | m :: rest => runMove { s with agenda := rest } m
  | [] => defaultMove s

/-- The state with an instruction word where the next step fetches (log 50). An instruction is one word of 32 bits (R62). -/
def State.withFetchWord (s : State) (_nbits w : Nat) : State := placeWord s (BitVec.ofNat 32 w)

end Sys2Proof.Machine
end

