-- ==== Sys2Proof/Safety.lean ====
section
/-! DEFINITION. What counts as a safe run: the machine never stops, and its memory keeps the canonical form; and the terms in
which the statements speak of the issue of one instruction. -/
namespace Sys2Proof.Machine

/-- A step that answers a next state. -/
def Advances (s : State) : Prop := ∃ t, step s = .next t

/-- The states that a run from a state reaches. -/
inductive Reaches (s : State) : State → Prop
  | refl : Reaches s s
  | step {t u : State} : Reaches s t → Machine.step t = .next u → Reaches s u

/-- Every state that a run from a state reaches advances. -/
def SafeFrom (s : State) : Prop := ∀ t, Reaches s t → Advances t

/-- The invariant that every step keeps: memory stands in its one canonical form. -/
def State.inv (s : State) : Prop := Memory.wf s.mem = true

/-! ### The current slot -/

/-- The current slot. -/
def State.cur (s : State) : Slot := getSlot s s.curCore s.curSlot
/-- The current slot as its next instruction finds it: writes and flags whose clock has come are made (R19, R20, R69). -/
def State.found (s : State) : Slot := s.cur.settle
/-- The state with its current slot replaced. -/
def State.setCur (s : State) (v : Slot) : State := setSlot s s.curCore s.curSlot v
/-- The state in which an instruction that issues does its own effect. -/
def State.settled (s : State) : State := s.setCur s.found

/-- R21, R19, R392: the current slot runs an activation, no access of it holds the issue back, no register named has a
variable-latency write outstanding, and with the early-read check on no source has a fixed-latency write pending. -/
def canIssue (s : State) (srcs dsts : List RegRef) : Bool :=
  s.cur.status == .running && s.cur.accs.all (fun a => !a.dst.holdsIssue)
    && (srcs ++ dsts).all (fun r => r.constant || !s.cur.interlocked.contains r)
    && (!s.cur.chk || srcs.all fun r => r.constant || !s.found.pend.any fun p => p.reg == r)

/-- The current slot's next instruction issues: the clocks run, and no spent budget, halt or breakpoint comes before it
(R37, R345, R346). -/
def issuesNext (s : State) : Bool :=
  clocksRun s && s.cur.status == .running && !(countsBudget s.cur && s.cur.budget == 0) && !haltDue s s.cur
    && !((reached (getCore s s.curCore) s.cur).isSome && !s.cur.inDebug && !s.cur.passBreak && !s.cur.active)

/-- The register r of a slot, as 512 bits; x0 is zero, k0 all ones. -/
def Slot.reg (sl : Slot) (r : RegRef) : Vec :=
  match r.file with
  | .x => ofWord (sl.getX r.n)
  | .v => sl.getV r.n
  | .k => ofWord (sl.getK r.n)

/-- An instruction answers a next state of which Q holds. -/
def Does (i : Instr) (s : State) (Q : State → Prop) : Prop := ∃ t, exec i s = .next t ∧ Q t

/-- An event of the opcode table occurs exactly where ok holds, and leaves a state of which P holds. -/
def Occurs (i : Instr) (event : String) (s : State) (ok : Prop) (P : State → Prop) : Prop :=
  (ok → Does i s P) ∧ (¬ok → exec i s = notPermitted event)

/-- A command to the marionette die, or an access to its devices: it occurs exactly where the module has booted (15 R351) and ok holds;
a trip holds it back (15 R359), and else it leaves a state of which P holds. -/
def Commands (i : Instr) (event : String) (s : State) (ok : Prop) (P : State → Prop) : Prop :=
  Occurs i event s (s.boot.state = .running ∧ ok) fun t => (s.power.trip = true → t = s) ∧ (s.power.trip = false → P t)

/-- An event record stands where the head of a die's ring was (R343). -/
def Recorded (s t : State) (die code : Nat) (data : BitVec 64) : Prop :=
  ∃ e, findBy (·.1) (getDie s die).head (getDie t die).ring = some ((getDie s die).head, e) ∧ e.code = code ∧ e.data = data

/-- Every slot but one is as it was. -/
def OtherSlots (s t : State) (c : Nat) (i : Fin 4) : Prop := ∀ c' j, (c', j) ≠ (c, i) → getSlot t c' j = getSlot s c' j

/-- How an instruction of the current slot retires from a state u, in which it has had its other effects: its slot is sl with
the clock and the cycles moved by 1 + sc and npc next; the other slots of its core count the cycles; all else of u stands. -/
structure Retires (u t : State) (sc : Nat) (npc : Word) (sl : Slot) : Prop where
  rest  : t = { u with cores := t.cores }
  cores : ∀ c, c ≠ u.curCore → getCore t c = getCore u c
  core  : getCore t u.curCore =
    { getCore u u.curCore with cycle := (getCore u u.curCore).cycle + (1 + sc), slots := (getCore t u.curCore).slots }
  slots : ∀ i, i ≠ u.curSlot → getSlot t u.curCore i = slotCycles u (1 + sc) (getSlot u u.curCore i)
  slot  : t.cur = slotCycles u (1 + sc) (sl.issued sc npc)

/-- The current slot waits with a reason; the state is else as the instruction found it. -/
def Waits (i : Instr) (s : State) (w : Stall) : Prop :=
  exec i s = .next (stallSlot s.settled s.curCore s.curSlot w)

/-- The instruction takes the trap of R334, with its own address as epc. -/
def Traps (i : Instr) (s : State) (cause : Nat) (tval : Word) : Prop :=
  exec i s = .next (takeTrap s.settled s.curCore s.curSlot cause tval s.cur.pc)

/-- A fixed-latency instruction without flags: v goes to dst, visible lat clocks on, and the next instruction follows. -/
def WritesFixed (i : Instr) (s : State) (srcs : List RegRef) (dst : RegRef) (lat : Nat) (sc : BitVec 2) (v : Vec) : Prop :=
  canIssue s srcs [dst] = true →
    Does i s fun t => Retires s t sc.toNat (s.cur.pc + 4) (s.found.writeFix dst v lat)

/-- A local variable-latency instruction: its writes stand outstanding, and the next instruction follows. -/
def WritesLater (i : Instr) (s : State) (srcs dsts : List RegRef) (ws : List (RegRef × Vec)) : Prop :=
  canIssue s srcs dsts = true →
    Does i s fun t => Retires s t 0 (s.cur.pc + 4) (s.found.writeVar ws 0 false)

/-- A vector instruction and its channel twin write one value f of the slot and the vs1 operand: a register, or a word that
the twin pops first (R146). -/
def VectorPair (base twin : Instr) (a : BitVec 5) (ch : BitVec 4) (s : State) (srcs : List RegRef) (dst : RegRef) (lat : Nat)
    (sc : BitVec 2) (f : Slot → Vec → Vec × FFlags) : Prop :=
  (canIssue s ([vr a] ++ srcs) [dst] = true →
    Does base s fun t => Retires s t sc.toNat (s.cur.pc + 4)
      (accrueAt (s.found.writeFix dst (f s.found (s.found.rv a)).1 lat) (f s.found (s.found.rv a)).2 lat))
  ∧ (canIssue s srcs [dst] = true →
      ∀ w u, popPoisoned s.settled s.found ch.toNat = false → popWord s.settled s.curCore s.curSlot ch.toNat = some (w, u) →
        Does twin s fun t => Retires u t sc.toNat (s.cur.pc + 4)
          (accrueAt (u.cur.writeFix dst (f u.cur w).1 lat) (f u.cur w).2 lat))

/-- The same for a variable-latency instruction. -/
def VectorPairLater (base twin : Instr) (a : BitVec 5) (ch : BitVec 4) (s : State) (srcs dsts : List RegRef) (fp : Bool)
    (f : Slot → Vec → List (RegRef × Vec) × FFlags) : Prop :=
  (canIssue s ([vr a] ++ srcs) dsts = true →
    Does base s fun t => Retires s t 0 (s.cur.pc + 4)
      (s.found.writeVar (f s.found (s.found.rv a)).1 (f s.found (s.found.rv a)).2 fp))
  ∧ (canIssue s srcs dsts = true →
      ∀ w u, popPoisoned s.settled s.found ch.toNat = false → popWord s.settled s.curCore s.curSlot ch.toNat = some (w, u) →
        Does twin s fun t => Retires u t 0 (s.cur.pc + 4) (u.cur.writeVar (f u.cur w).1 (f u.cur w).2 fp))

/-- Lanes of width w of a result: lane j is g j where mask bit j is 1, and stays as old had it where it is 0 (R126). -/
def LanesAre (w : Width) (mask : BitVec 64) (old v : Vec) (g : Nat → Nat) : Prop :=
  ∀ j, j < w.lanes → lane v w.bits j = if maskBit mask j then g j else lane old w.bits j

/-- Flags are those of the active lanes together (R127). -/
def FlagsAre (n : Nat) (mask : BitVec 64) (fl : FFlags) (g : Nat → FFlags) : Prop :=
  ∀ k, k < 5 → fl.getLsbD k = (List.range n).any fun j => maskBit mask j && (g j).getLsbD k

/-! ### Memory instructions -/

/-- The current slot's memory instruction stands at its first element, no gate of R244 to R247 holds it, and it has the token
that an sc access needs (R246). -/
def ungated (s : State) (g : Gating) : Bool :=
  !s.cur.active && (gate s.curCore s.found g).isNone && (!g.sc || s.cur.token == some (seqrOf s.curCore s.cur.act g.scope))

/-- Translation of an access of the current slot, through its cluster (R267). -/
def State.trans (s : State) (va : Word) (k : AccessKind) : Trans := translate s (clusterOf s.curCore) s.cur.ctx va k

/-- The node of the current core, which is the home of its own slice (R257). -/
def State.node (s : State) : Nat := coreNode s.curCore

/-- The slot after its memory instruction has issued: the destinations claimed (R21), the token gone with the access, prog 0. -/
def Slot.left (sl : Slot) : Slot := { sl with token := none, active := false, nextReg := 0 }

/-- A memory instruction of one access to another home: the access is outstanding, its request stands last in the queue of
the pair of nodes, and the next instruction follows (R241 Issue). Its destination is claimed (R21), but where the answer may still be
a trap (R76, R392). -/
def RequestLeaves (i : Instr) (s : State) (srcs dsts : List RegRef) (g : Gating) (va : Word) (size : Nat) (kind : AccessKind)
    (op : Nat → MemOp) (dst : AccDst) : Prop :=
  canIssue s srcs dsts = true → ungated s g = true → va.toNat % size = 0 →
    ∀ pa key, s.trans va kind = .ok pa key → homeOf pa ≠ s.node →
      Does i s fun t => Retires
        (enqueue { s with nextId := s.nextId + 1 } s.node (homeOf pa)
          { newAccess (op pa).flits s.cur.ctx va ((op pa).body key ⟨s.curCore, s.curSlot, s.nextId, s.cur.token⟩) with
            opx := g.code * 32 })
        t 0 (s.cur.pc + 4)
        { (s.found.claim (if dst.holdsIssue then [] else dsts)).left with
          accs := s.cur.accs ++ [⟨s.nextId, homeOf pa, g.load, g.store, g.acquire || g.sc, va, s.cur.pc, dst⟩] }

/-- A memory instruction of one access to the core's own slice: it performs and completes at once, with the effect that P says
of the state beside the slot and of the slot. -/
def PerformsHere (i : Instr) (s : State) (srcs dsts : List RegRef) (g : Gating) (va : Word) (size : Nat) (kind : AccessKind)
    (P : Nat → State → Slot → Prop) : Prop :=
  canIssue s srcs dsts = true → ungated s g = true → va.toNat % size = 0 →
    ∀ pa key, s.trans va kind = .ok pa key → homeOf pa = s.node → isPoisoned s pa = false →
      Does i s fun t => ∃ u sl, Retires u t 0 (s.cur.pc + 4) sl ∧ P pa u sl

/-- Where an element of a memory instruction performs in the core's own slice. -/
def ownPa (s : State) (e : Elem) : Option Nat :=
  match s.trans e.va e.kind with
  | .ok pa _ => if homeOf pa = s.node then some pa else none
  | _ => none

/-- An element may leave: aligned, translated, and not poisoned where it performs at once. -/
def elemReady (s : State) (e : Elem) : Prop :=
  e.va.toNat % e.size = 0 ∧ (∃ pa key, s.trans e.va e.kind = .ok pa key) ∧ ∀ pa, ownPa s e = some pa → isPoisoned s pa = false

/-- Byte j of register rd that an element loads in the core's own slice. -/
def landedByte (s : State) (rd j : Nat) (e : Elem) : Option Byte :=
  match ownPa s e, e.dst with
  | some pa, .v r mask shift => if r = rd && mask.getLsbD j then some (memByte s.mem (pa + (j - shift))) else none
  | _, _ => none

/-- The byte at an address that an element stores in the core's own slice. -/
def stored (s : State) (x : Nat) (e : Elem) : Option Byte :=
  match (ownPa s e).map e.op with
  | some (.write a v m) => if a ≤ x && x < a + 64 && m.getLsbD (x - a) then some (v.extractLsb' (8 * (x - a)) 8) else none
  | some (.writeBlock a v _) => if a ≤ x && x < a + 64 then some (v.extractLsb' (8 * (x - a)) 8) else none
  | _ => none

/-- The descriptor of the block at an address that an element writes in the core's own slice. -/
def storedDesc (s : State) (x : Nat) (e : Elem) : Option Desc :=
  match (ownPa s e).map e.op with
  | some (.writeBlock a _ d) => if x / 64 = a / 64 then some d else none
  | _ => none

/-- The blocks of the core's own slice among addresses with positions: position, contents, descriptor. -/
def ownBlocks (s : State) (l : List (Word × Nat)) : List (Nat × Vec × Desc) :=
  l.filterMap fun p => match s.trans p.1 .read with
    | .ok pa _ => if homeOf pa = s.node then some (p.2, BitVec.ofNat 512 (memRead s.mem (pa / 64 * 64) 64), descOf s pa) else none
    | _ => none

/-- A matrix operation queued by the current slot, with blocks that have arrived. -/
def queued (s : State) (kind : MatKind) (need : Nat) (bs : List (Nat × Vec × Desc)) : List MatOp :=
  (s.cur.mats ++ [(⟨s.nextId, s.cur.pc, kind, need, []⟩ : MatOp)]).map fun m =>
    if m.id = s.nextId then { m with blocks := m.blocks ++ bs } else m

/-- A vector memory instruction whose elements may all leave: it completes; each element of another home is outstanding, in
order; the state beside the slot is u. -/
def ElementsLeave (i : Instr) (s : State) (srcs dsts : List RegRef) (g : Gating) (es : List Elem)
    (P : State → Slot → Prop) : Prop :=
  i.check = none → canIssue s srcs dsts = true → ungated s g = true → (g.sc = false ∨ es.length ≤ 1) →
    (∀ e ∈ es, elemReady s e) →
    Does i s fun t => ∃ u sl, Retires u t 0 (s.cur.pc + 4) sl
      ∧ u = { s with
          nextId := u.nextId, pairs := u.pairs, tokens := u.tokens, mem := u.mem, poisoned := u.poisoned, descs := u.descs }
      ∧ sl.x = s.found.x ∧ sl.k = s.found.k ∧ sl.sends = s.cur.sends
      ∧ sl.accs.map (fun a => (a.va, a.dst)) = s.cur.accs.map (fun a => (a.va, a.dst))
          ++ (es.filter fun e => (ownPa s e).isNone).map (fun e => (e.va, e.dst))
      ∧ P u sl

/-- A vector load: what own-slice elements load stands in the registers; every other byte of them stays; memory stays. -/
def VectorLoads (i : Instr) (s : State) (srcs dsts : List RegRef) (g : Gating) (es : List Elem) : Prop :=
  ElementsLeave i s srcs dsts g es fun u sl => u.mem = s.mem ∧ u.descs = s.descs ∧ u.poisoned = s.poisoned
    ∧ ∀ rd j, rd < 32 → j < 64 → (sl.getV rd).extractLsb' (8 * j) 8
        = (es.reverse.findSome? (landedByte s rd j)).getD ((s.found.getV rd).extractLsb' (8 * j) 8)

/-- A vector store: every byte of (canonical) memory is the last one that an own-slice element stores there, or as it was;
registers stay. -/
def VectorStores (i : Instr) (s : State) (srcs : List RegRef) (g : Gating) (es : List Elem) : Prop :=
  ElementsLeave i s srcs [] g es fun u sl => sl.v = s.found.v ∧ u.descs = s.descs
    ∧ (s.inv → ∀ x, memByte u.mem x = (es.reverse.findSome? (stored s x)).getD (memByte s.mem x))

/-- An instruction's access that is not permitted, not aligned or not translated: it traps, or waits for a walk. -/
def AccessStops (i : Instr) (s : State) (srcs dsts : List RegRef) (g : Gating) (va : Word) (size : Nat) (kind : AccessKind) :
    Prop :=
  canIssue s srcs dsts = true → s.cur.active = false → gate s.curCore s.found g = none →
    (va.toNat % size ≠ 0 → Traps i s 0x03 va)
    ∧ (va.toNat % size = 0 → s.trans va kind = .bad → Traps i s 0x04 va)
    ∧ (va.toNat % size = 0 → s.trans va kind = .miss →
        exec i s = .next (s.setCur { s.found with status := .walk va kind false, stall := none }))
    ∧ (va.toNat % size = 0 → (∃ pa key, s.trans va kind = .ok pa key) → g.sc = true →
        s.cur.token ≠ some (seqrOf s.curCore s.cur.act g.scope) →
        exec i s = .next (s.setCur { s.found with status := .token (seqrOf s.curCore s.cur.act g.scope), stall := none }))

/-! ### Exact values and rounding (04 R78, R88, R36) -/

/-- The exponent of a format's smallest unit: every finite value is a whole number of them. -/
def FFmt.unit (f : FFmt) : Int := f.emin - f.fb
/-- The magnitude of an encoding in smallest units; an infinity stands one step beyond the largest finite value. -/
def FFmt.mag (f : FFmt) (b : Nat) : Nat :=
  let e := b / 2 ^ f.fb % 2 ^ f.eb
  if e = 0 then b % 2 ^ f.fb else (2 ^ f.fb + b % 2 ^ f.fb) * 2 ^ (e - 1)
/-- The sign of an encoding, and its value in smallest units. -/
def FFmt.sign (f : FFmt) (b : Nat) : Bool := b / 2 ^ (f.eb + f.fb) % 2 == 1
def FFmt.units (f : FFmt) (b : Nat) : Int := if f.sign b then -(f.mag b : Int) else f.mag b
/-- The encoding of a magnitude with a sign. -/
def FFmt.withSign (f : FFmt) (neg : Bool) (c : Nat) : Nat := (if neg then 2 ^ (f.eb + f.fb) else 0) + c
/-- An encoding is finite, an infinity, a NaN, a signalling NaN. -/
def FFmt.isFin (f : FFmt) (b : Nat) : Prop := b % 2 ^ (f.eb + f.fb) < (2 ^ f.eb - 1) * 2 ^ f.fb
def FFmt.isInf (f : FFmt) (b : Nat) : Prop := b % 2 ^ (f.eb + f.fb) = (2 ^ f.eb - 1) * 2 ^ f.fb
def FFmt.isNan (f : FFmt) (b : Nat) : Prop := (2 ^ f.eb - 1) * 2 ^ f.fb < b % 2 ^ (f.eb + f.fb)
def FFmt.isSnan (f : FFmt) (b : Nat) : Prop := f.isNan b ∧ b % 2 ^ f.fb < 2 ^ (f.fb - 1)

/-- r is a non-zero exact value x, rounded once in a mode, with its flags (R36, R88, R89). neg is the sign of x; atLeast h and atMost h
compare its magnitude with h quarters of a smallest unit. To nearest, no other value of the format is nearer, and a tie goes to the even
encoding or away from zero; directed, no other lies between. A magnitude that reaches one step beyond the largest overflows. -/
def RoundsTo (f : FFmt) (mode : Nat) (neg : Bool) (atLeast atMost : Nat → Prop) (r : Nat × FFlags) : Prop :=
  let top := (2 ^ f.eb - 1) * 2 ^ f.fb
  let down : Prop := mode = 1 ∨ (mode = 2 ∧ neg = false) ∨ (mode = 3 ∧ neg = true)
  let up : Prop := (mode = 3 ∧ neg = false) ∨ (mode = 2 ∧ neg = true)
  let near : Prop := mode = 0 ∨ mode = 4
  let tooBig : Prop := atLeast (4 * f.mag top)
  let least := 4 * 2 ^ f.fb
  ∃ c, c ≤ top ∧ r.1 = f.withSign neg c
    ∧ (tooBig → (down → c = top - 1) ∧ (¬down → c = top))
    ∧ (¬tooBig →
      (down → atLeast (4 * f.mag c) ∧ ∀ d, c < d → d ≤ top → ¬atLeast (4 * f.mag d))
      ∧ (up → atMost (4 * f.mag c) ∧ ∀ d, d < c → ¬atMost (4 * f.mag d))
      ∧ (near → (∀ d, d < c → atLeast (2 * (f.mag c + f.mag d))) ∧ (∀ d, c < d → d ≤ top → atMost (2 * (f.mag c + f.mag d)))
        ∧ ∀ d, d ≠ c → d ≤ top → atLeast (2 * (f.mag c + f.mag d)) → atMost (2 * (f.mag c + f.mag d)) →
            if mode = 0 then c % 2 = 0 else d < c))
    ∧ let exact : Prop := ¬tooBig ∧ atLeast (4 * f.mag c) ∧ atMost (4 * f.mag c)
      let tiny : Prop := (near → ¬atLeast (least - 1)) ∧ (down → ¬atLeast least) ∧ (up → atMost (least - 2))
      (∃ nx of uf : Bool, r.2 = flagIf nx flagNX ||| flagIf of flagOF ||| flagIf uf flagUF
        ∧ (nx = true ↔ ¬exact) ∧ (of = true ↔ tooBig ∨ c = top) ∧ (uf = true ↔ ¬exact ∧ tiny))

/-- r is the non-zero value (n / d)·2^e of a sign, rounded once. -/
def RoundsRatio (f : FFmt) (mode : Nat) (neg : Bool) (n d : Nat) (e : Int) (r : Nat × FFlags) : Prop :=
  let a := n * 2 ^ (e - f.unit + 2).toNat
  let b (h : Nat) : Nat := h * d * 2 ^ (f.unit - 2 - e).toNat
  RoundsTo f mode neg (fun h => b h ≤ a) (fun h => a ≤ b h) r

/-- r is the non-zero whole number v of units 2^e, rounded once. -/
def RoundsInt (f : FFmt) (mode : Nat) (v : Int) (e : Int) (r : Nat × FFlags) : Prop := RoundsRatio f mode (v < 0) v.natAbs 1 e r

end Sys2Proof.Machine
end

