-- ==== Sys2Proof/Certificates/Slice0/Obligations.lean ====
section
/-! DEFINITION. The statements for the provers. Terms: Safety.lean. Each docstring names the rules of the specification that
its statement formalises; where a statement rests on a choice of the model it names the log entry. -/
open Sys2Proof Sys2Proof.Machine

/-! ### Decoding and stepping -/

/-- 03 R62, R70, R75, 05 R105, R107, R109, R110, R113: words of MUL, ADDI, LUI, JALR and REMU, written out from the encoding tables,
decode to the instructions they stand for, and three unassigned words to none. A sanity statement. -/
def Obligations.SampleWordsDecode : Prop :=
  decodeTableWord 32 0b01_000_00000_10110_01101_01101_0001011 = some (.mul 1 22 13 13)
  ∧ decodeTableWord 32 0b00_0000000000101_00010_00011_0000001 = some (.addi 0 5 2 3)
  ∧ decodeTableWord 32 0b00000000000000010010_01101_0001000 = some (.lui 0x12 13)
  ∧ decodeTableWord 32 0b00_0000000000000_00001_00000_0100010 = some (.jalr 0 1 0)
  ∧ decodeTableWord 32 0x380C568B = some (.remu 6 5 13)
  ∧ decodeTableWord 32 0b01_111_00000_00110_00101_01101_0001011 = none
  ∧ decodeTableWord 32 0xFFFFFFFF = none
  ∧ decodeTableWord 32 0 = none

/-- 03 R62 to R75: decoding the word of a well-formed instruction gives the instruction back, every operand at every value
its field admits. -/
def Obligations.DecodeOfEncode : Prop :=
  ∀ i : Instr, i.check = none → decodeWord (encode i) = .ok i

/-- 03 R75: a word that decodes is the word of its instruction, which is well-formed: no two words have one meaning, and
every field required to be zero is zero. -/
def Obligations.EncodeOfDecode : Prop :=
  ∀ (w : BitVec 32) (i : Instr), decodeWord w = .ok i → i.check = none ∧ encode i = w

/-- 05 R115, 10 R241 Issue: where the current slot's instruction is next and the word at its pc decodes, a step is the
meaning of the decoded instruction; a word that is no instruction takes the meaning of ILLEGAL (R75). The step adds nothing
around the meaning; an agenda may name the slot. The word is the four bytes at the translated pc, lowest first (R6).
The model's readings in it: log 1 and 56. -/
def Obligations.StepRunsDecodedInstruction : Prop :=
  ∀ (s : State) (pa key : Nat), s.agenda = [] → s.cur.stall = none → issuesNext s = true → s.cur.inDebug = false →
    translate s (clusterOf s.curCore) s.cur.ctx s.cur.pc .fetch = .ok pa key → isPoisoned s pa = false →
    (∀ i, decodeWord ((readThrough s pa 4 key).setWidth 32) = .ok i →
        step s = exec i s
        ∧ ∀ (c : Nat) (j : Fin 4) (rest : List Move),
            step { s with curCore := c, curSlot := j, agenda := .issue s.curCore s.curSlot :: rest }
              = exec i { s with agenda := rest })
    ∧ (∀ e, decodeWord ((readThrough s pa 4 key).setWidth 32) = .error e →
        step s = exec (.evIllegal ((readThrough s pa 4 key).setWidth 32)) s)
    ∧ ((isDram pa && blockKeyOf s pa != keyValue s key) = false →
        (readThrough s pa 4 key).setWidth 32
          = memByte s.mem (pa + 3) ++ memByte s.mem (pa + 2) ++ memByte s.mem (pa + 1) ++ memByte s.mem pa)

/-! ### Scalar integer instructions -/

/-- 05 R105, R106, R107: the immediate operations, immediate shifts, LUI and AUIPC complete with the result of their table,
visible one clock on, and change nothing else (AUIPC: outside debug execution). rd = x0 discards the result (R104).
05 R108: the register operations complete with the result of their table; shift amounts are bits 5 to 0 of rs2. -/
def Obligations.IntegerOperations : Prop :=
  (∀ (s : State) (sc : BitVec 2) (imm : BitVec 13) (h : BitVec 6) (u : BitVec 20) (a d : BitVec 5),
    let x := s.found.rx a
    let y := imm.signExtend 64
    WritesFixed (.addi sc imm a d) s [xr a] (xr d) 1 sc (ofWord (x + y))
    ∧ WritesFixed (.andi sc imm a d) s [xr a] (xr d) 1 sc (ofWord (x &&& y))
    ∧ WritesFixed (.ori sc imm a d) s [xr a] (xr d) 1 sc (ofWord (x ||| y))
    ∧ WritesFixed (.xori sc imm a d) s [xr a] (xr d) 1 sc (ofWord (x ^^^ y))
    ∧ WritesFixed (.slti sc imm a d) s [xr a] (xr d) 1 sc (ofWord (if x.toInt < y.toInt then 1 else 0))
    ∧ WritesFixed (.sltiu sc imm a d) s [xr a] (xr d) 1 sc (ofWord (if x.toNat < y.toNat then 1 else 0))
    ∧ WritesFixed (.slli sc h a d) s [xr a] (xr d) 1 sc (ofWord (x <<< h.toNat))
    ∧ WritesFixed (.srli sc h a d) s [xr a] (xr d) 1 sc (ofWord (x >>> h.toNat))
    ∧ WritesFixed (.srai sc h a d) s [xr a] (xr d) 1 sc (ofWord (x.sshiftRight h.toNat))
    ∧ WritesFixed (.rori sc h a d) s [xr a] (xr d) 1 sc (ofWord (x.rotateRight h.toNat))
    ∧ WritesFixed (.lui u d) s [] (xr d) 1 0 (ofWord ((u ++ 0#12).signExtend 64))
    ∧ (s.cur.inDebug = false → WritesFixed (.auipc u d) s [] (xr d) 1 0 (ofWord (s.cur.pc + (u ++ 0#12).signExtend 64))))
  ∧ (∀ (s : State) (sc : BitVec 2) (b a d : BitVec 5),
    let x := s.found.rx a
    let y := s.found.rx b
    let n := y.toNat % 64
    let W (i : Instr) (v : Word) : Prop := WritesFixed i s [xr a, xr b] (xr d) 1 sc (ofWord v)
    W (.add sc b a d) (x + y) ∧ W (.sub sc b a d) (x - y) ∧ W (.and sc b a d) (x &&& y) ∧ W (.or sc b a d) (x ||| y)
    ∧ W (.xor sc b a d) (x ^^^ y) ∧ W (.andn sc b a d) (x &&& ~~~y) ∧ W (.sll sc b a d) (x <<< n)
    ∧ W (.srl sc b a d) (x >>> n) ∧ W (.sra sc b a d) (x.sshiftRight n) ∧ W (.rol sc b a d) (x.rotateLeft n)
    ∧ W (.ror sc b a d) (x.rotateRight n) ∧ W (.slt sc b a d) (if x.toInt < y.toInt then 1 else 0)
    ∧ W (.sltu sc b a d) (if x.toNat < y.toNat then 1 else 0) ∧ W (.min sc b a d) (if x.toInt ≤ y.toInt then x else y)
    ∧ W (.max sc b a d) (if x.toInt ≤ y.toInt then y else x) ∧ W (.minu sc b a d) (if x.toNat ≤ y.toNat then x else y)
    ∧ W (.maxu sc b a d) (if x.toNat ≤ y.toNat then y else x))

/-- 05 R109: with p the exact product of the operands taken as the table states, MUL gives bits 63 to 0 and the others bits
127 to 64, visible three clocks on.
05 R110: the divides complete with a result that stands outstanding: the quotient truncated toward zero and the remainder
with the sign of the dividend; a divisor of 0 and −2^63 by −1 give the results of the table. -/
def Obligations.MultiplyAndDivide : Prop :=
  (∀ (s : State) (sc : BitVec 2) (b a d : BitVec 5),
    let x := s.found.rx a
    let y := s.found.rx b
    let W (i : Instr) (v : Word) : Prop := WritesFixed i s [xr a, xr b] (xr d) 3 sc (ofWord v)
    W (.mul sc b a d) (BitVec.ofInt 64 (x.toInt * y.toInt))
    ∧ W (.mulh sc b a d) ((BitVec.ofInt 128 (x.toInt * y.toInt)).extractLsb' 64 64)
    ∧ W (.mulhu sc b a d) ((BitVec.ofNat 128 (x.toNat * y.toNat)).extractLsb' 64 64)
    ∧ W (.mulhsu sc b a d) ((BitVec.ofInt 128 (x.toInt * y.toNat)).extractLsb' 64 64)
    ∧ (∀ f5 : BitVec 5,
      let word (f3 : BitVec 3) : BitVec 32 := sc ++ f3 ++ f5 ++ b ++ a ++ d ++ 0x0B#7
      (f5 = 0 → decodeWord (word 0) = .ok (.mul sc b a d) ∧ decodeWord (word 1) = .ok (.mulh sc b a d)
        ∧ decodeWord (word 2) = .ok (.mulhu sc b a d) ∧ decodeWord (word 3) = .ok (.mulhsu sc b a d))
      ∧ (f5 ≠ 0 → ∀ f3 i, decodeWord (word f3) ≠ .ok i))
    ∧ decodeWord 0x402CD68B = .ok (.mul 1 22 13 13))
  ∧ (∀ (s : State) (b a d : BitVec 5),
    let x := s.found.rx a
    let y := s.found.rx b
    let edge := x.toInt = -(2 ^ 63) ∧ y.toInt = -1
    let W (i : Instr) (v : Word) : Prop := WritesLater i s [xr a, xr b] [xr d] [(xr d, ofWord v)]
    W (.div b a d) (if y = 0 then -1 else if edge then x else BitVec.ofInt 64 (x.toInt.tdiv y.toInt))
    ∧ W (.divu b a d) (if y = 0 then -1 else BitVec.ofNat 64 (x.toNat / y.toNat))
    ∧ W (.rem b a d) (if y = 0 then x else if edge then 0 else BitVec.ofInt 64 (x.toInt.tmod y.toInt))
    ∧ W (.remu b a d) (if y = 0 then x else BitVec.ofNat 64 (x.toNat % y.toNat))
    ∧ (y ≠ 0 → BitVec.ofInt 64 (x.toInt.tdiv y.toInt) * y + BitVec.ofInt 64 (x.toInt.tmod y.toInt) = x
      ∧ BitVec.ofNat 64 (x.toNat / y.toNat) * y + BitVec.ofNat 64 (x.toNat % y.toNat) = x
      ∧ (0 < x.toInt.tmod y.toInt → 0 < x.toInt) ∧ (x.toInt.tmod y.toInt < 0 → x.toInt < 0))
    ∧ (let word (z : BitVec 2) (f3 : BitVec 3) : BitVec 32 := z ++ f3 ++ 0#5 ++ b ++ a ++ d ++ 0x0B#7
      decodeWord (word 0 4) = .ok (.div b a d) ∧ decodeWord (word 0 5) = .ok (.divu b a d)
      ∧ decodeWord (word 0 6) = .ok (.rem b a d) ∧ decodeWord (word 0 7) = .ok (.remu b a d)
      ∧ ∀ z, z ≠ 0 → ∀ f3 : BitVec 3, 4 ≤ f3.toNat → ∀ i, decodeWord (word z f3) ≠ .ok i)
    ∧ decodeWord 0x380C568B = .ok (.remu 6 5 13))

/-- 05 R111: the counts, bit extraction and deposit, sign extensions and byte reversal complete with results that the table
describes bit by bit. -/
def Obligations.BitManipulation : Prop :=
  ∀ (s : State) (sc : BitVec 2) (b a d : BitVec 5),
    let x := s.found.rx a
    let m := s.found.rx b
    let ones (n : Nat) : List Nat := (List.range n).filter m.getLsbD
    let W1 (i : Instr) (v : Word) : Prop := WritesFixed i s [xr a] (xr d) 1 sc (ofWord v)
    let W2 (i : Instr) (v : Word) : Prop := WritesFixed i s [xr a, xr b] (xr d) 1 sc (ofWord v)
    (∃ n, n ≤ 64 ∧ x.toNat < 2 ^ (64 - n) ∧ (n < 64 → 2 ^ (63 - n) ≤ x.toNat) ∧ W1 (.clz sc a d) (BitVec.ofNat 64 n))
    ∧ (∃ n, n ≤ 64 ∧ (∀ j, j < n → x.getLsbD j = false) ∧ (n < 64 → x.getLsbD n = true) ∧ W1 (.ctz sc a d) (BitVec.ofNat 64 n))
    ∧ W1 (.popc sc a d) (BitVec.ofNat 64 ((List.range 64).filter x.getLsbD).length)
    ∧ (∃ r : Word, W2 (.bext sc b a d) r
        ∧ ∀ j, j < 64 → r.getLsbD j = match (ones 64)[j]? with | some p => x.getLsbD p | none => false)
    ∧ (∃ r : Word, W2 (.bdep sc b a d) r ∧ ∀ p, p < 64 → r.getLsbD p = (m.getLsbD p && x.getLsbD (ones p).length))
    ∧ W1 (.sextb sc a d) ((x.setWidth 8).signExtend 64) ∧ W1 (.sexth sc a d) ((x.setWidth 16).signExtend 64)
    ∧ W1 (.sextw sc a d) ((x.setWidth 32).signExtend 64)
    ∧ ∃ r : Word, W1 (.rev8 sc a d) r ∧ ∀ k, k < 8 → r.extractLsb' (8 * k) 8 = x.extractLsb' (8 * (7 - k)) 8

/-! ### Control flow -/

/-- 05 R112, R113: JAL and JALR link and jump; a JALR target whose low two bits are not 0 traps MISALIGN with the target as
tval, and no register changes.
05 R114: a branch continues at its target when its condition holds, else at P + 4, and writes no register. Outside debug
execution, where R345 gives the pc; DebugEvents states them there. -/
def Obligations.JumpsAndBranches : Prop :=
  (∀ (s : State) (imm : BitVec 20) (imm' : BitVec 13) (a d : BitVec 5),
    let link := s.found.writeFix (xr d) (ofWord (s.cur.pc + 4)) 1
    let t := s.found.rx a + imm'.signExtend 64
    (s.cur.inDebug = false →
      (canIssue s [] [xr d] = true → Does (.jal imm d) s fun u => Retires s u 0 (s.cur.pc + imm.signExtend 64 * 4) link)
      ∧ (canIssue s [xr a] [xr d] = true → t.toNat % 4 = 0 → Does (.jalr imm' a d) s fun u => Retires s u 0 t link)
      ∧ (canIssue s [xr a] [xr d] = true → t.toNat % 4 ≠ 0 → Traps (.jalr imm' a d) s 0x03 t))
    ∧ decodeWord (imm ++ d ++ 0x23#7) = .ok (.jal imm d) ∧ decodeWord (0#2 ++ imm' ++ a ++ d ++ 0x22#7) = .ok (.jalr imm' a d)
    ∧ (∀ z : BitVec 2, z ≠ 0 → ∀ i, decodeWord (z ++ imm' ++ a ++ d ++ 0x22#7) ≠ .ok i)
    ∧ decodeWord 0x00001022 = .ok (.jalr 0 1 0)
    ∧ -2 ^ 19 ≤ (imm.signExtend 64 : Word).toInt ∧ (imm.signExtend 64 : Word).toInt < 2 ^ 19)
  ∧ (∀ (s : State) (off : BitVec 12) (b a : BitVec 5), canIssue s [xr a, xr b] [] = true → s.cur.inDebug = false →
    let x := s.found.rx a
    let y := s.found.rx b
    let B (i : Instr) (taken : Prop) [Decidable taken] : Prop :=
      Does i s fun u => Retires s u 0 (if taken then s.cur.pc + off.signExtend 64 * 4 else s.cur.pc + 4) s.found
    B (.beq off b a) (x = y) ∧ B (.bne off b a) (x ≠ y) ∧ B (.blt off b a) (x.toInt < y.toInt)
    ∧ B (.bge off b a) (y.toInt ≤ x.toInt) ∧ B (.bltu off b a) (x.toNat < y.toNat) ∧ B (.bgeu off b a) (y.toNat ≤ x.toNat)
    ∧ -2 ^ 11 ≤ (off.signExtend 64 : Word).toInt ∧ (off.signExtend 64 : Word).toInt < 2 ^ 11
    ∧ ∀ (hi : BitVec 7) (lo : BitVec 5),
        let word (cond : BitVec 3) : BitVec 32 := cond ++ hi ++ b ++ a ++ lo ++ 0x24#7
        decodeWord (word 0) = .ok (.beq (hi ++ lo) b a) ∧ decodeWord (word 1) = .ok (.bne (hi ++ lo) b a)
        ∧ decodeWord (word 2) = .ok (.blt (hi ++ lo) b a) ∧ decodeWord (word 3) = .ok (.bge (hi ++ lo) b a)
        ∧ decodeWord (word 4) = .ok (.bltu (hi ++ lo) b a) ∧ decodeWord (word 5) = .ok (.bgeu (hi ++ lo) b a)
        ∧ ∀ i, decodeWord (word 6) ≠ .ok i ∧ decodeWord (word 7) ≠ .ok i)

/-! ### CSRs and system instructions -/

/-- 05 R116, R117: a CSR instruction gives rd the old value and writes the CSR field by field, unless it waits for FP results
(R69). CSRRS and CSRRC with a zero source field write nothing. A CSR that is not assigned, or a write of a read-only one,
traps ILLEGAL with the word: 0x001 to 0x004 and 0xC00 to 0xC0E are assigned, and those from 0xC00 on are read-only (01 R34).
01 R36, 05 R117: a write of fflags, frm, chk and oscope changes that register's field alone: a frm above 4 and an oscope
of 6 or 7 leave it; other bits of the value are ignored. Reading back gives the field. Every other assigned CSR reads as the fields of
R36: coreid, slot, actor, chan, msgid, launch, ctx, tagdone, zfree (R22: the lowest free row and their number), cmask, budget, prog, cause,
epc and tval. -/
def Obligations.CsrAccess : Prop :=
  (∀ (s : State) (sc : BitVec 2) (immSrc : Bool) (csr : BitVec 12) (a d : BitVec 5),
    let srcs := if immSrc then [] else [xr a]
    let v : Word := if immSrc then a.setWidth 64 else s.found.rx a
    let old := csrRead s.settled s.curCore s.curSlot s.found csr.toNat
    let ready := canIssue s srcs [xr d] = true ∧ (csr = 1 → s.cur.locals.any (·.fp) = false)
    let C (i : Instr) (writes : Bool) (new : Word) : Prop :=
      (ready → csrAssigned csr = true → (writes && csrReadOnly csr) = false →
        Does i s fun t => Retires s t sc.toNat (s.cur.pc + 4)
          ((if writes then csrWrite s.found csr.toNat new else s.found).writeFix (xr d) (ofWord old) 1))
      ∧ (s.cur.status = .running → (!csrAssigned csr || (writes && csrReadOnly csr)) = true →
          Traps i s 0x01 ((encode i).setWidth 64))
    C (.csrrw sc immSrc csr a d) true v
    ∧ C (.csrrs sc immSrc csr a d) (a != 0) (old ||| v)
    ∧ C (.csrrc sc immSrc csr a d) (a != 0) (old &&& ~~~v))
  ∧ (∀ n : BitVec 12, (csrAssigned n = true ↔ n.toNat ∈ [1, 2, 3, 4] ∨ (0xC00 ≤ n.toNat ∧ n.toNat ≤ 0xC0E))
    ∧ (csrReadOnly n = true ↔ n.toNat / 2 ^ 10 = 3))
  ∧ (∀ (s : State) (c : Nat) (i : Fin 4) (sl : Slot) (v : Word),
    csrWrite sl 0x001 v = { sl with fflags := v.setWidth 5 }
    ∧ csrWrite sl 0x002 v = { sl with frm := if v.toNat % 8 ≤ 4 then v.setWidth 3 else sl.frm }
    ∧ csrWrite sl 0x003 v = { sl with chk := v.getLsbD 0 }
    ∧ (csrRead s c i (csrWrite sl 0x004 v) 0x004).toNat
        = (if v.toNat % 8 ≤ 5 then v.toNat % 8 else (csrRead s c i sl 0x004).toNat)
    ∧ (∀ n, n ≠ 0x004 → csrRead s c i (csrWrite sl 0x004 v) n = csrRead s c i sl n)
    ∧ csrRead s c i (csrWrite sl 0x001 v) 0x001 = (v.setWidth 5).setWidth 64
    ∧ (csrRead s c i (csrWrite sl 0x002 v) 0x002).toNat = (if v.toNat % 8 ≤ 4 then v.toNat % 8 else sl.frm.toNat)
    ∧ (csrRead s c i (csrWrite sl 0x003 v) 0x003).toNat = v.toNat % 2
    ∧ (csrRead s c i sl 0x001).toNat = sl.fflags.toNat ∧ (csrRead s c i sl 0x002).toNat = sl.frm.toNat
    ∧ (csrRead s c i sl 0x003).toNat = (if sl.chk then 1 else 0)
    ∧ (csrRead s c i sl 0x004).toNat = (match sl.oscope with
        | .thread => 0 | .core => 1 | .cluster => 2 | .die => 3 | .module => 4 | .domain => 5)
    ∧ (csrRead s c i sl 0xC00).toNat = c % 2 ^ 24 ∧ (csrRead s c i sl 0xC01).toNat = i.val
    ∧ (csrRead s c i sl 0xC02).toNat = sl.actor % 2 ^ 32
    ∧ (csrRead s c i sl 0xC03).toNat = (if sl.task then 2 ^ 16 else 0) + 2 ^ 8 * (sl.cls % 8) + sl.chan % 16
    ∧ csrRead s c i sl 0xC04 = sl.msgid ∧ (csrRead s c i sl 0xC05).toNat = sl.launch % 2 ^ 32
    ∧ (csrRead s c i sl 0xC06).toNat = sl.ctx % 2 ^ 13 ∧ csrRead s c i sl 0xC07 = (getResident s c sl.launch).tagdone
    ∧ (let z := (csrRead s c i sl 0xC08).toNat
       z < 2 ^ 28 ∧ z % 2 ^ 16 = ((List.range 2048).filter (rowFree s c)).length
       ∧ ((∀ r, r < 2048 → rowFree s c r = false) → z / 2 ^ 16 = 0x800)
       ∧ ∀ r, r < 2048 → rowFree s c r = true → z / 2 ^ 16 ≤ r ∧ rowFree s c (z / 2 ^ 16) = true)
    ∧ (csrRead s c i sl 0xC09).toNat = (getResident s c sl.launch).cmask.toNat
    ∧ (csrRead s c i sl 0xC0A).toNat = sl.budget % 2 ^ 25
    ∧ (csrRead s c i sl 0xC0B).toNat = (if sl.active then 2 ^ 8 else 0) + sl.nextReg % 2 ^ 6
    ∧ (csrRead s c i sl 0xC0C).toNat = sl.cause.toNat ∧ csrRead s c i sl 0xC0D = sl.epc ∧ csrRead s c i sl 0xC0E = sl.tval)

/-- 05 R119 to R122: the system instructions, of a slot with no access and no variable-latency write outstanding. ECALL and
EBREAK wait n clocks for the last pending fixed-latency write (R119 step 1), which is then made; where the budget ends in that wait
the activation traps BUDGET (01 R37). ECALL delivers its request, a7
and a0 to a5 with the activation's names, and waits for the service with cause ECALL, epc the ECALL, and the next instruction as
its pc; as a word of debug execution it traps with the same cause, and the activation stays halted (14 R346; that it is a trap
there is the model's reading, log 10). EBREAK, not under a STEP: halted for an attached debugger; with none, the trap EBREAK. TRET: the end of debug
execution; elsewhere ILLEGAL. HEND outside debug execution: the wait of its step 2 begins; no budget counts. -/
def Obligations.SystemInstructions : Prop :=
  ∀ (s : State) (l : Launch), canIssue s [] [] = true → s.cur.interlocked = [] → s.cur.accs = [] →
    getLaunch s s.cur.launch = some l →
    ∃ n, (∀ p ∈ s.found.pend, p.vis ≤ s.cur.clock + n) ∧ (n ≠ 0 → ∃ p ∈ s.found.pend, p.vis = s.cur.clock + n) ∧
    let done : Slot := ({ s.found with clock := s.cur.clock + n } : Slot).settle
    let cause (st : Status) (n : BitVec 8) (t : State) : Prop :=
      t.cur.status = st ∧ t.cur.cause = n ∧ t.cur.epc = s.cur.pc ∧ t.cur.tval = 0 ∧ t.cur.pc = s.cur.pc + 4
      ∧ t.cur.clock = done.clock + 1 ∧ t.cur.pend = [] ∧ t.cur.x = done.x ∧ t.cur.v = done.v ∧ t.cur.k = done.k ∧ t.mem = s.mem
    (s.cur.inDebug = false → n < s.cur.budget → Does .ecall s fun t => cause .ecall 0x0B t ∧ ∃ r, t.requests = s.requests ++ [r]
        ∧ r.core = s.curCore ∧ r.slot = s.curSlot ∧ r.actor = s.cur.actor ∧ r.msgid = s.cur.msgid ∧ r.launch = s.cur.launch
        ∧ r.ctx = s.cur.ctx ∧ r.service = done.getX 12 ∧ r.args = (List.range 6).map fun k => done.getX (5 + k))
    ∧ (s.cur.inDebug = true → Does .ecall s fun t => t.cur.status = .halted ∧ t.cur.inDebug = false ∧ t.cur.cause = 0x0B
        ∧ t.cur.epc = s.cur.pc ∧ t.cur.tval = 0 ∧ t.cur.pc = s.cur.pc ∧ t.requests = s.requests)
    ∧ (s.cur.inDebug = false → s.cur.budget ≤ n → ∀ i ∈ [Instr.ecall, .ebreak], Does i s fun t => t.cur.status = .free
        ∧ (∀ q ∈ t.requests, q ∈ s.requests) ∧ ∃ r, t.reports = s.reports ++ [r] ∧ r.launch = s.cur.launch ∧ r.cause = 0x05
          ∧ r.epc = s.cur.pc ∧ r.tval = BitVec.ofNat 64 l.budget)
    ∧ (s.cur.inDebug = false → n < s.cur.budget → s.cur.oneStep = false → l.attached = true → Does .ebreak s (cause .halted 0x0C))
    ∧ (s.cur.inDebug = false → n < s.cur.budget → l.attached = false → Does .ebreak s fun t => t.cur.status = .free
        ∧ ∃ r, t.reports = s.reports ++ [r] ∧ r.launch = s.cur.launch ∧ r.cause = 0x0C ∧ r.epc = s.cur.pc)
    ∧ (s.cur.inDebug = true → Does .tret s fun t => t.cur.status = .running ∧ t.cur.inDebug = false ∧ t.cur.pc = s.cur.pc
        ∧ t.cur.clock = s.cur.clock + 1)
    ∧ (s.cur.inDebug = false → Traps .tret s 0x01 0x00800028)
    ∧ (s.cur.inDebug = false → Does .hend s fun t => t.cur.status = .hend ∧ t.cur.pc = s.cur.pc ∧ t.cur.budget = s.cur.budget
        ∧ countsBudget t.cur = false ∧ t.cur.sends = s.cur.sends ∧ t.cur.waited = 0)

/-! ### Visibility, interlock and the constant registers -/

/-- 01 R19: a fixed-latency result with latency lat is read from issue clock c + lat on; until then the register reads as it
was. Every other register reads as it was throughout.
01 R20: of two fixed-latency writes to one register, the one issued later stands from the moment it is visible, whenever
the slot looks; an earlier-issued one that comes after it is discarded. Pending writes alone never trap (stated of ADD). -/
def Obligations.FixedLatencyWrites : Prop :=
  (∀ (sl : Slot) (r q : RegRef) (v : Vec) (lat n : Nat), sl.pend = [] → q ≠ r →
    let t : Slot := { sl.writeFix r v lat with clock := sl.clock + n }
    (n < lat → t.settle.reg r = sl.reg r)
    ∧ (lat ≤ n → r.constant = false → r.n < (if r.file = .k then 8 else 32) →
        t.settle.reg r = if r.file = .v then v else ofWord (v.setWidth 64))
    ∧ t.settle.reg q = sl.reg q)
  ∧ ((∀ (sl : Slot) (r : RegRef) (v1 v2 : Vec) (t1 t2 m n : Nat), r.constant = false →
    r.n < (if r.file = .k then 8 else 32) → m ≤ n → t2 ≤ n →
    let s1 : Slot := { sl with pend := [⟨r, v1, t1, false⟩, ⟨r, v2, t2, false⟩], clock := m }
    ({ s1.settle with clock := n } : Slot).settle.reg r = if r.file = .v then v2 else ofWord (v2.setWidth 64))
  ∧ ∀ (s : State) (sc : BitVec 2) (b a d : BitVec 5), s.cur.status = .running → s.cur.accs.all (fun x => !x.dst.holdsIssue) = true →
      s.cur.interlocked = [] → (s.cur.chk = false ∨ ∀ p ∈ s.found.pend, p.reg ≠ xr a ∧ p.reg ≠ xr b) →
        Does (.add sc b a d) s fun t => t.reports = s.reports)

/-- 01 R21, R19: an instruction that names a register with a variable-latency write outstanding waits at issue and has no
effect; with the early-read check on, one whose source has a fixed-latency write pending traps EARLYREAD. Stated of ADD, of
VADD and of a load.
01 R12, R16: x0 reads as zero and k0 as all ones whatever a slot holds, and a write of either is discarded, whichever way
it is made.
The model's readings in it: log 56. -/
def Obligations.IssueChecksAndConstants : Prop :=
  (∀ (s : State) (sc : BitVec 2) (w : Width) (o : Ord) (imm : BitVec 13) (b a d : BitVec 5) (r : RegRef),
    s.cur.status = .running → s.cur.accs.all (fun x => !x.dst.holdsIssue) = true →
    (s.cur.interlocked = [r] → r.constant = false →
      ((r = xr a ∨ r = xr b ∨ r = xr d) → Waits (.add sc b a d) s (.interlock r))
      ∧ ((r = vr a ∨ r = vr b ∨ r = vr d) → Waits (.vadd sc 0 w b a d) s (.interlock r))
      ∧ ((r = xr a ∨ r = xr d) → Waits (.ldd o imm a d) s (.interlock r)))
    ∧ (s.cur.interlocked = [] → s.cur.chk = true → s.found.pend.map (·.reg) = [r] → r.constant = false →
        (r = xr a ∨ r = xr b → Traps (.add sc b a d) s 0x02 (BitVec.ofNat 64 r.n))
        ∧ (r = vr a ∨ r = vr b → Traps (.vadd sc 0 w b a d) s 0x02 (BitVec.ofNat 64 (256 + r.n)))
        ∧ (r = xr a → Traps (.ldd o imm a d) s 0x02 (BitVec.ofNat 64 r.n))))
  ∧ (∀ (sl : Slot) (v : Vec) (lat : Nat) (f : FFlags) (fp : Bool),
    sl.reg ⟨.x, 0⟩ = 0 ∧ sl.reg ⟨.k, 0⟩ = ofWord (BitVec.allOnes 64)
    ∧ sl.setReg ⟨.x, 0⟩ v = sl ∧ sl.setReg ⟨.k, 0⟩ v = sl
    ∧ sl.writeFix ⟨.x, 0⟩ v lat = sl ∧ sl.writeFix ⟨.k, 0⟩ v lat = sl
    ∧ (sl.writeVar [(⟨.x, 0⟩, v)] f fp).interlocked.count ⟨.x, 0⟩ = sl.interlocked.count ⟨.x, 0⟩)

/-! ### Vector and mask instructions -/

/-- 06 R126 to R128, R146: the integer lane operations and their channel twins complete; each active lane is what the table
gives for the lanes of its operands, each disabled lane as the destination had it, and no flag is raised. -/
def Obligations.VectorIntegerLanes : Prop :=
  ∀ (s : State) (sc : BitVec 2) (m : BitVec 3) (w : Width) (b a d : BitVec 5) (ch : BitVec 4),
    let n := w.bits
    let si (x : Nat) : Int := if x < 2 ^ (n - 1) then x else (x : Int) - 2 ^ n
    let low (z : Int) : Nat := (z % 2 ^ n).toNat
    let L (base twin : Instr) (g : Nat → Nat → Nat) : Prop :=
      ∃ f, VectorPair base twin a ch s ([vr b] ++ maskDst m d) (vr d) 2 sc f
        ∧ ∀ sl x, (f sl x).2 = 0
          ∧ LanesAre w (sl.rk m) (sl.rv d) (f sl x).1 fun j => g (lane x n j) (lane (sl.rv b) n j)
    L (.vadd sc m w b a d) (.vaddCh sc m w b ch d) (fun x y => (x + y) % 2 ^ n)
    ∧ L (.vsub sc m w b a d) (.vsubCh sc m w b ch d) (fun x y => low (x - y))
    ∧ L (.vmul sc m w b a d) (.vmulCh sc m w b ch d) (fun x y => x * y % 2 ^ n)
    ∧ L (.vmulh sc m w b a d) (.vmulhCh sc m w b ch d) (fun x y => low (si x * si y / 2 ^ n))
    ∧ L (.vmin sc m w b a d) (.vminCh sc m w b ch d) (fun x y => if si x ≤ si y then x else y)
    ∧ L (.vmax sc m w b a d) (.vmaxCh sc m w b ch d) (fun x y => if si x ≤ si y then y else x)
    ∧ L (.vminu sc m w b a d) (.vminuCh sc m w b ch d) (fun x y => if x ≤ y then x else y)
    ∧ L (.vmaxu sc m w b a d) (.vmaxuCh sc m w b ch d) (fun x y => if x ≤ y then y else x)
    ∧ L (.vand sc m w b a d) (.vandCh sc m w b ch d) (fun x y => x &&& y)
    ∧ L (.vor sc m w b a d) (.vorCh sc m w b ch d) (fun x y => x ||| y)
    ∧ L (.vxor sc m w b a d) (.vxorCh sc m w b ch d) (fun x y => x ^^^ y)
    ∧ L (.vandn sc m w b a d) (.vandnCh sc m w b ch d) (fun x y => x &&& (2 ^ n - 1 - y))
    ∧ L (.vshl sc m w b a d) (.vshlCh sc m w b ch d) (fun x y => x * 2 ^ (y % n) % 2 ^ n)
    ∧ L (.vshr sc m w b a d) (.vshrCh sc m w b ch d) (fun x y => x / 2 ^ (y % n))
    ∧ L (.vshra sc m w b a d) (.vshraCh sc m w b ch d) (fun x y => low (si x / 2 ^ (y % n)))
    ∧ ∃ f, VectorPair (.vpopc sc m w a d) (.vpopcCh sc m w ch d) a ch s (maskDst m d) (vr d) 2 sc f
        ∧ ∀ sl x, (f sl x).2 = 0
          ∧ LanesAre w (sl.rk m) (sl.rv d) (f sl x).1 fun j => ((List.range n).filter (lane x n j).testBit).length

/-- 06 R127, R129, R130, 03 R68, 04 R88 to R90, R146: the FP32 lane operations and their channel twins complete: each active
lane is the operation on its operands, flushed as fi and fo ask; the flags are those of the active lanes together, raised
when the result is visible, or when it completes for VFDIV. vd is the addend and always a source of the fused forms. fi replaces a
subnormal input by a zero of its sign; fo a subnormal result, with UF and NX. -/
def Obligations.VectorFpLanes : Prop :=
  (∀ (s : State) (sc : BitVec 2) (m : BitVec 3) (x : Flush) (b a d : BitVec 5) (ch : BitVec 4),
    let arg (v : Vec) (j : Nat) : Nat := flushIn x.fi (lane v 32 j)
    let Lanes (sl : Slot) (v : Vec) (fl : FFlags) (r : Nat → Nat × FFlags) : Prop :=
      LanesAre .w32 (sl.rk m) (sl.rv d) v (fun j => (r j).1) ∧ FlagsAre 16 (sl.rk m) fl (fun j => (r j).2)
    let F (base twin : Instr) (srcs : List RegRef) (op : Slot → Vec → Nat → Nat × FFlags) : Prop :=
      ∃ f, VectorPair base twin a ch s srcs (vr d) 4 sc f ∧ ∀ sl v, Lanes sl (f sl v).1 (f sl v).2 (op sl v)
    let F2 (base twin : Instr) (op : RMode → Nat → Nat → Nat × FFlags) : Prop :=
      F base twin ([vr b] ++ maskDst m d) fun sl v j => flushOut x.fo (op sl.frm.toNat (arg v j) (arg (sl.rv b) j))
    let F3 (base twin : Instr) (negP negC : Bool) : Prop :=
      F base twin ([vr b, vr d] ++ maskSrc m) fun sl v j =>
        flushOut x.fo (fma32 negP negC sl.frm.toNat (arg v j) (arg (sl.rv b) j) (arg (sl.rv d) j))
    F2 (.vfadd sc m x b a d) (.vfaddCh sc m x b ch d) fadd32
    ∧ F2 (.vfsub sc m x b a d) (.vfsubCh sc m x b ch d) fsub32
    ∧ F2 (.vfmul sc m x b a d) (.vfmulCh sc m x b ch d) fmul32
    ∧ F2 (.vfmin sc m x b a d) (.vfminCh sc m x b ch d) (fun _ p q => fminmax32 false p q)
    ∧ F2 (.vfmax sc m x b a d) (.vfmaxCh sc m x b ch d) (fun _ p q => fminmax32 true p q)
    ∧ F (.vfsqrt sc m x a d) (.vfsqrtCh sc m x ch d) (maskDst m d)
        (fun sl v j => flushOut x.fo (fsqrt32 sl.frm.toNat (arg v j)))
    ∧ F (.vfabs sc m a d) (.vfabsCh sc m ch d) (maskDst m d) (fun _ v j => (lane v 32 j % 2 ^ 31, 0))
    ∧ F3 (.vfma sc m x b a d) (.vfmaCh sc m x b ch d) false false
    ∧ F3 (.vfms sc m x b a d) (.vfmsCh sc m x b ch d) false true
    ∧ F3 (.vfnma sc m x b a d) (.vfnmaCh sc m x b ch d) true true
    ∧ F3 (.vfnms sc m x b a d) (.vfnmsCh sc m x b ch d) true false
    ∧ ∃ f, VectorPairLater (.vfdiv m x b a d) (.vfdivCh m x b ch d) a ch s ([vr b] ++ maskDst m d) [vr d] true f
        ∧ ∀ sl v, ∃ r, (f sl v).1 = [(vr d, r)] ∧ Lanes sl r (f sl v).2 fun j =>
            flushOut x.fo (fdiv32 sl.frm.toNat (arg v j) (arg (sl.rv b) j)))
  ∧ ∀ (v : Nat) (fl : FFlags), flushIn false v = v ∧ flushOut false (v, fl) = (v, fl)
    ∧ (0 < v % 2 ^ 31 → v % 2 ^ 31 < 2 ^ 23 →
        flushIn true v = v / 2 ^ 31 * 2 ^ 31 ∧ flushOut true (v, fl) = (v / 2 ^ 31 * 2 ^ 31, fl ||| 0b00011))
    ∧ ((v % 2 ^ 31 = 0 ∨ 2 ^ 23 ≤ v % 2 ^ 31) → flushIn true v = v ∧ flushOut true (v, fl) = (v, fl))

/-- 06 R131, 01 R15: the comparisons and their channel twins complete: predicate bit j is the condition of an active lane j,
and 0 elsewhere. An FP comparison raises NV for a signalling NaN in an active lane, and VFCMPLT and VFCMPLE for any NaN.
Of two FP32 patterns neither of which is a NaN, −0 equals +0, and the order is that of their signed magnitudes, the infinities outermost.
06 R132, R133: VBOOL3 looks each bit up in its truth table; the funnel shifts and rotates of 64-bit lanes. -/
def Obligations.VectorComparesAndLogic : Prop :=
  (∀ (s : State) (sc : BitVec 2) (m : BitVec 3) (w : Width) (fi : Bool) (b a : BitVec 5) (d : BitVec 3) (ch : BitVec 4),
    let n := w.bits
    let si (x : Nat) : Int := if x < 2 ^ (n - 1) then x else (x : Int) - 2 ^ n
    let C (base twin : Instr) (p : Nat → Nat → Bool) : Prop :=
      ∃ f, VectorPair base twin a ch s ([vr b] ++ maskSrc m) (kr d) 2 sc f
        ∧ ∀ sl x, (f sl x).2 = 0 ∧ ∀ j, (f sl x).1.getLsbD j
            = (decide (j < w.lanes) && maskBit (sl.rk m) j && p (lane x n j) (lane (sl.rv b) n j))
    let F (base twin : Instr) (quiet : Bool) (p : FVal → FVal → Bool) : Prop :=
      ∃ f, VectorPair base twin a ch s ([vr b] ++ maskSrc m) (kr d) 4 sc f
        ∧ ∀ sl x, let u (v : Vec) (j : Nat) : FVal := fp32 (flushIn fi (lane v 32 j))
            let bad (v : FVal) : Bool := if quiet then v.isNan else v.isSnan
            (∀ j, (f sl x).1.getLsbD j = (decide (j < 16) && maskBit (sl.rk m) j && p (u x j) (u (sl.rv b) j)))
            ∧ (f sl x).2 = if (List.range 16).any (fun j => maskBit (sl.rk m) j && (bad (u x j) || bad (u (sl.rv b) j)))
                then flagNV else 0
    C (.vcmpeq sc m w b a d) (.vcmpeqCh sc m w b ch d) (fun x y => x == y)
    ∧ C (.vcmpne sc m w b a d) (.vcmpneCh sc m w b ch d) (fun x y => x != y)
    ∧ C (.vcmplt sc m w b a d) (.vcmpltCh sc m w b ch d) (fun x y => decide (si x < si y))
    ∧ C (.vcmple sc m w b a d) (.vcmpleCh sc m w b ch d) (fun x y => decide (si x ≤ si y))
    ∧ C (.vcmpltu sc m w b a d) (.vcmpltuCh sc m w b ch d) (fun x y => decide (x < y))
    ∧ C (.vcmpleu sc m w b a d) (.vcmpleuCh sc m w b ch d) (fun x y => decide (x ≤ y))
    ∧ F (.vfcmpeq sc m fi b a d) (.vfcmpeqCh sc m fi b ch d) false fequal
    ∧ F (.vfcmplt sc m fi b a d) (.vfcmpltCh sc m fi b ch d) true fless
    ∧ F (.vfcmple sc m fi b a d) (.vfcmpleCh sc m fi b ch d) true (fun p q => fless p q || fequal p q)
    ∧ F (.vfcmpun sc m fi b a d) (.vfcmpunCh sc m fi b ch d) false (fun p q => p.isNan || q.isNan))
  ∧ (∀ p q : Nat, p < 2 ^ 32 → q < 2 ^ 32 →
    let nan (v : Nat) : Prop := 0x7F800000 < v % 2 ^ 31
    let key (v : Nat) : Int := if v < 2 ^ 31 then v else 2 ^ 31 - (v : Int)
    ((fp32 p).isNan = true ↔ nan p) ∧ ((fp32 p).isSnan = true ↔ nan p ∧ p / 2 ^ 22 % 2 = 0)
    ∧ (fless (fp32 p) (fp32 q) = true ↔ ¬nan p ∧ ¬nan q ∧ key p < key q)
    ∧ (fequal (fp32 p) (fp32 q) = true ↔ ¬nan p ∧ ¬nan q ∧ key p = key q))
  ∧ (∀ (s : State) (sc : BitVec 2) (t : BitVec 8) (h : BitVec 6) (b a d : BitVec 5) (ch : BitVec 4),
    let n := h.toNat
    let R (base twin : Instr) (srcs : List RegRef) (g : Slot → Vec → Nat → Nat) : Prop :=
      ∃ f, VectorPair base twin a ch s srcs (vr d) 1 sc f
        ∧ ∀ sl x, (f sl x).2 = 0 ∧ LanesAre .w64 (BitVec.allOnes 64) 0 (f sl x).1 (g sl x)
    (∃ f, VectorPair (.vbool3 sc t b a d) (.vbool3Ch sc t b ch d) a ch s [vr b, vr d] (vr d) 1 sc f
      ∧ ∀ sl x, (f sl x).2 = 0 ∧ ∀ i, i < 512 → (f sl x).1.getLsbD i
          = t.getLsbD (4 * (x.getLsbD i).toNat + 2 * ((sl.rv b).getLsbD i).toNat + ((sl.rv d).getLsbD i).toNat))
    ∧ R (.vfshl sc h b a d) (.vfshlCh sc h b ch d) [vr b]
        (fun sl x j => (lane x 64 j * 2 ^ 64 + lane (sl.rv b) 64 j) * 2 ^ n / 2 ^ 64 % 2 ^ 64)
    ∧ R (.vfshr sc h b a d) (.vfshrCh sc h b ch d) [vr b]
        (fun sl x j => (lane (sl.rv b) 64 j * 2 ^ 64 + lane x 64 j) / 2 ^ n % 2 ^ 64)
    ∧ R (.vrotl sc h a d) (.vrotlCh sc h ch d) [] (fun _ x j => (lane x 64 j * 2 ^ n + lane x 64 j / 2 ^ (64 - n)) % 2 ^ 64)
    ∧ R (.vrotr sc h a d) (.vrotrCh sc h ch d) [] (fun _ x j => (lane x 64 j * 2 ^ 64 + lane x 64 j) / 2 ^ n % 2 ^ 64))

/-- 06 R134, R135: the reductions write lane 0 alone, from the active lanes in ascending order; the scans write each active
lane with the result of the active lanes up to it. FP partial results start from the lowest active lane, a NaN in it as the canonical NaN
with NV where it is signalling; each later lane is combined with the partial result, fi and fo applied, its flags joined to those before. -/
def Obligations.VectorReductionsAndScans : Prop :=
  (∀ (s : State) (sc : BitVec 2) (m : BitVec 3) (w : Width) (x : Flush) (a d : BitVec 5) (ch : BitVec 4),
    let n := w.bits
    let si (v : Nat) : Int := if v < 2 ^ (n - 1) then v else (v : Int) - 2 ^ n
    let act (n : Nat) (sl : Slot) (upTo : Nat) (v : Vec) : List Nat :=
      ((List.range upTo).filter (maskBit (sl.rk m))).map (lane v n)
    let Red (base twin : Instr) (isOf : List Nat → Nat → Prop) : Prop :=
      ∃ f, VectorPair base twin a ch s ([vr d] ++ maskSrc m) (vr d) 4 sc f
        ∧ ∀ sl v, (f sl v).2 = 0 ∧ ∃ r, isOf (act n sl w.lanes v) r ∧ LanesAre w 1 (sl.rv d) (f sl v).1 fun _ => r
    let last (op : RMode → Nat → Nat → Nat × FFlags) (sl : Slot) (l : List Nat) : Option (Nat × FFlags) :=
      (fpPartials op sl.frm.toNat x none l).getLast?
    let Fred (base twin : Instr) (op : RMode → Nat → Nat → Nat × FFlags) (empty : Nat) : Prop :=
      ∃ f, VectorPair base twin a ch s ([vr d] ++ maskSrc m) (vr d) 8 sc f
        ∧ ∀ sl v, let r := (last op sl (act 32 sl 16 v)).getD (empty, 0)
            (f sl v).2 = r.2 ∧ LanesAre .w32 1 (sl.rv d) (f sl v).1 fun _ => r.1
    Red (.vredsum sc m w a d) (.vredsumCh sc m w ch d) (fun l r => r = l.sum % 2 ^ n)
    ∧ Red (.vredmin sc m w a d) (.vredminCh sc m w ch d)
        (fun l r => if l = [] then r = 2 ^ (n - 1) - 1 else r ∈ l ∧ ∀ y ∈ l, si r ≤ si y)
    ∧ Red (.vredmax sc m w a d) (.vredmaxCh sc m w ch d)
        (fun l r => if l = [] then r = 2 ^ (n - 1) else r ∈ l ∧ ∀ y ∈ l, si y ≤ si r)
    ∧ Fred (.vfredsum sc m x a d) (.vfredsumCh sc m x ch d) fadd32 0
    ∧ Fred (.vfredmin sc m x a d) (.vfredminCh sc m x ch d) (fun _ p q => fminmax32 false p q) 0x7F800000
    ∧ Fred (.vfredmax sc m x a d) (.vfredmaxCh sc m x ch d) (fun _ p q => fminmax32 true p q) 0xFF800000
    ∧ (∃ f, VectorPair (.vscan sc m w a d) (.vscanCh sc m w ch d) a ch s (maskDst m d) (vr d) 4 sc f
        ∧ ∀ sl v, (f sl v).2 = 0
          ∧ LanesAre w (sl.rk m) (sl.rv d) (f sl v).1 fun j => (act n sl (j + 1) v).sum % 2 ^ n)
    ∧ ∃ f, VectorPair (.vfscan sc m x a d) (.vfscanCh sc m x ch d) a ch s (maskDst m d) (vr d) 8 sc f
        ∧ ∀ sl v, (f sl v).2 = ((last fadd32 sl (act 32 sl 16 v)).getD (0, 0)).2
          ∧ LanesAre .w32 (sl.rk m) (sl.rv d) (f sl v).1 fun j => ((last fadd32 sl (act 32 sl (j + 1) v)).getD (0, 0)).1)
  ∧ ∀ (op : RMode → Nat → Nat → Nat × FFlags) (mode : RMode) (x : Flush) (v : Nat) (l : List Nat) (acc : Nat) (fl : FFlags),
    let last (l : List Nat) : Option (Nat × FFlags) := (fpPartials op mode x none l).getLast?
    let u := flushIn x.fi v
    last [] = none
    ∧ ((fp32 u).isNan = true → last [v] = some (0x7FC00000, if (fp32 u).isSnan then 0b10000 else 0))
    ∧ ((fp32 u).isNan = false → last [v] = some (flushOut x.fo (u, 0)))
    ∧ (last l = some (acc, fl) → let r := flushOut x.fo (op mode acc u)
        last (l ++ [v]) = some (r.1, r.2 ||| fl))

/-- 06 R136: the permutations, slides, broadcast, compress, expand, select and move, lane by lane. A source lane outside the
register reads as 0. VSEL does not read vd.
06 R137, R138: the merge instructions complete later with three results: vd the outputs of the merge loop in the active
lanes, vd + 1 their origins, lane by lane, and vd + 2 the lanes consumed of each input and the outputs that are no
sentinel. vd and vd + 1 are sources exactly when m3 is not 0. -/
def Obligations.VectorPermutesAndMerges : Prop :=
  (∀ (s : State) (sc : BitVec 2) (m : BitVec 3) (w : Width) (b a d : BitVec 5) (ch : BitVec 4),
    let n := w.bits
    let pick (v : Vec) (i : Nat) : Nat := if i < w.lanes then lane v n i else 0
    let below (sl : Slot) (j : Nat) : List Nat := (List.range j).filter (maskBit (sl.rk m))
    let P (base twin : Instr) (srcs : List RegRef) (old : Slot → Vec) (g : Slot → Vec → Nat → Nat) : Prop :=
      ∃ f, VectorPair base twin a ch s srcs (vr d) 2 sc f
        ∧ ∀ sl v, (f sl v).2 = 0 ∧ LanesAre w (sl.rk m) (old sl) (f sl v).1 (g sl v)
    let vd (sl : Slot) : Vec := sl.rv d
    P (.vperm sc m w b a d) (.vpermCh sc m w b ch d) ([vr b] ++ maskDst m d) vd
        (fun sl v j => pick v (lane (sl.rv b) n j))
    ∧ P (.vslideup sc m w b a d) (.vslideupCh sc m w b ch d) ([xr b] ++ maskDst m d) vd
        (fun sl v j => if j < (sl.rx b).toNat then 0 else pick v (j - (sl.rx b).toNat))
    ∧ P (.vslidedn sc m w b a d) (.vslidednCh sc m w b ch d) ([xr b] ++ maskDst m d) vd
        (fun sl v j => pick v (j + (sl.rx b).toNat))
    ∧ P (.vbcast sc m w b a d) (.vbcastCh sc m w b ch d) ([xr b] ++ maskDst m d) vd (fun sl v _ => pick v (sl.rx b).toNat)
    ∧ P (.vexpand sc m w a d) (.vexpandCh sc m w ch d) (maskDst m d) vd (fun sl v j => pick v (below sl j).length)
    ∧ P (.vsel sc m w b a d) (.vselCh sc m w b ch d) ([vr b] ++ maskSrc m) (fun sl => sl.rv b) (fun _ v j => lane v n j)
    ∧ P (.vmv sc m w a d) (.vmvCh sc m w ch d) (maskDst m d) vd (fun _ v j => lane v n j)
    ∧ ∃ f, VectorPair (.vcompress sc m w a d) (.vcompressCh sc m w ch d) a ch s ([vr d] ++ maskSrc m) (vr d) 2 sc f
        ∧ ∀ sl v, (f sl v).2 = 0 ∧ ∀ j, j < w.lanes → lane (f sl v).1 n j
            = match (below sl w.lanes)[j]? with | some i => lane v n i | none => lane (sl.rv d) n j)
  ∧ (∀ (s : State) (m : BitVec 3) (w : Width) (b a d : BitVec 5) (ch : BitVec 4),
    let n := w.bits
    let M (base twin : Instr) (union : Bool) : Prop :=
      ∃ f, VectorPairLater base twin a ch s ([vr b] ++ if m = 0 then [] else [kr m, vr d, vr (d + 1)])
          [vr d, vr (d + 1), vr (d + 2)] false f
        ∧ ∀ sl x, let active := (List.range w.lanes).filter (maskBit (sl.rk m))
            let run := mergeRun union n x (sl.rv b) ⟨0, 0, false⟩ active.length
            let at_ (j : Nat) : Nat := ((List.range j).filter (maskBit (sl.rk m))).length
            ∃ v0 v1 v2, f sl x = ([(vr d, v0), (vr (d + 1), v1), (vr (d + 2), v2)], 0)
              ∧ LanesAre w (sl.rk m) (sl.rv d) v0 (fun j => (run.1.getD (at_ j) (0, 0)).1)
              ∧ LanesAre w (sl.rk m) (sl.rv (d + 1)) v1 (fun j => (run.1.getD (at_ j) (0, 0)).2 % 2 ^ n)
              ∧ LanesAre w (BitVec.allOnes 64) 0 v2 (fun j => (if j = 0 then run.2.i else if j = 1 then run.2.j
                  else if j = 2 then (run.1.filter fun p => p.1 != 2 ^ n - 1).length else 0) % 2 ^ n)
    M (.vmrgu m w b a d) (.vmrguCh m w b ch d) true ∧ M (.vmrgi m w b a d) (.vmrgiCh m w b ch d) false)

/-- 06 R139 to R142: VCVT converts each active lane by its code; VTBDEC and VTBENC decode and encode elements of a typed block
that the x operand describes, and trap ILLEGAL with the word where its fields break R140. -/
def Obligations.ConversionsAndTypedBlocks : Prop :=
  ∀ (s : State) (sc : BitVec 2) (m : BitVec 3) (w : Width) (k b a d : BitVec 5),
    let n := w.bits
    let x := s.found.rx b
    let fmt := x.toNat / 16 % 16
    let e0 := x.toNat / 2 ^ 16 % 512
    let desc : Desc := x.setWidth 16
    let mode := s.found.frm.toNat
    let k' := s.found.rk m
    let Done (i : Instr) (v : Vec) (fl : FFlags) : Prop :=
      Does i s fun t => Retires s t sc.toNat (s.cur.pc + 4) (accrueAt (s.found.writeFix (vr d) v 3) fl 3)
    (canIssue s ([vr a] ++ maskDst m d) [vr d] = true → ∃ v fl, Done (.vcvt sc m w k a d) v fl
      ∧ LanesAre w k' (s.found.rv d) v (fun j => (convert k.toNat mode n (lane (s.found.rv a) n j)).1 % 2 ^ n)
      ∧ FlagsAre w.lanes k' fl (fun j => (convert k.toNat mode n (lane (s.found.rv a) n j)).2))
    ∧ (canIssue s ([vr a, xr b] ++ maskDst m d) [vr d] = true →
        (tblockOk x w.lanes = true → ∃ v fl, Done (.vtbdec sc m w b a d) v fl
          ∧ LanesAre w k' (s.found.rv d) v (fun j => (decodeElems s.found w (s.found.rv a) x j).1 % 2 ^ n)
          ∧ FlagsAre w.lanes k' fl (fun j => (decodeElems s.found w (s.found.rv a) x j).2))
        ∧ (tblockOk x w.lanes = false → Traps (.vtbdec sc m w b a d) s 0x01 ((encode (.vtbdec sc m w b a d)).setWidth 64)))
    ∧ (canIssue s ([vr a, xr b, vr d] ++ maskSrc m) [vr d] = true →
        (tblockOk x w.lanes = true → ∃ v fl, Done (.vtbenc sc m w b a d) v fl
          ∧ FlagsAre w.lanes k' fl (fun j => if e0 + j < blockElems fmt
              then (encodeElem mode fmt desc (fdecode (laneFmt w) (lane (s.found.rv a) n j))).2 else 0)
          ∧ ∀ i, i < blockElems fmt → element v fmt i
              = if e0 ≤ i ∧ i < e0 + w.lanes ∧ maskBit k' (i - e0) = true
                then (encodeElem mode fmt desc (fdecode (laneFmt w) (lane (s.found.rv a) n (i - e0)))).1 % 2 ^ fmtBits fmt
                else element (s.found.rv d) fmt i)
        ∧ (tblockOk x w.lanes = false → Traps (.vtbenc sc m w b a d) s 0x01 ((encode (.vtbenc sc m w b a d)).setWidth 64)))

/-- 06 R143 to R145: moves between the register files and the mask instructions. -/
def Obligations.MovesAndMasks : Prop :=
  ∀ (s : State) (sc : BitVec 2) (m : BitVec 3) (w : Width) (a d : BitVec 5) (ka kb kd : BitVec 3),
    let x := s.found.rk ka
    let y := s.found.rk kb
    let n := w.bits
    let l0 := lane (s.found.rv a) n 0
    let K (i : Instr) (v : Word) : Prop := WritesFixed i s [kr ka, kr kb] (kr kd) 1 sc (ofWord v)
    K (.kand sc kb ka kd) (x &&& y) ∧ K (.kor sc kb ka kd) (x ||| y) ∧ K (.kxor sc kb ka kd) (x ^^^ y)
    ∧ K (.kandn sc kb ka kd) (x &&& ~~~y)
    ∧ WritesFixed (.knot sc ka kd) s [kr ka] (kr kd) 1 sc (ofWord (~~~x))
    ∧ WritesFixed (.kmvKToX sc ka d) s [kr ka] (xr d) 1 sc (ofWord x)
    ∧ WritesFixed (.kmvXToK sc a kd) s [xr a] (kr kd) 1 sc (ofWord (s.found.rx a))
    ∧ WritesFixed (.kpopc sc ka d) s [kr ka] (xr d) 1 sc (ofWord (BitVec.ofNat 64 ((List.range 64).filter x.getLsbD).length))
    ∧ (∃ n, n ≤ 64 ∧ (∀ j, j < n → x.getLsbD j = false) ∧ (n < 64 → x.getLsbD n = true)
        ∧ WritesFixed (.kfirst sc ka d) s [kr ka] (xr d) 1 sc (ofWord (BitVec.ofNat 64 n)))
    ∧ WritesFixed (.vmvxv sc w a d) s [vr a] (xr d) 2 sc
        (ofWord (BitVec.ofInt 64 (if l0 < 2 ^ (n - 1) then l0 else (l0 : Int) - 2 ^ n)))
    ∧ ∃ v, WritesFixed (.vmvx sc m w a d) s ([xr a] ++ maskDst m d) (vr d) 2 sc v
        ∧ LanesAre w (s.found.rk m) (s.found.rv d) v fun j => if j = 0 then (s.found.rx a).toNat % 2 ^ n else 0

/-! ### Memory instructions -/

/-- 07 R151 to R155, 10 R241 Issue: a scalar load or store, a descriptor access or an atomic that goes to another home
completes at issue: its request stands in the queue of the pair and the access is outstanding, its destination with it.
No register, flag or byte of memory changes. The address is X[rs1], with the immediate added by loads and stores. -/
def Obligations.RequestsToOtherHomes : Prop :=
  ∀ (s : State) (o : Ord) (scp : Scope) (w64 : Bool) (imm : BitVec 13) (b a d : BitVec 5),
    let va := s.found.rx a + imm.signExtend 64
    let rd (n : Nat) (sg : Bool) : AccDst := if d = 0 then .none else .x d.toNat n sg
    let L (i : Instr) (n : Nat) (sg : Bool) : Prop :=
      RequestLeaves i s [xr a] [xr d] (gating o s.cur.oscope true false) va n .read (fun pa => .read pa n) (rd n sg)
    let S (i : Instr) (n : Nat) : Prop :=
      RequestLeaves i s [xr a, xr b] [] (gating o s.cur.oscope false true) va n .write
        (fun pa => .write pa (ofWord (s.found.rx b)) (BitVec.ofNat 64 (2 ^ n - 1))) .none
    let n := if w64 then 8 else 4
    let A (i : Instr) (op : RmwOp) : Prop :=
      RequestLeaves i s [xr a, xr b] [xr d] (gating o scp true true) (s.found.rx a) n .write
        (fun pa => .rmw pa n op (s.found.rx b)) (rd n true)
    let C (i : Instr) (fail : Ord) : Prop :=
      RequestLeaves i s [xr a, xr b, xr d] [xr d] (casGating o fail scp) (s.found.rx a) n .write
        (fun pa => .cas pa n (s.found.rx d) (s.found.rx b) (failCode fail)) (rd n true)
    L (.ldb o imm a d) 1 true ∧ L (.ldh o imm a d) 2 true ∧ L (.ldw o imm a d) 4 true ∧ L (.ldd o imm a d) 8 false
    ∧ L (.ldbu o imm a d) 1 false ∧ L (.ldhu o imm a d) 2 false ∧ L (.ldwu o imm a d) 4 false
    ∧ S (.stb o imm b a) 1 ∧ S (.sth o imm b a) 2 ∧ S (.stw o imm b a) 4 ∧ S (.std o imm b a) 8
    ∧ RequestLeaves (.ldtag o a d) s [xr a] [xr d] (gating o s.cur.oscope true false) (s.found.rx a) 64 .read
        (fun pa => .readDesc pa) (rd 2 false)
    ∧ RequestLeaves (.sttag o b a) s [xr a, xr b] [] (gating o s.cur.oscope false true) (s.found.rx a) 64 .write
        (fun pa => .writeDesc pa ((s.found.rx b).setWidth 16)) .none
    ∧ A (.amoadd o scp w64 b a d) .add ∧ A (.amoand o scp w64 b a d) .and ∧ A (.amoor o scp w64 b a d) .or
    ∧ A (.amoxor o scp w64 b a d) .xor ∧ A (.amomin o scp w64 b a d) .min ∧ A (.amomax o scp w64 b a d) .max
    ∧ A (.amominu o scp w64 b a d) .minu ∧ A (.amomaxu o scp w64 b a d) .maxu ∧ A (.amoswap o scp w64 b a d) .swap
    ∧ C (.casFailRlx o scp w64 b a d) .rlx ∧ C (.casFailAcq o scp w64 b a d) .acq ∧ C (.casFailSc o scp w64 b a d) .sc

/-- 07 R151, R155, 01 R6: a load of the core's own slice gives rd the bytes at its address, lowest first, extended as its name
says; LDTAG the descriptor of the block. Memory and every other register stay; a token held goes back. -/
def Obligations.OwnSliceLoads : Prop :=
  ∀ (s : State) (o : Ord) (imm : BitVec 13) (a d : BitVec 5),
    let va := s.found.rx a + imm.signExtend 64
    let L (i : Instr) (va : Word) (n : Nat) (v : Nat → Word) : Prop :=
      PerformsHere i s [xr a] [xr d] (gating o s.cur.oscope true false) va n .read fun pa u sl =>
        u = returnToken s s.cur.token ∧ sl = ((s.found.claim [xr d]).setReg (xr d) (ofWord (v pa))).left
    let b (pa k : Nat) : Byte := memByte s.mem (pa + k)
    let h (pa k : Nat) : BitVec 16 := b pa (k + 1) ++ b pa k
    let w (pa k : Nat) : BitVec 32 := h pa (k + 2) ++ h pa k
    L (.ldb o imm a d) va 1 (fun pa => (b pa 0).signExtend 64) ∧ L (.ldbu o imm a d) va 1 (fun pa => (b pa 0).setWidth 64)
    ∧ L (.ldh o imm a d) va 2 (fun pa => (h pa 0).signExtend 64) ∧ L (.ldhu o imm a d) va 2 (fun pa => (h pa 0).setWidth 64)
    ∧ L (.ldw o imm a d) va 4 (fun pa => (w pa 0).signExtend 64) ∧ L (.ldwu o imm a d) va 4 (fun pa => (w pa 0).setWidth 64)
    ∧ L (.ldd o imm a d) va 8 (fun pa => w pa 4 ++ w pa 0)
    ∧ L (.ldtag o a d) (s.found.rx a) 64 (fun pa => (descOf s pa).setWidth 64)

/-- 07 R152, R155, 01 R6: a store to the core's own slice writes the low bytes of rs2 at its address, lowest first; STTAG
writes the block's descriptor and no byte. Every other byte and descriptor, and every register, stays. -/
def Obligations.OwnSliceStores : Prop :=
  ∀ (s : State) (o : Ord) (imm : BitVec 13) (b a : BitVec 5),
    let r := returnToken s s.cur.token
    let S (i : Instr) (n : Nat) : Prop :=
      PerformsHere i s [xr a, xr b] [] (gating o s.cur.oscope false true) (s.found.rx a + imm.signExtend 64) n .write
        fun pa u sl => u = { r with mem := u.mem } ∧ sl = s.found.left
          ∧ (s.inv → ∀ x, memByte u.mem x =
              if pa ≤ x ∧ x < pa + n then (s.found.rx b).extractLsb' (8 * (x - pa)) 8 else memByte s.mem x)
    S (.stb o imm b a) 1 ∧ S (.sth o imm b a) 2 ∧ S (.stw o imm b a) 4 ∧ S (.std o imm b a) 8
    ∧ PerformsHere (.sttag o b a) s [xr a, xr b] [] (gating o s.cur.oscope false true) (s.found.rx a) 64 .write
        fun pa u sl => u = { r with descs := u.descs } ∧ sl = s.found.left
          ∧ ∀ x, descOf u x = if x / 64 = pa / 64 then (s.found.rx b).setWidth 16 else descOf s x

/-- 07 R153, R154: an atomic on the core's own slice gives rd the old value, sign-extended, and writes the value of its
operation on it; a CAS writes rs2 exactly where the old value is that of rd. No other byte changes. -/
def Obligations.OwnSliceAtomics : Prop :=
  ∀ (s : State) (o : Ord) (scp : Scope) (b a d : BitVec 5),
    let r := returnToken s s.cur.token
    let Q (i : Instr) (n : Nat) (srcs : List RegRef) (g : Gating) (new : Nat → Nat) : Prop :=
      PerformsHere i s srcs [xr d] g (s.found.rx a) n .write fun pa u sl =>
        let old := memRead s.mem pa n
        u = { r with mem := u.mem }
        ∧ sl = ((s.found.claim [xr d]).setReg (xr d)
            (ofWord (BitVec.ofInt 64 (if old < 2 ^ (8 * n - 1) then old else (old : Int) - 2 ^ (8 * n))))).left
        ∧ (s.inv → memRead u.mem pa n = new old ∧ ∀ x, (x < pa ∨ pa + n ≤ x) → memByte u.mem x = memByte s.mem x)
    ∀ (w64 : Bool), let n := if w64 then 8 else 4
      let m := 2 ^ (8 * n)
      let y := (s.found.rx b).toNat % m
      let si (v : Nat) : Int := if v < m / 2 then v else (v : Int) - m
      let A (i : Instr) (new : Nat → Nat) : Prop := Q i n [xr a, xr b] (gating o scp true true) new
      let C (i : Instr) (fail : Ord) : Prop :=
        Q i n [xr a, xr b, xr d] (casGating o fail scp) fun old => if old = (s.found.rx d).toNat % m then y else old
      A (.amoadd o scp w64 b a d) (fun x => (x + y) % m) ∧ A (.amoand o scp w64 b a d) (fun x => x &&& y)
      ∧ A (.amoor o scp w64 b a d) (fun x => x ||| y) ∧ A (.amoxor o scp w64 b a d) (fun x => x ^^^ y)
      ∧ A (.amomin o scp w64 b a d) (fun x => if si x ≤ si y then x else y)
      ∧ A (.amomax o scp w64 b a d) (fun x => if si x ≤ si y then y else x)
      ∧ A (.amominu o scp w64 b a d) (fun x => if x ≤ y then x else y)
      ∧ A (.amomaxu o scp w64 b a d) (fun x => if x ≤ y then y else x) ∧ A (.amoswap o scp w64 b a d) (fun _ => y)
      ∧ C (.casFailRlx o scp w64 b a d) .rlx ∧ C (.casFailAcq o scp w64 b a d) .acq ∧ C (.casFailSc o scp w64 b a d) .sc

/-- 07 R147, R148, 11 R268, 10 R246: a scalar access at an address that its size does not divide traps MISALIGN; else one that
the translation does not permit traps ACCESS, with the address as tval and no effect on memory; one that is not cached
waits for a walk, and an sc access without its token waits for the sequencer. Stated of every scalar load, store, descriptor access,
atomic and compare-and-swap.
The model's readings in it: log 51. -/
def Obligations.AccessesThatStop : Prop :=
  ∀ (s : State) (o : Ord) (scp : Scope) (w64 : Bool) (imm : BitVec 13) (b a d : BitVec 5),
    let va := s.found.rx a + imm.signExtend 64
    let L (i : Instr) (n : Nat) : Prop := AccessStops i s [xr a] [xr d] (gating o s.cur.oscope true false) va n .read
    let S (i : Instr) (n : Nat) : Prop := AccessStops i s [xr a, xr b] [] (gating o s.cur.oscope false true) va n .write
    let n := if w64 then 8 else 4
    let A (i : Instr) : Prop := AccessStops i s [xr a, xr b] [xr d] (gating o scp true true) (s.found.rx a) n .write
    let C (i : Instr) (fail : Ord) : Prop :=
      AccessStops i s [xr a, xr b, xr d] [xr d] (casGating o fail scp) (s.found.rx a) n .write
    L (.ldb o imm a d) 1 ∧ L (.ldh o imm a d) 2 ∧ L (.ldw o imm a d) 4 ∧ L (.ldd o imm a d) 8 ∧ L (.ldbu o imm a d) 1
    ∧ L (.ldhu o imm a d) 2 ∧ L (.ldwu o imm a d) 4 ∧ S (.stb o imm b a) 1 ∧ S (.sth o imm b a) 2
    ∧ S (.stw o imm b a) 4 ∧ S (.std o imm b a) 8
    ∧ AccessStops (.ldtag o a d) s [xr a] [xr d] (gating o s.cur.oscope true false) (s.found.rx a) 64 .read
    ∧ AccessStops (.sttag o b a) s [xr a, xr b] [] (gating o s.cur.oscope false true) (s.found.rx a) 64 .write
    ∧ A (.amoadd o scp w64 b a d) ∧ A (.amoand o scp w64 b a d) ∧ A (.amoor o scp w64 b a d) ∧ A (.amoxor o scp w64 b a d)
    ∧ A (.amomin o scp w64 b a d) ∧ A (.amomax o scp w64 b a d) ∧ A (.amominu o scp w64 b a d) ∧ A (.amomaxu o scp w64 b a d)
    ∧ A (.amoswap o scp w64 b a d) ∧ C (.casFailRlx o scp w64 b a d) .rlx ∧ C (.casFailAcq o scp w64 b a d) .acq
    ∧ C (.casFailSc o scp w64 b a d) .sc

/-- 10 R244, R245, R247: a load, a store and an atomic wait at issue while an acquire or sc access is outstanding, while a
fence in force holds their class, and, for release and sc, while an access to a home in reach is outstanding.
07 R156, 10 R247: FENCE completes at once; the new fence waits for exactly the outstanding accesses of its earlier class
that are in reach, and holds nothing where there are none.
The model's readings in it: log 51. -/
def Obligations.OrderingGatesAndFences : Prop :=
  (∀ (s : State) (o : Ord) (scp : Scope) (imm : BitVec 13) (b a d : BitVec 5), s.cur.active = false →
    let blocked := s.cur.accs.any (·.block)
    let fenced (l t : Bool) := s.cur.fences.any fun f =>
      (f.kind == .full || (f.kind == .ll && l) || ((f.kind == .ls || f.kind == .ss) && t))
        && s.cur.accs.any fun x => f.wait.contains x.id
    let held (scope : Scope) := (o == .rel || o == .sc) && s.cur.accs.any fun x => inReach s.curCore scope x.home
    let G (i : Instr) (srcs dsts : List RegRef) (l t : Bool) (scope : Scope) : Prop :=
      canIssue s srcs dsts = true →
        (blocked = true → Waits i s .blocked)
        ∧ (blocked = false → fenced l t = true → Waits i s .fence)
        ∧ (blocked = false → fenced l t = false → held scope = true → Waits i s .release)
    G (.ldd o imm a d) [xr a] [xr d] true false s.cur.oscope
    ∧ G (.std o imm b a) [xr a, xr b] [] false true s.cur.oscope
    ∧ G (.amoadd o scp true b a d) [xr a, xr b] [xr d] true true scp)
  ∧ (∀ (s : State) (scp : Scope) (kind : FenceKind), canIssue s [] [] = true →
    let earlier (x : Access) : Bool := (kind == .full || kind == .engine || ((kind == .ll || kind == .ls) && x.load)
      || (kind == .ss && x.store)) && inReach s.curCore scp x.home
    let ids := (s.cur.accs.filter earlier).map (·.id)
    Does (.fence scp kind) s fun t => ∃ fs, Retires s t 0 (s.cur.pc + 4) { s.found with fences := fs }
      ∧ (∀ f, f ∈ fs ↔ (f ∈ s.cur.fences ∧ (∃ x ∈ s.cur.accs, x.id ∈ f.wait)) ∨ (ids ≠ [] ∧ f = ⟨kind, ids⟩)))

/-- 07 R157 to R160, 01 R39: a vector load or store whose elements all translate, aligned, completes: element by element in
ascending order, own-slice elements perform at once and the others are outstanding. A disabled lane has no element. VLD
and VST move 64 bytes a register of the group; the strided and indexed forms one lane each; VLDT transposes.
The model's readings in it: log 14. -/
def Obligations.VectorMemory : Prop :=
  ∀ (s : State) (o : Ord) (m : BitVec 3) (w : Width) (g : BitVec 2) (off b a d : BitVec 5),
    let n := w.bits
    let e := n / 8
    let k := s.found.rk m
    let ld := gating o s.cur.oscope true false
    let st := gating o s.cur.oscope false true
    let regs := (List.range (2 ^ g.toNat)).map fun j => (⟨.v, d.toNat + j⟩ : RegRef)
    let mask := laneBytes n k
    let on := (List.range w.lanes).filter k.getLsbD
    let base := s.found.rx a
    let unit (j : Nat) : Word := base + off.signExtend 64 * 64 + BitVec.ofNat 64 (64 * j)
    let strided (j : Nat) : Word := base + BitVec.ofNat 64 j * s.found.rx b
    let x (j : Nat) : Nat := lane (s.found.rv b) n j
    let indexed (j : Nat) : Word :=
      base + BitVec.ofInt 64 (if x j < 2 ^ (n - 1) then x j else (x j : Int) - 2 ^ n) * BitVec.ofNat 64 e
    let lanesIn (va : Nat → Word) : List Elem := on.map fun j =>
      ⟨j, va j, e, .read, fun pa => .read pa e, .v d.toNat (BitVec.ofNat 64 ((2 ^ e - 1) * 2 ^ (e * j))) (e * j)⟩
    let lanesOut (va : Nat → Word) : List Elem := on.map fun j =>
      ⟨j, va j, e, .write, fun pa => .write pa (BitVec.ofNat 512 (lane (s.found.rv d) n j)) (BitVec.ofNat 64 (2 ^ e - 1)), .none⟩
    let blocks (f : Nat → Elem) : List Elem := if mask = 0 then [] else (List.range (2 ^ g.toNat)).map f
    VectorLoads (.vld o m w g off a d) s ([xr a] ++ maskSrc m ++ if m = 0 then [] else regs) regs ld
        (blocks fun j => ⟨d.toNat + j, unit j, 64, .read, fun pa => .read pa 64, .v (d.toNat + j) mask 0⟩)
    ∧ VectorStores (.vst o m w g off a d) s ([xr a] ++ maskSrc m ++ regs) st
        (blocks fun j => ⟨d.toNat + j, unit j, 64, .write, fun pa => .write pa (s.found.getV (d.toNat + j)) mask, .none⟩)
    ∧ VectorLoads (.vlds o m w b a d) s ([xr a, xr b] ++ maskDst m d) [vr d] ld (lanesIn strided)
    ∧ VectorStores (.vsts o m w b a d) s ([xr a, xr b, vr d] ++ maskSrc m) st (lanesOut strided)
    ∧ VectorLoads (.vldx o m w b a d) s ([xr a, vr b] ++ maskDst m d) [vr d] ld (lanesIn indexed)
    ∧ VectorStores (.vstx o m w b a d) s ([xr a, vr b, vr d] ++ maskSrc m) st (lanesOut indexed)
    ∧ (let rs := (List.range w.lanes).map fun j => (⟨.v, d.toNat + j⟩ : RegRef)
       VectorLoads (.vldt o m w b a d) s ([xr a, xr b] ++ maskSrc m ++ if m = 0 then [] else rs) rs ld
        ((List.range w.lanes).flatMap fun j => on.map fun r =>
          ⟨d.toNat + j + 64 * r, strided r + BitVec.ofNat 64 (j * e), if j = 0 then 64 else e, .read, fun pa => .read pa e,
            .v (d.toNat + j) (BitVec.ofNat 64 ((2 ^ e - 1) * 2 ^ (e * r))) (e * r)⟩))

/-! ### The matrix unit -/

/-- 07 R161, R162, 01 R22, R25: VPARK copies its registers into the lowest run of free rows and gives xs1 the first row, or 0x800
where no run of rows is free; VUNPARK copies the rows back and frees them, or traps ACCESS with the lowest row of its run that the
activation has not parked. Nothing else changes. A row is free that lies below the engine range and that no actor owns, no slot has
parked and no victim's group holds (R302).
The model's readings in it: log 28. -/
def Obligations.Parking : Prop :=
  ∀ (s : State) (b a d : BitVec 5), d.toNat ≤ b.toNat →
    let n := b.toNat + 1 - d.toNat
    let regs := (List.range n).map fun j => (⟨.v, d.toNat + j⟩ : RegRef)
    let z := (s.found.rx a).toNat
    let rows := (List.range n).map (z + ·)
    let k := getCore s s.curCore
    let free (r : Nat) : Prop := r + k.engine < 2048
      ∧ (∀ l ∈ s.launches, l.id ≠ 0 → l.phase ≠ .ended → ∀ x ∈ l.actors,
          x.core = s.curCore → (x.place = .core ∨ x.place = .parked) → rowSaved s l.id x r = false → x.owns r = false)
      ∧ (∀ x ∈ slotsOf k, r ∉ x.parked) ∧ ∀ v ∈ k.victims, v.unit ≠ r / 16
    let run (r : Nat) : Prop := ∀ q, q < n → free (r + q)
    (canIssue s regs [xr a] = true →
      ((∀ r, ¬run r) → Does (.vpark b a d) s fun t =>
        Retires s t 0 (s.cur.pc + 4) ((s.found.claim [xr a]).setReg (xr a) 0x800))
      ∧ ∀ r, run r → (∀ r', r' < r → ¬run r') → Does (.vpark b a d) s fun t => ∃ u,
          Retires u t 0 (s.cur.pc + 4)
            { (s.found.claim [xr a]).setReg (xr a) (BitVec.ofNat 512 r) with parked := s.cur.parked ++ (List.range n).map (r + ·) }
          ∧ u = { s with cores := u.cores } ∧ (∀ c, c ≠ s.curCore → getCore u c = getCore s c)
          ∧ getCore u s.curCore = { getCore s s.curCore with rows := (getCore u s.curCore).rows, badRows := (getCore u s.curCore).badRows }
          ∧ (∀ q, rowValue (getCore u s.curCore) q = if r ≤ q ∧ q < r + n then s.found.getV (d.toNat + (q - r))
              else rowValue k q)
          ∧ (getCore u s.curCore).badRows = k.badRows.filter fun q => decide (q < r ∨ r + n ≤ q))
    ∧ (canIssue s [xr a] regs = true → s.cur.mats = [] →
        (∀ r, rows.find? (fun r => !s.cur.parked.contains r) = some r → Traps (.vunpark b a d) s 0x04 (BitVec.ofNat 64 r))
        ∧ ((∀ r ∈ rows, r ∈ s.cur.parked ∧ r ∉ k.badRows) →
            Does (.vunpark b a d) s fun t => ∃ v,
              Retires s t 0 (s.cur.pc + 4)
                { s.found.claim regs with v := v, parked := s.cur.parked.filter (fun r => !rows.contains r) }
              ∧ ∀ q, q < 32 → ({ s.found with v := v } : Slot).getV q
                  = if d.toNat ≤ q ∧ q ≤ b.toNat then rowValue k (z + (q - d.toNat)) else s.found.getV q))

/-- 09 R203, R206, 01 R24: MZERO, MRDV and MWRV queue their operation when every row is owned or parked by the activation, and
trap ACCESS with the lowest row that is not. No register and no row changes yet; MRDV's destination stands outstanding.
The model's readings in it: log 29. -/
def Obligations.MatrixRowMoves : Prop :=
  ∀ (s : State) (b a d : BitVec 5),
    let z := (s.found.rx a).toNat
    let n := (s.found.rx b).toNat
    let M (i : Instr) (srcs dsts : List RegRef) (count : Nat) (kind : MatKind) : Prop := canIssue s srcs dsts = true →
      ((∀ r, z ≤ r → r < z + count → rowAccess s s.found r = true) →
        Does i s fun t => Retires { s with nextId := s.nextId + 1 } t 0 (s.cur.pc + 4)
          { s.found.claim dsts with mats := s.cur.mats ++ [⟨s.nextId, s.cur.pc, kind, 0, []⟩] })
      ∧ ∀ r, z ≤ r → r < z + count → rowAccess s s.found r = false → (∀ q, z ≤ q → q < r → rowAccess s s.found q = true) →
        Traps i s 0x04 (BitVec.ofNat 64 r)
    M (.mzero b a) [xr a, xr b] [] n (.mzero z n)
    ∧ M (.mrdv a d) [xr a] [vr d] 1 (.mrdv d.toNat z)
    ∧ M (.mwrv b a) [xr a, vr b] [] 1 (.mwrv z (s.found.rv b))

/-- 09 R203, R205, R207 to R210: MMAC, MBIN, MLOAD and MSTORE complete at issue where the tile word is good, its rows are the
activation's, and every block translates: MMAC and MBIN queue an operation on M + N blocks, MLOAD one on its tile's blocks;
blocks of the own slice have arrived, the others are outstanding. MSTORE stores the tile's blocks with descriptors: the exact values
of its elements, with +0 beyond N, encoded as a block of the memory format (ElementOperations), or the rows as they are.
09 R205: a tile word with a bad field traps ENGINE with the word; else the lowest row that is not the activation's traps
ACCESS. -/
def Obligations.MatrixTileInstructions : Prop :=
  (∀ (s : State) (f : BitVec 3) (sat p : Bool) (k : BitVec 2) (f' : BitVec 3) (o : Ord) (b a d : BitVec 5),
    let good (t : Word) (acc : Nat) (gap bstr : Bool) : Prop :=
      tileOk t gap bstr = true ∧ ∀ r ∈ tileRows acc t, rowAccess s s.found r = true
    let Op (i : Instr) (acc : Nat) (kind : MatKind) : Prop :=
      let t := s.found.rx d
      let vas := (List.range (tM t)).map (fun x => s.found.rx a + BitVec.ofNat 64 (64 * tAstr t * x))
        ++ (List.range (tN t)).map (fun y => s.found.rx b + BitVec.ofNat 64 (64 * tBstr t * y))
      let remote := vas.zipIdx.filter fun v => (ownPa s ⟨0, v.1, 64, .read, fun pa => .readBlock pa, .none⟩).isNone
      canIssue s [xr d, xr a, xr b] [] = true → good t acc false true →
      gate s.curCore s.found (gating .rlx s.cur.oscope true false) = none →
      (∀ va ∈ vas, elemReady s ⟨0, va, 64, .read, fun pa => .readBlock pa, .none⟩) →
      Does i s fun t' => ∃ u sl, Retires u t' 0 (s.cur.pc + 4) sl
        ∧ u = { s with nextId := u.nextId, pairs := u.pairs, tokens := u.tokens }
        ∧ sl.x = s.found.x ∧ sl.v = s.found.v ∧ sl.k = s.found.k
        ∧ sl.mats = queued s kind (tM t + tN t) (ownBlocks s vas.zipIdx)
        ∧ sl.accs.map (fun x => (x.va, x.dst)) = s.cur.accs.map (fun x => (x.va, x.dst))
            ++ remote.map (fun v => (v.1, .mat s.nextId v.2))
    let t := s.found.rx b
    let acc := k.toNat
    let fmt := f'.toNat
    let at_ (x y : Nat) : Word := s.found.rx a + BitVec.ofNat 64 (64 * tAstr t * x + 64 * y)
    let tile (g : Nat → Nat → Elem) : List Elem :=
      (List.range (tM t)).flatMap fun x => (List.range (blocksPerRow acc fmt t)).map (g x)
    let bits (x j : Nat) : Nat :=
      lane (rowValue (getCore s s.curCore) (tileRow acc t x (j / accPerRow acc))) (accBits acc) (j % accPerRow acc)
    let value (x j : Nat) : FVal :=
      if tN t ≤ j then .fin false 0 0
      else if acc = 0 then fdecode fmtFP32 (bits x j)
      else if acc = 1 then let v := (BitVec.ofNat 32 (bits x j)).toInt; .fin (v < 0) v.natAbs 0
      else let z := xfDecode (bits x j); if z.m = -2 ^ 47 then .nan false else .fin (z.m < 0) z.m.natAbs z.e
    let block (x y : Nat) : Vec × Desc :=
      if fmt = 0 then (rowValue (getCore s s.curCore) (tileRow acc t x y), 0)
      else storeBlock fmt (t.toNat / 2 ^ 44 % 16) ((List.range (512 / fmtBits fmt)).map fun l => value x (y * (512 / fmtBits fmt) + l))
    let outs := tile fun x y =>
      ⟨x + 64 * y, at_ x y, 64, .write,
        fun pa => .writeBlock pa (block x y).1 (block x y).2, .none⟩
    let ins := tile fun x y => ⟨x + 64 * y, at_ x y, 64, .read, fun pa => .readBlock pa, .mat s.nextId (x + 64 * y)⟩
    Op (.mmac f sat b a d) (mmacAcc f.toNat) (.mmac f.toNat sat (s.found.rx d))
    ∧ Op (.mbin p sat b a d) 1 (.mbin p sat (s.found.rx d))
    ∧ (good t acc (f' == 4 || f' == 5) false → s.cur.mats = [] →
        (∀ r ∈ tileRows acc t, r ∉ (getCore s s.curCore).badRows) →
        ElementsLeave (.mstore o k f' b a) s [xr a, xr b] [] (gating o s.cur.oscope false true) outs fun u sl =>
          sl.v = s.found.v ∧ sl.mats = []
          ∧ (s.inv → ∀ x, memByte u.mem x = (outs.reverse.findSome? (stored s x)).getD (memByte s.mem x))
          ∧ ∀ x, descOf u x = (outs.reverse.findSome? (storedDesc s x)).getD (descOf s x))
    ∧ (good t acc false false →
        ElementsLeave (.mload o k f' b a) s [xr a, xr b] [] (gating o s.cur.oscope true false) ins fun u sl =>
          sl.v = s.found.v ∧ u.mem = s.mem ∧ u.descs = s.descs ∧ u.poisoned = s.poisoned
          ∧ sl.mats = queued s (.mload acc fmt t) ins.length (ownBlocks s (ins.map fun e => (e.va, e.idx)))))
  ∧ (∀ (s : State) (f : BitVec 3) (sat p : Bool) (k : BitVec 2) (f' : BitVec 3) (o : Ord) (b a d : BitVec 5),
    let T (i : Instr) (srcs : List RegRef) (t : Word) (acc : Nat) (gap bstr : Bool) : Prop := canIssue s srcs [] = true →
      (tileOk t gap bstr = false → Traps i s 0x0A t)
      ∧ (tileOk t gap bstr = true → ∀ r ∈ tileRows acc t, rowAccess s s.found r = false →
          (∀ q ∈ tileRows acc t, q < r → rowAccess s s.found q = true) → Traps i s 0x04 (BitVec.ofNat 64 r))
    T (.mmac f sat b a d) [xr d, xr a, xr b] (s.found.rx d) (mmacAcc f.toNat) false true
    ∧ T (.mbin p sat b a d) [xr d, xr a, xr b] (s.found.rx d) 1 false true
    ∧ T (.mstore o k f' b a) [xr a, xr b] (s.found.rx b) k.toNat (f' == 4 || f' == 5) false
    ∧ T (.mload o k f' b a) [xr a, xr b] (s.found.rx b) k.toNat false false)

/-- 09 R203, R206 to R208, R210: an operation whose blocks have arrived takes effect: MZERO and MWRV write their rows, MRDV
its register, MMAC and MBIN every element of the tile and no other element of any row, MLOAD every element of the tile from the
block at its position among those that have arrived: an element whose block has not is as it was.
14 R342: a poisoned row is cleared by a write of the whole row only.
The model's readings in it: log 29, 31, 88 and 89. -/
def Obligations.MatrixEffects : Prop :=
  ∀ (s : State) (c : Nat) (i : Fin 4) (m : MatOp), (∀ r ∈ m.rowsRead, r ∉ (getCore s c).badRows) →
    let u := completeMat s c i m
    let row (q : Nat) := rowValue (getCore s c) q
    let kept : Prop := u.mem = s.mem ∧ (∀ d, d ≠ c → getCore u d = getCore s d) ∧ ∀ j, getSlot u c j = getSlot s c j
    let badUnless (whole : Nat → Prop) : Prop := ∀ q, q ∈ (getCore u c).badRows ↔ q ∈ (getCore s c).badRows ∧ ¬whole q
    let tile (acc : Nat) (t : Word) (new : Nat → Nat → Nat → Nat) : Prop := kept ∧
      ∀ q l, l < accPerRow acc →
        (∀ x y, x < tM t → y < tN t → (q, l) = (tileRow acc t x (y / accPerRow acc), y % accPerRow acc) →
          lane (rowValue (getCore u c) q) (accBits acc) l = new x y (lane (row q) (accBits acc) l) % 2 ^ accBits acc)
        ∧ ((∀ x y, x < tM t → y < tN t → (q, l) ≠ (tileRow acc t x (y / accPerRow acc), y % accPerRow acc)) →
            lane (rowValue (getCore u c) q) (accBits acc) l = lane (row q) (accBits acc) l)
    match m.kind with
    | .mzero z n => kept ∧ (∀ q, rowValue (getCore u c) q = if z ≤ q ∧ q < z + n then 0 else row q) ∧ badUnless fun q => z ≤ q ∧ q < z + n
    | .mwrv z v => kept ∧ (∀ q, rowValue (getCore u c) q = if q = z then v else row q) ∧ badUnless fun q => q = z
    | .mrdv vd z => getSlot u c i = (getSlot s c i).setReg ⟨.v, vd⟩ (row z) ∧ ∀ q, rowValue (getCore u c) q = row q
    | .mmac f sat t =>
      tileOk t false true = true → tile (mmacAcc f) t fun x y old => macRow f sat (blockAt m x) (blockAt m (tM t + y)) old
    | .mbin isAnd sat t =>
      tileOk t false true = true → tile 1 t fun x y old => binStep isAnd sat (blockAt m x).1 (blockAt m (tM t + y)).1 old
    | .mload acc fmt t =>
      tileOk t false false = true → (∀ b ∈ m.blocks, b.1 % 64 < tM t) → tile acc t (fun x y old =>
        let n := perBlock acc fmt
        let first (pos : Nat) := pos / 64 * n
        match m.blocks.reverse.find? fun b => decide (b.1 % 64 = x ∧ first b.1 ≤ y ∧ y < first b.1 + n) with
        | some (pos, v, e) =>
          if fmt = 0 then lane v (accBits acc) (y - first pos) else loadElem acc fmt e (element v fmt (y - first pos))
        | none => old)
      ∧ badUnless fun q => ∀ l, l < accPerRow acc → ∃ x y, x < tM t ∧ y < tN t
          ∧ (q, l) = (tileRow acc t x (y / accPerRow acc), y % accPerRow acc)
          ∧ ∃ b ∈ m.blocks, b.1 % 64 = x ∧ b.1 / 64 * perBlock acc fmt ≤ y ∧ y < (b.1 / 64 + 1) * perBlock acc fmt

/-- 09 R211: the mirror of a core's mirror is the core. MSWAP of a core that is its own mirror completes with 0; elsewhere the
slot waits for its partner. MISALIGN, then a length out of range or a range outside the own slice, trap.
Two waiting sides of equal length exchange their ranges: every byte that a side held stands at the same offset of the other core's
slice, with its block's descriptor, every other byte stays, and both complete with 0; with different lengths memory stays and both
complete with 1. A leaf task's side ends as the leaf task it was (R228).
The model's readings in it: log 11. -/
def Obligations.MirroredSwap : Prop :=
  (∀ c, mirrorCore (mirrorCore c) = c ∧ clusterOf (mirrorCore c) = clusterOf c)
  ∧ (∀ (s : State) (b a d : BitVec 5), canIssue s [xr a, xr b] [xr d] = true →
    let va := s.found.rx a
    let len := (s.found.rx b).toNat
    ((va.toNat % 64 ≠ 0 ∨ len % 64 ≠ 0) → Traps (.mswap b a d) s 0x03 va)
    ∧ (va.toNat % 64 = 0 → len % 64 = 0 → (len < 64 ∨ 32768 < len) → Traps (.mswap b a d) s 0x04 va)
    ∧ (va.toNat % 64 = 0 → len % 64 = 0 → 64 ≤ len → len ≤ 32768 →
        slicePieces s s.curCore s.cur.ctx va 4 len = .error .bad → Traps (.mswap b a d) s 0x04 va)
    ∧ ∀ ps, va.toNat % 64 = 0 → len % 64 = 0 → 64 ≤ len → len ≤ 32768 →
        slicePieces s s.curCore s.cur.ctx va 4 len = .ok ps →
        (mirrorCore s.curCore = s.curCore → Does (.mswap b a d) s fun t =>
          Retires s t 0 (s.cur.pc + 4) ((s.found.claim [xr d]).setReg (xr d) 0))
        ∧ (mirrorCore s.curCore ≠ s.curCore → poisonedIn s va ps = none → Does (.mswap b a d) s fun t => ∃ n data descs,
            t.cur = { s.found.claim [xr d] with status := .mswap n d.toNat len ps data descs, stall := none }
            ∧ data = ps.flatMap (fun p => (List.range p.2).map fun k => memByte s.mem (p.1 + k)) ∧ t.mem = s.mem))
  ∧ ∀ (s : State) (c l : Nat) (i j : Fin 4) rd len ps data descs rd' len' ps' data' descs',
      let m := mirrorCore c
      clocksRun s = true → m ≠ c → rd < 32 → rd' < 32 →
      firstSwap s c l = some (i, rd, len, ps, data, descs) → firstSwap s m l = some (j, rd', len', ps', data', descs') →
        let Ends (t : State) (c : Nat) (i : Fin 4) (rd : Nat) (v : Word) : Prop :=
          let x := getSlot s c i
          (∀ job path o n ps data descs, x.status = .leafSwap job path o n ps data descs →
            getSlot t c i = { x with status := .leaf job path })
          ∧ (x.swaps = false →
            (x.inDebug = false → x.oneStep = false → (getSlot t c i).status = .running ∧ (getSlot t c i).pc = x.pc + 4)
            ∧ (getSlot t c i).getX rd = if rd = 0 then 0 else v)
        let base (core : Nat) (p : Nat × Nat) : Nat := core / 4096 * 2 ^ 48 + core % 4096 * 0x80000 + p.1 % 0x80000
        let bytes (core : Nat) (ps : List (Nat × Nat)) : List Nat := ps.flatMap fun p => (List.range p.2).map (base core p + ·)
        let blocks (core : Nat) (ps : List (Nat × Nat)) : List Nat :=
          ps.flatMap fun p => (List.range (p.2 / 64)).map fun k => base core p + 64 * k
        Does (.evMswapPair c l) s fun t =>
          (len ≠ len' → t.mem = s.mem ∧ t.descs = s.descs ∧ Ends t c i rd 1 ∧ Ends t m j rd' 1)
          ∧ (len = len' → Ends t c i rd 0 ∧ Ends t m j rd' 0
              ∧ (s.inv → ∀ x, memByte t.mem x
                  = ((((bytes m ps).zip data ++ (bytes c ps').zip data').reverse.find? fun p => p.1 == x).map (·.2)).getD
                      (memByte s.mem x))
              ∧ ∀ x, descOf t x
                  = ((((blocks m ps).zip descs ++ (blocks c ps').zip descs').reverse.find? fun p => p.1 / 64 == x / 64).map
                      (·.2)).getD (descOf s x))

/-! ### Copy jobs, completion tags and quadtree jobs -/

/-- 07 R163, R164: CPY, GATH and SCAT accept a well-formed card: a new job enters the window of the cluster last, its tag
becomes busy and not done, and the next instruction follows. A card that is not aligned traps MISALIGN, one that is not
well-formed ENGINE: the conditions of R164 step 3 and R167, and a TAG above 63 (the model's choice, log 64); a busy tag is waited for, and then room for the job, with the card as it was read, once, and the tag claimed,
once. No byte of memory changes.
07 R171: WTAGANY waits while no tag of X[rs1] is done and one is busy, WTAGALL while one is busy; then both give the done
tags among them. FTAG gives them and clears them.
The model's readings in it: log 17, 64 and 76. -/
def Obligations.CopyJobInstructions : Prop :=
  (∀ (s : State) (a : BitVec 5),
    let va := s.found.rx a
    let old := getResident s s.curCore s.cur.launch
    let Accepts (i : Instr) (kind : CopyKind) (card : Nat) : Prop :=
      (cardOk kind card = false → Traps i s 0x0A va)
      ∧ ∀ sig, cardOk kind card = true →
        parseSignal (cardField card 457 1 = 1) (cardField card 472 8) (cardField card 512 8) (cardField card 480 32) = some sig →
        let served := (s.copies.filter fun j => j.kind != .cpy && dieOf j.core == dieOf s.curCore).length
        let mine : Prop := s.cur.claimed = true ∨ ∀ n, sig = .tag n → old.busy.getLsbD n = false
        let claims (t : State) : Prop := ∀ n, sig = .tag n → ∀ b, b < 64 →
          let new := getResident t s.curCore s.cur.launch
          (s.cur.claimed = true → new.busy = old.busy ∧ new.tagdone = old.tagdone)
          ∧ (s.cur.claimed = false → (new.busy.getLsbD b = (decide (b = n) || old.busy.getLsbD b))
              ∧ (new.tagdone.getLsbD b = (decide (b ≠ n) && old.tagdone.getLsbD b)))
        (∀ n, sig = .tag n → s.cur.claimed = false → old.busy.getLsbD n = true →
            exec i s = .next (s.setCur { s.found with card := some card, stall := some (.tag n) }))
        ∧ (mine → kind ≠ .cpy → 4 ≤ served → Does i s fun t => t.cur.card = some card ∧ t.cur.stall = some .window
            ∧ t.cur.claimed = true ∧ t.cur.pc = s.cur.pc ∧ t.copies = s.copies ∧ claims t)
        ∧ (mine → (kind = .cpy ∨ served < 4) → Does i s fun t => ∃ u, Retires u t 0 (s.cur.pc + 4) s.found
              ∧ u = { s with nextId := s.nextId + 1, copies := u.copies, clusters := u.clusters, cores := u.cores }
              ∧ (∀ c j, getSlot u c j = getSlot s c j)
              ∧ getCopy u s.nextId = some ⟨s.nextId, kind, s.curCore, s.cur.launch, s.cur.ctx, va, parseCard card, sig, false,
                  none, none, [], [], 0, []⟩
              ∧ (∀ j, j ≠ s.nextId → getCopy u j = getCopy s j)
              ∧ (getCluster u (clusterOf s.curCore)).window = (getCluster s (clusterOf s.curCore)).window ++ [s.nextId]
              ∧ claims u)
    let J (i : Instr) (kind : CopyKind) : Prop := canIssue s [xr a] [] = true → jobGate s.found = none →
      (s.cur.card = none → va.toNat % 64 ≠ 0 → Traps i s 0x03 va)
      ∧ (∀ p k q l, s.cur.card = none → va.toNat % 64 = 0 → s.trans va .read = .ok p k → s.trans (va + 64) .read = .ok q l →
        isPoisoned s p = false → isPoisoned s q = false → (∀ x ∈ s.cur.accs, x.home ≠ homeOf p ∧ x.home ≠ homeOf q) →
        Accepts i kind ((blockThrough s p k).toNat + 2 ^ 512 * (blockThrough s q l).toNat))
      ∧ ∀ card, s.cur.card = some card → Accepts i kind card
    J (.cpy a) .cpy ∧ J (.gath a) .gath ∧ J (.scat a) .scat)
  ∧ (∀ (kind : CopyKind) (c : Nat),
    let f (lo n : Nat) : Nat := c / 2 ^ lo % 2 ^ n
    let si (lo : Nat) : Int := if f lo 32 < 2 ^ 31 then f lo 32 else (f lo 32 : Int) - 2 ^ 32
    let cnt (n : Nat) : Nat := f (128 + 16 * n) 16
    let sstr (n : Nat) : Nat := f (192 + 32 * n) 32
    let dstr (n : Nat) : Nat := f (320 + 32 * n) 32
    let esz := f 448 8
    let bound := f 672 32
    let nidx := f 640 32
    let rop := f 464 8
    let used (when_ : Prop) (stride : Nat) : Prop := when_ → stride % 2 ^ esz = 0
    let indexed : Prop := cnt 1 = 1 ∧ cnt 2 = 1 ∧ cnt 3 = 1 ∧ sstr 2 = 0 ∧ sstr 3 = 0 ∧ dstr 2 = 0 ∧ dstr 3 = 0
      ∧ 1 ≤ nidx ∧ nidx ≤ 2 ^ 24 ∧ bound < 2 ^ 31 ∧ f 576 64 % 4 = 0 ∧ used (1 < cnt 0) (sstr 0) ∧ used (1 < cnt 0) (dstr 0)
    (cardOk kind c = true ↔
      f 960 64 = 0 ∧ f 520 56 = 0 ∧ f 458 6 = 0 ∧ esz ≤ 6 ∧ (∀ n, n < 4 → 0 < cnt n)
      ∧ f 0 64 % 2 ^ esz = 0 ∧ f 64 64 % 2 ^ esz = 0 ∧ (f 456 1 = 1 → esz = 6)
      ∧ (parseSignal (f 457 1 = 1) (f 472 8) (f 512 8) (f 480 32)).isSome = true
      ∧ match kind with
        | .cpy => f 576 64 = 0 ∧ nidx = 0 ∧ bound = 0 ∧ f 704 64 = 0 ∧ rop = 0
          ∧ ∀ n, n < 4 → used (1 < cnt n) (sstr n) ∧ used (1 < cnt n) (dstr n)
        | .gath => indexed ∧ rop = 0 ∧ used (1 < bound) (sstr 1) ∧ used (1 < nidx) (dstr 1)
        | .scat => indexed ∧ f 704 64 = 0 ∧ used (1 < bound) (dstr 1) ∧ used (1 < nidx) (sstr 1)
          ∧ (rop = 0 ∨ (rop ≤ 5 ∧ f 456 1 = 0 ∧ esz = if rop = 2 then 3 else 2)))
    ∧ parseCard c = ⟨BitVec.ofNat 64 (f 704 64), si 672, nidx, BitVec.ofNat 64 (f 576 64), rop, f 456 1 = 1, esz,
        [si 320, si 352, si 384, si 416], [si 192, si 224, si 256, si 288], [cnt 0, cnt 1, cnt 2, cnt 3],
        BitVec.ofNat 64 (f 64 64), BitVec.ofNat 64 (f 0 64)⟩
    ∧ ∀ tag nch nep,
        parseSignal true tag nch nep = (if tag = 0 ∧ nch / 2 ^ 4 < 7 then some (.notify nep (nch % 2 ^ 4) (nch / 2 ^ 4)) else none)
        ∧ parseSignal false tag nch nep = if nch = 0 ∧ nep = 0 ∧ tag < 64 then some (.tag tag) else none)
  ∧ (∀ (s : State) (a d : BitVec 5), canIssue s [xr a] [xr d] = true →
    let r := getResident s s.curCore s.cur.launch
    let m := s.found.rx a
    let Gives (i : Instr) (u : State) : Prop :=
      Does i s fun t => Retires u t 0 (s.cur.pc + 4) (s.found.writeVar [(xr d, ofWord (r.tagdone &&& m))] 0 false)
    ((r.tagdone &&& m = 0 ∧ r.busy &&& m ≠ 0) → Waits (.wtagany a d) s .tagWait)
    ∧ ((r.tagdone &&& m ≠ 0 ∨ r.busy &&& m = 0) → Gives (.wtagany a d) s)
    ∧ (r.busy &&& m ≠ 0 → Waits (.wtagall a d) s .tagWait)
    ∧ (r.busy &&& m = 0 → Gives (.wtagall a d) s)
    ∧ Gives (.ftag a d) (setResident s.settled s.curCore { r with tagdone := r.tagdone &&& ~~~m }))

/-- 09 R216 to R218: QMUL and QADD accept a good card with aligned roots, read once, when the tag is not busy, the engine has accepted
fewer than 16 jobs, and the captures are read: the job stands in the window with the root records of A, B and CIN as they were, and
CROOT, AROOT and BROOT, STATE 1 and zeros in SCAUSE, DEPTH and LEAVES stand in the card; with the tag busy
or 16 jobs held they wait with the card as it was read, in the second case with the tag claimed. MISALIGN of the card, of a root and ENGINE of
the card, by the conditions of R218 step 4 and the fields of R216, trap in this order.
09 R231 to R234: QSTAT gives the state, cause, depth and leaf count of an accepted job, or those fields of the card in
memory; QCANCEL marks the job and gives 0, or 1 where there is none; QPOOL raises a limit and gives 0, 1 where there is no
job, 2 where the new limit is below the old or not aligned; an equal one gives 0 and changes nothing. Of a suspended job the old limit is
that of the card. QRESUME resumes a suspended job with the pools of its card, its tree to be walked again; it is then the resuming
activation's; else it traps ENGINE.
The model's readings in it: log 17, 36, 37, 64 and 76. -/
def Obligations.QuadtreeInstructions : Prop :=
  (∀ (s : State) (b a d : BitVec 5),
    let va := s.found.rx (d + 1)
    let Accepts (i : Instr) (mul : Bool) (card : Nat) : Prop :=
      let cin : Word := BitVec.ofNat 64 (cardField card 192 64)
      let j0 := newQJob s mul s.curCore s.found va (s.found.rx d) (s.found.rx a) (s.found.rx b) card
      let tag := takeClaim s.settled s.curCore s.curSlot s.cur.launch j0.signal
      (tag = none → exec i s = .next (s.setCur { s.found with card := some card, stall := some (.tag j0.card.tag) }))
      ∧ (∀ v, tag = some v → 16 ≤ acceptedJobs s (clusterOf s.curCore) →
          exec i s = .next (v.setCur { s.found with card := some card, stall := some .window, claimed := v.cur.claimed }))
      ∧ (s.cur.claimed = true → tag = some s.settled)
      ∧ (∀ v, s.cur.claimed = false → tag = some v → v.cur = { s.found with claimed := true }
          ∧ ∃ u, claimTag s.settled s.curCore s.cur.launch j0.signal = some u
              ∧ getResident v s.curCore s.cur.launch = getResident u s.curCore s.cur.launch)
      ∧ ∀ v j w, tag = some v → acceptedJobs s (clusterOf s.curCore) < 16 → capture s.settled j0 card = .ok j →
          acceptCard v j0 = .ok w →
          Does i s fun t => ∃ u, Retires u t 0 (s.cur.pc + 4) s.found
            ∧ getQJob u s.nextId = some j ∧ (∀ n, n ≠ s.nextId → getQJob u n = getQJob s n)
            ∧ j.id = s.nextId ∧ j.state = 1 ∧ j.started = false ∧ j.mul = mul ∧ j.addr = va
            ∧ j.croot = s.found.rx d ∧ j.aroot = s.found.rx a ∧ j.broot = s.found.rx b
            ∧ (cin = 0 → j.recC = 0)
            ∧ (∀ x r, (x, r) ∈ [(j.aroot, j.recA), (j.broot, j.recB)] ∨ (cin ≠ 0 ∧ (x, r) = (cin, j.recC)) →
                ∀ p k, s.trans x .read = .ok p k → r = BitVec.ofNat 256 ((blockThrough s p k).toNat / 256 ^ (x.toNat % 64)))
            ∧ (∀ p k q l, s.inv → va.toNat % 128 = 0 → s.trans va .write = .ok p k → s.trans (va + 64) .write = .ok q l →
                (readThrough u p 24 k).toNat = j.croot.toNat + 2 ^ 64 * j.aroot.toNat + 2 ^ 128 * j.broot.toNat
                ∧ (readThrough u (q + 52) 8 l).toNat = 1)
            ∧ (getCluster u (clusterOf s.curCore)).window = (getCluster s (clusterOf s.curCore)).window ++ [s.nextId]
            ∧ u.mem = w.mem ∧ u.nextId = s.nextId + 1
    let J (i : Instr) (mul : Bool) : Prop :=
      canIssue s [xr d, xr a, xr b, xr (d + 1)] [] = true → jobGate s.found = none →
      let roots := [s.found.rx d, s.found.rx a, s.found.rx b]
      (s.cur.card = none → (va.toNat % 128 ≠ 0 → Traps i s 0x03 va)
        ∧ (va.toNat % 128 = 0 → ∀ r, roots.find? (fun r => r.toNat % 32 != 0) = some r → Traps i s 0x03 r)
        ∧ ∀ p k q l, va.toNat % 128 = 0 → (∀ r ∈ roots, r.toNat % 32 = 0) →
          s.trans va .write = .ok p k → s.trans (va + 64) .write = .ok q l →
          isPoisoned s p = false → isPoisoned s q = false → (∀ x ∈ s.cur.accs, x.home ≠ homeOf p ∧ x.home ≠ homeOf q) →
          let card := (blockThrough s p k).toNat + 2 ^ 512 * (blockThrough s q l).toNat
          let cin := cardField card 192 64
          (cin % 32 ≠ 0 → Traps i s 0x03 (BitVec.ofNat 64 cin))
          ∧ (cin % 32 = 0 → qcardOk card = false → Traps i s 0x0A va)
          ∧ (cin % 32 = 0 → qcardOk card = true → Accepts i mul card))
      ∧ ∀ card, s.cur.card = some card → Accepts i mul card
    J (.qmul b a d) true ∧ J (.qadd b a d) false)
  ∧ (∀ c : Nat,
    let f (lo n : Nat) : Nat := c / 2 ^ lo % 2 ^ n
    let nma := f 856 8
    (poolsOk c = true ↔ f 256 64 % 128 = 0 ∧ f 256 64 ≤ f 384 64 ∧ f 384 64 ≤ f 320 64
      ∧ f 448 64 % 64 = 0 ∧ f 448 64 ≤ f 576 64 ∧ f 576 64 ≤ f 512 64)
    ∧ (qcardOk c = true ↔ f 992 32 = 0 ∧ f 836 4 = 0 ∧ f 881 7 = 0 ∧ f 928 8 ∈ [0, 2, 4, 5] ∧ 1 ≤ f 840 4 ∧ f 840 4 ≤ 5
      ∧ (f 844 4 = 0 ∨ f 840 4 = 4 ∨ f 840 4 = 5) ∧ f 848 8 ≤ 64
      ∧ (nma = 0 ∨ (2 ≤ nma / 16 ∧ nma / 16 ≤ 5 ∧ 1 ≤ nma % 16 ∧ nma % 16 < 2 ^ (nma / 16)))
      ∧ poolsOk c = true ∧ f 640 64 % 64 = 0 ∧ f 888 4 ≤ 4 ∧ f 892 4 ≤ 4 ∧ (f 888 8 ≠ 0 → f 704 64 % 16 = 0)
      ∧ (parseSignal (f 880 1 = 1) (f 864 8) (f 872 8) (f 896 32)).isSome = true))
  ∧ (∀ (s : State) (data : Bool) (b a d : BitVec 5),
    let va := s.found.rx a
    let job := qjobAt s (clusterOf s.curCore) va s.cur.ctx
    let Gives (i : Instr) (v : Nat) (u : State) : Prop :=
      Does i s fun t => Retires u t 0 (s.cur.pc + 4) (s.found.writeVar [(xr d, BitVec.ofNat 512 v)] 0 false)
    let limit := (s.found.rx b).toNat
    (canIssue s [xr a] [xr d] = true →
      (∀ j, job = some j → Gives (.qstat a d) (j.state + j.scause * 2 ^ 8 + j.depth * 2 ^ 16 + j.nleaves * 2 ^ 32) s)
      ∧ (∀ ps : List (Nat × Nat), job = none → ps.length = 8 →
          (∀ k, k < 8 → s.trans (va + 116 + BitVec.ofNat 64 k) .read = .ok (ps.getD k (0, 0)).1 (ps.getD k (0, 0)).2) →
          (∀ p ∈ ps, isPoisoned s p.1 = false ∧ ∀ x ∈ s.cur.accs, x.home ≠ homeOf p.1) →
          let byte (k : Nat) : Nat := (readThrough s (ps.getD k (0, 0)).1 1 (ps.getD k (0, 0)).2).toNat % 256
          Gives (.qstat a d) (byte 0 + 2 ^ 8 * byte 1 + 2 ^ 16 * byte 2 + 2 ^ 32 * byte 4 + 2 ^ 40 * byte 5 + 2 ^ 48 * byte 6
            + 2 ^ 56 * byte 7) s)
      ∧ ((∀ j, job = some j → j.cancelled = true) → Gives (.qcancel a d) 1 s)
      ∧ ∀ j, job = some j → j.cancelled = false → ∃ u, Gives (.qcancel a d) 0 u ∧ u.mem = s.mem
          ∧ getQJob u j.id = some { j with cancelled := true, assigned := [], leaves := j.leaves.filter fun l => leafRuns s.settled j l.1 })
    ∧ (canIssue s [xr a, xr b] [xr d] = true →
      ((∀ j, job = some j → j.cancelled = true) → Gives (.qpool data b a d) 1 s)
      ∧ ∀ j, job = some j → j.cancelled = false →
        let j' : QJob := if data then { j with dplimit := limit } else { j with nplimit := limit }
        let Raises (old : Nat) (raised : Prop) : Prop :=
          (limit = old → Gives (.qpool data b a d) 0 s)
          ∧ ((limit < old ∨ (limit ≠ old ∧ limit % (if data then 64 else 128) ≠ 0)) → Gives (.qpool data b a d) 2 s)
          ∧ (old < limit → limit % (if data then 64 else 128) = 0 → raised)
        (j.state ≠ 3 → Raises (if data then j.dplimit else j.nplimit) (Gives (.qpool data b a d) 0 (setQJob s.settled j')))
        ∧ (j.state = 3 → ∀ p k q l, translate s (clusterOf j.core) j.ctx j.addr .read = .ok p k →
            translate s (clusterOf j.core) j.ctx (j.addr + 64) .read = .ok q l → isPoisoned s p = false → isPoisoned s q = false →
            let card := (blockThrough s p k).toNat + 2 ^ 512 * (blockThrough s q l).toNat
            Raises (card / 2 ^ (if data then 512 else 320) % 2 ^ 64) (∀ w,
              qCard s.settled j (if data then 64 else 40) limit 8 = .ok w → Gives (.qpool data b a d) 0 (setQJob w j'))))
    ∧ (canIssue s [xr a] [] = true → jobGate s.found = none →
      ((∀ j, job = some j → j.state ≠ 3 ∨ j.cancelled = true ∨ j.scause = 4) → Traps (.qresume a) s 0x0A va)
      ∧ ∀ j p k q l v, job = some j → j.state = 3 → j.cancelled = false → j.scause ≠ 4 → va.toNat % 128 = 0 →
        s.trans va .write = .ok p k → s.trans (va + 64) .write = .ok q l → isPoisoned s p = false → isPoisoned s q = false →
        (∀ x ∈ s.cur.accs, x.home ≠ homeOf p ∧ x.home ≠ homeOf q) →
        let card := (blockThrough s p k).toNat + 2 ^ 512 * (blockThrough s q l).toNat
        (poolsOk card = false → Traps (.qresume a) s 0x0A va)
        ∧ (poolsOk card = true → takeClaim s.settled s.curCore s.curSlot s.cur.launch j.signal = some v →
            let f (lo n : Nat) : Nat := card / 2 ^ lo % 2 ^ n
            let j' : QJob := { j with
              core := s.curCore, launch := s.cur.launch, state := 1, scause := 0, suspend := 0, wait := none, rewalk := true, cache := []
              blocked := [], asked := j.blocked.filter fun x => translate s (clusterOf s.curCore) j.ctx x .read == .miss
              npnext := f 384 64, nplimit := f 320 64, dpnext := f 576 64, dplimit := f 512 64, depth := f 944 8
              card := { j.card with npbase := BitVec.ofNat 64 (f 256 64), dpbase := BitVec.ofNat 64 (f 448 64) } }
            ∀ w, qCard v j' 116 1 2 = .ok w → Does (.qresume a) s fun t => Retires (setQJob w j') t 0 (s.cur.pc + 4) s.found)))

/-! ### Message, group, actor, task and egress instructions -/

/-- 08 R172, R173, R177 to R180: SEND and SENDX record a message for an endpoint that accepts it, SENDR a reduction and GSEND a
group message; the words of SENDX come from memory, own-slice words at once. Nothing is sent before the commit. A bad
endpoint, a bad group operand and an address of SENDR or SENDX that is misaligned or not permitted trap; an endpoint that is not cached is
looked up, and a translation that is not waits for a walk. A full buffer traps after every other check.
The model's readings in it: log 57. -/
def Obligations.SendsAreBuffered : Prop :=
  ∀ (s : State) (n : BitVec 2) (c : BitVec 3) (b a : BitVec 5),
    let o := s.found.rx a
    let name := o.toNat % 2 ^ 32
    let ch := o.toNat / 2 ^ 32 % 16
    let k := n.toNat + 1
    let regs := (List.range k).map fun j => (⟨.v, b.toNat + j⟩ : RegRef)
    let words := (List.range k).map fun j => s.found.getV (b.toNat + j)
    let full := 64 ≤ s.cur.sends.length
    let Buffers (i : Instr) (e : SendEntry) : Prop :=
      Does i s fun t => Retires s t 0 (s.cur.pc + 4) { s.found with sends := s.cur.sends ++ [e] }
    let declared : Prop := o.toNat < 2 ^ 36 ∧ name ≠ 0
      ∧ ∃ x, getActor s s.cur.launch name = some x ∧ x.place ≠ .ended ∧ x.accepts ch k = true
    let cached : Prop := (cachedNode s s.curCore s.cur.launch name).isSome = true
    let vas := (List.range k).map fun j => s.found.rx b + BitVec.ofNat 64 (64 * j)
    let Sound (kind : AccessKind) (va : Word) : Prop := va.toNat % 64 = 0 ∧ ∃ pa key, s.trans va kind = .ok pa key
    let Stops (i : Instr) (kind : AccessKind) (vas : List Word) : Prop := ∀ before va after, vas = before ++ va :: after →
      (∀ w ∈ before, Sound kind w) →
        (va.toNat % 64 ≠ 0 → Traps i s 0x03 va)
        ∧ (va.toNat % 64 = 0 → s.trans va kind = .bad → Traps i s 0x04 va)
        ∧ (va.toNat % 64 = 0 → s.trans va kind = .miss →
            exec i s = .next (s.setCur { s.found with status := .walk va kind false, stall := none }))
    (canIssue s ([xr a] ++ regs) [] = true →
      (declared → cached → ¬full → Buffers (.send n c b a) (.send name ch c.toNat words))
      ∧ (declared → cached → full → Traps (.send n c b a) s 0x07 (BitVec.ofNat 64 (2 ^ 63)))
      ∧ (declared → ¬cached → Does (.send n c b a) s fun t => t = s.setCur { s.found with status := .lookup name, stall := none })
      ∧ (¬declared → Traps (.send n c b a) s 0x07 o)
      ∧ (groupOk s o true false 0 = true → ¬full → Buffers (.gsend n c b a) (.gsend o c.toNat words))
      ∧ (groupOk s o true false 0 = true → full → Traps (.gsend n c b a) s 0x07 (BitVec.ofNat 64 (2 ^ 63)))
      ∧ (groupOk s o true false 0 = false → Traps (.gsend n c b a) s 0x10 o))
    ∧ (canIssue s ([xr a] ++ [(⟨.v, b.toNat⟩ : RegRef), ⟨.v, b.toNat + 1⟩]) [] = true →
        Stops (.sendr c b a) .write [o]
        ∧ (o.toNat % 64 = 0 → ∀ pa key, s.trans o .write = .ok pa key →
          (¬full → Buffers (.sendr c b a) (.red o pa key c.toNat (s.found.getV b.toNat) (s.found.getV (b.toNat + 1))))
          ∧ (full → Traps (.sendr c b a) s 0x07 (BitVec.ofNat 64 (2 ^ 63)))))
    ∧ (canIssue s [xr a, xr b] [] = true →
        (¬declared → Traps (.sendx n c b a) s 0x07 o)
        ∧ (declared → ¬cached → Does (.sendx n c b a) s fun t => t = s.setCur { s.found with status := .lookup name, stall := none })
        ∧ (declared → cached → Stops (.sendx n c b a) .read vas
          ∧ ((∀ va ∈ vas, Sound .read va) → full → gate s.curCore s.found (gating .rlx s.cur.oscope true false) = none →
              Traps (.sendx n c b a) s 0x07 (BitVec.ofNat 64 (2 ^ 63)))))
    ∧ (canIssue s [xr a, xr b] [] = true → declared → cached → ¬full →
        gate s.curCore s.found (gating .rlx s.cur.oscope true false) = none →
        let own (va : Word) := ownPa s ⟨0, va, 64, .read, fun pa => .read pa 64, .none⟩
        (∀ va ∈ vas, elemReady s ⟨0, va, 64, .read, fun pa => .read pa 64, .none⟩) →
        Does (.sendx n c b a) s fun t => ∃ u sl, Retires u t 0 (s.cur.pc + 4) sl
          ∧ u = { s with nextId := u.nextId, pairs := u.pairs, tokens := u.tokens }
          ∧ sl.x = s.found.x ∧ sl.v = s.found.v ∧ sl.k = s.found.k
          ∧ sl.sends = s.cur.sends ++ [.send name ch c.toNat (vas.map fun va =>
              match own va with | some pa => BitVec.ofNat 512 (memRead s.mem pa 64) | none => 0)]
          ∧ sl.accs.map (fun x => (x.va, x.dst)) = s.cur.accs.map (fun x => (x.va, x.dst))
              ++ (vas.zipIdx.filter fun v => (own v.1).isNone).map fun v => (v.1, .send s.cur.sends.length v.2))

/-- 08 R181 to R183: HTSET writes the fields of an entry of the actor's own handler table, HTCLR unbinds it, HTGET reads it;
a channel the actor does not declare traps CHANNEL, and an entry bound outside the text ACCESS with its address; an entry whose
translation is not cached waits for a walk. No message moves.
08 R184: CHMSK sets and CHUNM clears bits of the launch's class mask on the core, for X[rs1] below 2^7, and give its old
value; a larger operand traps CHANNEL.
The model's readings in it: log 13. -/
def Obligations.HandlerTableAndMasks : Prop :=
  (∀ (s : State) (b a d : BitVec 5),
    let o := s.found.rx a
    let v := s.found.rx b
    let own (x : Actor) (c : Chan) : Prop :=
      getActor s s.cur.launch s.cur.actor = some x ∧ o.toNat < 16 ∧ x.chan o.toNat = some c ∧ x.name = s.cur.actor ∧ c.num = o.toNat
    let undeclared : Prop := 16 ≤ o.toNat ∨ ∀ x, getActor s s.cur.launch s.cur.actor = some x → x.chan o.toNat = none
    let entry : Word := entryAddress s s.cur.launch (v.extractLsb' 32 32)
    let Writes (i : Instr) (f : Chan → Chan) : Prop := ∀ x c, own x c → Does i s fun t => ∃ u,
      Retires u t 0 (s.cur.pc + 4) s.found ∧ u = { s with launches := u.launches }
      ∧ ∃ y c', getActor u s.cur.launch s.cur.actor = some y ∧ y = { x with chans := y.chans } ∧ y.chan o.toNat = some c'
        ∧ (∀ n, n ≠ o.toNat → y.chan n = x.chan n)
        ∧ c' = { f c with unbound := c'.unbound, ucount := c'.ucount } ∧ c'.queue = c.queue ∧ c'.words = c.words ∧ c'.task = c.task
    (canIssue s [xr a, xr b] [] = true →
      (undeclared → Traps (.htset b a) s 0x07 o)
      ∧ ((v.getLsbD 11 = false ∨ ∃ pa key, s.trans entry .fetch = .ok pa key) →
          Writes (.htset b a) fun c =>
            { c with offset := v.extractLsb' 32 32, bound := v.getLsbD 11, en := v.getLsbD 8, prio := v.toNat % 8 })
      ∧ (∀ x c, own x c → v.getLsbD 11 = true →
          (s.trans entry .fetch = .bad → Traps (.htset b a) s 0x04 entry)
          ∧ (s.trans entry .fetch = .miss →
              exec (.htset b a) s = .next (s.setCur { s.found with status := .walk entry .fetch false, stall := none }))))
    ∧ (canIssue s [xr a] [] = true →
      (undeclared → Traps (.htclr a) s 0x07 o) ∧ Writes (.htclr a) fun c => { c with offset := 0, bound := false })
    ∧ (canIssue s [xr a] [xr d] = true →
      (undeclared → Traps (.htget a d) s 0x07 o)
      ∧ ∀ x c, own x c → Does (.htget a d) s fun t => ∃ w, Retires s t 0 (s.cur.pc + 4) (s.found.writeVar [(xr d, ofWord w)] 0 false)
          ∧ w.extractLsb' 32 32 = c.offset ∧ w.getLsbD 19 = c.task ∧ w.getLsbD 11 = c.bound ∧ w.getLsbD 10 = !c.queue.isEmpty
          ∧ w.getLsbD 8 = c.en ∧ w.toNat % 8 = c.prio % 8 ∧ w.toNat / 2 ^ 16 % 4 = (c.words - 1) % 4))
  ∧ (∀ (s : State) (a d : BitVec 5), canIssue s [xr a] [xr d] = true →
    let v := s.found.rx a
    let r := getResident s s.curCore s.cur.launch
    let M (i : Instr) (new : BitVec 8) : Prop :=
      (2 ^ 7 ≤ v.toNat → Traps i s 0x07 v)
      ∧ (v.toNat < 2 ^ 7 → Does i s fun t =>
          Retires (setResident s.settled s.curCore { r with cmask := new }) t 0 (s.cur.pc + 4)
            (s.found.writeVar [(xr d, r.cmask.setWidth 512)] 0 false))
    M (.chmsk a d) (r.cmask ||| v.setWidth 8) ∧ M (.chunm a d) (r.cmask &&& ~~~(v.setWidth 8)))

/-- 06 R32, R146: a channel twin whose channel has no word to pop traps CHANNEL with the channel number; one whose word has an
uncorrectable error traps ACCESS (14 R342). Stated of the twins of VADD, VFMA, VFDIV, VCMPEQ and VMRGU.
08 R185, 01 R30 to R33: MPEEK gives the word at a distance of at most 3 from the pop position of a channel and pops
nothing; MDROP holds the message there as fully popped, the head of the queue included, which leaves the queue, and buffers its
end. Where there is no such word or message they trap CHANNEL with the operand.
01 R30 to R33: a pop gives the words of the first held message of the channel that has words left in order, a word for each pop; with
none, word 0 of the message at the head of the channel's queue, which becomes held and leaves the queue. On a task channel it gives the
words of the triggering task, and no other task's. Else there is no word.
The model's readings in it: log 31. -/
def Obligations.ChannelReads : Prop :=
  let Poisoned (i : Instr) (s : State) : Prop :=
    exec i s = .next (trapFrom 6 (music s.settled (dieOf s.curCore) (s.curCore % 4096) 3 0) s.curCore s.curSlot 0x04 0 s.cur.pc)
  (∀ (s : State) (c : Nat) (i : Fin 4) (ch : Nat),
    let x := getSlot s c i
    ((∀ y, getActor s x.launch x.actor = some y → y.chan ch = none) → popWord s c i ch = none)
    ∧ ∀ y cn, getActor s x.launch x.actor = some y → y.name = x.actor → y.chan ch = some cn → cn.num = ch →
      (cn.task = true →
        (∀ t pos w, x.chan = ch → x.htask = some (t, pos) → t.words[pos]? = some w →
          popWord s c i ch = some (w, setSlot s c i { x with htask := some (t, pos + 1) }))
        ∧ ((∀ t pos, x.chan = ch → x.htask = some (t, pos) → t.words.length ≤ pos) → popWord s c i ch = none))
      ∧ (cn.task = false →
        (∀ before h after w, x.held = before ++ h :: after → h.chan = ch → h.msg.words[h.pos]? = some w →
          (∀ z ∈ before, z.chan = ch → z.msg.words.length ≤ z.pos) →
          popWord s c i ch = some (w, setSlot s c i { x with held := before ++ { h with pos := h.pos + 1 } :: after }))
        ∧ ((∀ z ∈ x.held, z.chan = ch → z.msg.words.length ≤ z.pos) →
          (cn.queue = [] → popWord s c i ch = none)
          ∧ ∀ m rest w, cn.queue = m :: rest → m.words[0]? = some w → ∃ u y' cn', popWord s c i ch = some (w, u)
            ∧ getSlot u c i = { x with held := x.held ++ [⟨ch, m, 1, false⟩] } ∧ OtherSlots s u c i ∧ u.mem = s.mem
            ∧ getActor u x.launch x.actor = some y' ∧ y'.chan ch = some cn' ∧ cn'.queue = rest
            ∧ ∀ n, n ≠ ch → y'.chan n = y.chan n)))
  ∧ (∀ (s : State) (sc : BitVec 2) (m : BitVec 3) (w : Width) (x : Flush) (b d : BitVec 5) (d3 : BitVec 3) (ch : BitVec 4),
    let Twin (i : Instr) (srcs dsts : List RegRef) : Prop := canIssue s srcs dsts = true →
      (popWord s.settled s.curCore s.curSlot ch.toNat = none → Traps i s 0x07 (BitVec.ofNat 64 ch.toNat))
      ∧ (popPoisoned s.settled s.found ch.toNat = true → Poisoned i s)
    Twin (.vaddCh sc m w b ch d) ([vr b] ++ maskDst m d) [vr d]
    ∧ Twin (.vfdivCh m x b ch d) ([vr b] ++ maskDst m d) [vr d]
    ∧ Twin (.vfmaCh sc m x b ch d) ([vr b, vr d] ++ maskSrc m) [vr d]
    ∧ Twin (.vcmpeqCh sc m w b ch d3) ([vr b] ++ maskSrc m) [kr d3]
    ∧ Twin (.vmrguCh m w b ch d) ([vr b] ++ if m = 0 then [] else [kr m, vr d, vr (d + 1)]) [vr d, vr (d + 1), vr (d + 2)])
  ∧ (∀ (s : State) (a d : BitVec 5),
    let v := s.found.rx a
    let at_ (ch : Nat) := popPoint s s.found ch
    (canIssue s [xr a] [vr d] = true →
      (∀ ws p w, v.toNat < 64 → at_ (v.toNat % 16) = some (ws, p) → ws[p + v.toNat / 16]? = some w →
        (popPoisoned s.settled s.found (v.toNat % 16) = false →
          Does (.mpeek a d) s fun t => Retires s t 0 (s.cur.pc + 4) (s.found.writeVar [(vr d, w)] 0 false))
        ∧ (popPoisoned s.settled s.found (v.toNat % 16) = true → Poisoned (.mpeek a d) s))
      ∧ ((64 ≤ v.toNat ∨ at_ (v.toNat % 16) = none ∨ ∃ ws p, at_ (v.toNat % 16) = some (ws, p) ∧ ws.length ≤ p + v.toNat / 16) →
        Traps (.mpeek a d) s 0x07 v))
    ∧ (canIssue s [xr a] [] = true →
      ((16 ≤ v.toNat ∨ at_ v.toNat = none) → Traps (.mdrop a) s 0x07 v)
      ∧ (v.toNat < 16 → (at_ v.toNat).isSome = true → 64 ≤ s.cur.sends.length → Traps (.mdrop a) s 0x07 (BitVec.ofNat 64 (2 ^ 63)))
      ∧ (v.toNat < 16 → (at_ v.toNat).isSome = true → s.cur.sends.length < 64 → Does (.mdrop a) s fun t =>
          t.cur.sends = s.cur.sends ++ [.mdrop v.toNat] ∧ t.cur.x = s.found.x ∧ t.cur.v = s.found.v ∧ t.mem = s.mem
          ∧ (s.cur.inDebug = false → s.cur.oneStep = false → t.cur.pc = s.cur.pc + 4 ∧ t.cur.status = .running)
          ∧ ∀ y cn, getActor s s.cur.launch s.cur.actor = some y → y.name = s.cur.actor → y.chan v.toNat = some cn →
              cn.num = v.toNat → cn.task = false → ¬(s.cur.chan = v.toNat ∧ s.cur.htask.isSome = true) →
              (∀ h, heldOn s.cur.held v.toNat = some h → t.launches = s.launches
                ∧ t.cur.held = s.cur.held.map fun z => if z = h then { z with pos := z.msg.words.length } else z)
              ∧ (heldOn s.cur.held v.toNat = none → ∃ m rest y' cn', cn.queue = m :: rest
                ∧ t.cur.held = s.cur.held ++ [⟨v.toNat, m, m.words.length, false⟩]
                ∧ getActor t s.cur.launch s.cur.actor = some y' ∧ y'.chan v.toNat = some cn' ∧ cn'.queue = rest))))

/-- 08 R186 to R189, R193, R194: JOIN, LEAVE and the collectives with a group home on the core itself complete with the answer of the
home, or trap GROUP where its condition fails; with another home they leave a request and complete. A malformed operand traps GROUP.
The collectives buffer their arrival for the commit. At its home, the first JOIN of a launch creates a group of one member; later ones
add a member that is not one yet; both give the count. It refuses an actor in 16 groups, a member more of 4,096, and a record more of
the home's 256 (R186, R187). LEAVE removes a member that has not arrived and gives the count left, which may
complete the epoch, and the last one dissolves the group. A query holds for a member that has not arrived. Memory and the groups of
other cores and launches stay.
08 R189 to R192: an arrival that performs at the home joins the open epoch of its kind, or opens one; one of another kind, or a
second root of an XBCAST, ends the launch with cause GROUP. The epoch completes when every current member has arrived: the next epoch
opens, and each arrived actor that is still a member is sent one message of the completion word, with the home core's next SEQ; an
XBCAST epoch that completes with no root ends the launch. The word: of GBAR the group, the epoch and the member count; of XRED the
contributions combined in ascending endpoint name, lane by lane by its OP; of XBCAST the root's.
The model's readings in it: log 27. -/
def Obligations.GroupsAndCollectives : Prop :=
  ((∀ (s : State) (b a d : BitVec 5),
     let o := s.found.rx a
     let home := o.toNat / 2 ^ 12 % 2 ^ 12 * 4096 + o.toNat % 2 ^ 12
     let full := 64 ≤ s.cur.sends.length
     let G (i : Instr) (srcs dsts : List RegRef) (ok : Bool) (op : GroupOp) (dst : AccDst) (sl : Slot) : Prop :=
       canIssue s srcs dsts = true →
         (ok = false → Traps i s 0x10 o)
         ∧ (ok = true → coreNode home ≠ s.node → Does i s fun t => Retires
             (enqueue { s with nextId := s.nextId + 1 } s.node (coreNode home) (newPacket 0 (o.toNat / 2 ^ 32 % 8) s.cur.ctx
               (.grp s.cur.launch o op (some ⟨s.curCore, s.curSlot, s.nextId, none⟩))))
             t 0 (s.cur.pc + 4)
             { sl with accs := s.cur.accs ++ [⟨s.nextId, coreNode home, false, false, false, o, s.cur.pc, dst⟩] })
         ∧ (ok = true → coreNode home = s.node → ∀ u r, performGroup s.settled s.cur.launch o op = (u, r) →
             (r.code ≠ 0 → Traps i s 0x10 o)
             ∧ (r.code = 0 → Does i s fun t => Retires u t 0 (s.cur.pc + 4) (match dst with
                 | .member rd _ => (sl.claim [⟨.x, rd⟩]).setReg ⟨.x, rd⟩ r.value
                 | _ => sl)))
     let arrived := s.cur.sends.any fun e => match e with | .coll _ p _ => groupHome p == groupHome o | _ => false
     let C (i : Instr) (srcs : List RegRef) (maxOp : Nat) (kind : CollKind) (payload : Vec) : Prop :=
       (canIssue s srcs [] = true → groupOk s o true true maxOp = true → arrived = false → full →
         Traps i s 0x10 (BitVec.ofNat 64 (2 ^ 63)))
       ∧ (¬full → G i srcs [] (groupOk s o true true maxOp && !arrived) (.query s.cur.actor) (.query o)
           { s.found with sends := s.cur.sends ++ [.coll kind o payload] })
     G (.join a d) [xr a] [xr d] (groupOk s o false false 0) (.join s.cur.actor) (.member d.toNat o) s.found
     ∧ G (.leave a d) [xr a] [xr d] (groupOk s o false false 0 && !arrived) (.leave s.cur.actor) (.member d.toNat o)
         s.found
     ∧ C (.gbar a) [xr a] 0 .gbar 0
     ∧ C (.xred b a) [xr a, vr b] 9 (.xred (groupOp o)) (s.found.rv b)
     ∧ C (.xbcast b a) [xr a, vr b] 1 .xbcast (s.found.rv b))
   ∧ (∀ (s : State) (l name : Nat) (o : Word) (x : Actor),
     let h := groupHome o
     let members (u : State) : List Nat := match getGroup u h l with | some g => g.members | none => []
     let refused (op : GroupOp) : Prop := ∀ u r, performGroup s l o op = (u, r) → r.code = 1 ∧ u = s
     (getActor s l name = some x →
       (16 ≤ x.groups.length → refused (.join name))
       ∧ (getGroup s h l = none → 256 ≤ (getCore s h).groups.length → refused (.join name))
       ∧ ∀ g, getGroup s h l = some g → 4096 ≤ g.members.length → refused (.join name))
     ∧ (getActor s l name = some x → x.name = name → x.groups.length < 16 → (getCore s h).groups.length < 256 →
       (∀ u r, getGroup s h l = none → performGroup s l o (.join name) = (u, r) →
         r.code = 0 ∧ r.value = 1 ∧ members u = [name] ∧ u.mem = s.mem)
       ∧ (∀ g u r, getGroup s h l = some g → name ∉ g.members → g.members.length < 4096 →
           performGroup s l o (.join name) = (u, r) →
           r.code = 0 ∧ r.value.toNat = g.members.length + 1 ∧ members u = g.members ++ [name] ∧ u.mem = s.mem)
       ∧ (∀ g u r, getGroup s h l = some g → name ∈ g.members → performGroup s l o (.join name) = (u, r) → r.code = 1 ∧ u = s)
       ∧ (∀ g u r, getGroup s h l = some g → g.members = [name] → (∀ y ∈ g.arrivals, y.name ≠ name) →
           performGroup s l o (.leave name) = (u, r) → r.code = 0 ∧ r.value = 0 ∧ getGroup u h l = none)
       ∧ (∀ g u r, getGroup s h l = some g → name ∈ g.members → (∃ n ∈ g.members, n ≠ name) → (∀ y ∈ g.arrivals, y.name ≠ name) →
           performGroup s l o (.leave name) = (u, r) →
           let left : GroupRec := { g with members := g.members.filter (· != name) }
           r.code = 0 ∧ r.value = BitVec.ofNat 512 (g.members.length - 1) ∧ members u = left.members
           ∧ u = checkEpoch (setGroup (setActor s l { x with groups := x.groups.filter (· != h) }) h left) h l)
       ∧ (∀ u r, (∀ g, getGroup s h l = some g → name ∉ g.members) → performGroup s l o (.leave name) = (u, r) → r.code = 1 ∧ u = s)
       ∧ ∀ g u r, getGroup s h l = some g → performGroup s l o (.query name) = (u, r) →
           u = s ∧ (r.code = 0 ↔ name ∈ g.members ∧ ∀ y ∈ g.arrivals, y.name = name → y.member = false)))
   ∧ ∀ (s : State) (l : Nat) (o : Word) (op : GroupOp),
       let u := (performGroup s l o op).1
       u.mem = s.mem ∧ ∀ h' l', (h', l') ≠ (groupHome o, l) → getGroup u h' l' = getGroup s h' l')
  ∧ (let fault (s t : State) (h l : Nat) : Prop := ∃ r, t = { s with reports := s.reports ++ [r] } ∧ r.launch = l ∧ r.cause = 0x10
       ∧ r.origin = 7 ∧ r.tval = BitVec.ofNat 64 (h % 2 ^ 24)
     (∀ (s : State) (l : Nat) (o : Word) (g : GroupRec) (name : Nat) (kind : CollKind) (payload : Vec),
       let h := groupHome o
       let u := (performGroup s l o (.arrive name kind payload)).1
       let root : Bool := kind = .xbcast ∧ o.toNat / 2 ^ 28 % 16 = 1
       getGroup s h l = some g →
         ((∃ k, g.kind = some k ∧ k ≠ kind) → fault s u o.toNat l)
         ∧ (root = true → (∃ a ∈ g.arrivals, a.root = true) → (g.kind = none ∨ g.kind = some kind) → fault s u o.toNat l)
         ∧ ((g.kind = none ∨ g.kind = some kind) → (root = false ∨ ∀ a ∈ g.arrivals, a.root = false) →
             u = checkEpoch (setGroup s h { g with
               kind := some kind
               arrivals := g.arrivals ++ [⟨name, root, o.toNat / 2 ^ 24 % 16, o.toNat / 2 ^ 32 % 8, payload,
                 g.members.contains name⟩] }) h l))
     ∧ (∀ (s : State) (h l : Nat) (g : GroupRec), getGroup s h l = some g →
       let full : Prop := g.arrivals ≠ [] ∧ ∀ n ∈ g.members, ∃ a ∈ g.arrivals, a.name = n ∧ a.member = true
       (¬full → checkEpoch s h l = s)
       ∧ (full → completionWord h g = none → fault s (checkEpoch s h l) h l)
       ∧ ∀ w, full → completionWord h g = some w →
           getGroup (checkEpoch s h l) h l = some { g with epoch := g.epoch + 1, kind := none, arrivals := [] }
           ∧ checkEpoch s h l = sendCompletions (setGroup s h { g with epoch := g.epoch + 1, kind := none, arrivals := [] }) h
               (asidOf s l) l w g.arrivals)
     ∧ (∀ (s : State) (h asid l : Nat) (w : Vec) (a : Arrival) (node : Nat) (as bs : List Arrival),
       sendCompletions s h asid l w (as ++ bs) = sendCompletions (sendCompletions s h asid l w as) h asid l w bs
       ∧ (a.member = false → sendCompletions s h asid l w [a] = s)
       ∧ (a.member = true → addressOf s h l a.name = some node → node ≠ coreNode h →
           let t := sendCompletions s h asid l w [a]
           let seq := (getCore s h).seq + 1
           (getPair t (coreNode h) node).out
               = (getPair s (coreNode h) node).out ++ [msgPacket asid l a.name a.chan ⟨a.cls, [w], msgidOf h seq, 0, 0, 0, false⟩]
           ∧ (getCore t h).seq = seq ∧ t.mem = s.mem))
     ∧ (∀ (h : Nat) (g : GroupRec),
       (g.kind = some .gbar → ∃ w, completionWord h g = some w ∧ w.toNat % 2 ^ 64 = h % 2 ^ 24
         ∧ w.toNat / 2 ^ 64 % 2 ^ 32 = g.epoch % 2 ^ 32
         ∧ (g.members.length < 2 ^ 32 → w.toNat / 2 ^ 96 = g.members.length))
       ∧ (g.kind = some .xbcast → (∀ a, g.arrivals.filter (·.root) = [a] → completionWord h g = some a.payload)
         ∧ ((∀ a ∈ g.arrivals, a.root = false) → completionWord h g = none))
       ∧ ∀ op a as, g.kind = some (.xred op) → g.arrivals.Perm (a :: as) → (a :: as).Pairwise (fun x y => x.name < y.name) →
           completionWord h g = some (as.foldl (fun acc x => xredStep op acc x.payload) a.payload))
     ∧ ∀ a b : Vec,
       let si (x : Nat) : Int := if x < 2 ^ 31 then x else (x : Int) - 2 ^ 32
       let lanes (op n : Nat) (f : Nat → Nat → Nat) : Prop := ∀ j, j < 512 / n → lane (xredStep op a b) n j = f (lane a n j) (lane b n j)
       lanes 0 32 (fun x y => (x + y) % 2 ^ 32) ∧ lanes 1 64 (fun x y => (x + y) % 2 ^ 64)
       ∧ lanes 2 32 (fun x y => (fadd32 RNE x y).1 % 2 ^ 32)
       ∧ lanes 3 32 (fun x y => if si x ≤ si y then x else y) ∧ lanes 4 32 (fun x y => if si x ≤ si y then y else x)
       ∧ lanes 5 32 (fun x y => (fminmax32 false x y).1 % 2 ^ 32) ∧ lanes 6 32 (fun x y => (fminmax32 true x y).1 % 2 ^ 32)
       ∧ xredStep 7 a b = a ||| b ∧ xredStep 8 a b = a &&& b ∧ xredStep 9 a b = a ^^^ b)

/-- 08 R195, R196: QPUSH buffers a push of W words or a close; a bad operand traps TASK with it, a full buffer TASK with 2^63.
QPOP takes the oldest task of the core's queue of the launch into its registers with rd = 0; with no task to draw it gives 1,
or 2 where the die is closed; else it waits for a draw. With 64 popped tasks it traps TASK with 2^63. A task with an uncorrectable error traps ACCESS (14 R342; log 31). -/
def Obligations.TaskQueues : Prop :=
  ∀ (s : State) (b a d : BitVec 5) (l : Launch), getLaunch s s.cur.launch = some l →
    let o := s.found.rx a
    let level := o.toNat % 4
    let close := o.getLsbD 8
    let w := l.words
    let regs := (List.range w).map fun j => (⟨.v, b.toNat + j⟩ : RegRef)
    let words := (List.range w).map fun j => s.found.getV (b.toNat + j)
    let bad : Prop := level = 3 ∨ 2 ^ 9 ≤ o.toNat ∨ o.toNat / 4 % 64 ≠ 0 ∨ (close = true ∧ level ≠ 2)
    let r := getResident s s.curCore s.cur.launch
    let full := 64 ≤ s.cur.sends.length
    (b.toNat + w ≤ 32 → canIssue s [xr a] [] = true → canIssue s (if close then [] else regs) [] = true →
      (bad → Traps (.qpush b a) s 0x0E o)
      ∧ (¬bad → full → Traps (.qpush b a) s 0x0E (BitVec.ofNat 64 (2 ^ 63)))
      ∧ (¬bad → ¬full → Does (.qpush b a) s fun t => Retires s t 0 (s.cur.pc + 4)
          { s.found with sends := s.cur.sends ++ [.qpush o level close (if close then [] else words)] }))
    ∧ (32 < b.toNat + w → canIssue s [xr a] [] = true →
        canIssue s (if close then [] else regs.filter fun q => decide (q.n < 32)) [] = true → Traps (.qpush b a) s 0x0E o)
    ∧ (canIssue s [] [xr d] = true →
        (32 < b.toNat + w → Traps (.qpop b d) s 0x0E (BitVec.ofNat 64 w))
        ∧ (b.toNat + w ≤ 32 → 64 ≤ s.cur.popped.length → Traps (.qpop b d) s 0x0E (BitVec.ofNat 64 (2 ^ 63)))
        ∧ (b.toNat + w ≤ 32 → canIssue s [] regs = true → s.cur.popped.length < 64 →
            (∀ t rest, r.tasks = t :: rest → t.bad = true → exec (.qpop b d) s = .next
                (trapFrom 6 (music s.settled (dieOf s.curCore) (s.curCore % 4096) 3 0) s.curCore s.curSlot 0x04 0 s.cur.pc))
            ∧ (∀ t rest, r.tasks = t :: rest → t.bad = false → t.words.length = w →
              Does (.qpop b d) s fun u => ∃ sl,
                Retires (setResident s.settled s.curCore { r with tasks := rest }) u 0 (s.cur.pc + 4) sl
                ∧ sl.popped = s.cur.popped ++ [t] ∧ sl.k = s.found.k
                ∧ (∀ q, q < 32 → sl.getV q = if b.toNat ≤ q ∧ q < b.toNat + w then t.words.getD (q - b.toNat) 0 else s.found.getV q)
                ∧ ∀ q, q < 32 → sl.getX q = if q = d.toNat then 0 else s.found.getX q)
            ∧ (r.tasks = [] → drawable s s.curCore s.cur.launch = false → Does (.qpop b d) s fun u =>
                Retires s u 0 (s.cur.pc + 4) ((s.found.claim [xr d]).setReg (xr d) (if l.closed.contains (dieOf s.curCore) then 2 else 1)))
            ∧ (r.tasks = [] → drawable s s.curCore s.cur.launch = true → Does (.qpop b d) s fun u =>
                u = s.setCur { s.found with status := .draw d.toNat b.toNat, stall := none })))

/-- 08 R197 to R199: TARM of a well-formed task control block of the own slice that is idle or done writes the count and arms it,
and buffers its release where the count is 0; TDONE of a block of the own slice that is released is buffered; a malformed block, or
one in another state, traps TASK with its address. With another home both leave a request.
The model's readings in it: log 15. -/
def Obligations.TaskControl : Prop :=
  ∀ (s : State) (b a : BitVec 5),
    let va := s.found.rx a
    let arm := gating .rel .module true true
    let done := gating .acq .module true false
    let full := 64 ≤ s.cur.sends.length
    let n := s.found.rx b
    let blk (pa : Nat) : Vec := BitVec.ofNat 512 (memRead s.mem (pa / 64 * 64) 64)
    let Here (pa : Nat) : Prop :=
      va.toNat % 64 = 0 ∧ (∃ key, s.trans va .write = .ok pa key) ∧ homeOf pa = s.node ∧ isPoisoned s pa = false
    (n.toNat < 2 ^ 32 → (n = 0 → ¬full) →
      RequestLeaves (.tarm b a) s [xr a, xr b] [] arm va 64 .write (fun pa => .tarm pa va n) (.tarm va)
      ∧ ∀ pa, canIssue s [xr a, xr b] [] = true → ungated s arm = true → Here pa →
          let good : Prop := (tcbState (blk pa) = 0 ∨ tcbState (blk pa) = 3) ∧ tcbLevel (blk pa) < 3 ∧ tcbNsucc (blk pa) ≤ 4096
            ∧ tcbSucc (blk pa) % 8 = 0
          (good → Does (.tarm b a) s fun t => ∃ u,
            Retires u t 0 (s.cur.pc + 4) { s.found.left with sends := s.cur.sends ++ if n = 0 then [.tarmRelease va] else [] }
            ∧ u = { returnToken s s.cur.token with mem := u.mem }
            ∧ (s.inv → (∀ x, (x < pa ∨ pa + 64 ≤ x) → memByte u.mem x = memByte s.mem x)
              ∧ (pa % 64 = 0 → let new : Vec := BitVec.ofNat 512 (memRead u.mem pa 64)
                tcbState new = 1 ∧ tcbCount new = n.toNat ∧ new.toNat / 2 ^ 128 % 2 ^ 64 = va.toNat)))
          ∧ (¬good → Traps (.tarm b a) s 0x0E va))
    ∧ (canIssue s [xr a, xr b] [] = true → va.toNat % 64 = 0 → (∃ pa key, s.trans va .write = .ok pa key) →
        (n = 0 → full → Traps (.tarm b a) s 0x0E (BitVec.ofNat 64 (2 ^ 63)))
        ∧ (2 ^ 32 ≤ n.toNat → Traps (.tarm b a) s 0x0E va))
    ∧ (¬full →
      RequestLeaves (.tdone a) s [xr a] [] done va 64 .write (fun pa => .tdoneState pa) (.tdone va)
      ∧ ∀ pa, canIssue s [xr a] [] = true → ungated s done = true → Here pa →
          (tcbState (blk pa) = 2 → Does (.tdone a) s fun t => Retires (returnToken s s.cur.token) t 0 (s.cur.pc + 4)
            { s.found.left with sends := s.cur.sends ++ [.tdone va] })
          ∧ (tcbState (blk pa) ≠ 2 → Traps (.tdone a) s 0x0E va))
    ∧ (full → canIssue s [xr a] [] = true → va.toNat % 64 = 0 → (∃ pa key, s.trans va .write = .ok pa key) →
        Traps (.tdone a) s 0x0E (BitVec.ofNat 64 (2 ^ 63)))

/-- 08 R193, R194: ACTEND marks the activation's actor to end with the activation, and changes nothing else. ACTNEW reads its
record of 64 bytes: from the own slice the actor is created at once and rd has the result code, or it waits for frames of its region
that another owner holds (12 R302; log 77); else the read leaves. The code is 6 where a reserved field is not 0, else the lowest of 1 to 5
whose condition holds, with no effect; with 0 the actor stands on its core with the fields of its record, the channels of its template, no
message, and its region zero-filled.
08 R200, R201: EGPOST, EGREL and EGDROP buffer an operation on a queue of the activation's context; another queue or a
reserved bit traps EGRESS with the operand, a full buffer EGRESS with 2^63. -/
def Obligations.ActorAndEgressInstructions : Prop :=
  (∀ (s : State) (a d : BitVec 5),
    let g := gating .rlx s.cur.oscope true false
    let va := s.found.rx a
    (canIssue s [] [] = true → Does .actend s fun t => Retires s t 0 (s.cur.pc + 4) { s.found with actend := true })
    ∧ RequestLeaves (.actnew a d) s [xr a] [xr d] g va 64 .read (fun pa => .read pa 64) (.actnew d.toNat)
    ∧ AccessStops (.actnew a d) s [xr a] [xr d] g va 64 .read
    ∧ (canIssue s [xr a] [xr d] = true → ungated s g = true → va.toNat % 64 = 0 →
        ∀ pa key, s.trans va .read = .ok pa key → homeOf pa = s.node → isPoisoned s pa = false →
          let v := returnToken (s.setCur { s.found with token := none }) s.cur.token
          let record : Vec := BitVec.ofNat 512 (memRead s.mem pa 64)
          (createWaits v s.curCore s.cur.launch record = false → ∀ u code, createActor v s.curCore s.cur.launch record = (u, code) →
            Does (.actnew a d) s fun t => Retires u t 0 (s.cur.pc + 4)
              (((s.found.claim [xr d]).setReg (xr d) (BitVec.ofNat 512 code)).left))
          ∧ (createWaits v s.curCore s.cur.launch record = true → Does (.actnew a d) s fun t =>
              Retires { returnToken s s.cur.token with nextId := s.nextId + 1 } t 0 (s.cur.pc + 4) { s.found.left with
                accs := s.cur.accs ++ [⟨s.nextId, s.node, false, false, false, va, s.cur.pc, .create d.toNat record⟩] })))
  ∧ (∀ (s : State) (c lid : Nat) (l : Launch) (r : Vec), getLaunch s lid = some l →
    let f (lo n : Nat) : Nat := r.toNat / 2 ^ lo % 2 ^ n
    let core := c / 4096 * 4096 + f 32 12
    let base := f 64 64
    let size := f 128 32
    let stack := f 160 32
    let held := (s.launches.filter fun l => l.phase != .ended).flatMap fun l =>
      l.actors.filter fun a => a.place == .core && a.core == core
    let template (x : Actor) : Prop := l.actor (f 224 32) = some x ∧ x.place = .core ∧ x.core = core
    let reserved : Prop := f 256 256 ≠ 0 ∨ f 44 20 ≠ 0
    let taken : Prop := f 0 32 = 0 ∨ (l.actor (f 0 32)).isSome = true
    let full : Prop := 64 ≤ held.length
    let noTable : Prop := ∀ x, template x → 256 < (held.map fun a => a.chans.length).sum + x.chans.length
    let badRegion : Prop := base % 64 ≠ 0 ∨ size % 64 ≠ 0 ∨ size < 64 ∨ 262144 < size ∨ stack % 64 ≠ 0 ∨ size < stack
      ∨ 2 ^ 64 < base + size ∨ regionPieces s l.ctx core base size = none
      ∨ ∃ m ∈ s.launches, m.phase ≠ .ended ∧ m.ctx = l.ctx ∧ ∃ x ∈ m.actors, x.place ≠ .ended ∧ x.place ≠ .unclaimed
          ∧ base < x.base.toNat + x.size ∧ x.base.toNat < base + size
    let noRows : Prop := ∃ k, k < f 208 16 ∧ rowFree s core (f 192 16 + k) = false
    let u := (createActor s c lid r).1
    let code := (createActor s c lid r).2
    (reserved → code = 6)
    ∧ (¬reserved →
      (taken → code = 1) ∧ (¬taken → full → code = 2) ∧ (¬taken → ¬full → noTable → code = 3)
      ∧ (¬taken → ¬full → ¬noTable → badRegion → code = 4) ∧ (¬taken → ¬full → ¬noTable → ¬badRegion → noRows → code = 5)
      ∧ (¬taken → ¬full → ¬noTable → ¬badRegion → ¬noRows → code = 0 ∧ ∀ x, template x →
          (∃ a, getActor u lid (f 0 32) = some a ∧ a.place = .core ∧ a.core = core ∧ a.base.toNat = base ∧ a.size = size
            ∧ a.stack = stack ∧ a.zbase = f 192 16 ∧ a.zrows = f 208 16 ∧ a.box = [] ∧ a.groups = [] ∧ a.halted = false
            ∧ a.chans = x.chans.map fun ch => { ch with queue := [], unbound := none, ucount := 0 })
          ∧ (∀ n, n ≠ f 0 32 → getActor u lid n = getActor s lid n)
          ∧ ∀ ps, regionPieces s l.ctx core base size = some ps → s.savedFrames = [] → s.inv →
              ∀ p ∈ ps, ∀ k, p.1 ≤ k → k < p.1 + p.2 → memByte u.mem k = 0))
    ∧ (code ≠ 0 → u.mem = s.mem ∧ u.launches = s.launches ∧ u.cores = s.cores))
  ∧ (∀ (s : State) (b a : BitVec 5),
    let o := s.found.rx a
    let mine : Prop := o.toNat / 64 % 4 = 0 ∧ (getEgress s (o.toNat % 64)).owner = s.cur.ctx
    let full := 64 ≤ s.cur.sends.length
    let E (i : Instr) (srcs : List RegRef) (op : EgrOp) (v : Vec) : Prop := canIssue s ([xr a] ++ srcs) [] = true →
      (¬mine → Traps i s 0x0F o)
      ∧ (mine → full → Traps i s 0x0F (BitVec.ofNat 64 (2 ^ 63)))
      ∧ (mine → ¬full → Does i s fun t => Retires s t 0 (s.cur.pc + 4) { s.found with sends := s.cur.sends ++ [.egr op o v] })
    E (.egpost b a) [vr b] .post (s.found.rv b) ∧ E (.egrel a) [] .rel 0 ∧ E (.egdrop a) [] .drop 0)

/-! ### Traps, dispatch, commit and the events of a slot -/

/-- 14 R334: a trap aborts the activation: the slot is as at reset, held messages stand whole at the heads of their channels and
held tasks at the head of their queue, its token is free, buffered sends are gone, and the core reports the fault; memory,
items under way, jobs, matrix operations that have issued (01 R29) and every other slot stay. During debug execution the activation
halts instead, with cause, epc and tval written, and its token is free.
The model's readings in it: log 10, 30 and 82. -/
def Obligations.TrapEntry : Prop :=
  ∀ (s : State) (c : Nat) (i : Fin 4) (cause : Nat) (tval epc : Word),
    let sl := getSlot s c i
    let t := takeTrap s c i cause tval epc
    OtherSlots s t c i ∧ t.mem = s.mem ∧ t.pairs = s.pairs ∧ t.copies = s.copies ∧ t.qjobs = s.qjobs
    ∧ (∀ q, q ∈ t.tokens ↔ q ∈ s.tokens ∧ sl.token ≠ some q)
    ∧ (sl.inDebug = true → t.reports = s.reports ∧ t.requests = s.requests ∧ getSlot t c i =
        { sl with
          status := .halted, inDebug := false, dbgWords := [], stall := none, card := none, claimed := false, token := none
          cause := BitVec.ofNat 8 cause, epc := epc, tval := tval })
    ∧ (sl.inDebug = false → getSlot t c i = Slot.reset
        ∧ (getCore t c).late = (getCore s c).late ++ lateMats sl
        ∧ t.requests = s.requests.filter (fun r => !(r.core == c && r.slot == i))
        ∧ t.reports = s.reports ++ [⟨sl.launch, cause, 0, tval, epc, sl.msgid, sl.actor, c, i.val, 0, progBits sl⟩]
        ∧ (getResident t c sl.launch).tasks = heldTasks sl ++ (getResident s c sl.launch).tasks
        ∧ ∀ a, getActor s sl.launch sl.actor = some a → ∃ b, getActor t sl.launch sl.actor = some b
            ∧ b = { a with chans := b.chans } ∧ b.chans.length = a.chans.length
            ∧ ∀ (k : Nat) (ch : Chan), a.chans[k]? = some ch → b.chans[k]? = some { ch with
                queue := ((sl.held.filter fun h => h.chan == ch.num && h.trigger)
                  ++ sl.held.filter fun h => h.chan == ch.num && !h.trigger).map (·.msg) ++ ch.queue })

/-- 01 R28, 12 R287 to R290: DISPATCH gives a free slot what the selection of R289 selects: an activation at TB plus four
times the channel's offset, with x2, x3, x5, x6 and x7 as R28 gives them and the launch's budget, holding its message or task,
or a leaf task, the first of its leaf when the leaf has been given its data (09 R225). Every other slot and memory stay. A core whose
cluster is not enabled dispatches nothing (14 R341).
The model's readings in it: log 4, 31 and 52. -/
def Obligations.ActivationEntry : Prop :=
  ∀ (s : State) (c : Nat) (i : Fin 4),
    (coreEnabled s c = false → exec (.evDispatch c i) s = notPermitted "DISPATCH")
    ∧ (coreEnabled s c = true → clocksRun s = true → (getSlot s c i).status = .free → s.power.moving ≠ some .toP2 →
      let D (P : State → Slot → Prop) : Prop :=
        Does (.evDispatch c i) s fun t => OtherSlots s t c i ∧ t.mem = s.mem ∧ P t (getSlot t c i)
      (∀ x l a ch, select s c = .handler x → getLaunch s x.launch = some l → l.actor x.name = some a → a.chan x.chan = some ch →
        let entered (sl : Slot) (words : Nat) (msgid : Word) : Prop :=
          sl.pc = l.tb + ch.offset.setWidth 64 * 4 ∧ sl.getX 3 = a.base ∧ sl.getX 2 = a.base + BitVec.ofNat 64 a.size
          ∧ sl.getX 5 = BitVec.ofNat 64 ch.num ∧ sl.getX 6 = BitVec.ofNat 64 words ∧ sl.msgid = msgid
          ∧ sl.getX 7 = BitVec.ofNat 64 (msgid.toNat % 2 ^ 32) ∧ sl.budget = l.budget ∧ sl.frm = l.frm ∧ sl.fflags = 0
          ∧ sl.actor = a.name ∧ sl.chan = ch.num ∧ sl.launch = l.id ∧ sl.ctx = l.ctx ∧ sl.sends = []
          ∧ sl.status = if a.firstHalt then .halted else .running
        (x.task = false → ∀ m rest, ch.queue = m :: rest → m.bad = false → D fun t sl =>
            entered sl m.words.length m.msgid ∧ sl.cls = m.cls ∧ sl.held = [⟨ch.num, m, 0, true⟩] ∧ sl.htask = none
            ∧ ∃ b ch', getActor t l.id a.name = some b ∧ b.chan ch.num = some ch' ∧ ch'.queue = rest)
        ∧ (x.task = true → ∀ k rest, (getResident s c l.id).tasks = k :: rest → k.bad = false → D fun t sl =>
            entered sl k.words.length (msgidOf k.src 0) ∧ sl.htask = some (k, 0) ∧ sl.held = []
            ∧ (getResident t c l.id).tasks = rest))
      ∧ (∀ j p q, select s c = .leaf j p → getQJob s j = some q →
          ((q.leafAt p).isSome = true → D fun t sl =>
            sl.status = .leaf j p ∧ sl.launch = q.launch ∧ (j, p) ∉ (getCore t c).leaves)
          ∧ (q.leafAt p = none → ∀ r q', qRoot q = .ok r → getQJob (allocLeaf s q r p) j = some q' → (q'.leafAt p).isSome = true →
              Does (.evDispatch c i) s fun t => (getSlot t c i).status = .leaf j p ∧ (j, p) ∉ (getCore t c).leaves))
      ∧ (select s c = .nothing → exec (.evDispatch c i) s = notPermitted "DISPATCH"))

/-- 12 R287 to R289: the candidates are exactly the heads of the bound and enabled channels, of a class that is not masked, of the
idle actors of the live launches that are installed on the core and have not faulted there, whose claimed rows can come back (R304);
the effective priority is the priority plus one for each 2^16 cycles of the wait, at most 7. Selected is the greatest priority, then
the lowest arrival, endpoint and channel; a leaf task comes before a candidate below 4, the oldest that may run.
The model's readings in it: log 30 and 52. -/
def Obligations.SelectionOrder : Prop :=
  (∀ (cs : List Candidate) x, bestOf cs = some x → x ∈ cs ∧ ∀ y ∈ cs,
      y.e < x.e ∨ (y.e = x.e ∧ (x.arr < y.arr ∨ (x.arr = y.arr ∧ (x.name < y.name ∨ (x.name = y.name ∧ x.chan ≤ y.chan))))))
  ∧ (∀ cs : List Candidate, bestOf cs = none ↔ cs = [])
  ∧ (∀ s c x, bestOf (candidates s c) = some x → (select s c = .handler x ↔ 4 ≤ x.e ∨ leafReady s c = none))
  ∧ (∀ s c p, leafReady s c = some p → (∀ x, bestOf (candidates s c) = some x → x.e < 4) → select s c = .leaf p.1 p.2)
  ∧ (∀ s c, bestOf (candidates s c) = none → leafReady s c = none → select s c = .nothing)
  ∧ (∀ s c p, leafReady s c = some p → leafMayRun s p = true ∧ ∃ older younger, (getCore s c).leaves = older ++ p :: younger
      ∧ ∀ q ∈ older, leafMayRun s q = false)
  ∧ (∀ s c, leafReady s c = none → ∀ q ∈ (getCore s c).leaves, leafMayRun s q = false)
  ∧ ∀ s c x, x ∈ candidates s c ↔ ∃ l ∈ s.launches, ∃ a ∈ l.actors, ∃ ch ∈ a.chans,
      l.phase = .running ∧ ctxRuns s l.ctx = true ∧ l.startedOn c = true
      ∧ (∀ r ∈ s.reports, ¬(r.launch = l.id ∧ r.core = c))
      ∧ a.core = c ∧ a.place = .core ∧ a.halted = false ∧ a.leaving = false
      ∧ actorBusy s l.id a = false ∧ rowsReady s l a = true ∧ ch.bound = true ∧ ch.en = true
      ∧ x.launch = l.id ∧ x.name = a.name ∧ x.chan = ch.num ∧ x.task = ch.task
      ∧ (ch.task = false → ∃ m, ch.queue.head? = some m ∧ (getResident s c l.id).cmask.getLsbD m.cls = false ∧ x.arr = m.arr
          ∧ x.e = min 7 (ch.prio + (m.age + ((getCore s c).cycle - m.since)) / 2 ^ 16))
      ∧ (ch.task = true → ∃ m, (getResident s c l.id).tasks.head? = some m ∧ x.arr = m.arr
          ∧ x.e = min 7 (ch.prio + (m.age + ((getCore s c).cycle - m.since)) / 2 ^ 16))

/-- 05 R122, 08 R174 to R176, R36: once no access and no matrix operation of the activation is left, COMMIT makes the entries
of the send buffer in program order, each in the queue of its pair, or at once where its home is the core itself, and with none left
the slot is free. A push to a closed die traps TASK at commit; to an open one the task enters the core's queue or leaves for that of
its cluster or die (R195, R292). A SEND along another path than an earlier message to its actor that has not been acknowledged
stays (12 R300), and a GROUP fault at the core's own group home discards the later entries (R174).
08 R194: at the end of an activation with ACTEND its actor leaves every group, is marked ended and owns no row and no channel; its queued
messages count as dropped.
08 R198, R199: the commit of a TDONE reads the block's successor list and decrements each block of it, and that of a TARM with count
0 releases the block; released blocks are pushed in rising address as tasks of the block and zeros. A block in another state, or a
misaligned successor, traps TASK.
The model's readings in it: log 15, 16, 22, 26, 86 and 107. -/
def Obligations.CommitsInOrder : Prop :=
  ∀ (s : State) (c : Nat) (i : Fin 4) (l : Launch),
    let x := getSlot s c i
    clocksRun s = true → x.status = .hend → getLaunch s x.launch = some l → l.phase = .running →
      let here := coreNode c
      let next (rest : List SendEntry) : Slot := { x with sends := rest, commit := .idle, result := none, waited := 0 }
      let Commits (e : SendEntry) (u : State) : Prop := ∀ rest, x.sends = e :: rest →
        exec (.evCommit c i) s = .next (setSlot u c i (next rest))
      let Enqueues (e : SendEntry) (u : State) (dst : Nat) (k : Packet) : Prop := Commits e (enqueue u here dst k)
      let Stays (e : SendEntry) : Prop := ∀ rest, x.sends = e :: rest → exec (.evCommit c i) s = notPermitted "COMMIT"
      let Faults (e : SendEntry) (tval : Word) : Prop := ∀ rest, x.sends = e :: rest →
        exec (.evCommit c i) s = .next (trapFrom 2 s c i 0x0E tval x.pc)
      let astray (name dst : Nat) : Prop := ∃ p ∈ s.pairs, p.src = here ∧ p.dst ≠ dst
        ∧ ∃ k ∈ p.out ++ p.store.map (·.pkt), isFor x.launch name k = true ∧ k.orig = none
      let Goes (e : SendEntry) (st : CommitStep) : Prop := ∀ rest, x.sends = e :: rest →
        exec (.evCommit c i) s = .next (setSlot s c i { x with commit := st, result := none })
      ((x.accs ≠ [] ∨ x.mats ≠ []) → exec (.evCommit c i) s = notPermitted "COMMIT")
      ∧ (x.accs = [] → x.mats = [] →
        (x.sends = [] → x.actend = false → x.oneStep = false → exec (.evCommit c i) s = .next (setSlot s c i Slot.reset))
        ∧ (x.sends = [] → x.actend = true → x.oneStep = false → ∀ a, getActor s x.launch x.actor = some a → Does (.evCommit c i) s fun t =>
            getSlot t c i = Slot.reset ∧ OtherSlots s t c i ∧ t.mem = s.mem
            ∧ (∃ b, getActor t x.launch x.actor = some b ∧ b.place = .ended ∧ (∀ r, b.owns r = false) ∧ b.chans = [] ∧ b.box = [])
            ∧ (c ∉ a.groups → a.groups.Nodup →
                (∃ l', getLaunch t x.launch = some l'
                  ∧ l'.dropped = min (l.dropped + ((a.chans.map fun ch => ch.queue.length).sum + a.box.length)) (2 ^ 32 - 1))
                ∧ ∀ h ∈ a.groups, (getPair t here (coreNode h)).out = (getPair s here (coreNode h)).out
                    ++ [newPacket 0 0 x.ctx (.grp x.launch (BitVec.ofNat 64 h) (.ended x.actor) none)])
            ∧ (a.groups = [c] → c < 2 ^ 24 → ∀ g, getGroup t c x.launch = some g → x.actor ∉ g.members))
        ∧ (∀ n, Commits (.mdrop n) s)
        ∧ (∀ name ch cls words, let m : Msg := ⟨cls, words, msgidOf c (nextSeq s c).1, 0, 0, 0, false⟩
            let e : SendEntry := .send name ch cls words
            let u := (nextSeq s c).2
            (∀ node, addressOf s c x.launch name = some node → node ≠ here →
              Enqueues e u node (newPacket (2 * words.length) cls x.ctx (.msg x.launch name ch m)))
            ∧ (addressOf s c x.launch name = some here →
              (postWaits (getCore s c).posts x.launch name = true → Stays e)
              ∧ (postWaits (getCore s c).posts x.launch name = false →
                (∀ t, performMsg u here x.launch name ch m = .done t →
                  (astray name here → Stays e) ∧ (¬astray name here → Commits e t))
                ∧ (∀ r, performMsg u here x.launch name ch m = .defer r → Stays e)
                ∧ (∀ n, performMsg u here x.launch name ch m = .forward n → astray name n → Stays e)
                ∧ (∀ n, performMsg u here x.launch name ch m = .forward n → ¬astray name n →
                  Enqueues e u n
                    { newPacket (2 * words.length) cls x.ctx (.msg x.launch name ch m) with hops := 1 }))))
        ∧ (∀ va pa key cls w0 w1,
            let r : FaultReport := ⟨x.launch, 0x04, 6, va, x.pc, x.msgid, x.actor, c, i.val, 0, 0⟩
            (homeOf pa ≠ here →
              Enqueues (.red va pa key cls w0 w1) s (homeOf pa) (newAccess 4 x.ctx va (.red x.launch pa key w0 w1 r)))
            ∧ (homeOf pa = here → Commits (.red va pa key cls w0 w1) (performRed s pa key w0 w1 r)))
        ∧ (∀ o cls words, let op := GroupOp.deliver cls words (msgidOf c (nextSeq s c).1)
            (groupHome o ≠ c → Enqueues (.gsend o cls words) (nextSeq s c).2 (coreNode (groupHome o))
              (newPacket (2 * words.length) cls x.ctx (.grp x.launch o op none)))
            ∧ (groupHome o = c → Commits (.gsend o cls words) (performGroup (nextSeq s c).2 x.launch o op).1))
        ∧ (∀ kind o p, let op := GroupOp.arrive x.actor kind p
            (groupHome o ≠ c → Enqueues (.coll kind o p) s (coreNode (groupHome o))
              (newPacket (if kind = .gbar then 0 else 2) (groupClass o) x.ctx (.grp x.launch o op none)))
            ∧ (groupHome o = c → let t := (performGroup s x.launch o op).1
              (t.reports.length ≤ s.reports.length → Commits (.coll kind o p) t)
              ∧ (s.reports.length < t.reports.length → ∀ rest, x.sends = .coll kind o p :: rest →
                  Does (.evCommit c i) s fun w => getSlot w c i = Slot.reset ∧ w.reports = t.reports ∧ w.mem = s.mem)))
        ∧ (∀ op o d, (op = .post → egressCount (getEgress s (egQueue o)) + postsInFlight s (egQueue o) < 4096) →
            Enqueues (.egr op o d) s (egressNode (c / 4096)) (newPacket (if op = .post then 2 else 0) 0 x.ctx
              (.egr x.launch c (egQueue o) op o d)))
        ∧ (∀ o d, 4096 ≤ egressCount (getEgress s (egQueue o)) + postsInFlight s (egQueue o) → Stays (.egr .post o d))
        ∧ (∀ o level words, Enqueues (.qpush o level true words) s (queueNode c 2) (newPacket 0 0 x.ctx (.close x.launch)))
        ∧ (∀ o level words, dieOf c ∈ l.closed → Faults (.qpush o level false words) o)
        ∧ (∀ o level words, dieOf c ∉ l.closed → 0 < level → enterLevel s c x.launch level ⟨words, c, 0, 0, 0, false⟩ ≠ none →
            Enqueues (.qpush o level false words) s (queueNode c level) (newPacket (2 * words.length) 0 x.ctx
              (.tsk x.launch level ⟨words, c, 0, 0, 0, false⟩ ⟨x.launch, 0x0E, 2, o, x.pc, x.msgid, x.actor, c, i.val, 0, 0⟩)))
        ∧ (∀ o words rest, dieOf c ∉ l.closed → x.sends = .qpush o 0 false words :: rest → coreTasks (getCore s c) < 64 →
            Does (.evCommit c i) s fun t => getSlot t c i = next rest ∧ OtherSlots s t c i ∧ t.mem = s.mem
              ∧ (getResident t c x.launch).tasks = (getResident s c x.launch).tasks
                  ++ [⟨words, c, (getCore s c).arrival, 0, (getCore s c).cycle, false⟩])
        ∧ (∀ b rest pa key, (x.sends = .tdone b :: rest ∨ x.sends = .tarmRelease b :: rest) → x.commit = .idle →
            translate s (clusterOf c) x.ctx b .write = .ok pa key → homeOf pa = here → isPoisoned s pa = false →
            Does (.evCommit c i) s fun t => (getSlot t c i).commit = .block b ∧ (getSlot t c i).sends = x.sends
              ∧ ∃ r, (getSlot t c i).result = some r
              ∧ let old : Vec := BitVec.ofNat 512 (memRead s.mem (pa / 64 * 64) 64)
                let new : Vec := BitVec.ofNat 512 (memRead t.mem (pa / 64 * 64) 64)
                let ok : Prop := if x.sends = .tdone b :: rest then tcbState old = 2 else tcbState old = 1 ∧ tcbCount old = 0
                (ok → r.1 = 0 ∧ (s.inv → pa % 64 = 0 → r.2.1 = new ∧ tcbCount new = tcbCount old
                  ∧ tcbState new = if x.sends = .tdone b :: rest then 3 else 2))
                ∧ (¬ok → r.1 = 1 ∧ t.mem = s.mem))
        ∧ (∀ b b' d v, x.commit = .block b → x.result = some (0, v, d) →
            Goes (.tdone b') (.readSucc (BitVec.ofNat 64 (tcbSucc v)) 0 (tcbNsucc v) [])
            ∧ Goes (.tarmRelease b') (.push [(b, tcbLevel v, v)]))
        ∧ (∀ b b' v d code, x.commit = .block b → x.result = some (code, v, d) → code ≠ 0 →
            Faults (.tdone b') b ∧ Faults (.tarmRelease b') b)
        ∧ (∀ list k n rel b', x.commit = .readSucc list k n rel → x.result = none → n ≤ k →
            (rel = [] → Commits (.tdone b') s) ∧ (rel ≠ [] → Goes (.tdone b') (.push rel)))
        ∧ (∀ list k n rel b' code v d, x.commit = .readSucc list k n rel → x.result = some (code, v, d) → v.toNat % 64 ≠ 0 →
            Faults (.tdone b') (v.setWidth 64))
        ∧ (∀ list k n b rel b' code v d, x.commit = .decSucc list k n b rel → x.result = some (code, v, d) →
            (code ≠ 0 → Faults (.tdone b') b)
            ∧ (code = 0 → Goes (.tdone b') (.readSucc list (k + 1) n (if tcbCount v = 0 then insertRelease (b, tcbLevel v, v) rel else rel))))
        ∧ ∀ e b level v more rest, (e = .tdone b ∨ e = .tarmRelease b) → x.sends = e :: rest →
            x.commit = .push ((b, level, v) :: more) → queuesQuiet s c = true →
            (dieOf c ∈ l.closed → Faults e b)
            ∧ (dieOf c ∉ l.closed → level = 0 → coreTasks (getCore s c) < 64 → Does (.evCommit c i) s fun t =>
                (getResident t c x.launch).tasks = (getResident s c x.launch).tasks
                  ++ [⟨v :: List.replicate (l.words - 1) 0, c, (getCore s c).arrival, 0, (getCore s c).cycle, false⟩]
                ∧ getSlot t c i = if more = [] then next rest else { x with commit := .push more }))

/-- The events of one slot: the budget reaches 0 (01 R37), a token is free (10 R246), a variable-latency result completes
(R21), a matrix operation of an aborted activation takes effect (01 R29), a directory miss is resolved (08 R177), ECALL ends
(05 R119), a post has waited 2^24 cycles for a full queue (08 R202; that posts on their way count is the model's choice of log 86, and
that the report's MSGID is 0 that of log 85), a word is no instruction (03 R75), the pc lies outside the text (05 R115).
The model's readings in it: log 9, 13, 83, 85 and 86. -/
def Obligations.SlotEvents : Prop :=
  ∀ (s : State) (c : Nat) (i : Fin 4),
    let x := getSlot s c i
    (∀ l, getLaunch s x.launch = some l →
      Occurs (.evBudget c i) "BUDGET" s (clocksRun s = true ∧ countsBudget x = true ∧ x.budget = 0)
        fun t => t = takeTrap s c i 0x05 (BitVec.ofNat 64 l.budget) x.pc)
    ∧ ((x.inDebug = true ∨ x.status ∈ [.free, .ecall, .halted, .hend] ∨ (∃ va k b, x.status = .hendWalk va k b) ∨ ∃ j p, x.onLeaf j p = true) →
        exec (.evBudget c i) s = notPermitted "BUDGET" ∧ ∀ n, (slotCycles s n x).budget = x.budget)
    ∧ (x.status = .running → x.inDebug = false → countsBudget x = true)
    ∧ (∀ q, x.status = .token q → Occurs (.evSequence c i) "SEQUENCE" s (clocksRun s = true ∧ q ∉ s.tokens) fun t =>
        t = setSlot { s with tokens := s.tokens ++ [q] } c i { x with status := .running, token := some q })
    ∧ (∀ n r, x.locals[n]? = some r →
        Occurs (.evVariableLatencyWrite c i n) "VARIABLE_LATENCY_WRITE" s (clocksRun s = true) fun t => ∃ sl, t = setSlot s c i sl
          ∧ sl.locals = x.locals.eraseIdx n ∧ sl.fflags = x.fflags ||| r.flags
          ∧ (∀ d v, d < 32 → r.writes = [(⟨.v, d⟩, v)] → sl.getV d = v ∧ sl.x = x.x ∧ sl.k = x.k)
          ∧ ∀ d v, 0 < d → d < 32 → r.writes = [(⟨.x, d⟩, v)] → sl.getX d = v.setWidth 64 ∧ sl.v = x.v ∧ sl.k = x.k)
    ∧ (∀ m rest, x.mats = m :: rest → m.blocks.length = m.need → clocksRun s = true →
        exec (.evVariableLatencyWrite c i x.locals.length) s = .next (completeMat (setSlot s c i { x with mats := rest }) c i m))
    ∧ (∀ before m after a, (getCore s c).late = before ++ m :: after → m.accs = [] → clocksRun s = true →
        (∀ y ∈ before, y.accs ≠ [] ∧ ¬(y.launch = m.launch ∧ y.actor = m.actor)) → getActor s m.launch m.actor = some a →
        (∀ r ∈ m.op.rowsRead, r ∉ (getCore s c).badRows) → (getCore s c).rows.Pairwise (fun p q => p.1 < q.1) →
        Does (.evVariableLatencyWrite c i (x.locals.length + 1)) s fun t => t.mem = s.mem ∧ (∀ c' j, getSlot t c' j = getSlot s c' j)
          ∧ (getCore t c).late = (getCore s c).late.filter (fun y => y.op.id != m.op.id)
          ∧ ∀ q, rowValue (getCore t c) q
              = if a.owns q then rowValue (landMat (getCore s c) m.op) q else rowValue (getCore s c) q)
    ∧ (∀ name a, x.status = .lookup name → getActor s x.launch name = some a →
        Occurs (.evDirectoryLookup c i) "DIRECTORY_LOOKUP" s (clocksRun s = true) fun t =>
          getSlot t c i = { x with status := .running } ∧ cachedNode t c x.launch name = some a.node
          ∧ OtherSlots s t c i ∧ t.mem = s.mem)
    ∧ (∀ r0 r1, x.oneStep = false →
        Occurs (.evEcallResume c i r0 r1) "ECALL_RESUME" s (clocksRun s = true ∧ x.status = .ecall) fun t =>
          ∃ sl, t = setSlot { s with requests := s.requests.filter fun r => !(r.core == c && r.slot == i) } c i sl
            ∧ sl.status = .running ∧ sl.pc = x.pc ∧ sl.v = x.v ∧ sl.k = x.k
            ∧ ∀ n, n < 32 → sl.getX n = if n = 5 then r0 else if n = 6 then r1 else x.getX n)
    ∧ Occurs (.evEcallRefuse c i) "ECALL_REFUSE" s (clocksRun s = true ∧ x.status = .ecall)
        (fun t => t = takeTrap s c i 0x0B 0 x.epc)
    ∧ Occurs (.evEgpostTimeout c i) "EGPOST_TIMEOUT" s
        (clocksRun s = true ∧ x.status = .hend ∧ x.accs = [] ∧ x.mats = [] ∧ 2 ^ 24 ≤ x.waited
          ∧ ∃ o d rest, x.sends = .egr .post o d :: rest
            ∧ 4096 ≤ egressCount (getEgress s (egQueue o)) + postsInFlight s (egQueue o))
        (fun t => getSlot t c i = Slot.reset ∧ t.reports = s.reports ++ [⟨x.launch, 0x0F, 5, 0, 0, 0, x.actor, c, 0, 0, 0⟩]
          ∧ t.mem = s.mem ∧ OtherSlots s t c i)
    ∧ (s.cur.status = .running → ∀ w : BitVec 32,
        exec (.evIllegal w) s = .next (takeTrap s.settled s.curCore s.curSlot 0x01 (w.setWidth 64) s.cur.pc)
        ∧ exec .evFetchOutsideText s = .next (takeTrap s.settled s.curCore s.curSlot 0x04 s.cur.pc s.cur.pc))

/-- 12 R292, R293, 08 R183: a draw moves the eight oldest tasks of the cluster queue, filled from the die queue where it is
empty, to the core; each 4,096 cycles a core sends its depths to its two siblings, and at a depth that lies more than BTHR below
its own it moves its youngest tasks, at most 8, to that sibling, both of them installed (R284); a message whose channel stays unbound for the budget is
reported UNBOUND.
The model's readings in it: log 25 and 87. -/
def Obligations.TaskBalancing : Prop :=
  ∀ (s : State) (c l : Nat),
    let cl := tasksOf (getCluster s (clusterOf c)).tasks l
    let die := tasksOf (getDie s (dieOf c)).tasks l
    (clocksRun s = true → drawWaiters s c l = [] → wantsDraw s c l = true → (getResident s c l).tasks = [] →
        drawable s c l = true → coreTasks (getCore s c) + 8 ≤ 64 →
      Does (.evDrawComplete c l) s fun t =>
        (getResident t c l).tasks.map (·.words) = ((if cl = [] then die else cl).take 8).map (·.words)
        ∧ tasksOf (getCluster t (clusterOf c)).tasks l = cl.drop 8
        ∧ tasksOf (getDie t (dieOf c)).tasks l = (if cl = [] then die.drop 8 else die) ∧ t.mem = s.mem)
    ∧ (clocksRun s = true → drawWaiters s c l ≠ [] → Does (.evDrawComplete c l) s fun _ => True)
    ∧ (((getCore s c).residents.map (·.launch)).Nodup →
        Occurs (.evDepthExchange c) "DEPTH_EXCHANGE" s
          (clocksRun s = true ∧ ((getCore s c).exchanges + 1) * 4096 ≤ (getCore s c).cycle) fun t =>
            (getCore t c).exchanges = (getCore s c).exchanges + 1 ∧ t.mem = s.mem
            ∧ ∀ x ∈ [c / 32 * 32 + (c + 1) % 32, c / 32 * 32 + (c + 31) % 32], ∀ r ∈ (getCore s c).residents,
                (∃ y ∈ (getCore s x).residents, y.launch = r.launch) → (∀ l', getLaunch s r.launch = some l' → c ∉ l'.todo ∧ x ∉ l'.todo) →
                (getResident t x r.launch).depths = (getResident s x r.launch).depths ++ [(c, r.tasks.length)])
    ∧ (∀ r sib d rest, (getCore s c).residents.find? (fun r => !r.depths.isEmpty) = some r → r.depths = (sib, d) :: rest →
        sib ≠ c → clocksRun s = true →
          let bthr := match getLaunch s r.launch with | some x => x.bthr | none => 0
          let n := min 8 (64 - coreTasks (getCore s sib))
          let moves : Prop := bthr ≠ 0 ∧ d + bthr < r.tasks.length ∧ n ≠ 0 ∧ ∀ x, getLaunch s r.launch = some x → sib ∉ x.todo
          (¬moves → exec (.evDepthReceive c) s = .next (setResident s c { r with depths := rest }))
          ∧ (moves → Does (.evDepthReceive c) s fun t =>
              (getResident t c r.launch).depths = rest ∧ (getResident t c r.launch).tasks = r.tasks.take (r.tasks.length - n)
              ∧ (getResident t sib r.launch).tasks.map (·.words)
                  = ((getResident s sib r.launch).tasks ++ r.tasks.drop (r.tasks.length - n)).map (·.words)))
    ∧ ∀ x a ch m rest from_ name chan, getLaunch s l = some x → x.actor name = some a → a.chan chan = some ch →
        ch.unbound = some from_ → ch.queue = m :: rest →
          Occurs (.evUnbound l name chan) "UNBOUND" s
            (clocksRun s = true ∧ a.place = .core ∧ x.phase = .running ∧ ctxRuns s x.ctx = true
              ∧ from_ + x.budget ≤ (getCore s a.core).cycle + ch.ucount) fun t =>
            t.reports = s.reports ++ [⟨l, 0x06, 5, BitVec.ofNat 64 (name * 256 + chan), 0, m.msgid, name, a.core, 0, 0, 0⟩]
            ∧ t.cores = s.cores ∧ t.mem = s.mem

/-! ### The fabric -/

/-- 13 R315, R316, R319, R321, R322: a packet outside the window of 32 is dropped and answered with an acknowledgement; a duplicate is
dropped; a trimmed header is a hole; any other enters the window, and what stands at position E performs in sequence order. A packet
after a gap waits; a deferral leaves a hole and a DEFR; a stub's forwarded copy leaves with HOPS one more, and the original waits for
it. An answer takes its place in the pair from the home, and performs at E as the others do (R316).
What performs at E: 07 R151 to R155, 10 R249, 04 R101: RD answers with the bytes at its address; WR writes the bytes of its mask, and no
other; AMO writes the value of its operation and answers with the old value; RED combines its payload into its cell. Answers enter
the pair from the home (10 R237, R241). MSG (08 R178, 12 R299 to R301) enters the mailbox of its actor with the core's next arrival number, the
parked mailbox of an actor that is away, or goes on from a stub; with no room, or before the core is installed, it is deferred with
reason 0, a full parked mailbox with 1, a fifth stub with 2; one for no such channel or actor counts as dropped. TSK (R195, R292) enters
the queue of its cluster or die; at a closed die it reports TASK. GRP performs at the group home and answers a request. EGR (R201,
R202): a post is dropped, presented or held by its stream's marks; a release presents the held entries that it covers, a drop discards
them. RDR, WRA and AMOR end their access: its register takes the answer, and its token comes back.
The model's readings in it: log 22, 26, 63 and 78. -/
def Obligations.PacketsPerformInOrder : Prop :=
  (∀ (s : State) (src dst : Nat),
     let p := getPair s src dst
     let Arrives (i : Instr) (event : String) (isIt : Packet → Bool) : Prop := (clocksRun s = true → ∀ k, p.net.find? isIt = some k →
       let seq := k.seq
       let left := { p with net := eraseFirst isIt p.net }
       let inside : Prop := seqDist seq p.expected < 32
       let twice : Prop := (∃ x ∈ p.window, x.seq = seq) ∨ ∃ h ∈ p.holes, h.seq = seq ∧ h.fwd = true
       let gap : Prop := seq ≠ p.expected ∧ ∀ x ∈ p.window, x.seq ≠ p.expected
       let head : Prop := seq = p.expected ∧ p.window = []
       (∃ t, exec i s = .next t)
       ∧ (¬inside → exec i s = .next (setPair s { left with
           ctl := p.ctl ++ [.ack ((p.expected + 2 ^ 16 - 1) % 2 ^ 16)], unacked := 0, oldest := none }))
       ∧ (inside → twice → exec i s = .next (setPair s left))
       ∧ (inside → ¬twice → k.trim = true → exec i s = .next (setPair s { left with
           holes := if p.holes.any (fun h => h.seq == seq && !h.deferred) then p.holes
                    else p.holes.filter (fun h => h.seq != seq) ++ [⟨seq, s.netClock, none, false, false, some k⟩] }))
       ∧ (inside → ¬twice → k.trim = false → (∀ h ∈ p.holes, h.seq ≠ seq) →
           let u := setPair s { left with window := p.window ++ [k] }
           (gap → exec i s = .next u)
           ∧ (head →
               (∀ w, performPacket u (getPair u src dst) k = .done w → (getPair w src dst).window = [k] →
                 (getPair w src dst).expected = seq → exec i s = .next (modPair w src dst (advance w.netClock)))
               ∧ (performPacket u (getPair u src dst) k = .wait → exec i s = .next u)
               ∧ (∀ r, performPacket u (getPair u src dst) k = .defer r → Does i s fun t =>
                   getPair t src dst = { left with
                     ctl := p.ctl ++ [.defr seq r]
                     holes := p.holes ++ [⟨seq, s.netClock, none, true, false, some { k with len := 0, defer := true }⟩] }
                   ∧ t.mem = s.mem ∧ t.cores = s.cores ∧ t.launches = s.launches)
               ∧ ∀ n, performPacket u (getPair u src dst) k = .forward n → src ≠ dst → Does i s fun t =>
                   getPair t src dst = { left with
                     window := [k], holes := p.holes ++ [⟨seq, s.netClock, none, false, true, none⟩] }
                   ∧ (getPair t dst n).out = (getPair s dst n).out
                     ++ [{ k with seq := 0, hops := k.hops + 1, alt := false, orig := some (src, seq) }]
                   ∧ t.mem = s.mem ∧ t.cores = s.cores ∧ t.launches = s.launches)))
       ∧ (p.net.find? isIt = none → (∀ x, p.window.find? isIt = some x → x.seq ≠ p.expected) → exec i s = notPermitted event)
     (∀ (j k : Nat) (q : Pair) (isIt : Packet → Bool),
       s.pairs.find? (fun q => q.net.any isIt || q.window.any isIt) = some q → q.src = src → q.dst = dst →
         (isIt = Packet.isRead j k → Arrives (.evJrd j k) "JRD" isIt) ∧ (isIt = Packet.isWrite j k → Arrives (.evJwr j k) "JWR" isIt))
     ∧ ∀ seq, let A (i : Instr) (event : String) (kind : Nat) : Prop :=
       Arrives i event fun k => k.seq == seq && (kindOf k.body == kind || k.body.isBad)
     A (.evMsg src dst seq) "MSG" 0x01 ∧ A (.evGrp src dst seq) "GRP" 0x02 ∧ A (.evTsk src dst seq) "TSK" 0x03
     ∧ A (.evRd src dst seq) "RD" 0x10 ∧ A (.evRdr src dst seq) "RDR" 0x11 ∧ A (.evWr src dst seq) "WR" 0x12
     ∧ A (.evWra src dst seq) "WRA" 0x13 ∧ A (.evAmo src dst seq) "AMO" 0x14 ∧ A (.evAmor src dst seq) "AMOR" 0x15
     ∧ A (.evRed src dst seq) "RED" 0x16 ∧ A (.evEgr src dst seq) "EGR" 0x20)
  ∧ ((∀ (s : State) (p : Pair) (k : Packet) (w : Who) (key pa n : Nat) (v y : Vec) (m : BitVec 64) (b : Word) (rop : RmwOp)
       (r : FaultReport) (l : Nat),
       let plain : Prop := isPoisoned s pa = false ∧ (isDram pa = false ∨ blockKeyOf s pa = keyValue s key)
       let back := getPair s p.dst p.src
       let Does (body : Body) (P : State → Prop) : Prop := ∃ t, performPacket s p { k with body := body } = .done t ∧ P t
       let Answers (t : State) (body : Body) : Prop :=
         ∃ q, (getPair t p.dst p.src).out = back.out ++ [q] ∧ q.body = body ∧ q.asid = k.asid ∧ q.via = k.via ∧ q.cls = 0
       plain →
         (n ≤ 64 → Does (.rd (.read pa n) key w) fun t => t.mem = s.mem
           ∧ Answers t (.rdr w ⟨BitVec.ofNat 512 (memRead s.mem pa n), 0, 0, false⟩))
         ∧ (s.inv → Does (.wr (.write pa v m) key w) fun t => Answers t (.wra w ⟨0, 0, 0, false⟩) ∧ t.descs = s.descs
             ∧ ∀ x, memByte t.mem x = if pa ≤ x ∧ x < pa + 64 ∧ m.getLsbD (x - pa) = true then v.extractLsb' (8 * (x - pa)) 8
                 else memByte s.mem x)
         ∧ (s.inv → n = 4 ∨ n = 8 → Does (.amo (.rmw pa n rop b) key w) fun t =>
             Answers t (.amor w ⟨BitVec.ofNat 512 (memRead s.mem pa n), 0, 0, false⟩)
             ∧ memRead t.mem pa n = rmwValue rop n (memRead s.mem pa n) b.toNat % 256 ^ n
             ∧ ∀ x, (x < pa ∨ pa + n ≤ x) → memByte t.mem x = memByte s.mem x)
         ∧ (s.inv → pa % 64 = 0 → Does (.red l pa key v y r) fun t =>
             memRead t.mem pa 64 = (reduceCell (BitVec.ofNat 512 (memRead s.mem pa 64)) v y).toNat
             ∧ (∀ x, (x < pa ∨ pa + 64 ≤ x) → memByte t.mem x = memByte s.mem x) ∧ t.pairs = s.pairs))
     ∧ (∀ (s : State) (p : Pair) (k : Packet) (l : Launch) (a : Actor) (ch : Chan) (m : Msg),
       let here (f : Perf) : Prop := performMsg s p.dst l.id a.name ch.num m = f
       let fits : Prop := ch.task = false ∧ ch.words = m.words.length
       let full : Prop := 1024 < (a.box.map fun b => b.2.words.length).sum + (a.chans.map chanWords).sum + m.words.length
       let parks : Prop := (full → here (.defer 1)) ∧ (¬full → here (.done (setActor s l.id { a with box := a.box ++ [(ch.num, m)] })))
       getLaunch s l.id = some l → (l.phase ≠ .ending ∧ l.phase ≠ .ended) → l.actor a.name = some a → a.chan ch.num = some ch →
         (∀ f, here f → performPacket s p { k with body := .msg l.id a.name ch.num m } = match f with
           | .done t => .done t
           | .defer r => .defer r
           | .forward n => if 4 ≤ k.hops then .defer 2 else .forward n)
         ∧ (a.place = .ended → here (.done (countDropped s l.id 1)))
         ∧ ((a.place = .unclaimed ∨ (a.place ≠ .ended ∧ a.core ∈ l.todo)) → here (.defer 0))
         ∧ ((a.place = .core ∨ a.place = .parked) → a.core ∉ l.todo →
           (p.dst ≠ a.node → p.dst ∈ a.stubs → here (.forward a.node))
           ∧ (p.dst ≠ a.node → p.dst ∉ a.stubs → here (.done (countDropped s l.id 1)))
           ∧ (p.dst = a.node → ¬fits → here (.done (countDropped s l.id 1)))
           ∧ (p.dst = a.node → fits → a.place = .parked → parks)
           ∧ (p.dst = a.node → fits → a.place = .core →
             let room : Prop := a.box = [] ∧ mailboxWords s a.core + m.words.length ≤ 256
             let first : Nat := match a.box with | [] => m.words.length | x :: _ => x.2.words.length
             let stuck : Prop := (a.leaving = true ∨ ∃ c, getContext s l.ctx = some c ∧ c.leaving = true)
               ∧ 256 < mailboxWords s a.core + first
             (¬room → ¬stuck → here (.defer 0)) ∧ (¬room → stuck → parks)
             ∧ (room → ∃ t, here (.done t) ∧ t.mem = s.mem ∧ (getCore t a.core).arrival = (getCore s a.core).arrival + 1
               ∧ ∃ b c, getActor t l.id a.name = some b ∧ b.chan ch.num = some c ∧ b = { a with chans := b.chans }
                 ∧ c = { ch with queue := c.queue, unbound := c.unbound }
                 ∧ c.queue = ch.queue ++ [⟨m.cls, m.words, m.msgid, (getCore s a.core).arrival, 0, (getCore s a.core).cycle, m.bad⟩]
                 ∧ ∀ n, n ≠ ch.num → b.chan n = a.chan n))))
     ∧ (∀ (s : State) (p : Pair) (k : Packet) (l : Launch) (level : Nat) (t : Task) (r : FaultReport),
       let die := p.dst % 4096 / 1024
       let cl := p.dst / 2 ^ 14 % 4096 * 128 + p.dst % 4096 / 32
       let does := performPacket s p { k with body := .tsk l.id level t r }
       getLaunch s l.id = some l → (l.phase ≠ .ending ∧ l.phase ≠ .ended) →
         (die ∈ l.closed → does = .done { s with reports := s.reports ++ [r] })
         ∧ (die ∉ l.closed → level = 1 → queueSize (getCluster s cl).tasks < 1024 → ∃ u, does = .done u
             ∧ tasksOf (getCluster u cl).tasks l.id = tasksOf (getCluster s cl).tasks l.id ++ [t] ∧ u.dies = s.dies ∧ u.mem = s.mem)
         ∧ (die ∉ l.closed → level = 2 → queueSize (getDie s die).tasks < 16384 → ∃ u, does = .done u
             ∧ tasksOf (getDie u die).tasks l.id = tasksOf (getDie s die).tasks l.id ++ [t] ∧ u.clusters = s.clusters ∧ u.mem = s.mem)
         ∧ (die ∉ l.closed → level = 2 → 16384 ≤ queueSize (getDie s die).tasks → does = .wait))
     ∧ (∀ (s : State) (p : Pair) (k : Packet) (l : Nat) (o : Word) (op : GroupOp) (w : Who) (u : State) (r : MemRes),
       performGroup s l o op = (u, r) →
         performPacket s p { k with body := .grp l o op none } = .done u
         ∧ ∃ t, performPacket s p { k with body := .grp l o op (some w) } = .done t
             ∧ ∃ q, (getPair t p.dst p.src).out = (getPair u p.dst p.src).out ++ [q]
               ∧ q.body = .rdr w r ∧ t.cores = u.cores ∧ t.launches = u.launches ∧ t.mem = u.mem)
     ∧ (∀ (s : State) (p : Pair) (k : Packet) (l c q : Nat) (o : Word) (d : Vec) (mark : EgrStream),
       let e := getEgress s q
       let st := egStream o
       let x := egSeq o
       let Gives (op : EgrOp) (P : Egress → Prop) : Prop :=
         ∃ t, performPacket s p { k with body := .egr l c q op o d } = .done t ∧ P (getEgress t q) ∧ t.mem = s.mem ∧ t.cores = s.cores
       let below (m : Option (BitVec 32)) : Prop := ∃ y, m = some y ∧ x ≤ y
       let mine (y : EgrEntry) : Bool := y.stream == st && decide (y.seq ≤ x)
       e.streams.find? (fun r => r.stream == st) = some mark → x ≠ 0xFFFFFFFF#32 →
         (egressCount e < 4096 →
           (below mark.drop → Gives .post fun f => f.held = e.held ∧ f.ring = e.ring ∧ f.pres = e.pres)
           ∧ (¬below mark.drop → below mark.rel → Gives .post fun f =>
               f.held = e.held ∧ f.ring = e.ring ++ [⟨l, st, x, d⟩] ∧ f.pres = e.pres + 1
               ∧ f.raised = if e.pres = e.chead then e.raised + 1 else e.raised)
           ∧ (¬below mark.drop → ¬below mark.rel → Gives .post fun f =>
               f.held = e.held ++ [⟨l, st, x, d⟩] ∧ f.ring = e.ring ∧ f.pres = e.pres))
         ∧ (4096 ≤ egressCount e → performPacket s p { k with body := .egr l c q .post o d } = .wait)
         ∧ (Gives .rel fun f => f.held = e.held.filter (fun y => !mine y) ∧ f.ring = e.ring ++ e.held.filter mine)
         ∧ (Gives .drop fun f => f.held = e.held.filter (fun y => !mine y) ∧ f.ring = e.ring ∧ f.pres = e.pres))
     ∧ ∀ (s : State) (p : Pair) (k : Packet) (w : Who) (a : Access) (r : MemRes) (rd n : Nat) (sg : Bool) (mask : BitVec 64)
         (shift : Nat),
       let sl := getSlot s w.core w.slot
       let gone : Slot := { sl with accs := sl.accs.filter fun x => x.id != w.acc }
       let t := respond s w r
       let Lands (P : Slot → Prop) : Prop := P (getSlot t w.core w.slot) ∧ OtherSlots s t w.core w.slot ∧ t.mem = s.mem
         ∧ ∀ q, q ∈ t.tokens ↔ q ∈ s.tokens ∧ w.token ≠ some q
       (∀ body, body ∈ [Body.rdr w r, .wra w r, .amor w r] → performPacket s p { k with body := body } = .done t)
       ∧ (sl.accs.find? (fun x => x.id == w.acc) = some a → r.poison = false →
         (a.dst = .none → Lands fun x => x = gone)
         ∧ (a.dst = .x rd n sg → Lands fun x =>
             let z := r.value.toNat % 256 ^ n
             x = gone.setReg ⟨.x, rd⟩ (ofWord (if sg then BitVec.ofInt 64 (if z < 2 ^ (8 * n - 1) then z else (z : Int) - 2 ^ (8 * n))
               else BitVec.ofNat 64 z)))
         ∧ (a.dst = .v rd mask shift → rd < 32 → Lands fun x => x.accs = gone.accs ∧ x.x = sl.x ∧ x.k = sl.k
             ∧ (∀ j, j < 64 → (x.getV rd).extractLsb' (8 * j) 8 = if mask.getLsbD j = true
                 then (r.value <<< (8 * shift)).extractLsb' (8 * j) 8 else (sl.getV rd).extractLsb' (8 * j) 8)
             ∧ ∀ q, q < 32 → q ≠ rd → x.getV q = sl.getV q)))

/-- 13 R317 to R321, 12 R300: the head of a pair's queue enters the network with the next sequence while its retransmit store
has room; an acknowledgement empties the store up to its sequence; a yo-yo, a timeout of the oldest packet and the end of a
backoff send a stored packet again, a message to where the directory then places its actor, its entry refreshed, after reason 2 with
HOPS 0; a deferral begins a backoff that
doubles; a switch output cuts a packet to its header, or moves one with no payload to the class-7 lane, and counts it (R315); the
oldest hole is re-requested; 64 cycles after a Perform an acknowledgement leaves. Memory stays.
The model's readings in it: log 20 and 23. -/
def Obligations.PairTimers : Prop :=
  ∀ (s : State) (src dst : Nat),
    let p := getPair s src dst
    let run := clocksRun s = true
    let again (q : Pair) (x : Sent) (counted : Bool) : Pair :=
      let n := x.resends + (if counted then 1 else 0)
      let k := { x.pkt with alt := (n - 1) / 4 % 2 == 1 }
      { q with net := q.net ++ [k], store := q.store.map fun y => if y.pkt.seq == x.pkt.seq then ⟨k, n, s.netClock⟩ else y }
    let port (t : State) (node other : Nat) : Port := getPort (getDie t (portOf node other).1) (portOf node other).2
    (∀ k rest, p.out = k :: rest →
      Occurs (.evTransmit src dst) "TRANSMIT" s
        (run ∧ p.store.length < 32 ∧ linesUsed s src + 1 + k.len ≤ (if nodeKind src = 0 then 1024 else 8192)
          ∧ ¬(s.moving = true ∧ nodeModule src ≠ nodeModule dst ∧ nodeModule dst ∈ s.changed)) fun t =>
        t = setPair s { p with out := rest, next := (p.next + 1) % 2 ^ 16, net := p.net ++ [{ k with seq := p.next }],
                               store := p.store ++ [⟨{ k with seq := p.next }, 0, s.netClock⟩] })
    ∧ (∀ n rest, p.ctl = .ack n :: rest → run → (∃ t, exec (.evAck src dst) s = .next t)
        ∧ ((∀ x ∈ p.store, (n + 2 ^ 16 - x.pkt.seq) % 2 ^ 16 < 2 ^ 15 → x.pkt.orig = none) → exec (.evAck src dst) s =
            .next (setPair s { p with
                ctl := rest, shift := 0
                store := p.store.filter fun x => !decide ((n + 2 ^ 16 - x.pkt.seq) % 2 ^ 16 < 2 ^ 15) })))
    ∧ (∀ n rest x, p.ctl = .yoyo n :: rest → run → p.store.find? (fun y => y.pkt.seq == n) = some x →
        Does (.evYoyo src dst) s fun t => getPair t src dst = again { p with ctl := rest } x true ∧ t.mem = s.mem
          ∧ (nodeModule src = s.module → (port t src dst).yorx = (port s src dst).yorx + 1
              ∧ (port t src dst).retx = (port s src dst).retx + 1))
    ∧ (∀ n r rest, p.ctl = .defr n r :: rest → run → Does (.evDefr src dst) s fun t => t.mem = s.mem
        ∧ getPair t src dst = { p with
            ctl := rest, shift := p.shift + 1
            backoff := p.backoff.filter (fun b => b.1 != n)
              ++ [(n, s.netClock + min (2 ^ ((fcfg s src).boff + p.shift)) (2 ^ 16), r)] })
    ∧ (∀ x rest, p.store = x :: rest →
        Occurs (.evRto src dst) "RTO" s (run ∧ x.sentAt + (fcfg s src).rto * 1024 ≤ s.netClock) fun t =>
          getPair t src dst = again p x true ∧ t.mem = s.mem)
    ∧ (∀ n from_ r rest x, p.backoff = (n, from_, r) :: rest → (∀ b ∈ rest, b.1 ≠ n ∧ s.netClock < b.2.1) →
        p.store.find? (fun y => y.pkt.seq == n) = some x →
        ((∀ l name ch m, x.pkt.body ≠ .msg l name ch m) →
          Occurs (.evBackoffExpiry src dst) "BACKOFF_EXPIRY" s (run ∧ from_ ≤ s.netClock) fun t =>
            getPair t src dst = again { p with backoff := rest } x false ∧ t.mem = s.mem)
        ∧ ∀ l name ch m, x.pkt.body = .msg l name ch m →
            let node := ((getActor s l name).map Actor.node).getD dst
            let start (k : Packet) : Packet := if r = 2 ∧ isFor l name k = true then { k with hops := 0 } else k
            (node = dst → Occurs (.evBackoffExpiry src dst) "BACKOFF_EXPIRY" s (run ∧ from_ ≤ s.netClock) fun t =>
              getPair t src dst = again { p with
                  backoff := rest, out := p.out.map start
                  store := p.store.map fun y => if seqLe n y.pkt.seq = true then { y with pkt := start y.pkt } else y }
                { x with pkt := start x.pkt } false
              ∧ (nodeKind src = 0 → cachedNode t (nodeCore src) l name = some node) ∧ t.mem = s.mem)
            ∧ (node ≠ dst → Occurs (.evBackoffExpiry src dst) "BACKOFF_EXPIRY" s
                (run ∧ from_ ≤ s.netClock ∧ ∀ y ∈ p.store, isFor l name y.pkt = true → seqDist n y.pkt.seq ≠ 0 →
                  seqLe y.pkt.seq n = false) fun t =>
                (getPair t src node).out = (getPair s src node).out
                  ++ ((p.store.map (·.pkt) ++ p.out).filter (isFor l name)).map
                      (fun k => { k with seq := 0, hops := 0, alt := false })
                ∧ (nodeKind src = 0 → cachedNode t (nodeCore src) l name = some node)
                ∧ (∀ k ∈ (getPair t src dst).out, isFor l name k = false) ∧ t.mem = s.mem))
    ∧ (∀ seq hop k at_, seq < 2 ^ 16 → p.net.find? (fun k => k.seq == seq && k.cls != 7) = some k → (trimPorts s k src dst)[hop]? = some at_ →
        Occurs (.evTrim src dst (hop * 2 ^ 16 + seq)) "TRIM" s run fun t => t.mem = s.mem
          ∧ getPair t src dst = { p with
              net := eraseFirst (fun k => k.seq == seq && k.cls != 7) p.net
                ++ [if k.len = 0 then { k with cls := 7 } else { k with len := 0, trim := true, cls := 7 }] }
          ∧ (getPort (getDie t at_.1) at_.2).trims = (getPort (getDie s at_.1) at_.2).trims + if k.len = 0 then 0 else 1)
    ∧ (∀ seq h, p.holes.find? (fun x => x.seq == seq) = some h →
        Occurs (.evHoleRerequest src dst seq) "HOLE_REREQUEST" s
          (run ∧ h.askable s.netClock = true ∧ 0 < yoTokens s dst
            ∧ ∀ q ∈ s.pairs, q.dst = dst → ∀ x ∈ q.holes, x.askable s.netClock = true → h.since ≤ x.since) fun t =>
          getPair t src dst = { p with
            ctl := p.ctl ++ [.yoyo seq]
            holes := p.holes.map fun x => if x.seq == seq then { x with asked := some s.netClock } else x }
          ∧ (∃ from_, t.buckets.find? (fun b => b.1 == dst) = some (dst, yoTokens s dst - 1, from_)) ∧ t.mem = s.mem
          ∧ (nodeModule dst = s.module → (port t dst src).yotx = (port s dst src).yotx + 1))
    ∧ ∀ from_, p.oldest = some from_ →
        Occurs (.evAckTimer src dst) "ACK_TIMER" s (run ∧ from_ + 64 ≤ s.netClock) fun t => t = setPair s { p with
          ctl := p.ctl ++ [.ack ((p.expected + 2 ^ 16 - 1) % 2 ^ 16)], unacked := 0, oldest := none }

/-- 13 R323 to R328, R330, R332, 15 R351, R359: a good frame ends a run of failures; the failure of the sixteenth replay in a row, a downed
link and a link that fails its tests are recorded (event 7), mark both ends of the link down and begin a new tree, whose installation
raises the generation. A route of the tree leads from the module over links that are up, zero or more up and then zero or more down, and
the primary one is no longer than the alternate. By SEL of its class a packet of a core takes, among the eight links to another die, that of
SNODE XOR DNODE, the first, or the one four places further on, as one with ALT does; toward another module the equal link, the primary
or the alternate route. CLEAR zeroes one port's counters; FCFG and RTAB take each field whose value is in range;
CHEAD frees consumed slots, and the card reads each presented slot's data, SEQ and STREAM. A trip holds the commands among these back.
The model's readings in it: log 48, 49 and 92. -/
def Obligations.LinksAndRegisters : Prop :=
  ∀ (s : State),
    let die (link : Nat) : Nat := if link < 12 then link / 3 else (link - 12) / 24
    let recorded (t : State) (link : Nat) : Prop :=
      Recorded s t (die link) 7 (BitVec.ofNat 64 (if link < 12 then 0x80 + link else 32 + (link - 12) % 24))
    let down (t : State) (link : Nat) : Prop :=
      (∀ x, x ∈ t.linksDown ↔ x = link ∨ x = linkPeer link ∨ x ∈ s.linksDown) ∧ t.moving = true ∧ recorded t link
    let fails (t : State) (link : Nat) : Nat := match findBy (·.1) link t.linkFails with | some p => p.2 | none => 0
    let up (link : Nat) : Prop := clocksRun s = true ∧ link < 108 ∧ link ∉ s.linksDown
    (∀ link, link < 108 → linkPeer (linkPeer link) = link ∧ linkPeer link < 108
      ∧ (link < 12 → linkPeer link = link) ∧ (12 ≤ link → die (linkPeer link) ≠ die link))
    ∧ (∀ link, Occurs (.evFrame link true) "FRAME" s (up link) fun t => fails t link = 0 ∧ t.mem = s.mem)
    ∧ (∀ link, Occurs (.evFrame link false) "FRAME" s (up link) fun t => t.mem = s.mem
        ∧ (fails s link < 16 → fails t link = fails s link + 1 ∧ t.linksDown = s.linksDown)
        ∧ (16 ≤ fails s link → down t link))
    ∧ (∀ link, Occurs (.evLinkDown link) "LINK_DOWN" s (up link) fun t => down t link ∧ t.mem = s.mem)
    ∧ (∀ link good, Commands (.evLinkBringUp link good) "LINK_BRING_UP" s (link < 108) fun t => t.mem = s.mem ∧ t.moving = true
        ∧ if good then (∀ x, x ∈ t.linksDown ↔ x ∈ s.linksDown ∧ x ≠ link ∧ x ≠ linkPeer link) else down t link)
    ∧ Commands .evRouteRecompute "ROUTE_RECOMPUTE" s (s.moving = true) (fun t => t.moving = false ∧ t.changed = []
        ∧ t.routes = routesNow s ∧ t.generation = s.generation + 1 ∧ t.pairs = s.pairs ∧ t.mem = s.mem)
    ∧ (let legal (m : Nat) (hops : List Hop) : Prop := ∃ (nodes : List Nat) (n : Nat), nodes.length = hops.length + 1
          ∧ nodes.head? = some s.module ∧ nodes.getLast? = some m
          ∧ ∀ k h x, hops[k]? = some h → nodes[k]? = some x → h ∈ hopsFrom s x ∧ nodes[k + 1]? = some h.2
              ∧ (goesUp (treeDepths s) x h.2 = true ↔ k < n)
        ∀ r ∈ routesNow s, r.dest < 2304 ∧ r.dest ≠ s.module ∧ legal r.dest r.primary ∧ legal r.dest r.alternate
          ∧ r.primary.length ≤ r.alternate.length
          ∧ r.equal = ((hopsFrom s s.module).filter fun h => some h.2 == r.primary.head?.map (·.2)).map (·.1))
    ∧ (∀ (k : Packet) (src dst : Nat), nodeKind src = 0 → nodeModule src = s.module →
        let a := src % 4096 / 1024
        let b := dst % 4096 / 1024
        let sel := (getDie s a).sel.toNat / 4 ^ k.cls % 4
        let alternate : Prop := k.alt = true ∨ sel = 2
        (nodeKind dst = 0 → nodeModule dst = s.module → a ≠ b →
          let first := if sel = 0 then (src ^^^ dst) % 8 else 0
          let link (n : Nat) : Nat × Nat := (a, 32 + 8 * (if b < a then b else b - 1) + n)
          let by_ (n : Nat) : List (Nat × Nat) := [(a, src % 4096 / 32 % 32), link n, (b, dst % 4096 / 32 % 32)]
          (alternate → trimPorts s k src dst = by_ ((first + 4) % 8)) ∧ (¬alternate → trimPorts s k src dst = by_ first))
        ∧ ∀ r, nodeKind dst = 0 → nodeModule dst ≠ s.module → routeOf s.routes (nodeModule dst) = some r →
          (alternate → thrumPort s k src dst = r.alternate.head?.map (·.1))
          ∧ (¬alternate → sel = 1 → thrumPort s k src dst = r.primary.head?.map (·.1))
          ∧ (¬alternate → sel = 0 → thrumPort s k src dst = r.equal[(src ^^^ dst) % r.equal.length]?))
    ∧ (∀ die port, Commands (.evClear die port) "CLEAR" s (die < 4 ∧ port < 64) fun t =>
        getPort (getDie t die) port = ⟨port, 0, 0, 0, 0, 0, 0, Vector.replicate 8 0⟩
        ∧ (∀ q, q ≠ port → getPort (getDie t die) q = getPort (getDie s die) q) ∧ ∀ d, d ≠ die → getDie t d = getDie s d)
    ∧ (∀ die (v : BitVec 64), Commands (.evRegisterWrite die 0x8000 v) "REGISTER_WRITE" s (die < 4) fun t =>
        let d := getDie s die
        let field (lo n : Nat) := v.toNat / 2 ^ lo % 2 ^ n
        getDie t die = { d with
          rto := if 1 ≤ field 48 16 then field 48 16 else d.rto, tthr := if 64 ≤ field 32 16 then field 32 16 else d.tthr,
          yper := if 1 ≤ field 24 8 then field 24 8 else d.yper, ydepth := if 1 ≤ field 20 4 then field 20 4 else d.ydepth,
          boff := if 4 ≤ field 16 4 then field 16 4 else d.boff } ∧ ∀ e, e ≠ die → getDie t e = getDie s e)
    ∧ (∀ die (v : BitVec 64), Commands (.evRegisterWrite die 0x8008 v) "REGISTER_WRITE" s (die < 4) fun t =>
        getDie t die = { getDie s die with sel := (getDie t die).sel } ∧ ∀ c, c < 7 → (getDie t die).sel.toNat / 4 ^ c % 4
          = if v.toNat / 4 ^ c % 4 = 3 then (getDie s die).sel.toNat / 4 ^ c % 4 else v.toNat / 4 ^ c % 4)
    ∧ (∀ die offset v, offset ≠ 0x8000 → offset ≠ 0x8008 →
        exec (.evRegisterWrite die offset v) s = notPermitted "REGISTER_WRITE")
    ∧ (∀ q v, Commands (.evChead q v) "CHEAD" s (q < 64) fun t =>
        let e := getEgress s q
        let ok : Prop := (v - e.chead).toNat ≤ (e.pres - e.chead).toNat
        (ok → getEgress t q = { e with chead := v, ring := e.ring.drop (v - e.chead).toNat }) ∧ (¬ok → t = s) ∧ t.mem = s.mem)
    ∧ ∀ q n j y, q < 64 → j < 128 → (getEgress s q).ring[n]? = some y → n < 4096 →
        let slot := ((getEgress s q).chead.toNat + n) % 4096
        windowByte s (0x100000 + 0x80000 * q + 128 * slot + j)
          = if j < 64 then y.data.extractLsb' (8 * j) 8 else if j < 68 then y.seq.extractLsb' (8 * (j - 64)) 8
            else if j < 71 then y.stream.extractLsb' (8 * (j - 68)) 8 else 0

/-! ### Translation, frames and jobs -/

/-- 11 R268 to R270, R272, R275 to R277, 12 R302, R304, 14 R340 to R343: a walk request joins its die's walker; a walk reads entry after
entry; one that finds a leaf fills the cache and lets the access go, and fills a claimed frame again; one without permission or that
fails traps ACCESS, one that finds no page asks for it where the context pages; withdrawal empties caches and walkers once the accesses
are over; zeroing leaves zeros and descriptor 0; a key load sets its slot; retirement, scrubbing and a failed core are recorded.
The model's readings in it: log 12, 31, 44, 57, 66, 67, 79, 80, 81 and 90. -/
def Obligations.TranslationEvents : Prop :=
  ∀ (s : State),
    let run := clocksRun s = true
    let aloneIn (w : Walk) : Prop := copyWaiters s w = [] ∧ quadWaiters s w = []
    (∀ c i va kind, (getSlot s c i).status = .walk va kind false →
      Occurs (.evWalkRequest c i) "WALK_REQUEST" s run fun t =>
        getSlot t c i = { getSlot s c i with status := .walk va kind true } ∧ OtherSlots s t c i ∧ t.mem = s.mem
        ∧ ∃ w ∈ (getDie t (dieOf c)).walks, w.asid = (getSlot s c i).ctx ∧ w.granule = va.toNat / 2 ^ 14 ∧ clusterOf c ∈ w.clusters)
    ∧ (∀ die n w level table next, (getDie s die).walks[n]? = some w → w.paged = false → n < 64 → run →
        ∀ dp, w.pos = some (level + 1, table, dp) → isPoisoned s (table + 8 * (w.va.toNat % 2 ^ 57 / 2 ^ (21 + 9 * level) % 512)) = false →
        let e := memRead s.mem (table + 8 * (w.va.toNat % 2 ^ 57 / 2 ^ (21 + 9 * level) % 512)) 8
        e % 4 = 1 → nextTable s e (if level = 0 then 1024 else 4096) = some next →
          runMove s (.walkRead die n) = .next (setDie s { getDie s die with
            walks := (getDie s die).walks.set n { w with pos := some (level, next, dp) } }))
    ∧ (∀ die n w c i va kind, (getDie s die).walks[n]? = some w → w.paged = false → n < 64 → run →
        walkWaiters s w = [(c, i, va, kind)] → aloneIn w →
        ∀ waiting origin after, (waiting, origin, after) ∈
            [(Status.walk va kind true, 0, Status.running), (Status.hendWalk va kind true, 2, Status.hend)] →
          (getSlot s c i).status = waiting →
        let d := getDie s die
        let gone := setDie s { d with walks := d.walks.eraseIdx n }
        let pc := (getSlot s c i).pc
        let pages : Prop := match w.pos with
          | some p => p.2.2 = true
          | none => ∃ x, getContext s w.asid = some x ∧ x.valid = true ∧ x.dp = true
        (∀ e, walkEnd s w = .leaf e →
          let f := frameOf e.pa
          let mapped := if isSram e.pa then ownFrame (refillFrame gone w.asid f.1 f.2) w.asid e.pa else gone
          (isSram e.pa = false ∨ frameHeld s f.1 w.asid f.2 = false) →
          (e.allows kind = true → Does (.evWalk die n) s fun t =>
              getSlot t c i = { getSlot s c i with status := after } ∧ (getDie t die).walks = d.walks.eraseIdx n
              ∧ (∀ cl ∈ w.clusters, e ∈ (getCluster t cl).cache) ∧ OtherSlots s t c i
              ∧ ((isSram e.pa = false ∨ savedAt s w.asid (frameBase f.1 f.2) = none) → t.mem = s.mem ∧ t.savedFrames = s.savedFrames)
              ∧ ∀ m r, isSram e.pa = true → savedAt s w.asid (frameBase f.1 f.2) = some m → s.savedFrames[m]? = some r → s.inv →
                t.savedFrames = s.savedFrames.eraseIdx m
                ∧ (∀ k (b : Byte), r.bytes[k]? = some b → memByte t.mem (frameBase f.1 f.2 + k) = b)
                ∧ ∀ b ∈ r.bad, frameBase f.1 f.2 / 64 + b ∈ t.poisoned)
          ∧ (e.allows kind = false → exec (.evWalk die n) s = .next (trapFrom origin mapped c i 0x04 va pc)))
        ∧ (walkEnd s w = .fail →
            exec (.evWalk die n) s
              = .next (trapFrom origin (walkRecords gone die (2 * 4096 + die * 1024 + 3) w.asid w.va) c i 0x04 va pc))
        ∧ (∀ pa, walkEnd s w = .poison pa → exec (.evWalk die n) s = .next (trapFrom 6 (homeMusic gone (homeOf pa) 3 pa) c i 0x04 va pc))
        ∧ (walkEnd s w = .invalid → pages →
            exec (.evWalk die n) s = .next (setDie s { d with walks := d.walks.set n { w with paged := true } }))
        ∧ (walkEnd s w = .invalid → ¬pages → exec (.evWalk die n) s = .next (trapFrom origin gone c i 0x04 va pc)))
    ∧ (∀ die n w j q va kind need dp level table, (getDie s die).walks[n]? = some w → w.paged = false → n < 64 → run →
        w.pos = some (level, table, dp) → walkEnd s w = .invalid → walkWaiters s w = [] → copyWaiters s w = [] →
        quadWaiters s w = [(j, va, kind, need)] → getQJob s j = some q →
        (dp = false → need = .tree → exec (.evWalk die n) s
            = .next (qFault (setDie s { getDie s die with walks := (getDie s die).walks.eraseIdx n }) q 0x04 4 va))
        ∧ (dp = true → (∃ a ∈ q.asked, a.toNat / 2 ^ 14 = va.toNat / 2 ^ 14) → exec (.evWalk die n) s
            = .next (qFault (setDie s { getDie s die with walks := (getDie s die).walks.set n { w with paged := true } }) q 0x04 4 va))
        ∧ (dp = true → (∀ a ∈ q.asked, a.toNat / 2 ^ 14 ≠ va.toNat / 2 ^ 14) → q.state = 1 → need = .tree ∨ need = .ending →
            Does (.evWalk die n) s fun t => t.reports = s.reports ∧ t.mem = s.mem
              ∧ getQJob t j = some { q with
                  wait := if need = .tree then none else some (va, kind, need), suspend := if q.suspend = 0 then 3 else q.suspend
                  blocked := q.blocked ++ [va] }))
    ∧ (∀ die n w j x va kind, (getDie s die).walks[n]? = some w → w.paged = false → n < 64 → run →
        walkWaiters s w = [] → quadWaiters s w = [] → copyWaiters s w = [(j, va, kind)] → getCopy s j = some x →
        let gone := setDie s { getDie s die with walks := (getDie s die).walks.eraseIdx n }
        (∀ e, walkEnd s w = .leaf e → isSram e.pa = false → e.allows kind = true → Does (.evWalk die n) s fun t =>
            getCopy t j = some { x with blocked := none } ∧ t.mem = s.mem ∧ t.cores = s.cores)
        ∧ (walkEnd s w = .fail → exec (.evWalk die n) s
            = .next (match x.failed with
                | some y => endFaulted (walkRecords gone die (2 * 4096 + die * 1024 + 3) w.asid w.va) x y.1 y.2
                | none => copyFault (walkRecords gone die (2 * 4096 + die * 1024 + 3) w.asid w.va) x va 3)))
    ∧ (∀ die n w retry, (getDie s die).walks[n]? = some w →
        Commands (.evPageRequestAnswer die n retry) "PAGE_REQUEST_ANSWER" s (w.paged = true) fun t =>
          (retry = true → t = setDie s
              { getDie s die with walks := (getDie s die).walks.set n { w with paged := false, pos := none } })
          ∧ (retry = false → aloneIn w → ∀ c i va kind, walkWaiters s w = [(c, i, va, kind)] →
              (getSlot s c i).status = .walk va kind true →
              t = takeTrap (setDie s { getDie s die with walks := (getDie s die).walks.eraseIdx n }) c i 0x04 va
                (getSlot s c i).pc))
    ∧ (∀ asid (base : Word) len,
        let b := base.toNat % 2 ^ 57
        let meets (va : Word) : Prop := rangesMeet (va.toNat % 2 ^ 57) 64 b len = true
        Commands (.evWithdrawal asid base len) "WITHDRAWAL" s (rangeUsed s asid b len = false) (fun t =>
          (∀ k ∈ t.clusters, ∀ e ∈ k.cache, e.meets asid b len = false)
          ∧ (∀ d ∈ t.dies, ∀ w ∈ d.walks, w.meets asid b len = false) ∧ t.mem = s.mem
          ∧ ∀ c i va kind, (getSlot s c i).status = .walk va kind true →
              (∃ d ∈ s.dies, ∃ w ∈ d.walks, w.meets asid b len = true ∧ w.serves (clusterOf c) (getSlot s c i).ctx va = true) →
              getSlot t c i = { getSlot s c i with status := .walk va kind false })
        ∧ ((∃ k ∈ s.cores, ∃ sl ∈ slotsOf k, sl.ctx = asid ∧ ∃ a ∈ sl.accs, a.byAddress = true ∧ meets a.va) →
            rangeUsed s asid b len = true)
        ∧ ((∃ k ∈ s.cores, ∃ m ∈ k.late, asidOf s m.launch = asid ∧ ∃ a ∈ m.accs, meets a.va) → rangeUsed s asid b len = true)
        ∧ ((∃ p ∈ s.pairs, ∃ k ∈ p.undone, k.asid = asid ∧ k.body.byAddress = true ∧ meets k.via) → rangeUsed s asid b len = true))
    ∧ (∀ pa size key, (if isSram pa then size = 2 ^ 14 else size = 2 ^ 16 ∨ size = 2 ^ 21 ∨ size = 2 ^ 30) → pa % size = 0 →
        paModule pa = s.module → (isSram pa = true ∨ (isDram pa = true ∧ isDram (pa + size - 1) = true)) → key < 1024 →
        Occurs (.evZeroing pa size key) "ZEROING" s
          (run ∧ (∀ k ∈ s.clusters, ∀ e ∈ k.cache, rangesMeet e.pa e.size pa size = false) ∧ outstanding s pa size = false) fun t =>
            (∀ c i, getSlot t c i = getSlot s c i)
            ∧ (∀ c n, rowValue (getCore t c) n = rowValue (getCore s c) n)
            ∧ (s.inv → ∀ x, memByte t.mem x = if pa ≤ x ∧ x < pa + size then 0 else memByte s.mem x)
            ∧ (∀ x, pa ≤ x → x < pa + size → descOf t x = 0)
            ∧ (isSram pa = true → findBy (·.1) (frameKey pa) t.frameOwner = none))
    ∧ (∀ n key, Commands (.evKeyLoad n key) "KEY_LOAD" s (n < 1024) fun t => t.mem = s.mem
        ∧ keyValue t n = key ∧ ∀ q, q ≠ n → keyValue t q = keyValue s q)
    ∧ (∀ pa, Occurs (.evPageRetirement pa) "PAGE_RETIREMENT" s (run ∧ isDram pa = true ∧ paModule pa = s.module) fun t =>
        let die := (nodeDie (homeOf pa)).getD 0
        let n := retiredBy (getDie s die) (homeOf pa % 2 ^ 14)
        let frame := pa / 65536 * 65536
        t.mem = s.mem
        ∧ (n < 256 → t.retired = s.retired ++ [pa / 4096] ∧ retiredBy (getDie t die) (homeOf pa % 2 ^ 14) = n + 1
          ∧ (s.module < 4096 → Recorded s t die 4 (BitVec.ofNat 64 (pa / 4096 * 4096))))
        ∧ (256 ≤ n → t.retired = s.retired ∧ t.frameReports = s.frameReports ++ [frame]
          ∧ (s.module < 4096 → Recorded s t die 5 (BitVec.ofNat 64 frame))))
    ∧ (∀ pa, Occurs (.evScrub (.block pa)) "SCRUB" s
        (run ∧ nodeModule (homeOf pa) = s.module ∧ (isSram pa = true ∨ isDram pa = true)) fun t =>
        (isPoisoned s pa = false → t = s)
        ∧ (isPoisoned s pa = true → t.mem = s.mem ∧ Recorded s t ((nodeDie (homeOf pa)).getD 0) 3 (BitVec.ofNat 64 pa)))
    ∧ (∀ c r, Occurs (.evScrub (.row c r)) "SCRUB" s (run ∧ c / 4096 = s.module ∧ r < 2048) fun t => t.cores = s.cores
        ∧ (r ∉ (getCore s c).badRows → t = s)
        ∧ (r ∈ (getCore s c).badRows → Recorded s t ((nodeDie (coreNode c)).getD 0) 3 (BitVec.ofNat 64 (r + c % 4096 * 2 ^ 16))))
    ∧ ∀ c, Occurs (.evCoreCheckFailure c) "CORE_CHECK_FAILURE" s (run ∧ c / 4096 = s.module) fun t => t.mem = s.mem ∧ t.cores = s.cores
        ∧ (getDie t (dieOf c)).failed = (getDie s (dieOf c)).failed ++ [physicalCluster (getDie s (dieOf c)) (c / 32 % 32)]
        ∧ t.reports = s.reports ++ (getCore s c).residents.map fun r => ⟨r.launch, 0x04, 6, 0, 0, 0, 0, c, 0, 0, 0⟩

/-- 07 R163 to R171, 09 R213, R219 to R231, R234, 10 R252, 13 R311, R329: a job starts once no earlier job of its cluster's window
conflicts; the reads and writes of its elements leave in their order, perform at their homes and land; a miss makes the job wait for a
walk, an access not permitted is fatal, and the card says so; a complete copy job writes its card, leaves and signals its tag; a leaf
commits once its tasks run and its data stands, with ORD = 1 in order, and an INTERNAL node once its children have; a job that is to
suspend does so once no leaf of it is allocated, in STATE 3; one that a pre-emption suspended goes on, and the tree of one that goes on is
walked again, its blocks read from their homes. The root list, the views at a
quadrant, the products and sums of leaves, the elements of a DENSE result, the result records and the allocations are as R213 and R219 to
R226 give them.
The model's readings in it: log 18, 19, 33 to 38, 40, 41, 54, 62, 84 and 91. -/
def Obligations.JobEvents : Prop :=
  (∀ (s : State) (j : Nat),
    let run := clocksRun s = true
    let signalled (t : State) (core launch n : Nat) : Prop := (∃ l, getLaunch s launch = some l ∧ l.phase = .running) → n < 64 →
      (getResident t core launch).tagdone.getLsbD n = true ∧ (getResident t core launch).busy.getLsbD n = false
    let sends (k : Nat) (w : Bool) (t : State) : Prop := runMove s (.jobSend j k w) = .next t
    (∀ x, getCopy s j = some x →
      let held := ctxHeld s x.ctx
      let pages (va : Word) (kind : AccessKind) := translate s (clusterOf x.core) x.ctx va kind
      let status := x.addr + 96
      let written (t : State) (pa key state done fva : Nat) : Prop :=
        t.mem = (performMem s (.write pa (BitVec.ofNat 512 (state + done * 2 ^ 64 + fva * 2 ^ 128)) (byteMask 24)) key).1.mem
      let asks (va : Word) (t : State) : Prop := t.mem = s.mem ∧ t.cores = s.cores ∧ t.reports = s.reports
        ∧ ∃ w ∈ (getDie t (clusterOf x.core / 32 % 4)).walks, w.asid = x.ctx
          ∧ w.granule = va.toNat / 2 ^ 14 ∧ clusterOf x.core ∈ w.clusters
      let waits (va : Word) (kind : AccessKind) (t : State) : Prop := getCopy t j = some { x with blocked := some (va, kind) } ∧ asks va t
      let fatal (va : Word) (origin : Nat) (t : State) : Prop :=
        let ends : Prop := getCopy t j = none ∧ t.reports = s.reports ++ [⟨x.launch, 0x04, origin, va, 0, 0, 0, x.core, 0, x.addr, 0⟩]
        (∀ pa key, pages status .write = .ok pa key → ends ∧ written t pa key 2 x.doneCount va.toNat)
        ∧ (pages status .write = .bad → ends ∧ t.mem = s.mem)
        ∧ (pages status .write = .miss →
            getCopy t j = some { x with failed := some (va, origin), blocked := some (status, .write) } ∧ asks status t)
      Occurs (.evJobStart j) "JOB_START" s
        (run ∧ x.started = false ∧ held = false ∧ mayStart s x.core j = true)
        (fun t => t = setCopy s { x with started := true })
      ∧ (x.failed = none → Occurs (.evJobComplete j) "JOB_COMPLETE" s (run ∧ x.complete = true ∧ held = false) (fun t =>
          (∀ pa key, pages status .write = .ok pa key → getCopy t j = none
            ∧ written t pa key 1 (if x.kind = .cpy then x.total else x.card.nidx) 0
            ∧ ∀ n, x.signal = .tag n → signalled t x.core x.launch n)
          ∧ (pages status .write = .miss → waits status .write t)
          ∧ (pages status .write = .bad → fatal status 3 t)))
      ∧ (∀ va origin, x.failed = some (va, origin) → Occurs (.evJobComplete j) "JOB_COMPLETE" s
          (run ∧ x.blocked = none ∧ held = false) (fatal va origin))
      ∧ (run → held = false → x.started = true → x.blocked = none → x.failed = none → ∀ k,
          (elementSent s j k false = false → x.kind = .cpy → k < x.total → x.hasVal k = false → x.written k = false →
            (∀ pa key, pages (sourceVa x k) .read = .ok pa key → earlierDone s x k (homeOf pa) = true →
              sends k false (enqueue s x.node (homeOf pa) (newAccess 0 x.ctx (sourceVa x k)
                (.jrd j k (if x.card.desc then .readBlock pa else .read pa (2 ^ x.card.esz)) key))))
            ∧ (pages (sourceVa x k) .read = .miss → ∃ t, sends k false t ∧ waits (sourceVa x k) .read t)
            ∧ (pages (sourceVa x k) .read = .bad → ∃ t, sends k false t ∧ fatal (sourceVa x k) 3 t))
          ∧ (elementSent s j k false = false → x.kind ≠ .cpy → k < x.card.nidx → x.entry k = none →
              ∀ pa key, pages (x.card.idx + BitVec.ofNat 64 (4 * k)) .read = .ok pa key →
                sends k false (enqueue s x.node (homeOf pa)
                  (newAccess 0 x.ctx (x.card.idx + BitVec.ofNat 64 (4 * k)) (.jrd j k (.read pa 4) key))))
          ∧ (elementSent s j k true = false → k < x.total → x.written k = false → x.indexed k = true →
              ∀ v d, x.value k = some (v, d) →
                (∀ pa key, pages (destVa x k) .write = .ok pa key → earlierDone s x k (homeOf pa) = true →
                  let op : MemOp := if x.card.desc then .writeBlock pa v d else .write pa v (byteMask (2 ^ x.card.esz))
                  sends k true (enqueue s x.node (homeOf pa) (newAccess op.flits x.ctx (destVa x k) (.jwr j k x.card.rop op key))))
                ∧ (pages (destVa x k) .write = .miss → ∃ t, sends k true t ∧ waits (destVa x k) .write t)
                ∧ (pages (destVa x k) .write = .bad → ∃ t, sends k true t ∧ fatal (destVa x k) 3 t)))
      ∧ ∀ k (r : MemRes), x.failed = none → r.poison = false →
          (x.kind = .cpy → getCopy (landRead s j k r) j = some { x with vals := x.vals ++ [(k, r.value, r.desc)] }
            ∧ (landRead s j k r).mem = s.mem)
          ∧ (x.kind ≠ .cpy → k < x.card.nidx → getCopy (landRead s j k r) j = some { x with
              index := putBy (·.1) (k, (r.value.setWidth 32).toInt) x.index })
          ∧ ∃ y, getCopy (landWrite s j k r) j = some y ∧ y.written k = true ∧ (∀ n, x.written n = true → y.written n = true)
            ∧ (∀ n, n ≠ k → x.written n = false → y.written n = false) ∧ y.index = x.index ∧ y.card = x.card)
    ∧ (∀ (p : Pair) (x : Packet) (k rop key pa : Nat) (v y : Vec) (d : Desc),
        let plain : Prop := isPoisoned s pa = false ∧ (isDram pa = false ∨ blockKeyOf s pa = keyValue s key)
        let z := if rop = 2 then 8 else 4
        let does (body : Body) (answer : Body) (P : State → Prop) : Prop := plain → ∃ t, performPacket s p { x with body := body } = .done t
          ∧ P t ∧ ∃ q, (getPair t p.dst p.src).out = (getPair s p.dst p.src).out ++ [q] ∧ q.body = answer
        let commits (t : State) : Prop := getQJob t j = getQJob (landRecord s j k) j
        (∀ n, does (.jrd j k (.read pa n) key) (.jrdr j k ⟨BitVec.ofNat 512 (memRead s.mem pa n), 0, 0, false⟩) (fun t => t.mem = s.mem))
        ∧ (does (.jwr j k 0 (.writeBlock pa v d) key) (.jwra j k ⟨0, 0, 0, false⟩) fun t => descOf t pa = d ∧ commits t
            ∧ (s.inv → ∀ a, memByte t.mem a = if pa ≤ a ∧ a < pa + 64 then v.extractLsb' (8 * (a - pa)) 8 else memByte s.mem a))
        ∧ (does (.jwr j k 0 (.write pa v (byteMask 32)) key) (.jwra j k ⟨0, 0, 0, false⟩) fun t => commits t
            ∧ (s.inv → ∀ a, memByte t.mem a = if pa ≤ a ∧ a < pa + 32 then v.extractLsb' (8 * (a - pa)) 8 else memByte s.mem a))
        ∧ (1 ≤ rop → rop ≤ 5 → y = BitVec.ofNat 512 (memRead s.mem pa z) →
            does (.jwr j k rop (.write pa v (byteMask z)) key) (.jwra j k ⟨0, 0, 0, false⟩) fun t => s.inv →
              ∀ a, memByte t.mem a = if pa ≤ a ∧ a < pa + z
                then BitVec.ofNat 8 (reduceElem rop y.toNat (v.toNat % 256 ^ z) / 256 ^ (a - pa)) else memByte s.mem a))
    ∧ ∀ q, getCopy s j = none → getQJob s j = some q →
      let held := ctxHeld s q.ctx
      let node := jobNode q.core false
      let pages (va : Word) (kind : AccessKind) := translate s (clusterOf q.core) q.ctx va kind
      let moves : Prop := run ∧ q.started = true ∧ q.state = 1 ∧ q.cancelled = false ∧ q.wait = none ∧ q.rewalk = false ∧ held = false
      let writes (k : Nat) (va : Word) (op : Nat → MemOp) (t : State) : Prop := ∀ pa key, pages va .write = .ok pa key →
        t = enqueue s node (homeOf pa) (newAccess (op pa).flits q.ctx va (.jwr j k 0 (op pa) key))
      let recorded (va : Word) (r : Nat) (t : State) : Prop :=
        writes (4 * va.toNat + 1) va (fun pa => .write pa (BitVec.ofNat 512 r) (byteMask 32)) t
      (q.state ≠ 3 ∨ q.scause ≠ 4 → Occurs (.evJobStart j) "JOB_START" s
        (run ∧ q.started = false ∧ held = false ∧ q.suspend = 0 ∧ q.state = 1 ∧ mayStart s q.core j = true)
        (fun t => t = setQJob s { q with started := true }))
      ∧ (q.state = 3 → q.scause = 4 → Occurs (.evJobStart j) "JOB_START" s
          (run ∧ ctxRuns s q.ctx = true ∧ q.wait = none ∧ q.cancelled = false) (fun t =>
          ∀ card u r, qCardBits s q = .ok card → resumeQJob s q card = .ok (u, r) → t = setQJob u r ∧ r.state = 1 ∧ r.scause = 0 ∧ r.rewalk = true))
      ∧ Occurs (.evJobComplete j) "JOB_COMPLETE" s
          (run ∧ q.ended = true ∧ q.wait = none ∧ jobInFlight s j = false ∧ held = false) (fun t =>
          let ends (u : State) : Prop := getQJob t j = none ∧ t.mem = u.mem ∧ (q.card.notify = false → signalled t q.core q.launch q.card.tag)
          (q.cancelled = false → ∀ u v w, writePools s q = .ok u → qCard u q 120 q.nleaves 4 = .ok v → qCard v q 116 2 1 = .ok w → ends w)
          ∧ (q.cancelled = true → ∀ u v, (openRecords q).foldlM (fun s va => qWriteRec s q va 15) s = .ok u →
              qCard u q 116 5 1 = .ok v → ends v))
      ∧ (run → q.rewalk = true → q.state = 1 → q.wait = none →
          (∀ r, rebuild s q = .ok r → runMove s (.rewalk j) = .next (setQJob s { r with rewalk := false, cache := [] }))
          ∧ (∀ va, rebuild s q = .error (.unread va) → runMove s (.rewalk j) = .next (fetchBlock s q va))
          ∧ ∀ va, rebuild s q = .error (.qtree va) → runMove s (.rewalk j) = .next (qFault s q 0x08 4 va))
      ∧ (∀ va pa key, moves → findBy (·.1) (va / 64 * 64) q.cache = none →
          (∀ p ∈ s.pairs, ∀ x ∈ p.out ++ p.store.map (·.pkt), ∀ k,
            ((∃ op key, x.body = .jrd j k op key) ∨ ∃ r, x.body = .jrdr j k r) → k / 64 ≠ va / 64) →
            pages (BitVec.ofNat 64 va) .read = .ok pa key →
              sends va false (enqueue s node (homeOf pa)
                (newAccess 0 q.ctx (BitVec.ofNat 64 va) (.jrd j va (.readBlock (pa / 64 * 64)) key))))
      ∧ (∀ path base l bs b k, moves → q.leaves.find? (fun l => leafRuns s q l.1) = some (path, base) →
          leafOut s q path base = .ok (l, bs) → bs.find? (fun b => 4 * b.va.toNat == k) = some b → (path, k) ∉ q.staged →
          ∀ t pa key, pages b.va .write = .ok pa key → writes k b.va (fun pa => .writePart pa b.val b.mask b.desc) t →
            sends k true (setQJob t { q with staged := q.staged ++ [(path, k)] }))
      ∧ (∀ path base, q.leafAt path = some base →
          let runs : Prop := leafWaits s q path = false ∧ leafRuns s q path = true ∧ q.state = 1 ∧ q.wait = none
          let turn : Prop := leafSwaps s q path = false ∧ (q.card.ord = true → q.leaves.head? = some (path, base) ∧ q.recording = [])
          (¬runs → exec (.evLeafCommit j path) s = notPermitted "LEAF_COMMIT")
          ∧ (runs → run → q.cancelled = true → Does (.evLeafCommit j path) s fun t => t.mem = s.mem
              ∧ getQJob t j = some { q with leaves := q.leaves.filter fun x => x.1 != path })
          ∧ (runs → q.cancelled = false → ¬turn → exec (.evLeafCommit j path) s = notPermitted "LEAF_COMMIT")
          ∧ (runs → q.cancelled = false → turn → ∀ l bs, leafOut s q path base = .ok (l, bs) →
              let stands (b : QOut) : Prop := (path, 4 * b.va.toNat) ∈ q.staged ∧ elementSent s j (4 * b.va.toNat) true = false
              ((∃ b ∈ bs, ¬stands b) → exec (.evLeafCommit j path) s = notPermitted "LEAF_COMMIT")
              ∧ (run → (∀ b ∈ bs, stands b) → ∀ r va pa key t, qRoot q = .ok r → recordVa q path = some va → pages va .write = .ok pa key →
                  recorded va (leafRecord q r path base l) t →
                  Does (.evLeafCommit j path) s fun u => (∀ c i, (getSlot u c i).status ≠ .leaf j path)
                    ∧ u = setQJob (dropTasks t q (some path)) { q with
                        recording := q.recording ++ [(path, 4 * va.toNat + 1)]
                        leaves := q.leaves.filter fun x => x.1 != path
                        staged := q.staged.filter fun x => x.1 != path })))
      ∧ (∀ path g r va pa key t, moves → q.groupAt path = some g → q.taken path = false → (∀ n, n < 4 → path ++ [n] ∈ q.committed) →
          (∀ a ∈ q.blocked, a.toNat / 2 ^ 14 ≠ va.toNat / 2 ^ 14) → qRoot q = .ok r → recordVa q path = some va → pages va .write = .ok pa key →
          recorded va (let b := recordBounds r path; resultRecord q 7 (r.lg - path.length) b.1 b.2 0x3F800000 0 true g 0) t →
          runMove s (.commitNode j path) = .next (setQJob t { q with recording := q.recording ++ [(path, 4 * va.toNat + 1)] }))
      ∧ (∀ path k, q.recording.find? (fun x => x.2 == k) = some (path, k) → getQJob (landRecord s j k) j = some { q with
          recording := q.recording.filter fun x => x.1 != path
          committed := q.committed ++ [path]
          nleaves := if (q.groupAt path).isSome then q.nleaves else q.nleaves + 1 })
      ∧ let cause := if q.suspend = 0 ∧ ctxLeaves s q.ctx = true then 4 else q.suspend
        let fs := if q.rewalk = true then [] else framesOf q (recField q.recA 16 8 + 1) []
        let q' := { q with state := 3, scause := cause, depth := if q.rewalk = true then q.depth else fs.length, suspend := 0, cache := []
                           assigned := [], rewalk := false }
        Occurs (.evJobSuspend j) "JOB_SUSPEND" s
          (run ∧ q.state = 1 ∧ cause ≠ 0 ∧ q.cancelled = false ∧ (q.done [] = false ∨ cause = 3) ∧ q.leaves = [] ∧ q.wait = none
            ∧ jobInFlight s j = false ∧ ∀ g ∈ q.groups, q.ready g.1 = false) (fun t =>
          ∀ u v, writeFrames s { q with suspend := cause } (recField q.recA 16 8) fs = .ok u → writeSuspended u q' = .ok v →
            getQJob t j = some q' ∧ t.mem = v.mem))
  ∧ (∀ (s : State) (q : QJob),
    let bound (x : BitVec 256) (lo : Nat) : Nat := if recField x lo 16 = 0 then 2 ^ recField x 16 8 else recField x lo 16
    let rowsOf (x : BitVec 256) (tr : Bool) : Nat := bound x (if tr then 48 else 32)
    let colsOf (x : BitVec 256) (tr : Bool) : Nat := bound x (if tr then 32 else 48)
    let root (x : BitVec 256) (tr : Bool) (v : QView) : Prop := v.t = recField x 0 8 ∧ v.lg = recField x 16 8 ∧ v.slg = recField x 16 8
      ∧ v.tr = tr ∧ v.rows = rowsOf x tr ∧ v.cols = colsOf x tr ∧ v.al = recField x 192 32 ∧ v.fmt = recField x 8 8
      ∧ v.p1.toNat = recField x 64 64 ∧ v.p2.toNat = recField x 128 64 ∧ v.rank = recField x 224 16 ∧ v.nm = recField x 240 8
      ∧ v.row = 0 ∧ v.col = 0 ∧ v.r0 = 0 ∧ v.c0 = 0
    let add (x y : Nat) : Nat := (fadd32 0 x y).1
    let mul (x y : Nat) : Nat := (fmul32 0 x y).1
    let dot (x y : List Nat) : Nat := (x.zip y).foldl (fun acc p => (fma32 false false 0 p.1 p.2 acc).1) 0
    let scale (g : Nat) (m : List (List Nat)) : List (List Nat) := m.map fun r => r.map (mul g)
    let col (m : List (List Nat)) (k : Nat) : List Nat := m.map fun r => r.getD k 0
    let entry (m : List (List Nat)) (i k : Nat) : Nat := (m.getD i []).getD k 0
    let kept (cl : List Contrib) : List Contrib := cl.filter fun c => match c with
      | .term _ => true
      | .prod _ a b => a.t != 0 && b.t != 0
    let one : Nat := 0x3F800000
    (∀ r, qRoot q = .ok r → r.lg = recField q.recA 16 8 ∧ r.lg = recField q.recB 16 8
      ∧ r.rows = rowsOf q.recA q.card.ta ∧ r.cols = colsOf q.recB q.card.tb
      ∧ (if q.mul then colsOf q.recA q.card.ta = rowsOf q.recB q.card.tb
         else rowsOf q.recA q.card.ta = rowsOf q.recB q.card.tb ∧ colsOf q.recA q.card.ta = colsOf q.recB q.card.tb)
      ∧ (q.card.cin ≠ 0 → r.lg = recField q.recC 16 8 ∧ r.rows = rowsOf q.recC false ∧ r.cols = colsOf q.recC false)
      ∧ ∃ a b i c, root q.recA q.card.ta a ∧ root q.recB q.card.tb b ∧ (q.card.cin ≠ 0 → root q.recC false c)
        ∧ i.t = 1 ∧ i.al = one ∧ i.lg = r.lg
        ∧ r.cl = (if q.card.cin = 0 then [] else [.term c])
            ++ if q.mul then [.prod q.card.alpha.toNat a b] else [.term a, .prod q.card.alpha.toNat i b])
    ∧ (∀ (v w : QView) (qr qc : Nat), qr < 2 → qc < 2 → v.lg ≠ 0 → v.quadrant s q qr qc = .ok w →
        let h := 2 ^ w.lg
        w.lg + 1 = v.lg ∧ w.row = v.row + qr * h ∧ w.col = v.col + qc * h ∧ w.rows = v.rows ∧ w.cols = v.cols ∧ w.tr = v.tr
        ∧ (v.t = 7 → ∃ x, qNode s q (v.p1 + BitVec.ofNat 64 (32 * if v.tr then 2 * qc + qr else 2 * qr + qc)) = .ok x
            ∧ w.t = recField x 0 8 ∧ w.lg = recField x 16 8 ∧ w.al = recField x 192 32)
        ∧ (v.t ≠ 7 → w.al = v.al ∧ w.t = if (v.t = 1 ∨ v.t = 2) ∧ qr ≠ qc then 0 else v.t)
        ∧ (v.t = 2 → qr = qc → ∀ d, qDiag s q v = .ok d → qDiag s q w = .ok ((d.drop (qr * h)).take h))
        ∧ (v.t = 4 → ∀ m, qDense s q v = .ok m → qDense s q w = .ok (((m.drop (qr * h)).take h).map fun r => (r.drop (qc * h)).take h))
        ∧ (v.t = 3 → ∀ x, qLow s q v = .ok x → qLow s q w = .ok ((x.1.drop (qr * h)).take h, (x.2.drop (qc * h)).take h)))
    ∧ (∀ (v : QView) (m : List (List Nat)) (i k : Nat), qDense s q v = .ok m → i < 2 ^ v.lg → k < 2 ^ v.lg →
        v.rows ≤ v.row + i ∨ v.cols ≤ v.col + k → entry m i k = q.card.fill.toNat)
    ∧ ((∀ cl, listAt s q [] cl = .ok (kept cl))
        ∧ (∀ cl n p l, listAt s q (n :: p) cl = .ok l → n < 4 ∧ ∃ z, subList s q n (kept cl) = .ok z ∧ listAt s q p z = .ok l)
        ∧ (∀ n, subList s q n [] = .ok [])
        ∧ (∀ n c cl l, subList s q n (c :: cl) = .ok l → ∃ x y, subContrib s q (n / 2) (n % 2) c = .ok x
            ∧ subList s q n cl = .ok y ∧ l = x ++ y)
        ∧ (∀ qr qc v l, subContrib s q qr qc (.term v) = .ok l → ∃ w, v.quadrant s q qr qc = .ok w ∧ l = [.term w])
        ∧ ∀ qr qc g a b l, subContrib s q qr qc (.prod g a b) = .ok l → ∃ a0 b0 a1 b1, a.quadrant s q qr 0 = .ok a0
            ∧ b.quadrant s q 0 qc = .ok b0 ∧ a.quadrant s q qr 1 = .ok a1 ∧ b.quadrant s q 1 qc = .ok b1
            ∧ l = [.prod g a0 b0, .prod g a1 b1])
    ∧ (∀ (ac : Nat) (a b : QView),
        let g := mul (mul ac a.al) b.al
        let P (v : QVal) : Prop := prodValue s q ac a b = .ok v
        let is (m n : Nat) (h : Prop) : Prop := a.t = m → b.t = n → h
        is 1 1 (P (.ident g))
        ∧ (∀ d, (qDiag s q b = .ok d → is 1 2 (P (.diag (d.map (mul g))))) ∧ (qDiag s q a = .ok d → is 2 1 (P (.diag (d.map (mul g))))))
        ∧ (∀ d f, qDiag s q a = .ok d → qDiag s q b = .ok f → is 2 2 (P (.diag (List.zipWith (fun x y => mul (mul g x) y) d f))))
        ∧ (∀ u v, (qLow s q b = .ok (u, v) → is 1 3 (P (.low (scale g u) v))) ∧ (qLow s q a = .ok (u, v) → is 3 1 (P (.low (scale g u) v))))
        ∧ (∀ d u v, qDiag s q a = .ok d → qLow s q b = .ok (u, v) →
            is 2 3 (P (.low (List.zipWith (fun x r => r.map (mul (mul g x))) d u) v)))
        ∧ (∀ d u v, qLow s q a = .ok (u, v) → qDiag s q b = .ok d → is 3 2 (P (.low (scale g u) (List.zipWith (fun x r => r.map (mul x)) d v))))
        ∧ (∀ x, (qDense s q b = .ok x → is 1 4 (P (.dense (scale g x)))) ∧ (qDense s q a = .ok x → is 4 1 (P (.dense (scale g x)))))
        ∧ (∀ d x, qDiag s q a = .ok d → qDense s q b = .ok x → is 2 4 (P (.dense (List.zipWith (fun y r => r.map (mul (mul g y))) d x))))
        ∧ (∀ d x, qDense s q a = .ok x → qDiag s q b = .ok d →
            is 4 2 (P (.dense (x.map fun r => List.zipWith (fun y z => mul (mul g y) z) r d))))
        ∧ (∀ u v u' v', qLow s q a = .ok (u, v) → qLow s q b = .ok (u', v') →
            let w := (List.range a.rank).map fun m => (List.range b.rank).map fun n => dot (col v m) (col u' n)
            is 3 3 (P (if a.rank ≤ b.rank then .low (scale g u) (v'.map fun r => w.map fun x => dot r x)
              else .low ((scale g u).map fun r => (List.range b.rank).map fun n => dot r (col w n)) v')))
        ∧ (∀ u v x, qLow s q a = .ok (u, v) → qDense s q b = .ok x → is 3 4 (P (.low (scale g u)
            ((List.range (2 ^ b.lg)).map fun k => (List.range a.rank).map fun n => dot (col x k) (col v n)))))
        ∧ (∀ x u v, qDense s q a = .ok x → qLow s q b = .ok (u, v) →
            is 4 3 (P (.low ((scale g x).map fun r => (List.range b.rank).map fun n => dot r (col u n)) v)))
        ∧ (∀ x y, qDense s q a = .ok x → qDense s q b = .ok y → is 4 4 (P (.prod (scale g x) y))))
    ∧ (∀ v : QView, (v.t = 1 → termValue s q v = .ok (.ident v.al))
        ∧ (∀ d, v.t = 2 → qDiag s q v = .ok d → termValue s q v = .ok (.diag (d.map (mul v.al))))
        ∧ (∀ u w, v.t = 3 → qLow s q v = .ok (u, w) → termValue s q v = .ok (.low (scale v.al u) w))
        ∧ ∀ x, v.t = 4 → qDense s q v = .ok x → termValue s q v = .ok (.dense (scale v.al x)))
    ∧ (∀ (mr : Nat) (cl : List Contrib) (c : Contrib),
        let capped (x : Nat × Nat) : Nat × Nat := if x.1 = 3 ∧ mr < x.2 then (4, 0) else x
        let r := leafType mr cl
        let p := contribType c
        let z := leafType mr (cl ++ [c])
        leafType mr [] = (0, 0) ∧ (p.1 = 0 → z = capped r) ∧ (r.1 = 0 → p.1 ≠ 0 → z = capped p) ∧ (r.1 = 1 → p.1 = 1 → z = (1, 0))
        ∧ (1 ≤ r.1 → r.1 ≤ 2 → 1 ≤ p.1 → p.1 ≤ 2 → r.1 + p.1 ≠ 2 → z = (2, 0)) ∧ (r.1 = 3 → p.1 = 3 → z = capped (3, r.2 + p.2))
        ∧ (3 ≤ max r.1 p.1 → 1 ≤ min r.1 p.1 → ¬(r.1 = 3 ∧ p.1 = 3) → z = (4, 0))
        ∧ (∀ v : QView, c = .term v → p = (v.t, if v.t = 3 then v.rank else 0))
        ∧ ∀ g (a b : QView), c = .prod g a b → a.t ≤ 4 → b.t ≤ 4 → p =
            if a.t = 0 ∨ b.t = 0 then (0, 0) else if a.t = 1 ∧ b.t = 1 then (1, 0) else if a.t ≤ 2 ∧ b.t ≤ 2 then (2, 0)
            else if a.t = 3 ∧ b.t = 3 then (3, min a.rank b.rank) else if a.t = 3 then (3, a.rank) else if b.t = 3 then (3, b.rank) else (4, 0))
    ∧ (∀ (d a b : Nat) (x y : List Nat) (u v u' v' : List (List Nat)) (p : QVal),
        foldValue d .zero p = p ∧ foldValue d p .zero = p ∧ foldValue d (.ident a) (.ident b) = .ident (add a b)
        ∧ foldValue d (.diag x) (.diag y) = .diag (List.zipWith add x y)
        ∧ foldValue d (.ident a) (.diag y) = .diag (List.zipWith add (List.replicate d a) y)
        ∧ foldValue d (.diag x) (.ident b) = .diag (List.zipWith add x (List.replicate d b))
        ∧ foldValue d (.low u v) (.low u' v') = .low (List.zipWith (· ++ ·) u u') (List.zipWith (· ++ ·) v v'))
    ∧ (∀ (i k : Nat) (acc : QAcc) (al : Nat) (d : List Nat) (u v : List (List Nat)),
        let plus (acc : QAcc) (x : Nat) : QAcc := match acc with
          | .fp b => .fp (add b x)
          | .xf a => .xf (xfAdd a (xfOfVal (fp32 x)))
        let mac (acc : QAcc) (p : Nat × Nat) : QAcc := match acc with
          | .fp b => .fp (fma32 false false 0 p.1 p.2 b).1
          | .xf a => .xf (xfAdd a (xfOfVal (fprod (fp32 p.1) (fp32 p.2)).1))
        addContrib i k acc .zero = acc ∧ (addContrib i k acc (.ident al) = if i = k then plus acc al else acc)
        ∧ (addContrib i k acc (.diag d) = if i = k then plus acc (d.getD i 0) else acc)
        ∧ addContrib i k acc (.low u v) = ((u.getD i []).zip (v.getD k [])).foldl mac acc
        ∧ addContrib i k acc (.dense u) = plus acc (entry u i k)
        ∧ addContrib i k acc (.prod u v) = ((u.getD i []).zip (col v k)).foldl mac acc)
    ∧ (∀ (r : QRoot) (lg : Nat) (place : Nat × Nat) (cl : List Contrib) (vals : List QVal),
        let n := 2 ^ lg
        let z := leafType q.card.maxrank cl
        let f := q.card.rfmt
        let folded := vals.foldl (foldValue n) .zero
        let data (l : List Nat) : List (Option FVal) := l.map fun b => some (fp32 b)
        let element (i k : Nat) : FVal := match vals.foldl (addContrib i k) (if f = 4 ∨ f = 5 then .xf ⟨0, 0⟩ else .fp 0) with
          | .fp b => fp32 b
          | .xf a => xfVal a
        let rows := (List.range n).map fun i => (List.range n).map fun k =>
          if r.rows ≤ place.1 + i ∨ r.cols ≤ place.2 + k then none else some (element i k)
        let is (l : QLeaf) : Prop := leafResult s q r lg place cl = .ok l
        (z.1 = 0 → is ⟨0, 0, one, []⟩)
        ∧ (cl.mapM (contribValue s q) = .ok vals →
            (z.1 = 4 → is (if q.card.demote = true ∧ ∀ x ∈ rows, rowStoredZero f q.card.gap x = true then ⟨0, 0, one, []⟩ else ⟨4, 0, one, rows⟩))
            ∧ (z.1 ≠ 0 → z.1 ≠ 4 → (∀ al, folded = .ident al → is ⟨1, 0, al, []⟩)
                ∧ (∀ d, folded = .diag d → is ⟨2, 0, one, [data d]⟩) ∧ ∀ u v, folded = .low u v → is ⟨3, z.2, one, (u ++ v).map data⟩)))
    ∧ (∀ path base l bs, leafOut s q path base = .ok (l, bs) → ∃ r cl, qRoot q = .ok r ∧ listAt s q path r.cl = .ok cl
        ∧ leafResult s q r (r.lg - path.length) (placeOf r.lg path) cl = .ok l ∧ leafBlocks s q (r.lg - path.length) l base = .ok bs)
    ∧ (∀ (f gap : Nat) (xs : List FVal) (old : Vec), 1 ≤ f → f ≤ 5 → xs.length = 512 / fmtBits f →
        outBlock f gap (xs.map some) old = ((storeBlock f gap xs).1, byteMask 64, (storeBlock f gap xs).2))
    ∧ (∀ (t lg rows cols al rank p1 p2 : Nat) (commit : Bool), t < 256 → q.card.rfmt < 256 → lg < 256 → rows < 2 ^ 16 → cols < 2 ^ 16 →
        al < 2 ^ 32 → rank < 2 ^ 16 → p1 < 2 ^ 64 → p2 < 2 ^ 64 →
        let x := BitVec.ofNat 256 (resultRecord q t lg rows cols al rank commit p1 p2)
        recField x 0 8 = t ∧ recField x 8 8 = q.card.rfmt ∧ recField x 16 8 = lg ∧ recField x 24 8 = (if commit then 1 else 0)
        ∧ recField x 32 16 = rows ∧ recField x 48 16 = cols ∧ recField x 64 64 = p1 ∧ recField x 128 64 = p2 ∧ recField x 192 32 = al
        ∧ recField x 224 16 = rank ∧ recField x 240 16 = 0)
    ∧ (∀ (r : QRoot) path base (l : QLeaf),
        let lg := r.lg - path.length
        let top : Prop := path = []
        leafRecord q r path base l = resultRecord q l.t lg (if top then r.rows % 2 ^ r.lg else 0) (if top then r.cols % 2 ^ r.lg else 0)
          l.al l.rank true (if l.t ≤ 1 then 0 else base) (if l.t = 3 then base + 2 ^ lg * rowPitch q.card.rfmt l.rank else 0))
    ∧ ∀ (next limit size align : Nat), 0 < align →
        let a := (next + align - 1) / align * align
        a % align = 0 ∧ next ≤ a ∧ a < next + align ∧ bump next limit size align = if a + size ≤ limit then some (a, a + size) else none)

/-! ### Launches and contexts -/

/-- 12 R279 to R286, R295 to R297, 14 R336 to R338: a launch start takes the next LID; a bad descriptor or image ends it with
ENGINE, and a good image whose core has room holds it; each core is then installed with zero regions, rows, tags and masks and
its directory; LID, memberships, initial tasks, seeds and LSTATE 2 follow in this order, where a membership or a seed of an actor whose
core is not installed installs that first; an initial task that waited enters its die queue;
the first fault report taken decides CAUSE and begins the end, later ones count; the end waits for copy jobs, matrix operations, items
in flight and reports on their way. Bytes are read through the page tables, lowest first. A descriptor passes when its fields are those of R280, and an image reads as what its header and its
table rows hold when every field of R281 and R282, and every relation among them of R23, R27, R282, R283 and R58, is kept.
The model's readings in it: log 42 and 43. -/
def Obligations.LaunchEvents : Prop :=
  ∀ (s : State),
    let ends (n cause : Nat) (tval : Word) (t : State) : Prop := ∃ x, getLaunch t n = some x ∧ x.phase = .ending ∧ x.endCode = 3
      ∧ x.fault = some ⟨n, cause, 5, tval, 0, 0, 0, 0, 0, 0, 0⟩
    let started (ctx q : Nat) : Option Launch := s.launches.find? (fun l => l.ctx == ctx && l.queue == q && l.phase != .ended)
    let f (v lo n : Nat) : Nat := v / 2 ^ lo % 2 ^ n
    (∀ ctx d, descriptorOk s ctx d = true ↔
      f d 448 64 % 64 = 0 ∧ (translateNow s ctx (BitVec.ofNat 64 (f d 448 64)) .write).isSome = true ∧ f d 384 64 % 64 = 0
      ∧ f d 249 135 = 0 ∧ f d 72 120 = 0 ∧ 1 ≤ f d 224 25 ∧ f d 224 25 ≤ 2 ^ 24 ∧ f d 220 3 ≤ 5 ∧ f d 216 3 ≤ 4 ∧ f d 208 8 ≤ 56
      ∧ 16 ≤ f d 192 16 ∧ f d 192 16 ≤ 1024 ∧ f d 192 16 % 16 = 0)
    ∧ (∀ ctx va n,
        let at_ (k : Nat) : Word := va + BitVec.ofNat 64 k
        let sound (k : Nat) : Prop := ∃ pa key, translateNow s ctx (at_ k) .read = some (pa, key) ∧ frameSaved s ctx pa = none
          ∧ isPoisoned s pa = false
        ((∀ k, k < n → sound k) → ∃ v, readBytes s ctx va n = .ok v ∧ v < 256 ^ n
          ∧ ∀ k pa key, k < n → translateNow s ctx (at_ k) .read = some (pa, key) → v / 256 ^ k % 256 = (readThrough s pa 1 key).toNat % 256)
        ∧ ∀ k, k < n → (∀ j, j < k → sound j) → translateNow s ctx (at_ k) .read = none →
            readBytes s ctx va n = .error (.unreadable (at_ k)))
    ∧ (∀ ctx ez image,
        let row (table k n : Nat) : Read Nat := readBytes s ctx (BitVec.ofNat 64 (table + k * n)) n
        (∀ e, readBytes s ctx image 64 = .error e → parseImage s ctx ez image = .error e)
        ∧ ∀ h, readBytes s ctx image 64 = .ok h →
          let limits : Prop := 1 ≤ f h 32 32 ∧ f h 32 32 ≤ 262144 ∧ 1 ≤ f h 64 32 ∧ f h 64 32 ≤ 16 * f h 32 32 ∧ f h 96 32 ≤ 65536
            ∧ f h 16 16 ≤ 256
          let chanAt (w : Nat) (x : Chan) : Prop := f w 3 5 = 0 ∧ f w 9 7 = 0 ∧ f w 18 1 = 0 ∧ f w 20 4 = 0 ∧ f w 28 4 = 0
            ∧ x = { num := f w 24 4, offset := BitVec.ofNat 32 (f w 32 32), task := f w 19 1 == 1, words := f w 16 2 + 1, bound := true,
                    en := f w 8 1 == 1, prio := f w 0 3, queue := [], unbound := none, ucount := 0 }
          let actorAt (e : Nat) (a : Actor) : Prop := f e 44 20 = 0 ∧ f e 264 248 = 0
            ∧ 1 ≤ f e 256 8 ∧ f e 256 8 ≤ 16 ∧ f e 224 32 + f e 256 8 ≤ f h 64 32 ∧ a.chans.length = f e 256 8
            ∧ (∀ i x, a.chans[i]? = some x → ∃ w, row (f h 384 64) (f e 224 32 + i) 8 = .ok w ∧ chanAt w x)
            ∧ (∀ i (x y : Chan), a.chans[i]? = some x → a.chans[i + 1]? = some y → x.num < y.num)
            ∧ a.name ≠ 0 ∧ coreEnabled s a.core = true ∧ f e 64 64 % 64 = 0 ∧ a.size % 64 = 0 ∧ 64 ≤ a.size ∧ a.size ≤ 262144
            ∧ a.stack % 64 = 0 ∧ a.stack ≤ a.size ∧ f e 64 64 + a.size ≤ 2 ^ 64 ∧ (a.zrows = 0 ∨ a.zbase + a.zrows ≤ 2048 - ez)
            ∧ (regionPieces s ctx a.core (f e 64 64) a.size).isSome = true
            ∧ a = ⟨f e 0 32, .unclaimed, s.module * 4096 + f e 32 12, BitVec.ofNat 64 (f e 64 64), f e 128 32, f e 160 32, f e 192 16,
                   f e 208 16, a.chans, [], [], [], false, false, false, false⟩
          let good (m : Image) : Prop := m.tb = BitVec.ofNat 64 (f h 128 64) ∧ m.actors.length = f h 32 32
            ∧ m.seeds.length = f h 16 16 ∧ m.tasks.length = f h 0 16 ∧ m.joins.length = f h 96 32
            ∧ (∀ k a, m.actors[k]? = some a → ∃ e, row (f h 448 64) k 64 = .ok e ∧ actorAt e a)
            ∧ (∀ (i j : Nat) (a b : Actor), i < j → m.actors[i]? = some a → m.actors[j]? = some b →
                a.name ≠ b.name ∧ rangesMeet a.base.toNat a.size b.base.toNat b.size = false
                ∧ (a.core = b.core → 0 < a.zrows → 0 < b.zrows → rangesMeet a.zbase a.zrows b.zbase b.zrows = false))
            ∧ (∀ c, (m.actors.filter (·.core == c)).length ≤ 64)
            ∧ (∀ a ∈ m.actors, ∀ b ∈ m.actors, ∀ x ∈ a.chans, ∀ y ∈ b.chans, x.task = true → y.task = true → x.words = y.words)
            ∧ (∀ k x, m.seeds[k]? = some x → ∃ e, row (f h 320 64) k 16 = .ok e ∧ f e 0 64 % 64 = 0 ∧ f e 100 28 = 0
                ∧ x = (BitVec.ofNat 64 (f e 0 64), f e 64 32, f e 96 4)
                ∧ ∃ a ∈ m.actors, ∃ y, a.name = x.2.1 ∧ a.chan x.2.2 = some y ∧ y.task = false)
            ∧ (∀ k x, m.tasks[k]? = some x → ∃ e, row (f h 256 64) k 16 = .ok e ∧ f e 0 64 % 64 = 0 ∧ f e 66 62 = 0
                ∧ x = (BitVec.ofNat 64 (f e 0 64), f e 64 2))
            ∧ ∀ k x, m.joins[k]? = some x → ∃ e, row (f h 192 64) k 8 = .ok e ∧ f e 24 8 = 0 ∧ f e 0 12 ≠ 0 ∧ f e 12 12 ∈ s.modules
                ∧ x = (BitVec.ofNat 64 (f e 0 24), f e 32 32) ∧ ∃ a ∈ m.actors, a.name = x.2
          (¬limits → parseImage s ctx ez image = .error .bad)
          ∧ ∀ m, parseImage s ctx ez image = .ok m ↔ limits ∧ good m)
    ∧ (∀ ctx q (desc : Word), started ctx q = none →
      ((getContext s ctx).bind fun c => (findBy (·.1) q c.queues).bind fun p => p.2.head?) = some desc →
      clocksRun s = true → ctxRuns s ctx = true → q < 16 →
        let begun (d : Nat) : Launch := newLaunch s ctx q desc d
        let held (d : Nat) : State := setLaunch { writeLstate s (begun d) 1 with nextLid := s.nextLid + 1 } (begun d)
        let Ends (tval : Word) : Prop := Does (.evLaunchStart ctx q) s fun t => t.nextLid = s.nextLid + 1 ∧ ends s.nextLid 0x0A tval t
        (∀ va, readBytes s ctx desc 64 = .error (.unreadable va) → Ends desc)
        ∧ ∀ d, readBytes s ctx desc 64 = .ok d →
          ((desc.toNat % 64 ≠ 0 ∨ descriptorOk (held d) ctx d = false) → Ends desc)
          ∧ (desc.toNat % 64 = 0 → descriptorOk (held d) ctx d = true →
            let l := begun d
            let u := held d
            ((∃ va, parseImage u ctx l.ezrows l.image = .error (.unreadable va)) ∨ parseImage u ctx l.ezrows l.image = .error .bad →
              Ends l.image)
            ∧ ∀ m c, parseImage u ctx l.ezrows l.image = .ok m → m.actors ≠ [] → (∀ a ∈ m.actors, a.core = c ∧ a.place = .unclaimed) →
                let l' := { l with
                  tb := m.tb, actors := m.actors, words := imageWords m.actors, seeds := m.seeds, joins := m.joins, late := m.tasks }
                claimable (setLaunch u l') l' c m.actors = true →
                  Does (.evLaunchStart ctx q) s fun t => t.nextLid = s.nextLid + 1
                    ∧ getLaunch t s.nextLid = some { l' with
                        phase := .running, step := 4, todo := [c], actors := m.actors.map fun a => { a with place := .core } }
                    ∧ (getCore t c).residents.any (fun r => r.launch == s.nextLid) = true))
    ∧ (∀ ctx q l, started ctx q = some l → clocksRun s = true → ctxRuns s ctx = true → getLaunch s l.id = some l →
        let Next (P : State → Prop) : Prop := Does (.evLaunchStart ctx q) s P
        (l.phase = .waiting → exec (.evLaunchStart ctx q) s = .next (claimLaunch s l))
        ∧ (l.phase = .running →
          (∀ c rest a, l.step = 4 → l.todo = c :: rest → l.actors.filter (fun a => a.core == c && a.place == .core) = [a] →
            s.savedFrames = [] → ctxRuns s l.ctx = true →
            (actorOpen s l a = false → exec (.evLaunchStart ctx q) s = notPermitted "LAUNCH_START")
            ∧ (actorOpen s l a = true → Next fun t => getLaunch t l.id = some { l with todo := l.todo.filter (· != c) }
                ∧ (getResident t c l.id).tagdone = 0 ∧ (getResident t c l.id).cmask = 0
                ∧ (∀ b ∈ l.actors, b.place ≠ .ended → (⟨l.id, b.name, b.node⟩ : DirEntry) ∈ (getCore t c).dir)
                ∧ (∀ k, k < a.zrows → rowValue (getCore t c) (a.zbase + k) = 0)
                ∧ ∀ ps, regionPieces s l.ctx c a.base.toNat a.size = some ps → ∀ p ∈ ps, ∀ x, p.1 ≤ x → x < p.1 + p.2 →
                    s.inv → memByte t.mem x = 0))
          ∧ (∀ pa key, l.step = 4 → translateNow s l.ctx l.desc .write = some (pa, key) → isSram pa = false →
              let named (t : State) : Prop := getLaunch t l.id = some { l with step := 6 }
                ∧ t.mem = (performMem s (.write pa (BitVec.ofNat 512 (l.id % 2 ^ 32 * 2 ^ 32)) (byteMask 8)) key).1.mem
              (l.todo = [] → Next named)
              ∧ (l.todo ≠ [] → l.todo.length < (launchCores l).length → ∃ t, runMove s (.early l.id) = .next t ∧ named t))
          ∧ (∀ c rest, l.todo = c :: rest →
              (l.step = 6 ∧ ∃ o name more, l.joins = (o, name) :: more ∧ l.uninstalled name = true)
                ∨ (l.step = 8 ∧ (l.seeds = [] ∨ ∃ va name ch more, l.seeds = (va, name, ch) :: more ∧ l.uninstalled name = true)) →
              (installCore s l c = none → exec (.evLaunchStart ctx q) s = notPermitted "LAUNCH_START")
              ∧ ∀ u, installCore s l c = some u → exec (.evLaunchStart ctx q) s = .next u)
          ∧ (∀ o name rest u r, l.step = 6 → l.joins = (o, name) :: rest → l.uninstalled name = false →
              performGroup (setLaunch s { l with joins := rest }) l.id o (.join name) = (u, r) →
              (r.code = 0 → exec (.evLaunchStart ctx q) s = .next u) ∧ (r.code ≠ 0 → Next (ends l.id 0x10 o)))
          ∧ (l.step = 6 → l.joins = [] → l.late = [] → Next fun t => getLaunch t l.id = some { l with step := 8 } ∧ t.mem = s.mem)
          ∧ (∀ e ws, l.step = 6 → l.joins = [] → l.late = [e] → l.closed.contains e.2 = false →
              payload s l.ctx e.1 (imageWords l.actors) = .ok ws → queueSize (getDie s e.2).tasks + 1 ≤ 16384 → Next fun t =>
              getLaunch t l.id = some { l with step := 8, late := [] }
              ∧ tasksOf (getDie t e.2).tasks l.id
                  = tasksOf (getDie s e.2).tasks l.id ++ [newTask (s.module * 4096 + e.2 * 1024) ws])
          ∧ (∀ va name ch rest a k ws, l.step = 8 → l.seeds = (va, name, ch) :: rest → l.actor name = some a → a.core ∉ l.todo →
              a.chan ch = some k →
              payload (setLaunch s { l with seeds := rest }) l.ctx va k.words = .ok ws →
              let m := newMsg (setLaunch s { l with seeds := rest }) a.core 0 ws
              exec (.evLaunchStart ctx q) s = .next (postMsg m.2 a.core l.ctx l.id name ch m.1))
          ∧ (∀ pa key, l.step = 8 → l.seeds = [] → l.todo = [] → translateNow s l.ctx (l.desc + 8) .write = some (pa, key) → isSram pa = false →
              Next fun t => getLaunch t l.id = some { l with step := 9 }
                ∧ t.mem = (performMem s (.write pa 2 (byteMask 1)) key).1.mem)
          ∧ (l.step = 9 → exec (.evLaunchStart ctx q) s = notPermitted "LAUNCH_START")))
    ∧ (∀ n l e rest, getLaunch s n = some l → l.late = e :: rest → l.phase = .running → 8 ≤ l.step → ctxRuns s l.ctx = true →
        clocksRun s = true →
        (l.closed.contains e.2 = true → Does (.evInitialTaskPush n) s (ends n 0x0E e.1))
        ∧ (l.closed.contains e.2 = false →
          (∀ va, payload s l.ctx e.1 (imageWords l.actors) = .error (.unreadable va) → Does (.evInitialTaskPush n) s (ends n 0x04 e.1))
          ∧ ∀ ws, payload s l.ctx e.1 (imageWords l.actors) = .ok ws →
            (queueSize (getDie s e.2).tasks + 1 ≤ 16384 → Does (.evInitialTaskPush n) s fun t =>
              tasksOf (getDie t e.2).tasks n = tasksOf (getDie s e.2).tasks n ++ [newTask (s.module * 4096 + e.2 * 1024) ws]
              ∧ getLaunch t n = some { l with late := rest })
            ∧ (16384 < queueSize (getDie s e.2).tasks + 1 →
                exec (.evInitialTaskPush n) s = notPermitted "INITIAL_TASK_PUSH")))
    ∧ (∀ n l, getLaunch s n = some l → Occurs (.evQuiescence n) "QUIESCENCE" s
        (clocksRun s = true ∧ l.quiesce = true ∧ quiescent s l = true) fun t =>
        ∃ x, getLaunch t n = some x ∧ x.phase = .ending ∧ x.endCode = 2 ∧ x.fault = l.fault)
    ∧ (∀ n r, s.reports[n]? = some r → Occurs (.evFaultReport n) "FAULT_REPORT" s (clocksRun s = true) fun t => t.reports = s.reports.eraseIdx n
        ∧ ∀ l, getLaunch s r.launch = some l → ∃ x, getLaunch t r.launch = some x
          ∧ ((l.phase = .waiting ∨ l.phase = .running) → x.phase = .ending ∧ x.endCode = 3 ∧ x.fault = some r
              ∧ (∀ a ∈ x.actors, a.box = [] ∧ ∀ ch ∈ a.chans, ch.queue = [])
              ∧ ∀ c i, (getSlot s c i).launch = r.launch → (getSlot s c i).status ≠ .free →
                  (∀ j p, (getSlot s c i).onLeaf j p = false) → getSlot t c i = Slot.reset)
          ∧ (l.phase = .ending → x = { l with nfault := min (l.nfault + 1) 65535 })
          ∧ (l.phase = .ended → x = l))
    ∧ (∀ n l, getLaunch s n = some l → Occurs (.evLaunchEnd n) "LAUNCH_END" s
        (clocksRun s = true ∧ (allEnded s l = true ∨ (l.phase = .ending ∧ copying s n = false ∧ inFlight s n = false ∧ matsDue s n = false
          ∧ ∀ r ∈ s.reports, r.launch ≠ n))) fun t =>
        (l.phase = .ending → (∃ x, getLaunch t n = some x ∧ x.phase = .ended)
          ∧ (∀ c, ∀ r ∈ (getCore t c).residents, r.launch ≠ n)
          ∧ (l.endCode = 3 → ∀ e ∈ t.egress, ∀ y ∈ e.held, y.launch ≠ n))
        ∧ (allEnded s l = true → ∃ x, getLaunch t n = some x ∧ x.endCode = 1 ∧ (x.phase = .ending ∨ x.phase = .ended)))
    ∧ ∀ (l : Launch) (r : FaultReport), l.fault = some r → l.dropped < 2 ^ 32 → l.nfault < 2 ^ 16 → l.endCode < 4 →
        let w := (statusRecord l).toNat
        w / 2 ^ 448 = r.job.toNat ∧ w / 2 ^ 384 % 2 ^ 64 = r.tval.toNat ∧ w / 2 ^ 320 % 2 ^ 64 = r.epc.toNat
        ∧ w / 2 ^ 256 % 2 ^ 64 = r.msgid.toNat ∧ w / 2 ^ 224 % 2 ^ 32 = r.actor % 2 ^ 32 ∧ w / 2 ^ 192 % 2 ^ 32 = l.dropped
        ∧ w / 2 ^ 160 % 2 ^ 32 = l.id % 2 ^ 32 ∧ w / 2 ^ 144 % 2 ^ 16 = l.nfault ∧ w / 2 ^ 128 % 2 ^ 9 = r.prog % 2 ^ 9
        ∧ w / 2 ^ 116 % 2 ^ 12 = r.core % 2 ^ 12
        ∧ w / 2 ^ 114 % 4 = r.slot % 4 ∧ w / 2 ^ 96 % 2 ^ 8 = r.origin % 2 ^ 8 ∧ w / 2 ^ 64 % 2 ^ 32 = l.egdisc % 2 ^ 32
        ∧ w / 2 ^ 16 % 2 ^ 8 = l.endCode ∧ w % 2 ^ 8 = r.cause % 2 ^ 8

/-- 12 R302 to R308: pre-emption first marks its context as leaving and, once it has drained, parks its actors with their messages and
stops it; resumption brings a context back when its cores have room, and never beyond their limits; a claim saves a victim and leaves
zeros; an eviction first stops the actor's dispatch, then waits for its activation and what was committed, and parks it behind a
stub; a restore places it on a core, with its rows and the frames of its region, where no row of another parked actor stands
unsaved. What a save meets that is lost ends the launch whose
state it is (14 R342).
The model's readings in it: log 31, 41, 45, 77 and 78. -/
def Obligations.ContextEvents : Prop :=
  ∀ (s : State),
    let run := clocksRun s = true
    let ended (t : State) (n : Nat) : Prop := ∃ r ∈ t.reports, r.launch = n ∧ r.cause = 0x04 ∧ r.origin = 6
    (∀ ctx c, getContext s ctx = some c → c.running = true →
      (c.leaving = false → Occurs (.evPreEmption ctx) "PRE_EMPTION" s run fun t => t.mem = s.mem
        ∧ ∃ x, getContext t ctx = some x ∧ x.leaving = true ∧ x.running = true)
      ∧ (c.leaving = true → Occurs (.evPreEmption ctx) "PRE_EMPTION" s (run ∧ drained s ctx = true) fun t => t.mem = s.mem
          ∧ (∃ x, getContext t ctx = some x ∧ x.running = false ∧ x.leaving = false)
          ∧ ∀ l, s.launches.filter (fun x => x.id == l.id) = [l] → l.ctx = ctx → l.phase = .running →
              ∃ x, getLaunch t l.id = some x ∧ (∀ a ∈ x.actors, a.place ≠ .core)
                ∧ ∀ a ∈ l.actors, a.place = .core → ∃ b ∈ x.actors, b.name = a.name ∧ b.place = .parked
                    ∧ (∀ ch ∈ b.chans, ch.queue = [])
                    ∧ b.box.length = (a.chans.map fun ch => ch.queue.length).sum + a.box.length))
    ∧ (∀ ctx c, getContext s ctx = some c →
        (c.running = false → Occurs (.evContextResume ctx) "CONTEXT_RESUME" s
          (run ∧ c.valid = true ∧ (s.contexts.filter (·.running)).length < 64
            ∧ ((ctxLaunches s ctx).foldlM (fun s l => returnLaunch s c l) s).isSome = true) fun t =>
          getContext t ctx = some { c with running := true, saved := [], groups := [], queued := [] }
          ∧ ((∀ k, (getCore s k).residents.length ≤ 8) → ∀ k, (getCore t k).residents.length ≤ 8)
          ∧ ((∀ k, (getCore s k).groups.length ≤ 256) → ∀ k, (getCore t k).groups.length ≤ 256))
        ∧ (c.running = true → Occurs (.evContextResume ctx) "CONTEXT_RESUME" s
            (run ∧ ∃ l ∈ ctxLaunches s ctx, ∃ a ∈ l.actors, a.place = .core ∧ (drainOne s l.id a).isSome = true)
            fun t => t = (ctxLaunches s ctx).foldl drainLaunch s))
    ∧ (∀ c g v, (getCore s c).victims.find? (fun v => v.unit == g) = some v →
        Occurs (.evVictimClaim (.rows c g)) "VICTIM_CLAIM" s (run ∧ rowsWanted s c g v.launch = true ∧ groupLeft s c g = true) fun t =>
          t.mem = s.mem
          ∧ (∀ r ∈ s.savedRows, r ∈ t.savedRows)
          ∧ (∀ l ∈ s.launches, l.phase ≠ .ended → ∀ a ∈ l.actors, a.core = c → a.place = .parked → ∀ row, row / 16 = g →
              a.zbase ≤ row → row < a.zbase + a.zrows → rowSaved s l.id a row = false →
              let bad := (getCore s c).badRows.contains row
              (⟨c, row, l.id, a.name, rowValue (getCore s c) row, bad⟩ : SavedRow) ∈ t.savedRows ∧ (bad = true → ended t l.id))
          ∧ (∀ n, rowValue (getCore t c) n = if n / 16 = g then 0 else rowValue (getCore s c) n)
          ∧ ∀ x ∈ (getCore t c).victims, x.unit ≠ g)
    ∧ (∀ c f v, f < 32 → (getCore s c).frames.find? (fun v => v.unit == f) = some v → s.inv →
        Occurs (.evVictimClaim (.frame c f)) "VICTIM_CLAIM" s
          (run ∧ (frameWalked s c f (asidOf s v.launch) = true ∨ createWants s c f = true
              ∨ ∃ l ∈ s.launches, l.phase ≠ .ended ∧ ∃ a ∈ l.actors, wantsUnits l a c v.launch = true
                  ∧ ∃ ps, regionPieces s l.ctx c a.base.toNat a.size = some ps ∧ ∃ p ∈ ps, p.1 % 0x80000 / 16384 = f)
            ∧ outstanding s (frameBase c f) 16384 = false) fun t =>
          (∀ x, memByte t.mem x = if frameBase c f ≤ x ∧ x < frameBase c f + 16384 then 0 else memByte s.mem x)
          ∧ (∀ x, frameBase c f ≤ x → x < frameBase c f + 16384 → descOf t x = 0)
          ∧ t.savedFrames = s.savedFrames ++ [⟨c, f, v.launch, (List.range 16384).map fun n => memByte s.mem (frameBase c f + n),
              (List.range 256).map fun n => descOf s (frameBase c f + 64 * n),
              (List.range 256).filter fun n => isPoisoned s (frameBase c f + 64 * n)⟩]
          ∧ (∀ n, n < 256 → isPoisoned t (frameBase c f + 64 * n) = false)
          ∧ (∀ n, n < 256 → isPoisoned s (frameBase c f + 64 * n) = true →
              ∀ l ∈ s.launches, l.phase ≠ .ended → l.ctx = asidOf s v.launch → ∀ a ∈ l.actors, a.core = c →
              ∀ ps, regionPieces s l.ctx c a.base.toNat a.size = some ps →
                (∃ p ∈ ps, rangesMeet p.1 p.2 (frameBase c f + 64 * n) 64 = true) → ended t l.id)
          ∧ (∀ k ∈ t.clusters, ∀ e ∈ k.cache, rangesMeet e.pa e.size (frameBase c f) 16384 = false)
          ∧ ∀ x ∈ (getCore t c).frames, x.unit ≠ f)
    ∧ ∀ n name l a, getLaunch s n = some l → l.actor name = some a → l.phase = .running → ctxRuns s l.ctx = true → run →
        (a.place = .core →
          (a.leaving = false → Does (.evEviction n name) s fun t =>
              getActor t n name = some { a with leaving := true } ∧ t.cores = s.cores ∧ t.mem = s.mem)
          ∧ (a.leaving = true → (actorBusy s n a = true ∨ evictionWaits s l a = true) →
              exec (.evEviction n name) s = notPermitted "EVICTION")
          ∧ (a.leaving = true → actorBusy s n a = false → evictionWaits s l a = false → Does (.evEviction n name) s fun t => t.mem = s.mem
              ∧ ((∃ ch ∈ a.chans, ∃ m ∈ ch.queue, m.bad = true) → ended t n)
              ∧ ∃ b, getActor t n name = some b ∧ b.place = .parked ∧ b.evicted = true ∧ b.stubs = a.stubs ++ [coreNode a.core]
                ∧ (∀ ch ∈ b.chans, ch.queue = [])
                ∧ b.box.length = (a.chans.map fun ch => ch.queue.length).sum + a.box.length))
        ∧ (a.place = .parked → a.evicted = false → ∀ core, exec (.evRestore n name core) s = notPermitted "RESTORE")
        ∧ (a.place = .parked → a.evicted = true → ∀ core,
          let fits : Prop := core / 4096 = a.core / 4096 ∧ coreEnabled s core = true ∧ restorable s l a core = true
          let back (t : State) : Prop :=
            ∃ b, getActor t n name = some b ∧ b.place = .core ∧ b.core = core ∧ parkedNode (core / 4096) ∈ b.stubs
          (¬fits → exec (.evRestore n name core) s = notPermitted "RESTORE")
          ∧ (∀ b ∈ l.actors, b.name ≠ name → b.core = core → b.place = .parked → ∀ k, k < a.zrows → b.owns (a.zbase + k) = true →
              rowSaved s l.id b (a.zbase + k) = false → exec (.evRestore n name core) s = notPermitted "RESTORE")
          ∧ (core = a.core →
              let held : Prop := ∃ f ∈ regionFrames s l.ctx a, frameHeld s core l.ctx f = true
                ∨ ((oldSaved s l core f).isSome = true ∧ frameMine s l.ctx core f = true)
              (held → exec (.evRestore n name core) s = notPermitted "RESTORE") ∧ (fits → ¬held → Does (.evRestore n name core) s back))
          ∧ (core ≠ a.core →
            (regionPieces s l.ctx core a.base.toNat a.size = none → exec (.evRestore n name core) s = notPermitted "RESTORE")
            ∧ ∀ ps, regionPieces s l.ctx core a.base.toNat a.size = some ps →
              let free (f : Nat) : Prop := frameHeld s core l.ctx f = false ∧ (∀ v ∈ (getCore s core).frames, v.unit ≠ f)
                ∧ (frameMine s l.ctx core f = true → oldFrame s l a.core f = none)
              ((∃ f ∈ pieceFrames ps, ¬free f) → exec (.evRestore n name core) s = notPermitted "RESTORE")
              ∧ (fits → (∀ f ∈ pieceFrames ps, free f) → Does (.evRestore n name core) s fun t => back t
                  ∧ (∀ k, k < a.zrows → let r := actorRow s n a (a.zbase + k)
                      rowValue (getCore t core) (a.zbase + k) = r.1
                      ∧ (r.2 = true → a.zbase + k ∈ (getCore t core).badRows ∧ ended t n))
                  ∧ ∀ p, ps = [p] → s.inv →
                    let f := p.1 % 0x80000 / 16384
                    (oldFrame s l a.core f = none → t.mem = s.mem)
                    ∧ (∀ r, oldFrame s l a.core f = some r → frameTagged t core f l.ctx = true
                        ∧ (∀ k b, r.bytes[k]? = some b → memByte t.mem (frameBase core f + k) = b)
                        ∧ ∀ b ∈ r.bad, frameBase core f / 64 + b ∈ t.poisoned)
                    ∧ (s.savedFrames = [] → frameMine s l.ctx a.core f = true → ∀ k, k < 16384 →
                        memByte t.mem (frameBase core f + k) = memByte s.mem (frameBase a.core f + k)))))

/-! ### Debugging, boot and power -/

/-- 14 R344 to R346, 05 R120, R121: with a debugger attached, HALT masks an actor's dispatch, its activation halts at the next
boundary, RESUME and STEP let it go on, a breakpoint halts it before its address, READ and WRITE reach the registers of the
halted slot, EXEC runs up to 16 words in it, and DETACH clears every breakpoint, resumes every actor and ends every step. A halt gives
back the token that its instruction held (10 R246). In a word of debug execution P is the pc of the halted activation, and where a jump
or a branch goes is dropped: the model's choice, log 68.
The model's readings in it: log 24, 46, 68, 72, 73, 76 and 83. -/
def Obligations.DebugEvents : Prop :=
  ∀ (s : State) (n : Nat) (l : Launch), getLaunch s n = some l →
    let on : Prop := l.attached = true ∧ l.phase ≠ .ended
    let goes (x : Slot) : Slot :=
      { x with status := .running, inDebug := false, dbgWords := [], stall := none, passBreak := true, active := false, nextReg := 0 }
    let halts (c : Nat) (i : Fin 4) (x : Slot) (cause tval : Nat) (t : State) : Prop :=
      getSlot t c i = { x with status := .halted, stall := none, passBreak := false, card := none, token := none,
                               cause := BitVec.ofNat 8 cause, epc := x.pc, tval := BitVec.ofNat 64 tval }
      ∧ OtherSlots s t c i ∧ t.mem = s.mem ∧ ∀ q, q ∈ t.tokens ↔ q ∈ s.tokens ∧ (getSlot s c i).token ≠ some q
    Commands (.evDebuggerAttach n) "DEBUGGER_ATTACH" s (l.granted = true ∧ l.phase ≠ .ended)
      (fun t => getLaunch t n = some { l with attached := true } ∧ t.cores = s.cores ∧ t.mem = s.mem)
    ∧ (∀ name a, l.actor name = some a →
      Commands (.evHalt n name) "HALT" s on (fun t => getActor t n name = some { a with halted := true } ∧ t.cores = s.cores)
      ∧ Commands (.evResume n name) "RESUME" s on (fun t =>
          getActor t n name = some { a with halted := false }
          ∧ (haltedSlot s n name = none → t.cores = s.cores)
          ∧ ∀ c i, haltedSlot s n name = some (c, i) → getSlot t c i = goes (getSlot s c i) ∧ OtherSlots s t c i)
      ∧ ∀ c i, haltedSlot s n name = some (c, i) →
          let x := getSlot s c i
          Commands (.evStep n name) "STEP" s on (fun t => t = setSlot s c i { goes x with oneStep := true })
          ∧ (∀ words : List (BitVec 32), Commands (.evExec n name words) "EXEC" s (on ∧ 1 ≤ words.length ∧ words.length ≤ 16)
              (fun t => t = setSlot s c i { x with
                status := .running, stall := none, inDebug := true, dbgWords := words, active := false, nextReg := 0 }))
          ∧ (∀ q, Commands (.evRead n name (.x q)) "READ" s (on ∧ q < 32)
              (fun t => t = { s with dbgOut := (x.settle.getX q).setWidth 512 }))
          ∧ (∀ q, Commands (.evRead n name (.v q)) "READ" s (on ∧ q < 32) (fun t => t = { s with dbgOut := x.settle.getV q }))
          ∧ (∀ q, Commands (.evRead n name (.k q)) "READ" s (on ∧ q < 8)
              (fun t => t = { s with dbgOut := (x.settle.getK q).setWidth 512 }))
          ∧ (∀ q v, Commands (.evWrite n name (.x q) v) "WRITE" s (on ∧ q < 32) fun t => OtherSlots s t c i ∧ t.mem = s.mem
              ∧ ∀ r, r < 32 → (getSlot t c i).getX r = if r = q ∧ q ≠ 0 then v.setWidth 64 else x.settle.getX r)
          ∧ ∀ v, Commands (.evWrite n name (.csr 0xC0D) v) "WRITE" s on
              (fun t => t = setSlot s c i { x.settle with epc := v.setWidth 64, pc := v.setWidth 64 }))
    ∧ (∀ c k (addr : Word) name, Commands (.evBreak n c k addr name) "BREAK" s (on ∧ k < 4) (fun t =>
        findBy (·.n) k (getCore t c).breaks = some ⟨k, addr, n, name⟩
        ∧ (∀ q, q ≠ k → findBy (·.n) q (getCore t c).breaks = findBy (·.n) q (getCore s c).breaks) ∧ t.mem = s.mem))
    ∧ (∀ c k, Commands (.evUnbreak n c k) "UNBREAK" s (on ∧ k < 4) (fun t =>
        (∀ b, b ∈ (getCore t c).breaks ↔ b ∈ (getCore s c).breaks ∧ ¬(b.n = k ∧ b.launch = n)) ∧ t.mem = s.mem))
    ∧ (∀ c i, let x := getSlot s c i
        Occurs (.evHaltreq c i) "HALTREQ" s
          (clocksRun s = true ∧ (∃ a, getActor s x.launch x.actor = some a ∧ a.halted = true) ∧ x.status = .running
            ∧ x.inDebug = false ∧ x.oneStep = false ∧ x.active = false ∧ x.claimed = false ∧ x.stall ≠ some .tagWait
            ∧ x.accs = [] ∧ x.locals = [] ∧ x.mats = [])
          (halts c i x 0x0D 0)
        ∧ ∀ b, reached (getCore s c) x = some b → Occurs (.evBreakpoint c i) "BREAKPOINT" s
          (clocksRun s = true ∧ x.status = .running ∧ x.inDebug = false ∧ x.passBreak = false ∧ x.active = false)
          (halts c i { x with oneStep := false } 0x0C (0x100 + b.n)))
    ∧ Commands (.evDetach n) "DETACH" s on (fun t =>
        (∃ x, getLaunch t n = some x ∧ x.attached = false ∧ ∀ a ∈ x.actors, a.halted = false ∧ a.firstHalt = false)
        ∧ (∀ c, ∀ b ∈ (getCore t c).breaks, b.launch ≠ n)
        ∧ ∀ c i, let x := getSlot s c i
          x.launch = n →
            (x.status = .halted → x.inDebug = false → getSlot t c i = { goes x with oneStep := false })
            ∧ (x.status = .running → x.inDebug = false → getSlot t c i = { x with oneStep := false })
            ∧ (x.status = .running → x.inDebug = true → getSlot t c i = { goes x with
                card := none, claimed := false, oneStep := false, token := none }))
    ∧ (s.cur.inDebug = true → ∀ (imm : BitVec 20) (imm' : BitVec 13) (off : BitVec 12) (a b d : BitVec 5),
        let stays (i : Instr) (srcs dsts : List RegRef) (x : Slot) : Prop := canIssue s srcs dsts = true →
          Does i s fun t => Retires s t 0 0 x ∧ t.cur.pc = s.cur.pc
        let t := s.found.rx a + imm'.signExtend 64
        let link := s.found.writeFix (xr d) (ofWord (s.cur.pc + 4)) 1
        stays (.jal imm d) [] [xr d] link ∧ (t.toNat % 4 = 0 → stays (.jalr imm' a d) [xr a] [xr d] link)
        ∧ (t.toNat % 4 ≠ 0 → canIssue s [xr a] [xr d] = true → Traps (.jalr imm' a d) s 0x03 t)
        ∧ stays (.auipc imm d) [] [xr d] (s.found.writeFix (xr d) (ofWord (s.cur.pc + imm.signExtend 64 * 2 ^ 12)) 1)
        ∧ ∀ i ∈ [Instr.beq off b a, .bne off b a, .blt off b a, .bge off b a, .bltu off b a, .bgeu off b a],
            stays i [xr a, xr b] [] s.found)

/-- 15 R348 to R352, R355, R360, R361, R341, 13 R327: a reset boots the preferred set where its firmware image is valid, else the
other, else reports BOOTFAIL; the firmware stands at its load address; memory, cores and launches are as at reset, flash, MINSVN and the
music box are kept; the module joins the tree, with generation 1; it comes up in P0, or in P1 while the coolant is poor. BOOTSEL
rewrites the boot record; MINSVN never rises beyond the lowest SVN; a quote is 240 bytes; an update writes only the other set. A trip
holds all of these writes back (R359). A cluster that has not failed is enabled.
The model's readings in it: log 3, 6, 7, 47, 48 and 94. -/
def Obligations.BootEvents : Prop :=
  ∀ (s : State),
    (Does .evReset s fun t =>
      let pref := if flashByte s.boot 0x1FFF0000 = 0xB5 then 2 else 1
      let firmware (set : Nat) : Prop := imageValid s.boot set (if set = 2 then 0x10000000 else 0) 1 = true
      let clk := t.power.clk
      t.mem = [] ∧ t.cores = [] ∧ t.launches = [] ∧ t.contexts = [] ∧ t.descs = [] ∧ t.keys = [] ∧ t.pairs = []
      ∧ t.boot.flash = s.boot.flash ∧ t.boot.minsvn = s.boot.minsvn ∧ t.power.cap = 3400
      ∧ (s.power.coolant = false → t.power.state = 0 ∧ clk = 1000)
      ∧ (s.power.coolant = true → t.power.state = 1 ∧ 250 ≤ clk ∧ clk ≤ 1000 ∧ clk % 25 = 0)
      ∧ (firmware pref → t.boot.booted = pref) ∧ (¬firmware pref → firmware (3 - pref) → t.boot.booted = 3 - pref)
      ∧ (¬firmware pref → ¬firmware (3 - pref) → t.boot.state = .bootfail)
      ∧ (firmware pref → let base := if pref = 2 then 0x10000000 else 0
          flashNat s.boot (base + 16) 8 ≠ 0 → (flashNat s.boot (base + 16) 8,
            (List.range (flashNat s.boot (base + 12) 4)).map fun k => flashByte s.boot (base + 128 + k)) ∈ t.boot.loaded)
      ∧ (t.boot.state = .running → t.generation = 1
          ∧ ∀ c, clusterOf c % 32 ∉ (getDie s (dieOf c)).failed → coreEnabled t c = true)
      ∧ ((∀ e, e < 4 → (getDie s e).failed = []) →
          (t.boot.state = .running → Recorded s t 0 0xB 1)
          ∧ ∀ d, d < 4 → (getDie t d).rto = 64 ∧ (getDie t d).tthr = 512 ∧ (getDie t d).sel = 0
            ∧ ((t.boot.state ≠ .running ∨ d ≠ 0) → (getDie t d).ring = (getDie s d).ring ∧ (getDie t d).head = (getDie s d).head)))
    ∧ (∀ v : BitVec 64, Occurs (.evBootsel v) "BOOTSEL" s (s.boot.state = .running) fun t =>
        let on : Prop := s.power.trip = false
        (on → v.toNat % 4 = 1 → t.boot.pref = 1 ∧ flashByte t.boot 0x1FFF0000 ≠ 0xB5)
        ∧ (on → v.toNat % 4 = 2 → t.boot.pref = 2 ∧ flashByte t.boot 0x1FFF0000 = 0xB5)
        ∧ ((¬on ∨ v.toNat % 4 = 0 ∨ v.toNat % 4 = 3) → t = s)
        ∧ ∀ a, a ≠ 0x1FFF0000 → flashByte t.boot a = flashByte s.boot a)
    ∧ (∀ n, Occurs (.evMinsvnRaise n) "MINSVN_RAISE" s (s.boot.state = .running) fun t =>
        let ok : Prop := s.power.trip = false ∧ s.boot.minsvn < n ∧ ∀ v ∈ s.boot.svns, s.boot.minsvn < v ∧ n ≤ v
        (ok → t = { s with boot := { s.boot with minsvn := n } }) ∧ (¬ok → t = s))
    ∧ (∀ nonce : BitVec 256, Commands (.evQuoteRequest nonce) "QUOTE_REQUEST" s True fun t =>
        (s.boot.svns.length = 3 → t.boot.quote.length = 240)
        ∧ t.boot.quote.take 32 = toBytes nonce.toNat 32
        ∧ t.boot.quote.drop (quoteBody s nonce).length
            = toBytes (Config.ed25519Sign (identitySeed s.boot) (quoteBody s nonce)).toNat 64
        ∧ t.mem = s.mem)
    ∧ ∀ offset (bytes : List Byte),
        let low := if s.boot.booted = 1 then 0x10000000 else 0
        (s.boot.booted = 1 ∨ s.boot.booted = 2) →
        Occurs (.evFirmwareUpdate offset bytes) "FIRMWARE_UPDATE" s (s.boot.state = .running ∧ low ≤ offset
            ∧ offset + bytes.length ≤ low + (if s.boot.booted = 1 then 0xFFF0000 else 0x10000000)) fun t =>
          (s.power.trip = true → t = s)
          ∧ (s.power.trip = false → ∀ k (b : Byte), bytes[k]? = some b → flashByte t.boot (offset + k) = b)
          ∧ (∀ a, (a < offset ∨ offset + bytes.length ≤ a) → flashByte t.boot a = flashByte s.boot a) ∧ t.mem = s.mem

/-- 15 R356 to R360: a request for another power state is refused while a transition or a trip is under way and from a state
that has no such transition; it else begins, and clears REFUSED; the clock moves in steps of 25 MHz to its goal; P2 waits until no
context runs; P3 keeps only the music box and flash. A new CAP sets another clock in P1, where the firmware also lowers it. A sensor
at 105 degrees stops the clocks in one step; only a write of 1 to TRIP, with every sensor below 95, ends that. A poor coolant
flow keeps the module in P1, with a cap of its own.
The model's readings in it: log 7, 48 and 95. -/
def Obligations.PowerEvents : Prop :=
  ∀ (s : State),
    let p := s.power
    let set (p' : Power) : State := { s with power := p' }
    let slow (clk : Nat) : Prop := 250 ≤ clk ∧ clk ≤ 1000 ∧ clk % 25 = 0
    let R (i : Instr) (event : String) (ok : Prop) (P : State → Prop) : Prop :=
      (s.boot.state = .bootfail → exec i s = notPermitted event)
      ∧ (s.boot.state ≠ .bootfail → Does i s fun t =>
          ((p.trip = true ∨ p.moving.isSome = true ∨ ¬ok) → t = set { p with refused := true })
          ∧ (p.trip = false → p.moving = none → ok → P t))
    let begins (req : Nat) (m : PowerMove) (goal : Nat → Prop) (t : State) : Prop := ∃ g, goal g
      ∧ t = { s with power := { p with req := req, moving := some m, goal := g, refused := false }, free := s.free + 1 }
    R .evPctlReqP0 "PCTL_REQ_P0" (p.state = 3 ∨ p.state = 2 ∨ (p.state = 1 ∧ p.coolant = false))
      (fun t => (p.state = 3 → t.mem = [] ∧ t.cores = [] ∧ t.boot.flash = s.boot.flash
          ∧ t.power.state = if p.coolant then 1 else 0)
        ∧ (p.state ≠ 3 → if p.coolant then begins 0 .toP1 slow t else begins 0 .toP0 (· = 1000) t))
    ∧ R .evPctlReqP1 "PCTL_REQ_P1" (p.state = 0 ∨ p.state = 2) (begins 1 .toP1 slow)
    ∧ R .evPctlReqP2 "PCTL_REQ_P2" (p.state = 0 ∨ p.state = 1) (begins 2 .toP2 (· = 0))
    ∧ R .evPctlReqP3 "PCTL_REQ_P3" (p.state = 2) (fun t => t.mem = [] ∧ t.cores = [] ∧ t.launches = [] ∧ t.keys = []
        ∧ t.boot.flash = s.boot.flash ∧ t.power.state = 3 ∧ t.power.clk = 0 ∧ t.power.refused = false
        ∧ t.dies.map (·.ring) = s.dies.map (·.ring))
    ∧ (∀ cap, Occurs (.evPctlCap cap) "PCTL_CAP" s (s.boot.state ≠ .bootfail) fun t =>
        let again : Prop := p.moving = some .toP1 ∨ (p.state = 1 ∧ p.moving = none)
        ((p.trip = true ∨ cap < 800 ∨ 3400 < cap) → t = s)
        ∧ (p.trip = false → 800 ≤ cap → cap ≤ 3400 →
            (again → ∃ g, slow g ∧ t = { s with power := { p with cap := cap, moving := some .toP1, goal := g }, free := s.free + 1 })
            ∧ (¬again → t = set { p with cap := cap })))
    ∧ (clocksRun s = true → (p.moving = some .toP0 ∨ p.moving = some .toP1) → p.clk ≠ p.goal →
        runMove s .clockStep = .next (set { p with
          clk := if p.clk < p.goal then min p.goal (p.clk + 25) else max p.goal (p.clk - 25) }))
    ∧ (clocksRun s = true → p.state = 1 → p.moving = none → 275 ≤ p.clk →
        runMove s (.host .overCap) = .next (set { p with clk := p.clk - 25, goal := p.clk - 25 }))
    ∧ Occurs .evTransitionComplete "TRANSITION_COMPLETE" s
        (p.trip = false ∧ p.moving.isSome = true ∧ (p.moving = some .toP2 → ∀ c ∈ s.contexts, c.running = false)
          ∧ (p.moving ≠ some .toP2 → p.state = 2 ∨ p.clk = p.goal)) (fun t =>
          (p.moving = some .toP0 → t = set { p with moving := none, state := 0, clk := p.goal })
          ∧ (p.moving = some .toP1 → t = set { p with moving := none, state := 1, clk := p.goal })
          ∧ (p.moving = some .toP2 → t = set { p with moving := none, state := 2, clk := 0 }))
    ∧ (∀ n, Occurs (.evThermalTrip n) "THERMAL_TRIP" s
        (n < 20 ∧ 105 ≤ reading s n ∧ p.trip = false ∧ p.state ≠ 3 ∧ s.boot.state = .running) fun t =>
        t.power = { p with trip := true, state := 2, clk := 0, goal := 0, moving := none, alert := true } ∧ clocksRun t = false
        ∧ t.cores = s.cores ∧ t.mem = s.mem ∧ t.pairs = s.pairs
        ∧ Recorded s t (if n < 16 then n / 4 else 0) 0xA (BitVec.ofNat 64 n))
    ∧ Occurs .evTrip "TRIP" s (s.boot.state ≠ .bootfail) (fun t =>
        ((∀ x ∈ p.hot, x.2 < 95) → t = set { p with trip := false, alert := false }) ∧ ((∃ x ∈ p.hot, 95 ≤ x.2) → t = s))
    ∧ Occurs .evRefused "REFUSED" s (s.boot.state ≠ .bootfail) (fun t =>
        (p.trip = true → t = s) ∧ (p.trip = false → t = set { p with refused := false }))
    ∧ ∀ flow inlet, Occurs (.evCoolantLimit flow inlet) "COOLANT_LIMIT" s
        (s.boot.state = .running ∧ (flow < 3 ∨ 40 < inlet)) fun t =>
        (p.trip = true → t = s)
        ∧ (p.trip = false → t = { s with power := t.power, free := t.free } ∧ t.power.coolant = true
          ∧ 800 ≤ t.power.limit ∧ t.power.limit ≤ 3400 ∧ t.power.cap = p.cap ∧ t.power.state = p.state ∧ t.power.clk = p.clk
          ∧ ((p.moving = none ∧ (p.state = 0 ∨ p.state = 1)) → t.power.moving = some .toP1 ∧ slow t.power.goal)
          ∧ ((p.moving = some .toP0 ∨ p.moving = some .toP1) → t.power.moving = some .toP1 ∧ slow t.power.goal)
          ∧ (p.moving = some .toP2 → t.power.moving = p.moving ∧ t.power.goal = p.goal))

/-! ### The whole machine -/

/-- 15 R351, 01 R22, R36, 13 R324, R325, 14 R343, 15 R357: the values that the specification gives the machine after reset.
Every other register of a slot is 0 at reset, which is the model's choice (log 2); so it is that DRAM and its descriptors read as
0 (log 3). -/
def Obligations.ResetState : Prop :=
  let s := State.reset
  s.inv
  ∧ (∀ a, memByte s.mem a = 0) ∧ (∀ pa, descOf s pa = 0) ∧ (∀ n, keyValue s n = 0)
  ∧ (∀ c n, rowValue (getCore s c) n = 0) ∧ (∀ c i, (getSlot s c i).status = .free ∧ (getSlot s c i).fflags = 0)
  ∧ (∀ c i, let x := getSlot s c i
      x.x = Vector.replicate 32 0 ∧ x.v = Vector.replicate 32 0 ∧ x.k = Vector.replicate 8 0
      ∧ x.pc = 0 ∧ x.epc = 0 ∧ x.tval = 0 ∧ x.cause = 0 ∧ x.budget = 0)
  ∧ (∀ c, (getCore s c).seq = 0) ∧ (∀ c l, (getResident s c l).cmask = 0 ∧ (getResident s c l).busy = 0)
  ∧ (∀ d, let x := getDie s d
      x.rto = 64 ∧ x.tthr = 512 ∧ x.yper = 16 ∧ x.ydepth = 4 ∧ x.boff = 8 ∧ x.sel = 0
      ∧ (∀ n, (getPort x n).trims = 0 ∧ (getPort x n).retx = 0 ∧ (getPort x n).defers = 0) ∧ x.tasks = [] ∧ x.walks = [])
  ∧ s.power.cap = 3400 ∧ s.power.req = 0 ∧ s.power.clk = 1000 ∧ s.power.state = 0 ∧ s.power.moving = none
  ∧ s.power.trip = false ∧ s.power.refused = false ∧ s.boot.meas = 0 ∧ s.launches = [] ∧ s.contexts = []
  ∧ clocksRun s = true

/-- The model's memory keeps its one canonical form: addresses rise strictly and no byte listed is 0, so that equal memories are
equal data (the model's choice, log 3). Every step from every state that has it keeps it. -/
def Obligations.MemoryStaysCanonical : Prop :=
  ∀ s t : State, s.inv → step s = .next t → t.inv

/-- 04 R88: a magnitude of m parts of 2^n is rounded to k wholes as the mode has it: to nearest with ties to even or away from
zero, toward zero, down or up; it is inexact unless it is whole. A finite value that a format holds is itself again.
04 R78, R79, R88, R89, 06 R129, R130: the arithmetic of FP32. A result is the exact value rounded once, with the flags of that
rounding; an exact zero takes its sign from its terms, or is −0 toward −infinity and else +0; a NaN result is the canonical NaN, with NV
where an operand is signalling or the operation has no value; a quotient of a non-zero number by zero is an infinity with DZ.
04 R97, R98, R101, R102, R391: an XF element's two fields, a number made an XF element by halvings to the nearest even until it fits, the
addition of two XF elements (each doubled until its mantissa is full, then brought to the larger exponent, rounded), and a reduction
home's cell after an arrival: each of its eight elements with its own sum added. -/
def Obligations.RoundingModes : Prop :=
  ((∀ (mode : Nat) (neg : Bool) (m n : Nat) (e : Int), 0 < n →
     let r := roundAt mode neg m e (e + n)
     let k := r.1
     let u := 2 ^ n
     let down : Prop := k * u ≤ m ∧ m < (k + 1) * u
     let up : Prop := m ≤ k * u ∧ k * u < m + u
     (r.2 = true ↔ m % u ≠ 0)
     ∧ (mode = 0 → 2 * (k * u) ≤ 2 * m + u ∧ 2 * m ≤ 2 * (k * u) + u
         ∧ (2 * (k * u) = 2 * m + u ∨ 2 * m = 2 * (k * u) + u → k % 2 = 0))
     ∧ (mode = 1 → down) ∧ (mode = 2 → if neg then up else down) ∧ (mode = 3 → if neg then down else up)
     ∧ (mode = 4 → 2 * (k * u) ≤ 2 * m + u ∧ 2 * m < 2 * (k * u) + u))
   ∧ (∀ (mode : Nat) (neg : Bool) (m n : Nat) (e : Int), roundAt mode neg m e (e - n) = (m * 2 ^ n, false))
   ∧ ∀ (f : FFmt) (mode b : Nat), (f = fmtFP32 ∨ f = fmtFP16 ∨ f = fmtBF16) → b < 2 ^ (1 + f.eb + f.fb) →
       (fdecode f b).isNan = false → fencode f mode (fdecode f b) = (b, 0))
  ∧ (let f := fmtFP32
     let nan : Nat := 0x7FC00000
     let sg := f.sign
     let u := f.units
     let zero (neg : Bool) : Nat × FFlags := (f.withSign neg 0, 0)
     let inf (neg : Bool) : Nat × FFlags := (f.withSign neg 0x7F800000, 0)
     let isZero (b : Nat) : Prop := b % 2 ^ 31 = 0
     let quiet (bad : Prop) (r : Nat × FFlags) : Prop := (bad → r = (nan, flagNV)) ∧ (¬bad → r = (nan, 0))
     (∀ (g : FFmt) (mode m : Nat) (neg : Bool) (e : Int), (g = fmtFP32 ∨ g = fmtFP16 ∨ g = fmtBF16) → mode ≤ 4 → m ≠ 0 →
       RoundsRatio g mode neg m 1 e (fencode g mode (.fin neg m e)))
     ∧ ∀ (mode a b c : Nat), mode ≤ 4 → a < 2 ^ 32 → b < 2 ^ 32 → c < 2 ^ 32 →
       let sum := fadd32 mode a b
       let product := fmul32 mode a b
       let quotient := fdiv32 mode a b
       let root := fsqrt32 mode a
       (f.isFin a → f.isFin b →
         (u a + u b ≠ 0 → RoundsInt f mode (u a + u b) (-149) sum)
         ∧ (u a + u b = 0 → sum = zero (if isZero a ∧ a = b then sg a else mode == 2))
         ∧ (u a * u b ≠ 0 → RoundsInt f mode (u a * u b) (-298) product)
         ∧ (u a * u b = 0 → product = zero (sg a != sg b))
         ∧ (¬isZero a → ¬isZero b → RoundsRatio f mode (sg a != sg b) (f.mag a) (f.mag b) 0 quotient)
         ∧ (isZero a → ¬isZero b → quotient = zero (sg a != sg b))
         ∧ (¬isZero a → isZero b → quotient = ((inf (sg a != sg b)).1, flagDZ))
         ∧ (isZero a → isZero b → quotient = (nan, flagNV)))
       ∧ (f.isInf a → f.isFin b → sum = inf (sg a) ∧ quotient = inf (sg a != sg b)
           ∧ product = if isZero b then (nan, flagNV) else inf (sg a != sg b))
       ∧ (f.isFin a → f.isInf b → sum = inf (sg b) ∧ quotient = zero (sg a != sg b)
           ∧ product = if isZero a then (nan, flagNV) else inf (sg a != sg b))
       ∧ (f.isInf a → f.isInf b → quotient = (nan, flagNV) ∧ product = inf (sg a != sg b)
           ∧ sum = if a = b then inf (sg a) else (nan, flagNV))
       ∧ ((f.isNan a ∨ f.isNan b) → ∀ r ∈ [sum, product, quotient], quiet (f.isSnan a ∨ f.isSnan b) r)
       ∧ fsub32 mode a b = fadd32 mode a (b ^^^ 2 ^ 31)
       ∧ (isZero a → root = zero (sg a)) ∧ (a = 0x7F800000 → root = inf false) ∧ (f.isNan a → quiet (f.isSnan a) root)
       ∧ (¬isZero a → ¬f.isNan a → sg a = true → root = (nan, flagNV))
       ∧ (¬isZero a → f.isFin a → sg a = false →
           RoundsTo f mode false (fun h => h * h ≤ f.mag a * 2 ^ 153) (fun h => f.mag a * 2 ^ 153 ≤ h * h) root)
       ∧ (∀ isMax, let r := fminmax32 isMax a b
           let key (x : Nat) : Int := if 2 ^ 31 ≤ x then -(x - 2 ^ 31 : Nat) - 1 else x
           let nv : Prop := (f.isSnan a ∨ f.isSnan b → r.2 = flagNV) ∧ (¬(f.isSnan a ∨ f.isSnan b) → r.2 = 0)
           (f.isNan a → f.isNan b → r.1 = nan ∧ nv) ∧ (f.isNan a → ¬f.isNan b → r.1 = b ∧ nv) ∧ (¬f.isNan a → f.isNan b → r.1 = a ∧ nv)
           ∧ (¬f.isNan a → ¬f.isNan b → r = (if isMax = true then (if key a ≤ key b then b else a) else if key a ≤ key b then a else b, 0)))
       ∧ ∀ negP negC,
         let r := fma32 negP negC mode a b c
         let sp := (sg a != sg b) != negP
         let sc := sg c != negC
         let p : Int := if negP then -(u a * u b) else u a * u b
         let t : Int := p + 2 ^ 149 * (if negC then -u c else u c)
         let invalid : Prop := (f.isInf a ∧ isZero b) ∨ (isZero a ∧ f.isInf b)
         let wide : Prop := (f.isInf a ∨ f.isInf b) ∧ ¬invalid ∧ ¬f.isNan a ∧ ¬f.isNan b
         (f.isFin a → f.isFin b → f.isFin c → (t ≠ 0 → RoundsInt f mode t (-298) r)
           ∧ (t = 0 → r = zero (if p = 0 ∧ sp = sc then sp else mode == 2)))
         ∧ (f.isFin a → f.isFin b → f.isInf c → r = inf sc)
         ∧ (wide → f.isFin c → r = inf sp) ∧ (wide → f.isInf c → r = if sp = sc then inf sp else (nan, flagNV))
         ∧ (invalid → r = (nan, flagNV))
         ∧ (¬invalid → (f.isNan a ∨ f.isNan b ∨ f.isNan c) → quiet (f.isSnan a ∨ f.isSnan b ∨ f.isSnan c) r))
  ∧ (let lim : Nat := 2 ^ 47 - 1
     let largest (m : Int) : XF := ⟨if m < 0 then -lim else lim, 32767⟩
     let nearest (m : Int) (n : Nat) (k : Int) : Prop :=
       2 * (k * 2 ^ n - m).natAbs ≤ 2 ^ n ∧ (2 * (k * 2 ^ n - m).natAbs = 2 ^ n → k % 2 = 0)
     let isNorm (a r : XF) : Prop := ∃ n : Nat, r = ⟨a.m * 2 ^ n, a.e - n⟩ ∧ -32768 ≤ r.e ∧ (a.m = 0 → n = 0)
       ∧ (a.m ≠ 0 → 2 ^ 46 ≤ r.m.natAbs ∨ r.e = -32768) ∧ (n ≠ 0 → a.m.natAbs * 2 ^ (n - 1) < 2 ^ 46)
     let fits (a : XF) : Prop := (a.m.natAbs ≤ lim ∨ a.m = -2 ^ 47) ∧ -32768 ≤ a.e ∧ a.e ≤ 32767
     (∀ m k : Int, (lim < m.natAbs ∨ k < -32768 → ∃ h, nearest m 1 h ∧ toXF m k = toXF h (k + 1))
       ∧ (m.natAbs ≤ lim → -32768 ≤ k → toXF m k = if m = 0 then ⟨0, 0⟩ else if 32767 < k then largest m else ⟨m, k⟩))
     ∧ (∀ a b : XF, fits a → fits b →
       (a.m = -2 ^ 47 ∨ b.m = -2 ^ 47 → xfAdd a b = ⟨-2 ^ 47, 32767⟩)
       ∧ (a.m ≠ -2 ^ 47 → b.m ≠ -2 ^ 47 → (a.m = 0 → isNorm b (xfAdd a b)) ∧ (a.m ≠ 0 → b.m = 0 → isNorm a (xfAdd a b))
         ∧ (a.m ≠ 0 → b.m ≠ 0 → ∃ p q x y s E, isNorm a p ∧ isNorm b q
           ∧ nearest p.m (max p.e q.e - p.e).toNat x ∧ nearest q.m (max p.e q.e - q.e).toNat y
           ∧ (if lim < (x + y).natAbs then nearest (x + y) 1 s ∧ E = max p.e q.e + 1 else s = x + y ∧ E = max p.e q.e)
           ∧ (s = 0 → xfAdd a b = ⟨0, 0⟩) ∧ (s ≠ 0 → 32767 < E → xfAdd a b = largest s)
           ∧ (s ≠ 0 → E ≤ 32767 → isNorm ⟨s, E⟩ (xfAdd a b)))))
     ∧ (∀ (w : Nat) (a : XF), xfDecode w = ⟨(BitVec.ofNat 48 w).toInt, (BitVec.ofNat 16 (w / 2 ^ 48)).toInt⟩
       ∧ (xfEncode a : Int) = a.m % 2 ^ 48 + 2 ^ 48 * (a.e % 2 ^ 16))
     ∧ ∀ (cell w0 w1 : Vec) (j : Nat), j < 8 →
       let part (v : Vec) : Nat := v.toNat / 2 ^ (64 * j) % 2 ^ 64
       part (reduceCell cell w0 w1)
         = xfEncode (xfAdd (xfDecode (part cell)) (toXF (BitVec.ofNat 64 (part w0)).toInt (BitVec.ofNat 16 w1.toNat).toInt)))

/-- 04 R81 to R84, R91, R93, R95 to R98, R100, 06 R137 to R142, 09 R207, R208: what becomes of single elements. A conversion rounds the
exact value once; to an integer it rounds to a whole number and clamps, with NV outside the range; a narrower integer saturates. A
typed block's elements decode to the value of their format, and encode to it: DX codes to the nearest of both exponents where the mode
is to nearest. A merge of ascending lists gives their sorted union or intersection with the origins. A product row adds
each product in ascending order, rounded once where the accumulator is FP32; a binary row adds one population count.
04 R92 to R94, R99, 09 R210: an MLOAD's element enters FP32 rounded once, XF exactly and INT32 with its sign. A block that an
MSTORE writes holds its elements rounded once, or clamped to INT8; its descriptor is the format. A DX block takes its
exponent from its largest magnitude and each code is the nearest, the high exponent and an even code where two are as near; with a NaN
or an infinity among them it is the NaN block of codes 0.
The model's readings in it: log 89 (a NaN stored or loaded as FP32 is the canonical one). -/
def Obligations.ElementOperations : Prop :=
  let bitsOf (w : Nat) (v : Int) : Nat := (BitVec.ofInt w v).toNat
  let clamp (lo hi v : Int) : Int := max lo (min hi v)
  let floating (src dst : FFmt) (mode b : Nat) (r : Nat × FFlags) : Prop :=
    let s := src.sign b
    (src.isFin b → if src.mag b = 0 then r = (dst.withSign s 0, 0) else RoundsRatio dst mode s (src.mag b) 1 src.unit r)
    ∧ (src.isInf b → r = (dst.withSign s ((2 ^ dst.eb - 1) * 2 ^ dst.fb), 0))
    ∧ (src.isNan b → r.1 = (2 ^ dst.eb - 1) * 2 ^ dst.fb + 2 ^ (dst.fb - 1)
        ∧ (src.isSnan b → r.2 = flagNV) ∧ (¬src.isSnan b → r.2 = 0))
  let whole (dst : FFmt) (mode : Nat) (v : Int) (r : Nat × FFlags) : Prop := if v = 0 then r = (0, 0) else RoundsInt dst mode v 0 r
  let toWhole (src : FFmt) (mode b w : Nat) (lo hi : Int) (r : Nat × FFlags) : Prop :=
    let k := roundAt mode (src.sign b) (src.mag b) src.unit 0
    let v : Int := if src.sign b then -(k.1 : Int) else k.1
    (src.isNan b → r = (0, flagNV))
    ∧ (src.isInf b → r = (bitsOf w (if src.sign b then lo else hi), flagNV))
    ∧ (src.isFin b → r = (bitsOf w (clamp lo hi v), if lo ≤ v ∧ v ≤ hi then flagIf k.2 flagNX else flagNV))
  let dxUnit (fmt : Nat) (E : Int) : Int := if fmt = 4 then E - 9 else E - 2
  let dxMag (fmt c : Nat) : Nat :=
    if fmt = 4 then (if c / 8 % 8 = 0 then c % 8 else (8 + c % 8) * 2 ^ (c / 8 % 8 - 1)) else if c % 4 = 0 then 0 else 2 ^ (c % 4 - 1)
  let dxExp (fmt : Nat) (desc : Nat) (c : Nat) : Int :=
    desc / 256 % 256 - 127 - if c / (if fmt = 4 then 128 else 8) % 2 = 1 then (desc % 16 : Nat) + 1 else 0
  let dxNeg (fmt c : Nat) : Bool := c / (if fmt = 4 then 64 else 4) % 2 == 1
  let dxTo (dst : FFmt) (mode fmt desc e : Nat) (r : Nat × FFlags) : Prop :=
    (desc / 256 % 256 = 255 → r = ((2 ^ dst.eb - 1) * 2 ^ dst.fb + 2 ^ (dst.fb - 1), 0))
    ∧ (desc / 256 % 256 ≠ 255 → if dxMag fmt e = 0 then r = (dst.withSign (dxNeg fmt e) 0, 0)
        else RoundsRatio dst mode (dxNeg fmt e) (dxMag fmt e) 1 (dxUnit fmt (dxExp fmt desc e)) r)
  (∀ (mode w x : Nat), mode ≤ 4 →
    (∀ p ∈ [(0, fmtFP32, fmtBF16), (1, fmtFP32, fmtFP16), (2, fmtBF16, fmtFP32), (3, fmtFP16, fmtFP32), (4, fmtBF16, fmtFP16),
        (5, fmtFP16, fmtBF16)], floating p.2.1 p.2.2 mode (x % 2 ^ (1 + p.2.1.eb + p.2.1.fb)) (convert p.1 mode w x))
    ∧ (∀ p ∈ [(6, 32, fmtFP32), (8, 64, fmtFP32), (14, 8, fmtFP32), (15, 8, fmtBF16)],
        whole p.2.2 mode (BitVec.ofNat p.2.1 x).toInt (convert p.1 mode w x))
    ∧ (∀ p ∈ [(7, 32), (9, 64)], whole fmtFP32 mode (x % 2 ^ p.2 : Nat) (convert p.1 mode w x))
    ∧ (∀ p ∈ [(10, -(2 ^ 31), 2 ^ 31 - 1), (11, 0, 2 ^ 32 - 1), (12, -(2 ^ 63), 2 ^ 63 - 1), (13, (0 : Int), (2 ^ 64 - 1 : Int))],
        toWhole fmtFP32 mode (x % 2 ^ 32) w p.2.1 p.2.2 (convert p.1 mode w x))
    ∧ convert 16 mode w x = (bitsOf w (clamp (-128) 127 (BitVec.ofNat 32 x).toInt), 0)
    ∧ convert 17 mode w x = (bitsOf w (clamp (-(2 ^ 31)) (2 ^ 31 - 1) (BitVec.ofNat 64 x).toInt), 0))
  ∧ (∀ (sl : Slot) (w : Width) (blk : Vec) (x : Word) (j : Nat), sl.frm.toNat ≤ 4 →
    let mode := sl.frm.toNat
    let dst := if w.bits = 16 then fmtBF16 else fmtFP32
    let fmt := x.toNat / 16 % 16
    let i := x.toNat / 2 ^ 16 % 512 + j
    let n := fmtBits fmt
    let e := blk.toNat / 2 ^ (n * i) % 2 ^ n
    let r := decodeElems sl w blk x j
    (512 / n ≤ i → r = (0, 0))
    ∧ (i < 512 / n → (fmt = 1 → floating fmtFP32 dst mode e r) ∧ (fmt = 2 → floating fmtBF16 dst mode e r)
      ∧ (fmt = 3 → floating fmtFP16 dst mode e r) ∧ (fmt = 6 → whole dst mode (BitVec.ofNat 8 e).toInt r) ∧ (fmt = 7 → whole dst mode e r)
      ∧ (fmt = 4 ∨ fmt = 5 → dxTo dst mode fmt x.toNat e r)))
  ∧ (∀ (src : FFmt) (mode fmt b : Nat) (desc : Desc), (src = fmtBF16 ∨ src = fmtFP32) → mode ≤ 4 → b < 2 ^ (1 + src.eb + src.fb) →
    let r := encodeElem mode fmt desc (fdecode src b)
    (fmt = 1 → floating src fmtFP32 mode b r) ∧ (fmt = 2 → floating src fmtBF16 mode b r) ∧ (fmt = 3 → floating src fmtFP16 mode b r)
    ∧ (fmt = 6 → toWhole src mode b 8 (-128) 127 r)
    ∧ (fmt = 7 → (src.isNan b → r = (0, flagNV)) ∧ (¬src.isNan b → r = (if src.sign b = false ∧ src.mag b ≠ 0 then 1 else 0, 0)))
    ∧ (fmt = 4 ∨ fmt = 5 →
      ((¬src.isFin b ∨ desc.toNat / 256 = 255) → r = (0, flagNV))
      ∧ (src.isFin b → desc.toNat / 256 ≠ 255 →
        let x : Int := src.mag b * 2 ^ (src.unit + 160).toNat
        let v (c : Nat) : Int := dxMag fmt c * 2 ^ (dxUnit fmt (dxExp fmt desc.toNat c) + 160).toNat
        let top := if fmt = 4 then 63 else 3
        let c := r.1 % (top + 1)
        let up : Prop := (mode = 3 ∧ src.sign b = false) ∨ (mode = 2 ∧ src.sign b = true)
        r.1 < 4 * (top + 1) ∧ dxNeg fmt r.1 = src.sign b
        ∧ (mode = 0 ∨ mode = 4 → ∀ c', c' < 4 * (top + 1) → (v r.1 - x).natAbs ≤ (v c' - x).natAbs)
        ∧ (up → x ≤ v r.1 ∨ c = top) ∧ (¬up → mode ≠ 0 → mode ≠ 4 → v r.1 ≤ x)
        ∧ ∃ nx of : Bool, r.2 = flagIf nx flagNX ||| flagIf of flagOF ∧ (nx = true ↔ v r.1 ≠ x) ∧ (of = true ↔ c = top ∧ v r.1 < x))))
  ∧ (∀ (w n : Nat) (x y : Vec), (w = 16 ∨ w = 32 ∨ w = 64) →
    let s := 2 ^ w - 1
    let list (v : Vec) : List Nat := ((List.range (512 / w)).map fun i => v.toNat / 2 ^ (w * i) % 2 ^ w).takeWhile (· != s)
    let run (union : Bool) := mergeRun union w x y ⟨0, 0, false⟩ n
    let outs (union : Bool) : List (Nat × Nat) := (run union).1.filter fun p => p.1 != s
    let place (l : List Nat) (v : Nat) : Nat := match l.idxOf? v with | some i => 0x80 + i | none => 0
    (list x).Pairwise (· < ·) → (list y).Pairwise (· < ·) →
      (∀ union, (run union).1.length = n ∧ ((outs union).map (·.1)).Pairwise (· < ·)
        ∧ ∀ p ∈ outs union, p.2 = place (list x) p.1 * 256 + place (list y) p.1)
      ∧ (outs false).map (·.1) = ((list x).filter fun v => (list y).contains v).take n
      ∧ (∀ v ∈ (outs true).map (·.1), v ∈ list x ∨ v ∈ list y)
      ∧ (∀ v, (v ∈ list x ∨ v ∈ list y) → v ∉ (outs true).map (·.1) → (outs true).length = n ∧ ∀ z ∈ (outs true).map (·.1), z < v)
      ∧ (run true).2.i = ((list x).filter fun v => ((outs true).map (·.1)).contains v).length
      ∧ (run true).2.j = ((list y).filter fun v => ((outs true).map (·.1)).contains v).length)
  ∧ (∀ (f : Nat) (sat : Bool) (a b : Vec × Desc) (acc : Nat), acc < 2 ^ 64 →
    let e (v : Vec × Desc) (n k : Nat) : Nat := v.1.toNat / 2 ^ (n * k) % 2 ^ n
    let row (n : Nat) (step : Nat → Nat → Nat → Nat) : Nat := (List.range (512 / n)).foldl (fun acc k => step acc (e a n k) (e b n k)) acc
    let sint (n v : Nat) : Int := (BitVec.ofNat n v).toInt
    let word (v : Int) : Nat := bitsOf 32 (if sat then clamp (-(2 ^ 31)) (2 ^ 31 - 1) v else v)
    let nanBlock (d : Desc) : Prop := d.toNat / 256 = 255
    let dx (fmt p q : Nat) : XF := toXF ((if dxNeg fmt p != dxNeg fmt q then -1 else 1) * (dxMag fmt p * dxMag fmt q : Nat))
      (dxUnit fmt (dxExp fmt a.2.toNat p) + dxUnit fmt (dxExp fmt b.2.toNat q))
    let xf (fmt acc p q : Nat) : Nat := xfEncode (xfAdd (xfDecode acc) (if nanBlock a.2 ∨ nanBlock b.2 then xfNaN else dx fmt p q))
    (f = 4 → macRow f sat a b acc = row 32 fun acc p q => (fma32 false false 0 p q acc).1)
    ∧ (f = 0 → macRow f sat a b acc = row 16 fun acc p q => (fma32 false false 0 (convert 2 0 32 p).1 (convert 2 0 32 q).1 acc).1)
    ∧ (f = 1 → macRow f sat a b acc = row 16 fun acc p q => (fma32 false false 0 (convert 3 0 32 p).1 (convert 3 0 32 q).1 acc).1)
    ∧ (f = 5 → macRow f sat a b acc = row 8 fun acc p q => word (sint 32 acc + sint 8 p * sint 8 q))
    ∧ (f = 2 → macRow f sat a b acc = row 8 (xf 4)) ∧ (f = 3 → macRow f sat a b acc = row 4 (xf 5)))
  ∧ (let formats : List (Nat × FFmt) := [(1, fmtFP32), (2, fmtBF16), (3, fmtFP16)]
    (∀ (fmt b : Nat) (d : Desc), b < 2 ^ fmtBits fmt →
      let xf := xfDecode (loadElem 2 fmt d b)
      let exactly (v : Int) (u : Int) : Prop := xf.m ≠ -2 ^ 47 ∧ -200 ≤ xf.e ∧ xf.m * 2 ^ (xf.e + 200).toNat = v * 2 ^ (u + 200).toNat
      (fmt = 6 → loadElem 1 fmt d b = bitsOf 32 (BitVec.ofNat 8 b).toInt)
      ∧ (∀ f ∈ formats, f.1 = fmt → (∃ fl, floating f.2 fmtFP32 0 b (loadElem 0 fmt d b, fl))
        ∧ (f.2.isFin b → exactly (f.2.units b) f.2.unit) ∧ (¬f.2.isFin b → loadElem 2 fmt d b = xfEncode ⟨-2 ^ 47, 32767⟩))
      ∧ (fmt = 4 ∨ fmt = 5 → (∃ fl, dxTo fmtFP32 0 fmt d.toNat b (loadElem 0 fmt d b, fl))
        ∧ (d.toNat / 256 = 255 → loadElem 2 fmt d b = xfEncode ⟨-2 ^ 47, 32767⟩)
        ∧ (d.toNat / 256 ≠ 255 →
            exactly (if dxNeg fmt b then -(dxMag fmt b : Int) else dxMag fmt b) (dxUnit fmt (dxExp fmt d.toNat b)))))
    ∧ ∀ (fmt gap : Nat) (xs : List FVal), gap < 16 → xs.length = 512 / fmtBits fmt →
      let r := storeBlock fmt gap xs
      let code (j : Nat) : Nat := r.1.toNat / 2 ^ (fmtBits fmt * j) % 2 ^ fmtBits fmt
      let desc := r.2.toNat
      let finite (x : FVal) : Prop := ∃ neg m e, x = .fin neg m e
      let reaches (x : FVal) (k : Nat) (u : Int) : Prop := ∃ neg m e, x = .fin neg m e ∧ m ≠ 0
        ∧ k * 2 ^ (u - min e u).toNat ≤ m * 2 ^ (e - min e u).toNat
      (∀ f ∈ formats, f.1 = fmt → desc = fmt * 16 ∧ ∀ (j : Nat) (x : FVal), xs[j]? = some x → ∃ fl : FFlags,
        match x with
        | .fin neg m e => if m = 0 then code j = f.2.withSign neg 0 else RoundsRatio f.2 0 neg m 1 e (code j, fl)
        | .inf neg => code j = f.2.withSign neg ((2 ^ f.2.eb - 1) * 2 ^ f.2.fb)
        | .nan _ => code j = (2 ^ f.2.eb - 1) * 2 ^ f.2.fb + 2 ^ (f.2.fb - 1))
      ∧ (fmt = 6 → desc = fmt * 16 ∧ ∀ (j : Nat) (v : Int), xs[j]? = some (.fin (decide (v < 0)) v.natAbs 0) →
          code j = bitsOf 8 (clamp (-128) 127 v))
      ∧ (fmt = 4 ∨ fmt = 5 →
        ((∃ x ∈ xs, ¬finite x) → r.1 = 0 ∧ desc = 255 * 256 + fmt * 16 + gap)
        ∧ ((∀ x ∈ xs, finite x) → ∃ F : Int, (desc : Int) = (clamp (-127) 127 F + 127) * 256 + fmt * 16 + gap
          ∧ ((∀ x ∈ xs, ∃ neg e, x = .fin neg 0 e) → F = -127)
          ∧ (∀ T, (∃ x ∈ xs, reaches x 1 T) → (∀ x ∈ xs, ¬reaches x 1 (T + 1)) →
            let above : Prop := fmt = 5 ∧ ∃ x ∈ xs, reaches x 3 (T - 1)
            (above → F = T + 1) ∧ (¬above → F = T))
          ∧ ∀ j neg m e, xs[j]? = some (.fin neg m e) →
            let lo := min e (-200)
            let far (c : Nat) : Nat :=
              ((dxMag fmt c * 2 ^ (dxUnit fmt (dxExp fmt desc c) - lo).toNat : Nat) - (m * 2 ^ (e - lo).toNat : Nat) : Int).natAbs
            let half := if fmt = 4 then 128 else 8
            let c := code j
            dxNeg fmt c = neg ∧ ∀ c', c' < 2 * half → far c ≤ far c'
              ∧ (far c' = far c → dxNeg fmt c' = neg → c' ≠ c → if c' / half = c / half then c % 2 = 0 else c < half))))
  ∧ ∀ (isAnd sat : Bool) (a b : Vec) (acc : Nat),
    let n := ((List.range 512).filter fun k => if isAnd then a.getLsbD k && b.getLsbD k else a.getLsbD k != b.getLsbD k).length
    let v : Int := (BitVec.ofNat 32 acc).toInt + n
    binStep isAnd sat a b acc = bitsOf 32 (if sat then clamp (-(2 ^ 31)) (2 ^ 31 - 1) v else v)
end

