-- ==== Sys2Proof/Laws/Keyed.lean ====
section
/-! SUPPORT. Keyed lists: what reading an entry gives after one is put in or dropped. -/
namespace Sys2Proof.Machine

theorem findBy_putBy_self {α : Type} (key : α → Nat) (x : α) (l : List α) :
    findBy key (key x) (putBy key x l) = some x := by
  induction l with
  | nil => simp [findBy, putBy]
  | cons y r ih =>
    simp only [putBy]
    split
    · simp [findBy]
    · split
      · simp [findBy]
      · rename_i h1 h2
        have h : (key y == key x) = false := by simp; omega
        simp only [findBy, List.find?_cons, h] at ih ⊢
        exact ih

theorem findBy_putBy_ne {α : Type} (key : α → Nat) (x : α) {k : Nat} (l : List α) (h : k ≠ key x) :
    findBy key k (putBy key x l) = findBy key k l := by
  have hx : (key x == k) = false := by simp; omega
  induction l with
  | nil => simp [findBy, putBy, hx]
  | cons y r ih =>
    simp only [putBy]
    split
    · simp [findBy, hx]
    · split
      · rename_i h1 h2
        have hy : (key y == k) = false := by simp; omega
        simp [findBy, hx, hy]
      · simp only [findBy, List.find?_cons] at ih ⊢
        split <;> simp_all

theorem findBy_dropBy_self {α : Type} (key : α → Nat) (k : Nat) (l : List α) : findBy key k (dropBy key k l) = none := by
  simp [findBy, dropBy]

theorem findBy_dropBy_ne {α : Type} (key : α → Nat) {j k : Nat} (l : List α) (h : j ≠ k) :
    findBy key j (dropBy key k l) = findBy key j l := by
  induction l with
  | nil => rfl
  | cons y r ih =>
    simp only [findBy, dropBy, List.filter_cons] at ih ⊢
    by_cases hy : key y = k
    · have h1 : (key y != k) = false := by simp [hy]
      have h2 : (key y == j) = false := by simp; omega
      simp only [h1, List.find?_cons, h2, ih, Bool.false_eq_true, if_false]
    · have : (key y != k) = true := by simp [hy]
      simp only [this, if_true, List.find?_cons, ih]

end Sys2Proof.Machine
end

