-- ==== Sys2Proof/Laws/SlotFields.lean ====
section
/-! SUPPORT. What each named update of a slot leaves as it was: one lemma per field. -/
namespace Sys2Proof.Machine

/-! ### writeFix -/

@[simp] theorem Slot.writeFix_status (sl : Slot) (r : RegRef) (v : Vec) (lat : Nat) : (sl.writeFix r v lat).status = sl.status := by
  unfold Slot.writeFix; split <;> rfl
@[simp] theorem Slot.writeFix_stall (sl : Slot) (r : RegRef) (v : Vec) (lat : Nat) : (sl.writeFix r v lat).stall = sl.stall := by
  unfold Slot.writeFix; split <;> rfl
@[simp] theorem Slot.writeFix_x (sl : Slot) (r : RegRef) (v : Vec) (lat : Nat) : (sl.writeFix r v lat).x = sl.x := by
  unfold Slot.writeFix; split <;> rfl
@[simp] theorem Slot.writeFix_v (sl : Slot) (r : RegRef) (v : Vec) (lat : Nat) : (sl.writeFix r v lat).v = sl.v := by
  unfold Slot.writeFix; split <;> rfl
@[simp] theorem Slot.writeFix_k (sl : Slot) (r : RegRef) (v : Vec) (lat : Nat) : (sl.writeFix r v lat).k = sl.k := by
  unfold Slot.writeFix; split <;> rfl
@[simp] theorem Slot.writeFix_pc (sl : Slot) (r : RegRef) (v : Vec) (lat : Nat) : (sl.writeFix r v lat).pc = sl.pc := by
  unfold Slot.writeFix; split <;> rfl
@[simp] theorem Slot.writeFix_clock (sl : Slot) (r : RegRef) (v : Vec) (lat : Nat) : (sl.writeFix r v lat).clock = sl.clock := by
  unfold Slot.writeFix; split <;> rfl
@[simp] theorem Slot.writeFix_pflags (sl : Slot) (r : RegRef) (v : Vec) (lat : Nat) : (sl.writeFix r v lat).pflags = sl.pflags := by
  unfold Slot.writeFix; split <;> rfl
@[simp] theorem Slot.writeFix_locals (sl : Slot) (r : RegRef) (v : Vec) (lat : Nat) : (sl.writeFix r v lat).locals = sl.locals := by
  unfold Slot.writeFix; split <;> rfl
@[simp] theorem Slot.writeFix_mats (sl : Slot) (r : RegRef) (v : Vec) (lat : Nat) : (sl.writeFix r v lat).mats = sl.mats := by
  unfold Slot.writeFix; split <;> rfl
@[simp] theorem Slot.writeFix_accs (sl : Slot) (r : RegRef) (v : Vec) (lat : Nat) : (sl.writeFix r v lat).accs = sl.accs := by
  unfold Slot.writeFix; split <;> rfl
@[simp] theorem Slot.writeFix_fences (sl : Slot) (r : RegRef) (v : Vec) (lat : Nat) : (sl.writeFix r v lat).fences = sl.fences := by
  unfold Slot.writeFix; split <;> rfl
@[simp] theorem Slot.writeFix_token (sl : Slot) (r : RegRef) (v : Vec) (lat : Nat) : (sl.writeFix r v lat).token = sl.token := by
  unfold Slot.writeFix; split <;> rfl
@[simp] theorem Slot.writeFix_act (sl : Slot) (r : RegRef) (v : Vec) (lat : Nat) : (sl.writeFix r v lat).act = sl.act := by
  unfold Slot.writeFix; split <;> rfl
@[simp] theorem Slot.writeFix_fflags (sl : Slot) (r : RegRef) (v : Vec) (lat : Nat) : (sl.writeFix r v lat).fflags = sl.fflags := by
  unfold Slot.writeFix; split <;> rfl
@[simp] theorem Slot.writeFix_frm (sl : Slot) (r : RegRef) (v : Vec) (lat : Nat) : (sl.writeFix r v lat).frm = sl.frm := by
  unfold Slot.writeFix; split <;> rfl
@[simp] theorem Slot.writeFix_chk (sl : Slot) (r : RegRef) (v : Vec) (lat : Nat) : (sl.writeFix r v lat).chk = sl.chk := by
  unfold Slot.writeFix; split <;> rfl
@[simp] theorem Slot.writeFix_oscope (sl : Slot) (r : RegRef) (v : Vec) (lat : Nat) : (sl.writeFix r v lat).oscope = sl.oscope := by
  unfold Slot.writeFix; split <;> rfl
@[simp] theorem Slot.writeFix_active (sl : Slot) (r : RegRef) (v : Vec) (lat : Nat) : (sl.writeFix r v lat).active = sl.active := by
  unfold Slot.writeFix; split <;> rfl
@[simp] theorem Slot.writeFix_nextReg (sl : Slot) (r : RegRef) (v : Vec) (lat : Nat) : (sl.writeFix r v lat).nextReg = sl.nextReg := by
  unfold Slot.writeFix; split <;> rfl
@[simp] theorem Slot.writeFix_cause (sl : Slot) (r : RegRef) (v : Vec) (lat : Nat) : (sl.writeFix r v lat).cause = sl.cause := by
  unfold Slot.writeFix; split <;> rfl
@[simp] theorem Slot.writeFix_epc (sl : Slot) (r : RegRef) (v : Vec) (lat : Nat) : (sl.writeFix r v lat).epc = sl.epc := by
  unfold Slot.writeFix; split <;> rfl
@[simp] theorem Slot.writeFix_tval (sl : Slot) (r : RegRef) (v : Vec) (lat : Nat) : (sl.writeFix r v lat).tval = sl.tval := by
  unfold Slot.writeFix; split <;> rfl
@[simp] theorem Slot.writeFix_budget (sl : Slot) (r : RegRef) (v : Vec) (lat : Nat) : (sl.writeFix r v lat).budget = sl.budget := by
  unfold Slot.writeFix; split <;> rfl
@[simp] theorem Slot.writeFix_actor (sl : Slot) (r : RegRef) (v : Vec) (lat : Nat) : (sl.writeFix r v lat).actor = sl.actor := by
  unfold Slot.writeFix; split <;> rfl
@[simp] theorem Slot.writeFix_task (sl : Slot) (r : RegRef) (v : Vec) (lat : Nat) : (sl.writeFix r v lat).task = sl.task := by
  unfold Slot.writeFix; split <;> rfl
@[simp] theorem Slot.writeFix_cls (sl : Slot) (r : RegRef) (v : Vec) (lat : Nat) : (sl.writeFix r v lat).cls = sl.cls := by
  unfold Slot.writeFix; split <;> rfl
@[simp] theorem Slot.writeFix_chan (sl : Slot) (r : RegRef) (v : Vec) (lat : Nat) : (sl.writeFix r v lat).chan = sl.chan := by
  unfold Slot.writeFix; split <;> rfl
@[simp] theorem Slot.writeFix_msgid (sl : Slot) (r : RegRef) (v : Vec) (lat : Nat) : (sl.writeFix r v lat).msgid = sl.msgid := by
  unfold Slot.writeFix; split <;> rfl
@[simp] theorem Slot.writeFix_launch (sl : Slot) (r : RegRef) (v : Vec) (lat : Nat) : (sl.writeFix r v lat).launch = sl.launch := by
  unfold Slot.writeFix; split <;> rfl
@[simp] theorem Slot.writeFix_ctx (sl : Slot) (r : RegRef) (v : Vec) (lat : Nat) : (sl.writeFix r v lat).ctx = sl.ctx := by
  unfold Slot.writeFix; split <;> rfl
@[simp] theorem Slot.writeFix_sends (sl : Slot) (r : RegRef) (v : Vec) (lat : Nat) : (sl.writeFix r v lat).sends = sl.sends := by
  unfold Slot.writeFix; split <;> rfl
@[simp] theorem Slot.writeFix_actend (sl : Slot) (r : RegRef) (v : Vec) (lat : Nat) : (sl.writeFix r v lat).actend = sl.actend := by
  unfold Slot.writeFix; split <;> rfl
@[simp] theorem Slot.writeFix_ended (sl : Slot) (r : RegRef) (v : Vec) (lat : Nat) : (sl.writeFix r v lat).ended = sl.ended := by
  unfold Slot.writeFix; split <;> rfl
@[simp] theorem Slot.writeFix_commit (sl : Slot) (r : RegRef) (v : Vec) (lat : Nat) : (sl.writeFix r v lat).commit = sl.commit := by
  unfold Slot.writeFix; split <;> rfl
@[simp] theorem Slot.writeFix_result (sl : Slot) (r : RegRef) (v : Vec) (lat : Nat) : (sl.writeFix r v lat).result = sl.result := by
  unfold Slot.writeFix; split <;> rfl
@[simp] theorem Slot.writeFix_waited (sl : Slot) (r : RegRef) (v : Vec) (lat : Nat) : (sl.writeFix r v lat).waited = sl.waited := by
  unfold Slot.writeFix; split <;> rfl
@[simp] theorem Slot.writeFix_held (sl : Slot) (r : RegRef) (v : Vec) (lat : Nat) : (sl.writeFix r v lat).held = sl.held := by
  unfold Slot.writeFix; split <;> rfl
@[simp] theorem Slot.writeFix_htask (sl : Slot) (r : RegRef) (v : Vec) (lat : Nat) : (sl.writeFix r v lat).htask = sl.htask := by
  unfold Slot.writeFix; split <;> rfl
@[simp] theorem Slot.writeFix_popped (sl : Slot) (r : RegRef) (v : Vec) (lat : Nat) : (sl.writeFix r v lat).popped = sl.popped := by
  unfold Slot.writeFix; split <;> rfl
@[simp] theorem Slot.writeFix_parked (sl : Slot) (r : RegRef) (v : Vec) (lat : Nat) : (sl.writeFix r v lat).parked = sl.parked := by
  unfold Slot.writeFix; split <;> rfl
@[simp] theorem Slot.writeFix_card (sl : Slot) (r : RegRef) (v : Vec) (lat : Nat) : (sl.writeFix r v lat).card = sl.card := by
  unfold Slot.writeFix; split <;> rfl
@[simp] theorem Slot.writeFix_claimed (sl : Slot) (r : RegRef) (v : Vec) (lat : Nat) : (sl.writeFix r v lat).claimed = sl.claimed := by
  unfold Slot.writeFix; split <;> rfl
@[simp] theorem Slot.writeFix_dbgWords (sl : Slot) (r : RegRef) (v : Vec) (lat : Nat) : (sl.writeFix r v lat).dbgWords = sl.dbgWords := by
  unfold Slot.writeFix; split <;> rfl
@[simp] theorem Slot.writeFix_inDebug (sl : Slot) (r : RegRef) (v : Vec) (lat : Nat) : (sl.writeFix r v lat).inDebug = sl.inDebug := by
  unfold Slot.writeFix; split <;> rfl
@[simp] theorem Slot.writeFix_oneStep (sl : Slot) (r : RegRef) (v : Vec) (lat : Nat) : (sl.writeFix r v lat).oneStep = sl.oneStep := by
  unfold Slot.writeFix; split <;> rfl
@[simp] theorem Slot.writeFix_passBreak (sl : Slot) (r : RegRef) (v : Vec) (lat : Nat) : (sl.writeFix r v lat).passBreak = sl.passBreak := by
  unfold Slot.writeFix; split <;> rfl

/-! ### claim -/

@[simp] theorem Slot.claim_status (sl : Slot) (ds : List RegRef) : (sl.claim ds).status = sl.status := rfl
@[simp] theorem Slot.claim_stall (sl : Slot) (ds : List RegRef) : (sl.claim ds).stall = sl.stall := rfl
@[simp] theorem Slot.claim_x (sl : Slot) (ds : List RegRef) : (sl.claim ds).x = sl.x := rfl
@[simp] theorem Slot.claim_v (sl : Slot) (ds : List RegRef) : (sl.claim ds).v = sl.v := rfl
@[simp] theorem Slot.claim_k (sl : Slot) (ds : List RegRef) : (sl.claim ds).k = sl.k := rfl
@[simp] theorem Slot.claim_pc (sl : Slot) (ds : List RegRef) : (sl.claim ds).pc = sl.pc := rfl
@[simp] theorem Slot.claim_clock (sl : Slot) (ds : List RegRef) : (sl.claim ds).clock = sl.clock := rfl
@[simp] theorem Slot.claim_pflags (sl : Slot) (ds : List RegRef) : (sl.claim ds).pflags = sl.pflags := rfl
@[simp] theorem Slot.claim_locals (sl : Slot) (ds : List RegRef) : (sl.claim ds).locals = sl.locals := rfl
@[simp] theorem Slot.claim_mats (sl : Slot) (ds : List RegRef) : (sl.claim ds).mats = sl.mats := rfl
@[simp] theorem Slot.claim_accs (sl : Slot) (ds : List RegRef) : (sl.claim ds).accs = sl.accs := rfl
@[simp] theorem Slot.claim_fences (sl : Slot) (ds : List RegRef) : (sl.claim ds).fences = sl.fences := rfl
@[simp] theorem Slot.claim_token (sl : Slot) (ds : List RegRef) : (sl.claim ds).token = sl.token := rfl
@[simp] theorem Slot.claim_act (sl : Slot) (ds : List RegRef) : (sl.claim ds).act = sl.act := rfl
@[simp] theorem Slot.claim_fflags (sl : Slot) (ds : List RegRef) : (sl.claim ds).fflags = sl.fflags := rfl
@[simp] theorem Slot.claim_frm (sl : Slot) (ds : List RegRef) : (sl.claim ds).frm = sl.frm := rfl
@[simp] theorem Slot.claim_chk (sl : Slot) (ds : List RegRef) : (sl.claim ds).chk = sl.chk := rfl
@[simp] theorem Slot.claim_oscope (sl : Slot) (ds : List RegRef) : (sl.claim ds).oscope = sl.oscope := rfl
@[simp] theorem Slot.claim_active (sl : Slot) (ds : List RegRef) : (sl.claim ds).active = sl.active := rfl
@[simp] theorem Slot.claim_nextReg (sl : Slot) (ds : List RegRef) : (sl.claim ds).nextReg = sl.nextReg := rfl
@[simp] theorem Slot.claim_cause (sl : Slot) (ds : List RegRef) : (sl.claim ds).cause = sl.cause := rfl
@[simp] theorem Slot.claim_epc (sl : Slot) (ds : List RegRef) : (sl.claim ds).epc = sl.epc := rfl
@[simp] theorem Slot.claim_tval (sl : Slot) (ds : List RegRef) : (sl.claim ds).tval = sl.tval := rfl
@[simp] theorem Slot.claim_budget (sl : Slot) (ds : List RegRef) : (sl.claim ds).budget = sl.budget := rfl
@[simp] theorem Slot.claim_actor (sl : Slot) (ds : List RegRef) : (sl.claim ds).actor = sl.actor := rfl
@[simp] theorem Slot.claim_task (sl : Slot) (ds : List RegRef) : (sl.claim ds).task = sl.task := rfl
@[simp] theorem Slot.claim_cls (sl : Slot) (ds : List RegRef) : (sl.claim ds).cls = sl.cls := rfl
@[simp] theorem Slot.claim_chan (sl : Slot) (ds : List RegRef) : (sl.claim ds).chan = sl.chan := rfl
@[simp] theorem Slot.claim_msgid (sl : Slot) (ds : List RegRef) : (sl.claim ds).msgid = sl.msgid := rfl
@[simp] theorem Slot.claim_launch (sl : Slot) (ds : List RegRef) : (sl.claim ds).launch = sl.launch := rfl
@[simp] theorem Slot.claim_ctx (sl : Slot) (ds : List RegRef) : (sl.claim ds).ctx = sl.ctx := rfl
@[simp] theorem Slot.claim_sends (sl : Slot) (ds : List RegRef) : (sl.claim ds).sends = sl.sends := rfl
@[simp] theorem Slot.claim_actend (sl : Slot) (ds : List RegRef) : (sl.claim ds).actend = sl.actend := rfl
@[simp] theorem Slot.claim_ended (sl : Slot) (ds : List RegRef) : (sl.claim ds).ended = sl.ended := rfl
@[simp] theorem Slot.claim_commit (sl : Slot) (ds : List RegRef) : (sl.claim ds).commit = sl.commit := rfl
@[simp] theorem Slot.claim_result (sl : Slot) (ds : List RegRef) : (sl.claim ds).result = sl.result := rfl
@[simp] theorem Slot.claim_waited (sl : Slot) (ds : List RegRef) : (sl.claim ds).waited = sl.waited := rfl
@[simp] theorem Slot.claim_held (sl : Slot) (ds : List RegRef) : (sl.claim ds).held = sl.held := rfl
@[simp] theorem Slot.claim_htask (sl : Slot) (ds : List RegRef) : (sl.claim ds).htask = sl.htask := rfl
@[simp] theorem Slot.claim_popped (sl : Slot) (ds : List RegRef) : (sl.claim ds).popped = sl.popped := rfl
@[simp] theorem Slot.claim_parked (sl : Slot) (ds : List RegRef) : (sl.claim ds).parked = sl.parked := rfl
@[simp] theorem Slot.claim_card (sl : Slot) (ds : List RegRef) : (sl.claim ds).card = sl.card := rfl
@[simp] theorem Slot.claim_claimed (sl : Slot) (ds : List RegRef) : (sl.claim ds).claimed = sl.claimed := rfl
@[simp] theorem Slot.claim_dbgWords (sl : Slot) (ds : List RegRef) : (sl.claim ds).dbgWords = sl.dbgWords := rfl
@[simp] theorem Slot.claim_inDebug (sl : Slot) (ds : List RegRef) : (sl.claim ds).inDebug = sl.inDebug := rfl
@[simp] theorem Slot.claim_oneStep (sl : Slot) (ds : List RegRef) : (sl.claim ds).oneStep = sl.oneStep := rfl
@[simp] theorem Slot.claim_passBreak (sl : Slot) (ds : List RegRef) : (sl.claim ds).passBreak = sl.passBreak := rfl

/-! ### writeVar -/

@[simp] theorem Slot.writeVar_status (sl : Slot) (ws : List (RegRef × Vec)) (f : FFlags) (fp : Bool) : (sl.writeVar ws f fp).status = sl.status := rfl
@[simp] theorem Slot.writeVar_stall (sl : Slot) (ws : List (RegRef × Vec)) (f : FFlags) (fp : Bool) : (sl.writeVar ws f fp).stall = sl.stall := rfl
@[simp] theorem Slot.writeVar_x (sl : Slot) (ws : List (RegRef × Vec)) (f : FFlags) (fp : Bool) : (sl.writeVar ws f fp).x = sl.x := rfl
@[simp] theorem Slot.writeVar_v (sl : Slot) (ws : List (RegRef × Vec)) (f : FFlags) (fp : Bool) : (sl.writeVar ws f fp).v = sl.v := rfl
@[simp] theorem Slot.writeVar_k (sl : Slot) (ws : List (RegRef × Vec)) (f : FFlags) (fp : Bool) : (sl.writeVar ws f fp).k = sl.k := rfl
@[simp] theorem Slot.writeVar_pc (sl : Slot) (ws : List (RegRef × Vec)) (f : FFlags) (fp : Bool) : (sl.writeVar ws f fp).pc = sl.pc := rfl
@[simp] theorem Slot.writeVar_clock (sl : Slot) (ws : List (RegRef × Vec)) (f : FFlags) (fp : Bool) : (sl.writeVar ws f fp).clock = sl.clock := rfl
@[simp] theorem Slot.writeVar_pflags (sl : Slot) (ws : List (RegRef × Vec)) (f : FFlags) (fp : Bool) : (sl.writeVar ws f fp).pflags = sl.pflags := rfl
@[simp] theorem Slot.writeVar_mats (sl : Slot) (ws : List (RegRef × Vec)) (f : FFlags) (fp : Bool) : (sl.writeVar ws f fp).mats = sl.mats := rfl
@[simp] theorem Slot.writeVar_accs (sl : Slot) (ws : List (RegRef × Vec)) (f : FFlags) (fp : Bool) : (sl.writeVar ws f fp).accs = sl.accs := rfl
@[simp] theorem Slot.writeVar_fences (sl : Slot) (ws : List (RegRef × Vec)) (f : FFlags) (fp : Bool) : (sl.writeVar ws f fp).fences = sl.fences := rfl
@[simp] theorem Slot.writeVar_token (sl : Slot) (ws : List (RegRef × Vec)) (f : FFlags) (fp : Bool) : (sl.writeVar ws f fp).token = sl.token := rfl
@[simp] theorem Slot.writeVar_act (sl : Slot) (ws : List (RegRef × Vec)) (f : FFlags) (fp : Bool) : (sl.writeVar ws f fp).act = sl.act := rfl
@[simp] theorem Slot.writeVar_fflags (sl : Slot) (ws : List (RegRef × Vec)) (f : FFlags) (fp : Bool) : (sl.writeVar ws f fp).fflags = sl.fflags := rfl
@[simp] theorem Slot.writeVar_frm (sl : Slot) (ws : List (RegRef × Vec)) (f : FFlags) (fp : Bool) : (sl.writeVar ws f fp).frm = sl.frm := rfl
@[simp] theorem Slot.writeVar_chk (sl : Slot) (ws : List (RegRef × Vec)) (f : FFlags) (fp : Bool) : (sl.writeVar ws f fp).chk = sl.chk := rfl
@[simp] theorem Slot.writeVar_oscope (sl : Slot) (ws : List (RegRef × Vec)) (f : FFlags) (fp : Bool) : (sl.writeVar ws f fp).oscope = sl.oscope := rfl
@[simp] theorem Slot.writeVar_active (sl : Slot) (ws : List (RegRef × Vec)) (f : FFlags) (fp : Bool) : (sl.writeVar ws f fp).active = sl.active := rfl
@[simp] theorem Slot.writeVar_nextReg (sl : Slot) (ws : List (RegRef × Vec)) (f : FFlags) (fp : Bool) : (sl.writeVar ws f fp).nextReg = sl.nextReg := rfl
@[simp] theorem Slot.writeVar_cause (sl : Slot) (ws : List (RegRef × Vec)) (f : FFlags) (fp : Bool) : (sl.writeVar ws f fp).cause = sl.cause := rfl
@[simp] theorem Slot.writeVar_epc (sl : Slot) (ws : List (RegRef × Vec)) (f : FFlags) (fp : Bool) : (sl.writeVar ws f fp).epc = sl.epc := rfl
@[simp] theorem Slot.writeVar_tval (sl : Slot) (ws : List (RegRef × Vec)) (f : FFlags) (fp : Bool) : (sl.writeVar ws f fp).tval = sl.tval := rfl
@[simp] theorem Slot.writeVar_budget (sl : Slot) (ws : List (RegRef × Vec)) (f : FFlags) (fp : Bool) : (sl.writeVar ws f fp).budget = sl.budget := rfl
@[simp] theorem Slot.writeVar_actor (sl : Slot) (ws : List (RegRef × Vec)) (f : FFlags) (fp : Bool) : (sl.writeVar ws f fp).actor = sl.actor := rfl
@[simp] theorem Slot.writeVar_task (sl : Slot) (ws : List (RegRef × Vec)) (f : FFlags) (fp : Bool) : (sl.writeVar ws f fp).task = sl.task := rfl
@[simp] theorem Slot.writeVar_cls (sl : Slot) (ws : List (RegRef × Vec)) (f : FFlags) (fp : Bool) : (sl.writeVar ws f fp).cls = sl.cls := rfl
@[simp] theorem Slot.writeVar_chan (sl : Slot) (ws : List (RegRef × Vec)) (f : FFlags) (fp : Bool) : (sl.writeVar ws f fp).chan = sl.chan := rfl
@[simp] theorem Slot.writeVar_msgid (sl : Slot) (ws : List (RegRef × Vec)) (f : FFlags) (fp : Bool) : (sl.writeVar ws f fp).msgid = sl.msgid := rfl
@[simp] theorem Slot.writeVar_launch (sl : Slot) (ws : List (RegRef × Vec)) (f : FFlags) (fp : Bool) : (sl.writeVar ws f fp).launch = sl.launch := rfl
@[simp] theorem Slot.writeVar_ctx (sl : Slot) (ws : List (RegRef × Vec)) (f : FFlags) (fp : Bool) : (sl.writeVar ws f fp).ctx = sl.ctx := rfl
@[simp] theorem Slot.writeVar_sends (sl : Slot) (ws : List (RegRef × Vec)) (f : FFlags) (fp : Bool) : (sl.writeVar ws f fp).sends = sl.sends := rfl
@[simp] theorem Slot.writeVar_actend (sl : Slot) (ws : List (RegRef × Vec)) (f : FFlags) (fp : Bool) : (sl.writeVar ws f fp).actend = sl.actend := rfl
@[simp] theorem Slot.writeVar_ended (sl : Slot) (ws : List (RegRef × Vec)) (f : FFlags) (fp : Bool) : (sl.writeVar ws f fp).ended = sl.ended := rfl
@[simp] theorem Slot.writeVar_commit (sl : Slot) (ws : List (RegRef × Vec)) (f : FFlags) (fp : Bool) : (sl.writeVar ws f fp).commit = sl.commit := rfl
@[simp] theorem Slot.writeVar_result (sl : Slot) (ws : List (RegRef × Vec)) (f : FFlags) (fp : Bool) : (sl.writeVar ws f fp).result = sl.result := rfl
@[simp] theorem Slot.writeVar_waited (sl : Slot) (ws : List (RegRef × Vec)) (f : FFlags) (fp : Bool) : (sl.writeVar ws f fp).waited = sl.waited := rfl
@[simp] theorem Slot.writeVar_held (sl : Slot) (ws : List (RegRef × Vec)) (f : FFlags) (fp : Bool) : (sl.writeVar ws f fp).held = sl.held := rfl
@[simp] theorem Slot.writeVar_htask (sl : Slot) (ws : List (RegRef × Vec)) (f : FFlags) (fp : Bool) : (sl.writeVar ws f fp).htask = sl.htask := rfl
@[simp] theorem Slot.writeVar_popped (sl : Slot) (ws : List (RegRef × Vec)) (f : FFlags) (fp : Bool) : (sl.writeVar ws f fp).popped = sl.popped := rfl
@[simp] theorem Slot.writeVar_parked (sl : Slot) (ws : List (RegRef × Vec)) (f : FFlags) (fp : Bool) : (sl.writeVar ws f fp).parked = sl.parked := rfl
@[simp] theorem Slot.writeVar_card (sl : Slot) (ws : List (RegRef × Vec)) (f : FFlags) (fp : Bool) : (sl.writeVar ws f fp).card = sl.card := rfl
@[simp] theorem Slot.writeVar_claimed (sl : Slot) (ws : List (RegRef × Vec)) (f : FFlags) (fp : Bool) : (sl.writeVar ws f fp).claimed = sl.claimed := rfl
@[simp] theorem Slot.writeVar_dbgWords (sl : Slot) (ws : List (RegRef × Vec)) (f : FFlags) (fp : Bool) : (sl.writeVar ws f fp).dbgWords = sl.dbgWords := rfl
@[simp] theorem Slot.writeVar_inDebug (sl : Slot) (ws : List (RegRef × Vec)) (f : FFlags) (fp : Bool) : (sl.writeVar ws f fp).inDebug = sl.inDebug := rfl
@[simp] theorem Slot.writeVar_oneStep (sl : Slot) (ws : List (RegRef × Vec)) (f : FFlags) (fp : Bool) : (sl.writeVar ws f fp).oneStep = sl.oneStep := rfl
@[simp] theorem Slot.writeVar_passBreak (sl : Slot) (ws : List (RegRef × Vec)) (f : FFlags) (fp : Bool) : (sl.writeVar ws f fp).passBreak = sl.passBreak := rfl

/-! ### accrueAt -/

@[simp] theorem Slot.accrueAt_status (sl : Slot) (f : FFlags) (lat : Nat) : (accrueAt sl f lat).status = sl.status := by
  unfold accrueAt; split <;> rfl
@[simp] theorem Slot.accrueAt_stall (sl : Slot) (f : FFlags) (lat : Nat) : (accrueAt sl f lat).stall = sl.stall := by
  unfold accrueAt; split <;> rfl
@[simp] theorem Slot.accrueAt_x (sl : Slot) (f : FFlags) (lat : Nat) : (accrueAt sl f lat).x = sl.x := by
  unfold accrueAt; split <;> rfl
@[simp] theorem Slot.accrueAt_v (sl : Slot) (f : FFlags) (lat : Nat) : (accrueAt sl f lat).v = sl.v := by
  unfold accrueAt; split <;> rfl
@[simp] theorem Slot.accrueAt_k (sl : Slot) (f : FFlags) (lat : Nat) : (accrueAt sl f lat).k = sl.k := by
  unfold accrueAt; split <;> rfl
@[simp] theorem Slot.accrueAt_pc (sl : Slot) (f : FFlags) (lat : Nat) : (accrueAt sl f lat).pc = sl.pc := by
  unfold accrueAt; split <;> rfl
@[simp] theorem Slot.accrueAt_clock (sl : Slot) (f : FFlags) (lat : Nat) : (accrueAt sl f lat).clock = sl.clock := by
  unfold accrueAt; split <;> rfl
@[simp] theorem Slot.accrueAt_pend (sl : Slot) (f : FFlags) (lat : Nat) : (accrueAt sl f lat).pend = sl.pend := by
  unfold accrueAt; split <;> rfl
@[simp] theorem Slot.accrueAt_locals (sl : Slot) (f : FFlags) (lat : Nat) : (accrueAt sl f lat).locals = sl.locals := by
  unfold accrueAt; split <;> rfl
@[simp] theorem Slot.accrueAt_mats (sl : Slot) (f : FFlags) (lat : Nat) : (accrueAt sl f lat).mats = sl.mats := by
  unfold accrueAt; split <;> rfl
@[simp] theorem Slot.accrueAt_accs (sl : Slot) (f : FFlags) (lat : Nat) : (accrueAt sl f lat).accs = sl.accs := by
  unfold accrueAt; split <;> rfl
@[simp] theorem Slot.accrueAt_fences (sl : Slot) (f : FFlags) (lat : Nat) : (accrueAt sl f lat).fences = sl.fences := by
  unfold accrueAt; split <;> rfl
@[simp] theorem Slot.accrueAt_token (sl : Slot) (f : FFlags) (lat : Nat) : (accrueAt sl f lat).token = sl.token := by
  unfold accrueAt; split <;> rfl
@[simp] theorem Slot.accrueAt_act (sl : Slot) (f : FFlags) (lat : Nat) : (accrueAt sl f lat).act = sl.act := by
  unfold accrueAt; split <;> rfl
@[simp] theorem Slot.accrueAt_fflags (sl : Slot) (f : FFlags) (lat : Nat) : (accrueAt sl f lat).fflags = sl.fflags := by
  unfold accrueAt; split <;> rfl
@[simp] theorem Slot.accrueAt_frm (sl : Slot) (f : FFlags) (lat : Nat) : (accrueAt sl f lat).frm = sl.frm := by
  unfold accrueAt; split <;> rfl
@[simp] theorem Slot.accrueAt_chk (sl : Slot) (f : FFlags) (lat : Nat) : (accrueAt sl f lat).chk = sl.chk := by
  unfold accrueAt; split <;> rfl
@[simp] theorem Slot.accrueAt_oscope (sl : Slot) (f : FFlags) (lat : Nat) : (accrueAt sl f lat).oscope = sl.oscope := by
  unfold accrueAt; split <;> rfl
@[simp] theorem Slot.accrueAt_active (sl : Slot) (f : FFlags) (lat : Nat) : (accrueAt sl f lat).active = sl.active := by
  unfold accrueAt; split <;> rfl
@[simp] theorem Slot.accrueAt_nextReg (sl : Slot) (f : FFlags) (lat : Nat) : (accrueAt sl f lat).nextReg = sl.nextReg := by
  unfold accrueAt; split <;> rfl
@[simp] theorem Slot.accrueAt_cause (sl : Slot) (f : FFlags) (lat : Nat) : (accrueAt sl f lat).cause = sl.cause := by
  unfold accrueAt; split <;> rfl
@[simp] theorem Slot.accrueAt_epc (sl : Slot) (f : FFlags) (lat : Nat) : (accrueAt sl f lat).epc = sl.epc := by
  unfold accrueAt; split <;> rfl
@[simp] theorem Slot.accrueAt_tval (sl : Slot) (f : FFlags) (lat : Nat) : (accrueAt sl f lat).tval = sl.tval := by
  unfold accrueAt; split <;> rfl
@[simp] theorem Slot.accrueAt_budget (sl : Slot) (f : FFlags) (lat : Nat) : (accrueAt sl f lat).budget = sl.budget := by
  unfold accrueAt; split <;> rfl
@[simp] theorem Slot.accrueAt_actor (sl : Slot) (f : FFlags) (lat : Nat) : (accrueAt sl f lat).actor = sl.actor := by
  unfold accrueAt; split <;> rfl
@[simp] theorem Slot.accrueAt_task (sl : Slot) (f : FFlags) (lat : Nat) : (accrueAt sl f lat).task = sl.task := by
  unfold accrueAt; split <;> rfl
@[simp] theorem Slot.accrueAt_cls (sl : Slot) (f : FFlags) (lat : Nat) : (accrueAt sl f lat).cls = sl.cls := by
  unfold accrueAt; split <;> rfl
@[simp] theorem Slot.accrueAt_chan (sl : Slot) (f : FFlags) (lat : Nat) : (accrueAt sl f lat).chan = sl.chan := by
  unfold accrueAt; split <;> rfl
@[simp] theorem Slot.accrueAt_msgid (sl : Slot) (f : FFlags) (lat : Nat) : (accrueAt sl f lat).msgid = sl.msgid := by
  unfold accrueAt; split <;> rfl
@[simp] theorem Slot.accrueAt_launch (sl : Slot) (f : FFlags) (lat : Nat) : (accrueAt sl f lat).launch = sl.launch := by
  unfold accrueAt; split <;> rfl
@[simp] theorem Slot.accrueAt_ctx (sl : Slot) (f : FFlags) (lat : Nat) : (accrueAt sl f lat).ctx = sl.ctx := by
  unfold accrueAt; split <;> rfl
@[simp] theorem Slot.accrueAt_sends (sl : Slot) (f : FFlags) (lat : Nat) : (accrueAt sl f lat).sends = sl.sends := by
  unfold accrueAt; split <;> rfl
@[simp] theorem Slot.accrueAt_actend (sl : Slot) (f : FFlags) (lat : Nat) : (accrueAt sl f lat).actend = sl.actend := by
  unfold accrueAt; split <;> rfl
@[simp] theorem Slot.accrueAt_ended (sl : Slot) (f : FFlags) (lat : Nat) : (accrueAt sl f lat).ended = sl.ended := by
  unfold accrueAt; split <;> rfl
@[simp] theorem Slot.accrueAt_commit (sl : Slot) (f : FFlags) (lat : Nat) : (accrueAt sl f lat).commit = sl.commit := by
  unfold accrueAt; split <;> rfl
@[simp] theorem Slot.accrueAt_result (sl : Slot) (f : FFlags) (lat : Nat) : (accrueAt sl f lat).result = sl.result := by
  unfold accrueAt; split <;> rfl
@[simp] theorem Slot.accrueAt_waited (sl : Slot) (f : FFlags) (lat : Nat) : (accrueAt sl f lat).waited = sl.waited := by
  unfold accrueAt; split <;> rfl
@[simp] theorem Slot.accrueAt_held (sl : Slot) (f : FFlags) (lat : Nat) : (accrueAt sl f lat).held = sl.held := by
  unfold accrueAt; split <;> rfl
@[simp] theorem Slot.accrueAt_htask (sl : Slot) (f : FFlags) (lat : Nat) : (accrueAt sl f lat).htask = sl.htask := by
  unfold accrueAt; split <;> rfl
@[simp] theorem Slot.accrueAt_popped (sl : Slot) (f : FFlags) (lat : Nat) : (accrueAt sl f lat).popped = sl.popped := by
  unfold accrueAt; split <;> rfl
@[simp] theorem Slot.accrueAt_parked (sl : Slot) (f : FFlags) (lat : Nat) : (accrueAt sl f lat).parked = sl.parked := by
  unfold accrueAt; split <;> rfl
@[simp] theorem Slot.accrueAt_card (sl : Slot) (f : FFlags) (lat : Nat) : (accrueAt sl f lat).card = sl.card := by
  unfold accrueAt; split <;> rfl
@[simp] theorem Slot.accrueAt_claimed (sl : Slot) (f : FFlags) (lat : Nat) : (accrueAt sl f lat).claimed = sl.claimed := by
  unfold accrueAt; split <;> rfl
@[simp] theorem Slot.accrueAt_dbgWords (sl : Slot) (f : FFlags) (lat : Nat) : (accrueAt sl f lat).dbgWords = sl.dbgWords := by
  unfold accrueAt; split <;> rfl
@[simp] theorem Slot.accrueAt_inDebug (sl : Slot) (f : FFlags) (lat : Nat) : (accrueAt sl f lat).inDebug = sl.inDebug := by
  unfold accrueAt; split <;> rfl
@[simp] theorem Slot.accrueAt_oneStep (sl : Slot) (f : FFlags) (lat : Nat) : (accrueAt sl f lat).oneStep = sl.oneStep := by
  unfold accrueAt; split <;> rfl
@[simp] theorem Slot.accrueAt_passBreak (sl : Slot) (f : FFlags) (lat : Nat) : (accrueAt sl f lat).passBreak = sl.passBreak := by
  unfold accrueAt; split <;> rfl

/-! ### settleFlags -/

@[simp] theorem Slot.settleFlags_status (sl : Slot)  : (settleFlags sl).status = sl.status := rfl
@[simp] theorem Slot.settleFlags_stall (sl : Slot)  : (settleFlags sl).stall = sl.stall := rfl
@[simp] theorem Slot.settleFlags_x (sl : Slot)  : (settleFlags sl).x = sl.x := rfl
@[simp] theorem Slot.settleFlags_v (sl : Slot)  : (settleFlags sl).v = sl.v := rfl
@[simp] theorem Slot.settleFlags_k (sl : Slot)  : (settleFlags sl).k = sl.k := rfl
@[simp] theorem Slot.settleFlags_pc (sl : Slot)  : (settleFlags sl).pc = sl.pc := rfl
@[simp] theorem Slot.settleFlags_clock (sl : Slot)  : (settleFlags sl).clock = sl.clock := rfl
@[simp] theorem Slot.settleFlags_pend (sl : Slot)  : (settleFlags sl).pend = sl.pend := rfl
@[simp] theorem Slot.settleFlags_locals (sl : Slot)  : (settleFlags sl).locals = sl.locals := rfl
@[simp] theorem Slot.settleFlags_mats (sl : Slot)  : (settleFlags sl).mats = sl.mats := rfl
@[simp] theorem Slot.settleFlags_accs (sl : Slot)  : (settleFlags sl).accs = sl.accs := rfl
@[simp] theorem Slot.settleFlags_fences (sl : Slot)  : (settleFlags sl).fences = sl.fences := rfl
@[simp] theorem Slot.settleFlags_token (sl : Slot)  : (settleFlags sl).token = sl.token := rfl
@[simp] theorem Slot.settleFlags_act (sl : Slot)  : (settleFlags sl).act = sl.act := rfl
@[simp] theorem Slot.settleFlags_frm (sl : Slot)  : (settleFlags sl).frm = sl.frm := rfl
@[simp] theorem Slot.settleFlags_chk (sl : Slot)  : (settleFlags sl).chk = sl.chk := rfl
@[simp] theorem Slot.settleFlags_oscope (sl : Slot)  : (settleFlags sl).oscope = sl.oscope := rfl
@[simp] theorem Slot.settleFlags_active (sl : Slot)  : (settleFlags sl).active = sl.active := rfl
@[simp] theorem Slot.settleFlags_nextReg (sl : Slot)  : (settleFlags sl).nextReg = sl.nextReg := rfl
@[simp] theorem Slot.settleFlags_cause (sl : Slot)  : (settleFlags sl).cause = sl.cause := rfl
@[simp] theorem Slot.settleFlags_epc (sl : Slot)  : (settleFlags sl).epc = sl.epc := rfl
@[simp] theorem Slot.settleFlags_tval (sl : Slot)  : (settleFlags sl).tval = sl.tval := rfl
@[simp] theorem Slot.settleFlags_budget (sl : Slot)  : (settleFlags sl).budget = sl.budget := rfl
@[simp] theorem Slot.settleFlags_actor (sl : Slot)  : (settleFlags sl).actor = sl.actor := rfl
@[simp] theorem Slot.settleFlags_task (sl : Slot)  : (settleFlags sl).task = sl.task := rfl
@[simp] theorem Slot.settleFlags_cls (sl : Slot)  : (settleFlags sl).cls = sl.cls := rfl
@[simp] theorem Slot.settleFlags_chan (sl : Slot)  : (settleFlags sl).chan = sl.chan := rfl
@[simp] theorem Slot.settleFlags_msgid (sl : Slot)  : (settleFlags sl).msgid = sl.msgid := rfl
@[simp] theorem Slot.settleFlags_launch (sl : Slot)  : (settleFlags sl).launch = sl.launch := rfl
@[simp] theorem Slot.settleFlags_ctx (sl : Slot)  : (settleFlags sl).ctx = sl.ctx := rfl
@[simp] theorem Slot.settleFlags_sends (sl : Slot)  : (settleFlags sl).sends = sl.sends := rfl
@[simp] theorem Slot.settleFlags_actend (sl : Slot)  : (settleFlags sl).actend = sl.actend := rfl
@[simp] theorem Slot.settleFlags_ended (sl : Slot)  : (settleFlags sl).ended = sl.ended := rfl
@[simp] theorem Slot.settleFlags_commit (sl : Slot)  : (settleFlags sl).commit = sl.commit := rfl
@[simp] theorem Slot.settleFlags_result (sl : Slot)  : (settleFlags sl).result = sl.result := rfl
@[simp] theorem Slot.settleFlags_waited (sl : Slot)  : (settleFlags sl).waited = sl.waited := rfl
@[simp] theorem Slot.settleFlags_held (sl : Slot)  : (settleFlags sl).held = sl.held := rfl
@[simp] theorem Slot.settleFlags_htask (sl : Slot)  : (settleFlags sl).htask = sl.htask := rfl
@[simp] theorem Slot.settleFlags_popped (sl : Slot)  : (settleFlags sl).popped = sl.popped := rfl
@[simp] theorem Slot.settleFlags_parked (sl : Slot)  : (settleFlags sl).parked = sl.parked := rfl
@[simp] theorem Slot.settleFlags_card (sl : Slot)  : (settleFlags sl).card = sl.card := rfl
@[simp] theorem Slot.settleFlags_claimed (sl : Slot)  : (settleFlags sl).claimed = sl.claimed := rfl
@[simp] theorem Slot.settleFlags_dbgWords (sl : Slot)  : (settleFlags sl).dbgWords = sl.dbgWords := rfl
@[simp] theorem Slot.settleFlags_inDebug (sl : Slot)  : (settleFlags sl).inDebug = sl.inDebug := rfl
@[simp] theorem Slot.settleFlags_oneStep (sl : Slot)  : (settleFlags sl).oneStep = sl.oneStep := rfl
@[simp] theorem Slot.settleFlags_passBreak (sl : Slot)  : (settleFlags sl).passBreak = sl.passBreak := rfl

/-! ### setReg -/

@[simp] theorem Slot.setReg_status (sl : Slot) (r : RegRef) (v : Vec) : (sl.setReg r v).status = sl.status := by
  unfold Slot.setReg; split <;> split <;> (try split) <;> rfl
@[simp] theorem Slot.setReg_stall (sl : Slot) (r : RegRef) (v : Vec) : (sl.setReg r v).stall = sl.stall := by
  unfold Slot.setReg; split <;> split <;> (try split) <;> rfl
@[simp] theorem Slot.setReg_pc (sl : Slot) (r : RegRef) (v : Vec) : (sl.setReg r v).pc = sl.pc := by
  unfold Slot.setReg; split <;> split <;> (try split) <;> rfl
@[simp] theorem Slot.setReg_clock (sl : Slot) (r : RegRef) (v : Vec) : (sl.setReg r v).clock = sl.clock := by
  unfold Slot.setReg; split <;> split <;> (try split) <;> rfl
@[simp] theorem Slot.setReg_pend (sl : Slot) (r : RegRef) (v : Vec) : (sl.setReg r v).pend = sl.pend := by
  unfold Slot.setReg; split <;> split <;> (try split) <;> rfl
@[simp] theorem Slot.setReg_pflags (sl : Slot) (r : RegRef) (v : Vec) : (sl.setReg r v).pflags = sl.pflags := by
  unfold Slot.setReg; split <;> split <;> (try split) <;> rfl
@[simp] theorem Slot.setReg_locals (sl : Slot) (r : RegRef) (v : Vec) : (sl.setReg r v).locals = sl.locals := by
  unfold Slot.setReg; split <;> split <;> (try split) <;> rfl
@[simp] theorem Slot.setReg_mats (sl : Slot) (r : RegRef) (v : Vec) : (sl.setReg r v).mats = sl.mats := by
  unfold Slot.setReg; split <;> split <;> (try split) <;> rfl
@[simp] theorem Slot.setReg_accs (sl : Slot) (r : RegRef) (v : Vec) : (sl.setReg r v).accs = sl.accs := by
  unfold Slot.setReg; split <;> split <;> (try split) <;> rfl
@[simp] theorem Slot.setReg_fences (sl : Slot) (r : RegRef) (v : Vec) : (sl.setReg r v).fences = sl.fences := by
  unfold Slot.setReg; split <;> split <;> (try split) <;> rfl
@[simp] theorem Slot.setReg_token (sl : Slot) (r : RegRef) (v : Vec) : (sl.setReg r v).token = sl.token := by
  unfold Slot.setReg; split <;> split <;> (try split) <;> rfl
@[simp] theorem Slot.setReg_act (sl : Slot) (r : RegRef) (v : Vec) : (sl.setReg r v).act = sl.act := by
  unfold Slot.setReg; split <;> split <;> (try split) <;> rfl
@[simp] theorem Slot.setReg_fflags (sl : Slot) (r : RegRef) (v : Vec) : (sl.setReg r v).fflags = sl.fflags := by
  unfold Slot.setReg; split <;> split <;> (try split) <;> rfl
@[simp] theorem Slot.setReg_frm (sl : Slot) (r : RegRef) (v : Vec) : (sl.setReg r v).frm = sl.frm := by
  unfold Slot.setReg; split <;> split <;> (try split) <;> rfl
@[simp] theorem Slot.setReg_chk (sl : Slot) (r : RegRef) (v : Vec) : (sl.setReg r v).chk = sl.chk := by
  unfold Slot.setReg; split <;> split <;> (try split) <;> rfl
@[simp] theorem Slot.setReg_oscope (sl : Slot) (r : RegRef) (v : Vec) : (sl.setReg r v).oscope = sl.oscope := by
  unfold Slot.setReg; split <;> split <;> (try split) <;> rfl
@[simp] theorem Slot.setReg_active (sl : Slot) (r : RegRef) (v : Vec) : (sl.setReg r v).active = sl.active := by
  unfold Slot.setReg; split <;> split <;> (try split) <;> rfl
@[simp] theorem Slot.setReg_nextReg (sl : Slot) (r : RegRef) (v : Vec) : (sl.setReg r v).nextReg = sl.nextReg := by
  unfold Slot.setReg; split <;> split <;> (try split) <;> rfl
@[simp] theorem Slot.setReg_cause (sl : Slot) (r : RegRef) (v : Vec) : (sl.setReg r v).cause = sl.cause := by
  unfold Slot.setReg; split <;> split <;> (try split) <;> rfl
@[simp] theorem Slot.setReg_epc (sl : Slot) (r : RegRef) (v : Vec) : (sl.setReg r v).epc = sl.epc := by
  unfold Slot.setReg; split <;> split <;> (try split) <;> rfl
@[simp] theorem Slot.setReg_tval (sl : Slot) (r : RegRef) (v : Vec) : (sl.setReg r v).tval = sl.tval := by
  unfold Slot.setReg; split <;> split <;> (try split) <;> rfl
@[simp] theorem Slot.setReg_budget (sl : Slot) (r : RegRef) (v : Vec) : (sl.setReg r v).budget = sl.budget := by
  unfold Slot.setReg; split <;> split <;> (try split) <;> rfl
@[simp] theorem Slot.setReg_actor (sl : Slot) (r : RegRef) (v : Vec) : (sl.setReg r v).actor = sl.actor := by
  unfold Slot.setReg; split <;> split <;> (try split) <;> rfl
@[simp] theorem Slot.setReg_task (sl : Slot) (r : RegRef) (v : Vec) : (sl.setReg r v).task = sl.task := by
  unfold Slot.setReg; split <;> split <;> (try split) <;> rfl
@[simp] theorem Slot.setReg_cls (sl : Slot) (r : RegRef) (v : Vec) : (sl.setReg r v).cls = sl.cls := by
  unfold Slot.setReg; split <;> split <;> (try split) <;> rfl
@[simp] theorem Slot.setReg_chan (sl : Slot) (r : RegRef) (v : Vec) : (sl.setReg r v).chan = sl.chan := by
  unfold Slot.setReg; split <;> split <;> (try split) <;> rfl
@[simp] theorem Slot.setReg_msgid (sl : Slot) (r : RegRef) (v : Vec) : (sl.setReg r v).msgid = sl.msgid := by
  unfold Slot.setReg; split <;> split <;> (try split) <;> rfl
@[simp] theorem Slot.setReg_launch (sl : Slot) (r : RegRef) (v : Vec) : (sl.setReg r v).launch = sl.launch := by
  unfold Slot.setReg; split <;> split <;> (try split) <;> rfl
@[simp] theorem Slot.setReg_ctx (sl : Slot) (r : RegRef) (v : Vec) : (sl.setReg r v).ctx = sl.ctx := by
  unfold Slot.setReg; split <;> split <;> (try split) <;> rfl
@[simp] theorem Slot.setReg_sends (sl : Slot) (r : RegRef) (v : Vec) : (sl.setReg r v).sends = sl.sends := by
  unfold Slot.setReg; split <;> split <;> (try split) <;> rfl
@[simp] theorem Slot.setReg_actend (sl : Slot) (r : RegRef) (v : Vec) : (sl.setReg r v).actend = sl.actend := by
  unfold Slot.setReg; split <;> split <;> (try split) <;> rfl
@[simp] theorem Slot.setReg_ended (sl : Slot) (r : RegRef) (v : Vec) : (sl.setReg r v).ended = sl.ended := by
  unfold Slot.setReg; split <;> split <;> (try split) <;> rfl
@[simp] theorem Slot.setReg_commit (sl : Slot) (r : RegRef) (v : Vec) : (sl.setReg r v).commit = sl.commit := by
  unfold Slot.setReg; split <;> split <;> (try split) <;> rfl
@[simp] theorem Slot.setReg_result (sl : Slot) (r : RegRef) (v : Vec) : (sl.setReg r v).result = sl.result := by
  unfold Slot.setReg; split <;> split <;> (try split) <;> rfl
@[simp] theorem Slot.setReg_waited (sl : Slot) (r : RegRef) (v : Vec) : (sl.setReg r v).waited = sl.waited := by
  unfold Slot.setReg; split <;> split <;> (try split) <;> rfl
@[simp] theorem Slot.setReg_held (sl : Slot) (r : RegRef) (v : Vec) : (sl.setReg r v).held = sl.held := by
  unfold Slot.setReg; split <;> split <;> (try split) <;> rfl
@[simp] theorem Slot.setReg_htask (sl : Slot) (r : RegRef) (v : Vec) : (sl.setReg r v).htask = sl.htask := by
  unfold Slot.setReg; split <;> split <;> (try split) <;> rfl
@[simp] theorem Slot.setReg_popped (sl : Slot) (r : RegRef) (v : Vec) : (sl.setReg r v).popped = sl.popped := by
  unfold Slot.setReg; split <;> split <;> (try split) <;> rfl
@[simp] theorem Slot.setReg_parked (sl : Slot) (r : RegRef) (v : Vec) : (sl.setReg r v).parked = sl.parked := by
  unfold Slot.setReg; split <;> split <;> (try split) <;> rfl
@[simp] theorem Slot.setReg_card (sl : Slot) (r : RegRef) (v : Vec) : (sl.setReg r v).card = sl.card := by
  unfold Slot.setReg; split <;> split <;> (try split) <;> rfl
@[simp] theorem Slot.setReg_claimed (sl : Slot) (r : RegRef) (v : Vec) : (sl.setReg r v).claimed = sl.claimed := by
  unfold Slot.setReg; split <;> split <;> (try split) <;> rfl
@[simp] theorem Slot.setReg_dbgWords (sl : Slot) (r : RegRef) (v : Vec) : (sl.setReg r v).dbgWords = sl.dbgWords := by
  unfold Slot.setReg; split <;> split <;> (try split) <;> rfl
@[simp] theorem Slot.setReg_inDebug (sl : Slot) (r : RegRef) (v : Vec) : (sl.setReg r v).inDebug = sl.inDebug := by
  unfold Slot.setReg; split <;> split <;> (try split) <;> rfl
@[simp] theorem Slot.setReg_oneStep (sl : Slot) (r : RegRef) (v : Vec) : (sl.setReg r v).oneStep = sl.oneStep := by
  unfold Slot.setReg; split <;> split <;> (try split) <;> rfl
@[simp] theorem Slot.setReg_passBreak (sl : Slot) (r : RegRef) (v : Vec) : (sl.setReg r v).passBreak = sl.passBreak := by
  unfold Slot.setReg; split <;> split <;> (try split) <;> rfl

/-! ### applyVisible and settle -/

@[simp] theorem Slot.applyVisible_status (n : Nat) (l : List PendFix) : ∀ sl : Slot, (applyVisible n sl l).status = sl.status := by
  induction l with
  | nil => exact fun _ => rfl
  | cons p r ih => intro sl; rw [applyVisible, ih]; split <;> simp
@[simp] theorem Slot.applyVisible_stall (n : Nat) (l : List PendFix) : ∀ sl : Slot, (applyVisible n sl l).stall = sl.stall := by
  induction l with
  | nil => exact fun _ => rfl
  | cons p r ih => intro sl; rw [applyVisible, ih]; split <;> simp
@[simp] theorem Slot.applyVisible_pc (n : Nat) (l : List PendFix) : ∀ sl : Slot, (applyVisible n sl l).pc = sl.pc := by
  induction l with
  | nil => exact fun _ => rfl
  | cons p r ih => intro sl; rw [applyVisible, ih]; split <;> simp
@[simp] theorem Slot.applyVisible_clock (n : Nat) (l : List PendFix) : ∀ sl : Slot, (applyVisible n sl l).clock = sl.clock := by
  induction l with
  | nil => exact fun _ => rfl
  | cons p r ih => intro sl; rw [applyVisible, ih]; split <;> simp
@[simp] theorem Slot.applyVisible_pend (n : Nat) (l : List PendFix) : ∀ sl : Slot, (applyVisible n sl l).pend = sl.pend := by
  induction l with
  | nil => exact fun _ => rfl
  | cons p r ih => intro sl; rw [applyVisible, ih]; split <;> simp
@[simp] theorem Slot.applyVisible_pflags (n : Nat) (l : List PendFix) : ∀ sl : Slot, (applyVisible n sl l).pflags = sl.pflags := by
  induction l with
  | nil => exact fun _ => rfl
  | cons p r ih => intro sl; rw [applyVisible, ih]; split <;> simp
@[simp] theorem Slot.applyVisible_locals (n : Nat) (l : List PendFix) : ∀ sl : Slot, (applyVisible n sl l).locals = sl.locals := by
  induction l with
  | nil => exact fun _ => rfl
  | cons p r ih => intro sl; rw [applyVisible, ih]; split <;> simp
@[simp] theorem Slot.applyVisible_mats (n : Nat) (l : List PendFix) : ∀ sl : Slot, (applyVisible n sl l).mats = sl.mats := by
  induction l with
  | nil => exact fun _ => rfl
  | cons p r ih => intro sl; rw [applyVisible, ih]; split <;> simp
@[simp] theorem Slot.applyVisible_accs (n : Nat) (l : List PendFix) : ∀ sl : Slot, (applyVisible n sl l).accs = sl.accs := by
  induction l with
  | nil => exact fun _ => rfl
  | cons p r ih => intro sl; rw [applyVisible, ih]; split <;> simp
@[simp] theorem Slot.applyVisible_fences (n : Nat) (l : List PendFix) : ∀ sl : Slot, (applyVisible n sl l).fences = sl.fences := by
  induction l with
  | nil => exact fun _ => rfl
  | cons p r ih => intro sl; rw [applyVisible, ih]; split <;> simp
@[simp] theorem Slot.applyVisible_token (n : Nat) (l : List PendFix) : ∀ sl : Slot, (applyVisible n sl l).token = sl.token := by
  induction l with
  | nil => exact fun _ => rfl
  | cons p r ih => intro sl; rw [applyVisible, ih]; split <;> simp
@[simp] theorem Slot.applyVisible_act (n : Nat) (l : List PendFix) : ∀ sl : Slot, (applyVisible n sl l).act = sl.act := by
  induction l with
  | nil => exact fun _ => rfl
  | cons p r ih => intro sl; rw [applyVisible, ih]; split <;> simp
@[simp] theorem Slot.applyVisible_fflags (n : Nat) (l : List PendFix) : ∀ sl : Slot, (applyVisible n sl l).fflags = sl.fflags := by
  induction l with
  | nil => exact fun _ => rfl
  | cons p r ih => intro sl; rw [applyVisible, ih]; split <;> simp
@[simp] theorem Slot.applyVisible_frm (n : Nat) (l : List PendFix) : ∀ sl : Slot, (applyVisible n sl l).frm = sl.frm := by
  induction l with
  | nil => exact fun _ => rfl
  | cons p r ih => intro sl; rw [applyVisible, ih]; split <;> simp
@[simp] theorem Slot.applyVisible_chk (n : Nat) (l : List PendFix) : ∀ sl : Slot, (applyVisible n sl l).chk = sl.chk := by
  induction l with
  | nil => exact fun _ => rfl
  | cons p r ih => intro sl; rw [applyVisible, ih]; split <;> simp
@[simp] theorem Slot.applyVisible_oscope (n : Nat) (l : List PendFix) : ∀ sl : Slot, (applyVisible n sl l).oscope = sl.oscope := by
  induction l with
  | nil => exact fun _ => rfl
  | cons p r ih => intro sl; rw [applyVisible, ih]; split <;> simp
@[simp] theorem Slot.applyVisible_active (n : Nat) (l : List PendFix) : ∀ sl : Slot, (applyVisible n sl l).active = sl.active := by
  induction l with
  | nil => exact fun _ => rfl
  | cons p r ih => intro sl; rw [applyVisible, ih]; split <;> simp
@[simp] theorem Slot.applyVisible_nextReg (n : Nat) (l : List PendFix) : ∀ sl : Slot, (applyVisible n sl l).nextReg = sl.nextReg := by
  induction l with
  | nil => exact fun _ => rfl
  | cons p r ih => intro sl; rw [applyVisible, ih]; split <;> simp
@[simp] theorem Slot.applyVisible_cause (n : Nat) (l : List PendFix) : ∀ sl : Slot, (applyVisible n sl l).cause = sl.cause := by
  induction l with
  | nil => exact fun _ => rfl
  | cons p r ih => intro sl; rw [applyVisible, ih]; split <;> simp
@[simp] theorem Slot.applyVisible_epc (n : Nat) (l : List PendFix) : ∀ sl : Slot, (applyVisible n sl l).epc = sl.epc := by
  induction l with
  | nil => exact fun _ => rfl
  | cons p r ih => intro sl; rw [applyVisible, ih]; split <;> simp
@[simp] theorem Slot.applyVisible_tval (n : Nat) (l : List PendFix) : ∀ sl : Slot, (applyVisible n sl l).tval = sl.tval := by
  induction l with
  | nil => exact fun _ => rfl
  | cons p r ih => intro sl; rw [applyVisible, ih]; split <;> simp
@[simp] theorem Slot.applyVisible_budget (n : Nat) (l : List PendFix) : ∀ sl : Slot, (applyVisible n sl l).budget = sl.budget := by
  induction l with
  | nil => exact fun _ => rfl
  | cons p r ih => intro sl; rw [applyVisible, ih]; split <;> simp
@[simp] theorem Slot.applyVisible_actor (n : Nat) (l : List PendFix) : ∀ sl : Slot, (applyVisible n sl l).actor = sl.actor := by
  induction l with
  | nil => exact fun _ => rfl
  | cons p r ih => intro sl; rw [applyVisible, ih]; split <;> simp
@[simp] theorem Slot.applyVisible_task (n : Nat) (l : List PendFix) : ∀ sl : Slot, (applyVisible n sl l).task = sl.task := by
  induction l with
  | nil => exact fun _ => rfl
  | cons p r ih => intro sl; rw [applyVisible, ih]; split <;> simp
@[simp] theorem Slot.applyVisible_cls (n : Nat) (l : List PendFix) : ∀ sl : Slot, (applyVisible n sl l).cls = sl.cls := by
  induction l with
  | nil => exact fun _ => rfl
  | cons p r ih => intro sl; rw [applyVisible, ih]; split <;> simp
@[simp] theorem Slot.applyVisible_chan (n : Nat) (l : List PendFix) : ∀ sl : Slot, (applyVisible n sl l).chan = sl.chan := by
  induction l with
  | nil => exact fun _ => rfl
  | cons p r ih => intro sl; rw [applyVisible, ih]; split <;> simp
@[simp] theorem Slot.applyVisible_msgid (n : Nat) (l : List PendFix) : ∀ sl : Slot, (applyVisible n sl l).msgid = sl.msgid := by
  induction l with
  | nil => exact fun _ => rfl
  | cons p r ih => intro sl; rw [applyVisible, ih]; split <;> simp
@[simp] theorem Slot.applyVisible_launch (n : Nat) (l : List PendFix) : ∀ sl : Slot, (applyVisible n sl l).launch = sl.launch := by
  induction l with
  | nil => exact fun _ => rfl
  | cons p r ih => intro sl; rw [applyVisible, ih]; split <;> simp
@[simp] theorem Slot.applyVisible_ctx (n : Nat) (l : List PendFix) : ∀ sl : Slot, (applyVisible n sl l).ctx = sl.ctx := by
  induction l with
  | nil => exact fun _ => rfl
  | cons p r ih => intro sl; rw [applyVisible, ih]; split <;> simp
@[simp] theorem Slot.applyVisible_sends (n : Nat) (l : List PendFix) : ∀ sl : Slot, (applyVisible n sl l).sends = sl.sends := by
  induction l with
  | nil => exact fun _ => rfl
  | cons p r ih => intro sl; rw [applyVisible, ih]; split <;> simp
@[simp] theorem Slot.applyVisible_actend (n : Nat) (l : List PendFix) : ∀ sl : Slot, (applyVisible n sl l).actend = sl.actend := by
  induction l with
  | nil => exact fun _ => rfl
  | cons p r ih => intro sl; rw [applyVisible, ih]; split <;> simp
@[simp] theorem Slot.applyVisible_ended (n : Nat) (l : List PendFix) : ∀ sl : Slot, (applyVisible n sl l).ended = sl.ended := by
  induction l with
  | nil => exact fun _ => rfl
  | cons p r ih => intro sl; rw [applyVisible, ih]; split <;> simp
@[simp] theorem Slot.applyVisible_commit (n : Nat) (l : List PendFix) : ∀ sl : Slot, (applyVisible n sl l).commit = sl.commit := by
  induction l with
  | nil => exact fun _ => rfl
  | cons p r ih => intro sl; rw [applyVisible, ih]; split <;> simp
@[simp] theorem Slot.applyVisible_result (n : Nat) (l : List PendFix) : ∀ sl : Slot, (applyVisible n sl l).result = sl.result := by
  induction l with
  | nil => exact fun _ => rfl
  | cons p r ih => intro sl; rw [applyVisible, ih]; split <;> simp
@[simp] theorem Slot.applyVisible_waited (n : Nat) (l : List PendFix) : ∀ sl : Slot, (applyVisible n sl l).waited = sl.waited := by
  induction l with
  | nil => exact fun _ => rfl
  | cons p r ih => intro sl; rw [applyVisible, ih]; split <;> simp
@[simp] theorem Slot.applyVisible_held (n : Nat) (l : List PendFix) : ∀ sl : Slot, (applyVisible n sl l).held = sl.held := by
  induction l with
  | nil => exact fun _ => rfl
  | cons p r ih => intro sl; rw [applyVisible, ih]; split <;> simp
@[simp] theorem Slot.applyVisible_htask (n : Nat) (l : List PendFix) : ∀ sl : Slot, (applyVisible n sl l).htask = sl.htask := by
  induction l with
  | nil => exact fun _ => rfl
  | cons p r ih => intro sl; rw [applyVisible, ih]; split <;> simp
@[simp] theorem Slot.applyVisible_popped (n : Nat) (l : List PendFix) : ∀ sl : Slot, (applyVisible n sl l).popped = sl.popped := by
  induction l with
  | nil => exact fun _ => rfl
  | cons p r ih => intro sl; rw [applyVisible, ih]; split <;> simp
@[simp] theorem Slot.applyVisible_parked (n : Nat) (l : List PendFix) : ∀ sl : Slot, (applyVisible n sl l).parked = sl.parked := by
  induction l with
  | nil => exact fun _ => rfl
  | cons p r ih => intro sl; rw [applyVisible, ih]; split <;> simp
@[simp] theorem Slot.applyVisible_card (n : Nat) (l : List PendFix) : ∀ sl : Slot, (applyVisible n sl l).card = sl.card := by
  induction l with
  | nil => exact fun _ => rfl
  | cons p r ih => intro sl; rw [applyVisible, ih]; split <;> simp
@[simp] theorem Slot.applyVisible_claimed (n : Nat) (l : List PendFix) : ∀ sl : Slot, (applyVisible n sl l).claimed = sl.claimed := by
  induction l with
  | nil => exact fun _ => rfl
  | cons p r ih => intro sl; rw [applyVisible, ih]; split <;> simp
@[simp] theorem Slot.applyVisible_dbgWords (n : Nat) (l : List PendFix) : ∀ sl : Slot, (applyVisible n sl l).dbgWords = sl.dbgWords := by
  induction l with
  | nil => exact fun _ => rfl
  | cons p r ih => intro sl; rw [applyVisible, ih]; split <;> simp
@[simp] theorem Slot.applyVisible_inDebug (n : Nat) (l : List PendFix) : ∀ sl : Slot, (applyVisible n sl l).inDebug = sl.inDebug := by
  induction l with
  | nil => exact fun _ => rfl
  | cons p r ih => intro sl; rw [applyVisible, ih]; split <;> simp
@[simp] theorem Slot.applyVisible_oneStep (n : Nat) (l : List PendFix) : ∀ sl : Slot, (applyVisible n sl l).oneStep = sl.oneStep := by
  induction l with
  | nil => exact fun _ => rfl
  | cons p r ih => intro sl; rw [applyVisible, ih]; split <;> simp
@[simp] theorem Slot.applyVisible_passBreak (n : Nat) (l : List PendFix) : ∀ sl : Slot, (applyVisible n sl l).passBreak = sl.passBreak := by
  induction l with
  | nil => exact fun _ => rfl
  | cons p r ih => intro sl; rw [applyVisible, ih]; split <;> simp
@[simp] theorem Slot.settle_status (sl : Slot) : sl.settle.status = sl.status := by
  simp [Slot.settle]
@[simp] theorem Slot.settle_stall (sl : Slot) : sl.settle.stall = sl.stall := by
  simp [Slot.settle]
@[simp] theorem Slot.settle_pc (sl : Slot) : sl.settle.pc = sl.pc := by
  simp [Slot.settle]
@[simp] theorem Slot.settle_clock (sl : Slot) : sl.settle.clock = sl.clock := by
  simp [Slot.settle]
@[simp] theorem Slot.settle_locals (sl : Slot) : sl.settle.locals = sl.locals := by
  simp [Slot.settle]
@[simp] theorem Slot.settle_mats (sl : Slot) : sl.settle.mats = sl.mats := by
  simp [Slot.settle]
@[simp] theorem Slot.settle_accs (sl : Slot) : sl.settle.accs = sl.accs := by
  simp [Slot.settle]
@[simp] theorem Slot.settle_fences (sl : Slot) : sl.settle.fences = sl.fences := by
  simp [Slot.settle]
@[simp] theorem Slot.settle_token (sl : Slot) : sl.settle.token = sl.token := by
  simp [Slot.settle]
@[simp] theorem Slot.settle_act (sl : Slot) : sl.settle.act = sl.act := by
  simp [Slot.settle]
@[simp] theorem Slot.settle_frm (sl : Slot) : sl.settle.frm = sl.frm := by
  simp [Slot.settle]
@[simp] theorem Slot.settle_chk (sl : Slot) : sl.settle.chk = sl.chk := by
  simp [Slot.settle]
@[simp] theorem Slot.settle_oscope (sl : Slot) : sl.settle.oscope = sl.oscope := by
  simp [Slot.settle]
@[simp] theorem Slot.settle_active (sl : Slot) : sl.settle.active = sl.active := by
  simp [Slot.settle]
@[simp] theorem Slot.settle_nextReg (sl : Slot) : sl.settle.nextReg = sl.nextReg := by
  simp [Slot.settle]
@[simp] theorem Slot.settle_cause (sl : Slot) : sl.settle.cause = sl.cause := by
  simp [Slot.settle]
@[simp] theorem Slot.settle_epc (sl : Slot) : sl.settle.epc = sl.epc := by
  simp [Slot.settle]
@[simp] theorem Slot.settle_tval (sl : Slot) : sl.settle.tval = sl.tval := by
  simp [Slot.settle]
@[simp] theorem Slot.settle_budget (sl : Slot) : sl.settle.budget = sl.budget := by
  simp [Slot.settle]
@[simp] theorem Slot.settle_actor (sl : Slot) : sl.settle.actor = sl.actor := by
  simp [Slot.settle]
@[simp] theorem Slot.settle_task (sl : Slot) : sl.settle.task = sl.task := by
  simp [Slot.settle]
@[simp] theorem Slot.settle_cls (sl : Slot) : sl.settle.cls = sl.cls := by
  simp [Slot.settle]
@[simp] theorem Slot.settle_chan (sl : Slot) : sl.settle.chan = sl.chan := by
  simp [Slot.settle]
@[simp] theorem Slot.settle_msgid (sl : Slot) : sl.settle.msgid = sl.msgid := by
  simp [Slot.settle]
@[simp] theorem Slot.settle_launch (sl : Slot) : sl.settle.launch = sl.launch := by
  simp [Slot.settle]
@[simp] theorem Slot.settle_ctx (sl : Slot) : sl.settle.ctx = sl.ctx := by
  simp [Slot.settle]
@[simp] theorem Slot.settle_sends (sl : Slot) : sl.settle.sends = sl.sends := by
  simp [Slot.settle]
@[simp] theorem Slot.settle_actend (sl : Slot) : sl.settle.actend = sl.actend := by
  simp [Slot.settle]
@[simp] theorem Slot.settle_ended (sl : Slot) : sl.settle.ended = sl.ended := by
  simp [Slot.settle]
@[simp] theorem Slot.settle_commit (sl : Slot) : sl.settle.commit = sl.commit := by
  simp [Slot.settle]
@[simp] theorem Slot.settle_result (sl : Slot) : sl.settle.result = sl.result := by
  simp [Slot.settle]
@[simp] theorem Slot.settle_waited (sl : Slot) : sl.settle.waited = sl.waited := by
  simp [Slot.settle]
@[simp] theorem Slot.settle_held (sl : Slot) : sl.settle.held = sl.held := by
  simp [Slot.settle]
@[simp] theorem Slot.settle_htask (sl : Slot) : sl.settle.htask = sl.htask := by
  simp [Slot.settle]
@[simp] theorem Slot.settle_popped (sl : Slot) : sl.settle.popped = sl.popped := by
  simp [Slot.settle]
@[simp] theorem Slot.settle_parked (sl : Slot) : sl.settle.parked = sl.parked := by
  simp [Slot.settle]
@[simp] theorem Slot.settle_card (sl : Slot) : sl.settle.card = sl.card := by
  simp [Slot.settle]
@[simp] theorem Slot.settle_claimed (sl : Slot) : sl.settle.claimed = sl.claimed := by
  simp [Slot.settle]
@[simp] theorem Slot.settle_dbgWords (sl : Slot) : sl.settle.dbgWords = sl.dbgWords := by
  simp [Slot.settle]
@[simp] theorem Slot.settle_inDebug (sl : Slot) : sl.settle.inDebug = sl.inDebug := by
  simp [Slot.settle]
@[simp] theorem Slot.settle_oneStep (sl : Slot) : sl.settle.oneStep = sl.oneStep := by
  simp [Slot.settle]
@[simp] theorem Slot.settle_passBreak (sl : Slot) : sl.settle.passBreak = sl.passBreak := by
  simp [Slot.settle]

end Sys2Proof.Machine
end

