-- ==== Sys2Proof/Laws/State.lean ====
section
/-! SUPPORT. What each named update of State leaves as it was, and what it writes: one lemma per field. -/
namespace Sys2Proof.Machine

/-! ### setCore -/

@[simp] theorem setCore_module (s : State) (k : Core) : (setCore s k).module = s.module := rfl
@[simp] theorem setCore_modules (s : State) (k : Core) : (setCore s k).modules = s.modules := rfl
@[simp] theorem setCore_cores (s : State) (k : Core) : (setCore s k).cores = putBy (·.id) k s.cores := rfl
@[simp] theorem setCore_clusters (s : State) (k : Core) : (setCore s k).clusters = s.clusters := rfl
@[simp] theorem setCore_dies (s : State) (k : Core) : (setCore s k).dies = s.dies := rfl
@[simp] theorem setCore_copies (s : State) (k : Core) : (setCore s k).copies = s.copies := rfl
@[simp] theorem setCore_qjobs (s : State) (k : Core) : (setCore s k).qjobs = s.qjobs := rfl
@[simp] theorem setCore_pairs (s : State) (k : Core) : (setCore s k).pairs = s.pairs := rfl
@[simp] theorem setCore_buckets (s : State) (k : Core) : (setCore s k).buckets = s.buckets := rfl
@[simp] theorem setCore_mem (s : State) (k : Core) : (setCore s k).mem = s.mem := rfl
@[simp] theorem setCore_descs (s : State) (k : Core) : (setCore s k).descs = s.descs := rfl
@[simp] theorem setCore_blockKey (s : State) (k : Core) : (setCore s k).blockKey = s.blockKey := rfl
@[simp] theorem setCore_poisoned (s : State) (k : Core) : (setCore s k).poisoned = s.poisoned := rfl
@[simp] theorem setCore_retired (s : State) (k : Core) : (setCore s k).retired = s.retired := rfl
@[simp] theorem setCore_keys (s : State) (k : Core) : (setCore s k).keys = s.keys := rfl
@[simp] theorem setCore_tokens (s : State) (k : Core) : (setCore s k).tokens = s.tokens := rfl
@[simp] theorem setCore_contexts (s : State) (k : Core) : (setCore s k).contexts = s.contexts := rfl
@[simp] theorem setCore_launches (s : State) (k : Core) : (setCore s k).launches = s.launches := rfl
@[simp] theorem setCore_nextLid (s : State) (k : Core) : (setCore s k).nextLid = s.nextLid := rfl
@[simp] theorem setCore_reports (s : State) (k : Core) : (setCore s k).reports = s.reports := rfl
@[simp] theorem setCore_requests (s : State) (k : Core) : (setCore s k).requests = s.requests := rfl
@[simp] theorem setCore_egress (s : State) (k : Core) : (setCore s k).egress = s.egress := rfl
@[simp] theorem setCore_bindings (s : State) (k : Core) : (setCore s k).bindings = s.bindings := rfl
@[simp] theorem setCore_deviceOut (s : State) (k : Core) : (setCore s k).deviceOut = s.deviceOut := rfl
@[simp] theorem setCore_savedRows (s : State) (k : Core) : (setCore s k).savedRows = s.savedRows := rfl
@[simp] theorem setCore_savedFrames (s : State) (k : Core) : (setCore s k).savedFrames = s.savedFrames := rfl
@[simp] theorem setCore_frameOwner (s : State) (k : Core) : (setCore s k).frameOwner = s.frameOwner := rfl
@[simp] theorem setCore_frameReports (s : State) (k : Core) : (setCore s k).frameReports = s.frameReports := rfl
@[simp] theorem setCore_linksDown (s : State) (k : Core) : (setCore s k).linksDown = s.linksDown := rfl
@[simp] theorem setCore_linkFails (s : State) (k : Core) : (setCore s k).linkFails = s.linkFails := rfl
@[simp] theorem setCore_generation (s : State) (k : Core) : (setCore s k).generation = s.generation := rfl
@[simp] theorem setCore_domain (s : State) (k : Core) : (setCore s k).domain = s.domain := rfl
@[simp] theorem setCore_routes (s : State) (k : Core) : (setCore s k).routes = s.routes := rfl
@[simp] theorem setCore_moving (s : State) (k : Core) : (setCore s k).moving = s.moving := rfl
@[simp] theorem setCore_changed (s : State) (k : Core) : (setCore s k).changed = s.changed := rfl
@[simp] theorem setCore_boot (s : State) (k : Core) : (setCore s k).boot = s.boot := rfl
@[simp] theorem setCore_power (s : State) (k : Core) : (setCore s k).power = s.power := rfl
@[simp] theorem setCore_dbgOut (s : State) (k : Core) : (setCore s k).dbgOut = s.dbgOut := rfl
@[simp] theorem setCore_dbgTold (s : State) (k : Core) : (setCore s k).dbgTold = s.dbgTold := rfl
@[simp] theorem setCore_netClock (s : State) (k : Core) : (setCore s k).netClock = s.netClock := rfl
@[simp] theorem setCore_nextId (s : State) (k : Core) : (setCore s k).nextId = s.nextId := rfl
@[simp] theorem setCore_free (s : State) (k : Core) : (setCore s k).free = s.free := rfl
@[simp] theorem setCore_curCore (s : State) (k : Core) : (setCore s k).curCore = s.curCore := rfl
@[simp] theorem setCore_curSlot (s : State) (k : Core) : (setCore s k).curSlot = s.curSlot := rfl
@[simp] theorem setCore_agenda (s : State) (k : Core) : (setCore s k).agenda = s.agenda := rfl

/-! ### setDie -/

@[simp] theorem setDie_module (s : State) (d : Die) : (setDie s d).module = s.module := rfl
@[simp] theorem setDie_modules (s : State) (d : Die) : (setDie s d).modules = s.modules := rfl
@[simp] theorem setDie_cores (s : State) (d : Die) : (setDie s d).cores = s.cores := rfl
@[simp] theorem setDie_clusters (s : State) (d : Die) : (setDie s d).clusters = s.clusters := rfl
@[simp] theorem setDie_dies (s : State) (d : Die) : (setDie s d).dies = putBy (·.id) d s.dies := rfl
@[simp] theorem setDie_copies (s : State) (d : Die) : (setDie s d).copies = s.copies := rfl
@[simp] theorem setDie_qjobs (s : State) (d : Die) : (setDie s d).qjobs = s.qjobs := rfl
@[simp] theorem setDie_pairs (s : State) (d : Die) : (setDie s d).pairs = s.pairs := rfl
@[simp] theorem setDie_buckets (s : State) (d : Die) : (setDie s d).buckets = s.buckets := rfl
@[simp] theorem setDie_mem (s : State) (d : Die) : (setDie s d).mem = s.mem := rfl
@[simp] theorem setDie_descs (s : State) (d : Die) : (setDie s d).descs = s.descs := rfl
@[simp] theorem setDie_blockKey (s : State) (d : Die) : (setDie s d).blockKey = s.blockKey := rfl
@[simp] theorem setDie_poisoned (s : State) (d : Die) : (setDie s d).poisoned = s.poisoned := rfl
@[simp] theorem setDie_retired (s : State) (d : Die) : (setDie s d).retired = s.retired := rfl
@[simp] theorem setDie_keys (s : State) (d : Die) : (setDie s d).keys = s.keys := rfl
@[simp] theorem setDie_tokens (s : State) (d : Die) : (setDie s d).tokens = s.tokens := rfl
@[simp] theorem setDie_contexts (s : State) (d : Die) : (setDie s d).contexts = s.contexts := rfl
@[simp] theorem setDie_launches (s : State) (d : Die) : (setDie s d).launches = s.launches := rfl
@[simp] theorem setDie_nextLid (s : State) (d : Die) : (setDie s d).nextLid = s.nextLid := rfl
@[simp] theorem setDie_reports (s : State) (d : Die) : (setDie s d).reports = s.reports := rfl
@[simp] theorem setDie_requests (s : State) (d : Die) : (setDie s d).requests = s.requests := rfl
@[simp] theorem setDie_egress (s : State) (d : Die) : (setDie s d).egress = s.egress := rfl
@[simp] theorem setDie_bindings (s : State) (d : Die) : (setDie s d).bindings = s.bindings := rfl
@[simp] theorem setDie_deviceOut (s : State) (d : Die) : (setDie s d).deviceOut = s.deviceOut := rfl
@[simp] theorem setDie_savedRows (s : State) (d : Die) : (setDie s d).savedRows = s.savedRows := rfl
@[simp] theorem setDie_savedFrames (s : State) (d : Die) : (setDie s d).savedFrames = s.savedFrames := rfl
@[simp] theorem setDie_frameOwner (s : State) (d : Die) : (setDie s d).frameOwner = s.frameOwner := rfl
@[simp] theorem setDie_frameReports (s : State) (d : Die) : (setDie s d).frameReports = s.frameReports := rfl
@[simp] theorem setDie_linksDown (s : State) (d : Die) : (setDie s d).linksDown = s.linksDown := rfl
@[simp] theorem setDie_linkFails (s : State) (d : Die) : (setDie s d).linkFails = s.linkFails := rfl
@[simp] theorem setDie_generation (s : State) (d : Die) : (setDie s d).generation = s.generation := rfl
@[simp] theorem setDie_domain (s : State) (d : Die) : (setDie s d).domain = s.domain := rfl
@[simp] theorem setDie_routes (s : State) (d : Die) : (setDie s d).routes = s.routes := rfl
@[simp] theorem setDie_moving (s : State) (d : Die) : (setDie s d).moving = s.moving := rfl
@[simp] theorem setDie_changed (s : State) (d : Die) : (setDie s d).changed = s.changed := rfl
@[simp] theorem setDie_boot (s : State) (d : Die) : (setDie s d).boot = s.boot := rfl
@[simp] theorem setDie_power (s : State) (d : Die) : (setDie s d).power = s.power := rfl
@[simp] theorem setDie_dbgOut (s : State) (d : Die) : (setDie s d).dbgOut = s.dbgOut := rfl
@[simp] theorem setDie_dbgTold (s : State) (d : Die) : (setDie s d).dbgTold = s.dbgTold := rfl
@[simp] theorem setDie_netClock (s : State) (d : Die) : (setDie s d).netClock = s.netClock := rfl
@[simp] theorem setDie_nextId (s : State) (d : Die) : (setDie s d).nextId = s.nextId := rfl
@[simp] theorem setDie_free (s : State) (d : Die) : (setDie s d).free = s.free := rfl
@[simp] theorem setDie_curCore (s : State) (d : Die) : (setDie s d).curCore = s.curCore := rfl
@[simp] theorem setDie_curSlot (s : State) (d : Die) : (setDie s d).curSlot = s.curSlot := rfl
@[simp] theorem setDie_agenda (s : State) (d : Die) : (setDie s d).agenda = s.agenda := rfl

/-! ### setLaunch -/

@[simp] theorem setLaunch_module (s : State) (l : Launch) : (setLaunch s l).module = s.module := rfl
@[simp] theorem setLaunch_modules (s : State) (l : Launch) : (setLaunch s l).modules = s.modules := rfl
@[simp] theorem setLaunch_cores (s : State) (l : Launch) : (setLaunch s l).cores = s.cores := rfl
@[simp] theorem setLaunch_clusters (s : State) (l : Launch) : (setLaunch s l).clusters = s.clusters := rfl
@[simp] theorem setLaunch_dies (s : State) (l : Launch) : (setLaunch s l).dies = s.dies := rfl
@[simp] theorem setLaunch_copies (s : State) (l : Launch) : (setLaunch s l).copies = s.copies := rfl
@[simp] theorem setLaunch_qjobs (s : State) (l : Launch) : (setLaunch s l).qjobs = s.qjobs := rfl
@[simp] theorem setLaunch_pairs (s : State) (l : Launch) : (setLaunch s l).pairs = s.pairs := rfl
@[simp] theorem setLaunch_buckets (s : State) (l : Launch) : (setLaunch s l).buckets = s.buckets := rfl
@[simp] theorem setLaunch_mem (s : State) (l : Launch) : (setLaunch s l).mem = s.mem := rfl
@[simp] theorem setLaunch_descs (s : State) (l : Launch) : (setLaunch s l).descs = s.descs := rfl
@[simp] theorem setLaunch_blockKey (s : State) (l : Launch) : (setLaunch s l).blockKey = s.blockKey := rfl
@[simp] theorem setLaunch_poisoned (s : State) (l : Launch) : (setLaunch s l).poisoned = s.poisoned := rfl
@[simp] theorem setLaunch_retired (s : State) (l : Launch) : (setLaunch s l).retired = s.retired := rfl
@[simp] theorem setLaunch_keys (s : State) (l : Launch) : (setLaunch s l).keys = s.keys := rfl
@[simp] theorem setLaunch_tokens (s : State) (l : Launch) : (setLaunch s l).tokens = s.tokens := rfl
@[simp] theorem setLaunch_contexts (s : State) (l : Launch) : (setLaunch s l).contexts = s.contexts := rfl
@[simp] theorem setLaunch_launches (s : State) (l : Launch) : (setLaunch s l).launches = putBy (·.id) l s.launches := rfl
@[simp] theorem setLaunch_nextLid (s : State) (l : Launch) : (setLaunch s l).nextLid = s.nextLid := rfl
@[simp] theorem setLaunch_reports (s : State) (l : Launch) : (setLaunch s l).reports = s.reports := rfl
@[simp] theorem setLaunch_requests (s : State) (l : Launch) : (setLaunch s l).requests = s.requests := rfl
@[simp] theorem setLaunch_egress (s : State) (l : Launch) : (setLaunch s l).egress = s.egress := rfl
@[simp] theorem setLaunch_bindings (s : State) (l : Launch) : (setLaunch s l).bindings = s.bindings := rfl
@[simp] theorem setLaunch_deviceOut (s : State) (l : Launch) : (setLaunch s l).deviceOut = s.deviceOut := rfl
@[simp] theorem setLaunch_savedRows (s : State) (l : Launch) : (setLaunch s l).savedRows = s.savedRows := rfl
@[simp] theorem setLaunch_savedFrames (s : State) (l : Launch) : (setLaunch s l).savedFrames = s.savedFrames := rfl
@[simp] theorem setLaunch_frameOwner (s : State) (l : Launch) : (setLaunch s l).frameOwner = s.frameOwner := rfl
@[simp] theorem setLaunch_frameReports (s : State) (l : Launch) : (setLaunch s l).frameReports = s.frameReports := rfl
@[simp] theorem setLaunch_linksDown (s : State) (l : Launch) : (setLaunch s l).linksDown = s.linksDown := rfl
@[simp] theorem setLaunch_linkFails (s : State) (l : Launch) : (setLaunch s l).linkFails = s.linkFails := rfl
@[simp] theorem setLaunch_generation (s : State) (l : Launch) : (setLaunch s l).generation = s.generation := rfl
@[simp] theorem setLaunch_domain (s : State) (l : Launch) : (setLaunch s l).domain = s.domain := rfl
@[simp] theorem setLaunch_routes (s : State) (l : Launch) : (setLaunch s l).routes = s.routes := rfl
@[simp] theorem setLaunch_moving (s : State) (l : Launch) : (setLaunch s l).moving = s.moving := rfl
@[simp] theorem setLaunch_changed (s : State) (l : Launch) : (setLaunch s l).changed = s.changed := rfl
@[simp] theorem setLaunch_boot (s : State) (l : Launch) : (setLaunch s l).boot = s.boot := rfl
@[simp] theorem setLaunch_power (s : State) (l : Launch) : (setLaunch s l).power = s.power := rfl
@[simp] theorem setLaunch_dbgOut (s : State) (l : Launch) : (setLaunch s l).dbgOut = s.dbgOut := rfl
@[simp] theorem setLaunch_dbgTold (s : State) (l : Launch) : (setLaunch s l).dbgTold = s.dbgTold := rfl
@[simp] theorem setLaunch_netClock (s : State) (l : Launch) : (setLaunch s l).netClock = s.netClock := rfl
@[simp] theorem setLaunch_nextId (s : State) (l : Launch) : (setLaunch s l).nextId = s.nextId := rfl
@[simp] theorem setLaunch_free (s : State) (l : Launch) : (setLaunch s l).free = s.free := rfl
@[simp] theorem setLaunch_curCore (s : State) (l : Launch) : (setLaunch s l).curCore = s.curCore := rfl
@[simp] theorem setLaunch_curSlot (s : State) (l : Launch) : (setLaunch s l).curSlot = s.curSlot := rfl
@[simp] theorem setLaunch_agenda (s : State) (l : Launch) : (setLaunch s l).agenda = s.agenda := rfl

/-! ### setContext -/

@[simp] theorem setContext_module (s : State) (c : Context) : (setContext s c).module = s.module := rfl
@[simp] theorem setContext_modules (s : State) (c : Context) : (setContext s c).modules = s.modules := rfl
@[simp] theorem setContext_cores (s : State) (c : Context) : (setContext s c).cores = s.cores := rfl
@[simp] theorem setContext_clusters (s : State) (c : Context) : (setContext s c).clusters = s.clusters := rfl
@[simp] theorem setContext_dies (s : State) (c : Context) : (setContext s c).dies = s.dies := rfl
@[simp] theorem setContext_copies (s : State) (c : Context) : (setContext s c).copies = s.copies := rfl
@[simp] theorem setContext_qjobs (s : State) (c : Context) : (setContext s c).qjobs = s.qjobs := rfl
@[simp] theorem setContext_pairs (s : State) (c : Context) : (setContext s c).pairs = s.pairs := rfl
@[simp] theorem setContext_buckets (s : State) (c : Context) : (setContext s c).buckets = s.buckets := rfl
@[simp] theorem setContext_mem (s : State) (c : Context) : (setContext s c).mem = s.mem := rfl
@[simp] theorem setContext_descs (s : State) (c : Context) : (setContext s c).descs = s.descs := rfl
@[simp] theorem setContext_blockKey (s : State) (c : Context) : (setContext s c).blockKey = s.blockKey := rfl
@[simp] theorem setContext_poisoned (s : State) (c : Context) : (setContext s c).poisoned = s.poisoned := rfl
@[simp] theorem setContext_retired (s : State) (c : Context) : (setContext s c).retired = s.retired := rfl
@[simp] theorem setContext_keys (s : State) (c : Context) : (setContext s c).keys = s.keys := rfl
@[simp] theorem setContext_tokens (s : State) (c : Context) : (setContext s c).tokens = s.tokens := rfl
@[simp] theorem setContext_contexts (s : State) (c : Context) : (setContext s c).contexts = putBy (·.asid) c s.contexts := rfl
@[simp] theorem setContext_launches (s : State) (c : Context) : (setContext s c).launches = s.launches := rfl
@[simp] theorem setContext_nextLid (s : State) (c : Context) : (setContext s c).nextLid = s.nextLid := rfl
@[simp] theorem setContext_reports (s : State) (c : Context) : (setContext s c).reports = s.reports := rfl
@[simp] theorem setContext_requests (s : State) (c : Context) : (setContext s c).requests = s.requests := rfl
@[simp] theorem setContext_egress (s : State) (c : Context) : (setContext s c).egress = s.egress := rfl
@[simp] theorem setContext_bindings (s : State) (c : Context) : (setContext s c).bindings = s.bindings := rfl
@[simp] theorem setContext_deviceOut (s : State) (c : Context) : (setContext s c).deviceOut = s.deviceOut := rfl
@[simp] theorem setContext_savedRows (s : State) (c : Context) : (setContext s c).savedRows = s.savedRows := rfl
@[simp] theorem setContext_savedFrames (s : State) (c : Context) : (setContext s c).savedFrames = s.savedFrames := rfl
@[simp] theorem setContext_frameOwner (s : State) (c : Context) : (setContext s c).frameOwner = s.frameOwner := rfl
@[simp] theorem setContext_frameReports (s : State) (c : Context) : (setContext s c).frameReports = s.frameReports := rfl
@[simp] theorem setContext_linksDown (s : State) (c : Context) : (setContext s c).linksDown = s.linksDown := rfl
@[simp] theorem setContext_linkFails (s : State) (c : Context) : (setContext s c).linkFails = s.linkFails := rfl
@[simp] theorem setContext_generation (s : State) (c : Context) : (setContext s c).generation = s.generation := rfl
@[simp] theorem setContext_domain (s : State) (c : Context) : (setContext s c).domain = s.domain := rfl
@[simp] theorem setContext_routes (s : State) (c : Context) : (setContext s c).routes = s.routes := rfl
@[simp] theorem setContext_moving (s : State) (c : Context) : (setContext s c).moving = s.moving := rfl
@[simp] theorem setContext_changed (s : State) (c : Context) : (setContext s c).changed = s.changed := rfl
@[simp] theorem setContext_boot (s : State) (c : Context) : (setContext s c).boot = s.boot := rfl
@[simp] theorem setContext_power (s : State) (c : Context) : (setContext s c).power = s.power := rfl
@[simp] theorem setContext_dbgOut (s : State) (c : Context) : (setContext s c).dbgOut = s.dbgOut := rfl
@[simp] theorem setContext_dbgTold (s : State) (c : Context) : (setContext s c).dbgTold = s.dbgTold := rfl
@[simp] theorem setContext_netClock (s : State) (c : Context) : (setContext s c).netClock = s.netClock := rfl
@[simp] theorem setContext_nextId (s : State) (c : Context) : (setContext s c).nextId = s.nextId := rfl
@[simp] theorem setContext_free (s : State) (c : Context) : (setContext s c).free = s.free := rfl
@[simp] theorem setContext_curCore (s : State) (c : Context) : (setContext s c).curCore = s.curCore := rfl
@[simp] theorem setContext_curSlot (s : State) (c : Context) : (setContext s c).curSlot = s.curSlot := rfl
@[simp] theorem setContext_agenda (s : State) (c : Context) : (setContext s c).agenda = s.agenda := rfl

/-! ### setCluster -/

@[simp] theorem setCluster_module (s : State) (c : Cluster) : (setCluster s c).module = s.module := rfl
@[simp] theorem setCluster_modules (s : State) (c : Cluster) : (setCluster s c).modules = s.modules := rfl
@[simp] theorem setCluster_cores (s : State) (c : Cluster) : (setCluster s c).cores = s.cores := rfl
@[simp] theorem setCluster_clusters (s : State) (c : Cluster) : (setCluster s c).clusters = putBy (·.id) c s.clusters := rfl
@[simp] theorem setCluster_dies (s : State) (c : Cluster) : (setCluster s c).dies = s.dies := rfl
@[simp] theorem setCluster_copies (s : State) (c : Cluster) : (setCluster s c).copies = s.copies := rfl
@[simp] theorem setCluster_qjobs (s : State) (c : Cluster) : (setCluster s c).qjobs = s.qjobs := rfl
@[simp] theorem setCluster_pairs (s : State) (c : Cluster) : (setCluster s c).pairs = s.pairs := rfl
@[simp] theorem setCluster_buckets (s : State) (c : Cluster) : (setCluster s c).buckets = s.buckets := rfl
@[simp] theorem setCluster_mem (s : State) (c : Cluster) : (setCluster s c).mem = s.mem := rfl
@[simp] theorem setCluster_descs (s : State) (c : Cluster) : (setCluster s c).descs = s.descs := rfl
@[simp] theorem setCluster_blockKey (s : State) (c : Cluster) : (setCluster s c).blockKey = s.blockKey := rfl
@[simp] theorem setCluster_poisoned (s : State) (c : Cluster) : (setCluster s c).poisoned = s.poisoned := rfl
@[simp] theorem setCluster_retired (s : State) (c : Cluster) : (setCluster s c).retired = s.retired := rfl
@[simp] theorem setCluster_keys (s : State) (c : Cluster) : (setCluster s c).keys = s.keys := rfl
@[simp] theorem setCluster_tokens (s : State) (c : Cluster) : (setCluster s c).tokens = s.tokens := rfl
@[simp] theorem setCluster_contexts (s : State) (c : Cluster) : (setCluster s c).contexts = s.contexts := rfl
@[simp] theorem setCluster_launches (s : State) (c : Cluster) : (setCluster s c).launches = s.launches := rfl
@[simp] theorem setCluster_nextLid (s : State) (c : Cluster) : (setCluster s c).nextLid = s.nextLid := rfl
@[simp] theorem setCluster_reports (s : State) (c : Cluster) : (setCluster s c).reports = s.reports := rfl
@[simp] theorem setCluster_requests (s : State) (c : Cluster) : (setCluster s c).requests = s.requests := rfl
@[simp] theorem setCluster_egress (s : State) (c : Cluster) : (setCluster s c).egress = s.egress := rfl
@[simp] theorem setCluster_bindings (s : State) (c : Cluster) : (setCluster s c).bindings = s.bindings := rfl
@[simp] theorem setCluster_deviceOut (s : State) (c : Cluster) : (setCluster s c).deviceOut = s.deviceOut := rfl
@[simp] theorem setCluster_savedRows (s : State) (c : Cluster) : (setCluster s c).savedRows = s.savedRows := rfl
@[simp] theorem setCluster_savedFrames (s : State) (c : Cluster) : (setCluster s c).savedFrames = s.savedFrames := rfl
@[simp] theorem setCluster_frameOwner (s : State) (c : Cluster) : (setCluster s c).frameOwner = s.frameOwner := rfl
@[simp] theorem setCluster_frameReports (s : State) (c : Cluster) : (setCluster s c).frameReports = s.frameReports := rfl
@[simp] theorem setCluster_linksDown (s : State) (c : Cluster) : (setCluster s c).linksDown = s.linksDown := rfl
@[simp] theorem setCluster_linkFails (s : State) (c : Cluster) : (setCluster s c).linkFails = s.linkFails := rfl
@[simp] theorem setCluster_generation (s : State) (c : Cluster) : (setCluster s c).generation = s.generation := rfl
@[simp] theorem setCluster_domain (s : State) (c : Cluster) : (setCluster s c).domain = s.domain := rfl
@[simp] theorem setCluster_routes (s : State) (c : Cluster) : (setCluster s c).routes = s.routes := rfl
@[simp] theorem setCluster_moving (s : State) (c : Cluster) : (setCluster s c).moving = s.moving := rfl
@[simp] theorem setCluster_changed (s : State) (c : Cluster) : (setCluster s c).changed = s.changed := rfl
@[simp] theorem setCluster_boot (s : State) (c : Cluster) : (setCluster s c).boot = s.boot := rfl
@[simp] theorem setCluster_power (s : State) (c : Cluster) : (setCluster s c).power = s.power := rfl
@[simp] theorem setCluster_dbgOut (s : State) (c : Cluster) : (setCluster s c).dbgOut = s.dbgOut := rfl
@[simp] theorem setCluster_dbgTold (s : State) (c : Cluster) : (setCluster s c).dbgTold = s.dbgTold := rfl
@[simp] theorem setCluster_netClock (s : State) (c : Cluster) : (setCluster s c).netClock = s.netClock := rfl
@[simp] theorem setCluster_nextId (s : State) (c : Cluster) : (setCluster s c).nextId = s.nextId := rfl
@[simp] theorem setCluster_free (s : State) (c : Cluster) : (setCluster s c).free = s.free := rfl
@[simp] theorem setCluster_curCore (s : State) (c : Cluster) : (setCluster s c).curCore = s.curCore := rfl
@[simp] theorem setCluster_curSlot (s : State) (c : Cluster) : (setCluster s c).curSlot = s.curSlot := rfl
@[simp] theorem setCluster_agenda (s : State) (c : Cluster) : (setCluster s c).agenda = s.agenda := rfl

/-! ### setPair -/

@[simp] theorem setPair_module (s : State) (p : Pair) : (setPair s p).module = s.module := rfl
@[simp] theorem setPair_modules (s : State) (p : Pair) : (setPair s p).modules = s.modules := rfl
@[simp] theorem setPair_cores (s : State) (p : Pair) : (setPair s p).cores = s.cores := rfl
@[simp] theorem setPair_clusters (s : State) (p : Pair) : (setPair s p).clusters = s.clusters := rfl
@[simp] theorem setPair_dies (s : State) (p : Pair) : (setPair s p).dies = s.dies := rfl
@[simp] theorem setPair_copies (s : State) (p : Pair) : (setPair s p).copies = s.copies := rfl
@[simp] theorem setPair_qjobs (s : State) (p : Pair) : (setPair s p).qjobs = s.qjobs := rfl
@[simp] theorem setPair_pairs (s : State) (p : Pair) : (setPair s p).pairs = putBy Pair.key p s.pairs := rfl
@[simp] theorem setPair_buckets (s : State) (p : Pair) : (setPair s p).buckets = s.buckets := rfl
@[simp] theorem setPair_mem (s : State) (p : Pair) : (setPair s p).mem = s.mem := rfl
@[simp] theorem setPair_descs (s : State) (p : Pair) : (setPair s p).descs = s.descs := rfl
@[simp] theorem setPair_blockKey (s : State) (p : Pair) : (setPair s p).blockKey = s.blockKey := rfl
@[simp] theorem setPair_poisoned (s : State) (p : Pair) : (setPair s p).poisoned = s.poisoned := rfl
@[simp] theorem setPair_retired (s : State) (p : Pair) : (setPair s p).retired = s.retired := rfl
@[simp] theorem setPair_keys (s : State) (p : Pair) : (setPair s p).keys = s.keys := rfl
@[simp] theorem setPair_tokens (s : State) (p : Pair) : (setPair s p).tokens = s.tokens := rfl
@[simp] theorem setPair_contexts (s : State) (p : Pair) : (setPair s p).contexts = s.contexts := rfl
@[simp] theorem setPair_launches (s : State) (p : Pair) : (setPair s p).launches = s.launches := rfl
@[simp] theorem setPair_nextLid (s : State) (p : Pair) : (setPair s p).nextLid = s.nextLid := rfl
@[simp] theorem setPair_reports (s : State) (p : Pair) : (setPair s p).reports = s.reports := rfl
@[simp] theorem setPair_requests (s : State) (p : Pair) : (setPair s p).requests = s.requests := rfl
@[simp] theorem setPair_egress (s : State) (p : Pair) : (setPair s p).egress = s.egress := rfl
@[simp] theorem setPair_bindings (s : State) (p : Pair) : (setPair s p).bindings = s.bindings := rfl
@[simp] theorem setPair_deviceOut (s : State) (p : Pair) : (setPair s p).deviceOut = s.deviceOut := rfl
@[simp] theorem setPair_savedRows (s : State) (p : Pair) : (setPair s p).savedRows = s.savedRows := rfl
@[simp] theorem setPair_savedFrames (s : State) (p : Pair) : (setPair s p).savedFrames = s.savedFrames := rfl
@[simp] theorem setPair_frameOwner (s : State) (p : Pair) : (setPair s p).frameOwner = s.frameOwner := rfl
@[simp] theorem setPair_frameReports (s : State) (p : Pair) : (setPair s p).frameReports = s.frameReports := rfl
@[simp] theorem setPair_linksDown (s : State) (p : Pair) : (setPair s p).linksDown = s.linksDown := rfl
@[simp] theorem setPair_linkFails (s : State) (p : Pair) : (setPair s p).linkFails = s.linkFails := rfl
@[simp] theorem setPair_generation (s : State) (p : Pair) : (setPair s p).generation = s.generation := rfl
@[simp] theorem setPair_domain (s : State) (p : Pair) : (setPair s p).domain = s.domain := rfl
@[simp] theorem setPair_routes (s : State) (p : Pair) : (setPair s p).routes = s.routes := rfl
@[simp] theorem setPair_moving (s : State) (p : Pair) : (setPair s p).moving = s.moving := rfl
@[simp] theorem setPair_changed (s : State) (p : Pair) : (setPair s p).changed = s.changed := rfl
@[simp] theorem setPair_boot (s : State) (p : Pair) : (setPair s p).boot = s.boot := rfl
@[simp] theorem setPair_power (s : State) (p : Pair) : (setPair s p).power = s.power := rfl
@[simp] theorem setPair_dbgOut (s : State) (p : Pair) : (setPair s p).dbgOut = s.dbgOut := rfl
@[simp] theorem setPair_dbgTold (s : State) (p : Pair) : (setPair s p).dbgTold = s.dbgTold := rfl
@[simp] theorem setPair_netClock (s : State) (p : Pair) : (setPair s p).netClock = s.netClock := rfl
@[simp] theorem setPair_nextId (s : State) (p : Pair) : (setPair s p).nextId = s.nextId := rfl
@[simp] theorem setPair_free (s : State) (p : Pair) : (setPair s p).free = s.free := rfl
@[simp] theorem setPair_curCore (s : State) (p : Pair) : (setPair s p).curCore = s.curCore := rfl
@[simp] theorem setPair_curSlot (s : State) (p : Pair) : (setPair s p).curSlot = s.curSlot := rfl
@[simp] theorem setPair_agenda (s : State) (p : Pair) : (setPair s p).agenda = s.agenda := rfl

/-! ### report -/

@[simp] theorem report_module (s : State) (r : FaultReport) : (report s r).module = s.module := rfl
@[simp] theorem report_modules (s : State) (r : FaultReport) : (report s r).modules = s.modules := rfl
@[simp] theorem report_cores (s : State) (r : FaultReport) : (report s r).cores = s.cores := rfl
@[simp] theorem report_clusters (s : State) (r : FaultReport) : (report s r).clusters = s.clusters := rfl
@[simp] theorem report_dies (s : State) (r : FaultReport) : (report s r).dies = s.dies := rfl
@[simp] theorem report_copies (s : State) (r : FaultReport) : (report s r).copies = s.copies := rfl
@[simp] theorem report_qjobs (s : State) (r : FaultReport) : (report s r).qjobs = s.qjobs := rfl
@[simp] theorem report_pairs (s : State) (r : FaultReport) : (report s r).pairs = s.pairs := rfl
@[simp] theorem report_buckets (s : State) (r : FaultReport) : (report s r).buckets = s.buckets := rfl
@[simp] theorem report_mem (s : State) (r : FaultReport) : (report s r).mem = s.mem := rfl
@[simp] theorem report_descs (s : State) (r : FaultReport) : (report s r).descs = s.descs := rfl
@[simp] theorem report_blockKey (s : State) (r : FaultReport) : (report s r).blockKey = s.blockKey := rfl
@[simp] theorem report_poisoned (s : State) (r : FaultReport) : (report s r).poisoned = s.poisoned := rfl
@[simp] theorem report_retired (s : State) (r : FaultReport) : (report s r).retired = s.retired := rfl
@[simp] theorem report_keys (s : State) (r : FaultReport) : (report s r).keys = s.keys := rfl
@[simp] theorem report_tokens (s : State) (r : FaultReport) : (report s r).tokens = s.tokens := rfl
@[simp] theorem report_contexts (s : State) (r : FaultReport) : (report s r).contexts = s.contexts := rfl
@[simp] theorem report_launches (s : State) (r : FaultReport) : (report s r).launches = s.launches := rfl
@[simp] theorem report_nextLid (s : State) (r : FaultReport) : (report s r).nextLid = s.nextLid := rfl
@[simp] theorem report_reports (s : State) (r : FaultReport) : (report s r).reports = s.reports ++ [r] := rfl
@[simp] theorem report_requests (s : State) (r : FaultReport) : (report s r).requests = s.requests := rfl
@[simp] theorem report_egress (s : State) (r : FaultReport) : (report s r).egress = s.egress := rfl
@[simp] theorem report_bindings (s : State) (r : FaultReport) : (report s r).bindings = s.bindings := rfl
@[simp] theorem report_deviceOut (s : State) (r : FaultReport) : (report s r).deviceOut = s.deviceOut := rfl
@[simp] theorem report_savedRows (s : State) (r : FaultReport) : (report s r).savedRows = s.savedRows := rfl
@[simp] theorem report_savedFrames (s : State) (r : FaultReport) : (report s r).savedFrames = s.savedFrames := rfl
@[simp] theorem report_frameOwner (s : State) (r : FaultReport) : (report s r).frameOwner = s.frameOwner := rfl
@[simp] theorem report_frameReports (s : State) (r : FaultReport) : (report s r).frameReports = s.frameReports := rfl
@[simp] theorem report_linksDown (s : State) (r : FaultReport) : (report s r).linksDown = s.linksDown := rfl
@[simp] theorem report_linkFails (s : State) (r : FaultReport) : (report s r).linkFails = s.linkFails := rfl
@[simp] theorem report_generation (s : State) (r : FaultReport) : (report s r).generation = s.generation := rfl
@[simp] theorem report_domain (s : State) (r : FaultReport) : (report s r).domain = s.domain := rfl
@[simp] theorem report_routes (s : State) (r : FaultReport) : (report s r).routes = s.routes := rfl
@[simp] theorem report_moving (s : State) (r : FaultReport) : (report s r).moving = s.moving := rfl
@[simp] theorem report_changed (s : State) (r : FaultReport) : (report s r).changed = s.changed := rfl
@[simp] theorem report_boot (s : State) (r : FaultReport) : (report s r).boot = s.boot := rfl
@[simp] theorem report_power (s : State) (r : FaultReport) : (report s r).power = s.power := rfl
@[simp] theorem report_dbgOut (s : State) (r : FaultReport) : (report s r).dbgOut = s.dbgOut := rfl
@[simp] theorem report_dbgTold (s : State) (r : FaultReport) : (report s r).dbgTold = s.dbgTold := rfl
@[simp] theorem report_netClock (s : State) (r : FaultReport) : (report s r).netClock = s.netClock := rfl
@[simp] theorem report_nextId (s : State) (r : FaultReport) : (report s r).nextId = s.nextId := rfl
@[simp] theorem report_free (s : State) (r : FaultReport) : (report s r).free = s.free := rfl
@[simp] theorem report_curCore (s : State) (r : FaultReport) : (report s r).curCore = s.curCore := rfl
@[simp] theorem report_curSlot (s : State) (r : FaultReport) : (report s r).curSlot = s.curSlot := rfl
@[simp] theorem report_agenda (s : State) (r : FaultReport) : (report s r).agenda = s.agenda := rfl

/-! ### setSlot: nothing but the cores -/

@[simp] theorem setSlot_module (s : State) (c : Nat) (i : Fin 4) (v : Slot) : (setSlot s c i v).module = s.module := rfl
@[simp] theorem setSlot_modules (s : State) (c : Nat) (i : Fin 4) (v : Slot) : (setSlot s c i v).modules = s.modules := rfl
@[simp] theorem setSlot_clusters (s : State) (c : Nat) (i : Fin 4) (v : Slot) : (setSlot s c i v).clusters = s.clusters := rfl
@[simp] theorem setSlot_dies (s : State) (c : Nat) (i : Fin 4) (v : Slot) : (setSlot s c i v).dies = s.dies := rfl
@[simp] theorem setSlot_copies (s : State) (c : Nat) (i : Fin 4) (v : Slot) : (setSlot s c i v).copies = s.copies := rfl
@[simp] theorem setSlot_qjobs (s : State) (c : Nat) (i : Fin 4) (v : Slot) : (setSlot s c i v).qjobs = s.qjobs := rfl
@[simp] theorem setSlot_pairs (s : State) (c : Nat) (i : Fin 4) (v : Slot) : (setSlot s c i v).pairs = s.pairs := rfl
@[simp] theorem setSlot_buckets (s : State) (c : Nat) (i : Fin 4) (v : Slot) : (setSlot s c i v).buckets = s.buckets := rfl
@[simp] theorem setSlot_mem (s : State) (c : Nat) (i : Fin 4) (v : Slot) : (setSlot s c i v).mem = s.mem := rfl
@[simp] theorem setSlot_descs (s : State) (c : Nat) (i : Fin 4) (v : Slot) : (setSlot s c i v).descs = s.descs := rfl
@[simp] theorem setSlot_blockKey (s : State) (c : Nat) (i : Fin 4) (v : Slot) : (setSlot s c i v).blockKey = s.blockKey := rfl
@[simp] theorem setSlot_poisoned (s : State) (c : Nat) (i : Fin 4) (v : Slot) : (setSlot s c i v).poisoned = s.poisoned := rfl
@[simp] theorem setSlot_retired (s : State) (c : Nat) (i : Fin 4) (v : Slot) : (setSlot s c i v).retired = s.retired := rfl
@[simp] theorem setSlot_keys (s : State) (c : Nat) (i : Fin 4) (v : Slot) : (setSlot s c i v).keys = s.keys := rfl
@[simp] theorem setSlot_tokens (s : State) (c : Nat) (i : Fin 4) (v : Slot) : (setSlot s c i v).tokens = s.tokens := rfl
@[simp] theorem setSlot_contexts (s : State) (c : Nat) (i : Fin 4) (v : Slot) : (setSlot s c i v).contexts = s.contexts := rfl
@[simp] theorem setSlot_launches (s : State) (c : Nat) (i : Fin 4) (v : Slot) : (setSlot s c i v).launches = s.launches := rfl
@[simp] theorem setSlot_nextLid (s : State) (c : Nat) (i : Fin 4) (v : Slot) : (setSlot s c i v).nextLid = s.nextLid := rfl
@[simp] theorem setSlot_reports (s : State) (c : Nat) (i : Fin 4) (v : Slot) : (setSlot s c i v).reports = s.reports := rfl
@[simp] theorem setSlot_requests (s : State) (c : Nat) (i : Fin 4) (v : Slot) : (setSlot s c i v).requests = s.requests := rfl
@[simp] theorem setSlot_egress (s : State) (c : Nat) (i : Fin 4) (v : Slot) : (setSlot s c i v).egress = s.egress := rfl
@[simp] theorem setSlot_bindings (s : State) (c : Nat) (i : Fin 4) (v : Slot) : (setSlot s c i v).bindings = s.bindings := rfl
@[simp] theorem setSlot_deviceOut (s : State) (c : Nat) (i : Fin 4) (v : Slot) : (setSlot s c i v).deviceOut = s.deviceOut := rfl
@[simp] theorem setSlot_savedRows (s : State) (c : Nat) (i : Fin 4) (v : Slot) : (setSlot s c i v).savedRows = s.savedRows := rfl
@[simp] theorem setSlot_savedFrames (s : State) (c : Nat) (i : Fin 4) (v : Slot) : (setSlot s c i v).savedFrames = s.savedFrames := rfl
@[simp] theorem setSlot_frameOwner (s : State) (c : Nat) (i : Fin 4) (v : Slot) : (setSlot s c i v).frameOwner = s.frameOwner := rfl
@[simp] theorem setSlot_frameReports (s : State) (c : Nat) (i : Fin 4) (v : Slot) : (setSlot s c i v).frameReports = s.frameReports := rfl
@[simp] theorem setSlot_linksDown (s : State) (c : Nat) (i : Fin 4) (v : Slot) : (setSlot s c i v).linksDown = s.linksDown := rfl
@[simp] theorem setSlot_linkFails (s : State) (c : Nat) (i : Fin 4) (v : Slot) : (setSlot s c i v).linkFails = s.linkFails := rfl
@[simp] theorem setSlot_generation (s : State) (c : Nat) (i : Fin 4) (v : Slot) : (setSlot s c i v).generation = s.generation := rfl
@[simp] theorem setSlot_domain (s : State) (c : Nat) (i : Fin 4) (v : Slot) : (setSlot s c i v).domain = s.domain := rfl
@[simp] theorem setSlot_routes (s : State) (c : Nat) (i : Fin 4) (v : Slot) : (setSlot s c i v).routes = s.routes := rfl
@[simp] theorem setSlot_moving (s : State) (c : Nat) (i : Fin 4) (v : Slot) : (setSlot s c i v).moving = s.moving := rfl
@[simp] theorem setSlot_changed (s : State) (c : Nat) (i : Fin 4) (v : Slot) : (setSlot s c i v).changed = s.changed := rfl
@[simp] theorem setSlot_boot (s : State) (c : Nat) (i : Fin 4) (v : Slot) : (setSlot s c i v).boot = s.boot := rfl
@[simp] theorem setSlot_power (s : State) (c : Nat) (i : Fin 4) (v : Slot) : (setSlot s c i v).power = s.power := rfl
@[simp] theorem setSlot_dbgOut (s : State) (c : Nat) (i : Fin 4) (v : Slot) : (setSlot s c i v).dbgOut = s.dbgOut := rfl
@[simp] theorem setSlot_dbgTold (s : State) (c : Nat) (i : Fin 4) (v : Slot) : (setSlot s c i v).dbgTold = s.dbgTold := rfl
@[simp] theorem setSlot_netClock (s : State) (c : Nat) (i : Fin 4) (v : Slot) : (setSlot s c i v).netClock = s.netClock := rfl
@[simp] theorem setSlot_nextId (s : State) (c : Nat) (i : Fin 4) (v : Slot) : (setSlot s c i v).nextId = s.nextId := rfl
@[simp] theorem setSlot_free (s : State) (c : Nat) (i : Fin 4) (v : Slot) : (setSlot s c i v).free = s.free := rfl
@[simp] theorem setSlot_curCore (s : State) (c : Nat) (i : Fin 4) (v : Slot) : (setSlot s c i v).curCore = s.curCore := rfl
@[simp] theorem setSlot_curSlot (s : State) (c : Nat) (i : Fin 4) (v : Slot) : (setSlot s c i v).curSlot = s.curSlot := rfl
@[simp] theorem setSlot_agenda (s : State) (c : Nat) (i : Fin 4) (v : Slot) : (setSlot s c i v).agenda = s.agenda := rfl

/-! ### modSlot: nothing but the cores -/

@[simp] theorem modSlot_module (s : State) (c : Nat) (i : Fin 4) (f : Slot → Slot) : (modSlot s c i f).module = s.module := rfl
@[simp] theorem modSlot_modules (s : State) (c : Nat) (i : Fin 4) (f : Slot → Slot) : (modSlot s c i f).modules = s.modules := rfl
@[simp] theorem modSlot_clusters (s : State) (c : Nat) (i : Fin 4) (f : Slot → Slot) : (modSlot s c i f).clusters = s.clusters := rfl
@[simp] theorem modSlot_dies (s : State) (c : Nat) (i : Fin 4) (f : Slot → Slot) : (modSlot s c i f).dies = s.dies := rfl
@[simp] theorem modSlot_copies (s : State) (c : Nat) (i : Fin 4) (f : Slot → Slot) : (modSlot s c i f).copies = s.copies := rfl
@[simp] theorem modSlot_qjobs (s : State) (c : Nat) (i : Fin 4) (f : Slot → Slot) : (modSlot s c i f).qjobs = s.qjobs := rfl
@[simp] theorem modSlot_pairs (s : State) (c : Nat) (i : Fin 4) (f : Slot → Slot) : (modSlot s c i f).pairs = s.pairs := rfl
@[simp] theorem modSlot_buckets (s : State) (c : Nat) (i : Fin 4) (f : Slot → Slot) : (modSlot s c i f).buckets = s.buckets := rfl
@[simp] theorem modSlot_mem (s : State) (c : Nat) (i : Fin 4) (f : Slot → Slot) : (modSlot s c i f).mem = s.mem := rfl
@[simp] theorem modSlot_descs (s : State) (c : Nat) (i : Fin 4) (f : Slot → Slot) : (modSlot s c i f).descs = s.descs := rfl
@[simp] theorem modSlot_blockKey (s : State) (c : Nat) (i : Fin 4) (f : Slot → Slot) : (modSlot s c i f).blockKey = s.blockKey := rfl
@[simp] theorem modSlot_poisoned (s : State) (c : Nat) (i : Fin 4) (f : Slot → Slot) : (modSlot s c i f).poisoned = s.poisoned := rfl
@[simp] theorem modSlot_retired (s : State) (c : Nat) (i : Fin 4) (f : Slot → Slot) : (modSlot s c i f).retired = s.retired := rfl
@[simp] theorem modSlot_keys (s : State) (c : Nat) (i : Fin 4) (f : Slot → Slot) : (modSlot s c i f).keys = s.keys := rfl
@[simp] theorem modSlot_tokens (s : State) (c : Nat) (i : Fin 4) (f : Slot → Slot) : (modSlot s c i f).tokens = s.tokens := rfl
@[simp] theorem modSlot_contexts (s : State) (c : Nat) (i : Fin 4) (f : Slot → Slot) : (modSlot s c i f).contexts = s.contexts := rfl
@[simp] theorem modSlot_launches (s : State) (c : Nat) (i : Fin 4) (f : Slot → Slot) : (modSlot s c i f).launches = s.launches := rfl
@[simp] theorem modSlot_nextLid (s : State) (c : Nat) (i : Fin 4) (f : Slot → Slot) : (modSlot s c i f).nextLid = s.nextLid := rfl
@[simp] theorem modSlot_reports (s : State) (c : Nat) (i : Fin 4) (f : Slot → Slot) : (modSlot s c i f).reports = s.reports := rfl
@[simp] theorem modSlot_requests (s : State) (c : Nat) (i : Fin 4) (f : Slot → Slot) : (modSlot s c i f).requests = s.requests := rfl
@[simp] theorem modSlot_egress (s : State) (c : Nat) (i : Fin 4) (f : Slot → Slot) : (modSlot s c i f).egress = s.egress := rfl
@[simp] theorem modSlot_bindings (s : State) (c : Nat) (i : Fin 4) (f : Slot → Slot) : (modSlot s c i f).bindings = s.bindings := rfl
@[simp] theorem modSlot_deviceOut (s : State) (c : Nat) (i : Fin 4) (f : Slot → Slot) : (modSlot s c i f).deviceOut = s.deviceOut := rfl
@[simp] theorem modSlot_savedRows (s : State) (c : Nat) (i : Fin 4) (f : Slot → Slot) : (modSlot s c i f).savedRows = s.savedRows := rfl
@[simp] theorem modSlot_savedFrames (s : State) (c : Nat) (i : Fin 4) (f : Slot → Slot) : (modSlot s c i f).savedFrames = s.savedFrames := rfl
@[simp] theorem modSlot_frameOwner (s : State) (c : Nat) (i : Fin 4) (f : Slot → Slot) : (modSlot s c i f).frameOwner = s.frameOwner := rfl
@[simp] theorem modSlot_frameReports (s : State) (c : Nat) (i : Fin 4) (f : Slot → Slot) : (modSlot s c i f).frameReports = s.frameReports := rfl
@[simp] theorem modSlot_linksDown (s : State) (c : Nat) (i : Fin 4) (f : Slot → Slot) : (modSlot s c i f).linksDown = s.linksDown := rfl
@[simp] theorem modSlot_linkFails (s : State) (c : Nat) (i : Fin 4) (f : Slot → Slot) : (modSlot s c i f).linkFails = s.linkFails := rfl
@[simp] theorem modSlot_generation (s : State) (c : Nat) (i : Fin 4) (f : Slot → Slot) : (modSlot s c i f).generation = s.generation := rfl
@[simp] theorem modSlot_domain (s : State) (c : Nat) (i : Fin 4) (f : Slot → Slot) : (modSlot s c i f).domain = s.domain := rfl
@[simp] theorem modSlot_routes (s : State) (c : Nat) (i : Fin 4) (f : Slot → Slot) : (modSlot s c i f).routes = s.routes := rfl
@[simp] theorem modSlot_moving (s : State) (c : Nat) (i : Fin 4) (f : Slot → Slot) : (modSlot s c i f).moving = s.moving := rfl
@[simp] theorem modSlot_changed (s : State) (c : Nat) (i : Fin 4) (f : Slot → Slot) : (modSlot s c i f).changed = s.changed := rfl
@[simp] theorem modSlot_boot (s : State) (c : Nat) (i : Fin 4) (f : Slot → Slot) : (modSlot s c i f).boot = s.boot := rfl
@[simp] theorem modSlot_power (s : State) (c : Nat) (i : Fin 4) (f : Slot → Slot) : (modSlot s c i f).power = s.power := rfl
@[simp] theorem modSlot_dbgOut (s : State) (c : Nat) (i : Fin 4) (f : Slot → Slot) : (modSlot s c i f).dbgOut = s.dbgOut := rfl
@[simp] theorem modSlot_dbgTold (s : State) (c : Nat) (i : Fin 4) (f : Slot → Slot) : (modSlot s c i f).dbgTold = s.dbgTold := rfl
@[simp] theorem modSlot_netClock (s : State) (c : Nat) (i : Fin 4) (f : Slot → Slot) : (modSlot s c i f).netClock = s.netClock := rfl
@[simp] theorem modSlot_nextId (s : State) (c : Nat) (i : Fin 4) (f : Slot → Slot) : (modSlot s c i f).nextId = s.nextId := rfl
@[simp] theorem modSlot_free (s : State) (c : Nat) (i : Fin 4) (f : Slot → Slot) : (modSlot s c i f).free = s.free := rfl
@[simp] theorem modSlot_curCore (s : State) (c : Nat) (i : Fin 4) (f : Slot → Slot) : (modSlot s c i f).curCore = s.curCore := rfl
@[simp] theorem modSlot_curSlot (s : State) (c : Nat) (i : Fin 4) (f : Slot → Slot) : (modSlot s c i f).curSlot = s.curSlot := rfl
@[simp] theorem modSlot_agenda (s : State) (c : Nat) (i : Fin 4) (f : Slot → Slot) : (modSlot s c i f).agenda = s.agenda := rfl

/-! ### modCore: nothing but the cores -/

@[simp] theorem modCore_module (s : State) (c : Nat) (f : Core → Core) : (modCore s c f).module = s.module := rfl
@[simp] theorem modCore_modules (s : State) (c : Nat) (f : Core → Core) : (modCore s c f).modules = s.modules := rfl
@[simp] theorem modCore_clusters (s : State) (c : Nat) (f : Core → Core) : (modCore s c f).clusters = s.clusters := rfl
@[simp] theorem modCore_dies (s : State) (c : Nat) (f : Core → Core) : (modCore s c f).dies = s.dies := rfl
@[simp] theorem modCore_copies (s : State) (c : Nat) (f : Core → Core) : (modCore s c f).copies = s.copies := rfl
@[simp] theorem modCore_qjobs (s : State) (c : Nat) (f : Core → Core) : (modCore s c f).qjobs = s.qjobs := rfl
@[simp] theorem modCore_pairs (s : State) (c : Nat) (f : Core → Core) : (modCore s c f).pairs = s.pairs := rfl
@[simp] theorem modCore_buckets (s : State) (c : Nat) (f : Core → Core) : (modCore s c f).buckets = s.buckets := rfl
@[simp] theorem modCore_mem (s : State) (c : Nat) (f : Core → Core) : (modCore s c f).mem = s.mem := rfl
@[simp] theorem modCore_descs (s : State) (c : Nat) (f : Core → Core) : (modCore s c f).descs = s.descs := rfl
@[simp] theorem modCore_blockKey (s : State) (c : Nat) (f : Core → Core) : (modCore s c f).blockKey = s.blockKey := rfl
@[simp] theorem modCore_poisoned (s : State) (c : Nat) (f : Core → Core) : (modCore s c f).poisoned = s.poisoned := rfl
@[simp] theorem modCore_retired (s : State) (c : Nat) (f : Core → Core) : (modCore s c f).retired = s.retired := rfl
@[simp] theorem modCore_keys (s : State) (c : Nat) (f : Core → Core) : (modCore s c f).keys = s.keys := rfl
@[simp] theorem modCore_tokens (s : State) (c : Nat) (f : Core → Core) : (modCore s c f).tokens = s.tokens := rfl
@[simp] theorem modCore_contexts (s : State) (c : Nat) (f : Core → Core) : (modCore s c f).contexts = s.contexts := rfl
@[simp] theorem modCore_launches (s : State) (c : Nat) (f : Core → Core) : (modCore s c f).launches = s.launches := rfl
@[simp] theorem modCore_nextLid (s : State) (c : Nat) (f : Core → Core) : (modCore s c f).nextLid = s.nextLid := rfl
@[simp] theorem modCore_reports (s : State) (c : Nat) (f : Core → Core) : (modCore s c f).reports = s.reports := rfl
@[simp] theorem modCore_requests (s : State) (c : Nat) (f : Core → Core) : (modCore s c f).requests = s.requests := rfl
@[simp] theorem modCore_egress (s : State) (c : Nat) (f : Core → Core) : (modCore s c f).egress = s.egress := rfl
@[simp] theorem modCore_bindings (s : State) (c : Nat) (f : Core → Core) : (modCore s c f).bindings = s.bindings := rfl
@[simp] theorem modCore_deviceOut (s : State) (c : Nat) (f : Core → Core) : (modCore s c f).deviceOut = s.deviceOut := rfl
@[simp] theorem modCore_savedRows (s : State) (c : Nat) (f : Core → Core) : (modCore s c f).savedRows = s.savedRows := rfl
@[simp] theorem modCore_savedFrames (s : State) (c : Nat) (f : Core → Core) : (modCore s c f).savedFrames = s.savedFrames := rfl
@[simp] theorem modCore_frameOwner (s : State) (c : Nat) (f : Core → Core) : (modCore s c f).frameOwner = s.frameOwner := rfl
@[simp] theorem modCore_frameReports (s : State) (c : Nat) (f : Core → Core) : (modCore s c f).frameReports = s.frameReports := rfl
@[simp] theorem modCore_linksDown (s : State) (c : Nat) (f : Core → Core) : (modCore s c f).linksDown = s.linksDown := rfl
@[simp] theorem modCore_linkFails (s : State) (c : Nat) (f : Core → Core) : (modCore s c f).linkFails = s.linkFails := rfl
@[simp] theorem modCore_generation (s : State) (c : Nat) (f : Core → Core) : (modCore s c f).generation = s.generation := rfl
@[simp] theorem modCore_domain (s : State) (c : Nat) (f : Core → Core) : (modCore s c f).domain = s.domain := rfl
@[simp] theorem modCore_routes (s : State) (c : Nat) (f : Core → Core) : (modCore s c f).routes = s.routes := rfl
@[simp] theorem modCore_moving (s : State) (c : Nat) (f : Core → Core) : (modCore s c f).moving = s.moving := rfl
@[simp] theorem modCore_changed (s : State) (c : Nat) (f : Core → Core) : (modCore s c f).changed = s.changed := rfl
@[simp] theorem modCore_boot (s : State) (c : Nat) (f : Core → Core) : (modCore s c f).boot = s.boot := rfl
@[simp] theorem modCore_power (s : State) (c : Nat) (f : Core → Core) : (modCore s c f).power = s.power := rfl
@[simp] theorem modCore_dbgOut (s : State) (c : Nat) (f : Core → Core) : (modCore s c f).dbgOut = s.dbgOut := rfl
@[simp] theorem modCore_dbgTold (s : State) (c : Nat) (f : Core → Core) : (modCore s c f).dbgTold = s.dbgTold := rfl
@[simp] theorem modCore_netClock (s : State) (c : Nat) (f : Core → Core) : (modCore s c f).netClock = s.netClock := rfl
@[simp] theorem modCore_nextId (s : State) (c : Nat) (f : Core → Core) : (modCore s c f).nextId = s.nextId := rfl
@[simp] theorem modCore_free (s : State) (c : Nat) (f : Core → Core) : (modCore s c f).free = s.free := rfl
@[simp] theorem modCore_curCore (s : State) (c : Nat) (f : Core → Core) : (modCore s c f).curCore = s.curCore := rfl
@[simp] theorem modCore_curSlot (s : State) (c : Nat) (f : Core → Core) : (modCore s c f).curSlot = s.curSlot := rfl
@[simp] theorem modCore_agenda (s : State) (c : Nat) (f : Core → Core) : (modCore s c f).agenda = s.agenda := rfl

/-! ### passCycles: nothing but the cores -/

@[simp] theorem passCycles_module (s : State) (c n : Nat) : (passCycles s c n).module = s.module := rfl
@[simp] theorem passCycles_modules (s : State) (c n : Nat) : (passCycles s c n).modules = s.modules := rfl
@[simp] theorem passCycles_clusters (s : State) (c n : Nat) : (passCycles s c n).clusters = s.clusters := rfl
@[simp] theorem passCycles_dies (s : State) (c n : Nat) : (passCycles s c n).dies = s.dies := rfl
@[simp] theorem passCycles_copies (s : State) (c n : Nat) : (passCycles s c n).copies = s.copies := rfl
@[simp] theorem passCycles_qjobs (s : State) (c n : Nat) : (passCycles s c n).qjobs = s.qjobs := rfl
@[simp] theorem passCycles_pairs (s : State) (c n : Nat) : (passCycles s c n).pairs = s.pairs := rfl
@[simp] theorem passCycles_buckets (s : State) (c n : Nat) : (passCycles s c n).buckets = s.buckets := rfl
@[simp] theorem passCycles_mem (s : State) (c n : Nat) : (passCycles s c n).mem = s.mem := rfl
@[simp] theorem passCycles_descs (s : State) (c n : Nat) : (passCycles s c n).descs = s.descs := rfl
@[simp] theorem passCycles_blockKey (s : State) (c n : Nat) : (passCycles s c n).blockKey = s.blockKey := rfl
@[simp] theorem passCycles_poisoned (s : State) (c n : Nat) : (passCycles s c n).poisoned = s.poisoned := rfl
@[simp] theorem passCycles_retired (s : State) (c n : Nat) : (passCycles s c n).retired = s.retired := rfl
@[simp] theorem passCycles_keys (s : State) (c n : Nat) : (passCycles s c n).keys = s.keys := rfl
@[simp] theorem passCycles_tokens (s : State) (c n : Nat) : (passCycles s c n).tokens = s.tokens := rfl
@[simp] theorem passCycles_contexts (s : State) (c n : Nat) : (passCycles s c n).contexts = s.contexts := rfl
@[simp] theorem passCycles_launches (s : State) (c n : Nat) : (passCycles s c n).launches = s.launches := rfl
@[simp] theorem passCycles_nextLid (s : State) (c n : Nat) : (passCycles s c n).nextLid = s.nextLid := rfl
@[simp] theorem passCycles_reports (s : State) (c n : Nat) : (passCycles s c n).reports = s.reports := rfl
@[simp] theorem passCycles_requests (s : State) (c n : Nat) : (passCycles s c n).requests = s.requests := rfl
@[simp] theorem passCycles_egress (s : State) (c n : Nat) : (passCycles s c n).egress = s.egress := rfl
@[simp] theorem passCycles_bindings (s : State) (c n : Nat) : (passCycles s c n).bindings = s.bindings := rfl
@[simp] theorem passCycles_deviceOut (s : State) (c n : Nat) : (passCycles s c n).deviceOut = s.deviceOut := rfl
@[simp] theorem passCycles_savedRows (s : State) (c n : Nat) : (passCycles s c n).savedRows = s.savedRows := rfl
@[simp] theorem passCycles_savedFrames (s : State) (c n : Nat) : (passCycles s c n).savedFrames = s.savedFrames := rfl
@[simp] theorem passCycles_frameOwner (s : State) (c n : Nat) : (passCycles s c n).frameOwner = s.frameOwner := rfl
@[simp] theorem passCycles_frameReports (s : State) (c n : Nat) : (passCycles s c n).frameReports = s.frameReports := rfl
@[simp] theorem passCycles_linksDown (s : State) (c n : Nat) : (passCycles s c n).linksDown = s.linksDown := rfl
@[simp] theorem passCycles_linkFails (s : State) (c n : Nat) : (passCycles s c n).linkFails = s.linkFails := rfl
@[simp] theorem passCycles_generation (s : State) (c n : Nat) : (passCycles s c n).generation = s.generation := rfl
@[simp] theorem passCycles_domain (s : State) (c n : Nat) : (passCycles s c n).domain = s.domain := rfl
@[simp] theorem passCycles_routes (s : State) (c n : Nat) : (passCycles s c n).routes = s.routes := rfl
@[simp] theorem passCycles_moving (s : State) (c n : Nat) : (passCycles s c n).moving = s.moving := rfl
@[simp] theorem passCycles_changed (s : State) (c n : Nat) : (passCycles s c n).changed = s.changed := rfl
@[simp] theorem passCycles_boot (s : State) (c n : Nat) : (passCycles s c n).boot = s.boot := rfl
@[simp] theorem passCycles_power (s : State) (c n : Nat) : (passCycles s c n).power = s.power := rfl
@[simp] theorem passCycles_dbgOut (s : State) (c n : Nat) : (passCycles s c n).dbgOut = s.dbgOut := rfl
@[simp] theorem passCycles_dbgTold (s : State) (c n : Nat) : (passCycles s c n).dbgTold = s.dbgTold := rfl
@[simp] theorem passCycles_netClock (s : State) (c n : Nat) : (passCycles s c n).netClock = s.netClock := rfl
@[simp] theorem passCycles_nextId (s : State) (c n : Nat) : (passCycles s c n).nextId = s.nextId := rfl
@[simp] theorem passCycles_free (s : State) (c n : Nat) : (passCycles s c n).free = s.free := rfl
@[simp] theorem passCycles_curCore (s : State) (c n : Nat) : (passCycles s c n).curCore = s.curCore := rfl
@[simp] theorem passCycles_curSlot (s : State) (c n : Nat) : (passCycles s c n).curSlot = s.curSlot := rfl
@[simp] theorem passCycles_agenda (s : State) (c n : Nat) : (passCycles s c n).agenda = s.agenda := rfl

/-! ### retire: nothing but the cores -/

@[simp] theorem retire_module (s : State) (c : Nat) (i : Fin 4) (sc : Nat) (npc : Word) : (retire s c i sc npc).module = s.module := rfl
@[simp] theorem retire_modules (s : State) (c : Nat) (i : Fin 4) (sc : Nat) (npc : Word) : (retire s c i sc npc).modules = s.modules := rfl
@[simp] theorem retire_clusters (s : State) (c : Nat) (i : Fin 4) (sc : Nat) (npc : Word) : (retire s c i sc npc).clusters = s.clusters := rfl
@[simp] theorem retire_dies (s : State) (c : Nat) (i : Fin 4) (sc : Nat) (npc : Word) : (retire s c i sc npc).dies = s.dies := rfl
@[simp] theorem retire_copies (s : State) (c : Nat) (i : Fin 4) (sc : Nat) (npc : Word) : (retire s c i sc npc).copies = s.copies := rfl
@[simp] theorem retire_qjobs (s : State) (c : Nat) (i : Fin 4) (sc : Nat) (npc : Word) : (retire s c i sc npc).qjobs = s.qjobs := rfl
@[simp] theorem retire_pairs (s : State) (c : Nat) (i : Fin 4) (sc : Nat) (npc : Word) : (retire s c i sc npc).pairs = s.pairs := rfl
@[simp] theorem retire_buckets (s : State) (c : Nat) (i : Fin 4) (sc : Nat) (npc : Word) : (retire s c i sc npc).buckets = s.buckets := rfl
@[simp] theorem retire_mem (s : State) (c : Nat) (i : Fin 4) (sc : Nat) (npc : Word) : (retire s c i sc npc).mem = s.mem := rfl
@[simp] theorem retire_descs (s : State) (c : Nat) (i : Fin 4) (sc : Nat) (npc : Word) : (retire s c i sc npc).descs = s.descs := rfl
@[simp] theorem retire_blockKey (s : State) (c : Nat) (i : Fin 4) (sc : Nat) (npc : Word) : (retire s c i sc npc).blockKey = s.blockKey := rfl
@[simp] theorem retire_poisoned (s : State) (c : Nat) (i : Fin 4) (sc : Nat) (npc : Word) : (retire s c i sc npc).poisoned = s.poisoned := rfl
@[simp] theorem retire_retired (s : State) (c : Nat) (i : Fin 4) (sc : Nat) (npc : Word) : (retire s c i sc npc).retired = s.retired := rfl
@[simp] theorem retire_keys (s : State) (c : Nat) (i : Fin 4) (sc : Nat) (npc : Word) : (retire s c i sc npc).keys = s.keys := rfl
@[simp] theorem retire_tokens (s : State) (c : Nat) (i : Fin 4) (sc : Nat) (npc : Word) : (retire s c i sc npc).tokens = s.tokens := rfl
@[simp] theorem retire_contexts (s : State) (c : Nat) (i : Fin 4) (sc : Nat) (npc : Word) : (retire s c i sc npc).contexts = s.contexts := rfl
@[simp] theorem retire_launches (s : State) (c : Nat) (i : Fin 4) (sc : Nat) (npc : Word) : (retire s c i sc npc).launches = s.launches := rfl
@[simp] theorem retire_nextLid (s : State) (c : Nat) (i : Fin 4) (sc : Nat) (npc : Word) : (retire s c i sc npc).nextLid = s.nextLid := rfl
@[simp] theorem retire_reports (s : State) (c : Nat) (i : Fin 4) (sc : Nat) (npc : Word) : (retire s c i sc npc).reports = s.reports := rfl
@[simp] theorem retire_requests (s : State) (c : Nat) (i : Fin 4) (sc : Nat) (npc : Word) : (retire s c i sc npc).requests = s.requests := rfl
@[simp] theorem retire_egress (s : State) (c : Nat) (i : Fin 4) (sc : Nat) (npc : Word) : (retire s c i sc npc).egress = s.egress := rfl
@[simp] theorem retire_bindings (s : State) (c : Nat) (i : Fin 4) (sc : Nat) (npc : Word) : (retire s c i sc npc).bindings = s.bindings := rfl
@[simp] theorem retire_deviceOut (s : State) (c : Nat) (i : Fin 4) (sc : Nat) (npc : Word) : (retire s c i sc npc).deviceOut = s.deviceOut := rfl
@[simp] theorem retire_savedRows (s : State) (c : Nat) (i : Fin 4) (sc : Nat) (npc : Word) : (retire s c i sc npc).savedRows = s.savedRows := rfl
@[simp] theorem retire_savedFrames (s : State) (c : Nat) (i : Fin 4) (sc : Nat) (npc : Word) : (retire s c i sc npc).savedFrames = s.savedFrames := rfl
@[simp] theorem retire_frameOwner (s : State) (c : Nat) (i : Fin 4) (sc : Nat) (npc : Word) : (retire s c i sc npc).frameOwner = s.frameOwner := rfl
@[simp] theorem retire_frameReports (s : State) (c : Nat) (i : Fin 4) (sc : Nat) (npc : Word) : (retire s c i sc npc).frameReports = s.frameReports := rfl
@[simp] theorem retire_linksDown (s : State) (c : Nat) (i : Fin 4) (sc : Nat) (npc : Word) : (retire s c i sc npc).linksDown = s.linksDown := rfl
@[simp] theorem retire_linkFails (s : State) (c : Nat) (i : Fin 4) (sc : Nat) (npc : Word) : (retire s c i sc npc).linkFails = s.linkFails := rfl
@[simp] theorem retire_generation (s : State) (c : Nat) (i : Fin 4) (sc : Nat) (npc : Word) : (retire s c i sc npc).generation = s.generation := rfl
@[simp] theorem retire_domain (s : State) (c : Nat) (i : Fin 4) (sc : Nat) (npc : Word) : (retire s c i sc npc).domain = s.domain := rfl
@[simp] theorem retire_routes (s : State) (c : Nat) (i : Fin 4) (sc : Nat) (npc : Word) : (retire s c i sc npc).routes = s.routes := rfl
@[simp] theorem retire_moving (s : State) (c : Nat) (i : Fin 4) (sc : Nat) (npc : Word) : (retire s c i sc npc).moving = s.moving := rfl
@[simp] theorem retire_changed (s : State) (c : Nat) (i : Fin 4) (sc : Nat) (npc : Word) : (retire s c i sc npc).changed = s.changed := rfl
@[simp] theorem retire_boot (s : State) (c : Nat) (i : Fin 4) (sc : Nat) (npc : Word) : (retire s c i sc npc).boot = s.boot := rfl
@[simp] theorem retire_power (s : State) (c : Nat) (i : Fin 4) (sc : Nat) (npc : Word) : (retire s c i sc npc).power = s.power := rfl
@[simp] theorem retire_dbgOut (s : State) (c : Nat) (i : Fin 4) (sc : Nat) (npc : Word) : (retire s c i sc npc).dbgOut = s.dbgOut := rfl
@[simp] theorem retire_dbgTold (s : State) (c : Nat) (i : Fin 4) (sc : Nat) (npc : Word) : (retire s c i sc npc).dbgTold = s.dbgTold := rfl
@[simp] theorem retire_netClock (s : State) (c : Nat) (i : Fin 4) (sc : Nat) (npc : Word) : (retire s c i sc npc).netClock = s.netClock := rfl
@[simp] theorem retire_nextId (s : State) (c : Nat) (i : Fin 4) (sc : Nat) (npc : Word) : (retire s c i sc npc).nextId = s.nextId := rfl
@[simp] theorem retire_free (s : State) (c : Nat) (i : Fin 4) (sc : Nat) (npc : Word) : (retire s c i sc npc).free = s.free := rfl
@[simp] theorem retire_curCore (s : State) (c : Nat) (i : Fin 4) (sc : Nat) (npc : Word) : (retire s c i sc npc).curCore = s.curCore := rfl
@[simp] theorem retire_curSlot (s : State) (c : Nat) (i : Fin 4) (sc : Nat) (npc : Word) : (retire s c i sc npc).curSlot = s.curSlot := rfl
@[simp] theorem retire_agenda (s : State) (c : Nat) (i : Fin 4) (sc : Nat) (npc : Word) : (retire s c i sc npc).agenda = s.agenda := rfl

/-! ### stallSlot: nothing but the cores -/

@[simp] theorem stallSlot_module (s : State) (c : Nat) (i : Fin 4) (w : Stall) : (stallSlot s c i w).module = s.module := rfl
@[simp] theorem stallSlot_modules (s : State) (c : Nat) (i : Fin 4) (w : Stall) : (stallSlot s c i w).modules = s.modules := rfl
@[simp] theorem stallSlot_clusters (s : State) (c : Nat) (i : Fin 4) (w : Stall) : (stallSlot s c i w).clusters = s.clusters := rfl
@[simp] theorem stallSlot_dies (s : State) (c : Nat) (i : Fin 4) (w : Stall) : (stallSlot s c i w).dies = s.dies := rfl
@[simp] theorem stallSlot_copies (s : State) (c : Nat) (i : Fin 4) (w : Stall) : (stallSlot s c i w).copies = s.copies := rfl
@[simp] theorem stallSlot_qjobs (s : State) (c : Nat) (i : Fin 4) (w : Stall) : (stallSlot s c i w).qjobs = s.qjobs := rfl
@[simp] theorem stallSlot_pairs (s : State) (c : Nat) (i : Fin 4) (w : Stall) : (stallSlot s c i w).pairs = s.pairs := rfl
@[simp] theorem stallSlot_buckets (s : State) (c : Nat) (i : Fin 4) (w : Stall) : (stallSlot s c i w).buckets = s.buckets := rfl
@[simp] theorem stallSlot_mem (s : State) (c : Nat) (i : Fin 4) (w : Stall) : (stallSlot s c i w).mem = s.mem := rfl
@[simp] theorem stallSlot_descs (s : State) (c : Nat) (i : Fin 4) (w : Stall) : (stallSlot s c i w).descs = s.descs := rfl
@[simp] theorem stallSlot_blockKey (s : State) (c : Nat) (i : Fin 4) (w : Stall) : (stallSlot s c i w).blockKey = s.blockKey := rfl
@[simp] theorem stallSlot_poisoned (s : State) (c : Nat) (i : Fin 4) (w : Stall) : (stallSlot s c i w).poisoned = s.poisoned := rfl
@[simp] theorem stallSlot_retired (s : State) (c : Nat) (i : Fin 4) (w : Stall) : (stallSlot s c i w).retired = s.retired := rfl
@[simp] theorem stallSlot_keys (s : State) (c : Nat) (i : Fin 4) (w : Stall) : (stallSlot s c i w).keys = s.keys := rfl
@[simp] theorem stallSlot_tokens (s : State) (c : Nat) (i : Fin 4) (w : Stall) : (stallSlot s c i w).tokens = s.tokens := rfl
@[simp] theorem stallSlot_contexts (s : State) (c : Nat) (i : Fin 4) (w : Stall) : (stallSlot s c i w).contexts = s.contexts := rfl
@[simp] theorem stallSlot_launches (s : State) (c : Nat) (i : Fin 4) (w : Stall) : (stallSlot s c i w).launches = s.launches := rfl
@[simp] theorem stallSlot_nextLid (s : State) (c : Nat) (i : Fin 4) (w : Stall) : (stallSlot s c i w).nextLid = s.nextLid := rfl
@[simp] theorem stallSlot_reports (s : State) (c : Nat) (i : Fin 4) (w : Stall) : (stallSlot s c i w).reports = s.reports := rfl
@[simp] theorem stallSlot_requests (s : State) (c : Nat) (i : Fin 4) (w : Stall) : (stallSlot s c i w).requests = s.requests := rfl
@[simp] theorem stallSlot_egress (s : State) (c : Nat) (i : Fin 4) (w : Stall) : (stallSlot s c i w).egress = s.egress := rfl
@[simp] theorem stallSlot_bindings (s : State) (c : Nat) (i : Fin 4) (w : Stall) : (stallSlot s c i w).bindings = s.bindings := rfl
@[simp] theorem stallSlot_deviceOut (s : State) (c : Nat) (i : Fin 4) (w : Stall) : (stallSlot s c i w).deviceOut = s.deviceOut := rfl
@[simp] theorem stallSlot_savedRows (s : State) (c : Nat) (i : Fin 4) (w : Stall) : (stallSlot s c i w).savedRows = s.savedRows := rfl
@[simp] theorem stallSlot_savedFrames (s : State) (c : Nat) (i : Fin 4) (w : Stall) : (stallSlot s c i w).savedFrames = s.savedFrames := rfl
@[simp] theorem stallSlot_frameOwner (s : State) (c : Nat) (i : Fin 4) (w : Stall) : (stallSlot s c i w).frameOwner = s.frameOwner := rfl
@[simp] theorem stallSlot_frameReports (s : State) (c : Nat) (i : Fin 4) (w : Stall) : (stallSlot s c i w).frameReports = s.frameReports := rfl
@[simp] theorem stallSlot_linksDown (s : State) (c : Nat) (i : Fin 4) (w : Stall) : (stallSlot s c i w).linksDown = s.linksDown := rfl
@[simp] theorem stallSlot_linkFails (s : State) (c : Nat) (i : Fin 4) (w : Stall) : (stallSlot s c i w).linkFails = s.linkFails := rfl
@[simp] theorem stallSlot_generation (s : State) (c : Nat) (i : Fin 4) (w : Stall) : (stallSlot s c i w).generation = s.generation := rfl
@[simp] theorem stallSlot_domain (s : State) (c : Nat) (i : Fin 4) (w : Stall) : (stallSlot s c i w).domain = s.domain := rfl
@[simp] theorem stallSlot_routes (s : State) (c : Nat) (i : Fin 4) (w : Stall) : (stallSlot s c i w).routes = s.routes := rfl
@[simp] theorem stallSlot_moving (s : State) (c : Nat) (i : Fin 4) (w : Stall) : (stallSlot s c i w).moving = s.moving := rfl
@[simp] theorem stallSlot_changed (s : State) (c : Nat) (i : Fin 4) (w : Stall) : (stallSlot s c i w).changed = s.changed := rfl
@[simp] theorem stallSlot_boot (s : State) (c : Nat) (i : Fin 4) (w : Stall) : (stallSlot s c i w).boot = s.boot := rfl
@[simp] theorem stallSlot_power (s : State) (c : Nat) (i : Fin 4) (w : Stall) : (stallSlot s c i w).power = s.power := rfl
@[simp] theorem stallSlot_dbgOut (s : State) (c : Nat) (i : Fin 4) (w : Stall) : (stallSlot s c i w).dbgOut = s.dbgOut := rfl
@[simp] theorem stallSlot_dbgTold (s : State) (c : Nat) (i : Fin 4) (w : Stall) : (stallSlot s c i w).dbgTold = s.dbgTold := rfl
@[simp] theorem stallSlot_netClock (s : State) (c : Nat) (i : Fin 4) (w : Stall) : (stallSlot s c i w).netClock = s.netClock := rfl
@[simp] theorem stallSlot_nextId (s : State) (c : Nat) (i : Fin 4) (w : Stall) : (stallSlot s c i w).nextId = s.nextId := rfl
@[simp] theorem stallSlot_free (s : State) (c : Nat) (i : Fin 4) (w : Stall) : (stallSlot s c i w).free = s.free := rfl
@[simp] theorem stallSlot_curCore (s : State) (c : Nat) (i : Fin 4) (w : Stall) : (stallSlot s c i w).curCore = s.curCore := rfl
@[simp] theorem stallSlot_curSlot (s : State) (c : Nat) (i : Fin 4) (w : Stall) : (stallSlot s c i w).curSlot = s.curSlot := rfl
@[simp] theorem stallSlot_agenda (s : State) (c : Nat) (i : Fin 4) (w : Stall) : (stallSlot s c i w).agenda = s.agenda := rfl

end Sys2Proof.Machine
end

