-- ==== Sys2Proof/Laws/Slots.lean ====
section
/-! SUPPORT. Reading cores and slots after they are written, the issue of an instruction that is ready, and what retiring
leaves. -/
namespace Sys2Proof.Machine

/-! ### Cores and slots -/

theorem getCore_id (s : State) (c : Nat) : (getCore s c).id = c := by
  unfold getCore
  cases h : findBy (·.id) c s.cores with
  | none => rfl
  | some k =>
    have := List.find?_some (p := fun x : Core => x.id == c) h
    simpa using this

theorem getCore_setCore_self (s : State) (k : Core) : getCore (setCore s k) k.id = k := by
  simp [getCore, findBy_putBy_self (·.id) k s.cores]

theorem getCore_setCore_ne (s : State) (k : Core) {c : Nat} (h : c ≠ k.id) : getCore (setCore s k) c = getCore s c := by
  simp [getCore, findBy_putBy_ne (·.id) k s.cores h]

@[simp] theorem getCore_modCore_self (s : State) (c : Nat) (f : Core → Core) (h : (f (getCore s c)).id = c) :
    getCore (modCore s c f) c = f (getCore s c) := by
  have := getCore_setCore_self s (f (getCore s c))
  rw [h] at this
  exact this

theorem getCore_modCore_ne (s : State) (c : Nat) (f : Core → Core) (h : (f (getCore s c)).id = c) {d : Nat} (hd : d ≠ c) :
    getCore (modCore s c f) d = getCore s d :=
  getCore_setCore_ne s _ (by rw [h]; exact hd)

@[simp] theorem getCore_setSlot_self (s : State) (c : Nat) (i : Fin 4) (v : Slot) :
    getCore (setSlot s c i v) c = { getCore s c with slots := (getCore s c).slots.set i v } := by
  have h := getCore_setCore_self s { getCore s c with slots := (getCore s c).slots.set i v }
  rw [show ({ getCore s c with slots := (getCore s c).slots.set i v } : Core).id = c from getCore_id s c] at h
  exact h

theorem getCore_setSlot_ne (s : State) (c : Nat) (i : Fin 4) (v : Slot) {d : Nat} (h : d ≠ c) :
    getCore (setSlot s c i v) d = getCore s d :=
  getCore_setCore_ne s _ (by rw [show ({ getCore s c with slots := _ } : Core).id = c from getCore_id s c]; exact h)

@[simp] theorem getSlot_setSlot_self (s : State) (c : Nat) (i : Fin 4) (v : Slot) : getSlot (setSlot s c i v) c i = v := by
  simp [getSlot]

theorem getSlot_setSlot_slot (s : State) (c : Nat) (i : Fin 4) (v : Slot) {j : Fin 4} (h : j ≠ i) :
    getSlot (setSlot s c i v) c j = getSlot s c j := by
  have : i.val ≠ j.val := fun e => h (Fin.ext e.symm)
  simp [getSlot, this]

theorem getSlot_setSlot_core (s : State) (c : Nat) (i : Fin 4) (v : Slot) {d : Nat} (h : d ≠ c) (j : Fin 4) :
    getSlot (setSlot s c i v) d j = getSlot s d j := by
  simp [getSlot, getCore_setSlot_ne s c i v h]

@[simp] theorem setSlot_setSlot (s : State) (c : Nat) (i : Fin 4) (v w : Slot) :
    setSlot (setSlot s c i v) c i w = setSlot s c i w := by
  have hk (s : State) (k k' : Core) (h : k.id = k'.id) : setCore (setCore s k) k' = setCore s k' := by
    have : ∀ l : List Core, putBy (·.id) k' (putBy (·.id) k l) = putBy (·.id) k' l := by
      intro l
      induction l with
      | nil => simp [putBy, h]
      | cons y r ih =>
        simp only [putBy, h]
        split
        · simp [putBy, h]
        · split
          · simp [putBy, h]
          · simp only [putBy, *, if_false]
    simp [setCore, this]
  have e : getCore (setSlot s c i v) c = _ := getCore_setSlot_self s c i v
  show setCore _ { getCore (setSlot s c i v) c with slots := _ } = _
  rw [e]
  show setCore (setCore s _) _ = setCore s _
  rw [hk _ _ _ (by simp)]
  simp

@[simp] theorem getCore_passCycles_self (s : State) (c n : Nat) : getCore (passCycles s c n) c =
    { getCore s c with cycle := (getCore s c).cycle + n, slots := (getCore s c).slots.map (slotCycles s n) } :=
  getCore_modCore_self s c _ (getCore_id s c)

theorem getCore_passCycles_ne (s : State) (c n : Nat) {d : Nat} (h : d ≠ c) : getCore (passCycles s c n) d = getCore s d :=
  getCore_modCore_ne s c _ (getCore_id s c) h

@[simp] theorem getSlot_passCycles_self (s : State) (c n : Nat) (i : Fin 4) :
    getSlot (passCycles s c n) c i = slotCycles s n (getSlot s c i) := by
  simp [getSlot]

theorem getSlot_passCycles_ne (s : State) (c n : Nat) {d : Nat} (h : d ≠ c) (i : Fin 4) :
    getSlot (passCycles s c n) d i = getSlot s d i := by
  simp [getSlot, getCore_passCycles_ne s c n h]

/-! ### Retiring -/

/-- Cycles in a slot depend on nothing that a write of a slot changes. -/
@[simp] theorem slotCycles_setSlot (s : State) (c : Nat) (i : Fin 4) (v : Slot) (n : Nat) (x : Slot) :
    slotCycles (setSlot s c i v) n x = slotCycles s n x := rfl

@[simp] theorem getSlot_retire_self (s : State) (c : Nat) (i : Fin 4) (sc : Nat) (npc : Word) :
    getSlot (retire s c i sc npc) c i = slotCycles s (1 + sc) ((getSlot s c i).issued sc npc) := by
  simp [retire, modSlot]

theorem getSlot_retire_slot (s : State) (c : Nat) (i : Fin 4) (sc : Nat) (npc : Word) {j : Fin 4} (h : j ≠ i) :
    getSlot (retire s c i sc npc) c j = slotCycles s (1 + sc) (getSlot s c j) := by
  simp [retire, modSlot, getSlot_setSlot_slot _ _ _ _ h]

theorem getCore_retire_ne (s : State) (c : Nat) (i : Fin 4) (sc : Nat) (npc : Word) {d : Nat} (h : d ≠ c) :
    getCore (retire s c i sc npc) d = getCore s d := by
  simp [retire, modSlot, getCore_passCycles_ne _ _ _ h, getCore_setSlot_ne _ _ _ _ h]

/-- What retiring does to its core beside the slots: the cycles. -/
theorem getCore_retire_self (s : State) (c : Nat) (i : Fin 4) (sc : Nat) (npc : Word) : getCore (retire s c i sc npc) c =
    { getCore s c with cycle := (getCore s c).cycle + (1 + sc), slots := (getCore (retire s c i sc npc) c).slots } := by
  simp [retire, modSlot]

/-! ### Issue -/

/-- An instruction whose slot runs and is ready does its own effect on the settled slot. -/
theorem issue_go {s : State} {srcs dsts : List RegRef} {f : State → Nat → Fin 4 → Slot → State}
    (hr : (getSlot s s.curCore s.curSlot).status = .running)
    (hg : (getSlot s s.curCore s.curSlot).settle.ready srcs dsts = .go) :
    issue s srcs dsts f =
      .next (f (setSlot s s.curCore s.curSlot (getSlot s s.curCore s.curSlot).settle) s.curCore s.curSlot
        (getSlot s s.curCore s.curSlot).settle) := by
  simp only [issue, onSlot, hr, hg]

/-- An instruction issues only in a slot that runs an activation. -/
theorem issue_notRunning {s : State} {srcs dsts : List RegRef} {f : State → Nat → Fin 4 → Slot → State}
    (hr : (getSlot s s.curCore s.curSlot).status ≠ .running) : issue s srcs dsts f = .fault .noActivation := by
  unfold issue onSlot
  cases h : (getSlot s s.curCore s.curSlot).status <;> simp_all

/-- A fixed-latency instruction that is ready. -/
theorem issueFixed_go {s : State} {srcs : List RegRef} {dst : RegRef} {lat : Nat} {sc : BitVec 2} {f : Slot → Vec × FFlags}
    (hr : (getSlot s s.curCore s.curSlot).status = .running)
    (hg : (getSlot s s.curCore s.curSlot).settle.ready srcs [dst] = .go) :
    issueFixed s srcs dst lat sc f =
      .next (retire (setSlot s s.curCore s.curSlot
          (accrueAt ((getSlot s s.curCore s.curSlot).settle.writeFix dst (f (getSlot s s.curCore s.curSlot).settle).1 lat)
            (f (getSlot s s.curCore s.curSlot).settle).2 lat))
        s.curCore s.curSlot sc.toNat ((getSlot s s.curCore s.curSlot).pc + 4)) := by
  simp [issueFixed, issue_go hr hg]

end Sys2Proof.Machine
end

