-- ==== Sys2Proof/Laws/Events.lean ====
section
/-! SUPPORT. Events and the acts of the environment: what guarded and command can answer, and the links that a packet is given. -/
namespace Sys2Proof.Machine

/-- An event that its conditions guard answers its state exactly where the clocks run and the conditions hold. -/
theorem guarded_next {event : String} {s f t : State} {ok : Bool} :
    guarded event s ok f = .next t ↔ (clocksRun s = true ∧ ok = true) ∧ f = t := by
  unfold guarded
  split <;> simp_all [notPermitted]

/-- An event whose meaning is a guarded one occurs exactly where the clocks run and its condition holds. -/
theorem occurs_guarded {i : Instr} {event : String} {s f : State} {ok : Bool} {P : State → Prop} (h : exec i s = guarded event s ok f)
    (hP : clocksRun s = true → ok = true → P f) : Occurs i event s (clocksRun s = true ∧ ok = true) P :=
  ⟨fun ho => ⟨f, by simp [h, guarded, ho.1, ho.2], hP ho.1 ho.2⟩, fun ho => by
    rw [h, guarded, if_neg]
    simpa using ho⟩

/-- A command answers its state, or the state as it is while a trip holds the module, exactly where the module has booted and its
conditions hold. -/
theorem command_next {event : String} {s t u : State} {ok : Bool} :
    command event s ok t = .next u ↔ (managed s = true ∧ ok = true) ∧ unlessTripped s t = u := by
  unfold command
  split <;> simp_all [notPermitted]

/-- A pick among links is one of them. -/
theorem pickLink_mem {α : Type} {s : State} {die : Nat} {k : Packet} {src dst : Nat} {links : List α} {x : α}
    (h : x ∈ pickLink s die k src dst links) : x ∈ links := by
  simp only [pickLink, Option.mem_toList] at h
  exact List.mem_of_getElem? h

/-- Among links that are not empty, one is picked. -/
theorem pickLink_length {α : Type} {s : State} {die : Nat} {k : Packet} {src dst : Nat} {links : List α} (h : links ≠ []) :
    (pickLink s die k src dst links).length = 1 := by
  have hl : 0 < links.length := List.length_pos_iff.2 h
  simp only [pickLink]
  rw [List.getElem?_eq_getElem (Nat.mod_lt _ hl)]
  rfl

end Sys2Proof.Machine
end

