-- ==== Sys2Proof/Laws/Issue.lean ====
section
/-! SUPPORT. The issue of an instruction in the terms of the statements: what canIssue gives, how an instruction retires, and
the shapes of instructions: fixed latency, local results, vector instructions with their channel twins. -/
namespace Sys2Proof.Machine

theorem cur_def (s : State) : s.cur = getSlot s s.curCore s.curSlot := rfl
@[simp] theorem found_pc (s : State) : s.found.pc = s.cur.pc := by simp [State.found]
@[simp] theorem settled_curCore (s : State) : s.settled.curCore = s.curCore := rfl
@[simp] theorem settled_curSlot (s : State) : s.settled.curSlot = s.curSlot := rfl
@[simp] theorem settled_cur (s : State) : s.settled.cur = s.found := by
  simp [State.settled, State.setCur, State.cur]
@[simp] theorem settled_setCur (s : State) (v : Slot) : s.settled.setCur v = s.setCur v := by
  simp [State.settled, State.setCur]

theorem settle_interlocked (sl : Slot) : sl.settle.interlocked = sl.interlocked := by
  simp [Slot.interlocked]

theorem canIssue_running {s : State} {srcs dsts : List RegRef} (h : canIssue s srcs dsts = true) :
    (getSlot s s.curCore s.curSlot).status = .running := by
  simp only [canIssue, Bool.and_eq_true, beq_iff_eq] at h
  exact h.1.1.1

theorem canIssue_ready {s : State} {srcs dsts : List RegRef} (h : canIssue s srcs dsts = true) :
    (getSlot s s.curCore s.curSlot).settle.ready srcs dsts = .go := by
  simp only [canIssue, Bool.and_eq_true, List.all_eq_true, Bool.or_eq_true, State.found, State.cur] at h
  obtain ⟨⟨⟨-, h1⟩, h2⟩, h3⟩ := h
  have e1 : (getSlot s s.curCore s.curSlot).accs.any (fun a => a.dst.holdsIssue) = false := by
    rw [List.any_eq_false]
    intro a ha
    have := h1 a ha
    simpa using this
  have e2 : (srcs ++ dsts).find? (fun r => !r.constant && (getSlot s s.curCore s.curSlot).interlocked.contains r) = none := by
    rw [List.find?_eq_none]
    intro r hr
    rcases h2 r hr with h | h <;> simp_all
  have e3 : (if (getSlot s s.curCore s.curSlot).chk then
      srcs.find? (fun r => !r.constant && (getSlot s s.curCore s.curSlot).settle.pend.any (fun p => p.reg == r))
      else none) = none := by
    split
    · rename_i hc
      rw [List.find?_eq_none]
      intro r hr
      rcases h3 with h | h
      · simp [hc] at h
      · rcases h r hr with h | h <;> simp_all
    · rfl
  simp only [Slot.ready, Slot.settle_accs, Slot.settle_chk, settle_interlocked, e1, e2, e3]
  rfl

/-- An instruction that can issue does its own effect on the settled state. -/
theorem issue_can {s : State} {srcs dsts : List RegRef} {f : State → Nat → Fin 4 → Slot → State}
    (h : canIssue s srcs dsts = true) :
    issue s srcs dsts f = .next (f s.settled s.curCore s.curSlot s.found) :=
  issue_go (canIssue_running h) (canIssue_ready h)

/-- Retiring with a slot written, as the statements say it. -/
theorem retires_retire (u : State) (sl : Slot) (sc : Nat) (npc : Word) :
    Retires u (retire (setSlot u u.curCore u.curSlot sl) u.curCore u.curSlot sc npc) sc npc sl where
  rest := rfl
  cores c h := by rw [getCore_retire_ne _ _ _ _ _ h, getCore_setSlot_ne _ _ _ _ h]
  core := by
    rw [getCore_retire_self]
    simp
  slots i h := by rw [getSlot_retire_slot _ _ _ _ _ h, getSlot_setSlot_slot _ _ _ _ h, slotCycles_setSlot]
  slot := by simp [State.cur]

theorem writesFixed_of {i : Instr} {s : State} {srcs : List RegRef} {dst : RegRef} {lat : Nat} {sc : BitVec 2}
    {f : Slot → Vec} (he : exec i s = issueFixed s srcs dst lat sc fun sl => (f sl, noFlags)) :
    WritesFixed i s srcs dst lat sc (f s.found) := by
  intro h
  refine ⟨_, he.trans (issue_can h), ?_⟩
  have := retires_retire s (s.found.writeFix dst (f s.found) lat) sc.toNat (s.cur.pc + 4)
  simpa [State.settled, State.setCur, accrueAt, noFlags] using this

theorem writesLater_of {i : Instr} {s : State} {srcs dsts : List RegRef} {f : Slot → List (RegRef × Vec)}
    (he : exec i s = issueLocal s srcs dsts false fun sl => (f sl, noFlags)) :
    WritesLater i s srcs dsts (f s.found) := by
  intro h
  refine ⟨_, he.trans (issue_can h), ?_⟩
  have := retires_retire s (s.found.writeVar (f s.found) 0 false) 0 (s.cur.pc + 4)
  simpa [State.settled, State.setCur, noFlags] using this

/-! ### Popping a word -/

@[simp] theorem modActor_curCore (s : State) (l n : Nat) (f : Actor → Actor) : (modActor s l n f).curCore = s.curCore := by
  simp only [modActor, setActor, modLaunch]
  split <;> (try split) <;> rfl
@[simp] theorem modActor_curSlot (s : State) (l n : Nat) (f : Actor → Actor) : (modActor s l n f).curSlot = s.curSlot := by
  simp only [modActor, setActor, modLaunch]
  split <;> (try split) <;> rfl
@[simp] theorem modActor_cores (s : State) (l n : Nat) (f : Actor → Actor) : (modActor s l n f).cores = s.cores := by
  simp only [modActor, setActor, modLaunch]
  split <;> (try split) <;> rfl
@[simp] theorem modActor_mem (s : State) (l n : Nat) (f : Actor → Actor) : (modActor s l n f).mem = s.mem := by
  simp only [modActor, setActor, modLaunch]
  split <;> (try split) <;> rfl
@[simp] theorem getSlot_modActor (s : State) (l n : Nat) (f : Actor → Actor) (c : Nat) (i : Fin 4) :
    getSlot (modActor s l n f) c i = getSlot s c i := by
  simp [getSlot, getCore]

theorem popWord_frame {s u : State} {c : Nat} {i : Fin 4} {ch : Nat} {w : Vec} (h : popWord s c i ch = some (w, u)) :
    u.curCore = s.curCore ∧ u.curSlot = s.curSlot ∧ u.mem = s.mem ∧ (getSlot u c i).pc = (getSlot s c i).pc := by
  simp only [popWord] at h
  split at h
  · cases h
  · split at h
    · split at h
      · split at h
        · cases h; simp
        · cases h
      · cases h
    · split at h
      · cases h; simp
      · split at h
        · cases h
        · rename_i m r hq
          simp only [holdHead] at h
          simp only [Option.map_eq_some_iff] at h
          obtain ⟨v, hv, he⟩ := h
          cases he
          split at hv
          · cases hv
          · split at hv
            · cases hv
            · split at hv
              · cases hv
              · cases hv
                simp [modChan, modSlot]

theorem vectorPair_of {base twin : Instr} {a : BitVec 5} {ch : BitVec 4} {s : State} {srcs : List RegRef} {dst : RegRef}
    {lat : Nat} {sc : BitVec 2} {f : Slot → Vec → Vec × FFlags}
    (hb : exec base s = issueVec s (.reg a) srcs dst lat sc f)
    (ht : exec twin s = issueVec s (.ch ch) srcs dst lat sc f) : VectorPair base twin a ch s srcs dst lat sc f := by
  constructor
  · intro h
    refine ⟨_, hb.trans (issue_can h), ?_⟩
    have := retires_retire s (accrueAt (s.found.writeFix dst (f s.found (s.found.rv a)).1 lat)
      (f s.found (s.found.rv a)).2 lat) sc.toNat (s.cur.pc + 4)
    simpa [State.settled, State.setCur, withSrc] using this
  · intro h w u hb hp
    obtain ⟨h1, h2, -, h4⟩ := popWord_frame hp
    refine ⟨_, ht.trans (issue_can h), ?_⟩
    have hc : getSlot u s.curCore s.curSlot = u.cur := by rw [State.cur, h1, h2]; rfl
    have hpc : (getSlot u s.curCore s.curSlot).pc = s.cur.pc := by
      rw [h4]
      have := congrArg Slot.pc (settled_cur s)
      simpa [State.cur] using this
    have := retires_retire u (accrueAt (u.cur.writeFix dst (f u.cur w).1 lat) (f u.cur w).2 lat) sc.toNat (s.cur.pc + 4)
    rw [h1, h2] at this
    simp only [withSrc, hb, hp, Bool.false_eq_true, if_false]
    rw [← hc] at this ⊢
    simpa [hpc] using this

theorem vectorPairLater_of {base twin : Instr} {a : BitVec 5} {ch : BitVec 4} {s : State} {srcs dsts : List RegRef}
    {fp : Bool} {f : Slot → Vec → List (RegRef × Vec) × FFlags}
    (hb : exec base s = issueVecLocal s (.reg a) srcs dsts fp f)
    (ht : exec twin s = issueVecLocal s (.ch ch) srcs dsts fp f) : VectorPairLater base twin a ch s srcs dsts fp f := by
  constructor
  · intro h
    refine ⟨_, hb.trans (issue_can h), ?_⟩
    have := retires_retire s (s.found.writeVar (f s.found (s.found.rv a)).1 (f s.found (s.found.rv a)).2 fp) 0 (s.cur.pc + 4)
    simpa [State.settled, State.setCur, withSrc] using this
  · intro h w u hb hp
    obtain ⟨h1, h2, -, h4⟩ := popWord_frame hp
    refine ⟨_, ht.trans (issue_can h), ?_⟩
    have hc : getSlot u s.curCore s.curSlot = u.cur := by rw [State.cur, h1, h2]; rfl
    have hpc : (getSlot u s.curCore s.curSlot).pc = s.cur.pc := by
      rw [h4]
      have := congrArg Slot.pc (settled_cur s)
      simpa [State.cur] using this
    have := retires_retire u (u.cur.writeVar (f u.cur w).1 (f u.cur w).2 fp) 0 (s.cur.pc + 4)
    rw [h1, h2] at this
    simp only [withSrc, hb, hp, Bool.false_eq_true, if_false]
    rw [← hc] at this ⊢
    simpa [hpc] using this

end Sys2Proof.Machine
end

