-- ==== Sys2Proof/Laws/Lanes.lean ====
section
/-! SUPPORT. Lanes and elements packed into a register, and the lanes of a merged result. -/
namespace Sys2Proof.Machine

theorem packElems_lt (b : Nat) (xs : List Nat) : packElems b xs < 2 ^ (b * xs.length) := by
  induction xs with
  | nil => simp [packElems]
  | cons x r ih =>
    simp only [packElems, List.length_cons]
    have h1 : x % 2 ^ b < 2 ^ b := Nat.mod_lt _ (Nat.two_pow_pos b)
    have h2 : 2 ^ (b * (r.length + 1)) = 2 ^ b * 2 ^ (b * r.length) := by
      rw [← Nat.pow_add, Nat.mul_succ, Nat.add_comm]
    rw [h2]
    calc x % 2 ^ b + 2 ^ b * packElems b r < 2 ^ b + 2 ^ b * packElems b r := by omega
      _ = 2 ^ b * (packElems b r + 1) := by rw [Nat.mul_succ, Nat.add_comm]
      _ ≤ 2 ^ b * 2 ^ (b * r.length) := Nat.mul_le_mul_left _ ih

theorem packElems_get (b : Nat) (xs : List Nat) : ∀ j, packElems b xs / 2 ^ (b * j) % 2 ^ b = xs.getD j 0 % 2 ^ b := by
  induction xs with
  | nil => intro j; simp [packElems]
  | cons x r ih =>
    intro j
    cases j with
    | zero => simp [packElems, Nat.add_mod]
    | succ j =>
      have h1 : x % 2 ^ b < 2 ^ b := Nat.mod_lt _ (Nat.two_pow_pos b)
      have h2 : 2 ^ (b * (j + 1)) = 2 ^ b * 2 ^ (b * j) := by
        rw [← Nat.pow_add, Nat.mul_succ, Nat.add_comm]
      have h3 : (x % 2 ^ b + 2 ^ b * packElems b r) / 2 ^ b = packElems b r := by
        rw [Nat.add_mul_div_left _ _ (Nat.two_pow_pos b), Nat.div_eq_of_lt h1, Nat.zero_add]
      simp only [packElems, h2, ← Nat.div_div_eq_div_mul, h3, ih, List.getD_cons_succ]

/-- Lane j of lanes packed into a register. -/
theorem lane_ofLanes {w : Nat} {xs : List Nat} (h : w * xs.length ≤ 512) (j : Nat) :
    lane (ofLanes w xs) w j = xs.getD j 0 % 2 ^ w := by
  have hl : packElems w xs < 2 ^ 512 := Nat.lt_of_lt_of_le (packElems_lt w xs) (Nat.pow_le_pow_right (by decide) h)
  simp only [lane, ofLanes, BitVec.toNat_ofNat, Nat.mod_eq_of_lt hl, packElems_get]

theorem lane_lt (v : Vec) (w j : Nat) : lane v w j < 2 ^ w := Nat.mod_lt _ (Nat.two_pow_pos w)

/-- A lane of a result built lane by lane. -/
theorem lane_build {w j : Nat} (f : Nat → Nat) (hj : j < 512 / w) :
    lane (ofLanes w ((List.range (512 / w)).map f)) w j = f j % 2 ^ w := by
  rw [lane_ofLanes (by simpa using Nat.mul_div_le 512 w)]
  simp [List.getD, hj]

/-- A lane of a merged result (R126). -/
theorem lane_mergeLanes {w j : Nat} (m : BitVec 64) (old : Vec) (f : Nat → Nat) (hj : j < 512 / w) :
    lane (mergeLanes w m old f) w j = if maskBit m j then f j % 2 ^ w else lane old w j := by
  rw [mergeLanes, lane_build _ hj]
  split
  · rfl
  · exact Nat.mod_eq_of_lt (lane_lt _ _ _)

/-- Lane 0 replaced. -/
theorem lane_withLane0 {w j : Nat} (old : Vec) (v : Nat) (hj : j < 512 / w) :
    lane (withLane0 w old v) w j = if j = 0 then v % 2 ^ w else lane old w j := by
  rw [withLane0, lane_build _ hj]
  split
  · rfl
  · exact Nat.mod_eq_of_lt (lane_lt _ _ _)

/-- Bit j of a predicate of n lanes (R15, R131). -/
theorem getLsbD_predicate {n j : Nat} (m : BitVec 64) (f : Nat → Bool) (hn : n ≤ 64) :
    (predicate n m f).getLsbD j = (decide (j < n) && maskBit m j && f j) := by
  have hl : packElems 1 ((List.range n).map fun j => if maskBit m j && f j then 1 else 0) < 2 ^ 512 := by
    refine Nat.lt_of_lt_of_le (packElems_lt _ _) (Nat.pow_le_pow_right (by decide) ?_)
    simp; omega
  have h := packElems_get 1 ((List.range n).map fun j => if maskBit m j && f j then 1 else 0) j
  simp only [Nat.one_mul] at h
  simp only [predicate, BitVec.getLsbD, BitVec.toNat_ofNat, Nat.mod_eq_of_lt hl, Nat.testBit_eq_decide_div_mod_eq]
  have h2 : (2 : Nat) ^ 1 = 2 := rfl
  rw [h2] at h
  rw [h]
  by_cases hj : j < n
  · simp only [List.getD, List.getElem?_map, List.getElem?_range hj, Option.map_some, Option.getD_some]
    cases maskBit m j <;> cases f j <;> simp [hj]
  · simp [List.getD, hj]

end Sys2Proof.Machine
end

