-- ==== Sys2Proof/Laws/Memory.lean ====
section
/-! SUPPORT. The list of memory cells: reading a byte after one is written, and the canonical form, which every memory
operation keeps and which reset has. -/
namespace Sys2Proof.Machine

/-! ### One byte -/

theorem wfFrom_mono {lo lo' : Nat} {m : List Host.Cell} (h : lo' ≤ lo) (hw : Memory.wfFrom lo m = true) :
    Memory.wfFrom lo' m = true := by
  cases m with
  | nil => rfl
  | cons c r =>
    simp only [Memory.wfFrom, Bool.and_eq_true, decide_eq_true_eq] at hw ⊢
    exact ⟨⟨by omega, hw.1.2⟩, hw.2⟩

theorem memByte_below {lo a : Nat} {m : List Host.Cell} (hw : Memory.wfFrom lo m = true) (h : a < lo) : memByte m a = 0 := by
  cases m with
  | nil => rfl
  | cons c r =>
    simp only [Memory.wfFrom, Bool.and_eq_true, decide_eq_true_eq] at hw
    have h1 : ¬ a = c.1 := by omega
    have h2 : a < c.1 := by omega
    simp [memByte, h1, h2]

theorem wfFrom_memSet {lo a : Nat} {v : Byte} (h : lo ≤ a) :
    ∀ {m : List Host.Cell}, Memory.wfFrom lo m = true → Memory.wfFrom lo (memSet m a v) = true := by
  intro m
  induction m generalizing lo with
  | nil =>
    intro _
    unfold memSet
    split
    · rfl
    · simp_all [Memory.wfFrom]
  | cons c r ih =>
    intro hw
    obtain ⟨b, w⟩ := c
    simp only [Memory.wfFrom, Bool.and_eq_true, decide_eq_true_eq, bne_iff_ne] at hw
    obtain ⟨⟨h1, h2⟩, h3⟩ := hw
    simp only [memSet]
    split
    · split
      · simp_all [Memory.wfFrom]
      · have e : a + 1 ≤ b := by omega
        simp_all [Memory.wfFrom]
    · split
      · split
        · exact wfFrom_mono (by omega) h3
        · simp only [Memory.wfFrom, Bool.and_eq_true, decide_eq_true_eq, bne_iff_ne]
          refine ⟨⟨h, by assumption⟩, by subst_vars; exact h3⟩
      · simp only [Memory.wfFrom, Bool.and_eq_true, decide_eq_true_eq, bne_iff_ne]
        exact ⟨⟨h1, h2⟩, ih (by omega) h3⟩

/-- Writing a byte keeps the canonical form. -/
theorem wf_memSet {m : List Host.Cell} (a : Nat) (v : Byte) (h : Memory.wf m = true) : Memory.wf (memSet m a v) = true :=
  wfFrom_memSet (Nat.zero_le a) h

theorem memByte_memSet_from {lo a b : Nat} {v : Byte} (hb : lo ≤ a) :
    ∀ {m : List Host.Cell}, Memory.wfFrom lo m = true → memByte (memSet m a v) b = if b = a then v else memByte m b := by
  intro m
  induction m generalizing lo with
  | nil =>
    intro _
    by_cases hv : v = 0#8
    · simp [memSet, memByte, hv]
    · by_cases hba : b = a
      · simp [memSet, memByte, hv, hba]
      · simp [memSet, memByte, hv, hba]
  | cons c r ih =>
    intro hw
    obtain ⟨d, w⟩ := c
    simp only [Memory.wfFrom, Bool.and_eq_true, decide_eq_true_eq, bne_iff_ne] at hw
    obtain ⟨⟨h1, h2⟩, h3⟩ := hw
    simp only [memSet]
    split
    · rename_i had
      by_cases hba : b = a
      · subst hba
        have e : ¬ b = d := by omega
        by_cases hv : v = 0#8
        · simp [memByte, hv, e, had]
        · simp [memByte, hv]
      · by_cases hv : v = 0#8
        · simp [hv, hba]
        · simp only [hv, BitVec.ofNat_eq_ofNat, if_false, hba]
          rw [memByte]
          simp only [hba, if_false]
          split
          · have e1 : ¬ b = d := by omega
            have e2 : b < d := by omega
            simp [memByte, e1, e2]
          · rfl
    · split
      · rename_i h4 h5
        subst h5
        by_cases hv : v = 0#8
        · simp only [hv, BitVec.ofNat_eq_ofNat, if_true]
          by_cases hba : b = a
          · simp [hba, memByte_below h3 (by omega : a < a + 1)]
          · simp only [hba, if_false, memByte]
            split
            · exact memByte_below h3 (by omega)
            · rfl
        · by_cases hba : b = a <;> simp [memByte, hv, hba]
      · simp only [memByte]
        rw [ih (by omega) h3]
        by_cases hba : b = a
        · subst hba
          have e1 : ¬ b = d := by omega
          have e2 : ¬ b < d := by omega
          simp [e1, e2]
        · simp [hba]

/-- A byte read after a byte is written. -/
theorem memByte_memSet {m : List Host.Cell} (h : Memory.wf m = true) (a b : Nat) (v : Byte) :
    memByte (memSet m a v) b = if b = a then v else memByte m b :=
  memByte_memSet_from (Nat.zero_le a) h

/-! ### Several bytes -/

theorem wf_memWrite (n : Nat) : ∀ {m : List Host.Cell} (a v mask : Nat), Memory.wf m = true →
    Memory.wf (memWrite m a v mask n) = true := by
  induction n with
  | zero => intro m a v mask h; exact h
  | succ n ih =>
    intro m a v mask h
    simp only [memWrite]
    apply ih
    split
    · exact wf_memSet _ _ h
    · exact h

theorem wf_memPut (l : List Byte) : ∀ {m : List Host.Cell} (a : Nat), Memory.wf m = true →
    Memory.wf (memPut m a l) = true := by
  induction l with
  | nil => intro m a h; exact h
  | cons b r ih => intro m a h; exact ih _ (wf_memSet _ _ h)

theorem wfFrom_filter (p : Host.Cell → Bool) : ∀ {lo : Nat} {m : List Host.Cell}, Memory.wfFrom lo m = true →
    Memory.wfFrom lo (m.filter p) = true := by
  intro lo m
  induction m generalizing lo with
  | nil => intro _; rfl
  | cons c r ih =>
    intro h
    obtain ⟨b, w⟩ := c
    simp only [Memory.wfFrom, Bool.and_eq_true, decide_eq_true_eq, bne_iff_ne] at h
    simp only [List.filter_cons]
    split
    · simp only [Memory.wfFrom, Bool.and_eq_true, decide_eq_true_eq, bne_iff_ne]
      exact ⟨h.1, ih h.2⟩
    · exact wfFrom_mono (by omega) (ih h.2)

theorem wf_filter (p : Host.Cell → Bool) {m : List Host.Cell} (h : Memory.wf m = true) : Memory.wf (m.filter p) = true :=
  wfFrom_filter p h

/-- Bytes outside a masked write stand. -/
theorem memByte_memWrite_ne (n : Nat) : ∀ {m : List Host.Cell} (a v mask : Nat) (b : Nat), Memory.wf m = true →
    (b < a ∨ a + n ≤ b) → memByte (memWrite m a v mask n) b = memByte m b := by
  induction n with
  | zero => intros; rfl
  | succ n ih =>
    intro m a v mask b h hb
    simp only [memWrite]
    split
    · rw [ih _ _ _ _ (wf_memSet _ _ h) (by omega), memByte_memSet h]
      simp; omega
    · exact ih _ _ _ _ h (by omega)

/-- The byte at offset j of a masked write: byte j of the value where bit j of the mask is 1, else what stood there. -/
theorem memByte_memWrite (n : Nat) : ∀ {m : List Host.Cell} (a v mask : Nat) (j : Nat), Memory.wf m = true → j < n →
    memByte (memWrite m a v mask n) (a + j) =
      if mask / 2 ^ j % 2 = 1 then BitVec.ofNat 8 (v / 256 ^ j) else memByte m (a + j) := by
  induction n with
  | zero => intro m a v mask j _ h; omega
  | succ n ih =>
    intro m a v mask j h hj
    have hw : Memory.wf (if mask % 2 = 1 then memSet m a (BitVec.ofNat 8 v) else m) = true := by
      split
      · exact wf_memSet _ _ h
      · exact h
    cases j with
    | zero =>
      simp only [memWrite]
      rw [memByte_memWrite_ne n _ _ _ _ hw (by omega)]
      split <;> simp_all [memByte_memSet]
    | succ j =>
      simp only [memWrite]
      have e := ih (a + 1) (v / 256) (mask / 2) j hw (by omega)
      rw [show a + (j + 1) = a + 1 + j by omega, e]
      have e1 : mask / 2 / 2 ^ j = mask / 2 ^ (j + 1) := by rw [Nat.div_div_eq_div_mul, Nat.pow_succ']
      have e2 : v / 256 / 256 ^ j = v / 256 ^ (j + 1) := by rw [Nat.div_div_eq_div_mul, Nat.pow_succ']
      have e3 : memByte (if mask % 2 = 1 then memSet m a (BitVec.ofNat 8 v) else m) (a + 1 + j) = memByte m (a + 1 + j) := by
        split
        · rw [memByte_memSet h]
          simp; omega
        · rfl
      rw [e1, e2, e3]

/-! ### Operations of the state -/

theorem wf_reset : Memory.wf State.reset.mem = true := rfl

theorem wf_writeThrough {s : State} (pa key : Nat) (v : Vec) (mask : BitVec 64) (h : Memory.wf s.mem = true) :
    Memory.wf (writeThrough s pa key v mask).mem = true := by
  unfold writeThrough
  split
  · exact wf_memWrite _ _ _ _ (wf_memWrite _ _ _ _ h)
  · exact wf_memWrite _ _ _ _ h

/-- A perform at a home keeps the canonical form. -/
theorem wf_performMem {s : State} (op : MemOp) (key : Nat) (h : Memory.wf s.mem = true) :
    Memory.wf (performMem s op key).1.mem = true := by
  have hw := fun pa v mask => wf_writeThrough (s := s) pa key v mask h
  cases op <;> simp only [performMem] <;>
    (repeat' split) <;> first | exact h | exact hw _ _ _

theorem wf_zeroRange {s : State} (pa len : Nat) (h : Memory.wf s.mem = true) : Memory.wf (zeroRange s pa len).mem = true :=
  wf_filter _ h

/-- A tag of a frame leaves memory as it is. -/
@[simp] theorem ownFrame_mem (s : State) (asid pa : Nat) : (ownFrame s asid pa).mem = s.mem := by
  unfold ownFrame
  split <;> rfl

/-- A fold whose every step leaves memory as it is does so. -/
theorem foldl_mem {α : Type} {f : State → α → State} (hf : ∀ s x, (f s x).mem = s.mem) (l : List α) :
    ∀ s, (l.foldl f s).mem = s.mem := by
  induction l with
  | nil => exact fun _ => rfl
  | cons x r ih => exact fun s => (ih _).trans (hf s x)

/-- Descriptors written one after another leave memory as it is. -/
theorem setDescs_mem (pa : Nat) (l : List (Nat × Desc)) (s : State) :
    (l.foldl (fun s p => setDesc s (pa + 64 * p.1) p.2) s).mem = s.mem :=
  foldl_mem (f := fun s p => setDesc s (pa + 64 * p.1) p.2) (fun _ _ => rfl) l s

theorem wf_putFrame {s : State} (pa : Nat) (r : SavedFrame) (h : Memory.wf s.mem = true) :
    Memory.wf (putFrame s pa r).mem = true := by
  simpa [putFrame, setDescs_mem] using wf_memPut r.bytes pa h

/-- A frame that comes back from the save area keeps the canonical form. -/
theorem wf_putBack {s : State} (pa : Nat) (o : Option (Nat × SavedFrame)) (h : Memory.wf s.mem = true) :
    Memory.wf (putBack s pa o).mem = true := by
  cases o with
  | none => exact h
  | some p => exact wf_putFrame _ _ h

/-- An event record leaves memory as it is. -/
@[simp] theorem homeMusic_mem (s : State) (home code data : Nat) : (homeMusic s home code data).mem = s.mem := by
  unfold homeMusic
  split <;> rfl

@[simp] theorem moveFault_mem (s : State) (l c : Nat) (tval : Word) : (moveFault s l c tval).mem = s.mem :=
  homeMusic_mem s _ _ _

@[simp] theorem frameFaults_mem (s : State) (ctx : Nat) (r : SavedFrame) : (frameFaults s ctx r).mem = s.mem :=
  foldl_mem (fun s _ => foldl_mem (fun s l => moveFault_mem s l _ _) _ s) _ s

theorem wf_refillFrame {s : State} (ctx c f : Nat) (h : Memory.wf s.mem = true) :
    Memory.wf (refillFrame s ctx c f).mem = true :=
  wf_putBack _ _ (by split <;> simpa using h)

theorem wf_zeroPieces (asid : Nat) (l : List (Nat × Nat)) :
    ∀ {s : State}, Memory.wf s.mem = true → Memory.wf (zeroPieces s asid l).mem = true := by
  induction l with
  | nil => intro s h; exact h
  | cons p r ih => intro s h; exact ih (by simpa using wf_zeroRange p.1 p.2 (wf_refillFrame asid _ _ h))

end Sys2Proof.Machine
end

