-- ==== Sys2Proof/Tests/Slice0.lean ====
section
/-! SUPPORT. Tests. Ill-formed terms that each check of WellFormed refuses; words written out from the encoding tables of the
specification; one step of an instruction on a small state, its expected values worked by hand from the rules or taken from
an example of the specification; and, for the statements, states and operands that meet their hypotheses. -/
open Sys2Proof Sys2Proof.Machine

namespace Sys2Proof.Tests

-- The many small kernel checks of this file run one after another: each at once in a thread of its own is too many threads.
set_option Elab.async false

/-! ### Small states -/

/-- A slot that runs actor 1 of launch 1 in context 1. -/
def slot0 : Slot := { Slot.reset with status := .running, pc := 0x10000, budget := 100, actor := 1, launch := 1, ctx := 1 }

/-- The slot with scalar registers, vector registers or mask registers set. -/
def withX (sl : Slot) : List (Nat × Word) → Slot
  | [] => sl
  | (n, v) :: r => withX (sl.setReg ⟨.x, n⟩ (ofWord v)) r
def withV (sl : Slot) : List (Nat × Vec) → Slot
  | [] => sl
  | (n, v) :: r => withV (sl.setReg ⟨.v, n⟩ v) r
def withK (sl : Slot) : List (Nat × Word) → Slot
  | [] => sl
  | (n, v) :: r => withK (sl.setReg ⟨.k, n⟩ (ofWord v)) r

/-- Pages of context 1 cached in cluster 0: 0x10000 in the own slice of core 0, 0x20000 in the slice of core 1, 0x30000 in
DRAM under key slot 0. -/
def pages : List Tlb := [⟨1, 0x10000, 2 ^ 14, 0, true, true, true, 0⟩, ⟨1, 0x20000, 2 ^ 14, 0x80000, true, true, false, 0⟩,
  ⟨1, 0x30000, 2 ^ 16, 0x1000000000, true, true, false, 0⟩]

/-- Actor 1 on core 0: channel 0 with messages of up to four words, a task channel 1, and four rows of the matrix unit. -/
def actor1 : Actor := ⟨1, .core, 0, 0x12000, 64, 64, 0, 16,
  [⟨0, 4, false, 4, true, true, 2, [], none, 0⟩, ⟨1, 8, true, 2, true, true, 3, [], none, 0⟩], [], [], [], false, false, false, false⟩

def launch1 : Launch :=
  { id := 1, ctx := 1, queue := 0, desc := 0, status := 0x30000, image := 0, tb := 0x10000, phase := .running, step := 9, todo := [], budget := 100,
    quiesce := true, oscope := .core, chk := false, frm := 0, bthr := 0, ezrows := 0, words := 2, actors := [actor1], seeds := [],
    joins := [], late := [], closed := [], dropped := 0, nfault := 0, fault := none, egdisc := 0, endCode := 0,
    granted := false, attached := false }

/-- The same launch while its core is to be installed. -/
def installing : Launch := { launch1 with step := 4, todo := [0] }

def context1 : Context := ⟨1, true, true, false, 0, false, some 0 :: List.replicate 7 none, [(0, [])], [], [], []⟩

/-- Core 0 with a slot. -/
def core0 (sl : Slot) : Core := { Core.reset 0 with slots := #v[sl, Slot.reset, Slot.reset, Slot.reset] }

/-- The machine with a slot on core 0 and a launch. -/
def stWith (l : Launch) (sl : Slot) : State := { State.reset with
  cores := [core0 sl], clusters := [⟨0, pages, [], []⟩], contexts := [context1], launches := [l], nextLid := 2 }
def st (sl : Slot) : State := stWith launch1 sl
def stX (xs : List (Nat × Word)) : State := st (withX slot0 xs)
def stV (xs : List (Nat × Word)) (vs : List (Nat × Vec)) : State := st (withV (withX slot0 xs) vs)

/-- The next state, if there is one. -/
def after (o : Host.Outcome State Fault Refusal) : Option State :=
  match o with
  | .next t => some t
  | _ => none

/-- The current slot once what it has pending and outstanding of its own is written. -/
def landed (s : State) : Slot :=
  let sl := getSlot s s.curCore s.curSlot
  let sl := { sl with clock := sl.clock + 64 }.settle
  sl.locals.foldl (fun sl r => r.writes.foldl (fun sl w => sl.setReg w.1 w.2) sl) sl

noncomputable def xAfter (i : Instr) (s : State) (n : Nat) : Option Word := (after (exec i s)).map fun t => (landed t).getX n
noncomputable def vAfter (i : Instr) (s : State) (n : Nat) : Option Vec := (after (exec i s)).map fun t => (landed t).getV n
noncomputable def kAfter (i : Instr) (s : State) (n : Nat) : Option Word := (after (exec i s)).map fun t => (landed t).getK n
noncomputable def pcAfter (i : Instr) (s : State) : Option Word := (after (exec i s)).map fun t => (getSlot t 0 0).pc
/-- The cause and tval of the one report that an instruction leaves. -/
noncomputable def trapOf (i : Instr) (s : State) : Option (List (Nat × Word)) :=
  (after (exec i s)).map fun t => t.reports.map fun r => (r.cause, r.tval)

/-! ### Words written out from the encoding tables (03 R63 to R73, and the field tables of 07 to 09) -/

/-- Each word decodes to the instruction beside it. -/
noncomputable def decodesAll (l : List (Nat × Instr)) : Bool := l.all fun p => decodeTableWord 32 p.1 == some p.2

theorem test_words_immediate : decodesAll [
    (0b10_1001000110100_10110_01101_0000001, .addi 2 0x1234 22 13),
    (0b10_1001000110100_10110_01101_0000010, .andi 2 0x1234 22 13),
    (0b10_1001000110100_10110_01101_0000011, .ori 2 0x1234 22 13),
    (0b10_1001000110100_10110_01101_0000100, .xori 2 0x1234 22 13),
    (0b10_1001000110100_10110_01101_0000101, .slti 2 0x1234 22 13),
    (0b10_1001000110100_10110_01101_0000110, .sltiu 2 0x1234 22 13),
    (0b10_00_00000_100101_10110_01101_0000111, .slli 2 37 22 13),
    (0b10_01_00000_100101_10110_01101_0000111, .srli 2 37 22 13),
    (0b10_10_00000_100101_10110_01101_0000111, .srai 2 37 22 13),
    (0b10_11_00000_100101_10110_01101_0000111, .rori 2 37 22 13),
    (0b10101011110011011110_01101_0001000, .lui 0xABCDE 13),
    (0b10101011110011011110_01101_0001001, .auipc 0xABCDE 13)] = true := by decide +kernel

theorem test_words_register_a : decodesAll [
    (0b10_000_00000_01011_10110_01101_0001010, .add 2 11 22 13),
    (0b10_000_00001_01011_10110_01101_0001010, .sub 2 11 22 13),
    (0b10_000_00010_01011_10110_01101_0001010, .and 2 11 22 13),
    (0b10_000_00011_01011_10110_01101_0001010, .or 2 11 22 13),
    (0b10_000_00100_01011_10110_01101_0001010, .xor 2 11 22 13),
    (0b10_000_00101_01011_10110_01101_0001010, .andn 2 11 22 13),
    (0b10_000_00110_01011_10110_01101_0001010, .sll 2 11 22 13),
    (0b10_000_00111_01011_10110_01101_0001010, .srl 2 11 22 13),
    (0b10_000_01000_01011_10110_01101_0001010, .sra 2 11 22 13),
    (0b10_000_01001_01011_10110_01101_0001010, .rol 2 11 22 13),
    (0b10_000_01010_01011_10110_01101_0001010, .ror 2 11 22 13),
    (0b10_000_01011_01011_10110_01101_0001010, .slt 2 11 22 13),
    (0b10_000_01100_01011_10110_01101_0001010, .sltu 2 11 22 13),
    (0b10_000_01101_01011_10110_01101_0001010, .min 2 11 22 13),
    (0b10_000_01110_01011_10110_01101_0001010, .max 2 11 22 13),
    (0b10_000_01111_01011_10110_01101_0001010, .minu 2 11 22 13),
    (0b10_000_10000_01011_10110_01101_0001010, .maxu 2 11 22 13),
    (0b10_000_00000_01011_10110_01101_0001011, .mul 2 11 22 13),
    (0b10_001_00000_01011_10110_01101_0001011, .mulh 2 11 22 13),
    (0b10_010_00000_01011_10110_01101_0001011, .mulhu 2 11 22 13)] = true := by decide +kernel

theorem test_words_register_b : decodesAll [
    (0b10_011_00000_01011_10110_01101_0001011, .mulhsu 2 11 22 13),
    (0b00_100_00000_01011_10110_01101_0001011, .div 11 22 13),
    (0b00_101_00000_01011_10110_01101_0001011, .divu 11 22 13),
    (0b00_110_00000_01011_10110_01101_0001011, .rem 11 22 13),
    (0b00_111_00000_01011_10110_01101_0001011, .remu 11 22 13)] = true := by decide +kernel

theorem test_words_bits : decodesAll [
    (0b10_000_00000_00000_10110_01101_0001100, .clz 2 22 13),
    (0b10_000_00001_00000_10110_01101_0001100, .ctz 2 22 13),
    (0b10_000_00010_00000_10110_01101_0001100, .popc 2 22 13),
    (0b10_000_00011_01011_10110_01101_0001100, .bext 2 11 22 13),
    (0b10_000_00100_01011_10110_01101_0001100, .bdep 2 11 22 13),
    (0b10_000_00101_00000_10110_01101_0001100, .sextb 2 22 13),
    (0b10_000_00110_00000_10110_01101_0001100, .sexth 2 22 13),
    (0b10_000_00111_00000_10110_01101_0001100, .sextw 2 22 13),
    (0b10_000_01000_00000_10110_01101_0001100, .rev8 2 22 13)] = true := by decide +kernel

theorem test_words_scalar_memory : decodesAll [
    (0b01_1001000110100_10110_01101_0010000, .ldb .acq 0x1234 22 13),
    (0b01_1001000110100_10110_01101_0010001, .ldh .acq 0x1234 22 13),
    (0b01_1001000110100_10110_01101_0010010, .ldw .acq 0x1234 22 13),
    (0b01_1001000110100_10110_01101_0010011, .ldd .acq 0x1234 22 13),
    (0b01_1001000110100_10110_01101_0010100, .ldbu .acq 0x1234 22 13),
    (0b01_1001000110100_10110_01101_0010101, .ldhu .acq 0x1234 22 13),
    (0b01_1001000110100_10110_01101_0010110, .ldwu .acq 0x1234 22 13),
    (0b10_10010001_01011_10110_10100_0011000, .stb .rel 0x1234 11 22),
    (0b10_10010001_01011_10110_10100_0011001, .sth .rel 0x1234 11 22),
    (0b10_10010001_01011_10110_10100_0011010, .stw .rel 0x1234 11 22),
    (0b10_10010001_01011_10110_10100_0011011, .std .rel 0x1234 11 22),
    (0b11_000_00000_00000_10110_01101_0011100, .ldtag .sc 22 13),
    (0b11_001_00000_01011_10110_00000_0011100, .sttag .sc 11 22)] = true := by decide +kernel

theorem test_words_atomic : decodesAll [
    (0b01_100_00001_01011_10110_01101_0011101, .amoadd .acq .module true 11 22 13),
    (0b01_100_00011_01011_10110_01101_0011101, .amoand .acq .module true 11 22 13),
    (0b01_100_00101_01011_10110_01101_0011101, .amoor .acq .module true 11 22 13),
    (0b01_100_00111_01011_10110_01101_0011101, .amoxor .acq .module true 11 22 13),
    (0b01_100_01001_01011_10110_01101_0011101, .amomin .acq .module true 11 22 13),
    (0b01_100_01011_01011_10110_01101_0011101, .amomax .acq .module true 11 22 13),
    (0b01_100_01101_01011_10110_01101_0011101, .amominu .acq .module true 11 22 13),
    (0b01_100_01111_01011_10110_01101_0011101, .amomaxu .acq .module true 11 22 13),
    (0b01_100_10001_01011_10110_01101_0011101, .amoswap .acq .module true 11 22 13),
    (0b01_100_10011_01011_10110_01101_0011101, .casFailRlx .acq .module true 11 22 13),
    (0b01_100_10101_01011_10110_01101_0011101, .casFailAcq .acq .module true 11 22 13),
    (0b01_100_10111_01011_10110_01101_0011101, .casFailSc .acq .module true 11 22 13),
    (0b00_010_00000_00000_00000_00000_0100001, .fence .cluster .ll),
    (0b00_010_00001_00000_00000_00000_0100001, .fence .cluster .ls),
    (0b00_010_00010_00000_00000_00000_0100001, .fence .cluster .ss),
    (0b00_010_00011_00000_00000_00000_0100001, .fence .cluster .full),
    (0b00_010_00100_00000_00000_00000_0100001, .fence .cluster .engine)] = true := by decide +kernel

theorem test_words_control : decodesAll [
    (0b00_1001000110100_10110_01101_0100010, .jalr 0x1234 22 13),
    (0b10101011110011011110_01101_0100011, .jal 0xABCDE 13),
    (0b000_1010101_01011_10110_11100_0100100, .beq 0xABC 11 22),
    (0b001_1010101_01011_10110_11100_0100100, .bne 0xABC 11 22),
    (0b010_1010101_01011_10110_11100_0100100, .blt 0xABC 11 22),
    (0b011_1010101_01011_10110_11100_0100100, .bge 0xABC 11 22),
    (0b100_1010101_01011_10110_11100_0100100, .bltu 0xABC 11 22),
    (0b101_1010101_01011_10110_11100_0100100, .bgeu 0xABC 11 22),
    (0b10_1_000000000010_10110_01101_0100101, .csrrw 2 true 2 22 13),
    (0b10_1_000000000010_10110_01101_0100110, .csrrs 2 true 2 22 13),
    (0b10_1_000000000010_10110_01101_0100111, .csrrc 2 true 2 22 13),
    (0b00_000_00000_00000_00000_00000_0101000, .ecall),
    (0b00_000_00001_00000_00000_00000_0101000, .ebreak),
    (0b00_000_00010_00000_00000_00000_0101000, .tret),
    (0b00_000_00011_00000_00000_00000_0101000, .hend)] = true := by decide +kernel

theorem test_words_vint : decodesAll [
    (0b10_101_10_000_01011_10110_01101_1000000, .vadd 2 5 .w32 11 22 13),
    (0b10_101_10_001_01011_10110_01101_1000000, .vsub 2 5 .w32 11 22 13),
    (0b10_101_10_010_01011_10110_01101_1000000, .vmul 2 5 .w32 11 22 13),
    (0b10_101_10_011_01011_10110_01101_1000000, .vmulh 2 5 .w32 11 22 13),
    (0b10_101_10_100_01011_10110_01101_1000000, .vmin 2 5 .w32 11 22 13),
    (0b10_101_10_101_01011_10110_01101_1000000, .vmax 2 5 .w32 11 22 13),
    (0b10_101_10_110_01011_10110_01101_1000000, .vminu 2 5 .w32 11 22 13),
    (0b10_101_10_111_01011_10110_01101_1000000, .vmaxu 2 5 .w32 11 22 13),
    (0b10_101_01_000_01011_10110_01101_1000001, .vand 2 5 .w16 11 22 13),
    (0b10_101_01_001_01011_10110_01101_1000001, .vor 2 5 .w16 11 22 13),
    (0b10_101_01_010_01011_10110_01101_1000001, .vxor 2 5 .w16 11 22 13),
    (0b10_101_01_011_01011_10110_01101_1000001, .vandn 2 5 .w16 11 22 13),
    (0b10_101_01_100_01011_10110_01101_1000001, .vshl 2 5 .w16 11 22 13),
    (0b10_101_01_101_01011_10110_01101_1000001, .vshr 2 5 .w16 11 22 13),
    (0b10_101_01_110_01011_10110_01101_1000001, .vshra 2 5 .w16 11 22 13),
    (0b10_101_11_111_00000_10110_01101_1000001, .vpopc 2 5 .w64 22 13)] = true := by decide +kernel

theorem test_words_vint_twins : decodesAll [
    (0b10_101_10_000_01011_00110_01101_1010000, .vaddCh 2 5 .w32 11 6 13),
    (0b10_101_10_001_01011_00110_01101_1010000, .vsubCh 2 5 .w32 11 6 13),
    (0b10_101_10_010_01011_00110_01101_1010000, .vmulCh 2 5 .w32 11 6 13),
    (0b10_101_10_011_01011_00110_01101_1010000, .vmulhCh 2 5 .w32 11 6 13),
    (0b10_101_10_100_01011_00110_01101_1010000, .vminCh 2 5 .w32 11 6 13),
    (0b10_101_10_101_01011_00110_01101_1010000, .vmaxCh 2 5 .w32 11 6 13),
    (0b10_101_10_110_01011_00110_01101_1010000, .vminuCh 2 5 .w32 11 6 13),
    (0b10_101_10_111_01011_00110_01101_1010000, .vmaxuCh 2 5 .w32 11 6 13),
    (0b10_101_01_000_01011_00110_01101_1010001, .vandCh 2 5 .w16 11 6 13),
    (0b10_101_01_001_01011_00110_01101_1010001, .vorCh 2 5 .w16 11 6 13),
    (0b10_101_01_010_01011_00110_01101_1010001, .vxorCh 2 5 .w16 11 6 13),
    (0b10_101_01_011_01011_00110_01101_1010001, .vandnCh 2 5 .w16 11 6 13),
    (0b10_101_01_100_01011_00110_01101_1010001, .vshlCh 2 5 .w16 11 6 13),
    (0b10_101_01_101_01011_00110_01101_1010001, .vshrCh 2 5 .w16 11 6 13),
    (0b10_101_01_110_01011_00110_01101_1010001, .vshraCh 2 5 .w16 11 6 13),
    (0b10_101_11_111_00000_00110_01101_1010001, .vpopcCh 2 5 .w64 6 13)] = true := by decide +kernel

theorem test_words_vfp : decodesAll [
    (0b10_101_10_000_01011_10110_01101_1000010, .vfadd 2 5 ⟨true, false⟩ 11 22 13),
    (0b10_101_10_001_01011_10110_01101_1000010, .vfsub 2 5 ⟨true, false⟩ 11 22 13),
    (0b10_101_10_010_01011_10110_01101_1000010, .vfmul 2 5 ⟨true, false⟩ 11 22 13),
    (0b10_101_10_100_01011_10110_01101_1000010, .vfmin 2 5 ⟨true, false⟩ 11 22 13),
    (0b10_101_10_101_01011_10110_01101_1000010, .vfmax 2 5 ⟨true, false⟩ 11 22 13),
    (0b00_101_01_011_01011_10110_01101_1000010, .vfdiv 5 ⟨false, true⟩ 11 22 13),
    (0b10_101_10_110_00000_10110_01101_1000010, .vfsqrt 2 5 ⟨true, false⟩ 22 13),
    (0b10_101_00_111_00000_10110_01101_1000010, .vfabs 2 5 22 13),
    (0b10_101_01_000_01011_10110_01101_1000011, .vfma 2 5 ⟨false, true⟩ 11 22 13),
    (0b10_101_01_001_01011_10110_01101_1000011, .vfms 2 5 ⟨false, true⟩ 11 22 13),
    (0b10_101_01_010_01011_10110_01101_1000011, .vfnma 2 5 ⟨false, true⟩ 11 22 13),
    (0b10_101_01_011_01011_10110_01101_1000011, .vfnms 2 5 ⟨false, true⟩ 11 22 13)] = true := by decide +kernel

theorem test_words_vfp_twins : decodesAll [
    (0b10_101_10_000_01011_00110_01101_1010010, .vfaddCh 2 5 ⟨true, false⟩ 11 6 13),
    (0b10_101_10_001_01011_00110_01101_1010010, .vfsubCh 2 5 ⟨true, false⟩ 11 6 13),
    (0b10_101_10_010_01011_00110_01101_1010010, .vfmulCh 2 5 ⟨true, false⟩ 11 6 13),
    (0b10_101_10_100_01011_00110_01101_1010010, .vfminCh 2 5 ⟨true, false⟩ 11 6 13),
    (0b10_101_10_101_01011_00110_01101_1010010, .vfmaxCh 2 5 ⟨true, false⟩ 11 6 13),
    (0b00_101_01_011_01011_00110_01101_1010010, .vfdivCh 5 ⟨false, true⟩ 11 6 13),
    (0b10_101_10_110_00000_00110_01101_1010010, .vfsqrtCh 2 5 ⟨true, false⟩ 6 13),
    (0b10_101_00_111_00000_00110_01101_1010010, .vfabsCh 2 5 6 13),
    (0b10_101_01_000_01011_00110_01101_1010011, .vfmaCh 2 5 ⟨false, true⟩ 11 6 13),
    (0b10_101_01_001_01011_00110_01101_1010011, .vfmsCh 2 5 ⟨false, true⟩ 11 6 13),
    (0b10_101_01_010_01011_00110_01101_1010011, .vfnmaCh 2 5 ⟨false, true⟩ 11 6 13),
    (0b10_101_01_011_01011_00110_01101_1010011, .vfnmsCh 2 5 ⟨false, true⟩ 11 6 13)] = true := by decide +kernel

theorem test_words_vcmp : decodesAll [
    (0b10_101_00_000_01011_10110_00011_1000100, .vcmpeq 2 5 .w8 11 22 3),
    (0b10_101_00_001_01011_10110_00011_1000100, .vcmpne 2 5 .w8 11 22 3),
    (0b10_101_00_010_01011_10110_00011_1000100, .vcmplt 2 5 .w8 11 22 3),
    (0b10_101_00_011_01011_10110_00011_1000100, .vcmple 2 5 .w8 11 22 3),
    (0b10_101_00_100_01011_10110_00011_1000100, .vcmpltu 2 5 .w8 11 22 3),
    (0b10_101_00_101_01011_10110_00011_1000100, .vcmpleu 2 5 .w8 11 22 3),
    (0b10_101_10_000_01011_10110_00011_1000101, .vfcmpeq 2 5 true 11 22 3),
    (0b10_101_10_001_01011_10110_00011_1000101, .vfcmplt 2 5 true 11 22 3),
    (0b10_101_10_010_01011_10110_00011_1000101, .vfcmple 2 5 true 11 22 3),
    (0b10_101_10_011_01011_10110_00011_1000101, .vfcmpun 2 5 true 11 22 3)] = true := by decide +kernel

theorem test_words_vcmp_twins : decodesAll [
    (0b10_101_00_000_01011_00110_00011_1010100, .vcmpeqCh 2 5 .w8 11 6 3),
    (0b10_101_00_001_01011_00110_00011_1010100, .vcmpneCh 2 5 .w8 11 6 3),
    (0b10_101_00_010_01011_00110_00011_1010100, .vcmpltCh 2 5 .w8 11 6 3),
    (0b10_101_00_011_01011_00110_00011_1010100, .vcmpleCh 2 5 .w8 11 6 3),
    (0b10_101_00_100_01011_00110_00011_1010100, .vcmpltuCh 2 5 .w8 11 6 3),
    (0b10_101_00_101_01011_00110_00011_1010100, .vcmpleuCh 2 5 .w8 11 6 3),
    (0b10_101_10_000_01011_00110_00011_1010101, .vfcmpeqCh 2 5 true 11 6 3),
    (0b10_101_10_001_01011_00110_00011_1010101, .vfcmpltCh 2 5 true 11 6 3),
    (0b10_101_10_010_01011_00110_00011_1010101, .vfcmpleCh 2 5 true 11 6 3),
    (0b10_101_10_011_01011_00110_00011_1010101, .vfcmpunCh 2 5 true 11 6 3)] = true := by decide +kernel

theorem test_words_vbits : decodesAll [
    (0b10_11001010_01011_10110_01101_1000110, .vbool3 2 0xCA 11 22 13),
    (0b10_100101_00_01011_10110_01101_1000111, .vfshl 2 37 11 22 13),
    (0b10_100101_01_01011_10110_01101_1000111, .vfshr 2 37 11 22 13),
    (0b10_100101_10_00000_10110_01101_1000111, .vrotl 2 37 22 13),
    (0b10_100101_11_00000_10110_01101_1000111, .vrotr 2 37 22 13)] = true := by decide +kernel

theorem test_words_vbits_twins : decodesAll [
    (0b10_11001010_01011_00110_01101_1010110, .vbool3Ch 2 0xCA 11 6 13),
    (0b10_100101_00_01011_00110_01101_1010111, .vfshlCh 2 37 11 6 13),
    (0b10_100101_01_01011_00110_01101_1010111, .vfshrCh 2 37 11 6 13),
    (0b10_100101_10_00000_00110_01101_1010111, .vrotlCh 2 37 6 13),
    (0b10_100101_11_00000_00110_01101_1010111, .vrotrCh 2 37 6 13)] = true := by decide +kernel

theorem test_words_vred : decodesAll [
    (0b10_101_10_000_00000_10110_01101_1001000, .vredsum 2 5 .w32 22 13),
    (0b10_101_10_001_00000_10110_01101_1001000, .vredmin 2 5 .w32 22 13),
    (0b10_101_10_010_00000_10110_01101_1001000, .vredmax 2 5 .w32 22 13),
    (0b10_101_01_011_00000_10110_01101_1001000, .vfredsum 2 5 ⟨false, true⟩ 22 13),
    (0b10_101_01_100_00000_10110_01101_1001000, .vfredmin 2 5 ⟨false, true⟩ 22 13),
    (0b10_101_01_101_00000_10110_01101_1001000, .vfredmax 2 5 ⟨false, true⟩ 22 13),
    (0b10_101_11_110_00000_10110_01101_1001000, .vscan 2 5 .w64 22 13),
    (0b10_101_11_111_00000_10110_01101_1001000, .vfscan 2 5 ⟨true, true⟩ 22 13)] = true := by decide +kernel

theorem test_words_vred_twins : decodesAll [
    (0b10_101_10_000_00000_00110_01101_1011000, .vredsumCh 2 5 .w32 6 13),
    (0b10_101_10_001_00000_00110_01101_1011000, .vredminCh 2 5 .w32 6 13),
    (0b10_101_10_010_00000_00110_01101_1011000, .vredmaxCh 2 5 .w32 6 13),
    (0b10_101_01_011_00000_00110_01101_1011000, .vfredsumCh 2 5 ⟨false, true⟩ 6 13),
    (0b10_101_01_100_00000_00110_01101_1011000, .vfredminCh 2 5 ⟨false, true⟩ 6 13),
    (0b10_101_01_101_00000_00110_01101_1011000, .vfredmaxCh 2 5 ⟨false, true⟩ 6 13),
    (0b10_101_11_110_00000_00110_01101_1011000, .vscanCh 2 5 .w64 6 13),
    (0b10_101_11_111_00000_00110_01101_1011000, .vfscanCh 2 5 ⟨true, true⟩ 6 13)] = true := by decide +kernel

theorem test_words_vperm : decodesAll [
    (0b10_101_01_000_01011_10110_01101_1001001, .vperm 2 5 .w16 11 22 13),
    (0b10_101_01_001_01011_10110_01101_1001001, .vslideup 2 5 .w16 11 22 13),
    (0b10_101_01_010_01011_10110_01101_1001001, .vslidedn 2 5 .w16 11 22 13),
    (0b10_101_01_011_01011_10110_01101_1001001, .vbcast 2 5 .w16 11 22 13),
    (0b10_101_01_110_01011_10110_01101_1001001, .vsel 2 5 .w16 11 22 13),
    (0b10_101_01_100_00000_10110_01101_1001001, .vcompress 2 5 .w16 22 13),
    (0b10_101_01_101_00000_10110_01101_1001001, .vexpand 2 5 .w16 22 13),
    (0b10_101_01_111_00000_10110_01101_1001001, .vmv 2 5 .w16 22 13),
    (0b00_101_10_000_01011_10110_01101_1001010, .vmrgu 5 .w32 11 22 13),
    (0b00_101_10_001_01011_10110_01101_1001010, .vmrgi 5 .w32 11 22 13)] = true := by decide +kernel

theorem test_words_vperm_twins : decodesAll [
    (0b10_101_01_000_01011_00110_01101_1011001, .vpermCh 2 5 .w16 11 6 13),
    (0b10_101_01_001_01011_00110_01101_1011001, .vslideupCh 2 5 .w16 11 6 13),
    (0b10_101_01_010_01011_00110_01101_1011001, .vslidednCh 2 5 .w16 11 6 13),
    (0b10_101_01_011_01011_00110_01101_1011001, .vbcastCh 2 5 .w16 11 6 13),
    (0b10_101_01_110_01011_00110_01101_1011001, .vselCh 2 5 .w16 11 6 13),
    (0b10_101_01_100_00000_00110_01101_1011001, .vcompressCh 2 5 .w16 6 13),
    (0b10_101_01_101_00000_00110_01101_1011001, .vexpandCh 2 5 .w16 6 13),
    (0b10_101_01_111_00000_00110_01101_1011001, .vmvCh 2 5 .w16 6 13),
    (0b00_101_10_000_01011_00110_01101_1011010, .vmrguCh 5 .w32 11 6 13),
    (0b00_101_10_001_01011_00110_01101_1011010, .vmrgiCh 5 .w32 11 6 13)] = true := by decide +kernel

theorem test_words_vconv : decodesAll [
    (0b10_101_11_000_01001_10110_01101_1001011, .vcvt 2 5 .w64 9 22 13),
    (0b10_101_10_001_01011_10110_01101_1001011, .vtbdec 2 5 .w32 11 22 13),
    (0b10_101_10_010_01011_10110_01101_1001011, .vtbenc 2 5 .w32 11 22 13)] = true := by decide +kernel

theorem test_words_vmem : decodesAll [
    (0b01_101_10_10_0_11101_10110_01101_1001100, .vld .acq 5 .w32 2 0x1D 22 13),
    (0b10_101_10_10_1_11101_10110_01101_1001100, .vst .rel 5 .w32 2 0x1D 22 13),
    (0b01_101_00_000_01011_10110_01101_1001101, .vlds .acq 5 .w8 11 22 13),
    (0b10_101_00_001_01011_10110_01101_1001101, .vsts .rel 5 .w8 11 22 13),
    (0b01_101_10_000_01011_10110_01101_1001110, .vldx .acq 5 .w32 11 22 13),
    (0b10_101_10_001_01011_10110_01101_1001110, .vstx .rel 5 .w32 11 22 13),
    (0b01_101_11_000_01011_10110_01101_1001111, .vldt .acq 5 .w64 11 22 13),
    (0b00_000_10_001_01111_10110_01101_1001111, .vpark 15 22 13),
    (0b00_000_10_010_01111_10110_01101_1001111, .vunpark 15 22 13),
    (0b10_101_10_011_00000_10110_01101_1001111, .vmvx 2 5 .w32 22 13),
    (0b10_000_10_100_00000_10110_01101_1001111, .vmvxv 2 .w32 22 13)] = true := by decide +kernel

theorem test_words_mask : decodesAll [
    (0b10_000_00_000_00110_00011_00101_1011011, .kand 2 6 3 5),
    (0b10_000_00_001_00110_00011_00101_1011011, .kor 2 6 3 5),
    (0b10_000_00_010_00110_00011_00101_1011011, .kxor 2 6 3 5),
    (0b10_000_00_011_00110_00011_00101_1011011, .kandn 2 6 3 5),
    (0b10_000_00_100_00000_00011_00101_1011011, .knot 2 3 5),
    (0b10_000_00_000_00000_00011_01101_1011100, .kmvKToX 2 3 13),
    (0b10_000_00_001_00000_10110_00101_1011100, .kmvXToK 2 22 5),
    (0b10_000_00_010_00000_00011_01101_1011100, .kpopc 2 3 13),
    (0b10_000_00_011_00000_00011_01101_1011100, .kfirst 2 3 13)] = true := by decide +kernel

theorem test_words_matrix : decodesAll [
    (0b00_000_00000_01011_10110_00000_1100000, .mzero 11 22),
    (0b00_001_00000_00000_10110_01101_1100000, .mrdv 22 13),
    (0b00_010_00000_01011_10110_00000_1100000, .mwrv 11 22),
    (0b00_101_00001_01011_10110_01101_1100001, .mmac 5 true 11 22 13),
    (0b00_001_00001_01011_10110_01101_1100010, .mbin true true 11 22 13),
    (0b10_000_10101_01011_10110_00000_1100011, .mstore .rel 2 5 11 22),
    (0b01_001_01110_01011_10110_00000_1100011, .mload .acq 1 6 11 22),
    (0b00_000_00000_01011_10110_01101_1100100, .mswap 11 22 13)] = true := by decide +kernel

theorem test_words_engine : decodesAll [
    (0b00_000_00000_00000_10110_00000_1100101, .cpy 22),
    (0b00_000_00000_00000_10110_00000_1100110, .gath 22),
    (0b00_001_00000_00000_10110_00000_1100110, .scat 22),
    (0b00_000_00000_01011_10110_01101_1100111, .qmul 11 22 13),
    (0b00_001_00000_01011_10110_01101_1100111, .qadd 11 22 13),
    (0b00_010_00000_00000_10110_00000_1100111, .qresume 22),
    (0b00_011_00000_00000_10110_01101_1100111, .qcancel 22 13),
    (0b00_100_00000_00000_10110_01101_1100111, .qstat 22 13),
    (0b00_101_00001_01011_10110_01101_1100111, .qpool true 11 22 13),
    (0b00_000_00000_00000_10110_01101_1101000, .wtagany 22 13),
    (0b00_001_00000_00000_10110_01101_1101000, .wtagall 22 13),
    (0b00_010_00000_00000_10110_01101_1101000, .ftag 22 13)] = true := by decide +kernel

theorem test_words_message : decodesAll [
    (0b00_000_10101_01011_10110_00000_1110000, .send 2 5 11 22),
    (0b00_001_10101_01011_10110_00000_1110000, .sendx 2 5 11 22),
    (0b00_010_01101_01011_10110_00000_1110000, .sendr 5 11 22),
    (0b00_000_10101_01011_10110_00000_1110001, .gsend 2 5 11 22),
    (0b00_000_00000_01011_10110_00000_1110010, .htset 11 22),
    (0b00_001_00000_00000_10110_01101_1110010, .htget 22 13),
    (0b00_010_00000_00000_10110_00000_1110010, .htclr 22),
    (0b00_000_00000_00000_10110_01101_1110011, .chmsk 22 13),
    (0b00_001_00000_00000_10110_01101_1110011, .chunm 22 13),
    (0b00_010_00000_00000_10110_01101_1110011, .mpeek 22 13),
    (0b00_011_00000_00000_10110_00000_1110011, .mdrop 22),
    (0b00_000_00000_00000_10110_01101_1110100, .join 22 13),
    (0b00_001_00000_00000_10110_01101_1110100, .leave 22 13),
    (0b00_010_00000_00000_10110_00000_1110100, .gbar 22),
    (0b00_000_00000_01011_10110_00000_1110101, .xred 11 22),
    (0b00_001_00000_01011_10110_00000_1110101, .xbcast 11 22)] = true := by decide +kernel

theorem test_words_task : decodesAll [
    (0b00_000_00000_00000_10110_01101_1110110, .actnew 22 13),
    (0b00_001_00000_00000_00000_00000_1110110, .actend),
    (0b00_000_00000_01011_10110_00000_1110111, .qpush 11 22),
    (0b00_001_00000_01011_00000_01101_1110111, .qpop 11 13),
    (0b00_000_00000_01011_10110_00000_1111000, .tarm 11 22),
    (0b00_001_00000_00000_10110_00000_1111000, .tdone 22),
    (0b00_000_00000_01011_10110_00000_1111001, .egpost 11 22),
    (0b00_001_00000_00000_10110_00000_1111001, .egrel 22),
    (0b00_010_00000_00000_10110_00000_1111001, .egdrop 22)] = true := by decide +kernel

/-- The words that 03 works out. -/
theorem test_words_of_the_format_chapter : decodesAll [(0x0002D681, .addi 0 1 13 13), (0x00000001, .addi 0 0 0 0),
    (0x000200D2, .vfaddCh 0 0 ⟨false, false⟩ 1 0 1), (0x009A301B, .std .rlx 64 13 3), (0x809A301B, .std .rel 64 13 3),
    (0x3FC0DEA4, .bne 0xFFD 0 13), (0x00C00028, .hend), (0x0004D707, .slli 0 2 13 14)] = true := by decide +kernel

/-- The words that 05, 06 and 07 list. -/
theorem test_words_of_chapters_5_to_7 : decodesAll [
    (0x000206A6, .csrrs 0 false 1 0 13),
    (0x20041025, .csrrw 0 true 2 1 0),
    (0x20046726, .csrrs 0 true 2 6 14),
    (0x2003F027, .csrrc 0 true 1 31 0),
    (0x00000028, .ecall),
    (0x00400028, .ebreak),
    (0x00800028, .tret),
    (0x402CD68B, .mul 1 22 13 13),
    (0x000062A4, .beq 5 0 6),
    (0x380C568B, .remu 6 5 13),
    (0xFFFFC023, .jal 0xFFFFC 0),
    (0x00001022, .jalr 0 1 0),
    (0x040411C0, .vadd 0 0 .w32 2 1 3),
    (0x0C041243, .vfma 0 1 ⟨true, false⟩ 2 1 4),
    (0x258E62C6, .vbool3 0 0x96 7 6 5),
    (0x014620C7, .vfshr 0 1 3 2 1),
    (0x0404144A, .vmrgu 0 .w32 2 1 8),
    (0x04003158, .vredsumCh 0 0 .w32 3 2),
    (0x000620DB, .kand 0 3 2 1),
    (0x000016DC, .kmvKToX 0 1 13),
    (0x00803693, .ldd .rlx 64 3 13),
    (0x7FF82292, .ldw .acq 0x1FFC 2 5),
    (0xC00C5198, .stb .sc 3 6 5),
    (0x504C569D, .amoadd .acq .cluster true 6 5 13),
    (0xA54C569D, .casFailAcq .rel .module true 6 5 13),
    (0x20C00021, .fence .module .full),
    (0x10800021, .fence .cluster .ss),
    (0x09000021, .fence .core .engine),
    (0x040030CC, .vld .rlx 0 .w32 0 0 3 1),
    (0x044030CC, .vst .rlx 0 .w32 0 0 3 1),
    (0x4504544C, .vld .acq 0 .w32 2 2 5 8),
    (0x040C514D, .vlds .rlx 0 .w32 6 5 2),
    (0x044851CE, .vstx .rlx 0 .w32 4 5 3),
    (0x060C504F, .vldt .rlx 0 .w64 6 5 0)] = true := by decide +kernel

/-- The words that 08 and 09 list. -/
theorem test_words_of_chapters_8_and_9 : decodesAll [
    (0x00025070, .send 0 0 1 5),
    (0x02C85070, .send 1 3 4 5),
    (0x0A0C5070, .sendx 1 0 6 5),
    (0x12045070, .sendr 0 2 5),
    (0x00425071, .gsend 0 1 1 5),
    (0x000C5072, .htset 6 5),
    (0x080056F2, .htget 5 13),
    (0x10005072, .htclr 5),
    (0x000056F3, .chmsk 5 13),
    (0x080056F3, .chunm 5 13),
    (0x10005173, .mpeek 5 2),
    (0x18005073, .mdrop 5),
    (0x000056F4, .join 5 13),
    (0x080056F4, .leave 5 13),
    (0x10005074, .gbar 5),
    (0x00065075, .xred 3 5),
    (0x08065075, .xbcast 3 5),
    (0x00025077, .qpush 1 5),
    (0x080806F7, .qpop 4 13),
    (0x000C5078, .tarm 6 5),
    (0x08005078, .tdone 5),
    (0x00025079, .egpost 1 5),
    (0x08005079, .egrel 5),
    (0x10005079, .egdrop 5),
    (0x000C5060, .mzero 6 5),
    (0x08005160, .mrdv 5 2),
    (0x10065060, .mwrv 3 5),
    (0x000C56E1, .mmac 0 false 6 5 13),
    (0x284C56E1, .mmac 5 true 6 5 13),
    (0x080C56E2, .mbin true false 6 5 13),
    (0x009A5063, .mstore .rlx 0 2 13 5),
    (0x809A5063, .mstore .rel 0 2 13 5),
    (0x0D1A5063, .mload .rlx 2 4 13 5),
    (0x000C56E4, .mswap 6 5 13),
    (0x000C5AE7, .qmul 6 5 21),
    (0x080C5AE7, .qadd 6 5 21),
    (0x10005067, .qresume 5),
    (0x180056E7, .qcancel 5 13),
    (0x200056E7, .qstat 5 13),
    (0x284C56E7, .qpool true 6 5 13)] = true := by decide +kernel

/-- The words that 03 and 06 to 09 list as ILLEGAL. -/
theorem test_illegal_words : [0x04041444, 0x0004144A, 0x05C010C2, 0x04041F4A, 0x80803693, 0x3040569D, 0x0600569D, 0x21400021, 0x05805E4C, 0x020C504F, 0x006ED84F, 0x0540504F, 0x000050E5, 0x01C25070, 0x10045070, 0x063C5070, 0x000250F0, 0x18025070, 0x20005073, 0x004056F4, 0x08005076, 0x18005079, 0x300C56E1, 0x004C56E1, 0x065A5063, 0x004C56E4, 0x000C5FE7, 0x300C56E7, 0x100050E7, 0xC0C00028, 0xC0000024, 0x000300D2, 0x00000000, 0xFFFFFFFF].all
    (fun w => decodeTableWord 32 w == none) = true := by decide +kernel

/-! ### Ill-formed terms -/

theorem test_ordRefused : (Instr.ldd .rel 0 1 2).check = some .ordRefused ∧ (Instr.std .acq 0 1 2).check = some .ordRefused := by
  decide
theorem test_widthRefused : (Instr.vldt .rlx 0 .w16 1 2 3).check = some .widthRefused
    ∧ (Instr.vmrgu 0 .w8 1 2 3).check = some .widthRefused ∧ (Instr.vcvt 0 0 .w32 8 1 2).check = some .widthRefused := by decide
theorem test_registerRange : (Instr.vld .rlx 0 .w32 3 0 1 28).check = some .registerRange
    ∧ (Instr.vpark 3 1 4).check = some .registerRange ∧ (Instr.vmrgi 0 .w16 1 2 30).check = some .registerRange
    ∧ (Instr.send 3 0 30 1).check = some .registerRange ∧ (Instr.sendr 0 31 1).check = some .registerRange := by decide
theorem test_conversionCode : (Instr.vcvt 0 0 .w64 18 1 2).check = some .conversionCode := by decide
theorem test_classSeven : (Instr.send 0 7 1 2).check = some .classSeven ∧ (Instr.gsend 0 7 1 2).check = some .classSeven := by decide
theorem test_matrixFormat : (Instr.mmac 6 false 1 2 3).check = some .matrixFormat
    ∧ (Instr.mmac 0 true 1 2 3).check = some .matrixFormat := by decide
theorem test_tilePair : (Instr.mstore .rlx 3 0 1 2).check = some .tilePair ∧ (Instr.mload .rlx 1 5 1 2).check = some .tilePair := by
  decide
theorem test_jobRegister : (Instr.qmul 1 2 0).check = some .jobRegister ∧ (Instr.qadd 1 2 31).check = some .jobRegister := by decide
theorem test_csrUnassigned : (Instr.csrrw 0 false 5 1 2).check = some .csrUnassigned
    ∧ (Instr.csrrs 0 false 0xC0F 0 2).check = some .csrUnassigned := by decide
theorem test_csrReadOnly : (Instr.csrrw 0 false 0xC00 1 2).check = some .csrReadOnly
    ∧ (Instr.csrrs 0 true 0xC0E 1 2).check = some .csrReadOnly ∧ (Instr.csrrs 0 true 0xC0E 0 2).check = none := by decide
theorem test_noEncoding : (Instr.evReset).check = some .noEncoding := by decide

/-! ### Scalar instructions (05) -/

/-- x1 = −16, x2 = 3, x3 = 0x0123_4567_89AB_CDEF. -/
def sx : State := stX [(1, -16), (2, 3), (3, 0x0123456789ABCDEF), (4, 0x8000000000000000), (5, 0xF0F0), (6, -1)]

theorem test_immediates : [xAfter (.addi 0 0x1FFF 2 9) sx 9, xAfter (.andi 0 0x1FF0 3 9) sx 9, xAfter (.ori 0 0x1000 2 9) sx 9,
    xAfter (.xori 0 0x1FFF 1 9) sx 9, xAfter (.slti 0 0x1FF1 1 9) sx 9, xAfter (.sltiu 0 0x1FF1 2 9) sx 9,
    xAfter (.addi 0 5 2 0) sx 0]
  = [some 2, some 0x0123456789ABCDE0, some 0xFFFFFFFFFFFFF003, some 15, some 1, some 1, some 0] := by decide +kernel
theorem test_shifts : [xAfter (.slli 0 63 2 9) sx 9, xAfter (.srli 0 60 1 9) sx 9, xAfter (.srai 0 2 1 9) sx 9,
    xAfter (.rori 0 4 3 9) sx 9, xAfter (.lui 0x80000 9) sx 9, xAfter (.auipc 0x00012 9) sx 9]
  = [some 0x8000000000000000, some 15, some (-4), some 0xF0123456789ABCDE, some 0xFFFFFFFF80000000, some 0x22000] := by
  decide +kernel
theorem test_registers_1 : [xAfter (.add 0 2 1 9) sx 9, xAfter (.sub 0 1 2 9) sx 9, xAfter (.and 0 5 3 9) sx 9,
    xAfter (.or 0 2 5 9) sx 9, xAfter (.xor 0 6 5 9) sx 9, xAfter (.andn 0 5 3 9) sx 9, xAfter (.sll 0 1 2 9) sx 9,
    xAfter (.srl 0 1 3 9) sx 9, xAfter (.sra 0 2 1 9) sx 9]
  = [some (-13), some 19, some 0xC0E0, some 0xF0F3, some 0xFFFFFFFFFFFF0F0F, some 0x0123456789AB0D0F, some 0x0003000000000000,
     some 0x0123, some (-2)] := by decide +kernel
theorem test_registers_2 : [xAfter (.rol 0 2 4 9) sx 9, xAfter (.ror 0 2 2 9) sx 9, xAfter (.slt 0 2 1 9) sx 9,
    xAfter (.sltu 0 2 1 9) sx 9, xAfter (.min 0 2 1 9) sx 9, xAfter (.max 0 2 1 9) sx 9, xAfter (.minu 0 2 1 9) sx 9,
    xAfter (.maxu 0 2 1 9) sx 9]
  = [some 4, some 0x6000000000000000, some 1, some 0, some (-16), some 3, some 3, some (-16)] := by decide +kernel
theorem test_multiplies : [xAfter (.mul 0 2 1 9) sx 9, xAfter (.mulh 0 2 1 9) sx 9, xAfter (.mulhu 0 6 1 9) sx 9,
    xAfter (.mulhsu 0 6 1 9) sx 9, xAfter (.mulh 0 4 4 9) sx 9]
  = [some (-48), some (-1), some 0xFFFFFFFFFFFFFFEF, some 0xFFFFFFFFFFFFFFF0, some 0x4000000000000000] := by decide +kernel
theorem test_divides : [xAfter (.div 2 1 9) sx 9, xAfter (.divu 2 5 9) sx 9, xAfter (.rem 2 1 9) sx 9, xAfter (.remu 2 1 9) sx 9]
  = [some (-5), some 0x5050, some (-1), some 0] := by decide +kernel
theorem test_divide_corners : [xAfter (.div 0 1 9) sx 9, xAfter (.divu 0 1 9) sx 9, xAfter (.rem 0 1 9) sx 9,
    xAfter (.remu 0 1 9) sx 9, xAfter (.div 6 4 9) sx 9, xAfter (.rem 6 4 9) sx 9]
  = [some (-1), some (-1), some (-16), some (-16), some 0x8000000000000000, some 0] := by decide +kernel
theorem test_bits : [xAfter (.clz 0 3 9) sx 9, xAfter (.clz 0 0 9) sx 9, xAfter (.ctz 0 5 9) sx 9, xAfter (.ctz 0 0 9) sx 9,
    xAfter (.popc 0 5 9) sx 9, xAfter (.bext 0 5 3 9) sx 9, xAfter (.bdep 0 5 3 9) sx 9]
  = [some 7, some 64, some 4, some 64, some 8, some 0xCE, some 0xE0F0] := by decide +kernel
theorem test_extensions : [xAfter (.sextb 0 3 9) sx 9, xAfter (.sexth 0 5 9) sx 9, xAfter (.sextw 0 3 9) sx 9,
    xAfter (.rev8 0 3 9) sx 9]
  = [some (-17), some 0xFFFFFFFFFFFFF0F0, some 0xFFFFFFFF89ABCDEF, some 0xEFCDAB8967452301] := by decide +kernel
theorem test_jumps : [pcAfter (.jal 0xFFFFD 9) sx, xAfter (.jal 0xFFFFD 9) sx 9, pcAfter (.jalr 1 2 9) sx, xAfter (.jalr 1 2 9) sx 9]
  = [some 0xFFF4, some 0x10004, some 4, some 0x10004] := by decide +kernel
theorem test_jalr_misaligned : trapOf (.jalr 0 2 9) sx = some [(0x03, 3)] := by decide +kernel
theorem test_branches : [pcAfter (.beq 2 1 1) sx, pcAfter (.bne 2 1 1) sx, pcAfter (.blt 0xFFF 2 1) sx, pcAfter (.bge 2 2 1) sx,
    pcAfter (.bltu 2 2 1) sx, pcAfter (.bgeu 2 2 1) sx]
  = [some 0x10008, some 0x10004, some 0xFFFC, some 0x10004, some 0x10004, some 0x10008] := by decide +kernel
/-- 05 R118: frm takes 1; 6 is no mode; CSRRC clears flags; a read-only CSR gives its value. -/
theorem test_csrs : [xAfter (.csrrw 0 true 2 1 9) sx 9, xAfter (.csrrs 0 true 0xC01 0 9) sx 9, xAfter (.csrrs 0 true 0xC00 0 9) sx 9]
  = [some 0, some 0, some 0]
  ∧ ((after (exec (.csrrw 0 true 2 1 0) sx)).map fun t => (landed t).frm) = some 1
  ∧ ((after (exec (.csrrs 0 true 2 6 9) (st { slot0 with frm := 1 }))).map fun t => (landed t).frm) = some 1
  ∧ ((after (exec (.csrrc 0 true 1 31 0) (st { slot0 with fflags := 1 }))).map fun t => (landed t).fflags) = some 0 := by
  decide +kernel
theorem test_csr_unassigned : trapOf (.csrrw 0 false 5 1 2) sx = some [(0x01, 0x000A1125)] := by
  decide +kernel
theorem test_system : ((after (exec .ecall sx)).map fun t => ((getSlot t 0 0).status, (getSlot t 0 0).pc)) = some (.ecall, 0x10004)
  ∧ trapOf .ebreak sx = some [(0x0C, 0)] ∧ trapOf .tret sx = some [(0x01, 0x00800028)]
  ∧ ((after (exec .hend sx)).map fun t => (getSlot t 0 0).status) = some .hend := by decide +kernel
/-! ### Vector instructions (06) -/

/-- A register of lanes of w bits, lane 0 first. -/
def vec (w : Nat) (l : List Nat) : Vec := BitVec.ofNat 512 (l.foldr (fun a r => a % 2 ^ w + 2 ^ w * r) 0)
/-- The lowest n lanes of w bits. -/
def lanesOf (w n : Nat) (v : Vec) : List Nat := (List.range n).map fun j => v.toNat / 2 ^ (w * j) % 2 ^ w

/-- v1 = a, v2 = b, v3 = c, k1 = 0b0111; channel 0 stands at a word that equals v1. -/
def vs (a b c : Vec) : State :=
  st (withK (withV (withX { slot0 with held := [⟨0, ⟨0, [a, b], 0, 0, 0, 0, false⟩, 0, true⟩] } [(1, 2), (2, 1)]) [(1, a), (2, b), (3, c)])
    [(1, 7)])

/-- The lowest n lanes that an instruction and its channel twin both write to v3; none where they differ. -/
noncomputable def both (base twin : Instr) (s : State) (w n : Nat) : Option (List Nat) :=
  let p := (vAfter base s 3).map (lanesOf w n)
  if (vAfter twin s 3).map (lanesOf w n) = p then p else none
noncomputable def bothK (base twin : Instr) (s : State) : Option Nat :=
  let p := (kAfter base s 3).map (·.toNat)
  if (kAfter twin s 3).map (·.toNat) = p then p else none

def vi : State := vs (vec 32 [5, 0xFFFFFFFE, 0x80000000, 7]) (vec 32 [3, 4, 0x80000000, 1]) (vec 32 [1, 1, 1, 9])

theorem test_vint_a : [both (.vadd 0 1 .w32 2 1 3) (.vaddCh 0 1 .w32 2 0 3) vi 32 4,
    both (.vsub 0 0 .w32 2 1 3) (.vsubCh 0 0 .w32 2 0 3) vi 32 4, both (.vmul 0 0 .w32 2 1 3) (.vmulCh 0 0 .w32 2 0 3) vi 32 4,
    both (.vmulh 0 0 .w32 2 1 3) (.vmulhCh 0 0 .w32 2 0 3) vi 32 4, both (.vmin 0 0 .w32 2 1 3) (.vminCh 0 0 .w32 2 0 3) vi 32 4,
    both (.vmax 0 0 .w32 2 1 3) (.vmaxCh 0 0 .w32 2 0 3) vi 32 4, both (.vminu 0 0 .w32 2 1 3) (.vminuCh 0 0 .w32 2 0 3) vi 32 4,
    both (.vmaxu 0 0 .w32 2 1 3) (.vmaxuCh 0 0 .w32 2 0 3) vi 32 4]
  = [some [8, 2, 0, 9], some [2, 0xFFFFFFFA, 0, 6], some [15, 0xFFFFFFF8, 0, 7], some [0, 0xFFFFFFFF, 0x40000000, 0],
     some [3, 0xFFFFFFFE, 0x80000000, 1], some [5, 4, 0x80000000, 7], some [3, 4, 0x80000000, 1],
     some [5, 0xFFFFFFFE, 0x80000000, 7]] := by decide +kernel
theorem test_vint_b : [both (.vand 0 0 .w32 2 1 3) (.vandCh 0 0 .w32 2 0 3) vi 32 4,
    both (.vor 0 0 .w32 2 1 3) (.vorCh 0 0 .w32 2 0 3) vi 32 4, both (.vxor 0 0 .w32 2 1 3) (.vxorCh 0 0 .w32 2 0 3) vi 32 4,
    both (.vandn 0 0 .w32 2 1 3) (.vandnCh 0 0 .w32 2 0 3) vi 32 4, both (.vshl 0 0 .w32 2 1 3) (.vshlCh 0 0 .w32 2 0 3) vi 32 4,
    both (.vshr 0 0 .w32 2 1 3) (.vshrCh 0 0 .w32 2 0 3) vi 32 4, both (.vshra 0 0 .w32 2 1 3) (.vshraCh 0 0 .w32 2 0 3) vi 32 4,
    both (.vpopc 0 0 .w32 1 3) (.vpopcCh 0 0 .w32 0 3) vi 32 4]
  = [some [1, 4, 0x80000000, 1], some [7, 0xFFFFFFFE, 0x80000000, 7], some [6, 0xFFFFFFFA, 0, 6],
     some [4, 0xFFFFFFFA, 0, 6], some [40, 0xFFFFFFE0, 0x80000000, 14], some [0, 0x0FFFFFFF, 0x80000000, 3],
     some [0, 0xFFFFFFFF, 0x80000000, 3], some [2, 31, 1, 3]] := by decide +kernel
/-- A channel twin pops the word. -/
theorem test_twin_pops : ((after (exec (.vaddCh 0 0 .w32 2 0 3) vi)).map fun t => (getSlot t 0 0).held.map (·.pos)) = some [1] := by
  decide +kernel

/-- Lanes 1.5, −2, +0, signalling NaN against 2.5, 3, −0, 1; addend 1. -/
def vf : State := vs (vec 32 [0x3FC00000, 0xC0000000, 0, 0x7F800001]) (vec 32 [0x40200000, 0x40400000, 0x80000000, 0x3F800000])
  (vec 32 [0x3F800000, 0x3F800000, 0x3F800000, 0x3F800000])
def nf : Flush := ⟨false, false⟩

theorem test_vfp : [both (.vfadd 0 0 nf 2 1 3) (.vfaddCh 0 0 nf 2 0 3) vf 32 4, both (.vfsub 0 0 nf 2 1 3) (.vfsubCh 0 0 nf 2 0 3) vf 32 4,
    both (.vfmul 0 0 nf 2 1 3) (.vfmulCh 0 0 nf 2 0 3) vf 32 4, both (.vfmin 0 0 nf 2 1 3) (.vfminCh 0 0 nf 2 0 3) vf 32 3,
    both (.vfmax 0 0 nf 2 1 3) (.vfmaxCh 0 0 nf 2 0 3) vf 32 3, both (.vfabs 0 0 1 3) (.vfabsCh 0 0 0 3) vf 32 3]
  = [some [0x40800000, 0x3F800000, 0, 0x7FC00000], some [0xBF800000, 0xC0A00000, 0, 0x7FC00000],
     some [0x40700000, 0xC0C00000, 0x80000000, 0x7FC00000], some [0x3FC00000, 0xC0000000, 0x80000000],
     some [0x40200000, 0x40400000, 0], some [0x3FC00000, 0x40000000, 0]] := by decide +kernel
/-- 1.5 / 2.5 = 0.6 rounds to 0x3F19999A. -/
theorem test_vfdiv_vfsqrt : [both (.vfdiv 0 nf 2 1 3) (.vfdivCh 0 nf 2 0 3) vf 32 2,
    both (.vfsqrt 0 0 nf 1 3) (.vfsqrtCh 0 0 nf 0 3) vf 32 2]
  = [some [0x3F19999A, 0xBF2AAAAB], some [0x3F9CC471, 0x7FC00000]] := by decide +kernel
theorem test_vfma : [both (.vfma 0 0 nf 2 1 3) (.vfmaCh 0 0 nf 2 0 3) vf 32 2, both (.vfms 0 0 nf 2 1 3) (.vfmsCh 0 0 nf 2 0 3) vf 32 2,
    both (.vfnma 0 0 nf 2 1 3) (.vfnmaCh 0 0 nf 2 0 3) vf 32 2, both (.vfnms 0 0 nf 2 1 3) (.vfnmsCh 0 0 nf 2 0 3) vf 32 2]
  = [some [0x40980000, 0xC0A00000], some [0x40300000, 0xC0E00000], some [0xC0980000, 0x40A00000], some [0xC0300000, 0x40E00000]] := by
  decide +kernel
theorem test_fp_flags : ((after (exec (.vfdiv 0 nf 2 1 3) vf)).map fun t => (getSlot t 0 0).locals.map (·.flags)) = some [0x11]
  ∧ ((after (exec (.vfadd 0 0 nf 2 1 3) vf)).map fun t => (landed t).fflags) = some 0x10 := by decide +kernel
theorem test_arithmetic : [fdiv32 0 0x3F800000 0x40400000, fdiv32 3 0x3F800000 0x40400000, fadd32 2 0x3F800000 0xBF800000, fsqrt32 0 0x40000000,
    fdiv32 0 0x3F800000 0, fma32 false false 0 0x3F800001 0x3F800001 0xBF800002]
    = [(0x3EAAAAAB, flagNX), (0x3EAAAAAB, flagNX), (0x80000000, 0), (0x3FB504F3, flagNX), (0x7F800000, flagDZ), (0x28800000, 0)] := by decide +kernel
theorem test_vcmp : [bothK (.vcmpeq 0 0 .w32 2 1 3) (.vcmpeqCh 0 0 .w32 2 0 3) vi, bothK (.vcmpne 0 1 .w32 2 1 3) (.vcmpneCh 0 1 .w32 2 0 3) vi,
    bothK (.vcmplt 0 1 .w32 2 1 3) (.vcmpltCh 0 1 .w32 2 0 3) vi, bothK (.vcmple 0 1 .w32 2 1 3) (.vcmpleCh 0 1 .w32 2 0 3) vi,
    bothK (.vcmpltu 0 1 .w32 2 1 3) (.vcmpltuCh 0 1 .w32 2 0 3) vi, bothK (.vcmpleu 0 1 .w32 2 1 3) (.vcmpleuCh 0 1 .w32 2 0 3) vi]
  = [some 0xFFF4, some 3, some 2, some 6, some 0, some 4] := by decide +kernel
theorem test_vfcmp : [bothK (.vfcmpeq 0 1 false 2 1 3) (.vfcmpeqCh 0 1 false 2 0 3) vf,
    bothK (.vfcmplt 0 1 false 2 1 3) (.vfcmpltCh 0 1 false 2 0 3) vf, bothK (.vfcmple 0 1 false 2 1 3) (.vfcmpleCh 0 1 false 2 0 3) vf,
    bothK (.vfcmpun 0 0 false 2 1 3) (.vfcmpunCh 0 0 false 2 0 3) vf] = [some 4, some 3, some 7, some 8] := by decide +kernel
/-- Table 0x96 is the exclusive or of three; 0xCA the choice of the second or third by the first. -/
theorem test_vbits : [both (.vbool3 0 0x96 2 1 3) (.vbool3Ch 0 0x96 2 0 3) vi 32 2, both (.vbool3 0 0xCA 2 1 3) (.vbool3Ch 0 0xCA 2 0 3) vi 32 2,
    both (.vrotl 0 4 1 3) (.vrotlCh 0 4 0 3) vi 32 2, both (.vrotr 0 4 1 3) (.vrotrCh 0 4 0 3) vi 32 2,
    both (.vfshl 0 32 2 1 3) (.vfshlCh 0 32 2 0 3) vi 32 2, both (.vfshr 0 32 2 1 3) (.vfshrCh 0 32 2 0 3) vi 32 2]
  = [some [7, 0xFFFFFFFB], some [1, 5], some [0x5F, 0xFFFFFFE0], some [0xE0000000, 0x5FFFFFFF], some [4, 5], some [0xFFFFFFFE, 3]] := by
  decide +kernel
theorem test_reductions : [both (.vredsum 0 1 .w32 1 3) (.vredsumCh 0 1 .w32 0 3) vi 32 2, both (.vredmin 0 1 .w32 1 3) (.vredminCh 0 1 .w32 0 3) vi 32 2,
    both (.vredmax 0 1 .w32 1 3) (.vredmaxCh 0 1 .w32 0 3) vi 32 2, both (.vscan 0 1 .w32 1 3) (.vscanCh 0 1 .w32 0 3) vi 32 4,
    both (.vfredsum 0 1 nf 2 3) (.vfredsumCh 0 1 nf 0 3) (vs (vec 32 [0x40200000, 0x40400000, 0x80000000])
      (vec 32 [0x40200000, 0x40400000, 0x80000000]) (vec 32 [0, 9])) 32 2,
    both (.vfredmin 0 1 nf 2 3) (.vfredminCh 0 1 nf 0 3) (vs (vec 32 [0x40200000, 0x40400000, 0x80000000])
      (vec 32 [0x40200000, 0x40400000, 0x80000000]) (vec 32 [0, 9])) 32 2,
    both (.vfredmax 0 1 nf 2 3) (.vfredmaxCh 0 1 nf 0 3) (vs (vec 32 [0x40200000, 0x40400000, 0x80000000])
      (vec 32 [0x40200000, 0x40400000, 0x80000000]) (vec 32 [0, 9])) 32 2,
    both (.vfscan 0 1 nf 2 3) (.vfscanCh 0 1 nf 0 3) (vs (vec 32 [0x40200000, 0x40400000, 0x80000000])
      (vec 32 [0x40200000, 0x40400000, 0x80000000]) (vec 32 [0, 9])) 32 3]
  = [some [0x80000003, 1], some [0x80000000, 1], some [5, 1], some [5, 3, 0x80000003, 9], some [0x40B00000, 9], some [0x80000000, 9],
     some [0x40400000, 9], some [0x40200000, 0x40B00000, 0x40B00000]] := by decide +kernel
/-- The lane counts and the lane index are in x2 = 1. -/
theorem test_permutations : [both (.vperm 0 0 .w32 2 1 3) (.vpermCh 0 0 .w32 2 0 3) vi 32 4, both (.vslideup 0 0 .w32 2 1 3) (.vslideupCh 0 0 .w32 2 0 3) vi 32 4,
    both (.vslidedn 0 0 .w32 2 1 3) (.vslidednCh 0 0 .w32 2 0 3) vi 32 4, both (.vbcast 0 1 .w32 2 1 3) (.vbcastCh 0 1 .w32 2 0 3) vi 32 4,
    both (.vcompress 0 1 .w32 1 3) (.vcompressCh 0 1 .w32 0 3) vi 32 4, both (.vexpand 0 1 .w32 1 3) (.vexpandCh 0 1 .w32 0 3) vi 32 4,
    both (.vsel 0 1 .w32 2 1 3) (.vselCh 0 1 .w32 2 0 3) vi 32 4, both (.vmv 0 1 .w32 1 3) (.vmvCh 0 1 .w32 0 3) vi 32 4]
  = [some [7, 0, 0, 0xFFFFFFFE], some [0, 5, 0xFFFFFFFE, 0x80000000], some [0xFFFFFFFE, 0x80000000, 7, 0],
     some [0xFFFFFFFE, 0xFFFFFFFE, 0xFFFFFFFE, 9], some [5, 0xFFFFFFFE, 0x80000000, 9], some [5, 0xFFFFFFFE, 0x80000000, 9],
     some [5, 0xFFFFFFFE, 0x80000000, 1], some [5, 0xFFFFFFFE, 0x80000000, 9]] := by decide +kernel
/-- The example of 06 R138. -/
def vm : State := let f := List.replicate 12 0xFFFFFFFF
  vs (vec 32 ([2, 5, 9, 14] ++ f)) (vec 32 ([5, 6, 14, 20, 21] ++ f)) 0
theorem test_merges : (vAfter (.vmrgu 0 .w32 2 1 8) vm 8).map (lanesOf 32 8) = some [2, 5, 6, 9, 14, 20, 21, 0xFFFFFFFF]
    ∧ (vAfter (.vmrguCh 0 .w32 2 0 8) vm 9).map (lanesOf 32 8) = some [0x8000, 0x8180, 0x81, 0x8200, 0x8382, 0x83, 0x84, 0]
    ∧ (vAfter (.vmrgu 0 .w32 2 1 8) vm 10).map (lanesOf 32 4) = some [4, 5, 7, 0]
    ∧ (vAfter (.vmrgi 0 .w32 2 1 8) vm 8).map (lanesOf 32 3) = some [5, 14, 0xFFFFFFFF]
    ∧ (vAfter (.vmrgiCh 0 .w32 2 0 8) vm 10).map (lanesOf 32 3) = some [4, 3, 2] := by decide +kernel
/-- The examples of 06 R139 and R142. -/
theorem test_conversions : (vAfter (.vcvt 0 0 .w32 0 1 2) (vs (vec 32 [0x3F8CCCCD]) 0 0) 2).map (lanesOf 32 1) = some [0x3F8D]
    ∧ (vAfter (.vtbenc 0 0 .w32 13 3 4) (st (withV (withX slot0 [(13, 0x8042)]) [(3, vec 32 [0x40400000, 0xBF400000, 0x3C23D70A])])) 4).map
        (lanesOf 8 4) = some [0x3C, 0x6C, 0x92, 0]
    ∧ (vAfter (.vtbdec 0 0 .w32 13 3 4) (st (withV (withX slot0 [(13, 0x8042)]) [(3, vec 8 [0x3C, 0x6C])])) 4).map
        (lanesOf 32 2) = some [0x40400000, 0xBF400000] := by decide +kernel
theorem test_tblock_bad : trapOf (.vtbdec 0 0 .w32 13 3 4) (stX [(13, 0)]) = some [(0x01, 0x045A324B)] := by decide +kernel
theorem test_masks : let s := st (withK (withX slot0 [(1, 0xF0)]) [(1, 0xC), (2, 0xA)])
  [kAfter (.kand 0 2 1 3) s 3, kAfter (.kor 0 2 1 3) s 3, kAfter (.kxor 0 2 1 3) s 3, kAfter (.kandn 0 2 1 3) s 3, kAfter (.knot 0 1 3) s 3,
    xAfter (.kmvKToX 0 1 9) s 9, kAfter (.kmvXToK 0 1 3) s 3, xAfter (.kpopc 0 1 9) s 9, xAfter (.kfirst 0 1 9) s 9,
    xAfter (.kfirst 0 3 9) s 9]
  = [some 8, some 14, some 6, some 4, some 0xFFFFFFFFFFFFFFF3, some 0xC, some 0xF0, some 2, some 2, some 64] := by decide +kernel
theorem test_moves : (vAfter (.vmvx 0 1 .w16 1 3) (vs 0 0 (vec 16 [1, 2, 3, 4])) 3).map (lanesOf 16 4) = some [2, 0, 0, 4]
    ∧ xAfter (.vmvxv 0 .w32 1 9) (vs (vec 32 [0x80000000]) 0 0) 9 = some 0xFFFFFFFF80000000 := by decide +kernel
/-! ### Memory instructions (07) -/

/-- The own slice holds 0x80..0x8F from 0x100 on; x1 = 0x10100 is its address, x2 = 0x20100 one in the slice of core 1. -/
def memX (xs : List (Nat × Word)) : State :=
  { stX ([(1, 0x10100), (2, 0x20100), (3, 0x0123456789ABCDEF)] ++ xs) with
    mem := (List.range 16).map fun k => (0x100 + k, BitVec.ofNat 8 (0x80 + k)), descs := [(4, 0x1234)] }
def sm : State := memX []

noncomputable def memAfter (i : Instr) (s : State) (pa n : Nat) : Option Nat := (after (exec i s)).map fun t => memRead t.mem pa n
/-- The accesses and the requests that an instruction leaves. -/
noncomputable def sentAfter (i : Instr) (s : State) : Option (List AccDst × List Body) :=
  (after (exec i s)).map fun t => ((getSlot t 0 0).accs.map (·.dst), t.pairs.flatMap fun p => p.out.map (·.body))

theorem test_loads : [xAfter (.ldb .rlx 1 1 9) sm 9, xAfter (.ldbu .rlx 1 1 9) sm 9, xAfter (.ldh .rlx 2 1 9) sm 9,
    xAfter (.ldhu .acq 2 1 9) sm 9, xAfter (.ldw .rlx 4 1 9) sm 9, xAfter (.ldwu .rlx 4 1 9) sm 9, xAfter (.ldd .rlx 8 1 9) sm 9,
    xAfter (.ldtag .rlx 1 9) sm 9]
  = [some 0xFFFFFFFFFFFFFF81, some 0x81, some 0xFFFFFFFFFFFF8382, some 0x8382, some 0xFFFFFFFF87868584, some 0x87868584,
     some 0x8F8E8D8C8B8A8988, some 0x1234] := by decide +kernel
theorem test_stores : [memAfter (.stb .rlx 1 3 1) sm 0x100 8, memAfter (.sth .rlx 2 3 1) sm 0x100 8, memAfter (.stw .rel 4 3 1) sm 0x100 8,
    memAfter (.std .rlx 0 3 1) sm 0x100 8]
  = [some 0x878685848382EF80, some 0x87868584CDEF8180, some 0x89ABCDEF83828180, some 0x0123456789ABCDEF]
  ∧ ((after (exec (.sttag .rlx 3 1) sm)).map fun t => descOf t 0x13F) = some 0xCDEF := by decide +kernel
theorem test_misaligned_and_not_permitted : trapOf (.ldd .rlx 4 1 9) sm = some [(0x03, 0x10104)]
  ∧ trapOf (.ldb .rlx 0 9 9) (memX [(9, 0x200000000000000)]) = some [(0x04, 0x200000000000000)] := by decide +kernel
theorem test_remote_load : sentAfter (.ldw .rlx 4 2 9) sm = some ([.x 9 4 true], [.rd (.read 0x80104 4) 0 ⟨0, 0, 0, none⟩]) := by
  decide +kernel
theorem test_remote_store : sentAfter (.stb .rlx 1 3 2) sm
  = some ([.none], [.wr (.write 0x80101 0x0123456789ABCDEF 1) 0 ⟨0, 0, 0, none⟩]) := by decide +kernel

/-- Atomics on the word 0x83828180 with the operand 0xFFFFFFFF, and on the doubleword. -/
def sa : State := memX [(4, 0xFFFFFFFF), (5, 0xFFFFFFFF83828180), (6, 2)]
theorem test_atomics : [memAfter (.amoadd .rlx .core false 4 1 9) sa 0x100 8, memAfter (.amoand .rlx .core false 6 1 9) sa 0x100 8,
    memAfter (.amoor .rlx .core false 6 1 9) sa 0x100 8, memAfter (.amoxor .rlx .core false 4 1 9) sa 0x100 8,
    memAfter (.amomin .rlx .core false 6 1 9) sa 0x100 4, memAfter (.amomax .rlx .core false 6 1 9) sa 0x100 4,
    memAfter (.amominu .rlx .core false 6 1 9) sa 0x100 4, memAfter (.amomaxu .rlx .core false 6 1 9) sa 0x100 4,
    memAfter (.amoswap .rlx .core true 3 1 9) sa 0x100 8]
  = [some 0x878685848382817F, some 0x8786858400000000, some 0x8786858483828182, some 0x878685847C7D7E7F, some 0x83828180, some 2,
     some 2, some 0x83828180, some 0x0123456789ABCDEF]
  ∧ xAfter (.amoadd .rlx .core false 4 1 9) sa 9 = some 0xFFFFFFFF83828180 := by decide +kernel
theorem test_cas : [memAfter (.casFailRlx .rlx .core false 6 1 5) sa 0x100 4, memAfter (.casFailAcq .rlx .core false 6 1 4) sa 0x100 4,
    memAfter (.casFailSc .rel .core true 6 1 5) sa 0x100 4] = [some 2, some 0x83828180, some 0x83828180]
  ∧ xAfter (.casFailAcq .rlx .core false 6 1 4) sa 4 = some 0xFFFFFFFF83828180 := by decide +kernel
/-- An acquire load holds the next access; a fence over an outstanding load holds a store. -/
theorem test_gates : ((after (exec (.std .rlx 0 3 1) (st { (withX slot0 [(1, 0x10100)]) with accs := [⟨7, 1, true, false, true, 0, 0, .none⟩] }))).map
      fun t => (getSlot t 0 0).stall) = some (some .blocked)
  ∧ ((after (exec (.fence .domain .ls) (st { slot0 with accs := [⟨7, 1, true, false, false, 0, 0, .none⟩] }))).map
      fun t => (getSlot t 0 0).fences) = some [⟨.ls, [7]⟩] := by decide +kernel

def sv : State := let s := memX [(4, 4), (5, 0x10080)]
  { s with cores := s.cores.map fun k => core0 (withK (withV (k.slots[0]) [(1, vec 32 [3, 0, 1]), (2, vec 32 [9, 8, 7])]) [(1, 7)]) }
/-- A stride of 4 and the indices 3, 0, 1; the highest of two lanes at one address wins. -/
theorem test_vector_loads : [(vAfter (.vld .rlx 1 .w32 0 0 1 3) sv 3).map (lanesOf 32 4), (vAfter (.vlds .rlx 1 .w32 4 1 3) sv 3).map (lanesOf 32 3),
    (vAfter (.vldx .rlx 1 .w32 1 1 3) sv 3).map (lanesOf 32 3)]
  = [some [0x83828180, 0x87868584, 0x8B8A8988, 0], some [0x83828180, 0x87868584, 0x8B8A8988],
     some [0x8F8E8D8C, 0x83828180, 0x87868584]] := by decide +kernel
theorem test_vector_stores : [memAfter (.vst .rlx 1 .w32 0 0 1 2) sv 0x100 16, memAfter (.vsts .rlx 1 .w32 0 1 2) sv 0x100 8,
    memAfter (.vstx .rlx 1 .w32 1 1 2) sv 0x100 16]
  = [some 0x8F8E8D8C000000070000000800000009, some 0x8786858400000007, some 0x000000098B8A89880000000700000008] := by decide +kernel
/-- Rows 64 bytes apart: the bytes of row 2 land in lane 2 of each register. -/
theorem test_vldt : (vAfter (.vldt .rlx 0 .w64 6 5 8) (memX [(5, 0x10080), (6, 64)]) 9).map (lanesOf 64 3) = some [0, 0, 0x8F8E8D8C8B8A8988] := by
  decide +kernel
theorem test_parking : ((after (exec (.vpark 2 9 1) sv)).map fun t => ((landed t).getX 9, (landed t).parked,
      lanesOf 32 3 (rowValue (getCore t 0) 17))) = some (16, [16, 17], [9, 8, 7])
  ∧ (vAfter (.vunpark 3 1 3) (st { (withX slot0 [(1, 16)]) with parked := [16] }) 3) = some 0
  ∧ trapOf (.vunpark 4 1 3) (st { (withX slot0 [(1, 16)]) with parked := [16] }) = some [(0x04, 17)] := by decide +kernel
/-! ### The matrix unit (09) -/

/-- Core 0 with rows of the matrix unit and a slot. -/
def rowsX (rows : List (Nat × Vec)) (sl : Slot) : State :=
  let s := st sl
  { s with cores := [{ core0 sl with rows := rows }] }
/-- What the first operation of the slot's matrix unit leaves in a row. -/
noncomputable def matRow (kind : MatKind) (blocks : List (Nat × Vec × Desc)) (rows : List (Nat × Vec)) (r w n : Nat) : Option (List Nat) :=
  (after (exec (.evVariableLatencyWrite 0 0 0)
    (rowsX rows { slot0 with mats := [⟨1, 0, kind, blocks.length, blocks⟩] }))).map fun t => lanesOf w n (rowValue (getCore t 0) r)

theorem test_row_moves_queue : ((after (exec (.mzero 2 1) (stX [(1, 4), (2, 3)]))).map fun t => (getSlot t 0 0).mats.map (·.kind))
    = some [.mzero 4 3]
  ∧ ((after (exec (.mrdv 1 3) (stX [(1, 4)]))).map fun t => (getSlot t 0 0).mats.map (·.kind)) = some [.mrdv 3 4]
  ∧ ((after (exec (.mwrv 2 1) (stX [(1, 4)]))).map fun t => (getSlot t 0 0).mats.map (·.kind)) = some [.mwrv 4 0]
  ∧ trapOf (.mzero 2 1) (stX [(1, 14), (2, 3)]) = some [(0x04, 16)] := by decide +kernel
theorem test_row_moves_effect : matRow (.mzero 4 3) [] [(4, 7), (6, 7), (7, 7)] 6 32 1 = some [0]
  ∧ matRow (.mzero 4 3) [] [(4, 7), (6, 7), (7, 7)] 7 32 1 = some [7] ∧ matRow (.mwrv 4 9) [] [(4, 7)] 4 32 1 = some [9]
  ∧ ((after (exec (.evVariableLatencyWrite 0 0 0) (rowsX [(4, 7)] { slot0 with mats := [⟨1, 0, .mrdv 3 4, 0, []⟩] }))).map
      fun t => (getSlot t 0 0).getV 3) = some 7 := by decide +kernel
/-- One element: 2·3 + (−1)·4 onto 5 in INT8; 1.5·2 onto 1 in BF16; −1 and 2^31 − 1 saturate. -/
theorem test_mmac : matRow (.mmac 5 false 0x0000000100010000) [(0, vec 8 [2, 0xFF], 0), (1, vec 8 [3, 4], 0)] [(0, 5)] 0 32 2 = some [7, 0]
  ∧ matRow (.mmac 0 false 0x0000000100010000) [(0, vec 16 [0x3FC0], 0x20), (1, vec 16 [0x4000], 0x20)] [(0, 0x3F800000)] 0 32 2
      = some [0x40800000, 0]
  ∧ matRow (.mmac 5 true 0x0000000100010000) [(0, vec 8 [1], 0), (1, vec 8 [1], 0)] [(0, 0x7FFFFFFF)] 0 32 1 = some [0x7FFFFFFF]
  ∧ matRow (.mmac 5 false 0x0000000100010000) [(0, vec 8 [1], 0), (1, vec 8 [1], 0)] [(0, 0x7FFFFFFF)] 0 32 1 = some [0x80000000] := by
  decide +kernel
theorem test_mbin : matRow (.mbin false false 0x0000000100010000) [(0, 0xFF, 0), (1, 0xF, 0)] [(0, 2)] 0 32 1 = some [6]
  ∧ matRow (.mbin true false 0x0000000100010000) [(0, 0xFF, 0), (1, 0xF, 0)] [(0, 2)] 0 32 1 = some [6] := by decide +kernel
theorem test_mload : matRow (.mload 0 2 0x0000000200010000) [(0, vec 16 [0x3FC0, 0x4000, 0x4040], 0x20)] [(0, vec 32 [1, 2, 3])] 0 32 3
    = some [0x3FC00000, 0x40000000, 3] := by decide +kernel
/-- The example of 09 R210: 1.1 and 2^24 + 2 as BF16, descriptor 0x0020. -/
theorem test_mstore : ((after (exec (.mstore .rlx 0 2 2 1) (rowsX [(0, vec 32 [0x3F8CCCCD, 0x4B800001, 9])]
      (withX slot0 [(1, 0x10100), (2, 0x0000000200010000)])))).map fun t => (memRead t.mem 0x100 64, descOf t 0x100))
    = some (0x4B803F8D, 0x20) := by decide +kernel
/-- The example of 09 R205 with rows that the actor does not own; a tile word with M = 0; MMAC and MBIN that issue. -/
theorem test_tile_words : trapOf (.mload .rlx 0 0 2 1) (stX [(1, 0x10100), (2, 0x0001001400020040)]) = some [(0x04, 64)]
  ∧ trapOf (.mmac 0 false 2 1 3) (stX [(1, 0x10100), (2, 0x10100), (3, 0x100000000)]) = some [(0x0A, 0x100000000)]
  ∧ ((after (exec (.mbin true true 2 1 3) (stX [(1, 0x10100), (2, 0x10140), (3, 0x0000000100010000)]))).map fun t =>
      (getSlot t 0 0).mats.map fun m => (m.kind, m.need, m.blocks.map (·.1))) = some [(.mbin true true 0x0000000100010000, 2, [0, 1])]
  ∧ ((after (exec (.mmac 0 false 2 1 3) (stX [(1, 0x10100), (2, 0x20100), (3, 0x0000000100010000)]))).map fun t =>
      ((getSlot t 0 0).mats.map fun m => (m.need, m.blocks.map (·.1)), (getSlot t 0 0).accs.map (·.dst)))
      = some ([(2, [0])], [.mat 0 1]) := by decide +kernel
/-- Cores 10 and 17 are mirrors; core 0 is its own. -/
theorem test_mirrors : mirrorCore 10 = 17 ∧ mirrorCore 17 = 10 ∧ xAfter (.mswap 2 1 9) (stX [(1, 0x10100), (2, 64), (9, 5)]) 9 = some 0
  ∧ trapOf (.mswap 2 1 9) (stX [(1, 0x10101), (2, 64)]) = some [(0x03, 0x10101)] := by decide +kernel
/-- Cores 10 and 17 swap 64 bytes: each slice takes the other's, and both complete with 0. -/
theorem test_mswap_pair :
  let w (rd off : Nat) : Slot := { slot0 with status := .mswap 1 rd 64 [(off, 64)] ((List.range 64).map fun k => BitVec.ofNat 8 (rd + k)) [1] }
  let s := { st slot0 with cores := [core0 slot0, { core0 (w 3 (10 * 0x80000)) with id := 10 }, { core0 (w 4 (17 * 0x80000)) with id := 17 }] }
  ((after (exec (.evMswapPair 10 1) s)).map fun t =>
    (memRead t.mem (17 * 0x80000) 2, memRead t.mem (10 * 0x80000) 2, (getSlot t 10 0).getX 3, (getSlot t 10 0).status))
  = some (0x0403, 0x0504, 0, .running) := by decide +kernel

/-! ### Copy and quadtree jobs (07, 09) -/

/-- n bytes of a value from an address on. -/
def bytesAt (pa n v : Nat) : List Host.Cell :=
  (List.range n).filterMap fun k => if v / 256 ^ k % 256 = 0 then none else some (pa + k, BitVec.ofNat 8 (v / 256 ^ k))
/-- A job card at 0x10200: two elements of 4 bytes from 0x10100 to 0x10140, tag 3. -/
def cpyCard : Nat := 0x10100 + 0x10140 * 2 ^ 64 + (2 + 2 ^ 16 + 2 ^ 32 + 2 ^ 48) * 2 ^ 128 + 4 * 2 ^ 192 + 4 * 2 ^ 320 + 2 * 2 ^ 448 + 3 * 2 ^ 472
/-- A gather of the entries 2, −1, 7 at 0x10300 from a table of four rows at 0x10100; fill 0x55. -/
def gathCard : Nat := 0x10100 + 0x10140 * 2 ^ 64 + (1 + 2 ^ 16 + 2 ^ 32 + 2 ^ 48) * 2 ^ 128 + 4 * 2 ^ 224 + 4 * 2 ^ 352 + 2 * 2 ^ 448
  + 3 * 2 ^ 472 + 0x10300 * 2 ^ 576 + 3 * 2 ^ 640 + 4 * 2 ^ 672
/-- A fill pattern, which SCAT refuses. -/
def withFill (card : Nat) : Nat := card + 2 ^ 704
def cardState (card : Nat) : State := { stX [(1, 0x10200)] with mem := bytesAt 0x200 128 card }
noncomputable def jobsAfter (i : Instr) (s : State) : Option (List (CopyKind × Nat × List Nat × Nat)) :=
  (after (exec i s)).map fun t => t.copies.map fun j => (j.kind, j.card.esz, j.card.cnt, j.card.nidx)

theorem test_cpy : jobsAfter (.cpy 1) (cardState cpyCard) = some [(.cpy, 2, [2, 1, 1, 1], 0)]
  ∧ ((after (exec (.cpy 1) (cardState cpyCard))).map fun t => (getResident t 0 1).busy) = some 8
  ∧ trapOf (.cpy 1) (cardState (cpyCard + 2 ^ 192)) = some [(0x0A, 0x10200)] := by decide +kernel
theorem test_gath : jobsAfter (.gath 1) (cardState gathCard) = some [(.gath, 2, [1, 1, 1, 1], 3)] := by decide +kernel
theorem test_scat : jobsAfter (.scat 1) (cardState gathCard) = some [(.scat, 2, [1, 1, 1, 1], 3)] := by decide +kernel
theorem test_scat_fill : trapOf (.scat 1) (cardState (withFill gathCard)) = some [(0x0A, 0x10200)] := by decide +kernel

/-- A copy job that runs: element 0 is read, then written. -/
def copyState (vals : List (Nat × Vec × Desc)) (ahead : List Nat) (front : Nat) : State := { stX [] with
  mem := bytesAt 0x100 8 0x4444444433333333
  copies := [⟨5, .cpy, 0, 1, 1, 0x10200, ⟨0, 0, 0, 0, 0, false, 2, [4, 0, 0, 0], [4, 0, 0, 0], [2, 1, 1, 1], 0x10140, 0x10100⟩,
    .tag 3, true, none, none, [], vals, front, ahead⟩] }
/-- The element accesses under way from the engine of cluster 0, its node 0x2000, to core 0 (13 R329). -/
def jobState (b : Body) : State :=
  { copyState [] [] 0 with pairs := [{ Pair.reset 0x2000 0 with net := [{ newPacket 0 0 1 b with seq := 0 }] }] }
theorem test_jrd_jwr : ((after (exec (.evJrd 5 0) (jobState (.jrd 5 0 (.read 0x100 4) 0)))).map fun t =>
      (getPair t 0 0x2000).out.map (·.body)) = some [.jrdr 5 0 ⟨0x33333333, 0, 0, false⟩]
  ∧ memAfter (.evJwr 5 0) (jobState (.jwr 5 0 0 (.write 0x140 0x33333333 0xF) 0)) 0x140 4 = some 0x33333333
  ∧ (landRead (copyState [] [] 0) 5 0 ⟨0x33333333, 0, 0, false⟩).copies.map (·.vals) = [[(0, 0x33333333, 0)]]
  ∧ ((after (exec (.evJobComplete 5) (copyState [] [] 2))).map fun t => (t.copies, (getResident t 0 1).tagdone)) = some ([], 8)
  ∧ after (exec (.evJobComplete 5) (copyState [] [] 1)) = none := by decide +kernel
theorem test_job_start : ((after (exec (.evJobStart 5) { copyState [] [] 0 with
    copies := (copyState [] [] 0).copies.map fun j => { j with started := false } })).map fun t => t.copies.map (·.started))
  = some [true] := by decide +kernel
def tagState (busy done : BitVec 64) : State :=
  let s := st (withX slot0 [(1, 8), (2, 3)])
  { s with cores := s.cores.map fun k => { k with residents := [⟨1, done, busy, 0, [], []⟩] } }
theorem test_tags : [xAfter (.ftag 2 9) (tagState 8 10) 9, xAfter (.wtagany 2 9) (tagState 1 10) 9, xAfter (.wtagall 1 9) (tagState 1 10) 9]
  = [some 2, some 2, some 8]
  ∧ ((after (exec (.ftag 2 9) (tagState 8 10))).map fun t => (getResident t 0 1).tagdone) = some 8
  ∧ ((after (exec (.wtagall 2 9) (tagState 1 10))).map fun t => (getSlot t 0 0).stall.isSome) = some true := by decide +kernel
/-- The tables of the walk that 11 R266 works out, and leaves for the pages of the small states. -/
def tables : List Host.Cell :=
  bytesAt 0x010000000000 8 0x0000010000001001 ++ bytesAt 0x010000001000 8 0x0000010000002001 ++ bytesAt 0x010000001010 8 0x0000010000002001
  ++ bytesAt 0x010000002000 8 0x0000010000003001 ++ bytesAt 0x010000002468 8 0x0000010000003001
  ++ bytesAt 0x010000003000 8 0x0000010000004001 ++ bytesAt 0x010000003158 8 0x0000010000004001
  ++ bytesAt 0x010000004020 8 0x0F ++ bytesAt 0x0100000040F0 8 0x000000000028C00F
def tableContext : Context := { context1 with root := 0x010000000000 }
/-- A slot over these tables, with bytes of the own slice. -/
def withTables (sl : Slot) (sram : List Host.Cell) : State := { st sl with mem := sram ++ tables, contexts := [tableContext] }

def walkGives (s : State) (va : Word) : Option (Nat × Nat × Bool × Bool) :=
  match walkAsid s 1 va with
  | .leaf t => some (t.pa + va.toNat % t.size, t.size, t.w, t.x)
  | _ => none
/-- The walk of 11 R266, its permission, and an address without an entry. -/
theorem test_walk : walkGives (withTables slot0 []) 0x0000012345678 = none
  ∧ walkGives (withTables slot0 []) 0x00000123456789C0 = some (0x28C9C0, 2 ^ 14, true, false) := by decide +kernel

/-- A product of two identities of dimension 2, α 2.0 each; card at 0x10480 with tag 3. -/
def identRecord : Nat := 1 + 1 * 2 ^ 16 + 0x40000000 * 2 ^ 192
def qCardBits : Nat := 0x10800 * 2 ^ 256 + 0x10900 * 2 ^ 320 + 0x10800 * 2 ^ 384 + 0x10A00 * 2 ^ 448 + 0x10B00 * 2 ^ 512
  + 0x10A00 * 2 ^ 576 + 0x10C00 * 2 ^ 640 + 0x3F800000 * 2 ^ 768 + 1 * 2 ^ 840 + 3 * 2 ^ 864
def qState (sl : Slot) : State :=
  withTables (withX sl [(4, 0x10400), (5, 0x10480), (6, 0x10420), (7, 0x10440)])
    (bytesAt 0x420 32 identRecord ++ bytesAt 0x440 32 identRecord ++ bytesAt 0x480 128 qCardBits)
theorem test_qmul : ((after (exec (.qmul 7 6 4) (qState slot0))).map fun t =>
    (t.qjobs.map fun j => (j.mul, j.state, j.croot, j.recA.toNat == identRecord), memRead t.mem 0x4F4 1, (getSlot t 0 0).pc))
  = some ([(true, 1, 0x10400, true)], 1, 0x10004) := by decide +kernel
theorem test_qadd_misaligned : trapOf (.qadd 7 6 4) (st (withX slot0 [(4, 0x10410), (5, 0x10480), (6, 0x10420), (7, 0x10440)]))
  = some [(0x03, 0x10410)] := by decide +kernel
/-- The job once its one leaf task runs in slot 1. -/
def qJob : QJob := { newQJob (qState slot0) true 0 slot0 0x10480 0x10400 0x10420 0x10440 qCardBits with
  id := 5, recA := BitVec.ofNat 256 identRecord, recB := BitVec.ofNat 256 identRecord, started := true, leaves := [([], 0)] }
def qRun (j : QJob) : State :=
  let s := qState slot0
  { s with qjobs := [j], cores := s.cores.map fun k =>
      { k with slots := k.slots.set 1 { slot0 with status := .leaf 5 [] }, residents := [⟨1, 0, if j.state = 1 then 8 else 0, 0, [], []⟩] } }
/-- α 2.0 · 2.0 = 4.0: the root record that leaves for 0x400 is an identity with COMMIT = 1, FMT 1 and LG 1; the node is committed
when it has landed. -/
theorem test_leafCommit : ((after (exec (.evLeafCommit 5 []) (qRun qJob))).map fun t =>
    ((getPair t 0x2000 0).out.map fun k => match k.body with
        | .jwr 5 n 0 (.write pa v m) _ => [n, pa, v.toNat % 2 ^ 32, v.toNat / 2 ^ 192, m.toNat]
        | _ => [], (getSlot t 0 1).status))
      = some ([[4 * 0x10400 + 1, 0x400, 0x01010101, 0x40800000, 2 ^ 32 - 1]], .free) := by
  decide +kernel
theorem test_leafLands : ((after (exec (.evLeafCommit 5 []) (qRun qJob))).map fun t =>
    ((landRecord t 5 (4 * 0x10400 + 1)).qjobs.map fun j => (j.committed, j.nleaves))) = some [([[]], 1)] := by
  decide +kernel
theorem test_qcontrol : [xAfter (.qstat 5 9) (qRun qJob) 9, xAfter (.qcancel 5 9) (qRun qJob) 9, xAfter (.qpool false 6 5 9) (qRun qJob) 9,
    xAfter (.qcancel 6 9) (qRun qJob) 9] = [some 1, some 0, some 2, some 1]
  ∧ trapOf (.qresume 5) (qRun qJob) = some [(0x0A, 0x10480)] := by decide +kernel
theorem test_qresume : ((after (exec (.qresume 5) (qRun { qJob with state := 3, scause := 1, leaves := [] }))).map fun t =>
    (t.qjobs.map (·.state), t.reports)) = some ([1], []) := by decide +kernel
theorem test_jobSuspend : ((after (exec (.evJobSuspend 5) (qRun { qJob with suspend := 1, leaves := [] }))).map fun t =>
    t.qjobs.map fun j => (j.state, j.scause)) = some [(3, 1)] := by decide +kernel

/-! ### Messages, groups, actors, tasks and egress (08) -/

/-- Core 0 with actor 1 in slot 0, and two messages in its channel 0. -/
def msg (w : Vec) : Msg := ⟨0, [w], 0x77, 1, 0, 0, false⟩
def launchQ (q : List Msg) : Launch := { launch1 with actors := [{ actor1 with
  chans := [⟨0, 4, false, 4, true, true, 2, q, none, 0⟩, ⟨1, 8, true, 2, true, true, 3, [], none, 0⟩] }] }
/-- The directory of core 0 knows actor 1. -/
def stD (sl : Slot) : State :=
  let s := st sl
  { s with cores := s.cores.map fun k => { k with dir := [⟨1, 1, 0⟩] } }
def stDX (xs : List (Nat × Word)) (vs : List (Nat × Vec)) : State := stD (withV (withX slot0 xs) vs)
noncomputable def sendsAfter (i : Instr) (s : State) : Option (List SendEntry) := (after (exec i s)).map fun t => (getSlot t 0 0).sends

/-- Channel 0 of actor 1, whose messages have four words; class 3. -/
theorem test_send : sendsAfter (.send 3 3 4 1) (stDX [(1, 1)] [(4, 7), (5, 8)]) = some [.send 1 0 3 [7, 8, 0, 0]]
  ∧ ((after (exec (.send 3 3 4 1) (stX [(1, 1)]))).map fun t => (getSlot t 0 0).status) = some (.lookup 1)
  ∧ trapOf (.send 0 0 4 1) (stDX [(1, 1)] []) = some [(0x07, 1)] := by decide +kernel
theorem test_sendx : sendsAfter (.sendx 3 3 4 1) { stDX [(1, 1), (4, 0x10100)] [] with mem := [(0x100, 9)] } = some [.send 1 0 3 [9, 0, 0, 0]] := by
  decide +kernel
theorem test_sendr : sendsAfter (.sendr 2 4 1) (stDX [(1, 0x10140)] [(4, 7), (5, 8)]) = some [.red 0x10140 0x140 0 2 7 8] := by decide +kernel
/-- A group operand: home core 5 of module 0, group 0. -/
theorem test_gsend : sendsAfter (.gsend 0 1 4 1) (stDX [(1, 5)] [(4, 7)]) = some [.gsend 5 1 [7]] := by decide +kernel

noncomputable def chanAfter (i : Instr) (s : State) : Option (List (BitVec 32 × Bool × Bool × Nat)) :=
  (after (exec i s)).map fun t => t.launches.flatMap fun l => l.actors.flatMap fun a => a.chans.map fun c => (c.offset, c.bound, c.en, c.prio)
/-- Channel 0: unbound; then OFFSET 4, not bound, EN 1, priority 5. -/
theorem test_handlers : chanAfter (.htclr 1) (stX [(1, 0)]) = some [(0, false, true, 2), (8, true, true, 3)]
  ∧ chanAfter (.htset 2 1) (stX [(1, 0), (2, 4 * 2 ^ 32 + 2 ^ 8 + 5)]) = some [(4, false, true, 5), (8, true, true, 3)]
  ∧ xAfter (.htget 1 9) (stWith (launchQ [msg 1]) (withX slot0 [(1, 0)])) 9 = some 0x0000000400030D02
  ∧ trapOf (.htget 1 9) (stX [(1, 2)]) = some [(0x07, 2)] := by decide +kernel
theorem test_class_masks : ((after (exec (.chmsk 1 9) (stX [(1, 5)]))).map fun t => (getResident t 0 1).cmask) = some 5
  ∧ ((after (exec (.chunm 1 9) (stX [(1, 5)]))).map fun t => (getResident t 0 1).cmask) = some 0
  ∧ trapOf (.chmsk 1 9) (stX [(1, 128)]) = some [(0x07, 128)] := by decide +kernel
theorem test_peek_drop : let s := st { (withX slot0 [(1, 16)]) with held := [⟨0, ⟨0, [7, 8], 0, 0, 0, 0, false⟩, 0, true⟩] }
  vAfter (.mpeek 1 3) s 3 = some 8 ∧ sendsAfter (.mdrop 0) s = some [.mdrop 0]
  ∧ trapOf (.mpeek 1 3) (stX [(1, 48)]) = some [(0x07, 48)] := by decide +kernel

/-- Core 5 with actor 1 in slot 0, and group 5, whose home it is, with its members. -/
def grouped (ms : List Nat) (sl : Slot) : State :=
  let s := stWith { launch1 with actors := [{ actor1 with core := 5 }] } sl
  { s with curCore := 5, cores := [{ core0 sl with id := 5, groups := if ms = [] then [] else [⟨1, 5, ms, 0, none, []⟩] }] }
noncomputable def x5 (i : Instr) (s : State) (n : Nat) : Option Word := (after (exec i s)).map fun t => (landed t).getX n
noncomputable def sends5 (i : Instr) (s : State) : Option (List SendEntry) := (after (exec i s)).map fun t => (getSlot t 5 0).sends
theorem test_join_leave : let sl := withX slot0 [(1, 5)]
  x5 (.join 1 9) (grouped [] sl) 9 = some 1 ∧ x5 (.join 1 9) (grouped [2] sl) 9 = some 2 ∧ x5 (.leave 1 9) (grouped [1, 2] sl) 9 = some 1
  ∧ trapOf (.join 1 9) (grouped [1] sl) = some [(0x10, 5)] ∧ trapOf (.join 1 9) (stX [(1, 0)]) = some [(0x10, 0)] := by decide +kernel
theorem test_collectives : let s := grouped [1] (withV (withX slot0 [(1, 5), (2, 0x10000005)]) [(4, 7)])
  sends5 (.gbar 1) s = some [.coll .gbar 5 0] ∧ sends5 (.xred 4 2) s = some [.coll (.xred 1) 0x10000005 7]
  ∧ sends5 (.xbcast 4 1) s = some [.coll .xbcast 5 7] ∧ trapOf (.gbar 1) (grouped [2] (withX slot0 [(1, 5)])) = some [(0x10, 5)] := by
  decide +kernel
/-- A JOIN with its home on core 5 leaves core 0 as a request. -/
theorem test_join_remote : sentAfter (.join 1 9) (stX [(1, 5)]) = some ([.member 9 5], [.grp 1 5 (.join 1) (some ⟨0, 0, 0, none⟩)]) := by
  decide +kernel
theorem test_actend : ((after (exec .actend (st slot0))).map fun t => (getSlot t 0 0).actend) = some true := by decide +kernel
theorem test_actnew_remote : sentAfter (.actnew 1 9) (stX [(1, 0x20100)]) = some ([.actnew 9], [.rd (.read 0x80100 64) 0 ⟨0, 0, 0, none⟩]) := by
  decide +kernel
theorem test_actnew_bad_record : trapOf (.actnew 1 9) (stX [(1, 0x10101)]) = some [(0x03, 0x10101)] := by decide +kernel

/-- Tasks of two words; a push to the core's queue, a close of the die's queue, and a malformed operand. -/
theorem test_qpush : sendsAfter (.qpush 4 0) (stV [] [(4, 7), (5, 8)]) = some [.qpush 0 0 false [7, 8]]
  ∧ sendsAfter (.qpush 4 1) (stX [(1, 0x102)]) = some [.qpush 0x102 2 true []]
  ∧ trapOf (.qpush 4 1) (stX [(1, 3)]) = some [(0x0E, 3)] := by decide +kernel
def tasksState (ts : List Task) (sl : Slot) : State :=
  let s := st sl
  { s with cores := s.cores.map fun k => { k with residents := [⟨1, 0, 0, 0, ts, []⟩] } }
theorem test_qpop : let s := tasksState [⟨[7, 8], 0, 0, 0, 0, false⟩] (withX slot0 [(9, 5)])
  vAfter (.qpop 4 9) s 5 = some 8 ∧ xAfter (.qpop 4 9) s 9 = some 0
  ∧ ((after (exec (.qpop 4 9) s)).map fun t => (getResident t 0 1).tasks) = some []
  ∧ xAfter (.qpop 4 9) (tasksState [] slot0) 9 = some 1 ∧ trapOf (.qpop 31 9) s = some [(0x0E, 2)] := by decide +kernel
/-- A block in state 2 with no successors; TARM of an idle block with count 3, then with count 0. -/
theorem test_tasks : sendsAfter (.tdone 1) { stX [(1, 0x10100)] with mem := [(0x105, 2)] } = some [.tdone 0x10100]
  ∧ ((after (exec (.tarm 2 1) (stX [(1, 0x10100), (2, 3)]))).map fun t => (memRead t.mem 0x100 8, memRead t.mem 0x110 8)) = some (0x0000010000000003, 0x10100)
  ∧ sendsAfter (.tarm 0 1) (stX [(1, 0x10100)]) = some [.tarmRelease 0x10100]
  ∧ trapOf (.tdone 1) (stX [(1, 0x10100)]) = some [(0x0E, 0x10100)] := by decide +kernel
def egState (sl : Slot) : State := { st sl with egress := [⟨3, 1, 0, 0, [], [], [], 0⟩] }
theorem test_egress : sendsAfter (.egpost 4 1) (egState (withV (withX slot0 [(1, 3)]) [(4, 7)])) = some [.egr .post 3 7]
  ∧ sendsAfter (.egrel 1) (egState (withX slot0 [(1, 3)])) = some [.egr .rel 3 0]
  ∧ sendsAfter (.egdrop 1) (egState (withX slot0 [(1, 3)])) = some [.egr .drop 3 0]
  ∧ trapOf (.egrel 1) (egState (withX slot0 [(1, 4)])) = some [(0x0F, 4)] := by decide +kernel

/-! ### Traps, dispatch and commit (12, 14) -/

/-- A trap during a step takes the slot away and reports cause, ORIGIN 0, tval, epc, msgid, actor, core and slot. -/
theorem test_trap : ((after (exec (.jalr 0 2 9) (stX [(2, 3)]))).map fun t => (t.reports, (getSlot t 0 0).status))
  = some ([⟨1, 0x03, 0, 3, 0x10000, 0, 1, 0, 0, 0, 0⟩], .free) := by decide +kernel
/-- DISPATCH of a message of class 0, msgid 0x77, on channel 0: TB + 4·4, x2, x3 and x5 to x7. -/
theorem test_dispatch : ((after (exec (.evDispatch 0 1) { stWith (launchQ [msg 9]) Slot.reset with curCore := 0 })).map fun t =>
    let sl := getSlot t 0 1
    (sl.pc, [2, 3, 5, 6, 7].map sl.getX, sl.msgid, sl.held.map (·.chan)))
  = some (0x10010, [0x12040, 0x12000, 0, 1, 0x77], 0x77, [0]) := by decide +kernel
/-- HEND with nothing outstanding ends: the message sent enters the queue of the pair, msgid made of core and SEQ. -/
theorem test_commit : ((after (exec (.evCommit 0 0) { stD { slot0 with status := .hend, sends := [.send 1 0 3 [7]] } with curCore := 0 })).map fun t =>
    ((getCore t 0).seq, (getSlot t 0 0).sends)) = some (1, []) := by decide +kernel
theorem test_budget : ((after (exec (.evBudget 0 0) (st { slot0 with budget := 0 }))).map fun t => t.reports.map fun r => (r.cause, r.epc))
  = some [(0x05, 0x10000)] := by decide +kernel
theorem test_sequence : ((after (exec (.evSequence 0 0) (st { slot0 with status := .token ⟨.core, 0⟩ }))).map fun t =>
    ((getSlot t 0 0).status, (getSlot t 0 0).token, t.tokens)) = some (.running, some ⟨.core, 0⟩, [⟨.core, 0⟩]) := by decide +kernel
theorem test_ecall : let s := st { slot0 with status := .ecall }
  ((after (exec (.evEcallResume 0 0 7 8) s)).map fun t => ((getSlot t 0 0).getX 5, (getSlot t 0 0).getX 6, (getSlot t 0 0).status)) = some (7, 8, .running)
  ∧ ((after (exec (.evEcallRefuse 0 0) s)).map fun t => (t.reports.map (·.cause), (getSlot t 0 0).status)) = some ([0x0B], .free) := by
  decide +kernel
theorem test_illegal : ((after (exec (.evIllegal 0xFFFFFFFF) (st slot0))).map fun t => t.reports.map fun r => (r.cause, r.tval, r.epc))
    = some [(0x01, 0xFFFFFFFF, 0x10000)]
  ∧ trapOf .evFetchOutsideText (st { slot0 with pc := 0x20000 }) = some [(0x04, 0x20000)] := by decide +kernel
theorem test_directory : ((after (exec (.evDirectoryLookup 0 0) (st { slot0 with status := .lookup 1 }))).map fun t =>
    ((getSlot t 0 0).status, cachedNode t 0 1 1)) = some (.running, some 0) := by decide +kernel
theorem test_walk_request : ((after (exec (.evWalkRequest 0 0) (st { slot0 with status := .walk 0x40000 .read false }))).map fun t =>
    ((getDie t 0).walks.map fun w => (w.asid, w.granule, w.clusters))) = some [(1, 16, [0])] := by decide +kernel
/-- The walk of 11 R266 fills the cache; the slot goes on. -/
theorem test_walk_event : ((after (exec (.evWalk 0 0) { withTables { slot0 with status := .walk 0x123456789C0 .read true } [] with
    dies := [{ Die.reset 0 with walks := [⟨1, 0x123456789C0 / 2 ^ 14, 0x123456789C0, .read, [0], false, none⟩] }] })).map fun t =>
  ((getSlot t 0 0).status, (translate t 0 1 0x123456789C0 .write matches .ok 0x28C9C0 0), (getDie t 0).walks)) = some (.running, true, []) := by
  decide +kernel
/-! ### The fabric (13) -/

/-- A pair from core 1 to core 0 with packets under way. -/
def pairState (p : Pair) : State := { st slot0 with pairs := [p], netClock := 1000 }
def p10 : Pair := Pair.reset 1 0
def pkt (seq : Nat) (b : Body) : Packet := { newPacket 0 0 1 b with seq := seq }
def wr (seq : Nat) (v : Vec) : Packet := pkt seq (.wr (.write 0x100 v 1) 0 ⟨1, 0, 9, none⟩)
noncomputable def pairAfter {α : Type} (f : Pair → α) (i : Instr) (p : Pair) : Option α := (after (exec i (pairState p))).map fun t => f (getPair t 1 0)

/-- A write at the expected position performs and its answer is queued; one after a gap waits; one outside the window of 32 is
acknowledged; a duplicate is dropped. -/
theorem test_wr : memAfter (.evWr 1 0 0) (pairState { p10 with net := [wr 0 0x55] }) 0x100 1 = some 0x55
  ∧ ((after (exec (.evWr 1 0 0) (pairState { p10 with net := [wr 0 0x55] }))).map fun t => (getPair t 0 1).out.map (·.body))
      = some [.wra ⟨1, 0, 9, none⟩ ⟨0, 0, 0, false⟩]
  ∧ pairAfter (fun p => (p.expected, p.window.map (·.seq))) (.evWr 1 0 1) { p10 with net := [wr 1 0x55] } = some (0, [1])
  ∧ pairAfter (fun p => (p.expected, p.window.map (·.seq), p.ctl)) (.evWr 1 0 40) { p10 with net := [wr 40 0x55] } = some (0, [], [.ack 65535]) := by
  decide +kernel
theorem test_rd_amo : ((after (exec (.evRd 1 0 0) { pairState { p10 with net := [pkt 0 (.rd (.read 0x100 1) 0 ⟨1, 0, 9, none⟩)] } with mem := [(0x100, 7)] })).map
      fun t => (getPair t 0 1).out.map (·.body)) = some [.rdr ⟨1, 0, 9, none⟩ ⟨7, 0, 0, false⟩]
  ∧ memAfter (.evAmo 1 0 0) { pairState { p10 with net := [pkt 0 (.amo (.rmw 0x100 4 .add 5) 0 ⟨1, 0, 9, none⟩)] } with mem := [(0x100, 7)] } 0x100 4 = some 12 := by
  decide +kernel
/-- Responses: a load's value lands in x9; a store's access is over. -/
def accState (dst : AccDst) (b : Body) : State :=
  { pairState { p10 with net := [pkt 0 b] } with
    cores := [core0 { slot0 with accs := [⟨9, 1, true, false, false, 0x20100, 0x10000, dst⟩] }] }
theorem test_responses : let done (i : Instr) (s : State) := (after (exec i s)).map fun t => ((getSlot t 0 0).getX 9, (getSlot t 0 0).accs)
  done (.evRdr 1 0 0) (accState (.x 9 4 true) (.rdr ⟨0, 0, 9, none⟩ ⟨0x80000000, 0, 0, false⟩)) = some (0xFFFFFFFF80000000, [])
  ∧ done (.evWra 1 0 0) (accState .none (.wra ⟨0, 0, 9, none⟩ ⟨0, 0, 0, false⟩)) = some (0, [])
  ∧ done (.evAmor 1 0 0) (accState (.x 9 8 true) (.amor ⟨0, 0, 9, none⟩ ⟨3, 0, 0, false⟩)) = some (3, []) := by decide +kernel
theorem test_msg_grp_tsk : ((after (exec (.evMsg 1 0 0) (pairState { p10 with net := [pkt 0 (.msg 1 1 0 ⟨0, [1, 2, 3, 4], 7, 0, 0, 0, false⟩)] }))).map fun t =>
      t.launches.flatMap fun l => l.actors.flatMap fun a => a.chans.map fun c => c.queue.map (·.msgid)) = some [[7], []]
  ∧ ((after (exec (.evGrp 1 0 0) { grouped [2] slot0 with pairs := [{ Pair.reset 1 5 with net := [pkt 0 (.grp 1 5 (.join 1) (some ⟨1, 0, 9, none⟩))] }] })) = none)
  ∧ ((after (exec (.evGrp 1 5 0) { grouped [2] slot0 with pairs := [{ Pair.reset 1 5 with net := [pkt 0 (.grp 1 5 (.join 1) (some ⟨1, 0, 9, none⟩))] }] })).map
      fun t => (getCore t 5).groups.map (·.members)) = some [[2, 1]] := by decide +kernel
/-- A task reaches the cluster queue of cluster 0 (unit 2 of the die service node). -/
theorem test_tsk : ((after (exec (.evTsk 1 (clusterQueueNode 0 0) 0) { st slot0 with pairs := [{ Pair.reset 1 (clusterQueueNode 0 0) with
    net := [pkt 0 (.tsk 1 1 ⟨[7, 8], 1, 0, 0, 0, false⟩ ⟨1, 0x0E, 0, 0, 0, 0, 1, 1, 0, 0, 0⟩)] }] })).map fun t => (tasksOf (getCluster t 0).tasks 1).map (·.words))
  = some [[7, 8]] := by decide +kernel
/-- A reduction cell: payload 0 of R101 adds into the cell; an egress post joins the queue's streams. -/
theorem test_red : (after (exec (.evRed 1 0 0) (pairState { p10 with net := [pkt 0 (.red 1 0x140 0 0 0 ⟨1, 0x04, 0, 0, 0, 0, 0, 1, 0, 0, 0⟩)] }))).isSome = true := by decide +kernel
theorem test_egr : ((after (exec (.evEgr 1 (egressNode 0) 0) { egState slot0 with pairs := [{ Pair.reset 1 (egressNode 0) with
    net := [pkt 0 (.egr 1 1 3 .post 3 (vec 32 [5, 1]))] }] })).map fun t => (getPair t 1 (egressNode 0)).expected) = some 1 := by decide +kernel
theorem test_transmit : pairAfter (fun p => (p.out.length, p.net.map (·.seq), p.next, p.store.length)) (.evTransmit 1 0) { p10 with out := [wr 0 1], next := 65535 }
  = some (0, [65535], 0, 1) := by decide +kernel
theorem test_control : let s3 : List Sent := [⟨wr 7 1, 0, 0⟩, ⟨wr 8 1, 0, 0⟩]
  pairAfter (fun p => p.store.map (·.pkt.seq)) (.evAck 1 0) { p10 with ctl := [.ack 7], store := s3 } = some [8]
  ∧ pairAfter (fun p => (p.net.map (·.seq), p.store.map (·.resends))) (.evYoyo 1 0) { p10 with ctl := [.yoyo 8], store := s3 } = some ([8], [0, 1])
  ∧ pairAfter (fun p => (p.backoff.map (·.1), p.shift)) (.evDefr 1 0) { p10 with ctl := [.defr 8 0], store := s3 } = some ([8], 1)
  ∧ pairAfter (fun p => (p.net.map (·.seq), p.backoff)) (.evBackoffExpiry 1 0) { p10 with backoff := [(8, 999, 0)], store := s3 } = some ([8], []) := by
  decide +kernel
/-- RTO 64 is 65,536 cycles; the acknowledgement timer is 64. -/
theorem test_timers : pairAfter (fun p => p.net.length) (.evRto 1 0) { p10 with store := [⟨wr 7 1, 0, 0⟩] } = none
  ∧ ((after (exec (.evRto 1 0) { pairState { p10 with store := [⟨wr 7 1, 0, 0⟩] } with netClock := 65536 })).map fun t => (getPair t 1 0).net.length) = some 1
  ∧ pairAfter (fun p => p.ctl) (.evAckTimer 1 0) { p10 with oldest := some 936 } = some [.ack 65535]
  ∧ pairAfter (fun p => p.ctl) (.evAckTimer 1 0) { p10 with oldest := some 937 } = none := by decide +kernel
/-- A packet cut at its destination's switch travels on as its header in class 7, TRIM set; its arrival leaves a hole that holds it. -/
theorem test_trim : pairAfter (fun p => p.net.map fun k => (k.seq, k.len, k.cls, k.trim)) (.evTrim 1 0 0x10003) { p10 with net := [{ wr 3 1 with len := 2 }] }
      = some [(3, 0, 7, true)]
  ∧ pairAfter (fun p => (p.net.length, p.window.length, p.holes.map fun h => (h.seq, h.hdr.map (·.trim)))) (.evWr 1 0 3)
      { p10 with net := [({ wr 3 1 with len := 2 } : Packet).cut], expected := 3 } = some (0, 0, [(3, some true)])
  ∧ pairAfter (fun p => (p.ctl, p.holes.map (·.asked))) (.evHoleRerequest 1 0 3) { p10 with holes := [⟨3, 0, none, false, false, none⟩] }
      = some ([.yoyo 3], [some 1000]) := by decide +kernel
/-- The sixteenth failed frame is the fifteenth failed replay; the seventeenth takes the link down; a link comes up again; the new
tree raises the generation. -/
theorem test_links : let f (n : Nat) : State := { st slot0 with linkFails := [(2, n)] }
  ((after (exec (.evFrame 2 false) (f 15))).map fun t => (t.linkFails, t.linksDown)) = some ([(2, 16)], [])
  ∧ ((after (exec (.evFrame 2 false) (f 16))).map fun t => (t.linksDown, t.moving)) = some ([2], true)
  ∧ ((after (exec (.evFrame 2 true) (f 15))).map fun t => t.linkFails) = some []
  ∧ ((after (exec (.evLinkDown 2) (f 0))).map fun t => t.linksDown) = some [2]
  ∧ ((after (exec (.evLinkBringUp 2 true) { f 0 with linksDown := [2] })).map fun t => (t.linksDown, t.moving)) = some ([], true)
  ∧ ((after (exec .evRouteRecompute { f 0 with moving := true })).map fun t => (t.generation, t.moving)) = some (1, false) := by decide +kernel
/-- FCFG: RTO 0 and BOFF 3 are out of range and stay; YDEPTH 1, YPER 2 and TTHR 64 are taken. -/
theorem test_registers_of_the_fabric :
  ((after (exec (.evRegisterWrite 1 0x8000 0x0000004002130000) (st slot0))).map fun t => let d := getDie t 1; [d.rto, d.tthr, d.yper, d.ydepth, d.boff])
    = some [64, 64, 2, 1, 8]
  ∧ ((after (exec (.evRegisterWrite 1 0x8008 0x7) (st slot0))).map fun t => (getDie t 1).sel) = some 4
  ∧ ((after (exec (.evClear 0 5) { st slot0 with dies := [{ Die.reset 0 with ports := [⟨5, 3, 0, 0, 0, 0, 0, Vector.replicate 8 0⟩] }] })).map
      fun t => (getPort (getDie t 0) 5).trims) = some 0
  ∧ ((after (exec (.evChead 3 2) { egState slot0 with egress := [⟨3, 1, 1, 3, [], [⟨1, 0, 0, 0⟩, ⟨1, 0, 1, 0⟩], [], 0⟩] })).map fun t =>
      t.egress.map fun q => (q.chead, q.ring.length)) = some [(2, 1)] := by decide +kernel

/-! ### Memories, launches, contexts, the debugger, boot and power (11, 12, 14, 15) -/

theorem test_memory_events :
  ((after (exec (.evZeroing 0x4000 16384 0) { st slot0 with mem := [(0x3FFF, 1), (0x4000, 2), (0x7FFF, 3), (0x8000, 4)] })).map (·.mem)) = some [(0x3FFF, 1), (0x8000, 4)]
  ∧ ((after (exec (.evKeyLoad 5 77) (st slot0))).map fun t => (keyValue t 5, keyValue t 6)) = some (77, 0)
  ∧ ((after (exec (.evPageRetirement 0x1000005000) (st slot0))).map fun t => t.retired) = some [0x1000005]
  ∧ ((after (exec (.evWithdrawal 1 0x10000 1) (st slot0))).map fun t => t.clusters.map fun c => c.cache.map (·.base)) = some [[0x20000, 0x30000]]
  ∧ ((after (exec (.evScrub (.block 0x40)) { st slot0 with poisoned := [1] })).map fun t => (getDie t 0).ring.map fun e => (e.2.code, e.2.data)) = some [(3, 0x40)]
  ∧ ((after (exec (.evCoreCheckFailure 0) (tasksState [] slot0))).map fun t => t.reports.map fun r => (r.cause, r.origin)) = some [(0x04, 6)] := by
  decide +kernel
/-- The AES-256 example of FIPS 197 C.3. -/
theorem test_aes : Aes.encryptBlock (Aes.roundKeys (List.range 32)) ((List.range 16).map (17 * ·))
      = [0x8E, 0xA2, 0xB7, 0xCA, 0x51, 0x67, 0x45, 0xBF, 0xEA, 0xFC, 0x49, 0x90, 0x4B, 0x49, 0x60, 0x89]
    ∧ Aes.decryptBlock (Aes.roundKeys (List.range 32)) (Aes.encryptBlock (Aes.roundKeys (List.range 32)) (List.range 16)) = List.range 16 := by decide +kernel
set_option maxRecDepth 100000 in
/-- Vector 10 of IEEE 1619, its first four blocks: data unit 0xFF, bytes 0 to 63. -/
theorem test_xts : Aes.xtsEncrypt
    0x92459474098205513799931697418802952783336462842393975853265941312776966649575999699370245777496226357174286053234590452818281827 0xFF
    0x3F3E3D3C3B3A393837363534333231302F2E2D2C2B2A292827262524232221201F1E1D1C1B1A191817161514131211100F0E0D0C0B0A09080706050403020100
    = 0xFD88B14BCBFEBE4533FCAD35AC860A68443F68ACF917B3668D4AFEF876E2315D3BE6A314D412AEA45723485E3F8000EA9BCF70E3996C83E48603772F103A3B1C := by
  decide +kernel
theorem test_page_request : ((after (exec (.evPageRequestAnswer 0 0 true) { st slot0 with
    dies := [{ Die.reset 0 with walks := [⟨1, 16, 0x40000, .read, [0], true, none⟩] }] })).map fun t => (getDie t 0).walks.map (·.paged)) = some [false] := by
  decide +kernel
def reported : State := { st slot0 with reports := [⟨1, 0x03, 0, 3, 0x10000, 0, 1, 0, 0, 0, 0⟩] }
theorem test_fault_report : ((after (exec (.evFaultReport 0) reported)).map fun t => (t.reports, (getSlot t 0 0).status)) = some ([], .free)
  ∧ ((after (exec (.evFaultReport 0) reported)).map fun t => t.launches.map fun l => (l.phase, l.endCode, l.fault.map (·.cause)))
    = some [(.ending, 3, some 3)] := by decide +kernel
theorem test_launch_end : ((after (exec (.evLaunchEnd 1) (stWith { launch1 with phase := .ending, endCode := 3 } Slot.reset))).map fun t =>
    t.launches.map (·.phase)) = some [.ended]
  ∧ ((after (exec (.evQuiescence 1) (stWith launch1 Slot.reset))).map fun t => t.launches.map fun l => (l.phase, l.endCode)) = some [(.ending, 2)]
  ∧ after (exec (.evQuiescence 1) (st slot0)) = none := by decide +kernel
/-- A descriptor that is not aligned ends its launch with ENGINE and the next LID. -/
theorem test_launch_start : ((after (exec (.evLaunchStart 1 0) { st slot0 with contexts := [{ context1 with queues := [(0, [0x101])] }], launches := [] })).map fun t =>
    (t.nextLid, t.launches.map fun l => (l.id, l.fault.map fun r => (r.cause, r.tval)))) = some (3, [(2, some (0x0A, 0x101))]) := by decide +kernel
theorem test_initial_push : ((after (exec (.evInitialTaskPush 1) (stWith { launch1 with late := [(0x101, 0)], closed := [0] } slot0))).map fun t =>
    t.launches.map fun l => l.fault.map fun r => (r.cause, r.tval)) = some [some (0x0E, 0x101)] := by decide +kernel
theorem test_contexts : ((after (exec (.evPreEmption 1) (st slot0))).map fun t => t.contexts.map fun c => (c.leaving, c.running)) = some [(true, true)]
  ∧ ((after (exec (.evPreEmption 1) { st Slot.reset with contexts := [{ context1 with leaving := true }] })).map fun t =>
      (t.contexts.map (·.running), t.launches.map fun l => l.actors.map (·.place))) = some ([false], [[.parked]])
  ∧ ((after (exec (.evContextResume 1) { stWith { launch1 with actors := [{ actor1 with place := .parked }] } Slot.reset with
      contexts := [{ context1 with running := false }] })).map fun t => t.contexts.map (·.running)) = some [true] := by decide +kernel
theorem test_actor_moves : ((after (exec (.evEviction 1 1) (st slot0))).map fun t => t.launches.map fun l => l.actors.map fun a => (a.leaving, a.place)) = some [[(true, .core)]]
  ∧ ((after (exec (.evEviction 1 1) (stWith { launch1 with actors := [{ actor1 with leaving := true }] } Slot.reset))).map fun t => t.launches.map fun l => l.actors.map (·.place)) = some [[.parked]]
  ∧ ((after (exec (.evRestore 1 1 0) (stWith { launch1 with actors := [{ actor1 with place := .parked, evicted := true }] } Slot.reset))).map fun t =>
      t.launches.map fun l => l.actors.map (·.place)) = some [[.core]] := by decide +kernel
/-- Launch 1 waits for the rows that the parked actor of launch 9 left on core 0: they are saved for it and zeroed. -/
def claimState : State := { stWith { launch1 with phase := .waiting, actors := [{ actor1 with place := .unclaimed }] } Slot.reset with
  launches := [{ launch1 with phase := .waiting, actors := [{ actor1 with place := .unclaimed }] },
    { launch1 with id := 9, actors := [{ actor1 with place := .parked }] }]
  cores := [{ core0 Slot.reset with rows := [(0, 7)], victims := [⟨0, 9⟩] }] }
theorem test_victim_claim : ((after (exec (.evVictimClaim (.rows 0 0)) claimState)).map fun t =>
    ((getCore t 0).victims.length, rowValue (getCore t 0) 0, t.savedRows.length)) = some (0, 0, 16)
  ∧ ((after (exec (.evVictimClaim (.rows 0 0)) claimState)).bind fun t => t.savedRows.head?) = some ⟨0, 0, 9, 1, 7, false⟩ := by decide +kernel
/-- Sibling core 1 has a depth of 9 and 10 tasks move to it at most; the threshold is 4 here. -/
theorem test_balancing : ((after (exec (.evDepthExchange 0) (let s := tasksState [⟨[7, 8], 0, 0, 0, 0, false⟩] slot0
      { s with cores := (s.cores.map fun k => { k with cycle := 4096 }) ++ [{ Core.reset 1 with residents := [⟨1, 0, 0, 0, [], []⟩] }] }))).map fun t =>
    (getResident t 1 1).depths) = some [(0, 1)]
  ∧ ((after (exec (.evDepthReceive 0) (let s := tasksState [⟨[7, 8], 0, 0, 0, 0, false⟩] slot0
      { s with cores := s.cores.map fun k => { k with residents := [⟨1, 0, 0, 0, [], [(1, 3)]⟩] } }))).map fun t => (getResident t 0 1).depths) = some []
  ∧ ((after (exec (.evDrawComplete 0 1) (let s := tasksState [] { slot0 with status := .draw 9 4 }
      { s with clusters := [⟨0, pages, [(1, [⟨[7, 8], 0, 0, 0, 0, false⟩])], []⟩] }))).map fun t => ((getSlot t 0 0).status, (getSlot t 0 0).getV 5)) = some (.running, 8) := by
  decide +kernel
theorem test_unbound : let q := { launch1 with actors := [{ actor1 with chans := [⟨0, 4, false, 1, false, true, 2, [msg 7], some 0, 0⟩] }] }
  let s := stWith q Slot.reset
  ((after (exec (.evUnbound 1 1 0) { s with cores := s.cores.map fun k => { k with cycle := 100 } })).map fun t =>
    t.reports.map fun r => (r.cause, r.origin, r.tval)) = some [(0x06, 5, 0x100)]
  ∧ after (exec (.evUnbound 1 1 0) { s with cores := s.cores.map fun k => { k with cycle := 99 } }) = none := by decide +kernel
theorem test_egpost_timeout : after (exec (.evEgpostTimeout 0 0) (st slot0)) = none := by decide +kernel

/-- Launch 1 with a debugger, actor 1 halted in slot 0. -/
def dbg (sl : Slot) : State := stWith { launch1 with granted := true, attached := true } sl
def haltedSl : Slot := { (withX slot0 [(4, 9)]) with status := .halted }
theorem test_debug_1 : ((after (exec (.evDebuggerAttach 1) (stWith { launch1 with granted := true } slot0))).map fun t => t.launches.map (·.attached)) = some [true]
  ∧ ((after (exec (.evHalt 1 1) (dbg slot0))).map fun t => t.launches.map fun l => l.actors.map (·.halted)) = some [[true]]
  ∧ ((after (exec (.evResume 1 1) (dbg haltedSl))).map fun t => (getSlot t 0 0).status) = some .running
  ∧ ((after (exec (.evStep 1 1) (dbg haltedSl))).map fun t => (getSlot t 0 0).oneStep) = some true
  ∧ ((after (exec (.evExec 1 1 [0x00000001]) (dbg haltedSl))).map fun t => ((getSlot t 0 0).inDebug, (getSlot t 0 0).dbgWords)) = some (true, [1]) := by decide +kernel
theorem test_debug_2 : ((after (exec (.evRead 1 1 (.x 4)) (dbg haltedSl))).map fun t => t.dbgOut) = some 9
  ∧ ((after (exec (.evWrite 1 1 (.x 4) 5) (dbg haltedSl))).map fun t => (getSlot t 0 0).getX 4) = some 5
  ∧ ((after (exec (.evBreak 1 0 2 0x10000 0) (dbg slot0))).map fun t => (getCore t 0).breaks) = some [⟨2, 0x10000, 1, 0⟩]
  ∧ ((after (exec (.evUnbreak 1 0 2) { dbg slot0 with cores := [{ core0 slot0 with breaks := [⟨2, 0x10000, 1, 0⟩] }] })).map fun t => (getCore t 0).breaks) = some []
  ∧ ((after (exec (.evBreakpoint 0 0) { dbg slot0 with cores := [{ core0 slot0 with breaks := [⟨2, 0x10000, 1, 0⟩] }] })).map fun t =>
      ((getSlot t 0 0).status, (getSlot t 0 0).cause, (getSlot t 0 0).tval)) = some (.halted, 0x0C, 0x102)
  ∧ ((after (exec (.evHaltreq 0 0) (stWith { launch1 with attached := true, actors := [{ actor1 with halted := true }] } slot0))).map fun t =>
      ((getSlot t 0 0).status, (getSlot t 0 0).cause, (getSlot t 0 0).epc)) = some (.halted, 0x0D, 0x10000)
  ∧ ((after (exec (.evDetach 1) (dbg haltedSl))).map fun t => ((getSlot t 0 0).status, t.launches.map (·.attached))) = some (.running, [false]) := by decide +kernel

theorem test_boot : ((after (exec .evReset (st slot0))).map fun t => (t.boot.state, t.mem, t.cores)) = some (.bootfail, [], [])
  ∧ ((after (exec (.evBootsel 2) (st slot0))).map fun t => (t.boot.pref, flashByte t.boot 0x1FFF0000)) = some (2, 0xB5)
  ∧ ((after (exec (.evMinsvnRaise 1) { st slot0 with boot := { State.reset.boot with svns := [3, 1, 2] } })).map fun t => t.boot.minsvn) = some 1
  ∧ ((after (exec (.evMinsvnRaise 2) { st slot0 with boot := { State.reset.boot with svns := [3, 1, 2] } })).map fun t => t.boot.minsvn) = some 0
  ∧ ((after (exec (.evFirmwareUpdate 0x10000000 [1, 2]) (st slot0))).map fun t => flashByte t.boot 0x10000001) = some 2 := by decide +kernel
def pw (p : Power) : State := { st Slot.reset with power := p }
def pw0 : Power := State.reset.power
noncomputable def moves (i : Instr) (p : Power) : Option (Nat × Option PowerMove × Bool) :=
  (after (exec i (pw p))).map fun t => (t.power.state, t.power.moving, t.power.refused)
theorem test_power_requests : [moves .evPctlReqP0 { pw0 with state := 1 }, moves .evPctlReqP0 pw0, moves .evPctlReqP1 pw0,
    moves .evPctlReqP2 pw0, moves .evPctlReqP3 pw0, moves .evPctlReqP3 { pw0 with state := 2 },
    moves .evTransitionComplete { pw0 with moving := some .toP1 }]
  = [some (1, some .toP0, false), some (0, none, true), some (0, some .toP1, false), some (0, some .toP2, false), some (0, none, true),
     some (3, none, false), some (1, none, false)] := by decide +kernel
/-- A coolant flow below 3; a sensor at 105 degrees; TRIP once every sensor is below 95; REFUSED clears; CAP 799 is ignored. -/
theorem test_power_limits :
  ((after (exec (.evCoolantLimit 2 20) (pw pw0))).map fun t => (t.power.coolant, t.power.moving)) = some (true, some .toP1)
  ∧ ((after (exec (.evThermalTrip 3) (pw { pw0 with hot := [(3, 105)] }))).map fun t => (t.power.trip, t.power.state, t.power.clk)) = some (true, 2, 0)
  ∧ ((after (exec .evTrip (pw { pw0 with trip := true, hot := [(3, 94)] }))).map fun t => t.power.trip) = some false
  ∧ ((after (exec .evTrip (pw { pw0 with trip := true, hot := [(3, 95)] }))).map fun t => t.power.trip) = some true
  ∧ ((after (exec .evRefused (pw { pw0 with refused := true }))).map fun t => t.power.refused) = some false
  ∧ ((after (exec (.evPctlCap 799) (pw pw0))).map fun t => t.power.cap) = some 3400
  ∧ ((after (exec (.evPctlCap 800) (pw pw0))).map fun t => t.power.cap) = some 800 := by decide +kernel
/-! ### States and operands that meet the hypotheses of the statements -/

theorem witness_DecodeOfEncode : (Instr.addi 1 2 3 4).check = none ∧ (Instr.vldt .sc 7 .w64 1 2 24).check = none
    ∧ (Instr.vmrgu 0 .w16 1 2 29).check = none ∧ (Instr.mload .acq 2 5 1 2).check = none ∧ (Instr.qmul 1 2 30).check = none := by decide
theorem witness_EncodeOfDecode : decodeWord 0x000A0681 = .ok (.addi 0 5 0 13) := by rfl

/-- A slot whose instruction is ADDI x13, x0, 5; and one whose word is no instruction. -/
def sAddi : State := { st slot0 with mem := bytesAt 0 4 0x000A0681 }
theorem witness_StepRunsDecodedInstruction : sAddi.agenda = [] ∧ sAddi.cur.stall = none ∧ issuesNext sAddi = true ∧ sAddi.cur.inDebug = false
    ∧ translate sAddi (clusterOf sAddi.curCore) sAddi.cur.ctx sAddi.cur.pc .fetch = .ok 0 0 ∧ isPoisoned sAddi 0 = false
    ∧ (isDram 0 && blockKeyOf sAddi 0 != keyValue sAddi 0) = false := by decide +kernel
theorem witness_StepRunsDecodedInstruction_word : decodeWord ((readThrough sAddi 0 4 0).setWidth 32) = .ok (.addi 0 5 0 13) := by
  rw [show (readThrough sAddi 0 4 0).setWidth 32 = (0x000A0681 : BitVec 32) by decide +kernel]; rfl
theorem witness_StepRunsDecodedInstruction_illegal : decodeWord ((readThrough (st slot0) 0 4 0).setWidth 32) = .error .major := by
  rw [show (readThrough (st slot0) 0 4 0).setWidth 32 = (0 : BitVec 32) by decide +kernel]; rfl
/-- The words that the host places run as the first instruction after reset. -/
theorem test_first_step : ((after (step (State.reset.withFetchWord 32 0x000A0681))).map fun t => ((landed t).getX 13, (landed t).pc)) = some (5, 0x10004) := by
  decide +kernel

/-- Operands that the issue of any instruction on x1 to x3, v1 to v4, k1 to k3 finds ready. -/
def any3 (f : Nat → RegRef) : List RegRef := [f 1, f 2, f 3]
def ready0 : State := stX [(1, 0x10100), (2, 3)]
theorem ready_registers : canIssue ready0 (any3 (⟨.x, ·⟩) ++ any3 (⟨.v, ·⟩) ++ any3 (⟨.k, ·⟩)) [xr 3, vr 3, kr 3, vr 4, vr 5, xr 0] = true := by
  decide +kernel
theorem witness_IntegerOperations : canIssue ready0 [xr 1] [xr 3] = true ∧ canIssue ready0 [] [xr 3] = true ∧ canIssue ready0 [xr 1, xr 2] [xr 0] = true := by
  decide +kernel
theorem witness_MultiplyAndDivide : canIssue ready0 [xr 1, xr 2] [xr 3] = true ∧ canIssue ready0 [xr 2, xr 0] [xr 3] = true
    ∧ (BitVec.toInt (0x8000000000000000 : Word) = -(2 ^ 63) ∧ (-1 : Word).toInt = -1)
    ∧ (31 : BitVec 5) ≠ 0 ∧ (2 : Word) ≠ 0 ∧ (3 : BitVec 2) ≠ 0 ∧ 4 ≤ (7 : BitVec 3).toNat
    ∧ 0 < (7 : Int).tmod (-2) ∧ (-7 : Int).tmod 2 < 0 := by decide +kernel
theorem witness_BitManipulation : canIssue ready0 [xr 1] [xr 3] = true ∧ canIssue ready0 [xr 1, xr 2] [xr 3] = true := by decide +kernel
theorem witness_JumpsAndBranches : canIssue ready0 [] [xr 3] = true ∧ canIssue ready0 [xr 1] [xr 0] = true
    ∧ (ready0.found.rx 1 + (4 : BitVec 13).signExtend 64).toNat % 4 = 0 ∧ (ready0.found.rx 2 + (0 : BitVec 13).signExtend 64).toNat % 4 ≠ 0
    ∧ (3 : BitVec 2) ≠ 0 ∧ canIssue ready0 [xr 1, xr 2] [] = true := by decide +kernel
theorem witness_CsrAccess : canIssue ready0 [xr 1] [xr 3] = true ∧ (1 = 1 → ready0.cur.locals.any (·.fp) = false)
    ∧ csrAssigned 0x001 = true ∧ csrAssigned 0xC0E = true ∧ (true && csrReadOnly 0x004) = false ∧ (false && csrReadOnly 0xC0E) = false
    ∧ ready0.cur.status = .running ∧ (!csrAssigned 0x005 || (true && csrReadOnly 0x005)) = true
    ∧ (!csrAssigned 0xC00 || (true && csrReadOnly 0xC00)) = true := by decide +kernel
def sysState (inDebug attached : Bool) : State := stWith { launch1 with attached := attached } { slot0 with inDebug := inDebug }
theorem witness_SystemInstructions : ∀ d a, let s := sysState d a
    canIssue s [] [] = true ∧ s.cur.interlocked = [] ∧ s.cur.accs = [] ∧ s.cur.pend = []
    ∧ getLaunch s s.cur.launch = some { launch1 with attached := a } ∧ s.cur.inDebug = d := by decide +kernel
/-- A fixed-latency write that is pending, for which the system instructions wait. -/
theorem witness_SystemInstructions_pending : let s := st { slot0 with pend := [⟨xr 9, 5, 3, false⟩] }
    canIssue s [] [] = true ∧ s.cur.interlocked = [] ∧ s.cur.accs = [] ∧ s.found.pend.map (·.vis) = [3] ∧ s.cur.clock = 0 := by decide +kernel
/-- Latency 3, read one clock before it is visible, at it and after it; the write issued later is visible earlier. -/
theorem witness_FixedLatencyWrites : slot0.pend = [] ∧ xr 1 ≠ xr 2 ∧ ((2 : Nat) < 3 ∧ 3 ≤ 3) ∧ (xr 2).constant = false
    ∧ (xr 2).n < (if (xr 2).file = .k then 8 else 32) ∧ (kr 7).n < (if (kr 7).file = .k then 8 else 32) ∧ ((4 : Nat) ≤ 9 ∧ 2 ≤ 9) := by decide
theorem witness_FixedLatencyWrites_add : let s := st { slot0 with pend := [⟨xr 9, 5, 3, false⟩], chk := true }
    s.cur.status = .running ∧ s.cur.accs.all (fun x => !x.dst.holdsIssue) = true ∧ s.cur.interlocked = []
    ∧ (s.cur.chk = false ∨ ∀ p ∈ s.found.pend, p.reg ≠ xr 1 ∧ p.reg ≠ xr 2) := by decide +kernel
theorem witness_IssueChecksAndConstants : let s := st { slot0 with locals := [⟨[(xr 2, 0)], 0, false⟩] }
    let u := st { slot0 with chk := true, pend := [⟨vr 2, 5, 3, false⟩] }
    s.cur.status = .running ∧ s.cur.accs.all (fun x => !x.dst.holdsIssue) = true ∧ s.cur.interlocked = [xr 2] ∧ (xr 2).constant = false
    ∧ u.cur.interlocked = [] ∧ u.cur.chk = true ∧ u.found.pend.map (·.reg) = [vr 2] ∧ (vr 2).constant = false := by decide +kernel
/-- A vector instruction, masked and not; its channel twin, with a word to pop. -/
theorem witness_VectorIntegerLanes : canIssue vi ([vr 1] ++ ([vr 2] ++ maskDst 1 3)) [vr 3] = true ∧ canIssue vi ([vr 2] ++ maskDst 0 3) [vr 3] = true
    ∧ (popWord vi.settled vi.curCore vi.curSlot 0).isSome = true := by decide +kernel
theorem witness_VectorFpLanes : canIssue vf ([vr 1] ++ ([vr 2, vr 3] ++ maskSrc 1)) [vr 3] = true ∧ (popWord vf.settled 0 0 0).isSome = true := by
  decide +kernel
theorem witness_VectorComparesAndLogic : canIssue vi ([vr 1] ++ ([vr 2] ++ maskSrc 1)) [kr 3] = true ∧ canIssue vi ([vr 1] ++ [vr 2, vr 3]) [vr 3] = true
    ∧ (popWord vi.settled 0 0 0).isSome = true := by decide +kernel
theorem witness_VectorReductionsAndScans : canIssue vi ([vr 1] ++ ([vr 3] ++ maskSrc 1)) [vr 3] = true ∧ (popWord vi.settled 0 0 0).isSome = true := by
  decide +kernel
theorem witness_VectorPermutesAndMerges : canIssue vm ([vr 1] ++ ([vr 2] ++ [kr 1, vr 8, vr 9])) [vr 8, vr 9, vr 10] = true
    ∧ canIssue vm ([vr 1] ++ ([xr 2] ++ maskDst 1 3)) [vr 3] = true ∧ (popWord vm.settled 0 0 0).isSome = true := by decide +kernel
theorem witness_ConversionsAndTypedBlocks : let s := stX [(13, 0x8042)]
    canIssue s ([vr 1] ++ maskDst 1 3) [vr 3] = true ∧ canIssue s ([vr 1, xr 13] ++ maskDst 0 3) [vr 3] = true
    ∧ canIssue s ([vr 1, xr 13, vr 3] ++ maskSrc 2) [vr 3] = true ∧ tblockOk (s.found.rx 13) 16 = true ∧ tblockOk 0x00108042 16 = true
    ∧ tblockOk 0x00088042 16 = false := by decide +kernel
theorem witness_MovesAndMasks : canIssue ready0 [kr 1, kr 2] [kr 3] = true ∧ canIssue ready0 [xr 1] [kr 3] = true
    ∧ canIssue ready0 ([xr 1] ++ maskDst 1 3) [vr 3] = true := by decide +kernel
/-- An aligned address of another home, and one of the own slice. -/
theorem witness_RequestsToOtherHomes : canIssue sm [xr 2] [xr 3] = true ∧ ungated sm (gating .acq sm.cur.oscope true false) = true
    ∧ (sm.found.rx 2 + (8 : BitVec 13).signExtend 64).toNat % 8 = 0 ∧ sm.trans 0x20108 .read = .ok 0x80108 0 ∧ sm.trans 0x20100 .write = .ok 0x80100 0
    ∧ homeOf 0x80108 ≠ sm.node := by decide +kernel
theorem witness_OwnSliceLoads : canIssue sm [xr 1] [xr 3] = true ∧ ungated sm (gating .rlx sm.cur.oscope true false) = true
    ∧ sm.trans 0x10100 .read = .ok 0x100 0 ∧ homeOf 0x100 = sm.node ∧ isPoisoned sm 0x100 = false := by decide +kernel
theorem witness_OwnSliceStores : canIssue sm [xr 1, xr 3] [] = true ∧ ungated sm (gating .rel sm.cur.oscope false true) = true
    ∧ sm.trans 0x10100 .write = .ok 0x100 0 ∧ homeOf 0x100 = sm.node ∧ isPoisoned sm 0x100 = false ∧ Memory.wf sm.mem = true := by decide +kernel
theorem witness_OwnSliceAtomics : canIssue sm [xr 1, xr 2, xr 3] [xr 3] = true ∧ ungated sm (casGating .rel .acq .cluster) = true
    ∧ sm.trans 0x10100 .write = .ok 0x100 0 ∧ homeOf 0x100 = sm.node ∧ isPoisoned sm 0x100 = false ∧ Memory.wf sm.mem = true := by decide +kernel
/-- Misaligned; not permitted; not cached; and an sc access without its token. -/
theorem witness_AccessesThatStop : canIssue sm [xr 1] [xr 3] = true ∧ sm.cur.active = false
    ∧ gate sm.curCore sm.found (gating .sc sm.cur.oscope true false) = none ∧ (0x10101 : Word).toNat % 2 ≠ 0
    ∧ sm.trans 0x200000000000000 .read = .bad ∧ sm.trans 0x40000 .read = .miss ∧ sm.trans 0x20000 .fetch = .bad
    ∧ (gating .sc sm.cur.oscope true false).sc = true ∧ sm.cur.token ≠ some (seqrOf sm.curCore sm.curSlot .core) := by decide +kernel
def gated (block : Bool) (fences : List FenceGate) : State :=
  st { slot0 with accs := [⟨7, 1, true, false, block, 0, 0, .none⟩], fences := fences }
theorem witness_OrderingGatesAndFences : (gated true []).cur.active = false ∧ canIssue (gated true []) [xr 1] [xr 3] = true
    ∧ (gated true []).cur.accs.any (·.block) = true ∧ (gated false [⟨.full, [7]⟩]).cur.accs.any (·.block) = false
    ∧ ((gated false [⟨.full, [7]⟩]).cur.fences.any fun f => f.kind == .full && (gated false []).cur.accs.any fun x => f.wait.contains x.id) = true
    ∧ ((gated false []).cur.accs.any fun x => inReach 0 .cluster x.home) = true ∧ canIssue (gated false []) [] [] = true := by decide +kernel
/-- The elements of a store whose two lanes go to the own slice and to another home. -/
theorem witness_VectorMemory : let s := memX [(5, 0x10000)]
    canIssue s [xr 1, xr 5, vr 1] [vr 3] = true ∧ ungated s (gating .rlx s.cur.oscope true false) = true
    ∧ (gating .rlx s.cur.oscope true false).sc = false ∧ s.trans 0x10100 .read = .ok 0x100 0 ∧ s.trans 0x20100 .read = .ok 0x80100 0
    ∧ (0x10100 : Word).toNat % 4 = 0 ∧ isPoisoned s 0x100 = false ∧ Memory.wf s.mem = true := by decide +kernel
theorem witness_Parking : let s := st { (withX slot0 [(1, 16)]) with parked := [16, 17] }
    (1 : BitVec 5).toNat ≤ (2 : BitVec 5).toNat ∧ canIssue s [vr 1, vr 2] [xr 1] = true ∧ freeRun s.settled s.curCore 2 = some 18
    ∧ freeRun s.settled s.curCore 2031 = none ∧ canIssue s [xr 1] [vr 1, vr 2] = true ∧ s.cur.mats = []
    ∧ [16, 17, 18].find? (fun r => !s.cur.parked.contains r) = some 18 ∧ (∀ r ∈ [16, 17], r ∈ s.cur.parked ∧ r ∉ (getCore s s.curCore).badRows) := by
  decide +kernel
theorem witness_MatrixRowMoves : let s := stX [(1, 4), (2, 12), (3, 13)]
    canIssue s [xr 1, xr 2] [] = true ∧ (∀ r, r < 16 → 4 ≤ r → r < 4 + 12 → rowAccess s s.found r = true)
    ∧ rowAccess s s.found 16 = false ∧ canIssue s [xr 1] [vr 3] = true ∧ canIssue s [xr 1, vr 2] [] = true := by decide +kernel
/-- A tile of one element: A's block in the own slice, B's in another home; its tile word; rows that are not the actor's. -/
theorem witness_MatrixTileInstructions : let s := stX [(1, 0x10100), (2, 0x20100), (3, 0x0000000100010000)]
    tileOk (s.found.rx 3) false true = true ∧ tileOk (s.found.rx 3) true false = true ∧ tileOk 0x0000003000300000 false false = true
    ∧ (∀ r ∈ tileRows 0 (s.found.rx 3), rowAccess s s.found r = true) ∧ canIssue s [xr 3, xr 1, xr 2] [] = true
    ∧ gate s.curCore s.found (gating .rlx s.cur.oscope true false) = none ∧ s.trans 0x10100 .read = .ok 0x100 0 ∧ s.trans 0x20100 .read = .ok 0x80100 0
    ∧ s.cur.mats = [] ∧ (∀ r ∈ tileRows 0 (s.found.rx 3), r ∉ (getCore s s.curCore).badRows) ∧ ungated s (gating .rlx s.cur.oscope false true) = true := by
  decide +kernel
theorem witness_MatrixTileInstructions_traps : let s := stX [(3, 0x0000000100010010)]
    tileOk 0x100000000 false true = false ∧ tileOk (s.found.rx 3) false true = true ∧ 16 ∈ tileRows 0 (s.found.rx 3)
    ∧ rowAccess s s.found 16 = false ∧ canIssue s [xr 3, xr 1, xr 2] [] = true := by decide +kernel
theorem witness_MatrixEffects : let s := rowsX [(0, 5)] slot0
    let m : MatOp := ⟨1, 0, .mload 0 2 0x0000000200010000, 1, [(0, vec 16 [0x3FC0], 0x20)]⟩
    (∀ r ∈ m.rowsRead, r ∉ (getCore s 0).badRows) ∧ tileOk 0x0000000200010000 false false = true ∧ tileOk 0x0000000200010000 false true = true := by
  decide +kernel
def sliceIs (s : State) (va : Word) (len : Nat) (f : Except Trans (List (Nat × Nat)) → Bool) : Bool := f (slicePieces s s.curCore s.cur.ctx va 4 len)
theorem witness_MirroredSwap : let s := stX [(1, 0x10100), (2, 64)]
    canIssue s [xr 1, xr 2] [xr 3] = true ∧ (0x10100 : Word).toNat % 64 = 0 ∧ (64 : Nat) % 64 = 0 ∧ (64 : Nat) ≤ 32768
    ∧ sliceIs s 0x10100 64 (fun r => match r with | .ok ps => ps == [(0x100, 64)] | _ => false) = true
    ∧ sliceIs s 0x20100 64 (fun r => match r with | .error .bad => true | _ => false) = true
    ∧ mirrorCore s.curCore = s.curCore ∧ mirrorCore 10 ≠ 10 := by decide +kernel
/-- The same on core 10, whose slice holds the page. -/
def swap10 : State := { stX [] with
  curCore := 10, cores := [{ core0 (withX slot0 [(1, 0x10100), (2, 64)]) with id := 10 }]
  clusters := [⟨0, [⟨1, 0x10000, 0x4000, 10 * 0x80000, true, true, false, 0⟩], [], []⟩] }
theorem witness_MirroredSwap_waits : canIssue swap10 [xr 1, xr 2] [xr 3] = true ∧ mirrorCore swap10.curCore ≠ swap10.curCore
    ∧ sliceIs swap10 0x10100 64 (fun r => match r with
        | .ok ps => ps == [(10 * 0x80000 + 0x100, 64)] && poisonedIn swap10 0x10100 ps == none
        | _ => false) = true := by decide +kernel
def swapSlot (off len : Nat) : Slot := { slot0 with status := .mswap 1 3 len [(off, len)] [] [] }
def swapState (len : Nat) : State :=
  { st slot0 with cores := [{ core0 (swapSlot (10 * 0x80000) 64) with id := 10 }, { core0 (swapSlot (17 * 0x80000) len) with id := 17 }] }
theorem witness_MirroredSwap_pair : clocksRun (swapState 64) = true
    ∧ [firstSwap (swapState 64) 10 1, firstSwap (swapState 64) 17 1, firstSwap (swapState 128) 17 1].map (fun r => r.map fun p => (p.2.1, p.2.2.1))
      = [some (3, 64), some (3, 64), some (3, 128)] := by decide +kernel
theorem witness_CopyJobInstructions : let s := cardState cpyCard
    canIssue s [xr 1] [] = true ∧ jobGate s.found = none ∧ (0x10200 : Word).toNat % 64 = 0 ∧ s.trans 0x10200 .read = .ok 0x200 0
    ∧ s.trans 0x10240 .read = .ok 0x240 0 ∧ isPoisoned s 0x200 = false ∧ s.cur.accs = []
    ∧ cardOk .cpy ((blockThrough s 0x200 0).toNat + 2 ^ 512 * (blockThrough s 0x240 0).toNat) = true
    ∧ parseSignal false 3 0 0 = some (.tag 3) ∧ (getResident s 0 1).busy.getLsbD 3 = false := by decide +kernel
theorem witness_CopyJobInstructions_bad : let s := cardState (cpyCard + 2 ^ 192)
    cardOk .cpy ((blockThrough s 0x200 0).toNat + 2 ^ 512 * (blockThrough s 0x240 0).toNat) = false := by decide +kernel
/-- A card that was read before, with its tag free and with it busy. -/
theorem witness_CopyJobInstructions_waiting : let s := st { slot0 with card := some cpyCard }
    canIssue s [xr 1] [] = true ∧ jobGate s.found = none ∧ s.cur.card = some cpyCard ∧ cardOk .cpy cpyCard = true
    ∧ (getResident (tagState 8 0) 0 1).busy.getLsbD 3 = true ∧ (getResident s 0 1).busy.getLsbD 3 = false := by decide +kernel
theorem witness_CopyJobInstructions_tags : let s := tagState 1 8
    canIssue s [xr 1] [xr 9] = true ∧ (getResident s 0 1).tagdone &&& 3 = 0 ∧ (getResident s 0 1).busy &&& 3 ≠ 0
    ∧ (getResident s 0 1).tagdone &&& 8 ≠ 0 ∧ (getResident s 0 1).busy &&& 8 = 0 := by decide +kernel
def captured (s : State) (j : QJob) (card : Nat) : Bool := match capture s j card with | .ok _ => true | _ => false
def qCardOf (s : State) : Nat := (blockThrough s 0x480 0).toNat + 2 ^ 512 * (blockThrough s 0x4C0 0).toNat
theorem witness_QuadtreeInstructions : let s := qState slot0
    canIssue s [xr 4, xr 6, xr 7, xr 5] [] = true ∧ jobGate s.found = none ∧ s.trans 0x10480 .write = .ok 0x480 0 ∧ s.trans 0x104C0 .write = .ok 0x4C0 0
    ∧ isPoisoned s 0x480 = false ∧ s.cur.accs = [] ∧ cardField (qCardOf s) 192 64 % 32 = 0 ∧ qcardOk (qCardOf s) = true
    ∧ (claimTag s.settled 0 1 (.tag 3)).isSome = true ∧ acceptedJobs s 0 = 0
    ∧ captured s.settled (newQJob s true 0 s.found 0x10480 0x10400 0x10420 0x10440 (qCardOf s)) (qCardOf s) = true := by decide +kernel
theorem witness_QuadtreeInstructions_waiting : let s := qState { slot0 with card := some qCardBits }
    s.cur.card = some qCardBits ∧ (claimTag (tagState 8 0).settled 0 1 (.tag 3)).isSome = false
    ∧ 16 ≤ acceptedJobs { s with qjobs := List.replicate 16 qJob } 0
    ∧ captured s.settled (newQJob s true 0 s.found 0x10480 0x10400 0x10420 0x10440 qCardBits) qCardBits = true := by decide +kernel
theorem witness_QuadtreeInstructions_control : let s := qRun qJob
    qjobAt s 0 0x10480 1 = some qJob ∧ qJob.cancelled = false ∧ canIssue s [xr 5, xr 6] [xr 9] = true
    ∧ qjobAt s 0 0x10400 1 = none ∧ (0x10900 : Nat) % 128 = 0 ∧ qJob.nplimit ≤ 0x10900 := by decide +kernel
theorem witness_QuadtreeInstructions_resume : let j := { qJob with state := 3, scause := 1, leaves := [] }
    qjobAt (qRun j) 0 0x10480 1 = some j ∧ j.scause ≠ 4 ∧ poolsOk (qCardOf (qRun j)) = true
    ∧ (claimTag (qRun j).settled 0 1 j.signal).isSome = true := by decide +kernel
/-- The eight byte addresses of the card that QSTAT reads. -/
theorem witness_QuadtreeInstructions_stat : let s := qState slot0
    (∀ k, k < 8 → s.trans (0x10480 + 116 + BitVec.ofNat 64 k) .read
      = .ok ((((List.range 8).map fun k => (0x4F4 + k, 0)).getD k (0, 0)).1) ((((List.range 8).map fun k => (0x4F4 + k, 0)).getD k (0, 0)).2))
    ∧ qjobAt s 0 0x10480 1 = none := by decide +kernel

theorem witness_SendsAreBuffered : let s := stDX [(1, 1), (4, 0x10100)] []
    canIssue s ([xr 1] ++ [vr 4, vr 5, vr 6, vr 7]) [] = true ∧ (getActor s s.cur.launch 1).map (fun x => (x.place, x.accepts 0 4)) = some (.core, true)
    ∧ (cachedNode s s.curCore s.cur.launch 1).isSome = true ∧ (cachedNode (stX []) 0 1 1).isSome = false ∧ ¬64 ≤ s.cur.sends.length
    ∧ groupOk s 5 true false 0 = true ∧ groupOk s 0 true false 0 = false ∧ s.trans 0x10140 .write = .ok 0x140 0
    ∧ gate s.curCore s.found (gating .rlx s.cur.oscope true false) = none ∧ canIssue s [xr 1, xr 4] [] = true := by decide +kernel
/-- A full buffer; an operand that names no endpoint. -/
def fullSlot : Slot := { slot0 with sends := List.replicate 64 (.mdrop 0) }
theorem witness_SendsAreBuffered_full : 64 ≤ (st fullSlot).cur.sends.length ∧ canIssue (st fullSlot) ([xr 1] ++ [vr 4]) [] = true
    ∧ getActor (st fullSlot) 1 2 = none := by decide +kernel
theorem witness_HandlerTableAndMasks : let s := stX [(1, 0), (2, 0x0000000400000105)]
    getActor s s.cur.launch s.cur.actor = some actor1 ∧ actor1.name = s.cur.actor ∧ (actor1.chan 0).map (·.num) = some 0 ∧ actor1.chan 15 = none
    ∧ canIssue s [xr 1, xr 2] [] = true ∧ (0x0000000400000105 : Word).getLsbD 11 = false ∧ canIssue s [xr 1] [xr 9] = true
    ∧ s.trans (entryAddress s 1 4) .fetch = .ok 0x10 0 ∧ s.trans (entryAddress s 1 0x4000) .fetch = .bad
    ∧ s.trans (entryAddress s 1 0x10000) .fetch = .miss ∧ (2 ^ 7 ≤ (128 : Word).toNat ∧ (127 : Word).toNat < 2 ^ 7) := by
  decide +kernel
theorem witness_ChannelReads : let s := st { (withX slot0 [(1, 16)]) with held := [⟨0, ⟨0, [7, 8], 0, 0, 0, 0, false⟩, 0, true⟩] }
    popWord (st slot0).settled 0 0 0 = none ∧ canIssue (st slot0) ([vr 2, vr 3] ++ maskSrc 1) [vr 3] = true ∧ canIssue (st slot0) ([vr 2] ++ maskSrc 1) [kr 3] = true
    ∧ canIssue (st slot0) ([vr 2] ++ [kr 1, vr 3, vr 4]) [vr 3, vr 4, vr 5] = true
    ∧ popPoint s s.found 0 = some ([7, 8], 0) ∧ popPoint s s.found 1 = none ∧ canIssue s [xr 1] [vr 3] = true ∧ canIssue s [xr 1] [] = true
    ∧ s.cur.sends.length < 64 ∧ s.cur.inDebug = false ∧ s.cur.oneStep = false ∧ 64 ≤ (st fullSlot).cur.sends.length := by decide +kernel
theorem witness_GroupsAndCollectives : let s := grouped [1] (withX slot0 [(1, 5), (2, 6)])
    canIssue s [xr 1] [xr 3] = true ∧ canIssue s [xr 1, vr 2] [] = true ∧ groupOk s 5 false false 0 = true ∧ groupOk s 6 true true 9 = true
    ∧ groupOk s 0 true true 9 = false ∧ coreNode 5 = s.node ∧ coreNode 6 ≠ s.node
    ∧ (performGroup (s.setCur s.found) 1 5 (.query 1)).2.code = 0 ∧ (performGroup (s.setCur s.found) 1 5 (.join 1)).2.code ≠ 0 := by decide +kernel
theorem witness_GroupsAndCollectives_home : let s := grouped [2] slot0
    let a : Actor := { actor1 with core := 5 }
    getActor s 1 1 = some a ∧ a.name = 1 ∧ a.groups.length < 16 ∧ (getCore s 5).groups.length < 256
    ∧ getGroup (grouped [] slot0) 5 1 = none ∧ getGroup s 5 1 = some ⟨1, 5, [2], 0, none, []⟩ ∧ (1 : Nat) ∉ [2]
    ∧ getGroup (grouped [1] slot0) 5 1 = some ⟨1, 5, [1], 0, none, []⟩ := by decide +kernel
theorem witness_GroupsAndCollectives_epoch : let g : GroupRec := ⟨1, 5, [1, 2], 0, some .gbar, [⟨1, false, 0, 0, 0, true⟩]⟩
    let s : State := { grouped [1] slot0 with cores := [{ core0 slot0 with id := 5, groups := [g] }] }
    let x (n : Nat) (r m : Bool) (w : Vec) : Arrival := ⟨n, r, 0, 0, w, m⟩
    groupHome 5 = 5 ∧ getGroup s 5 1 = some g ∧ (∃ k, g.kind = some k ∧ k ≠ .xbcast) ∧ (g.kind = none ∨ g.kind = some .gbar)
    ∧ (∀ n ∈ [1, 2], ∃ a ∈ [x 2 false true 0, x 1 false true 0], a.name = n ∧ a.member = true)
    ∧ (∃ n ∈ g.members, ∀ a ∈ g.arrivals, a.name ≠ n)
    ∧ (completionWord 5 { g with kind := some .xbcast }).isSome = false
    ∧ [x 2 true true 7, x 1 false true 0].filter (·.root) = [x 2 true true 7]
    ∧ addressOf { s with launches := [launch1] } 5 1 1 = some 0 ∧ 0 ≠ coreNode 5 := by decide +kernel
theorem witness_GroupsAndCollectives_order : let x (n : Nat) (w : Vec) : Arrival := ⟨n, false, 0, 0, w, true⟩
    [x 9 5, x 2 7].Perm (x 2 7 :: [x 9 5]) ∧ (x 2 7 :: [x 9 5]).Pairwise (fun x y => x.name < y.name) := by
  intro x; exact ⟨.swap .., by decide⟩
theorem witness_TaskQueues : let s := tasksState [⟨[7, 8], 0, 0, 0, 0, false⟩] (withX slot0 [(1, 0x102), (2, 3)])
    getLaunch s s.cur.launch = some launch1 ∧ (30 : BitVec 5).toNat + launch1.words ≤ 32 ∧ 32 < (31 : BitVec 5).toNat + launch1.words
    ∧ canIssue s [xr 1] [] = true ∧ canIssue s [vr 30, vr 31] [] = true ∧ (0x102 : Word).toNat % 4 = 2 ∧ (3 : Word).toNat % 4 = 3
    ∧ canIssue s [] [xr 9] = true ∧ s.cur.popped.length < 64 ∧ (getResident s 0 1).tasks = [⟨[7, 8], 0, 0, 0, 0, false⟩] := by decide +kernel
theorem witness_TaskQueues_empty : (getResident (st slot0) 0 1).tasks = [] ∧ drawable (st slot0) 0 1 = false
    ∧ drawable { st slot0 with clusters := [⟨0, pages, [(1, [⟨[7, 8], 0, 0, 0, 0, false⟩])], []⟩] } 0 1 = true := by decide +kernel
theorem witness_TaskControl : let s := { stX [(1, 0x10100), (2, 3), (3, 0x100000000), (4, 0x20100)] with mem := [(0x105, 2)] }
    (3 : Word).toNat < 2 ^ 32 ∧ 2 ^ 32 ≤ (0x100000000 : Word).toNat ∧ canIssue s [xr 1, xr 2] [] = true
    ∧ ungated s (gating .rel .module true true) = true ∧ ungated s (gating .acq .module true false) = true ∧ s.trans 0x10100 .write = .ok 0x100 0
    ∧ homeOf 0x100 = s.node ∧ s.trans 0x20100 .write = .ok 0x80100 0 ∧ homeOf 0x80100 ≠ s.node
    ∧ tcbState (BitVec.ofNat 512 (memRead s.mem 0x100 64)) = 2 ∧ tcbState (BitVec.ofNat 512 (memRead s.mem 0x140 64)) = 0 := by decide +kernel
/-- A released block at 0x10100, an idle one at 0x10140: TDONE takes the first, TARM the second, and neither the other. -/
theorem witness_TaskControl_states : let s := { stX [(1, 0x10100), (2, 3), (5, 0x10140)] with mem := [(0x105, 2)] }
    let good (pa : Nat) : Bool := let t := BitVec.ofNat 512 (memRead s.mem (pa / 64 * 64) 64)
      (tcbState t == 0 || tcbState t == 3) && decide (tcbLevel t < 3) && decide (tcbNsucc t ≤ 4096) && tcbSucc t % 8 == 0
    canIssue s [xr 5, xr 2] [] = true ∧ canIssue s [xr 1] [] = true ∧ s.trans 0x10140 .write = .ok 0x140 0 ∧ homeOf 0x140 = s.node
    ∧ isPoisoned s 0x140 = false ∧ isPoisoned s 0x100 = false ∧ good 0x140 = true ∧ good 0x100 = false
    ∧ canIssue (st fullSlot) [xr 1, xr 0] [] = true ∧ 64 ≤ (st fullSlot).cur.sends.length := by decide +kernel
/-- Queue 3 is the context's, queue 4 is not. -/
theorem witness_ActorAndEgressInstructions : let s := egState (withX slot0 [(1, 3), (2, 4), (5, 0x10100)])
    canIssue s [] [] = true ∧ canIssue s ([xr 1] ++ [vr 3]) [] = true ∧ ((3 : Word).toNat / 64 % 4 = 0 ∧ (getEgress s 3).owner = s.cur.ctx)
    ∧ (getEgress s 4).owner ≠ s.cur.ctx ∧ canIssue s [xr 5] [xr 9] = true ∧ ungated s (gating .rlx s.cur.oscope true false) = true
    ∧ s.trans 0x10100 .read = .ok 0x100 0 ∧ homeOf 0x100 = s.node ∧ isPoisoned s 0x100 = false := by decide +kernel
/-- An image at 0x40000400 of one actor (entry at 0x40000440, name 7, core 0, a state region at 0x14000, no rows) with channel 0
(entry at 0x40000480, OFFSET 4, EN, priority 2), and its descriptor at 0x40000500. The GB at 0x40000000 is in LPDDR, page
0x14000 in the slice of core 0; the tables of the levels are one. -/
def imageMem : List Host.Cell :=
  bytesAt 0x010000000000 8 0x0000010000000001 ++ bytesAt 0x010000000008 8 0x000001004000000F ++ bytesAt 0x010000000028 8 0x0F
  ++ bytesAt 0x010040000400 64 (1 * 2 ^ 32 + 1 * 2 ^ 64 + 0x40000000 * 2 ^ 128 + 0x40000480 * 2 ^ 384 + 0x40000440 * 2 ^ 448)
  ++ bytesAt 0x010040000440 64 (7 + 0x14000 * 2 ^ 64 + 64 * 2 ^ 128 + 64 * 2 ^ 160 + 1 * 2 ^ 256)
  ++ bytesAt 0x010040000480 8 (4 * 2 ^ 32 + 2 ^ 8 + 2)
  ++ bytesAt 0x010040000500 64 (16 * 2 ^ 192 + 1 * 2 ^ 216 + 1000 * 2 ^ 224 + 0x40000400 * 2 ^ 384 + 0x40000600 * 2 ^ 448)
def imageState : State := { st Slot.reset with
  mem := imageMem, contexts := [{ tableContext with queues := [(0, [0x40000500])] }], launches := [] }
/-- The launch of the image holds its core, and starts in steps: installed, its LID written, no list, no seed, LSTATE 2. -/
def startedImage (i : Instr) : Option State := after (exec i imageState)
/-- n steps of the launch start. -/
noncomputable def startSteps (s : State) : Nat → Option State
  | 0 => some s
  | n + 1 => (after (exec (.evLaunchStart 1 0) s)).bind fun t => startSteps t n
theorem test_launch_of_an_image : ((startedImage (.evLaunchStart 1 0)).map fun t => t.launches.map fun l =>
    (l.id, l.step, l.todo, l.tb)) = some [(2, 4, [0], 0x40000000)]
  ∧ ((startedImage (.evLaunchStart 1 0)).map fun t => t.launches.map fun l => (l.phase, l.actors.map fun a => (a.name, a.place)))
    = some [(.running, [(7, .core)])] := by decide +kernel
theorem test_launch_of_an_image_record : ((startSteps imageState 5).map fun t => (t.launches.map (·.step), memRead t.mem 0x010040000508 1,
    memRead t.mem 0x010040000504 4)) = some ([9], 2, 2) := by decide +kernel
/-- LAUNCH_START of a descriptor that is no multiple of 64 ends the launch with cause 0x0A; a waiting launch claims its core. -/
def badState : State := { withTables Slot.reset [] with
  contexts := [{ tableContext with queues := [(0, [0x10501])] }], launches := [] }
theorem test_launch_of_a_bad_descriptor : ((after (exec (.evLaunchStart 1 0) badState)).map fun t => t.launches.map fun l =>
    (l.id, l.phase)) = some [(2, .ending)] := by decide +kernel
theorem test_launch_of_a_bad_descriptor_fault : ((after (exec (.evLaunchStart 1 0) badState)).map fun t => t.launches.map fun l =>
    l.fault.map fun f => [f.cause, f.origin, f.tval.toNat]) = some [some [0x0A, 5, 0x10501]] := by decide +kernel
def waitingState : State :=  stWith { launch1 with phase := .waiting, actors := [{ actor1 with place := .unclaimed }] } Slot.reset
theorem test_launch_claims : ((after (exec (.evLaunchStart 1 0) waitingState)).map fun t =>
    t.launches.map fun l => (l.phase, l.actors.map fun a => a.place)) = some [(.running, [.core])] := by decide +kernel
/-- ACTNEW from a record in the own slice: name 2, core 0, a state region at 0x13000, the channels of actor 1; a second one of
the name gives 1. -/
def newState (name : Nat) : State := withTables (withX slot0 [(1, 0x10100)])
  (bytesAt 0x100 64 (name + 0x13000 * 2 ^ 64 + 64 * 2 ^ 128 + 64 * 2 ^ 160 + 1 * 2 ^ 224))
theorem test_actnew : xAfter (.actnew 1 9) (newState 2) 9 = some 0 ∧ xAfter (.actnew 1 9) (newState 1) 9 = some 1
  ∧ ((after (exec (.actnew 1 9) (newState 2))).map fun t => t.launches.map fun l => l.actors.map (·.name)) = some [[1, 2]] := by decide +kernel

theorem witness_TrapEntry : (getSlot (st slot0) 0 0).inDebug = false ∧ (getSlot (sysState true true) 0 0).inDebug = true := by decide +kernel
def handlerState (q : List Msg) : State := stWith (launchQ q) Slot.reset
def chosen (s : State) : Option (Nat × Nat × Nat × Bool) := match select s 0 with | .handler x => some (x.launch, x.name, x.chan, x.task) | _ => none
theorem witness_ActivationEntry : let s := handlerState [msg 9]
    clocksRun s = true ∧ (getSlot s 0 1).status = .free ∧ s.power.moving ≠ some .toP2 ∧ chosen s = some (1, 1, 0, false)
    ∧ getLaunch s 1 = some (launchQ [msg 9]) ∧ (msg 9).bad = false ∧ (launchQ [msg 9]).actor 1 = (launchQ [msg 9]).actors.head?
    ∧ chosen (tasksState [⟨[7, 8], 0, 0, 0, 0, false⟩] Slot.reset) = some (1, 1, 1, true)
    ∧ (getResident (tasksState [⟨[7, 8], 0, 0, 0, 0, false⟩] Slot.reset) 0 1).tasks = [⟨[7, 8], 0, 0, 0, 0, false⟩]
    ∧ select (st Slot.reset) 0 = .nothing := by decide +kernel
/-- R342: a dispatch that meets an uncorrectable error in its message reports it, ORIGIN 6, and starts nothing. -/
theorem test_dispatch_of_a_lost_message : (after (exec (.evDispatch 0 0) (handlerState [{ msg 9 with bad := true }]))).map (fun t =>
      ((getSlot t 0 0).status, t.reports.map fun r => (r.cause, r.origin, r.launch))) = some (.free, [(4, 6, 1)]) := by decide +kernel
/-- A leaf task that waits on core 0. -/
def leafState : State := let s := qRun qJob
  { s with cores := s.cores.map fun k => { k with leaves := [(5, [])], slots := Vector.replicate 4 Slot.reset } }
theorem witness_ActivationEntry_leaf : select leafState 0 = .leaf 5 [] ∧ leafReady leafState 0 = some (5, []) := by decide +kernel
/-- A leaf that was given to a core and has no data yet. -/
theorem witness_ActivationEntry_allocates : let q := { qJob with leaves := [], assigned := [[]] }
    let s : State := { leafState with qjobs := [q] }
    select s 0 = .leaf 5 [] ∧ q.leafAt [] = none
    ∧ (match qRoot q with
        | .ok r => ((getQJob (allocLeaf s q r []) 5).bind fun y => y.leafAt []).isSome
        | _ => false) = true := by decide +kernel
theorem witness_SelectionOrder : let s := handlerState [msg 9]
    let cs := candidates s 0
    bestOf cs = some ⟨1, 1, 0, false, 2, 1⟩ ∧ ⟨1, 1, 0, false, 2, 1⟩ ∈ cs ∧ leafReady s 0 = none ∧ bestOf (candidates (st slot0) 0) = none
    ∧ leafReady leafState 0 = some (5, []) ∧ bestOf (candidates leafState 0) = none := by decide +kernel
def hendState (sends : List SendEntry) : State := st { slot0 with status := .hend, sends := sends }
theorem witness_CommitsInOrder : let s := hendState [.qpush 0 0 false [7, 8]]
    clocksRun s = true ∧ (getSlot s 0 0).status = .hend ∧ getLaunch s 1 = some launch1 ∧ launch1.phase = .running
    ∧ (getSlot s 0 0).accs = [] ∧ (getSlot s 0 0).mats = [] ∧ (getSlot s 0 0).actend = false ∧ (getSlot s 0 0).oneStep = false
    ∧ (getSlot (hendState []) 0 0).sends = [] ∧ (gated true []).cur.accs ≠ [] := by decide +kernel
theorem witness_CommitsInOrder_entries : let s := { stWith { launch1 with closed := [0] } slot0 with
      cores := [{ core0 slot0 with dir := [⟨1, 2, 3⟩] }] }
    addressOf s 0 1 2 = some 3 ∧ 3 ≠ coreNode 0 ∧ homeOf 0x80140 ≠ coreNode 0 ∧ groupHome 5 ≠ 0 ∧ dieOf 0 ∈ [0]
    ∧ egressCount (getEgress s (egQueue 3)) + postsInFlight s (egQueue 3) < 4096 := by decide +kernel
/-- An own-core send of actor 1 to itself; one that waits behind a parked
message, and one past a stub. -/
theorem witness_CommitsInOrder_own : let s := { hendState [.send 1 0 3 [7, 8, 0, 0]] with cores := [{ core0 slot0 with dir := [⟨1, 1, 0⟩] }] }
    let m : Msg := ⟨3, [7, 8, 0, 0], 0, 0, 0, 0, false⟩
    let end_ (s : State) : Nat := match performMsg s 0 1 1 0 m with | .done _ => 0 | .defer _ => 1 | .forward _ => 2
    let moved (core : Nat) (place : Place) (box : List (Nat × Msg)) : State :=
      { s with launches := [{ launch1 with actors := [{ actor1 with core := core, place := place, stubs := [0], box := box }] }] }
    addressOf s 0 1 1 = some (coreNode 0) ∧ postWaits (getCore s 0).posts 1 1 = false ∧ end_ s = 0
    ∧ end_ (moved 0 .core [(0, m)]) = 1 ∧ end_ (moved 1 .core []) = 2
    ∧ groupHome 0x1000 = 0x1000 ∧ groupHome 0 = 0 ∧ queuesQuiet s 0 = true := by decide +kernel
theorem witness_CommitsInOrder_tasks : let s := { hendState [.tdone 0x10100] with mem := [(0x105, 2)] }
    (getSlot s 0 0).commit = .idle ∧ translate s 0 1 0x10100 .write = .ok 0x100 0 ∧ homeOf 0x100 = coreNode 0 ∧ isPoisoned s 0x100 = false
    ∧ coreTasks (getCore s 0) < 64 ∧ dieOf 0 ∉ launch1.closed ∧ (enterLevel s 0 1 1 ⟨[7, 8], 0, 0, 0, 0, false⟩).isSome = true
    ∧ 4096 ≤ egressCount (getEgress { s with egress := [⟨3, 1, 0, 0, List.replicate 4096 ⟨1, 0, 0, 0⟩, [], [], 0⟩] } 3) := by decide +kernel
theorem witness_SlotEvents : let b := st { slot0 with budget := 0 }
    getLaunch b 1 = some launch1 ∧ (clocksRun b = true ∧ countsBudget (getSlot b 0 0) = true ∧ (getSlot b 0 0).budget = 0)
    ∧ (⟨.core, 0⟩ : Seqr) ∉ b.tokens ∧ getActor b 1 1 = some actor1 ∧ (getSlot b 0 0).oneStep = false ∧ b.cur.status = .running
    ∧ (getSlot (st { slot0 with status := .token ⟨.core, 0⟩ }) 0 0).status = .token ⟨.core, 0⟩
    ∧ (getSlot (st { slot0 with status := .lookup 1 }) 0 0).status = .lookup 1 := by decide +kernel
theorem witness_SlotEvents_results : let s := st { slot0 with locals := [⟨[(vr 31, 9)], 1, true⟩], mats := [⟨1, 0, .mzero 0 1, 0, []⟩] }
    (getSlot s 0 0).locals[0]? = some ⟨[(vr 31, 9)], 1, true⟩ ∧ (getSlot s 0 0).mats = [⟨1, 0, .mzero 0 1, 0, []⟩] ∧ (31 : Nat) < 32 := by decide +kernel
theorem witness_SlotEvents_post : let x := getSlot (st { slot0 with status := .hend, waited := 2 ^ 24, sends := [.egr .post 3 7] }) 0 0
    x.status = .hend ∧ 2 ^ 24 ≤ x.waited ∧ x.sends = .egr .post 3 7 :: [] := by decide +kernel
/-- A queued operation of an aborted activation whose blocks have arrived. -/
theorem witness_SlotEvents_late : let m : LateMat := ⟨1, 1, ⟨4, 0, .mzero 4 2, 0, []⟩, []⟩
    let s : State := { st slot0 with cores := [{ core0 slot0 with rows := [(4, 7)], late := [m] }] }
    (getCore s 0).late = [] ++ m :: [] ∧ m.accs = [] ∧ getActor s m.launch m.actor = some actor1
    ∧ (∀ r ∈ m.op.rowsRead, r ∉ (getCore s 0).badRows) ∧ actor1.owns 4 = true ∧ rowValue (landMat (getCore s 0) m.op) 4 = 0 := by decide +kernel
theorem witness_SlotEvents_post_full :
    let s : State := { st { slot0 with status := .hend, waited := 2 ^ 24, sends := [.egr .post 3 7] } with
      egress := [⟨3, 1, 0, 0, List.replicate 4096 ⟨1, 0, 0, 0⟩, [], [], 0⟩] }
    (getSlot s 0 0).accs = [] ∧ (getSlot s 0 0).mats = [] ∧ 4096 ≤ egressCount (getEgress s (egQueue 3)) + postsInFlight s (egQueue 3) := by
  decide +kernel
/-- A core whose free slot waits for tasks, with nine tasks in its cluster's queue. -/
def drawState (waits : Bool) : State :=
  let s := st (if waits then { slot0 with status := .draw 9 4 } else Slot.reset)
  { s with
    clusters := [⟨0, pages, [(1, List.replicate 9 ⟨[7, 8], 0, 0, 0, 0, false⟩)], []⟩]
    cores := s.cores.map fun k => { k with residents := [⟨1, 0, 0, 0, [], []⟩], cycle := 4096 } }
theorem witness_TaskBalancing_draw : let s := drawState false
    clocksRun s = true ∧ drawWaiters s 0 1 = [] ∧ wantsDraw s 0 1 = true ∧ (getResident s 0 1).tasks = [] ∧ drawable s 0 1 = true
    ∧ coreTasks (getCore s 0) + 8 ≤ 64 ∧ drawWaiters (drawState true) 0 1 ≠ [] := by decide +kernel
/-- Sibling 1 said depth 3; the threshold is 2 and ten tasks stand here: they move. With the threshold 0 none does. -/
def receiveState (bthr : Nat) : State :=
  let s := stWith { launch1 with bthr := bthr } slot0
  { s with cores := s.cores.map fun k => { k with residents := [⟨1, 0, 0, 0, List.replicate 10 ⟨[7, 8], 0, 0, 0, 0, false⟩, [(1, 3)]⟩] } }
theorem witness_TaskBalancing_exchange : let s := receiveState 2
    ((getCore s 0).residents.map (·.launch)).Nodup ∧ ((getCore (drawState false) 0).exchanges + 1) * 4096 ≤ (getCore (drawState false) 0).cycle
    ∧ (getCore s 0).residents.find? (fun r => !r.depths.isEmpty) = some (getResident s 0 1) ∧ (getResident s 0 1).depths = [(1, 3)] ∧ (1 : Nat) ≠ 0
    ∧ 3 + 2 < (getResident s 0 1).tasks.length ∧ min 8 (64 - coreTasks (getCore s 1)) ≠ 0 := by decide +kernel
def unboundState : State := stWith { launch1 with actors := [{ actor1 with chans := [⟨0, 4, false, 1, false, true, 2, [msg 7], some 0, 0⟩] }] } Slot.reset
theorem witness_TaskBalancing_unbound : (getActor unboundState 1 1).bind (fun a => (a.chan 0).map fun c => (c.unbound, c.queue)) = some (some 0, [msg 7]) := by
  decide +kernel

/-- A packet at the expected position, after a gap, at the last position of the window and at the first outside, and a duplicate. -/
theorem witness_PacketsPerformInOrder : let p := { p10 with net := [wr 0 1, wr 1 1, wr 31 1, wr 32 1] }
    let s := pairState p
    clocksRun s = true ∧ getPair s 1 0 = p ∧ seqDist 31 p.expected < 32 ∧ ¬seqDist 32 p.expected < 32 ∧ seqDist 65535 0 = 65535
    ∧ p.net.find? (fun k => k.seq == 32 && (kindOf k.body == 0x12 || k.body.isBad)) = some (wr 32 1)
    ∧ p.net.find? (fun k => k.seq == 0 && (kindOf k.body == 0x12 || k.body.isBad)) = some (wr 0 1) ∧ p.holes = [] ∧ p.window = [] := by decide +kernel
def performs (s : State) (k : Packet) : Nat := match performPacket s (getPair s 1 0) k with | .done _ => 0 | .defer _ => 1 | .forward _ => 2 | .wait => 3
theorem witness_PacketsPerformInOrder_defer : performs (pairState { p10 with window := [wr 0 1] }) (wr 0 1) = 0
    ∧ (match performPacket (pairState { p10 with window := [wr 0 1] }) { p10 with window := [wr 0 1] } (wr 0 1) with
        | .done w => (getPair w 1 0).window == [wr 0 1] && (getPair w 1 0).expected == 0 | _ => false) = true := by decide +kernel
/-- A trimmed header; a position that waits for a forwarded copy; an answer for an access of slot 0. -/
theorem witness_PacketsPerformInOrder_trim : ({ wr 3 1 with len := 2 } : Packet).cut.trim = true ∧ (wr 3 1).trim = false
    ∧ ([⟨3, 0, none, false, true, none⟩] : List Hole).any (fun h => h.seq == 3 && h.fwd) = true := by decide +kernel
theorem witness_PacketsPerformInOrder_answer : let k := pkt 0 (.rdr ⟨0, 0, 9, none⟩ ⟨5, 0, 0, false⟩)
    performs { accState (.x 9 4 true) k.body with pairs := [{ p10 with window := [k] }] } k = 0 := by decide +kernel
/-- A message for actor 1 deferred, and one past its stub on core 0. -/
theorem witness_PacketsPerformInOrder_message : let k := pkt 0 (.msg 1 1 0 ⟨0, [1, 2, 3, 4], 7, 0, 0, 0, false⟩)
    let s (a : Actor) : State := { pairState { p10 with window := [k] } with launches := [{ launch1 with actors := [a] }] }
    performs (s { actor1 with box := [(0, msg 7)] }) k = 1 ∧ performs (s { actor1 with core := 1, stubs := [0] }) k = 2 := by decide +kernel
/-- Messages for actor 1 at its node: a mailbox with room; one that is full; an installed core and one that is not. -/
theorem witness_PacketsPerformInOrder_remote : let s := pairState p10
    isPoisoned s 0x100 = false ∧ isDram 0x100 = false ∧ Memory.wf s.mem = true ∧ (0x140 : Nat) % 64 = 0
    ∧ getLaunch s 1 = some launch1 ∧ launch1.phase = .running ∧ launch1.actor 1 = some actor1 ∧ p10.dst = actor1.node
    ∧ ((actor1.chan 0).map fun c => (c.task, c.words)) = some (false, 4) ∧ actor1.box = [] ∧ mailboxWords s 0 + 4 ≤ 256
    ∧ 256 < mailboxWords { s with launches := [launchQ (List.replicate 253 (msg 7))] } 0 + 4 ∧ actor1.core ∈ installing.todo := by decide +kernel
/-- Die queue 0 of node 0x3000's die has room; streams of queue 3 with marks 5 and 7, and posts below, between and above them. -/
theorem witness_PacketsPerformInOrder_remote_queues : let s := egState slot0
    let m : EgrStream := ⟨3, some 7, some 5⟩
    let e : Egress := { getEgress s 3 with streams := [m] }
    queueSize (getDie s 0).tasks < 16384 ∧ queueSize (getCluster s 0).tasks < 1024 ∧ (0 : Nat) ∉ launch1.closed
    ∧ e.streams.find? (fun r => r.stream == 3) = some m ∧ egressCount e < 4096 ∧ (5 : BitVec 32) ≤ 5 ∧ ¬(6 : BitVec 32) ≤ 5
    ∧ (7 : BitVec 32) ≤ 7 ∧ ¬(8 : BitVec 32) ≤ 7 ∧ egSeq 0 ≠ 0xFFFFFFFF#32 := by decide +kernel
theorem witness_PacketsPerformInOrder_remote_answers : let s := accState (.x 9 4 true) (.rdr ⟨0, 0, 9, none⟩ ⟨5, 0, 0, false⟩)
    ((getSlot s 0 0).accs.find? (fun x => x.id == 9)).map (·.dst) = some (.x 9 4 true)
    ∧ ((getSlot (accState (.v 31 1 63) (.wra ⟨0, 0, 9, none⟩ ⟨5, 0, 0, false⟩)) 0 0).accs.find? (fun x => x.id == 9)).map (·.dst)
      = some (.v 31 1 63) := by decide +kernel
theorem witness_PairTimers : let p := { p10 with out := [wr 0 1], ctl := [.ack 7], store := [⟨wr 7 1, 0, 0⟩], backoff := [(7, 999, 0)], oldest := some 900 }
    let s := pairState p
    getPair s 1 0 = p ∧ p.store.length < 32 ∧ linesUsed s 1 + 1 + 0 ≤ 1024 ∧ ¬(s.moving = true ∧ nodeModule 1 ≠ nodeModule 0)
    ∧ (∀ x ∈ p.store, (7 + 2 ^ 16 - x.pkt.seq) % 2 ^ 16 < 2 ^ 15 → x.pkt.orig = none) ∧ p.store.find? (fun y => y.pkt.seq == 7) = some ⟨wr 7 1, 0, 0⟩
    ∧ 0 + (fcfg s 1).rto * 1024 ≤ 65536 ∧ 999 ≤ s.netClock ∧ 900 + 64 ≤ s.netClock := by decide +kernel
theorem witness_PairTimers_holes : let p := { p10 with net := [{ wr 3 1 with len := 2 }], holes := [⟨5, 0, none, false, false, none⟩] }
    let s := pairState p
    (wr 3 1).body ≠ .msg 1 1 0 (msg 7) ∧ (∃ k ∈ p.net, k.seq = 3 ∧ k.len ≠ 0) ∧ seqDist 3 p.expected < 32 ∧ (∀ k ∈ p.window, k.seq ≠ 3)
    ∧ (∀ h ∈ p.holes, h.seq ≠ 3) ∧ p.holes.find? (fun x => x.seq == 5) = some ⟨5, 0, none, false, false, none⟩
    ∧ (⟨5, 0, none, false, false, none⟩ : Hole).askable s.netClock = true ∧ 0 < yoTokens s 0 := by decide +kernel
theorem witness_PairTimers_message : let k := pkt 7 (.msg 1 1 0 (msg 7))
    let s (core : Nat) : State := { pairState { p10 with store := [⟨k, 0, 0⟩], backoff := [(7, 999, 0)] } with
      launches := [{ launch1 with actors := [{ actor1 with core := core }] }] }
    (getPair (s 0) 1 0).store.find? (fun y => y.pkt.seq == 7) = some ⟨k, 0, 0⟩ ∧ ((getActor (s 0) 1 1).map Actor.node) = some 0
    ∧ ((getActor (s 2) 1 1).map Actor.node) = some 2 ∧ isFor 1 1 k = true
    ∧ (trimPorts (s 0) k 1 0)[0]?.isSome = true := by decide +kernel
theorem witness_LinksAndRegisters : (0 : Nat) < 12 ∧ (11 : Nat) < 12 ∧ (2 : Nat) ∉ (st slot0).linksDown ∧ (3 : Nat) < 4 ∧ (63 : Nat) < 64
    ∧ (2 - (getEgress (egState slot0) 3).chead).toNat = 2 ∧ ¬(2 - (getEgress (egState slot0) 3).chead).toNat ≤ ((getEgress (egState slot0) 3).pres - (getEgress (egState slot0) 3).chead).toNat
    ∧ (0x8010 : Nat) ≠ 0x8000 := by decide +kernel
theorem witness_LinksAndRegisters_links : let s : State := { st slot0 with linkFails := [(2, 16), (3, 15)] }
    (107 : Nat) < 108 ∧ (107 : Nat) ∉ s.linksDown ∧ s.linkFails.find? (fun p => p.1 == 2) = some (2, 16) ∧ s.power.trip = false
    ∧ managed s = true ∧ ((getEgress { s with egress := [⟨3, 1, 4095, 0, [], [⟨1, 3, 9, 7⟩], [], 0⟩] } 3).ring[0]?) = some ⟨1, 3, 9, 7⟩
    ∧ windowByte { s with egress := [⟨3, 1, 4095, 0, [], [⟨1, 3, 9, 7⟩], [], 0⟩] } (0x100000 + 0x80000 * 3 + 128 * 4095 + 64) = 9 := by
  decide +kernel
def walkState (va : Word) (kind : AccessKind) (paged : Bool) : State :=
  { withTables { slot0 with status := .walk va kind true } [] with
    dies := [{ Die.reset 0 with walks := [⟨1, va.toNat / 2 ^ 14, va, kind, [0], paged, none⟩] }] }
theorem witness_TranslationEvents : let s := walkState 0x123456789C0 .read false
    let w : Walk := ⟨1, 0x123456789C0 / 2 ^ 14, 0x123456789C0, .read, [0], false, none⟩
    (getSlot (st { slot0 with status := .walk 0x40000 .read false }) 0 0).status = .walk 0x40000 .read false ∧ clocksRun s = true
    ∧ (getDie s 0).walks[0]? = some w ∧ walkWaiters s w = [(0, 0, 0x123456789C0, .read)] ∧ copyWaiters s w = [] ∧ quadWaiters s w = []
    ∧ walkEnd s w = .leaf ⟨1, 0x12345678000, 2 ^ 14, 0x28C000, true, true, false, 0⟩
    ∧ isSram 0x28C000 = true ∧ frameHeld s (frameOf 0x28C000).1 1 (frameOf 0x28C000).2 = false
    ∧ savedAt s 1 (frameBase (frameOf 0x28C000).1 (frameOf 0x28C000).2) = none := by decide +kernel
/-- The walk of 11 R266: before its level 3 entry, at its leaf, at an address without an entry and at one that is not canonical. -/
theorem witness_TranslationEvents_levels : let va : Word := 0x123456789C0
    let s := walkState va .read false
    let w : Walk := ⟨1, va.toNat / 2 ^ 14, va, .read, [0], false, some (3, 0x010000001000, false)⟩
    let e := memRead s.mem (0x010000001000 + 8 * (va.toNat % 2 ^ 57 / 2 ^ (21 + 9 * 2) % 512)) 8
    e % 4 = 1 ∧ (nextTable s e 4096).isSome = true ∧ w.paged = false := by decide +kernel
theorem witness_TranslationEvents_ends : let w (va : Word) : Walk := ⟨1, va.toNat / 2 ^ 14, va, .write, [0], false, none⟩
    let s := walkState 0x40000 .write false
    walkEnd s (w 0x40000) = .invalid ∧ walkEnd s (w 0x0200000000000000) = .fail ∧ (getContext s 1).map (·.valid) = some true
    ∧ (walkState 0x40000 .read true).dies.map (fun d => d.walks.map (·.paged)) = [[true]] := by decide +kernel
/-- A frame that launch 9 claimed from the context stands in the save area. -/
theorem witness_TranslationEvents_saved : let f := frameOf 0x28C000
    let s : State := { walkState 0x123456789C0 .read false with
      savedFrames := [⟨f.1, f.2, 1, List.replicate 16384 7, List.replicate 256 0, []⟩] }
    savedAt s 1 (frameBase f.1 f.2) = some 0 := by decide +kernel
/-- A copy job that waits for a walk that finds a page in DRAM. -/
theorem witness_TranslationEvents_job : let w : Walk := ⟨1, 0x10140 / 2 ^ 14, 0x10140, .write, [0], false, none⟩
    let s : State := { copyState [] [] 0 with
      copies := (copyState [] [] 0).copies.map fun j => { j with blocked := some (0x10140, .write) }
      cores := [core0 { slot0 with status := .running }], dies := [{ Die.reset 0 with walks := [w] }] }
    copyWaiters s w = [(5, 0x10140, .write)] ∧ walkWaiters s w = [] ∧ quadWaiters s w = []
    ∧ (walkEnd { imageState with contexts := [tableContext] } ⟨1, 0x40000000 / 2 ^ 14, 0x40000000, .write, [0], false, none⟩ matches .leaf _) = true
    ∧ isSram 0x010040000000 = false := by decide +kernel
theorem witness_TranslationEvents_pages : let s := st slot0
    (0x4000 : Nat) % 2 ^ 14 = 0 ∧ paModule 0x4000 = s.module ∧ isSram 0x4000 = true
    ∧ (∀ k ∈ s.clusters, ∀ e ∈ k.cache, rangesMeet e.pa e.size 0x4000 (2 ^ 14) = false) ∧ outstanding s 0x4000 (2 ^ 14) = false
    ∧ rangeUsed s 1 0x10000 1 = false ∧ (∃ k ∈ s.clusters, ∃ e ∈ k.cache, rangesMeet e.pa e.size 0 (2 ^ 14) = true)
    ∧ (isDram 0x1000000000 = true ∧ isDram (0x1000000000 + 2 ^ 16 - 1) = true) ∧ isDram 0x002FFFFFFFFF = true ∧ isDram 0x003000000000 = false
    ∧ managed s = true ∧ retiredBy (getDie s 0) 0 < 256 ∧ (5 : Nat) ∈ (getCore { s with cores := [{ core0 slot0 with badRows := [5] }] } 0).badRows := by
  decide +kernel
theorem witness_JobEvents : let s := copyState [(0, 0x33333333, 0)] [] 0
    (getCopy s 5).map (fun x => (x.started, x.kind, x.signal, mayStart s x.core 5)) = some (true, .cpy, .tag 3, true)
    ∧ ctxHeld s 1 = false ∧ translate s 0 1 0x10140 .write = .ok 0x140 0 ∧ translate s 0 1 0x10100 .read = .ok 0x100 0
    ∧ translate s 0 1 0x10260 .write = .ok 0x260 0 ∧ translate s 0 1 0x40000 .read = .miss ∧ translate s 0 1 0x0200000000000000 .read = .bad
    ∧ (getLaunch s 1).map (·.phase) = some .running ∧ elementSent s 5 0 false = false ∧ elementSent s 5 0 true = false := by decide +kernel
theorem witness_JobEvents_copy : let x (s : State) (f : CopyJob → Bool) : Option Bool := (getCopy s 5).map f
    x (copyState [] [] 0) (fun j => decide (0 < j.total) && !j.hasVal 0 && !j.written 0 && earlierDone (copyState [] [] 0) j 0 (homeOf 0x100)) = some true
    ∧ x (copyState [(0, 0x33333333, 0)] [] 0) (fun j => (j.value 0).isSome && j.indexed 0 && !j.written 0
        && earlierDone (copyState [(0, 0x33333333, 0)] [] 0) j 0 (homeOf 0x140)) = some true
    ∧ x (copyState [] [] 2) (·.complete) = some true ∧ isPoisoned (copyState [] [] 0) 0x140 = false ∧ isDram 0x140 = false := by decide +kernel
/-- A gather that waits for its first index entry. -/
theorem witness_JobEvents_gather : let s : State := { copyState [] [] 0 with
      copies := (copyState [] [] 0).copies.map fun j => { j with kind := .gath, card := parseCard gathCard } }
    (getCopy s 5).map (fun j => (decide (0 < j.card.nidx), j.entry 0, translate s 0 1 (j.card.idx + 0) .read)) = some (true, none, .ok 0x300 0) := by
  decide +kernel
def commitsLeaf (s : State) (j : QJob) : Bool := match leafOut s j [] 0 with
  | .ok (l, bs) => bs.isEmpty && (match commitLeaf s j [] 0 l with | .ok _ => true | _ => false)
  | _ => false
theorem witness_JobEvents_quadtree : let s := qRun qJob
    getCopy s 5 = none ∧ getQJob s 5 = some qJob ∧ ctxHeld s qJob.ctx = false ∧ qJob.leafAt [] = some 0 ∧ leafWaits s qJob [] = false
    ∧ leafRuns s qJob [] = true ∧ qJob.state = 1 ∧ qJob.cancelled = false ∧ commitsLeaf s qJob = true := by decide +kernel
theorem witness_JobEvents_suspend : let j := { qJob with suspend := 1, leaves := [] }
    let fs := framesOf j 2 []
    j.done [] = false ∧ j.leaves = [] ∧ j.wait = none ∧ jobInFlight (qRun j) 5 = false
    ∧ (match writeFrames (qRun j) j 1 fs with
        | .ok u => match writeSuspended u { j with state := 3, scause := 1, depth := fs.length, suspend := 0, cache := [], assigned := [] } with
          | .ok _ => true
          | _ => false
        | _ => false) = true := by decide +kernel
def qOk {α β : Type} (x : Except α β) : Option β := match x with | .ok v => some v | .error _ => none
/-- A job that a pre-emption suspended; one that is complete, and one that was cancelled. -/
theorem witness_JobEvents_resumed : let j := { qJob with state := 3, scause := 4, leaves := [] }
    ctxRuns (qRun j) 1 = true ∧ j.wait = none ∧ j.cancelled = false
    ∧ ((qOk (Machine.qCardBits (qRun j) j)).bind fun c => qOk (resumeQJob (qRun j) j c)).isSome = true := by decide +kernel
theorem witness_JobEvents_complete : let j := { qJob with committed := [[]], leaves := [], nleaves := 1 }
    let c := { qJob with cancelled := true, leaves := [] }
    j.ended = true ∧ c.ended = true ∧ j.card.notify = false
    ∧ ((qOk (writePools (qRun j) j)).bind fun u => (qOk (qCard u j 120 1 4)).bind fun v => qOk (qCard v j 116 2 1)).isSome = true
    ∧ ((qOk ((openRecords c).foldlM (fun s va => qWriteRec s c va poisonRecord) (qRun c))).bind fun u => qOk (qCard u c 116 5 1)).isSome
      = true := by decide +kernel
/-- A diagonal operand, whose product has a block to write ahead of its commit. -/
def diagJob : QJob := { qJob with
  leaves := [([], 0x10600)], recA := BitVec.ofNat 256 (2 + 1 * 2 ^ 8 + 1 * 2 ^ 16 + 0x10500 * 2 ^ 64 + 0x40000000 * 2 ^ 192)
  cache := [(0x10500, 0x4040000040000000, 0x10)] }
def diagState : State := let s := qRun diagJob
  { s with mem := bytesAt 0x500 8 0x4040000040000000 ++ s.mem, descs := [(0x500 / 64, 0x10)] }
theorem witness_JobEvents_staging : (stageBlock diagState diagJob (dataKey 0x10600)).isSome = true
    ∧ findBy (·.1) (0x10480 / 64 * 64) qJob.cache = none ∧ translate (qRun qJob) 0 1 (BitVec.ofNat 64 0x10480) .read = .ok 0x480 0
    ∧ elementSent (qRun qJob) 5 0x10480 false = false := by decide +kernel
theorem witness_LaunchEvents_start : let s := imageState
    s.launches.find? (fun l => l.ctx == 1 && l.queue == 0 && l.phase != .ended) = none
    ∧ ((getContext s 1).bind fun c => (findBy (·.1) 0 c.queues).bind fun p => p.2.head?) = some 0x40000500 ∧ clocksRun s = true ∧ ctxRuns s 1 = true
    ∧ (0x40000500 : Word).toNat % 64 = 0 ∧ (15 : Nat) < 16 := by decide +kernel
/-- A value that was read, if it was. -/
def readOk {α : Type} (x : Read α) : Option α := match x with | .ok v => some v | .error _ => none
def descBits : Nat := (readOk (readBytes imageState 1 0x40000500 64)).getD 0
def startOf (s : State) : Launch × State :=
  let l := newLaunch s 1 0 0x40000500 descBits
  (l, setLaunch { writeLstate s l 1 with nextLid := s.nextLid + 1 } l)
theorem witness_LaunchEvents_image : (readOk (readBytes imageState 1 0x40000500 64)).isSome = true
    ∧ (match readBytes imageState 1 0x0200000000000000 64 with | .error (.unreadable va) => va == 0x0200000000000000 | _ => false) = true := by
  decide +kernel
theorem witness_LaunchEvents_descriptor : descriptorOk (startOf imageState).2 1 descBits = true
    ∧ descriptorOk (startOf imageState).2 1 (descBits + 4 * 2 ^ 216) = false := by decide +kernel
def imageParsed (a : Word) : Read Image := let u := startOf imageState
  parseImage u.2 1 u.1.ezrows a
theorem witness_LaunchEvents_lists : ((readOk (imageParsed (startOf imageState).1.image)).map fun m => (m.seeds.length, m.tasks.length, m.joins.length))
    = some (0, 0, 0) := by decide +kernel
theorem witness_LaunchEvents_actors : ((readOk (imageParsed (startOf imageState).1.image)).map fun m => m.actors.map fun a => (a.core, a.place))
    = some [(0, .unclaimed)] := by decide +kernel
theorem witness_LaunchEvents_claimable : (let u := startOf imageState
    (readOk (parseImage u.2 1 u.1.ezrows u.1.image)).map fun m => let l := { u.1 with
        tb := m.tb, actors := m.actors, words := imageWords m.actors, seeds := m.seeds, joins := m.joins, late := m.tasks }
      claimable (setLaunch u.2 l) l 0 m.actors) = some true := by decide +kernel
theorem witness_LaunchEvents_noimage : (match imageParsed 0x40000500 with | .error .bad => true | _ => false) = true
    ∧ (match imageParsed 0x0200000000000000 with | .error (.unreadable _) => true | _ => false) = true := by decide +kernel
/-- A launch whose core is to be installed, and then one with a membership, an initial task or a seed to make. -/
def startingState (l : Launch) : State := { imageState with contexts := [tableContext], launches := [l] }
theorem witness_LaunchEvents_steps : (startingState installing).launches.find? (fun l => l.ctx == 1 && l.queue == 0 && l.phase != .ended) = some installing
    ∧ installing.actors.filter (fun a => a.core == 0 && a.place == .core) = [actor1] ∧ actorOpen (startingState installing) installing actor1 = true
    ∧ (startingState installing).savedFrames = [] ∧ ctxRuns (startingState installing) 1 = true := by decide +kernel
theorem witness_LaunchEvents_words : let d : Launch := { launch1 with step := 6, desc := 0x40000500 }
    ((translateNow (startingState d) 1 0x40000500 .write).map fun p => isSram p.1) = some false
    ∧ ((translateNow (startingState d) 1 0x40000508 .write).map fun p => isSram p.1) = some false
    ∧ (performGroup (startingState d) 1 5 (.join 1)).2.code = 0 ∧ (performGroup (startingState d) 1 3 (.join 1)).2.code = 0
    ∧ (readOk (payload (startingState d) 1 0x40000500 2)).isSome = true ∧ ((actor1.chan 0).map (·.words)) = some 4 := by decide +kernel
theorem witness_LaunchEvents_late : let l := { launch1 with late := [(0x10100, 0)], words := 1 }
    let s := { withTables slot0 [] with launches := [l] }
    getLaunch s 1 = some l ∧ l.late = (0x10100, 0) :: [] ∧ l.closed.contains 0 = false ∧ (readOk (payload s 1 0x10100 (imageWords l.actors))).isSome = true
    ∧ queueSize (getDie s 0).tasks + 1 ≤ 16384 := by decide +kernel
theorem witness_LaunchEvents_end : let l := { launch1 with phase := .ending, fault := some ⟨1, 0x03, 0, 3, 0x10000, 0, 1, 0, 0, 0, 0⟩ }
    let s := stWith l Slot.reset
    (launch1.quiesce = true ∧ quiescent (stWith launch1 Slot.reset) launch1 = true) ∧ reported.reports[0]? = some ⟨1, 0x03, 0, 3, 0x10000, 0, 1, 0, 0, 0, 0⟩
    ∧ (l.phase = .ending ∧ copying s 1 = false ∧ inFlight s 1 = false) ∧ allEnded s { launch1 with actors := [] } = true ∧ l.dropped < 2 ^ 32 ∧ l.nfault < 2 ^ 16 ∧ l.endCode < 4 := by
  decide +kernel
theorem witness_ContextEvents : let s := st Slot.reset
    getContext s 1 = some context1 ∧ context1.running = true ∧ drained { s with contexts := [{ context1 with leaving := true }] } 1 = true
    ∧ getContext { s with contexts := [{ context1 with running := false }] } 1 = some { context1 with running := false } ∧ context1.valid = true
    ∧ (s.contexts.filter (·.running)).length < 64 ∧ drained (st slot0) 1 = false ∧ s.launches.filter (fun x => x.id == launch1.id) = [launch1] := by
  decide +kernel
theorem witness_ContextEvents_resume : let c := { context1 with running := false }
    let s : State := { stWith { launch1 with actors := [{ actor1 with place := .parked }] } Slot.reset with contexts := [c] }
    ((ctxLaunches s 1).foldlM (fun s l => returnLaunch s c l) s).isSome = true
    ∧ (drainOne (stWith { launch1 with actors := [{ actor1 with box := [(0, msg 7)] }] } Slot.reset) 1 { actor1 with box := [(0, msg 7)] }).isSome
      = true := by decide +kernel
theorem witness_ContextEvents_claims : (getCore claimState 0).victims.find? (fun v => v.unit == 0) = some ⟨0, 9⟩
    ∧ rowsWanted claimState 0 0 9 = true ∧ groupLeft claimState 0 0 = true ∧ clocksRun claimState = true := by decide +kernel
theorem witness_ContextEvents_frames : let s := { withTables Slot.reset [] with
      launches := [{ launch1 with phase := .waiting, actors := [{ actor1 with place := .unclaimed }] }]
      cores := [{ core0 Slot.reset with frames := [⟨0, 9⟩] }], clusters := [] }
    frameWanted s 0 0 9 = true ∧ outstanding s (frameBase 0 0) 16384 = false ∧ (getCore s 0).frames.find? (fun v => v.unit == 0) = some ⟨0, 9⟩ := by
  decide +kernel
/-- Actor 1 evicted from core 0, restored there and on core 1, where its pages do not stand. -/
theorem witness_ContextEvents_actors : let p := { actor1 with place := .parked, evicted := true }
    let l := { launch1 with actors := [p] }
    let s := stWith l Slot.reset
    actorBusy (st slot0) 1 actor1 = true ∧ actorBusy (st Slot.reset) 1 actor1 = false ∧ evictionWaits (st Slot.reset) launch1 actor1 = false
    ∧ (0 / 4096 : Nat) = actor1.core / 4096 ∧ restorable s l p 0 = true ∧ restorable s l p 1 = true
    ∧ (∀ f ∈ regionFrames s 1 p, frameHeld s 0 1 f = false) ∧ regionPieces s 1 1 p.base.toNat p.size = none := by decide +kernel
/-- Its page maps in the slice of core 1, and the restore there is possible. -/
theorem witness_ContextEvents_moved : let p := { actor1 with place := .parked, evicted := true, base := 0x20000 }
    let l := { launch1 with actors := [p] }
    let s : State := { withTables Slot.reset [] with
      launches := [l], mem := memWrite (withTables Slot.reset []).mem 0x010000004040 0x8000F 0xFF 8 }
    restorable s l p 1 = true ∧ regionPieces s 1 1 p.base.toNat p.size = some [(0x80000, 64)] ∧ pieceFrames [(0x80000, 64)] = [0]
    ∧ frameHeld s 1 1 0 = false ∧ (getCore s 1).frames = [] ∧ oldFrame s l 0 0 = none := by decide +kernel
theorem witness_DebugEvents : getLaunch (dbg haltedSl) 1 = some { launch1 with granted := true, attached := true }
    ∧ haltedSlot (dbg haltedSl) 1 1 = some (0, 0) ∧ haltedSlot (dbg slot0) 1 1 = none
    ∧ (1 ≤ ([0x00000001] : List (BitVec 32)).length ∧ (List.replicate 16 (1 : BitVec 32)).length ≤ 16) ∧ (31 : Nat) < 32 ∧ (7 : Nat) < 8 ∧ (3 : Nat) < 4
    ∧ reached { core0 slot0 with breaks := [⟨2, 0x10000, 1, 0⟩] } slot0 = some ⟨2, 0x10000, 1, 0⟩
    ∧ slot0.stall ≠ some .tagWait ∧ slot0.status = .running ∧ slot0.accs = [] ∧ slot0.locals = [] ∧ slot0.mats = [] ∧ slot0.active = false := by
  decide +kernel
theorem witness_BootEvents : let s := st slot0
    s.boot.state = .running ∧ s.boot.booted = 1 ∧ s.boot.svns.length = 3 ∧ (0x10000000 ≤ (0x1FFEFFFF : Nat) ∧ 0x1FFEFFFF + ([1] : List Byte).length ≤ 0x10000000 + 0xFFF0000)
    ∧ imageValid s.boot 1 0 1 = false ∧ (∀ e, e < 4 → (getDie s e).failed = []) ∧ ((1 : BitVec 64).toNat % 4 = 1 ∧ (2 : BitVec 64).toNat % 4 = 2) := by decide +kernel
theorem witness_PowerEvents : let s := pw { pw0 with hot := [(19, 105)] }
    s.boot.state ≠ .bootfail ∧ s.power.trip = false ∧ s.power.moving = none ∧ reading s 19 = 105 ∧ (19 : Nat) < 20 ∧ s.power.state ≠ 3
    ∧ (800 ≤ (800 : Nat) ∧ (3400 : Nat) ≤ 3400) ∧ (40 < (41 : Nat) ∧ ¬40 < (40 : Nat)) ∧ (∃ x ∈ s.power.hot, 95 ≤ x.2)
    ∧ (∀ x ∈ [(3, 94)], (x : Nat × Nat).2 < 95) := by decide +kernel
theorem witness_PowerEvents_clock : clocksRun (pw { pw0 with moving := some .toP1, goal := 500 }) = true ∧ pw0.clk ≠ 500
    ∧ clocksRun (pw { pw0 with state := 1 }) = true ∧ 275 ≤ pw0.clk ∧ (pw0.clk = pw0.goal) := by decide +kernel
theorem witness_MemoryStaysCanonical : Memory.wf sAddi.mem = true ∧ (after (step sAddi)).isSome = true ∧ Memory.wf State.reset.mem = true := by decide +kernel
/-- Ties at 2.5 and 1.5, and a value that is no NaN. -/
theorem witness_RoundingModes : (0 : Nat) < 1 ∧ roundAt 0 false 5 0 1 = (2, true) ∧ roundAt 4 false 5 0 1 = (3, true) ∧ roundAt 0 false 3 0 1 = (2, true)
    ∧ (0x7F7FFFFF : Nat) < 2 ^ (1 + fmtFP32.eb + fmtFP32.fb) ∧ (fdecode fmtFP32 0x7F7FFFFF).isNan = false ∧ (0xFBFF : Nat) < 2 ^ (1 + fmtFP16.eb + fmtFP16.fb) := by
  decide +kernel
/-- Of FP32 numbers: 1.0, a third by division, infinities, NaN of both kinds; and the terms of a fused addition that cancel. -/
theorem witness_RoundingModes_arithmetic : let f := fmtFP32
    (f.isFin 0x3F800000 ∧ f.isFin 0x80000000 ∧ f.isInf 0xFF800000 ∧ f.isNan 0x7FC00001 ∧ ¬f.isSnan 0x7FC00001 ∧ f.isSnan 0x7F800001)
    ∧ f.units 0x3F800000 + f.units 0x3F800000 ≠ 0 ∧ f.units 0x3F800000 + f.units 0xBF800000 = 0 ∧ f.units 0x3F800000 * f.units 0x40000000 ≠ 0
    ∧ (0x3F800000 : Nat) % 2 ^ 31 ≠ 0 ∧ (0x80000000 : Nat) % 2 ^ 31 = 0 ∧ f.sign 0x3F800000 = false ∧ f.sign 0xBF800000 = true := by
  simp only [FFmt.isFin, FFmt.isInf, FFmt.isNan, FFmt.isSnan]; decide +kernel
/-- The lists 1, 3 and 2, 3 of 32-bit lanes; a DX8 block of exponent 127; a NaN block. -/
theorem witness_ElementOperations : let list (v : Vec) : List Nat :=
      ((List.range 16).map fun i => v.toNat / 2 ^ (32 * i) % 2 ^ 32).takeWhile (· != 2 ^ 32 - 1)
    let x := vec 32 ([1, 3] ++ List.replicate 14 0xFFFFFFFF)
    let y := vec 32 ([2, 3] ++ List.replicate 14 0xFFFFFFFF)
    list x = [1, 3] ∧ list y = [2, 3] ∧ (mergeRun true 32 x y ⟨0, 0, false⟩ 4).1 = [(1, 0x8000), (2, 0x80), (3, 0x8181), (0xFFFFFFFF, 0)]
    ∧ (0x7F40 : Nat) / 256 % 256 ≠ 255 ∧ (0xFF40 : Nat) / 256 % 256 = 255 ∧ slot0.frm.toNat ≤ 4 := by decide +kernel
theorem witness_JumpsAndBranches_plain : ready0.cur.inDebug = false ∧ ready0.cur.oneStep = false ∧ (sysState true true).cur.inDebug = true
    ∧ canIssue (sysState true true) [xr 1] [xr 3] = true ∧ ((sysState true true).found.rx 1 + (4 : BitVec 13).signExtend 64).toNat % 4 = 0 := by decide +kernel
/-- The lowest run of two free rows, and an actor that owns every row. -/
theorem witness_Parking_lowest : let s := st { slot0 with parked := [16, 17] }
    (∀ q, q < 2 → rowFree s 0 (18 + q) = true) ∧ (∀ r, r < 18 → ¬∀ q, q < 2 → rowFree s 0 (r + q) = true) ∧ 0 + (getCore s 0).engine < 2048 := by
  decide +kernel
theorem witness_Parking_full (r : Nat) : ¬∀ q, q < 1 →
    r + q < 2048 ∧ ∀ l ∈ (stWith { launch1 with actors := [{ actor1 with zrows := 2048 }] } slot0).launches, l.id ≠ 0 → l.phase ≠ .ended →
      ∀ x ∈ l.actors, x.core = 0 → (x.place = .core ∨ x.place = .parked) → x.owns (r + q) = false := by
  intro h
  obtain ⟨lt, own⟩ := h 0 (by decide)
  have := own _ (List.mem_singleton.mpr rfl) (by decide) (by decide) _ (List.mem_singleton.mpr rfl) rfl (.inl rfl)
  simp [Actor.owns, actor1] at this
  omega
/-- A gather with the four engines of its die in use, and one whose tag was claimed before. -/
def gathSlot : Slot := { withX slot0 [(1, 0x10200)] with card := some gathCard, claimed := true }
theorem witness_CopyJobInstructions_served : let j : CopyJob := ⟨5, .gath, 0, 1, 1, 0x10200, parseCard gathCard, .tag 3, true, none, none, [], [], 0, []⟩
    let s : State := { st gathSlot with copies := List.replicate 4 j }
    canIssue s [xr 1] [] = true ∧ jobGate s.found = none ∧ s.cur.claimed = true ∧ cardOk .gath gathCard = true
    ∧ 4 ≤ (s.copies.filter fun j => j.kind != .cpy && dieOf j.core == dieOf s.curCore).length := by decide +kernel
theorem witness_QuadtreeInstructions_claimed : let s := qState { slot0 with card := some qCardBits, claimed := true }
    (takeClaim s.settled 0 0 1 (.tag 3)).isSome = true ∧ s.cur.claimed = true ∧ (qState slot0).cur.claimed = false
    ∧ s.trans 0x10420 .read = .ok 0x420 0 ∧ s.trans 0x10440 .read = .ok 0x440 0 ∧ Memory.wf s.mem = true ∧ (0x10480 : Nat) % 128 = 0
    ∧ cardField qCardBits 192 64 = 0 := by decide +kernel
/-- ACTNEW: a record, its template, and each condition of R193 in turn. -/
theorem witness_ActorAndEgressInstructions_record : let s := newState 2
    let r : Vec := BitVec.ofNat 512 (memRead s.mem 0x100 64)
    createWaits s 0 1 r = false ∧ (createActor s 0 1 r).2 = 0
    ∧ createWaits { s with frameOwner := [(0, 2)] } 0 1 r = true
    ∧ getLaunch s 1 = some launch1 ∧ launch1.actor 1 = some actor1 ∧ actor1.place = .core ∧ regionPieces s 1 0 0x13000 64 = some [(0x3000, 64)]
    ∧ s.savedFrames = [] ∧ Memory.wf s.mem = true := by decide +kernel
def newRecord (n base size stack rows : Nat) : Vec :=
  BitVec.ofNat 512 (n + base * 2 ^ 64 + size * 2 ^ 128 + stack * 2 ^ 160 + rows * 2 ^ 192 + 1 * 2 ^ 224)
theorem witness_ActorAndEgressInstructions_codes : let r := newRecord
    let s := newState 2
    let full : State := { s with launches := [{ launch1 with actors := (List.range 64).map fun n => { actor1 with name := n + 1 } }] }
    let chans : State := { s with launches := [{ launch1 with actors := [{ actor1 with chans := List.replicate 129 ⟨0, 4, false, 4, true, true, 2, [], none, 0⟩ }] }] }
    [(createActor s 0 1 (r 1 0x13000 64 64 0)).2, (createActor full 0 1 (r 99 0x13000 64 64 0)).2, (createActor chans 0 1 (r 2 0x13000 64 64 0)).2,
      (createActor s 0 1 (r 2 0x13000 64 128 0)).2, (createActor s 0 1 (r 2 0x13000 64 64 (15 + 2 * 65536))).2,
      (createActor s 0 1 (r 1 0x13000 64 64 0 ||| 2 ^ 256)).2, (createActor s 0 1 (r 2 0x13000 64 64 (16 + 2 * 65536))).2] = [1, 2, 3, 4, 5, 6, 0] := by decide +kernel
theorem witness_ActivationEntry_enabled : coreEnabled (st slot0) 0 = true
    ∧ coreEnabled { st slot0 with dies := [{ Die.reset 0 with off := [0] }] } 31 = false := by decide +kernel
theorem witness_SlotEvents_budget : countsBudget (getSlot (st slot0) 0 0) = true ∧ slot0.status = .running
    ∧ countsBudget { slot0 with status := .hendWalk 0x40000 .read true } = false := by decide +kernel
/-- A message for an actor that leaves, with the mailbox full: it parks, or waits where the parked mailbox is full. -/
theorem witness_PacketsPerformInOrder_leaving : let s (box : Nat) : State := { pairState p10 with
      launches := [launchQ (List.replicate 253 (msg 7))].map fun l => { l with actors := l.actors.map fun a =>
        { a with leaving := true, box := List.replicate box (0, { msg 7 with words := [1, 2, 3, 4] }) } } }
    256 < mailboxWords (s 1) 0 + 4 ∧ 256 < mailboxWords (s 256) 0 + 4 ∧ ¬1024 < 4 + 4 ∧ 1024 < 256 * 4 + 4
    ∧ ((launchQ []).actor 1).isSome = true := by decide +kernel
/-- The packets of a job's element accesses, which JRD and JWR find. -/
theorem witness_PacketsPerformInOrder_elements : let s := jobState (.jrd 5 0 (.read 0x100 4) 0)
    let w := jobState (.jwr 5 0 0 (.write 0x140 0x33333333 0xF) 0)
    clocksRun s = true ∧ (s.pairs.find? fun q => q.net.any (Packet.isRead 5 0) || q.window.any (Packet.isRead 5 0)).map (fun q => (q.src, q.dst)) = some (0x2000, 0)
    ∧ ((getPair s 0x2000 0).net.find? (Packet.isRead 5 0)).isSome = true ∧ ((getPair w 0x2000 0).net.find? (Packet.isWrite 5 0)).isSome = true
    ∧ (w.pairs.find? fun q => q.net.any (Packet.isWrite 5 0) || q.window.any (Packet.isWrite 5 0)).map (fun q => (q.src, q.dst)) = some (0x2000, 0)
    ∧ (jobState (.bad 0x30 0)).pairs.find? (fun q => q.net.any (Packet.isRead 5 0) || q.window.any (Packet.isRead 5 0)) = none := by decide +kernel
theorem witness_PairTimers_backoffs : let p := { p10 with backoff := [(7, 999, 0), (8, 1001, 0)], store := [⟨wr 7 1, 0, 0⟩, ⟨wr 8 1, 0, 0⟩] }
    (∀ b ∈ [((8 : Nat), (1001 : Nat))], b.1 ≠ 7 ∧ (pairState p).netClock < b.2) ∧ 999 ≤ (pairState p).netClock
    ∧ p.store.find? (fun y => y.pkt.seq == 7) = some ⟨wr 7 1, 0, 0⟩ := by decide +kernel
/-- Three modules in a ring over Thrumlinks: routes from module 0 to the two others. -/
def ringState : State := { st slot0 with modules := [0, 1, 2], domain := [⟨0, 0, 1, 3⟩, ⟨0, 1, 2, 0⟩, ⟨1, 2, 2, 5⟩] }
theorem witness_LinksAndRegisters_routes : (routesNow ringState).map (fun r => (r.dest, r.primary, r.alternate))
      = [(1, [(0, 1)], [(0, 1)]), (2, [(1, 2)], [(0, 1), (2, 2)])]
    ∧ (routesNow ringState).map (·.equal) = [[0], [1]]
    ∧ ringState.boot.state = .running ∧ ringState.power.trip = false ∧ { ringState with moving := true }.moving = true := by decide +kernel
/-- A walk that pages from its start, one that meets a lost entry, and one that a quadtree job waits for. -/
theorem witness_TranslationEvents_paged : let w : Walk := ⟨1, 0x40000 / 2 ^ 14, 0x40000, .read, [0], false, some (0, 0x010000004000, true)⟩
    let s := { walkState 0x40000 .read false with dies := [{ Die.reset 0 with walks := [w] }] }
    walkEnd s w = .invalid ∧ walkWaiters s w = [(0, 0, 0x40000, .read)] ∧ copyWaiters s w = [] ∧ quadWaiters s w = []
    ∧ walkEnd { s with poisoned := [(0x010000004000 + 8 * 16) / 64] } w = .poison (0x010000004000 + 8 * 16)
    ∧ isPoisoned s (0x010000004000 + 8 * 16) = false := by decide +kernel
theorem witness_TranslationEvents_quad : let w : Walk := ⟨1, 0x40000 / 2 ^ 14, 0x40000, .read, [0], false, some (0, 0x010000004000, true)⟩
    let q := { qJob with wait := some (0x40000, .read, .tree), leaves := [] }
    let s := { qRun q with dies := [{ Die.reset 0 with walks := [w] }] }
    walkEnd s w = .invalid ∧ walkWaiters s w = [] ∧ copyWaiters s w = [] ∧ quadWaiters s w = [(5, 0x40000, .read, .tree)]
    ∧ getQJob s 5 = some q ∧ q.asked = [] ∧ q.suspend = 0 ∧ q.state = 1 := by decide +kernel
/-- Accesses that keep a withdrawal waiting: of a slot, of an aborted activation, and a packet on its way. -/
theorem witness_TranslationEvents_used : let a : Access := ⟨9, 1, true, false, false, 0x20100, 0x10000, .x 9 4 true⟩
    let k : Packet := { wr 0 1 with via := 0x20100 }
    slot0.ctx = 1 ∧ a.byAddress = true ∧ rangesMeet (0x20100 % 2 ^ 57) 64 0x20000 0x4000 = true
    ∧ asidOf { st slot0 with cores := [{ core0 Slot.reset with late := [⟨1, 1, ⟨4, 0, .mzero 4 2, 1, []⟩, [a]⟩] }] } 1 = 1
    ∧ k.asid = 1 ∧ k.body.byAddress = true ∧ ({ p10 with net := [k], store := [⟨k, 0, 0⟩] } : Pair).undone = [k] := by decide +kernel
theorem witness_TranslationEvents_withdrawn : let s := walkState 0x40000 .read false
    rangeUsed s 1 0x40000 0x4000 = false ∧ (s.dies.flatMap (·.walks)).map (fun w => w.meets 1 0x40000 0x4000) = [true]
    ∧ (s.dies.flatMap (·.walks)).map (fun w => w.serves 0 1 0x40000) = [true] ∧ (getSlot s 0 0).status = .walk 0x40000 .read true := by decide +kernel
/-- A copy job with a fault to write to its card, the card's page at hand, absent and not writable. -/
theorem witness_JobEvents_failed : let x : CopyJob := ⟨5, .cpy, 0, 1, 1, 0x10200, parseCard cpyCard, .tag 3, true, none, some (0x40000, 3), [], [], 0, []⟩
    x.failed = some (0x40000, 3) ∧ x.blocked = none ∧ ctxHeld (st slot0) 1 = false
    ∧ translate (st slot0) 0 1 0x10260 .write = .ok 0x260 0 ∧ translate (st slot0) 0 1 0x40060 .write = .miss
    ∧ translate (st slot0) 0 1 0x0200000000000060 .write = .bad := by decide +kernel
/-- A product of an INTERNAL root of two identities on its diagonal by an identity: its root list, its list at quadrant 3, its leaf. -/
def identLg (lg : Nat) : Nat := 1 + lg * 2 ^ 16 + 0x3F800000 * 2 ^ 192
def treeJob : QJob := { qJob with
  recA := BitVec.ofNat 256 (7 + 2 * 2 ^ 16 + 0x10500 * 2 ^ 64 + 0x3F800000 * 2 ^ 192), recB := BitVec.ofNat 256 (identLg 2), leaves := []
  cache := [(0x10500, BitVec.ofNat 512 (identLg 1 + 2 ^ 272), 0),
    (0x10540, BitVec.ofNat 512 (identLg 1 * 2 ^ 256 + 2 ^ 16), 0)] }
def treeState : State := let s := qRun treeJob
  { s with mem := memWrite s.mem 0x500 (identLg 1 + identLg 1 * 2 ^ 768 + 2 ^ 272 + 2 ^ 528) (2 ^ 128 - 1) 128 }
theorem witness_JobEvents_values : let at3 := (qOk (qRoot treeJob)).bind fun r => qOk (listAt treeState treeJob [3] r.cl)
    ((qOk (qRoot treeJob)).map fun r => (r.lg, r.rows, r.cols, r.cl.length)) = some (2, 4, 4, 1) ∧ at3.map (·.length) = some 1
    ∧ ((qOk (qRoot treeJob)).bind fun r => (qOk (subList treeState treeJob 3 r.cl)).map (·.length)) = some 2
    ∧ ((at3.bind fun l => qOk (l.mapM (contribValue treeState treeJob))).map (·.length)) = some 1
    ∧ ((qOk (leafOut treeState treeJob [3] 0)).map fun o => (o.1.t, o.1.al, o.2.length)) = some (1, 0x3F800000, 0)
    ∧ treeJob.card.rfmt = 1 := by decide +kernel
/-- A leaf with data: a diagonal of two elements. -/
theorem witness_JobEvents_data :
    ((qOk (leafOut diagState diagJob [] 0x10600)).map fun o => (o.1.t, o.2.map fun b => b.va.toNat)) = some (2, [0x10600])
    ∧ ((qOk (qRoot diagJob)).bind fun r => match r.cl with
        | [.prod _ a _] => (qOk (qDiag diagState diagJob a)).map fun d => (a.t, d)
        | _ => none) = some (2, [0x40000000, 0x40400000]) := by decide +kernel
def twoCores : Launch :=
  { launch1 with step := 4, todo := [1], desc := 0x40000500, actors := [actor1, { actor1 with name := 2, core := 1 }] }
theorem witness_LaunchEvents_early : let l := twoCores
    let s := startingState l
    (launchCores l).length = 2 ∧ ((translateNow s 1 l.desc .write).map fun p => isSram p.1) = some false
    ∧ ({ l with step := 6, joins := [(5, 2)] } : Launch).uninstalled 2 = true ∧ ({ l with step := 6 } : Launch).uninstalled 1 = false
    ∧ (installCore s { l with step := 6 } 1).isSome = true := by decide +kernel
/-- A lost row of a victim group; a frame with a lost block; a frame held against a restore. -/
theorem witness_ContextEvents_lost : let s : State := { claimState with cores := claimState.cores.map fun k => { k with badRows := [3] } }
    (getCore s 0).badRows.contains 3 = true ∧ rowsWanted s 0 0 9 = true ∧ groupLeft s 0 0 = true
    ∧ isPoisoned { st Slot.reset with poisoned := [3] } (frameBase 0 0 + 64 * 3) = true
    ∧ frameHeld { st Slot.reset with frameOwner := [(32, 2)] } 1 1 0 = true := by decide +kernel
theorem witness_DebugEvents_inDebug : let s := sysState true true
    s.cur.inDebug = true ∧ canIssue s [xr 1, xr 2] [] = true ∧ canIssue s [] [xr 3] = true := by decide +kernel
theorem witness_BootEvents_off : (coreEnabled { st slot0 with dies := [{ Die.reset 0 with failed := [0] }] } 0 = true)
    ∧ clusterOf 40 % 32 ∉ (getDie { st slot0 with dies := [{ Die.reset 0 with failed := [0] }] } (dieOf 40)).failed := by decide +kernel
/-- An XF element that is too wide, one below the floor, and one that fits; a sum that overflows. -/
theorem witness_RoundingModes_xf : toXF (2 ^ 48 + 2) 0 = ⟨2 ^ 46 + 0, 2⟩ ∧ toXF 3 (-32769) = ⟨2, -32768⟩ ∧ toXF 5 7 = ⟨5, 7⟩
    ∧ toXF 1 40000 = ⟨2 ^ 47 - 1, 32767⟩ ∧ xfAdd ⟨1, 0⟩ ⟨1, 0⟩ = ⟨2 ^ 46, -45⟩ ∧ xfAdd ⟨2 ^ 47 - 1, 32767⟩ ⟨2 ^ 47 - 1, 32767⟩ = ⟨2 ^ 47 - 1, 32767⟩
    ∧ xfAdd ⟨5, 1⟩ ⟨-5, 1⟩ = ⟨0, 0⟩ ∧ xfAdd ⟨-2 ^ 47, 3⟩ ⟨1, 0⟩ = ⟨-2 ^ 47, 32767⟩ := by decide +kernel
/-- The block of R94 in DX8 with gap 2, its descriptor, the NaN block, and the value 0x3FC0 of BF16 as XF. -/
theorem test_storeBlock : let xs : List FVal := [.fin false 3 0, .fin true 3 (-2), fdecode fmtFP32 0x3C23D70A] ++ List.replicate 61 (.fin false 0 0)
    storeBlock 4 2 xs = (0x926C3C, 0x8042) ∧ storeBlock 4 2 (.inf true :: xs.drop 1) = (0, 0xFF42)
    ∧ storeBlock 2 0 ([fdecode fmtFP32 0x3F8CCCCD, .fin false (2 ^ 24 + 2) 0] ++ List.replicate 30 (.fin false 0 0)) = (0x4B803F8D, 0x20)
    ∧ loadElem 2 2 0 0x3FC0 = xfEncode ⟨192, -7⟩ ∧ loadElem 1 6 0 0x80 = 0xFFFFFF80 := by decide +kernel
/-- R331: a device bound to ASID 1 writes through the page at 0x40000000; one that is not bound has no
such move, and an address whose walk fails is recorded. -/
theorem test_device_write : let d : State := { imageState with bindings := [(5 * 2 ^ 20 + 3, 1)] }
    (deviceStore d 5 3 0x40000802 [0xAA, 0xBB]).map (fun t => memRead t.mem 0x010040000800 8) = some 0xBBAA0000
    ∧ deviceStore d 5 4 0x40000802 [0xAA] = none
    ∧ (deviceStore d 5 3 0x0200000000000000 [0xAA]).map (fun t => ((t.mem == d.mem), (getDie t 0).ring.map (·.2.code))) = some (true, []) := by decide +kernel

/-- R331: a device read through the same page gives its bytes, and nothing where the walk fails. -/
theorem test_device_read : let d : State := { imageState with bindings := [(5 * 2 ^ 20 + 3, 1)] }
    ((deviceLoad d 5 3 0x40000500 4).map (·.deviceOut)) = some (toBytes (memRead d.mem 0x010040000500 4) 4)
    ∧ deviceLoad d 5 4 0x40000500 4 = none ∧ ((deviceLoad d 5 3 0x0200000000000000 4).map (·.deviceOut)) = some [] := by decide +kernel

/-! ### Pops, sends, commits and system instructions of the later clauses -/

/-- The pop of a held message's second word, of a queued message's first, of a task's next word, and of nothing. -/
def popOf (s : State) (ch : Nat) : Option Vec := (popWord s 0 0 ch).map (·.1)
def taskSlot : Slot := { slot0 with chan := 1, htask := some (⟨[7, 8], 0, 0, 0, 0, false⟩, 1) }
theorem test_pop : popOf (st { slot0 with held := [⟨0, ⟨0, [5, 6], 0, 0, 0, 0, false⟩, 1, true⟩] }) 0 = some 6
    ∧ popOf (stWith (launchQ [msg 9, msg 4]) slot0) 0 = some 9 ∧ popOf (st taskSlot) 1 = some 8
    ∧ ((popWord (stWith (launchQ [msg 9, msg 4]) slot0) 0 0 0).map fun p => ((getSlot p.2 0 0).held.map fun h => (h.chan, h.pos),
        p.2.launches.flatMap fun l => l.actors.flatMap fun a => a.chans.map fun c => c.queue.length)) = some ([(0, 1)], [1, 0])
    ∧ popOf (st slot0) 0 = none ∧ popOf (st slot0) 15 = none := by decide +kernel
theorem witness_ChannelReads_pop : let h : Held := ⟨0, ⟨0, [5, 6], 0, 0, 0, 0, false⟩, 1, true⟩
    getActor (st slot0) slot0.launch slot0.actor = some actor1 ∧ actor1.name = slot0.actor ∧ actor1.chan 15 = none
    ∧ (actor1.chan 0).map (fun c => (c.num, c.task, c.queue.length)) = some (0, false, 0)
    ∧ (actor1.chan 1).map (fun c => (c.num, c.task)) = some (1, true)
    ∧ taskSlot.chan = 1 ∧ taskSlot.htask.map (fun t => (t.1.words[t.2]?)) = some (some 8)
    ∧ (([7, 8] : List Vec).length ≤ 2) ∧ h.chan = 0 ∧ h.msg.words[h.pos]? = some 6 ∧ ({ h with pos := 2 } : Held).msg.words.length ≤ 2
    ∧ (((launchQ [msg 9]).actor 1).bind fun a => (a.chan 0).bind fun c => c.queue.head?.bind fun m => m.words[0]?) = some 9 := by decide +kernel

/-- Addresses of SENDX and SENDR: misaligned, without permission, without a translation; with each of them fitting, a full buffer. -/
theorem witness_SendsAreBuffered_stops : let s := stDX [(1, 1), (4, 0x10100)] []
    let t := stD (withX fullSlot [(1, 1), (4, 0x10100)])
    (0x10104 : Word).toNat % 64 ≠ 0 ∧ s.trans 0x0200000000010100 .read = .bad ∧ s.trans 0x90000 .read = .miss
    ∧ (0x0200000000010100 : Word).toNat % 64 = 0 ∧ s.trans 0x10100 .read = .ok 0x100 0
    ∧ s.trans 0x0200000000010100 .write = .bad ∧ s.trans 0x90000 .write = .miss
    ∧ canIssue t [xr 1, xr 4] [] = true ∧ canIssue t ([xr 4] ++ [(⟨.v, 4⟩ : RegRef), ⟨.v, 5⟩]) [] = true ∧ 64 ≤ t.cur.sends.length
    ∧ (cachedNode t 0 1 1).isSome = true ∧ gate t.curCore t.found (gating .rlx t.cur.oscope true false) = none
    ∧ groupOk t 5 true false 0 = true := by decide +kernel
theorem test_full_buffer : let t := stD (withX fullSlot [(1, 1), (4, 0x10100)])
    trapOf (.sendx 3 0 4 1) t = some [(0x07, 0x8000000000000000)] ∧ trapOf (.sendr 0 4 4) t = some [(0x07, 0x8000000000000000)]
    ∧ trapOf (.gsend 0 0 4 1) (stX [(1, 0)]) = some [(0x10, 0)] := by decide +kernel

/-- Joins that are refused: by 16 groups of the actor, 256 records of the home, 4,096 members. -/
def homeOfFive (gs : List GroupRec) : State := { grouped [2] slot0 with cores := [{ core0 slot0 with id := 5, groups := gs }] }
theorem homeOfFive_members (ms : List Nat) : getGroup (homeOfFive [⟨1, 5, ms, 0, none, []⟩]) 5 1 = some ⟨1, 5, ms, 0, none, []⟩ := rfl
theorem witness_GroupsAndCollectives_refused : let a : Actor := { actor1 with core := 5, groups := List.range 16 }
    let few := List.replicate 256 (⟨9, 6, [], 0, none, []⟩ : GroupRec)
    16 ≤ a.groups.length ∧ getActor { grouped [2] slot0 with launches := [{ launch1 with actors := [a] }] } 1 1 = some a
    ∧ getGroup (homeOfFive few) 5 1 = none ∧ 256 ≤ (getCore (homeOfFive few) 5).groups.length
    ∧ ∃ ms : List Nat, getGroup (homeOfFive [⟨1, 5, ms, 0, none, []⟩]) 5 1 = some ⟨1, 5, ms, 0, none, []⟩ ∧ 4096 ≤ ms.length :=
  ⟨by decide, by decide +kernel, by decide +kernel, by decide +kernel, List.range 4096, homeOfFive_members _, by simp⟩
theorem witness_TaskQueues_popped : let s := st { slot0 with popped := List.replicate 64 ⟨[7, 8], 0, 0, 0, 0, false⟩ }
    64 ≤ s.cur.popped.length ∧ canIssue s [] [xr 9] = true ∧ getLaunch s 1 = some launch1 ∧ (4 : BitVec 5).toNat + launch1.words ≤ 32 := by decide +kernel
theorem test_qpop_popped : trapOf (.qpop 4 9) (st { slot0 with popped := List.replicate 64 ⟨[7, 8], 0, 0, 0, 0, false⟩ })
    = some [(0x0E, 0x8000000000000000)] := by decide +kernel

/-- HEND after ACTEND: the actor is ended; its groups hear of it, at other homes by a packet. -/
def endState (groups : List Nat) (queue : List Msg) : State :=
  let s := stWith { launch1 with actors := [{ ((launchQ queue).actors.headD actor1) with groups := groups }] } { slot0 with status := .hend, actend := true }
  { s with cores := s.cores.map fun k => { k with groups := [⟨1, 0, [1, 2], 0, none, []⟩] } }
theorem test_actend_commits : ((after (exec (.evCommit 0 0) (endState [5] [msg 9]))).map fun t => (t.launches.map fun l => (l.dropped, l.actors.map (·.place)),
      (getPair t 0 5).out.map fun k => match k.body with | .grp l o (.ended n) none => (l, o.toNat, n) | _ => (0, 0, 0)))
    = some ([(1, [.ended])], [(1, 5, 1)])
  ∧ ((after (exec (.evCommit 0 0) (endState [0] []))).map fun t => (getGroup t 0 1).map (·.members)) = some (some [2]) := by decide +kernel
theorem witness_CommitsInOrder_actend : let s := endState [5] [msg 9]
    (getSlot s 0 0).sends = [] ∧ (getSlot s 0 0).actend = true ∧ (getSlot s 0 0).oneStep = false ∧ (getActor s 1 1).isSome = true
    ∧ (0 : Nat) ∉ [5] ∧ ([5] : List Nat).Nodup ∧ ((getActor (endState [0] []) 1 1).map (·.groups)) = some [0]
    ∧ (getGroup (endState [0] []) 0 1).isSome = true := by decide +kernel
/-- An earlier message to the actor, sent to core 2, is not acknowledged: the next one to core 0 stays. -/
def strayState : State := { hendState [.send 1 0 3 [7, 8, 0, 0]] with
  cores := [{ core0 { slot0 with status := .hend, sends := [.send 1 0 3 [7, 8, 0, 0]] } with dir := [⟨1, 1, 0⟩] }]
  pairs := [{ Pair.reset 0 2 with store := [⟨pkt 0 (.msg 1 1 0 (msg 7)), 0, 0⟩] }] }
theorem witness_CommitsInOrder_astray : (∃ p ∈ strayState.pairs, p.src = 0 ∧ p.dst ≠ 0
      ∧ ∃ k ∈ p.out ++ p.store.map (·.pkt), isFor 1 1 k = true ∧ k.orig = none)
    ∧ ((after (exec (.evCommit 0 0) strayState)).map fun t => (getSlot t 0 0).sends.length) = none := by
  exact ⟨⟨_, List.mem_singleton.2 rfl, rfl, by decide, _, List.mem_singleton.2 rfl, by decide, rfl⟩, by decide +kernel⟩
/-- A collective that its own group home refuses: the report, and no entry after it. -/
def collState : State :=
  let s := hendState [.coll .gbar 0 0, .send 1 0 3 [7, 8, 0, 0]]
  { s with cores := s.cores.map fun k => { k with groups := [⟨1, 0, [2], 0, some (.xred 0), []⟩] } }
theorem test_own_group_fault : ((after (exec (.evCommit 0 0) collState)).map fun t => (t.reports.map (·.cause), (getSlot t 0 0).status))
    = some ([0x10], .free) := by decide +kernel
/-- ECALL and EBREAK whose wait for a pending write outlasts the budget. -/
theorem test_budget_in_the_wait : let s := st { slot0 with pend := [⟨xr 9, 5, 3, false⟩], budget := 2 }
    trapOf .ecall s = some [(0x05, 100)] ∧ trapOf .ebreak s = some [(0x05, 100)]
    ∧ canIssue s [] [] = true ∧ s.cur.interlocked = [] ∧ s.cur.accs = [] ∧ getLaunch s 1 = some launch1 := by decide +kernel

/-! ### Jobs, walks, links, launches and contexts of the later clauses -/

/-- QPOOL of the job's own limit changes nothing; the limit of a suspended job is that of its card. -/
theorem test_qpool_equal : let s (st_ : Nat) : State := qRun { qJob with state := st_, leaves := [], nplimit := 0x10880 }
    let run (st_ : Nat) (v : Word) := (after (exec (.qpool false 2 1 3)
      (let s := s st_
       { s with cores := s.cores.map fun k => { k with slots := k.slots.set 0 (withX slot0 [(1, 0x10480), (2, v)]) } })))
    ((run 1 0x10880).map fun t => ((landed t).getX 3, t.qjobs.map (·.nplimit))) = some (0, [0x10880])
    ∧ ((run 3 0x10900).map fun t => ((landed t).getX 3, t.qjobs.map (·.nplimit))) = some (0, [0x10880])
    ∧ ((run 3 0x10880).map fun t => (landed t).getX 3) = some 2 := by decide +kernel
theorem witness_QuadtreeInstructions_pools : let j := { qJob with state := 3, scause := 1, leaves := [] }
    let s := qRun j
    translate s (clusterOf j.core) j.ctx j.addr .read = .ok 0x480 0 ∧ translate s (clusterOf j.core) j.ctx (j.addr + 64) .read = .ok 0x4C0 0
    ∧ isPoisoned s 0x480 = false ∧ isPoisoned s 0x4C0 = false ∧ qCardOf s / 2 ^ 320 % 2 ^ 64 = 0x10900
    ∧ (qOk (qCard s.settled j 40 0x10980 8)).isSome = true ∧ (0x10980 : Nat) % 128 = 0
    ∧ (qOk (qCard s j 116 1 2)).isSome = true := by decide +kernel
/-- A resumed job walks its tree again: with frames at hand, with the first one still to be fetched, with one that is not its own. -/
def rewalkJob (depth : Nat) (cache : List (Nat × Vec × Desc)) : QJob :=
  { qJob with rewalk := true, leaves := [], depth := depth, cache := cache, card := { qJob.card with frame := 0x10600 } }
theorem witness_JobEvents_rewalk : let re (d : Nat) (c : List (Nat × Vec × Desc)) : Nat × Word := match rebuild (qRun (rewalkJob d c)) (rewalkJob d c) with
      | .ok _ => (0, 0) | .error (.unread va) => (1, va) | .error (.qtree va) => (2, va) | .error _ => (3, 0)
    re 0 [] = (0, 0) ∧ re 1 [] = (1, 0x10600) ∧ re 1 [(0x10600, 2 ^ 192, 0)] = (2, 0x10600) := by decide +kernel
theorem witness_JobEvents_fetched : let s := { qRun qJob with pairs := [{ Pair.reset 0x2000 0 with out := [newPacket 0 0 1 (.jrd 5 0x10500 (.readBlock 0x500) 0)] }] }
    ∀ p ∈ s.pairs, ∀ x ∈ p.out ++ p.store.map (·.pkt), ∀ k,
      ((∃ op key, x.body = .jrd 5 k op key) ∨ ∃ r, x.body = .jrdr 5 k r) → k / 64 ≠ 0x10540 / 64 := by
  intro s p hp x hx k hk
  obtain rfl := List.mem_singleton.1 hp
  obtain rfl := List.mem_singleton.1 hx
  rcases hk with ⟨op, key, h⟩ | ⟨r, h⟩
  · cases h; decide
  · cases h
/-- A quadtree job that waits for a page it asked for before, and one whose commit waits for one. -/
theorem witness_TranslationEvents_asked : let w : Walk := ⟨1, 0x40000 / 2 ^ 14, 0x40000, .write, [0], false, some (0, 0x010000004000, true)⟩
    let q := { qJob with wait := some (0x40000, .write, .ending), leaves := [], asked := [0x40100] }
    let s := { qRun q with dies := [{ Die.reset 0 with walks := [w] }] }
    walkEnd s w = .invalid ∧ quadWaiters s w = [(5, 0x40000, .write, .ending)] ∧ walkWaiters s w = [] ∧ copyWaiters s w = []
    ∧ getQJob s 5 = some q ∧ q.asked = [0x40100] ∧ q.state = 1 ∧ (0x40100 : Word).toNat / 2 ^ 14 = (0x40000 : Word).toNat / 2 ^ 14
    ∧ (0x50000 : Word).toNat / 2 ^ 14 ≠ (0x40000 : Word).toNat / 2 ^ 14 := by
  decide +kernel

/-- SEL of class 0 of die 0: spread, primary, alternate; a packet from core 3 to core 1,030 on die 1, and one to module 2. -/
def selState (sel : Nat) : State :=
  { ringState with routes := routesNow ringState, dies := [{ Die.reset 0 with sel := BitVec.ofNat _ sel }] }
def k0 : Packet := newPacket 0 0 1 (.msg 1 1 0 (msg 7))
theorem test_routes_by_class : trimPorts (selState 0) k0 3 1030 = [(0, 0), (0, 32 + 5), (1, 0)] ∧ trimPorts (selState 1) k0 3 1030 = [(0, 0), (0, 32), (1, 0)]
    ∧ trimPorts (selState 2) k0 3 1030 = [(0, 0), (0, 36), (1, 0)] ∧ trimPorts (selState 0) { k0 with alt := true } 3 1030 = [(0, 0), (0, 33), (1, 0)]
    ∧ [0, 1, 2].map (fun n => thrumPort (selState n) k0 3 (coreNode (2 * 4096))) = [some 1, some 1, some 0] := by decide +kernel
theorem witness_LinksAndRegisters_classes : nodeKind 3 = 0 ∧ nodeModule 3 = (selState 0).module ∧ nodeKind 1030 = 0 ∧ nodeModule 1030 = 0
    ∧ 3 % 4096 / 1024 ≠ 1030 % 4096 / 1024 ∧ nodeKind (coreNode (2 * 4096)) = 0 ∧ nodeModule (coreNode (2 * 4096)) ≠ (selState 0).module
    ∧ (routeOf (selState 0).routes 2).isSome = true ∧ k0.alt = false ∧ [0, 1, 2].map (fun n => (getDie (selState n) 0).sel.toNat / 4 ^ 0 % 4) = [0, 1, 2] := by
  decide +kernel
/-- After a deferral for reason 2 a message starts again with HOPS 0, though its actor is where it was. -/
theorem test_backoff_refreshes : let k := { pkt 7 (.msg 1 1 0 (msg 7)) with hops := 4 }
    pairAfter (fun p => (p.net.map (·.hops), p.backoff)) (.evBackoffExpiry 1 0) { p10 with store := [⟨k, 0, 0⟩], backoff := [(7, 999, 2)] } = some ([0], [])
    ∧ pairAfter (fun p => p.net.map (·.hops)) (.evBackoffExpiry 1 0) { p10 with store := [⟨k, 0, 0⟩], backoff := [(7, 999, 1)] } = some [4] := by
  decide +kernel
/-- A restore onto rows of another parked actor that are not saved yet is not performed. -/
theorem witness_ContextEvents_rows : let p (n : Nat) : Actor := { actor1 with name := n, place := .parked, evicted := true, base := 0x12000 + 64 * n }
    let l := { launch1 with actors := [p 1, p 2] }
    let s := { stWith l Slot.reset with cores := [{ core0 Slot.reset with victims := [⟨0, 1⟩] }] }
    (p 2).name ≠ 1 ∧ (p 2).core = 0 ∧ (p 2).owns ((p 1).zbase + 0) = true ∧ rowSaved s 1 (p 2) 0 = false ∧ restorable s l (p 1) 0 = false
    ∧ rowSaved { s with savedRows := [⟨0, 0, 1, 2, 7, false⟩] } 1 (p 2) 0 = true := by decide +kernel
/-- The mailbox of a leaving actor and its box hold at most 1,024 words together. -/
theorem witness_PacketsPerformInOrder_full : let a : Actor := { actor1 with
      leaving := true, box := List.replicate 252 (0, ⟨0, [1, 2, 3, 4], 7, 0, 0, 0, false⟩)
      chans := [⟨0, 4, false, 4, true, true, 2, List.replicate 4 ⟨0, [1, 2, 3, 4], 7, 0, 0, 0, false⟩, none, 0⟩] }
    1024 < (a.box.map fun b => b.2.words.length).sum + (a.chans.map chanWords).sum + 4 := by decide +kernel
/-- The parsed descriptor and image keep every field condition; each kind of row that is refused. -/
theorem witness_LaunchEvents_fields : let u := (startOf imageState).2
    descriptorOk u 1 descBits = true ∧ descriptorOk u 1 (descBits + 2 ^ 72) = false
    ∧ ((translateNow u 1 0x40000400 .read).map fun p => ((frameSaved u 1 p.1).isNone, isPoisoned u p.1)) = some (true, false)
    ∧ translateNow u 1 0x90000000 .read = none
    ∧ (readOk (readBytes u 1 0x40000400 64)).isSome = true ∧ ((imageParsed 0x40000400).toOption.map fun m => m.actors.map fun a => (a.name, a.core, a.size, a.chans.length))
      = some [(7, 0, 64, 1)]
    ∧ (match imageParsed 0x40000440 with | .error .bad => true | _ => false) = true
    ∧ (match imageParsed 0x0200000000000000 with | .error (.unreadable _) => true | _ => false) = true
    ∧ parseChan (4 * 2 ^ 32 + 2 ^ 8 + 2 + 2 ^ 4) = none ∧ (parseChan (4 * 2 ^ 32 + 2 ^ 8 + 2)).isSome = true
    ∧ parseTask (0x40000600 + 3 * 2 ^ 64) = some (0x40000600, 3) ∧ parseTask 1 = none
    ∧ parseSeed [actor1] (0x40000600 + 1 * 2 ^ 64) = some (0x40000600, 1, 0) ∧ parseSeed [actor1] (0x40000600 + 1 * 2 ^ 64 + 1 * 2 ^ 96) = none
    ∧ parseJoin u [actor1] (5 + 1 * 2 ^ 32) = some (5, 1) ∧ parseJoin u [actor1] (5 + 2 * 2 ^ 32) = none := by decide +kernel
/-- A copy card and a quadtree card that fit, and one field each that does not. -/
theorem witness_CopyJobInstructions_cards : cardOk .cpy cpyCard = true ∧ cardOk .cpy (withFill cpyCard) = false ∧ cardOk .gath gathCard = true
    ∧ cardOk .gath (withFill gathCard) = true ∧ cardOk .scat gathCard = true ∧ cardOk .scat (withFill gathCard) = false
    ∧ cardOk .cpy (cpyCard + 64 * 2 ^ 472) = false ∧ qcardOk qCardBits = true ∧ qcardOk (qCardBits + 2 ^ 992) = false
    ∧ poolsOk qCardBits = true ∧ poolsOk (qCardBits + 64 * 2 ^ 256) = false := by decide +kernel
/-- A host loads a block with its descriptor; a host makes a message in flight bad, and its dispatch reports. -/
theorem test_host_load : let t := after (hostAct { st slot0 with descs := [(5, 2)] } (.load 0x100 [7] [0x1234]))
    (t.map fun t => (memRead t.mem 0x100 8, t.descs)) = some (7, [(4, 0x1234), (5, 2)]) := by decide +kernel

end Sys2Proof.Tests
end

section
/-! SUPPORT. The registers of a slot after a register write, after the pending writes have been made, and the outcomes of the
check at issue (01 R12, R16, R19 to R21). -/
namespace Sys2Proof.Machine

/-! ### One register written -/

/-- The number of a register lies in its file. -/
def RegRef.inFile (r : RegRef) : Prop := r.n < if r.file = .k then 8 else 32

/-- What a register of a file holds of a value written to it: a vector register all of it, a scalar or mask register its low word. -/
def RegRef.keeps (r : RegRef) (v : Vec) : Vec := if r.file = .v then v else ofWord (v.setWidth 64)

theorem reg_setReg_self (sl : Slot) {r : RegRef} (v : Vec) (hc : r.constant = false) (hn : r.inFile) :
    (sl.setReg r v).reg r = r.keeps v := by
  obtain ⟨f, n⟩ := r
  cases f with
  | x =>
    have h0 : n ≠ 0 := by simpa [RegRef.constant] using hc
    have h1 : n < 32 := by simpa [RegRef.inFile] using hn
    simp [Slot.setReg, Slot.reg, Slot.getX, RegRef.keeps, h0, h1]
  | v =>
    have h1 : n < 32 := by simpa [RegRef.inFile] using hn
    simp [Slot.setReg, Slot.reg, Slot.getV, RegRef.keeps, h1]
  | k =>
    have h0 : n ≠ 0 := by simpa [RegRef.constant] using hc
    have h1 : n < 8 := by simpa [RegRef.inFile] using hn
    simp [Slot.setReg, Slot.reg, Slot.getK, RegRef.keeps, h0, h1]

theorem reg_setReg_ne (sl : Slot) {r q : RegRef} (v : Vec) (h : q ≠ r) : (sl.setReg r v).reg q = sl.reg q := by
  obtain ⟨f, n⟩ := r
  obtain ⟨g, m⟩ := q
  have hnm (e : g = f) : n ≠ m := fun hn => h (by rw [e, hn])
  cases f with
  | x =>
    simp only [Slot.setReg]
    split
    · split
      · rfl
      · cases g with
        | x => simp [Slot.reg, Slot.getX, hnm rfl]
        | v => rfl
        | k => rfl
    · rfl
  | v =>
    simp only [Slot.setReg]
    split
    · cases g with
      | x => rfl
      | v => simp [Slot.reg, Slot.getV, hnm rfl]
      | k => rfl
    · rfl
  | k =>
    simp only [Slot.setReg]
    split
    · split
      · rfl
      · cases g with
        | x => rfl
        | v => rfl
        | k => simp [Slot.reg, Slot.getK, hnm rfl]
    · rfl

/-- A write of a constant register is discarded (R12, R16). -/
theorem setReg_constant (sl : Slot) {r : RegRef} (v : Vec) (h : r.constant = true) : sl.setReg r v = sl := by
  obtain ⟨f, n⟩ := r
  cases f <;> simp_all [RegRef.constant, Slot.setReg]

theorem writeFix_constant (sl : Slot) {r : RegRef} (v : Vec) (lat : Nat) (h : r.constant = true) : sl.writeFix r v lat = sl := by
  simp [Slot.writeFix, h]

/-! ### Pending writes made -/

@[simp] theorem reg_settleFlags (sl : Slot) (q : RegRef) : (settleFlags sl).reg q = sl.reg q := rfl

/-- The registers of a settled slot are those that its visible writes have left. -/
theorem reg_settle (sl : Slot) (q : RegRef) : sl.settle.reg q = (applyVisible sl.clock sl sl.pend).reg q := rfl

/-- The value of a register is read from the three files alone. -/
theorem reg_congr {sl sl' : Slot} (q : RegRef) (hx : sl.x = sl'.x) (hv : sl.v = sl'.v) (hk : sl.k = sl'.k) : sl.reg q = sl'.reg q := by
  simp [Slot.reg, Slot.getX, Slot.getV, Slot.getK, hx, hv, hk]

@[simp] theorem settle_pend (sl : Slot) : sl.settle.pend = overtake sl.clock sl.pend := rfl

/-- A register stands where no write of it in a list is both live and visible. -/
theorem reg_applyVisible_idle {n : Nat} {r : RegRef} (l : List PendFix) (h : ∀ p ∈ l, p.reg = r → p.dead = true ∨ n < p.vis) :
    ∀ sl : Slot, (applyVisible n sl l).reg r = sl.reg r := by
  induction l with
  | nil => exact fun _ => rfl
  | cons p l ih =>
    intro sl
    rw [applyVisible, ih fun q hq => h q (List.mem_cons_of_mem p hq)]
    split
    · next hp =>
      have hne : r ≠ p.reg := by
        rintro rfl
        have := h p List.mem_cons_self rfl
        simp only [Bool.and_eq_true, decide_eq_true_eq, Bool.not_eq_true'] at hp
        rcases this with hd | hv
        · simp [hd] at hp
        · omega
      exact reg_setReg_ne sl p.value hne
    · rfl

/-- The last write of a list stands, where it is live and visible (R20). -/
theorem reg_applyVisible_last {n : Nat} {p : PendFix} (hv : p.vis ≤ n) (hd : p.dead = false) (hc : p.reg.constant = false)
    (hn : p.reg.inFile) (l : List PendFix) : ∀ sl : Slot, (applyVisible n sl (l ++ [p])).reg p.reg = p.reg.keeps p.value := by
  induction l with
  | nil =>
    intro sl
    simp [applyVisible, hv, hd, reg_setReg_self sl p.value hc hn]
  | cons q l ih => exact fun sl => ih _

/-! ### The check at issue (R19, R21, R76) -/

theorem issue_waits {s : State} {srcs dsts : List RegRef} {f : State → Nat → Fin 4 → Slot → State} {w : Stall}
    (hr : s.cur.status = .running) (hw : s.found.ready srcs dsts = .wait w) :
    issue s srcs dsts f = .next (stallSlot s.settled s.curCore s.curSlot w) := by
  simp only [State.cur, State.found] at hr hw
  simp only [issue, onSlot, hr, hw]
  rfl

theorem issue_traps {s : State} {srcs dsts : List RegRef} {f : State → Nat → Fin 4 → Slot → State} {cause : Nat} {tval : Word}
    (hr : s.cur.status = .running) (hw : s.found.ready srcs dsts = .trap cause tval) :
    issue s srcs dsts f = .next (takeTrap s.settled s.curCore s.curSlot cause tval s.cur.pc) := by
  simp only [State.cur, State.found] at hr hw
  simp only [issue, onSlot, hr, hw, Slot.settle_pc]
  rfl

/-- A search whose predicate holds of one member alone finds it. -/
theorem find?_only {α : Type} {p : α → Bool} {r : α} {l : List α} (hm : r ∈ l) (hr : p r = true)
    (hu : ∀ q, p q = true → q = r) : l.find? p = some r := by
  cases h : l.find? p with
  | none => exact absurd hr (List.find?_eq_none.1 h r hm)
  | some q => rw [hu q (List.find?_some h)]

theorem any_holdsIssue_eq_false {sl : Slot} (ha : sl.accs.all (fun x => !x.dst.holdsIssue) = true) :
    sl.accs.any (fun x => x.dst.holdsIssue) = false := by
  simpa [List.all_eq_not_any_not] using ha

/-- An instruction that names the register outstanding waits for it (R21). -/
theorem ready_interlock {sl : Slot} {srcs dsts : List RegRef} {r : RegRef} (ha : sl.accs.all (fun x => !x.dst.holdsIssue) = true)
    (hi : sl.interlocked = [r]) (hc : r.constant = false) (hm : r ∈ srcs ++ dsts) :
    sl.ready srcs dsts = .wait (.interlock r) := by
  have hf : (srcs ++ dsts).find? (fun q => !q.constant && sl.interlocked.contains q) = some r :=
    find?_only hm (by simp [hi, hc]) (by simp [hi])
  simp only [Slot.ready, any_holdsIssue_eq_false ha, hf, Bool.false_eq_true, if_false]

/-- With the early-read check on, an instruction whose source has a fixed-latency write pending traps EARLYREAD (R19). -/
theorem ready_earlyRead {sl : Slot} {srcs dsts : List RegRef} {r : RegRef} (ha : sl.accs.all (fun x => !x.dst.holdsIssue) = true)
    (hi : sl.interlocked = []) (hk : sl.chk = true) (hp : sl.pend.map (·.reg) = [r]) (hc : r.constant = false) (hm : r ∈ srcs) :
    sl.ready srcs dsts = .trap 2 (earlyTval r) := by
  have hn : (srcs ++ dsts).find? (fun q => !q.constant && sl.interlocked.contains q) = none := by
    simp [List.find?_eq_none, hi]
  have hpend (q : RegRef) : sl.pend.any (fun p => p.reg == q) = true ↔ q = r := by
    rw [List.map_eq_singleton_iff] at hp
    obtain ⟨p, hl, rfl⟩ := hp
    simpa [hl] using eq_comm
  have hf : srcs.find? (fun q => !q.constant && sl.pend.any (fun p => p.reg == q)) = some r :=
    find?_only hm (by rw [(hpend r).2 rfl, hc]; rfl) fun q hq => (hpend q).1 (Bool.and_eq_true_iff.1 hq).2
  simp only [Slot.ready, any_holdsIssue_eq_false ha, hn, hk, hf, Bool.false_eq_true, if_false, if_true]

/-- An instruction issues with these sources and destinations. -/
def IssuesWith (i : Instr) (s : State) (srcs dsts : List RegRef) : Prop := ∃ f, exec i s = issue s srcs dsts f

section
variable {i : Instr} {s : State} {srcs dsts : List RegRef} {r : RegRef} (he : IssuesWith i s srcs dsts)
  (hr : s.cur.status = .running) (ha : s.cur.accs.all (fun x => !x.dst.holdsIssue) = true)
include he hr ha

theorem IssuesWith.waits (hi : s.cur.interlocked = [r]) (hc : r.constant = false) (hm : r ∈ srcs ++ dsts) :
    Waits i s (.interlock r) := by
  obtain ⟨f, he⟩ := he
  exact he.trans (issue_waits hr (ready_interlock (by simpa [State.found] using ha) (by simpa [State.found, settle_interlocked] using hi)
    hc hm))

theorem IssuesWith.trapsEarly (hi : s.cur.interlocked = []) (hk : s.cur.chk = true) (hp : s.found.pend.map (·.reg) = [r])
    (hc : r.constant = false) (hm : r ∈ srcs) : Traps i s 0x02 (earlyTval r) := by
  obtain ⟨f, he⟩ := he
  exact he.trans (issue_traps hr (ready_earlyRead (by simpa [State.found] using ha) (by simpa [State.found, settle_interlocked] using hi)
    (by simpa [State.found] using hk) hp hc hm))
end

theorem exec_add (sc : BitVec 2) (b a d : BitVec 5) (s : State) : exec (.add sc b a d) s = execAdd sc b a d s := rfl
theorem exec_vadd (sc : BitVec 2) (m : BitVec 3) (w : Width) (b a d : BitVec 5) (s : State) :
    exec (.vadd sc m w b a d) s = execVadd sc m w b a d s := rfl
theorem exec_ldd (o : Ord) (imm : BitVec 13) (a d : BitVec 5) (s : State) : exec (.ldd o imm a d) s = execLdd o imm a d s := rfl

theorem add_issuesWith (sc : BitVec 2) (b a d : BitVec 5) (s : State) : IssuesWith (.add sc b a d) s [xr a, xr b] [xr d] := by
  rw [IssuesWith, exec_add, execAdd, aluReg, issueFixed]
  exact ⟨_, rfl⟩

theorem vadd_issuesWith (sc : BitVec 2) (m : BitVec 3) (w : Width) (b a d : BitVec 5) (s : State) :
    IssuesWith (.vadd sc m w b a d) s ([vr a] ++ ([vr b] ++ maskDst m d)) [vr d] := by
  rw [IssuesWith, exec_vadd, execVadd, vecInt, issueVec]
  exact ⟨_, rfl⟩

theorem ldd_issuesWith (o : Ord) (imm : BitVec 13) (a d : BitVec 5) (s : State) : IssuesWith (.ldd o imm a d) s [xr a] [xr d] := by
  rw [IssuesWith, exec_ldd, execLdd, load]
  exact ⟨_, rfl⟩

/-! ### The obligations on visibility, interlock and the constant registers -/

/-- 01 R19: one pending write, made or not, and the other registers. -/
theorem reg_oneWrite {sl : Slot} (r : RegRef) (v : Vec) (lat n : Nat) (hp : sl.pend = []) (q : RegRef)
    (h : q ≠ r ∨ n < lat) : ({ sl.writeFix r v lat with clock := sl.clock + n } : Slot).settle.reg q = sl.reg q := by
  have hreg : ({ sl.writeFix r v lat with clock := sl.clock + n } : Slot).reg q = sl.reg q := reg_congr q (by simp) (by simp) (by simp)
  rw [reg_settle, reg_applyVisible_idle, hreg]
  intro p hm hq
  simp only [Slot.writeFix, hp, List.nil_append] at hm
  split at hm
  · simp [hp] at hm
  · obtain rfl := List.mem_singleton.1 hm
    exact Or.inr (by have := h.resolve_left fun hn => hn hq.symm; simp; omega)

theorem reg_oneWrite_visible {sl : Slot} (r : RegRef) (v : Vec) {lat n : Nat} (hp : sl.pend = []) (hn : lat ≤ n) (hc : r.constant = false)
    (hf : r.inFile) : ({ sl.writeFix r v lat with clock := sl.clock + n } : Slot).settle.reg r = r.keeps v := by
  rw [reg_settle]
  have hl : (sl.writeFix r v lat).pend = [] ++ [⟨r, v, sl.clock + lat, false⟩] := by simp [Slot.writeFix, hc, hp]
  simp only [hl]
  exact reg_applyVisible_last (p := ⟨r, v, sl.clock + lat, false⟩) (by simp; omega) rfl hc hf [] _

/-- 01 R20: two pending writes of a register, at a second look of the slot at clock n: the later issued stands where its clock has come,
if it stood from the first look at m on in case it was visible then. -/
theorem reg_secondLook {S : Slot} {r : RegRef} {v1 v2 : Vec} {t1 t2 m n : Nat} (hc : r.constant = false) (hf : r.inFile) (ht : t2 ≤ n)
    (hp : S.pend = overtake m [⟨r, v1, t1, false⟩, ⟨r, v2, t2, false⟩]) (hm : t2 ≤ m → S.reg r = r.keeps v2) :
    ({ S with clock := n } : Slot).settle.reg r = r.keeps v2 := by
  rw [reg_settle]
  simp only [hp]
  by_cases h2 : t2 ≤ m
  · -- the later write is made, and the earlier one is dead
    have hdead : ∀ p ∈ overtake m [⟨r, v1, t1, false⟩, ⟨r, v2, t2, false⟩], p.dead = true := by
      by_cases h1 : t1 ≤ m <;> simp [overtake, h1, h2]
    rw [reg_applyVisible_idle _ fun p hp _ => Or.inl (hdead p hp)]
    exact hm h2
  · -- the later write is still pending, and stands last
    have hlast : overtake m [⟨r, v1, t1, false⟩, ⟨r, v2, t2, false⟩] = overtake m [⟨r, v1, t1, false⟩] ++ [⟨r, v2, t2, false⟩] := by
      by_cases h1 : t1 ≤ m <;> simp [overtake, h1, h2]
    rw [hlast]
    exact reg_applyVisible_last (p := ⟨r, v2, t2, false⟩) ht rfl hc hf _ _

/-- 01 R20: of two writes of a register, the later issued stands from its clock on, whenever the slot has looked before. -/
theorem reg_twoWrites (sl : Slot) {r : RegRef} (v1 v2 : Vec) {t1 t2 m n : Nat} (hc : r.constant = false) (hf : r.inFile) (ht : t2 ≤ n) :
    ({ ({ sl with pend := [⟨r, v1, t1, false⟩, ⟨r, v2, t2, false⟩], clock := m } : Slot).settle with clock := n } : Slot).settle.reg r
      = r.keeps v2 :=
  reg_secondLook hc hf ht rfl fun h2 => reg_applyVisible_last (p := ⟨r, v2, t2, false⟩) h2 rfl hc hf [⟨r, v1, t1, false⟩] _

/-- Pending writes alone never trap: an ADD that nothing holds at issue completes and leaves the reports as they are. -/
theorem add_reports {s : State} (sc : BitVec 2) (b a d : BitVec 5) (h : canIssue s [xr a, xr b] [xr d] = true) :
    Does (.add sc b a d) s fun t => t.reports = s.reports := by
  rw [Does, exec_add, execAdd, aluReg, issueFixed, issue_can h]
  exact ⟨_, rfl, rfl⟩

/-- Settles O11: one pending write by its clock (R19), two by the order of their issue (R20). -/
theorem fixedLatencyWrites : Obligations.FixedLatencyWrites := by
  unfold Obligations.FixedLatencyWrites
  refine ⟨fun sl r q v lat n hp hq => ⟨fun hn => ?_, fun hn hc hf => ?_, ?_⟩, fun sl r v1 v2 t1 t2 m n hc hf _ ht => ?_,
    fun s sc b a d hr ha hi hk => ?_⟩
  · exact reg_oneWrite r v lat n hp r (Or.inr hn)
  · exact reg_oneWrite_visible r v hp hn hc hf
  · exact reg_oneWrite r v lat n hp q (Or.inl hq)
  · exact reg_twoWrites sl v1 v2 hc hf ht
  · refine add_reports sc b a d ?_
    have hearly : s.cur.chk = false ∨ ∀ q ∈ [xr a, xr b], ∀ p ∈ s.found.pend, p.reg ≠ q :=
      hk.imp_right fun h q hq p hp => by
        rcases List.mem_cons.1 hq with rfl | hq
        · exact (h p hp).1
        · exact List.mem_singleton.1 hq ▸ (h p hp).2
    rcases hearly with h | h <;> simp_all [canIssue]

/-- Settles O12: the check at issue by its two outcomes, and the constant registers by their definitions. -/
theorem issueChecksAndConstants : Obligations.IssueChecksAndConstants := by
  unfold Obligations.IssueChecksAndConstants
  refine ⟨fun s sc w o imm b a d r hr ha => ⟨fun hi hc => ?_, fun hi hk hp hc => ?_⟩, fun sl v lat f fp => ?_⟩
  · refine ⟨fun h => ?_, fun h => ?_, fun h => ?_⟩
    · exact (add_issuesWith sc b a d s).waits hr ha hi hc (by simpa using h)
    · exact (vadd_issuesWith sc 0 w b a d s).waits hr ha hi hc (by simpa [maskDst] using h)
    · exact (ldd_issuesWith o imm a d s).waits hr ha hi hc (by simpa using h)
  · have hx (q : BitVec 5) (h : r = xr q) : earlyTval r = BitVec.ofNat 64 r.n := by simp [h, xr, earlyTval]
    have hv (q : BitVec 5) (h : r = vr q) : earlyTval r = BitVec.ofNat 64 (256 + r.n) := by simp [h, vr, earlyTval]
    refine ⟨fun h => ?_, fun h => ?_, fun h => ?_⟩
    · rw [← h.elim (hx a) (hx b)]
      exact (add_issuesWith sc b a d s).trapsEarly hr ha hi hk hp hc (by simpa using h)
    · rw [← h.elim (hv a) (hv b)]
      exact (vadd_issuesWith sc 0 w b a d s).trapsEarly hr ha hi hk hp hc (by simpa [maskDst] using h)
    · rw [← hx a h]
      exact (ldd_issuesWith o imm a d s).trapsEarly hr ha hi hk hp hc (by simpa using h)
  · refine ⟨by simp [Slot.reg, Slot.getX, ofWord], by simp [Slot.reg, Slot.getK], setReg_constant sl v rfl, setReg_constant sl v rfl,
      writeFix_constant sl v lat rfl, writeFix_constant sl v lat rfl, ?_⟩
    simp [Slot.interlocked, Slot.writeVar, RegRef.constant]

end Sys2Proof.Machine
end

section
/-! SUPPORT. Launches, actors and channels after they are written; the other slots of the machine; and what a slot keeps of an
instruction that completes. -/
namespace Sys2Proof.Machine

/-! ### Launches, actors and channels -/

/-- What is found under a key has that key. -/
theorem findBy_key {α : Type} {key : α → Nat} {k : Nat} {l : List α} {x : α} (h : findBy key k l = some x) : key x = k := by
  simpa using List.find?_some (p := fun y => key y == k) h

theorem getLaunch_id {s : State} {l : Nat} {x : Launch} (h : getLaunch s l = some x) : x.id = l := findBy_key h

theorem Launch.actor_name {l : Launch} {n : Nat} {a : Actor} (h : l.actor n = some a) : a.name = n := findBy_key h

theorem Actor.chan_num {a : Actor} {n : Nat} {c : Chan} (h : a.chan n = some c) : c.num = n := findBy_key h

theorem getActor_name {s : State} {l n : Nat} {a : Actor} (h : getActor s l n = some a) : a.name = n := by
  obtain ⟨x, -, hx⟩ := Option.bind_eq_some_iff.1 h
  exact Launch.actor_name hx

/-- The actors of a state are those of its launches. -/
theorem getActor_congr {s t : State} (h : t.launches = s.launches) (l n : Nat) : getActor t l n = getActor s l n := by
  simp only [getActor, getLaunch, h]

/-- An actor of a launch that the state holds. -/
theorem getActor_of_launch {s : State} {l n : Nat} {x : Launch} (h : getLaunch s l = some x) : getActor s l n = x.actor n := by
  simp [getActor, h]

theorem Actor.chan_setChan_self (a : Actor) (c : Chan) : (a.setChan c).chan c.num = some c := 
  findBy_putBy_self Chan.num c a.chans

theorem Actor.chan_setChan_ne (a : Actor) (c : Chan) {n : Nat} (h : n ≠ c.num) : (a.setChan c).chan n = a.chan n :=
  findBy_putBy_ne Chan.num c a.chans h

/-- An actor read after it is written. -/
theorem getActor_modActor_self {s : State} {l n : Nat} {a : Actor} {f : Actor → Actor} (h : getActor s l n = some a)
    (hn : (f a).name = n) : getActor (modActor s l n f) l n = some (f a) := by
  obtain ⟨x, hl, -⟩ := Option.bind_eq_some_iff.1 h
  have hid : (x.setActor (f a)).id = l := (rfl : _ = x.id).trans (getLaunch_id hl)
  have hg : getLaunch (setLaunch s (x.setActor (f a))) l = some (x.setActor (f a)) := by
    have := findBy_putBy_self Launch.id (x.setActor (f a)) s.launches
    rwa [hid] at this
  have hm : modActor s l n f = setLaunch s (x.setActor (f a)) := by simp only [modActor, h, setActor, modLaunch, hl]
  have ha := findBy_putBy_self Actor.name (f a) x.actors
  rw [hn] at ha
  rw [hm, getActor_of_launch hg]
  exact ha

/-- An actor read after one of its channels is written. -/
theorem getActor_modChan_self {s : State} {l n k : Nat} {a : Actor} {ch : Chan} {f : Chan → Chan} (h : getActor s l n = some a)
    (hc : a.chan k = some ch) : getActor (modChan s l n k f) l n = some (a.setChan (f ch)) := by
  rw [modChan, getActor_modActor_self h] <;> simp only [hc]
  exact (rfl : _ = a.name).trans (getActor_name h)

@[simp] theorem getActor_setSlot (s : State) (c : Nat) (i : Fin 4) (v : Slot) (l n : Nat) :
    getActor (setSlot s c i v) l n = getActor s l n := rfl
@[simp] theorem getActor_retire (s : State) (c : Nat) (i : Fin 4) (sc : Nat) (npc : Word) (l n : Nat) :
    getActor (retire s c i sc npc) l n = getActor s l n := rfl

@[simp] theorem getSlot_modChan (s : State) (l n k : Nat) (f : Chan → Chan) (c : Nat) (i : Fin 4) :
    getSlot (modChan s l n k f) c i = getSlot s c i := getSlot_modActor s l n _ c i
@[simp] theorem modChan_mem (s : State) (l n k : Nat) (f : Chan → Chan) : (modChan s l n k f).mem = s.mem := modActor_mem s l n _
@[simp] theorem modChan_curCore (s : State) (l n k : Nat) (f : Chan → Chan) : (modChan s l n k f).curCore = s.curCore :=
  modActor_curCore s l n _
@[simp] theorem modChan_curSlot (s : State) (l n k : Nat) (f : Chan → Chan) : (modChan s l n k f).curSlot = s.curSlot :=
  modActor_curSlot s l n _

/-! ### Other slots -/

/-- A slot written, in a state whose slots are those of another, leaves the other slots. -/
theorem otherSlots_setSlot {s u : State} (h : ∀ d j, getSlot u d j = getSlot s d j) (c : Nat) (i : Fin 4) (v : Slot) :
    OtherSlots s (setSlot u c i v) c i := by
  intro d j hne
  by_cases hd : d = c
  · subst hd
    rw [getSlot_setSlot_slot u d i v fun hj => hne (by rw [hj]), h]
  · rw [getSlot_setSlot_core u c i v hd, h]

/-! ### A slot that completes an instruction -/

section
variable (s : State) (n sc : Nat) (npc : Word) (sl : Slot)

/-- Cycles move a budget or a wait, and nothing else of a slot. -/
theorem slotCycles_only : ∃ b w, slotCycles s n sl = { sl with budget := b, waited := w } := by
  unfold slotCycles
  split
  · exact ⟨_, _, rfl⟩
  · split
    · exact ⟨_, _, rfl⟩
    · exact ⟨_, _, rfl⟩

@[simp] theorem slotCycles_x : (slotCycles s n sl).x = sl.x := by
  obtain ⟨b, w, h⟩ := slotCycles_only s n sl
  rw [h]

@[simp] theorem slotCycles_v : (slotCycles s n sl).v = sl.v := by
  obtain ⟨b, w, h⟩ := slotCycles_only s n sl
  rw [h]

@[simp] theorem slotCycles_sends : (slotCycles s n sl).sends = sl.sends := by
  obtain ⟨b, w, h⟩ := slotCycles_only s n sl
  rw [h]

@[simp] theorem slotCycles_held : (slotCycles s n sl).held = sl.held := by
  obtain ⟨b, w, h⟩ := slotCycles_only s n sl
  rw [h]

@[simp] theorem slotCycles_pc : (slotCycles s n sl).pc = sl.pc := by
  obtain ⟨b, w, h⟩ := slotCycles_only s n sl
  rw [h]

@[simp] theorem slotCycles_status : (slotCycles s n sl).status = sl.status := by
  obtain ⟨b, w, h⟩ := slotCycles_only s n sl
  rw [h]

/-- What issuing leaves of a slot: its registers, its send buffer and the messages that it holds. -/
theorem issued_keeps : (sl.issued sc npc).x = sl.x ∧ (sl.issued sc npc).v = sl.v ∧ (sl.issued sc npc).sends = sl.sends
    ∧ (sl.issued sc npc).held = sl.held := by
  simp only [Slot.issued]
  split
  · simp only [debugNext, debugEnds]
    split <;> exact ⟨rfl, rfl, rfl, rfl⟩
  · simp only [stepHalt]
    split <;> exact ⟨rfl, rfl, rfl, rfl⟩

/-- Outside debug execution and a step, the next instruction follows. -/
theorem issued_next (hd : sl.inDebug = false) (ho : sl.oneStep = false) :
    (sl.issued sc npc).pc = npc ∧ (sl.issued sc npc).status = sl.status := by
  simp [Slot.issued, stepHalt, hd, ho]

end

end Sys2Proof.Machine
end

section
/-! SUPPORT. The words of channels (01 R30 to R33): what a pop gives, and how the head of a queue becomes held. The statement on
channel reads. -/
namespace Sys2Proof.Machine

/-! ### Held messages -/

/-- No held message of a channel has a word left. -/
theorem heldOn_none {held : List Held} {ch : Nat} (h : ∀ z ∈ held, z.chan = ch → z.msg.words.length ≤ z.pos) :
    heldOn held ch = none := by
  simpa [heldOn, List.find?_eq_none] using h

/-- The first held message of a channel with a word left, and a pop from it. -/
theorem heldOn_first {before after : List Held} {h : Held} {ch : Nat} (hc : h.chan = ch) (hp : h.pos < h.msg.words.length)
    (hb : ∀ z ∈ before, z.chan = ch → z.msg.words.length ≤ z.pos) :
    heldOn (before ++ h :: after) ch = some h
    ∧ popHeld ch (before ++ h :: after) = before ++ { h with pos := h.pos + 1 } :: after := by
  induction before with
  | nil => simp [heldOn, popHeld, hc, hp]
  | cons z before ih =>
    have hz : (z.chan == ch && decide (z.pos < z.msg.words.length)) = false := by
      have := hb z List.mem_cons_self
      simpa using this
    have ⟨ih1, ih2⟩ := ih fun y hy => hb y (List.mem_cons_of_mem z hy)
    simp only [heldOn] at ih1
    simp [heldOn, popHeld, hz, ih1, ih2]

/-! ### The head of a queue becomes held -/

/-- How the head message of a queue becomes held at a position (R31): the slot holds it, and the queue goes on behind it. -/
structure HeadHeld (s u : State) (c : Nat) (i : Fin 4) (ch : Nat) (a : Actor) (m : Msg) (rest : List Msg) (pos : Nat) : Prop where
  slot   : getSlot u c i = { getSlot s c i with held := (getSlot s c i).held ++ [⟨ch, m, pos, false⟩] }
  others : OtherSlots s u c i
  mem    : u.mem = s.mem
  cur    : u.curCore = s.curCore ∧ u.curSlot = s.curSlot
  actor  : ∃ b cn, getActor u (getSlot s c i).launch (getSlot s c i).actor = some b ∧ b.chan ch = some cn ∧ cn.queue = rest
    ∧ ∀ n, n ≠ ch → b.chan n = a.chan n

theorem holdHead_some {s : State} {c : Nat} {i : Fin 4} {ch pos : Nat} {a : Actor} {cn : Chan} {m : Msg} {rest : List Msg}
    (ha : getActor s (getSlot s c i).launch (getSlot s c i).actor = some a) (hc : a.chan ch = some cn) (ht : cn.task = false)
    (hq : cn.queue = m :: rest) : ∃ u, holdHead s c i ch pos = some u ∧ HeadHeld s u c i ch a m rest pos := by
  have hn : cn.num = ch := Actor.chan_num hc
  simp only [holdHead, ha, Option.bind_some, hc, ht, Bool.false_eq_true, if_false, hq]
  refine ⟨_, rfl, ?_, ?_, ?_, ?_, ?_⟩
  · simp [modSlot]
  · exact otherSlots_setSlot (fun d j => getSlot_modChan s _ _ _ _ d j) c i _
  · simp [modSlot]
  · simp [modSlot]
  · let x : Chan := { cn with
      queue := rest, ucount := 0, unbound := if rest.isEmpty || cn.bound then none else some (getCore s c).cycle }
    have hx : x.num = ch := hn
    exact ⟨a.setChan x, x, getActor_modChan_self ha hc, hx ▸ Actor.chan_setChan_self a x, rfl,
      fun n hne => Actor.chan_setChan_ne a x (hx ▸ hne)⟩

/-- The head of a queue becomes held, or there is none. -/
theorem holdHead_cases (s : State) (c : Nat) (i : Fin 4) (ch pos : Nat) :
    holdHead s c i ch pos = none ∨ ∃ u a m rest, holdHead s c i ch pos = some u ∧ HeadHeld s u c i ch a m rest pos := by
  cases hb : (getActor s (getSlot s c i).launch (getSlot s c i).actor).bind (fun y => y.chan ch) with
  | none => exact Or.inl (by simp [holdHead, hb])
  | some cn =>
    obtain ⟨a, ha, hc⟩ := Option.bind_eq_some_iff.1 hb
    cases ht : cn.task with
    | true => exact Or.inl (by simp [holdHead, hb, ht])
    | false =>
      cases hq : cn.queue with
      | nil => exact Or.inl (by simp [holdHead, hb, ht, hq])
      | cons m rest =>
        obtain ⟨u, hu, hH⟩ := holdHead_some (pos := pos) ha hc ht hq
        exact Or.inr ⟨u, a, m, rest, hu, hH⟩

/-! ### One word popped -/

section
variable {s : State} {c : Nat} {i : Fin 4} {ch : Nat} {a : Actor} {cn : Chan}

/-- With no such channel of its actor, a slot pops nothing. -/
theorem popWord_noChan (h : ∀ y, getActor s (getSlot s c i).launch (getSlot s c i).actor = some y → y.chan ch = none) :
    popWord s c i ch = none := by
  have hb : (getActor s (getSlot s c i).launch (getSlot s c i).actor).bind (fun y => y.chan ch) = none := by
    simpa [Option.bind_eq_none_iff] using h
  simp only [popWord, hb]

variable (ha : getActor s (getSlot s c i).launch (getSlot s c i).actor = some a) (hc : a.chan ch = some cn)
include ha hc

/-- A task channel gives the next word of the triggering task. -/
theorem popWord_task {t : Task} {pos : Nat} {w : Vec} (ht : cn.task = true) (hch : (getSlot s c i).chan = ch)
    (hk : (getSlot s c i).htask = some (t, pos)) (hw : t.words[pos]? = some w) :
    popWord s c i ch = some (w, setSlot s c i { getSlot s c i with htask := some (t, pos + 1) }) := by
  obtain ⟨hlt, rfl⟩ := List.getElem?_eq_some_iff.1 hw
  simp [popWord, ha, hc, ht, hk, hch, hlt, List.getD]

/-- A task channel with no word of the triggering task left gives none. -/
theorem popWord_taskEmpty (ht : cn.task = true)
    (h : ∀ t pos, (getSlot s c i).chan = ch → (getSlot s c i).htask = some (t, pos) → t.words.length ≤ pos) :
    popWord s c i ch = none := by
  simp only [popWord, ha, Option.bind_some, hc, ht, if_true]
  cases hk : (getSlot s c i).htask with
  | none => rfl
  | some p =>
    have hp : ¬ ((getSlot s c i).chan = ch ∧ p.2 < p.1.words.length) := fun hh => by
      have := h p.1 p.2 hh.1 hk
      omega
    simpa using hp

/-- A message channel gives the next word of the first held message that has one. -/
theorem popWord_held {before after : List Held} {h : Held} {w : Vec} (ht : cn.task = false)
    (hl : (getSlot s c i).held = before ++ h :: after) (hch : h.chan = ch) (hw : h.msg.words[h.pos]? = some w)
    (hb : ∀ z ∈ before, z.chan = ch → z.msg.words.length ≤ z.pos) :
    popWord s c i ch
      = some (w, setSlot s c i { getSlot s c i with held := before ++ { h with pos := h.pos + 1 } :: after }) := by
  have ⟨h1, h2⟩ := heldOn_first (after := after) hch (List.getElem?_eq_some_iff.1 hw).1 hb
  simp [popWord, ha, hc, ht, hl, h1, h2, List.getD, hw]

/-- A message channel with no held word and no queued message gives none. -/
theorem popWord_empty (ht : cn.task = false) (hh : heldOn (getSlot s c i).held ch = none) (hq : cn.queue = []) :
    popWord s c i ch = none := by
  simp [popWord, ha, hc, ht, hh, hq]

/-- A message channel with no held word gives word 0 of the head of its queue, which becomes held. -/
theorem popWord_head {m : Msg} {rest : List Msg} (ht : cn.task = false) (hh : heldOn (getSlot s c i).held ch = none)
    (hq : cn.queue = m :: rest) :
    ∃ u, popWord s c i ch = some (m.words.getD 0 0, u) ∧ HeadHeld s u c i ch a m rest 1 := by
  obtain ⟨u, hu, hH⟩ := holdHead_some (pos := 1) ha hc ht hq
  exact ⟨u, by simp [popWord, ha, hc, ht, hh, hq, hu], hH⟩

omit ha hc in
/-- A lost message or task at the pop position is one to pop (R342). -/
theorem popWord_of_poisoned (h : popPoisoned s (getSlot s c i) ch = true) : popWord s c i ch ≠ none := by
  simp only [popPoisoned] at h
  cases hb : (getActor s (getSlot s c i).launch (getSlot s c i).actor).bind (fun y => y.chan ch) with
  | none => simp [hb] at h
  | some cn =>
    obtain ⟨a, ha, hc⟩ := Option.bind_eq_some_iff.1 hb
    simp only [hb] at h
    cases ht : cn.task with
    | true =>
      simp only [ht, if_true, Option.any_eq_true] at h
      obtain ⟨⟨t, pos⟩, hk, hp⟩ := h
      simp only [Bool.and_eq_true, decide_eq_true_eq] at hp
      simp [popWord_task ha hc ht hp.1.1 hk (List.getElem?_eq_getElem hp.1.2)]
    | false =>
      simp only [ht, Bool.false_eq_true, if_false] at h
      cases hh : heldOn (getSlot s c i).held ch with
      | some g => simp [popWord, ha, hc, ht, hh]
      | none =>
        cases hq : cn.queue with
        | nil => simp [hh, hq] at h
        | cons m rest =>
          obtain ⟨u, hu, -⟩ := popWord_head ha hc ht hh hq
          simp [hu]

end

/-! ### Channel twins that stop -/

/-- A channel twin issues with these registers and pops one word of a channel (R146). -/
def TwinIssues (i : Instr) (s : State) (srcs dsts : List RegRef) (ch : BitVec 4) : Prop :=
  ∃ f, exec i s = issue s srcs dsts fun s c i sl => withSrc s c i sl (.ch ch) f

theorem TwinIssues.of_issueVec {i : Instr} {s : State} {srcs : List RegRef} {dst : RegRef} {ch : BitVec 4} {lat : Nat} {sc : BitVec 2}
    {f : Slot → Vec → Vec × FFlags} (h : exec i s = issueVec s (.ch ch) srcs dst lat sc f) : TwinIssues i s srcs [dst] ch := ⟨_, h⟩

theorem TwinIssues.of_issueVecLocal {i : Instr} {s : State} {srcs dsts : List RegRef} {ch : BitVec 4} {fp : Bool}
    {f : Slot → Vec → List (RegRef × Vec) × FFlags} (h : exec i s = issueVecLocal s (.ch ch) srcs dsts fp f) :
    TwinIssues i s srcs dsts ch := ⟨_, h⟩

section
variable {i : Instr} {s : State} {srcs dsts : List RegRef} {ch : BitVec 4} (ht : TwinIssues i s srcs dsts ch)
  (hi : canIssue s srcs dsts = true)
include ht hi

/-- With no word to pop a twin traps CHANNEL (R32). -/
theorem TwinIssues.trapsChannel (hw : popWord s.settled s.curCore s.curSlot ch.toNat = none) :
    Traps i s 0x07 (BitVec.ofNat 64 ch.toNat) := by
  obtain ⟨f, he⟩ := ht
  have hp : popPoisoned s.settled s.found ch.toNat = false := by
    rw [← settled_cur s]
    exact eq_false_of_ne_true fun h => popWord_of_poisoned h hw
  rw [Traps, he, issue_can hi]
  simp [withSrc, hp, hw, causeCHANNEL]

/-- A twin whose word is lost traps ACCESS (R342). -/
theorem TwinIssues.trapsLost (hp : popPoisoned s.settled s.found ch.toNat = true) :
    exec i s = .next (messagePoison s.settled s.curCore s.curSlot s.cur.pc) := by
  obtain ⟨f, he⟩ := ht
  rw [he, issue_can hi]
  simp [withSrc, hp]

end

theorem vaddCh_issues (sc : BitVec 2) (m : BitVec 3) (w : Width) (b : BitVec 5) (ch : BitVec 4) (d : BitVec 5) (s : State) :
    TwinIssues (.vaddCh sc m w b ch d) s ([vr b] ++ maskDst m d) [vr d] ch := by
  have h : exec (.vaddCh sc m w b ch d) s = execVaddCh sc m w b ch d s := rfl
  rw [execVaddCh, vecInt] at h
  exact .of_issueVec h

theorem vfdivCh_issues (m : BitVec 3) (x : Flush) (b : BitVec 5) (ch : BitVec 4) (d : BitVec 5) (s : State) :
    TwinIssues (.vfdivCh m x b ch d) s ([vr b] ++ maskDst m d) [vr d] ch := by
  have h : exec (.vfdivCh m x b ch d) s = execVfdivCh m x b ch d s := rfl
  rw [execVfdivCh, vecDiv] at h
  exact .of_issueVecLocal h

theorem vfmaCh_issues (sc : BitVec 2) (m : BitVec 3) (x : Flush) (b : BitVec 5) (ch : BitVec 4) (d : BitVec 5) (s : State) :
    TwinIssues (.vfmaCh sc m x b ch d) s ([vr b, vr d] ++ maskSrc m) [vr d] ch := by
  have h : exec (.vfmaCh sc m x b ch d) s = execVfmaCh sc m x b ch d s := rfl
  rw [execVfmaCh, vecFma] at h
  exact .of_issueVec h

theorem vcmpeqCh_issues (sc : BitVec 2) (m : BitVec 3) (w : Width) (b : BitVec 5) (ch : BitVec 4) (d : BitVec 3) (s : State) :
    TwinIssues (.vcmpeqCh sc m w b ch d) s ([vr b] ++ maskSrc m) [kr d] ch := by
  have h : exec (.vcmpeqCh sc m w b ch d) s = execVcmpeqCh sc m w b ch d s := rfl
  rw [execVcmpeqCh, vecCmp] at h
  exact .of_issueVec h

theorem vmrguCh_issues (m : BitVec 3) (w : Width) (b : BitVec 5) (ch : BitVec 4) (d : BitVec 5) (s : State) :
    TwinIssues (.vmrguCh m w b ch d) s ([vr b] ++ if m = 0 then [] else [kr m, vr d, vr (d + 1)]) [vr d, vr (d + 1), vr (d + 2)] ch := by
  have h : exec (.vmrguCh m w b ch d) s = execVmrguCh m w b ch d s := rfl
  rw [execVmrguCh, vecMerge] at h
  exact .of_issueVecLocal h

/-! ### Peeking and dropping (R185) -/

@[simp] theorem popPoint_settled (s : State) (sl : Slot) (ch : Nat) : popPoint s.settled sl ch = popPoint s sl ch := rfl


theorem exec_mpeek (a d : BitVec 5) (s : State) : exec (.mpeek a d) s = execMpeek a d s := rfl
theorem exec_mdrop (a : BitVec 5) (s : State) : exec (.mdrop a) s = execMdrop a s := rfl

section
variable {s : State} {a d : BitVec 5}

/-- MPEEK of a word that stands within the message or task at the pop position. -/
theorem mpeek_completes {ws : List Vec} {p : Nat} {w : Vec} (hi : canIssue s [xr a] [vr d] = true) (hv : (s.found.rx a).toNat < 64)
    (hp : popPoint s s.found ((s.found.rx a).toNat % 16) = some (ws, p)) (hw : ws[p + (s.found.rx a).toNat / 16]? = some w) :
    exec (.mpeek a d) s = .next (
      if popPoisoned s.settled s.found ((s.found.rx a).toNat % 16) then messagePoison s.settled s.curCore s.curSlot s.cur.pc
      else retire (setSlot s.settled s.curCore s.curSlot (s.found.writeVar [(vr d, w)] 0 false)) s.curCore s.curSlot 0 (s.cur.pc + 4)) := by
  have hdist : (s.found.rx a).toNat / 16 % 4 = (s.found.rx a).toNat / 16 := Nat.mod_eq_of_lt (by omega)
  rw [exec_mpeek, execMpeek, issue_can hi]
  simp [hp, hw, hdist, Nat.not_le.2 hv]

/-- MPEEK of a word that does not stand there traps CHANNEL with its operand. -/
theorem mpeek_traps (hi : canIssue s [xr a] [vr d] = true)
    (h : 64 ≤ (s.found.rx a).toNat ∨ popPoint s s.found ((s.found.rx a).toNat % 16) = none
      ∨ ∃ ws p, popPoint s s.found ((s.found.rx a).toNat % 16) = some (ws, p) ∧ ws.length ≤ p + (s.found.rx a).toNat / 16) :
    Traps (.mpeek a d) s 0x07 (s.found.rx a) := by
  rw [Traps, exec_mpeek, execMpeek, issue_can hi]
  by_cases hv : 64 ≤ (s.found.rx a).toNat
  · simp [hv, causeCHANNEL]
  · rcases h.resolve_left hv with hn | ⟨ws, p, hp, hl⟩
    · simp [hv, hn, causeCHANNEL]
    · have hdist : (s.found.rx a).toNat / 16 % 4 = (s.found.rx a).toNat / 16 := Nat.mod_eq_of_lt (by omega)
      simp [hv, hp, hdist, List.getElem?_eq_none hl, causeCHANNEL]

/-- What an MDROP does to the state: of its slot only what it holds changes. -/
structure HeldOnly (s u : State) : Prop where
  slot : ∃ hs t, u.cur = { s.found with held := hs, htask := t }
  mem  : u.mem = s.mem
  core : u.curCore = s.curCore
  curSlot : u.curSlot = s.curSlot

theorem heldOnly_setSlot (s : State) (hs : List Held) (t : Option (Task × Nat)) :
    HeldOnly s (setSlot s.settled s.curCore s.curSlot { s.found with held := hs, htask := t }) :=
  ⟨⟨hs, t, getSlot_setSlot_self _ _ _ _⟩, rfl, rfl, rfl⟩

theorem heldOnly_settled (s : State) : HeldOnly s s.settled := ⟨⟨_, _, settled_cur s⟩, rfl, rfl, rfl⟩

theorem HeadHeld.heldOnly {u : State} {ch : Nat} {y : Actor} {m : Msg} {rest : List Msg} {pos : Nat}
    (h : HeadHeld s.settled u s.curCore s.curSlot ch y m rest pos) : HeldOnly s u := by
  refine ⟨⟨s.found.held ++ [⟨ch, m, pos, false⟩], s.found.htask, ?_⟩, h.mem, h.cur.1, h.cur.2⟩
  have hslot := h.slot
  rw [show getSlot s.settled s.curCore s.curSlot = s.found from settled_cur s] at hslot
  rw [State.cur, h.cur.1, h.cur.2]
  exact hslot

/-- The state in which an MDROP has made the message at the pop position fully popped. -/
def droppedState (s : State) (ch : Nat) : State := dropPoint s.settled s.curCore s.curSlot s.found ch

/-- A held message is fully popped where it is held. -/
theorem droppedState_held {ch : Nat} {h : Held} (hh : heldOn s.found.held ch = some h) :
    droppedState s ch = setSlot s.settled s.curCore s.curSlot
      { s.found with held := s.found.held.map fun x => if x == h then { x with pos := x.msg.words.length } else x } := by
  simp only [droppedState, dropPoint, hh]

/-- The triggering task is fully popped where it is held. -/
theorem droppedState_task {ch : Nat} (hh : heldOn s.found.held ch = none) (hk : s.found.chan = ch ∧ s.found.htask.isSome = true) :
    droppedState s ch = setSlot s.settled s.curCore s.curSlot
      { s.found with htask := s.found.htask.map fun p => (p.1, p.1.words.length) } := by
  simp [droppedState, dropPoint, hh, hk.1, hk.2]

/-- Else the head of the queue becomes held, fully popped. -/
theorem droppedState_head {ch : Nat} {cn : Chan} (hh : heldOn s.found.held ch = none)
    (hk : ¬(s.found.chan = ch ∧ s.found.htask.isSome = true))
    (hb : (getActor s s.found.launch s.found.actor).bind (fun y => y.chan ch) = some cn) :
    droppedState s ch
      = (holdHead s.settled s.curCore s.curSlot ch (cn.queue.headD ⟨0, [], 0, 0, 0, 0, false⟩).words.length).getD s.settled := by
  have hb' : (getActor s.settled s.found.launch s.found.actor).bind (fun y => y.chan ch) = some cn := hb
  simp only [droppedState, dropPoint, hh, hb']
  rw [if_neg (by simpa using hk)]

/-- With no such channel nothing is dropped. -/
theorem droppedState_noChan {ch : Nat} (hh : heldOn s.found.held ch = none) (hk : ¬(s.found.chan = ch ∧ s.found.htask.isSome = true))
    (hb : (getActor s s.found.launch s.found.actor).bind (fun y => y.chan ch) = none) : droppedState s ch = s.settled := by
  have hb' : (getActor s.settled s.found.launch s.found.actor).bind (fun y => y.chan ch) = none := hb
  simp only [droppedState, dropPoint, hh, hb']
  rw [if_neg (by simpa using hk)]

theorem heldOnly_droppedState (s : State) (ch : Nat) : HeldOnly s (droppedState s ch) := by
  cases hh : heldOn s.found.held ch with
  | some h =>
    rw [droppedState_held hh]
    exact heldOnly_setSlot s _ _
  | none =>
    by_cases hk : s.found.chan = ch ∧ s.found.htask.isSome = true
    · rw [droppedState_task hh hk]
      exact heldOnly_setSlot s _ _
    · cases hb : (getActor s s.found.launch s.found.actor).bind (fun y => y.chan ch) with
      | none =>
        rw [droppedState_noChan hh hk hb]
        exact heldOnly_settled s
      | some cn =>
        rw [droppedState_head hh hk hb]
        rcases holdHead_cases s.settled s.curCore s.curSlot ch (cn.queue.headD ⟨0, [], 0, 0, 0, 0, false⟩).words.length with
          hn | ⟨u, y, m, rest, hu, hH⟩
        · rw [hn]
          exact heldOnly_settled s
        · rw [hu]
          exact hH.heldOnly

/-- MDROP with no message, or with a full send buffer. -/
theorem mdrop_traps (hi : canIssue s [xr a] [] = true)
    (h : 16 ≤ (s.found.rx a).toNat ∨ popPoint s s.found (s.found.rx a).toNat = none) :
    Traps (.mdrop a) s 0x07 (s.found.rx a) := by
  rw [Traps, exec_mdrop, execMdrop, issue_can hi]
  simp only [popPoint_settled, Bool.or_eq_true, decide_eq_true_eq, Option.isNone_iff_eq_none, h, if_true, found_pc, causeCHANNEL]

theorem mdrop_trapsFull (hi : canIssue s [xr a] [] = true) (hv : (s.found.rx a).toNat < 16)
    (hp : (popPoint s s.found (s.found.rx a).toNat).isSome = true) (hf : 64 ≤ s.cur.sends.length) :
    Traps (.mdrop a) s 0x07 (BitVec.ofNat 64 (2 ^ 63)) := by
  have hfull : bufferFull s.found = true := by simpa [bufferFull, State.found] using hf
  have hno : (decide (16 ≤ (s.found.rx a).toNat) || (popPoint s s.found (s.found.rx a).toNat).isNone) = false := by
    simp [Nat.not_le.2 hv, Option.isNone_eq_false_iff.2 hp]
  rw [Traps, exec_mdrop, execMdrop, issue_can hi]
  simp only [popPoint_settled, hno, hfull, Bool.false_eq_true, if_false, if_true, found_pc, causeCHANNEL, fullTval]

/-- MDROP of a message: it is fully popped, and its end stands in the send buffer. -/
theorem mdrop_completes (hi : canIssue s [xr a] [] = true) (hv : (s.found.rx a).toNat < 16)
    (hp : (popPoint s s.found (s.found.rx a).toNat).isSome = true) (hf : s.cur.sends.length < 64) :
    let u := droppedState s (s.found.rx a).toNat
    exec (.mdrop a) s = .next (retire (setSlot u u.curCore u.curSlot
      { u.cur with sends := s.cur.sends ++ [.mdrop (s.found.rx a).toNat] }) u.curCore u.curSlot 0 (s.cur.pc + 4)) := by
  intro u
  have hu : HeldOnly s u := heldOnly_droppedState s _
  obtain ⟨hs, t, hslot⟩ := hu.slot
  have hsends : s.found.sends = s.cur.sends := Slot.settle_sends _
  have hfound : bufferFull s.found = false := by simpa [bufferFull, hsends] using hf
  have hcur : bufferFull u.cur = false := by rw [hslot]; exact hfound
  have hno : (decide (16 ≤ (s.found.rx a).toNat) || (popPoint s s.found (s.found.rx a).toNat).isNone) = false := by
    simp [Nat.not_le.2 hv, Option.isNone_eq_false_iff.2 hp]
  have hget : getSlot u s.curCore s.curSlot = u.cur := by rw [State.cur, hu.core, hu.curSlot]
  rw [exec_mdrop, execMdrop, issue_can hi]
  simp only [popPoint_settled, hno, hfound, Bool.false_eq_true, if_false]
  show Host.Outcome.next (bufferEntry u s.curCore s.curSlot (getSlot u s.curCore s.curSlot) causeCHANNEL _) = _
  rw [hget, bufferEntry, if_neg (by simp [hcur]), hu.core, hu.curSlot, hslot]
  simp [hsends]

/-- What an MDROP that completes leaves. -/
theorem mdrop_leaves {u t : State} {e : SendEntry} (hu : HeldOnly s u)
    (ht : t = retire (setSlot u u.curCore u.curSlot { u.cur with sends := s.cur.sends ++ [e] }) u.curCore u.curSlot 0 (s.cur.pc + 4)) :
    t.cur.sends = s.cur.sends ++ [e] ∧ t.cur.x = s.found.x ∧ t.cur.v = s.found.v ∧ t.mem = s.mem ∧ t.cur.held = u.cur.held
    ∧ (s.cur.inDebug = false → s.cur.oneStep = false → s.cur.status = .running → t.cur.pc = s.cur.pc + 4 ∧ t.cur.status = .running) := by
  obtain ⟨hs, tk, hslot⟩ := hu.slot
  have hr := retires_retire u { u.cur with sends := s.cur.sends ++ [e] } 0 (s.cur.pc + 4)
  rw [← ht] at hr
  have hcur := hr.slot
  obtain ⟨hx, hv, hsend, hheld⟩ := issued_keeps 0 (s.cur.pc + 4) { u.cur with sends := s.cur.sends ++ [e] }
  have hmem : t.mem = s.mem := by rw [hr.rest]; exact hu.mem
  refine ⟨?_, ?_, ?_, hmem, ?_, fun hd ho hrun => ?_⟩
  · rw [hcur, slotCycles_sends, hsend]
  · rw [hcur, slotCycles_x, hx, hslot]
  · rw [hcur, slotCycles_v, hv, hslot]
  · rw [hcur, slotCycles_held, hheld]
  · have hn := issued_next 0 (s.cur.pc + 4) { u.cur with sends := s.cur.sends ++ [e] } (by simp [hslot, State.found, hd])
      (by simp [hslot, State.found, ho])
    rw [hcur, slotCycles_pc, slotCycles_status, hn.1, hn.2]
    exact ⟨rfl, by simp [hslot, State.found, hrun]⟩

end

/-- With a message to pop, and no held message with a word left, the queue of a message channel has a head. -/
theorem popPoint_head {s : State} {sl : Slot} {ch : Nat} {y : Actor} {cn : Chan} (hp : (popPoint s sl ch).isSome = true)
    (hy : getActor s sl.launch sl.actor = some y) (hc : y.chan ch = some cn) (ht : cn.task = false) (hh : heldOn sl.held ch = none) :
    ∃ m rest, cn.queue = m :: rest := by
  cases hq : cn.queue with
  | nil => simp [popPoint, hy, hc, ht, hh, hq] at hp
  | cons m rest => exact ⟨m, rest, rfl⟩

/-- What an MDROP leaves of its channel, a message channel (R185): a held message is fully popped where it is, else the head of the
queue is held, fully popped, and leaves the queue. -/
theorem mdrop_channel {s t : State} {ch : Nat} {y : Actor} {cn : Chan} (hp : (popPoint s s.found ch).isSome = true)
    (hy : getActor s s.cur.launch s.cur.actor = some y) (hc : y.chan ch = some cn) (ht : cn.task = false)
    (hk : ¬(s.cur.chan = ch ∧ s.cur.htask.isSome = true)) (hheld : t.cur.held = (droppedState s ch).cur.held)
    (hl : t.launches = (droppedState s ch).launches) :
    (∀ h, heldOn s.cur.held ch = some h → t.launches = s.launches
      ∧ t.cur.held = s.cur.held.map fun z => if z = h then { z with pos := z.msg.words.length } else z)
    ∧ (heldOn s.cur.held ch = none → ∃ m rest y' cn', cn.queue = m :: rest
      ∧ t.cur.held = s.cur.held ++ [⟨ch, m, m.words.length, false⟩]
      ∧ getActor t s.cur.launch s.cur.actor = some y' ∧ y'.chan ch = some cn' ∧ cn'.queue = rest) := by
  have hfh : s.found.held = s.cur.held := Slot.settle_held _
  have hfl : s.found.launch = s.cur.launch := Slot.settle_launch _
  have hfa : s.found.actor = s.cur.actor := Slot.settle_actor _
  have hcur : getSlot s.settled s.curCore s.curSlot = s.found := settled_cur s
  refine ⟨fun h hh => ?_, fun hh => ?_⟩
  · rw [← hfh] at hh
    have hd := droppedState_held hh
    refine ⟨hl.trans (by rw [hd]; rfl), ?_⟩
    rw [hheld, hd, State.cur]
    simp [hfh]
  · rw [← hfh] at hh
    obtain ⟨m, rest, hq⟩ := popPoint_head hp (by rw [hfl, hfa]; exact hy) hc ht hh
    have ha : getActor s.settled (getSlot s.settled s.curCore s.curSlot).launch (getSlot s.settled s.curCore s.curSlot).actor = some y := by
      rw [hcur, hfl, hfa]
      exact hy
    obtain ⟨u, hu, hH⟩ := holdHead_some (pos := m.words.length) ha hc ht hq
    have hd : droppedState s ch = u := by
      rw [droppedState_head hh (by simpa [State.found] using hk) (cn := cn) (by rw [hfl, hfa, hy]; exact hc), hq]
      simp [hu]
    obtain ⟨y', cn', hy', hc', hq', -⟩ := hH.actor
    refine ⟨m, rest, y', cn', hq, ?_, ?_, hc', hq'⟩
    · rw [hheld, hd, State.cur, hH.cur.1, hH.cur.2]
      have hslot := congrArg Slot.held hH.slot
      rwa [hcur, hfh] at hslot
    · rw [hcur, hfl, hfa] at hy'
      rw [getActor_congr (hl.trans (by rw [hd]))]
      exact hy'

/-- Settles O36: a pop by the kinds of channel, the twins by the two outcomes of their word, MPEEK and MDROP by what stands at the pop
position. -/
theorem channelReads : Obligations.ChannelReads := by
  unfold Obligations.ChannelReads
  refine ⟨fun s c i ch => ⟨popWord_noChan, fun y cn ha _ hc _ => ⟨fun ht => ⟨?_, popWord_taskEmpty ha hc ht⟩,
      fun ht => ⟨?_, fun hz => ⟨popWord_empty ha hc ht (heldOn_none hz), ?_⟩⟩⟩⟩,
    fun s sc m w x b d d3 ch => ?_, fun s a d => ⟨fun hi => ⟨?_, mpeek_traps hi⟩, fun hi => ⟨mdrop_traps hi, mdrop_trapsFull hi, ?_⟩⟩⟩
  · exact fun t pos w hch hk hw => popWord_task ha hc ht hch hk hw
  · exact fun before h after w hl hch hw hb => popWord_held ha hc ht hl hch hw hb
  · intro m rest w hq hw
    obtain ⟨u, hu, hH⟩ := popWord_head ha hc ht (heldOn_none hz) hq
    obtain ⟨y', cn', hy', hc', hq', hothers⟩ := hH.actor
    have hword : m.words.getD 0 0 = w := by simp [List.getD, hw]
    exact ⟨u, y', cn', hword ▸ hu, hH.slot, hH.others, hH.mem, hy', hc', hq', hothers⟩
  · have twin {i : Instr} {srcs dsts : List RegRef} (h : TwinIssues i s srcs dsts ch) (hi : canIssue s srcs dsts = true) :=
      And.intro (h.trapsChannel hi) (h.trapsLost hi)
    exact ⟨twin (vaddCh_issues sc m w b ch d s), twin (vfdivCh_issues m x b ch d s), twin (vfmaCh_issues sc m x b ch d s),
      twin (vcmpeqCh_issues sc m w b ch d3 s), twin (vmrguCh_issues m w b ch d s)⟩
  · intro ws p w hv hp hw
    have hg := mpeek_completes (d := d) hi hv hp hw
    refine ⟨fun hl => ⟨_, hg.trans (by rw [hl, if_neg Bool.false_ne_true]), ?_⟩, fun hl => hg.trans (by rw [hl, if_pos rfl]; rfl)⟩
    rw [State.settled, State.setCur, setSlot_setSlot]
    exact retires_retire s (s.found.writeVar [(vr d, w)] 0 false) 0 (s.cur.pc + 4)
  · intro hv hp hf
    have hu := heldOnly_droppedState s (s.found.rx a).toNat
    obtain ⟨hsends, hx, hvec, hmem, hheld, hnext⟩ := mdrop_leaves (e := .mdrop (s.found.rx a).toNat) hu rfl
    refine ⟨_, mdrop_completes hi hv hp hf, hsends, hx, hvec, hmem, fun hd ho => hnext hd ho (canIssue_running hi), ?_⟩
    intro y cn hy _ hc _ ht hk
    exact mdrop_channel hp hy hc ht hk hheld rfl

end Sys2Proof.Machine
end

section
/-! SUPPORT. Dispatch (12 R287 to R290) and the entry state of an activation (01 R28), and the statement on activation entry. -/
namespace Sys2Proof.Machine

/-! ### What comes back before an activation (R304) -/

/-- The launches, memory, slots and task partitions of a state are those of another. -/
structure SameTasks (s t : State) : Prop where
  launches  : t.launches = s.launches
  mem       : t.mem = s.mem
  slots     : ∀ d j, getSlot t d j = getSlot s d j
  residents : ∀ d l, getResident t d l = getResident s d l

theorem SameTasks.refl (s : State) : SameTasks s s := ⟨rfl, rfl, fun _ _ => rfl, fun _ _ => rfl⟩

theorem SameTasks.trans {s t u : State} (h : SameTasks s t) (h' : SameTasks t u) : SameTasks s u :=
  ⟨h'.launches.trans h.launches, h'.mem.trans h.mem, fun d j => (h'.slots d j).trans (h.slots d j),
    fun d l => (h'.residents d l).trans (h.residents d l)⟩

/-- States with the same cores, launches and memory. -/
theorem SameTasks.of_cores {s t : State} (hl : t.launches = s.launches) (hm : t.mem = s.mem) (hc : t.cores = s.cores) : SameTasks s t :=
  ⟨hl, hm, fun d j => by simp only [getSlot, getCore, hc], fun d l => by simp only [getResident, getCore, hc]⟩

/-- A core written beside its slots leaves every slot. -/
theorem getSlot_modCore (s : State) (c : Nat) {f : Core → Core} (hid : ∀ k, (f k).id = k.id) (hs : ∀ k, (f k).slots = k.slots)
    (d : Nat) (j : Fin 4) : getSlot (modCore s c f) d j = getSlot s d j := by
  by_cases hd : d = c
  · subst hd
    simp only [getSlot, getCore_modCore_self s d f ((hid _).trans (getCore_id s d)), hs]
  · simp only [getSlot, getCore_modCore_ne s c f ((hid _).trans (getCore_id s c)) hd]

@[simp] theorem getSlot_setResident (s : State) (c : Nat) (r : Resident) (d : Nat) (j : Fin 4) :
    getSlot (setResident s c r) d j = getSlot s d j :=
  getSlot_modCore s c (f := fun k => { k with residents := putBy (·.launch) r k.residents }) (fun _ => rfl) (fun _ => rfl) d j

/-- A core written beside its slots and task partitions. -/
theorem SameTasks.of_modCore (s : State) (c : Nat) {f : Core → Core} (hid : ∀ k, (f k).id = k.id) (hs : ∀ k, (f k).slots = k.slots)
    (hr : ∀ k, (f k).residents = k.residents) : SameTasks s (modCore s c f) := by
  refine ⟨rfl, rfl, getSlot_modCore s c hid hs, fun d l => ?_⟩
  by_cases hd : d = c
  · subst hd
    simp only [getResident, getCore_modCore_self s d f ((hid _).trans (getCore_id s d)), hr]
  · simp only [getResident, getCore_modCore_ne s c f ((hid _).trans (getCore_id s c)) hd]

theorem sameTasks_homeMusic (s : State) (home code data : Nat) : SameTasks s (homeMusic s home code data) := by
  unfold homeMusic
  split
  · exact .of_cores rfl rfl rfl
  · exact .refl s

theorem sameTasks_restoreRow (s : State) (c : Nat) (r : SavedRow) : SameTasks s (restoreRow s c r) := by
  have hfill : SameTasks s (modCore s c fun k => fillRow k r) :=
    .of_modCore s c (fun k => by unfold fillRow; simp only []; split <;> rfl) (fun k => by unfold fillRow; simp only []; split <;> rfl)
      (fun k => by unfold fillRow; simp only []; split <;> rfl)
  simp only [restoreRow]
  split
  · exact hfill.trans ((sameTasks_homeMusic _ _ _ _).trans (.of_cores rfl rfl rfl))
  · exact hfill

/-- The rows of an actor that come back leave slots, queues and memory. -/
theorem sameTasks_restoreRows (s : State) (l : Launch) (a : Actor) : SameTasks s (restoreRows s l a) := by
  have hfold (rs : List SavedRow) : ∀ u, SameTasks u (rs.foldl (fun s r => restoreRow s a.core r) u) := by
    induction rs with
    | nil => exact SameTasks.refl
    | cons r rs ih => exact fun u => (sameTasks_restoreRow u a.core r).trans (ih _)
  exact (SameTasks.of_cores rfl rfl rfl : SameTasks s (forgetRows s l a)).trans (hfold _ _)

/-! ### The entry state (R28) -/

/-- The entry state of an activation of an actor of a launch on a channel, with the words and msgid of its message or task (R28). -/
def EntryState (l : Launch) (a : Actor) (ch : Chan) (words : Nat) (msgid : Word) (sl : Slot) : Prop :=
  sl.pc = l.tb + ch.offset.setWidth 64 * 4 ∧ sl.getX 3 = a.base ∧ sl.getX 2 = a.base + BitVec.ofNat 64 a.size
  ∧ sl.getX 5 = BitVec.ofNat 64 ch.num ∧ sl.getX 6 = BitVec.ofNat 64 words ∧ sl.msgid = msgid
  ∧ sl.getX 7 = BitVec.ofNat 64 (msgid.toNat % 2 ^ 32) ∧ sl.budget = l.budget ∧ sl.frm = l.frm ∧ sl.fflags = 0
  ∧ sl.actor = a.name ∧ sl.chan = ch.num ∧ sl.launch = l.id ∧ sl.ctx = l.ctx ∧ sl.sends = []
  ∧ sl.status = if a.firstHalt then .halted else .running

/-- What an activation of a slot holds is no part of its entry state. -/
theorem EntryState.hold {l : Launch} {a : Actor} {ch : Chan} {words : Nat} {msgid : Word} {sl : Slot}
    (h : EntryState l a ch words msgid sl) (hs : List Held) (t : Option (Task × Nat)) :
    EntryState l a ch words msgid { sl with held := hs, htask := t } := h

theorem entrySlot_entryState (s : State) (l : Launch) (a : Actor) (ch : Chan) (cls words : Nat) (msgid : Word) :
    EntryState l a ch words msgid (entrySlot s l a ch cls words msgid) := by
  have hw (w : Word) : (ofWord w).setWidth 64 = w := by simp [ofWord]
  have hn (n : Nat) : (BitVec.ofNat 512 n).setWidth 64 = BitVec.ofNat 64 n := by simp
  cases hf : a.firstHalt <;>
    simp [EntryState, entrySlot, holdSlot, undefinedSlot, Slot.reset, Slot.setReg, Slot.getX, hf, hw, hn]

theorem entrySlot_cls (s : State) (l : Launch) (a : Actor) (ch : Chan) (cls words : Nat) (msgid : Word) :
    (entrySlot s l a ch cls words msgid).cls = cls ∧ (entrySlot s l a ch cls words msgid).held = []
    ∧ (entrySlot s l a ch cls words msgid).htask = none := by
  cases hf : a.firstHalt <;> simp [entrySlot, holdSlot, undefinedSlot, Slot.reset, Slot.setReg, hf]

/-! ### A handler takes the slot -/

theorem getResident_launch (s : State) (c l : Nat) : (getResident s c l).launch = l := by
  unfold getResident
  cases h : findBy (·.launch) l (getCore s c).residents with
  | none => rfl
  | some r => exact findBy_key h

theorem getResident_setResident_self (s : State) (c : Nat) (r : Resident) : getResident (setResident s c r) c r.launch = r := by
  have hcore := getCore_modCore_self s c (fun k => { k with residents := putBy (·.launch) r k.residents }) (getCore_id s c)
  simp only [getResident, setResident, hcore]
  rw [findBy_putBy_self Resident.launch r]
  rfl

theorem getResident_setSlot (s : State) (c : Nat) (i : Fin 4) (v : Slot) (l : Nat) :
    getResident (setSlot s c i v) c l = getResident s c l := by
  simp [getResident]

/-- The state in which a handler's message or task is taken: the rows of its actor are back, and it halts at its first activation no
more. -/
def readied (s : State) (l : Launch) (a : Actor) : State :=
  let s := restoreRows s l a
  { modActor s l.id a.name fun a => { a with firstHalt := false } with free := s.free + 96, nextId := s.nextId + 1 }

section
variable {s : State} {c : Nat} {i : Fin 4} {x : Candidate} {l : Launch} {a : Actor} {ch : Chan}

theorem sameSlots_readied (s : State) (l : Launch) (a : Actor) :
    (∀ d j, getSlot (readied s l a) d j = getSlot s d j) ∧ (readied s l a).mem = s.mem
    ∧ ∀ d k, getResident (readied s l a) d k = getResident s d k := by
  have h := sameTasks_restoreRows s l a
  have hc : (readied s l a).cores = (restoreRows s l a).cores := modActor_cores _ _ _ _
  refine ⟨fun d j => ?_, (modActor_mem _ _ _ _).trans h.mem, fun d k => ?_⟩
  · rw [← h.slots d j]
    simp only [getSlot, getCore, hc]
  · rw [← h.residents d k]
    simp only [getResident, getCore, hc]

theorem getActor_readied (hl : getLaunch s l.id = some l) (ha : l.actor a.name = some a) :
    getActor (readied s l a) l.id a.name = some { a with firstHalt := false } := by
  have hg : getActor (restoreRows s l a) l.id a.name = some a := by
    rw [getActor_congr (sameTasks_restoreRows s l a).launches, getActor_of_launch hl, ha]
  exact getActor_modActor_self (f := fun a => { a with firstHalt := false }) hg rfl

variable (hl : getLaunch s x.launch = some l) (ha : l.actor x.name = some a) (hc : a.chan x.chan = some ch)
include hl ha hc

/-- A handler activation on a message. -/
theorem dispatchHandler_message {m : Msg} {rest : List Msg} (ht : x.task = false) (hq : ch.queue = m :: rest) (hb : m.bad = false) :
    dispatchHandler s c i x = setSlot
      (modChan (readied s l a) l.id a.name ch.num fun y => { y with queue := rest, unbound := none, ucount := 0 }) c i
      { entrySlot s l a ch m.cls m.words.length m.msgid with held := [⟨ch.num, m, 0, true⟩] } := by
  simp only [dispatchHandler, hl, ha, hc, ht, hq, hb, Bool.false_eq_true, if_false]
  rfl

/-- A handler activation on a task. -/
theorem dispatchHandler_task {k : Task} {rest : List Task} (ht : x.task = true) (hk : (getResident s c l.id).tasks = k :: rest)
    (hb : k.bad = false) :
    dispatchHandler s c i x = setSlot (setResident (readied s l a) c { getResident s c l.id with tasks := rest }) c i
      { entrySlot s l a ch 0 k.words.length (msgidOf k.src 0) with htask := some (k, 0) } := by
  have hres : getResident (readied s l a) c l.id = getResident s c l.id := (sameSlots_readied s l a).2.2 c l.id
  simp only [readied] at hres
  simp only [dispatchHandler, hl, ha, hc, ht, hres, hk, hb, if_true, Bool.false_eq_true, if_false]
  rfl

/-- What a handler activation on a message leaves: the entry state, the message held, and its queue behind it. -/
theorem dispatchHandler_message_leaves {t : State} {m : Msg} {rest : List Msg} (ht : x.task = false) (hq : ch.queue = m :: rest)
    (hb : m.bad = false) (h : t = dispatchHandler s c i x) :
    OtherSlots s t c i ∧ t.mem = s.mem ∧ EntryState l a ch m.words.length m.msgid (getSlot t c i) ∧ (getSlot t c i).cls = m.cls
    ∧ (getSlot t c i).held = [⟨ch.num, m, 0, true⟩] ∧ (getSlot t c i).htask = none
    ∧ ∃ b ch', getActor t l.id a.name = some b ∧ b.chan ch.num = some ch' ∧ ch'.queue = rest := by
  have hname := Launch.actor_name ha
  have hnum := Actor.chan_num hc
  obtain ⟨hslots, hmem, -⟩ := sameSlots_readied s l a
  have hact : getActor (readied s l a) l.id a.name = some { a with firstHalt := false } :=
    getActor_readied (by rw [getLaunch_id hl, hl]) (by rw [hname, ha])
  obtain ⟨hcls, -, htask⟩ := entrySlot_cls s l a ch m.cls m.words.length m.msgid
  rw [dispatchHandler_message hl ha hc ht hq hb] at h
  have hslot := h ▸ getSlot_setSlot_self _ c i _
  rw [hslot]
  refine ⟨?_, ?_, (entrySlot_entryState s l a ch m.cls m.words.length m.msgid).hold _ _, hcls, rfl, htask, ?_⟩
  · rw [h]
    exact otherSlots_setSlot (fun d j => (getSlot_modChan _ _ _ _ _ d j).trans (hslots d j)) c i _
  · rw [h]
    exact (modChan_mem _ _ _ _ _).trans hmem
  · let ch' : Chan := { ch with queue := rest, unbound := none, ucount := 0 }
    have hch' : getActor t l.id a.name = some (({ a with firstHalt := false } : Actor).setChan ch') := by
      rw [h]
      exact getActor_modChan_self hact (by rw [hnum]; exact hc)
    exact ⟨_, ch', hch', Actor.chan_setChan_self _ ch', rfl⟩

/-- What a handler activation on a task leaves: the entry state, the task held, and the core's queue behind it. -/
theorem dispatchHandler_task_leaves {t : State} {k : Task} {rest : List Task} (ht : x.task = true)
    (hk : (getResident s c l.id).tasks = k :: rest) (hb : k.bad = false) (h : t = dispatchHandler s c i x) :
    OtherSlots s t c i ∧ t.mem = s.mem ∧ EntryState l a ch k.words.length (msgidOf k.src 0) (getSlot t c i)
    ∧ (getSlot t c i).htask = some (k, 0) ∧ (getSlot t c i).held = [] ∧ (getResident t c l.id).tasks = rest := by
  obtain ⟨hslots, hmem, -⟩ := sameSlots_readied s l a
  obtain ⟨-, hheld, -⟩ := entrySlot_cls s l a ch 0 k.words.length (msgidOf k.src 0)
  rw [dispatchHandler_task hl ha hc ht hk hb] at h
  have hslot := h ▸ getSlot_setSlot_self _ c i _
  rw [hslot]
  refine ⟨?_, ?_, (entrySlot_entryState s l a ch 0 k.words.length (msgidOf k.src 0)).hold _ _, rfl, hheld, ?_⟩
  · rw [h]
    exact otherSlots_setSlot (fun d j => (getSlot_setResident _ _ _ d j).trans (hslots d j)) c i _
  · rw [h]
    exact hmem
  · let r : Resident := { getResident s c l.id with tasks := rest }
    have hr : r.launch = l.id := getResident_launch s c l.id
    rw [h, getResident_setSlot]
    show (getResident (setResident (readied s l a) c r) c l.id).tasks = rest
    rw [← hr, getResident_setResident_self]

end

/-! ### A leaf task takes the slot -/

/-- The slot of a core taken by a leaf task of a job (R228, R287). -/
def leafTaken (s : State) (c : Nat) (i : Fin 4) (j : QJob) (job : Nat) (path : List Nat) : State :=
  let s' := modCore s c fun k => { k with leaves := k.leaves.filter fun p => p != (job, path) }
  setSlot { s' with free := s.free + 96 } c i { undefinedSlot s with status := .leaf job path, launch := j.launch, ctx := j.ctx }

theorem dispatchLeaf_ready {s : State} {c : Nat} {i : Fin 4} {job : Nat} {path : List Nat} {j : QJob} (hj : getQJob s job = some j)
    (hl : (j.leafAt path).isSome = true) : dispatchLeaf s c i job path = leafTaken s c i j job path := by
  simp only [dispatchLeaf, hj, hl, if_true]
  rfl

/-- The first task of a leaf that is given its data now (R225). -/
theorem dispatchLeaf_first {s : State} {c : Nat} {i : Fin 4} {job : Nat} {path : List Nat} {j j' : QJob} {r : QRoot}
    (hj : getQJob s job = some j) (hl : j.leafAt path = none) (hr : qRoot j = .ok r)
    (hj' : getQJob (allocLeaf s j r path) job = some j') (hl' : (j'.leafAt path).isSome = true) :
    dispatchLeaf s c i job path = leafTaken (allocLeaf s j r path) c i j job path := by
  simp only [dispatchLeaf, hj, hl, hr, hj', hl', Option.isSome_none, Bool.false_eq_true, if_false, if_true]
  rfl

theorem leafTaken_slot (s : State) (c : Nat) (i : Fin 4) (j : QJob) (job : Nat) (path : List Nat) :
    (getSlot (leafTaken s c i j job path) c i).status = .leaf job path ∧ (getSlot (leafTaken s c i j job path) c i).launch = j.launch
    ∧ (job, path) ∉ (getCore (leafTaken s c i j job path) c).leaves := by
  let f : Core → Core := fun k => { k with leaves := k.leaves.filter fun p => p != (job, path) }
  have hcore : getCore { modCore s c f with free := s.free + 96 } c = f (getCore s c) :=
    getCore_modCore_self s c f (getCore_id s c)
  refine ⟨by simp [leafTaken], by simp [leafTaken], ?_⟩
  simp only [leafTaken, getCore_setSlot_self]
  show _ ∉ (getCore { modCore s c f with free := s.free + 96 } c).leaves
  rw [hcore]
  simp [f]

theorem leafTaken_others (s : State) (c : Nat) (i : Fin 4) (j : QJob) (job : Nat) (path : List Nat) :
    OtherSlots s (leafTaken s c i j job path) c i ∧ (leafTaken s c i j job path).mem = s.mem :=
  ⟨otherSlots_setSlot (getSlot_modCore s c (f := fun k => { k with leaves := k.leaves.filter fun p => p != (job, path) })
    (fun _ => rfl) (fun _ => rfl)) c i _, rfl⟩

/-! ### The event -/

theorem exec_dispatch (c : Nat) (i : Fin 4) (s : State) : exec (.evDispatch c i) s = execEvDispatch c i s := rfl

theorem dispatch_disabled {s : State} {c : Nat} (i : Fin 4) (h : coreEnabled s c = false) :
    exec (.evDispatch c i) s = notPermitted "DISPATCH" := by
  simp [exec_dispatch, execEvDispatch, h]

section
variable {s : State} {c : Nat} {i : Fin 4} (he : coreEnabled s c = true) (hc : clocksRun s = true)
  (hf : (getSlot s c i).status = .free) (hp : s.power.moving ≠ some .toP2)
include he hc hf hp

/-- A core that may dispatch gives its free slot the handler that it selects. -/
theorem dispatch_handler {x : Candidate} (hx : select s c = .handler x) :
    exec (.evDispatch c i) s = .next (dispatchHandler s c i x) := by
  simp [exec_dispatch, execEvDispatch, he, hc, hf, hp, hx]

theorem dispatch_leaf {j : Nat} {p : List Nat} (hx : select s c = .leaf j p) :
    exec (.evDispatch c i) s = .next (dispatchLeaf s c i j p) := by
  simp [exec_dispatch, execEvDispatch, he, hc, hf, hp, hx]

theorem dispatch_nothing (hx : select s c = .nothing) : exec (.evDispatch c i) s = notPermitted "DISPATCH" := by
  simp [exec_dispatch, execEvDispatch, he, hc, hf, hp, hx]

end

/-- Settles O42: what DISPATCH gives the slot, by what is selected. -/
theorem activationEntry : Obligations.ActivationEntry := by
  unfold Obligations.ActivationEntry
  refine fun s c i => ⟨dispatch_disabled i, fun he hc hf hp => ?_⟩
  refine ⟨fun x l a ch hx hl ha hch => ⟨fun ht m rest hq hb => ?_, fun ht k rest hk hb => ?_⟩,
    fun j p q hsel hq => ⟨fun hleaf => ?_, fun hleaf r q' hr hq' hleaf' => ?_⟩, dispatch_nothing he hc hf hp⟩
  · exact ⟨_, dispatch_handler he hc hf hp hx, dispatchHandler_message_leaves hl ha hch ht hq hb rfl⟩
  · exact ⟨_, dispatch_handler he hc hf hp hx, dispatchHandler_task_leaves hl ha hch ht hk hb rfl⟩
  · refine ⟨_, dispatch_leaf he hc hf hp hsel, ?_⟩
    rw [dispatchLeaf_ready hq hleaf]
    exact ⟨(leafTaken_others s c i q j p).1, (leafTaken_others s c i q j p).2, leafTaken_slot s c i q j p⟩
  · refine ⟨_, dispatch_leaf he hc hf hp hsel, ?_⟩
    rw [dispatchLeaf_first hq hleaf hr hq' hleaf']
    obtain ⟨hst, -, hgone⟩ := leafTaken_slot (allocLeaf s q r p) c i q j p
    exact ⟨hst, hgone⟩

end Sys2Proof.Machine
end

section
/-! SUPPORT. The activation that is aborted (14 R334), and the matrix operations that it leaves due (01 R29). -/
namespace Sys2Proof.Machine

/-! ### An aborted activation -/

theorem modActor_reports (s : State) (l n : Nat) (f : Actor → Actor) : (modActor s l n f).reports = s.reports := by
  simp only [modActor, setActor, modLaunch]
  split <;> (try split) <;> rfl

/-- The memory and reports of a state are those of another, and so is every slot but one. -/
structure OneSlot (s t : State) (c : Nat) (i : Fin 4) : Prop where
  others  : OtherSlots s t c i
  mem     : t.mem = s.mem
  reports : t.reports = s.reports

theorem OneSlot.of_slots {s t : State} (c : Nat) (i : Fin 4) (h : ∀ d j, getSlot t d j = getSlot s d j) (hm : t.mem = s.mem)
    (hr : t.reports = s.reports) : OneSlot s t c i := ⟨fun d j _ => h d j, hm, hr⟩

theorem OneSlot.trans {s t u : State} {c : Nat} {i : Fin 4} (h : OneSlot s t c i) (h' : OneSlot t u c i) : OneSlot s u c i :=
  ⟨fun d j hne => (h'.others d j hne).trans (h.others d j hne), h'.mem.trans h.mem, h'.reports.trans h.reports⟩

theorem OneSlot.of_setSlot (s : State) (c : Nat) (i : Fin 4) (v : Slot) : OneSlot s (setSlot s c i v) c i :=
  ⟨otherSlots_setSlot (fun _ _ => rfl) c i v, rfl, rfl⟩

theorem oneSlot_dropToken (s : State) (c : Nat) (i : Fin 4) : OneSlot s (dropToken s c i) c i := by
  simp only [dropToken]
  split
  · refine OneSlot.trans ?_ (.of_setSlot _ c i _)
    exact .of_slots c i (fun _ _ => rfl) rfl rfl
  · exact .of_slots c i (fun _ _ => rfl) rfl rfl

/-- Aborting an activation touches no other slot, no memory and no report (R334 step 3). -/
theorem oneSlot_abortSlot (s : State) (c : Nat) (i : Fin 4) : OneSlot s (abortSlot s c i) c i := by
  simp only [abortSlot]
  refine OneSlot.trans ?_ (.of_setSlot _ c i Slot.reset)
  refine OneSlot.trans ?_ (.of_slots c i (getSlot_modCore _ c (f := fun k => { k with late := k.late ++ lateMats (getSlot s c i) })
    (fun _ => rfl) (fun _ => rfl)) rfl rfl)
  refine OneSlot.trans ?_ ((oneSlot_dropToken _ c i).trans (.of_slots c i (fun _ _ => rfl) rfl rfl))
  have hactor := OneSlot.of_slots c i (getSlot_modActor s (getSlot s c i).launch (getSlot s c i).actor
    fun a => { a with chans := a.chans.map (returnHeld (getSlot s c i).held) }) (modActor_mem _ _ _ _) (modActor_reports _ _ _ _)
  split
  · exact hactor
  · exact hactor.trans (.of_slots c i (getSlot_setResident _ _ _) rfl rfl)

@[simp] theorem getSlot_report (s : State) (r : FaultReport) (d : Nat) (j : Fin 4) : getSlot (report s r) d j = getSlot s d j := rfl

theorem getSlot_abortSlot (s : State) (c : Nat) (i : Fin 4) : getSlot (abortSlot s c i) c i = Slot.reset := getSlot_setSlot_self _ c i _

/-! ### Rows by rising number -/

/-- The rows of a core stand by rising number, each once. -/
def Core.rowsRise (k : Core) : Prop := k.rows.Pairwise fun p q => p.1 < q.1

theorem mem_putBy {α : Type} {key : α → Nat} {x z : α} {l : List α} (h : z ∈ putBy key x l) : z = x ∨ z ∈ l := by
  induction l with
  | nil => exact Or.inl (List.mem_singleton.1 h)
  | cons y l ih =>
    simp only [putBy] at h
    split at h
    · exact List.mem_cons.1 h
    · split at h
      · exact (List.mem_cons.1 h).imp_right (List.mem_cons_of_mem y)
      · rcases List.mem_cons.1 h with rfl | h
        · exact Or.inr List.mem_cons_self
        · exact (ih h).imp_right (List.mem_cons_of_mem y)

theorem pairwise_putBy {α : Type} {key : α → Nat} (x : α) {l : List α} (h : l.Pairwise fun p q => key p < key q) :
    (putBy key x l).Pairwise fun p q => key p < key q := by
  induction l with
  | nil => simp [putBy]
  | cons y l ih =>
    obtain ⟨hy, hl⟩ := List.pairwise_cons.1 h
    simp only [putBy]
    split
    · next hlt =>
      refine List.pairwise_cons.2 ⟨fun z hz => ?_, h⟩
      rcases List.mem_cons.1 hz with rfl | hz
      · exact hlt
      · exact Nat.lt_trans hlt (hy z hz)
    · split
      · next heq => exact List.pairwise_cons.2 ⟨fun z hz => heq ▸ hy z hz, hl⟩
      · next hlt hne =>
        refine List.pairwise_cons.2 ⟨fun z hz => ?_, ih hl⟩
        rcases mem_putBy hz with rfl | hz
        · omega
        · exact hy z hz

theorem setRow_rowsRise {k : Core} (h : k.rowsRise) (n : Nat) (v : Vec) : (setRow k n v).rowsRise := by
  simp only [Core.rowsRise, setRow]
  split
  · exact List.Pairwise.filter _ h
  · exact pairwise_putBy (key := fun p : Nat × Vec => p.1) (n, v) h

theorem zeroRows_zero (k : Core) (first : Nat) : zeroRows k first 0 = k := rfl

theorem zeroRows_succ (k : Core) (first n : Nat) : zeroRows k first (n + 1) = zeroRows (setRow k first 0) (first + 1) n := by
  delta zeroRows
  rfl

theorem zeroRows_rowsRise (n : Nat) : ∀ {k : Core} (first : Nat), k.rowsRise → (zeroRows k first n).rowsRise := by
  induction n with
  | zero =>
    intro k first h
    rw [zeroRows_zero]
    exact h
  | succ n ih =>
    intro k first h
    rw [zeroRows_succ]
    exact ih (first + 1) (setRow_rowsRise h first 0)

theorem updateRows_rowsRise (acc : Nat) (t : Word) (f : Nat → Nat → Nat → Nat) (l : List (Nat × Nat)) :
    ∀ {k : Core}, k.rowsRise → (updateRows acc t f k l).rowsRise := by
  induction l with
  | nil => exact fun h => h
  | cons p l ih => exact fun h => ih (setRow_rowsRise h _ _)

theorem loadBlocks_rowsRise (acc fmt : Nat) (t : Word) (bs : List (Nat × Vec × Desc)) :
    ∀ {k : Core}, k.rowsRise → (loadBlocks acc fmt t k bs).rowsRise := by
  induction bs with
  | nil => exact fun h => h
  | cons b bs ih => exact fun h => ih (updateRows_rowsRise _ _ _ _ h)

/-- What a matrix operation does to the rows keeps their order. -/
theorem landMat_rowsRise {k : Core} (h : k.rowsRise) (m : MatOp) : (landMat k m).rowsRise := by
  unfold landMat
  cases m.kind with
  | mzero first count => exact zeroRows_rowsRise count first h
  | mrdv vd row => exact h
  | mwrv row v => exact setRow_rowsRise h row v
  | mmac f sat t => exact updateRows_rowsRise _ _ _ _ h
  | mbin isAnd sat t => exact updateRows_rowsRise _ _ _ _ h
  | mload acc fmt t => exact loadBlocks_rowsRise acc fmt t m.blocks h

/-! ### Rows put over others -/

theorem findBy_foldl_putBy {α : Type} {key : α → Nat} (q : Nat) (l : List α) : ∀ base : List α,
    (l.Pairwise fun x y => key x < key y) →
    findBy key q (l.foldl (fun b x => putBy key x b) base) = (findBy key q l).or (findBy key q base) := by
  induction l with
  | nil => exact fun _ _ => rfl
  | cons x l ih =>
    intro base h
    obtain ⟨hx, hl⟩ := List.pairwise_cons.1 h
    rw [List.foldl_cons, ih _ hl]
    by_cases hq : key x = q
    · have hnone : findBy key q l = none := by
        simp only [findBy, List.find?_eq_none, beq_iff_eq]
        intro y hy he
        have := hx y hy
        omega
      have hhead : findBy key q (x :: l) = some x := by simp [findBy, hq]
      rw [hnone, hhead, ← hq, findBy_putBy_self]
      rfl
    · have htail : findBy key q (x :: l) = findBy key q l := by simp [findBy, hq]
      rw [htail, findBy_putBy_ne key x base (Ne.symm hq)]

/-- A search by key among the entries whose key is kept. -/
theorem findBy_filter_key {α : Type} {key : α → Nat} (p : Nat → Bool) (q : Nat) (l : List α) :
    findBy key q (l.filter fun r => p (key r)) = if p q then findBy key q l else none := by
  have hpred : (fun r : α => decide (p (key r) = true ∧ (key r == q) = true)) = fun r => p q && key r == q := by
    funext r
    by_cases hr : key r = q <;> simp [hr]
  simp only [findBy, List.find?_filter, hpred]
  cases p q <;> simp

/-- The rows of a core in which an actor's own are taken from another core. -/
theorem rowValue_mix {k t : Core} (own : Nat → Bool) (h : t.rowsRise) (k' : Core)
    (hk : k'.rows = (t.rows.filter fun r => own r.1).foldl (fun l r => putBy (·.1) r l) (k.rows.filter fun r => !own r.1)) (q : Nat) :
    rowValue k' q = if own q then rowValue t q else rowValue k q := by
  have hfound := findBy_foldl_putBy (key := fun r : Nat × Vec => r.1) q (t.rows.filter fun r => own r.1)
    (k.rows.filter fun r => !own r.1) (List.Pairwise.filter _ h)
  rw [findBy_filter_key own, findBy_filter_key fun r => !own r] at hfound
  simp only [rowValue, hk, hfound]
  cases own q <;> simp

/-! ### The first late operation -/

theorem firstLate_append {m : LateMat} (hm : m.accs = []) (after : List LateMat) (before : List LateMat) : ∀ earlier : List LateMat,
    (∀ y ∈ earlier ++ before, ¬(y.launch = m.launch ∧ y.actor = m.actor)) → (∀ y ∈ before, y.accs ≠ []) →
    firstLate earlier (before ++ m :: after) = some m := by
  induction before with
  | nil =>
    intro earlier hne _
    have hno : earlier.any (fun x => x.launch == m.launch && x.actor == m.actor) = false := by
      simpa using hne
    simp [firstLate, hm, hno]
  | cons y before ih =>
    intro earlier hne ha
    have hy : y.accs.isEmpty = false := by simpa using ha y List.mem_cons_self
    simp only [List.cons_append, firstLate, hy, Bool.false_and, Bool.false_eq_true, if_false]
    exact ih (earlier ++ [y]) (by simpa using hne) fun z hz => ha z (List.mem_cons_of_mem y hz)

/-- A late operation with no lost row takes effect on the rows that its actor owns. -/
theorem landLate_leaves {s : State} {c : Nat} {m : LateMat} {a : Actor} (ha : getActor s m.launch m.actor = some a)
    (hr : ∀ r ∈ m.op.rowsRead, r ∉ (getCore s c).badRows) (hs : (getCore s c).rowsRise) :
    (landLate s c m).mem = s.mem ∧ (∀ d j, getSlot (landLate s c m) d j = getSlot s d j)
    ∧ (getCore (landLate s c m) c).late = (getCore s c).late.filter (fun y => y.op.id != m.op.id)
    ∧ ∀ q, rowValue (getCore (landLate s c m) c) q
        = if a.owns q then rowValue (landMat (getCore s c) m.op) q else rowValue (getCore s c) q := by
  have hfind : m.op.rowsRead.find? (fun r => (getCore s c).badRows.contains r) = none := by
    simpa [List.find?_eq_none] using hr
  have hland : landLate s c m = modCore s c fun k =>
      { k with late := (getCore s c).late.filter fun x => x.op.id != m.op.id
               rows := ((landMat (getCore s c) m.op).rows.filter fun r => a.owns r.1).foldl (fun l r => putBy (·.1) r l)
                 ((getCore s c).rows.filter fun r => !a.owns r.1)
               badRows := (getCore s c).badRows.filter fun r => !a.owns r || (landMat (getCore s c) m.op).badRows.contains r } := by
    simp only [landLate, hfind, ha]
    rfl
  rw [hland]
  refine ⟨rfl, getSlot_modCore s c (fun _ => rfl) (fun _ => rfl), ?_, fun q => ?_⟩
  · rw [getCore_modCore_self s c _ (getCore_id s c)]
  · rw [getCore_modCore_self s c _ (getCore_id s c)]
    exact rowValue_mix a.owns (landMat_rowsRise hs m.op) _ rfl q

end Sys2Proof.Machine
end

section
/-! SUPPORT. The events of one slot, each by what its guard admits and what it leaves, and the statement on them. -/
namespace Sys2Proof.Machine

/-- An event whose meaning is a guarded one occurs exactly under a condition that says the same as its guard. -/
theorem occurs_when {i : Instr} {event : String} {s f : State} {ok : Bool} {ok' : Prop} {P : State → Prop}
    (h : exec i s = guarded event s ok f) (hk : (clocksRun s = true ∧ ok = true) ↔ ok') (hP : P f) : Occurs i event s ok' P := by
  rw [Occurs, ← hk]
  exact occurs_guarded h fun _ _ => hP

section
variable (s : State) (c : Nat) (i : Fin 4)

theorem exec_budget : exec (.evBudget c i) s = execEvBudget c i s := rfl
theorem exec_sequence : exec (.evSequence c i) s = execEvSequence c i s := rfl
theorem exec_variableLatencyWrite (n : Nat) : exec (.evVariableLatencyWrite c i n) s = execEvVariableLatencyWrite c i n s := rfl
theorem exec_directoryLookup : exec (.evDirectoryLookup c i) s = execEvDirectoryLookup c i s := rfl
theorem exec_ecallResume (r0 r1 : Word) : exec (.evEcallResume c i r0 r1) s = execEvEcallResume c i r0 r1 s := rfl
theorem exec_ecallRefuse : exec (.evEcallRefuse c i) s = execEvEcallRefuse c i s := rfl
theorem exec_egpostTimeout : exec (.evEgpostTimeout c i) s = execEvEgpostTimeout c i s := rfl
theorem exec_illegal (w : BitVec 32) : exec (.evIllegal w) s = execEvIllegal w s := rfl
theorem exec_fetchOutsideText : exec .evFetchOutsideText s = execEvFetchOutsideText s := rfl

end

/-! ### The budget (R37) -/

theorem countsBudget_running {x : Slot} (hr : x.status = .running) (hd : x.inDebug = false) : countsBudget x = true := by
  simp [countsBudget, hr, hd]

/-- Where no budget counts: in debug execution, in a slot that is free, waits for a service or a debugger, or commits, and in a leaf
task. -/
theorem countsBudget_stops {x : Slot} (h : x.inDebug = true ∨ x.status ∈ [.free, .ecall, .halted, .hend]
    ∨ (∃ va k b, x.status = .hendWalk va k b) ∨ ∃ j p, x.onLeaf j p = true) : countsBudget x = false := by
  rcases h with hd | hs | ⟨va, k, b, hs⟩ | ⟨j, p, hl⟩
  · cases hs : x.status <;> simp [countsBudget, hs, hd]
  · simp only [List.mem_cons, List.not_mem_nil, or_false] at hs
    rcases hs with hs | hs | hs | hs <;> simp [countsBudget, hs]
  · simp [countsBudget, hs]
  · cases hs : x.status <;> simp [Slot.onLeaf, hs] at hl <;> simp [countsBudget, hs]

theorem budget_of_slotCycles {s : State} {x : Slot} (h : countsBudget x = false) (n : Nat) : (slotCycles s n x).budget = x.budget := by
  simp only [slotCycles, h, Bool.false_eq_true, if_false]
  split <;> rfl

variable {s : State} {c : Nat} {i : Fin 4}

theorem budget_occurs {l : Launch} (hl : getLaunch s (getSlot s c i).launch = some l) :
    Occurs (.evBudget c i) "BUDGET" s (clocksRun s = true ∧ countsBudget (getSlot s c i) = true ∧ (getSlot s c i).budget = 0)
      fun t => t = takeTrap s c i 0x05 (BitVec.ofNat 64 l.budget) (getSlot s c i).pc := by
  refine occurs_when (exec_budget s c i) (by simp) ?_
  simp only [budgetTrap, hl, causeBUDGET]

theorem budget_notPermitted (h : countsBudget (getSlot s c i) = false) : exec (.evBudget c i) s = notPermitted "BUDGET" := by
  simp [exec_budget, execEvBudget, guarded, h]

/-! ### Tokens and late results (R246, R21, R29) -/

theorem sequence_occurs {q : Seqr} (hq : (getSlot s c i).status = .token q) :
    Occurs (.evSequence c i) "SEQUENCE" s (clocksRun s = true ∧ q ∉ s.tokens) fun t =>
      t = setSlot { s with tokens := s.tokens ++ [q] } c i { getSlot s c i with status := .running, token := some q } := by
  have he : exec (.evSequence c i) s = guarded "SEQUENCE" s (!s.tokens.contains q)
      (setSlot { s with tokens := s.tokens ++ [q] } c i { getSlot s c i with status := .running, token := some q }) := by
    simp only [exec_sequence, execEvSequence, hq]
  exact occurs_when he (by simp) rfl

theorem setRegs_locals (ws : List (RegRef × Vec)) : ∀ sl : Slot, (sl.setRegs ws).locals = sl.locals := by
  induction ws with
  | nil => exact fun _ => rfl
  | cons w ws ih => exact fun sl => (ih _).trans (Slot.setReg_locals sl w.1 w.2)

/-- A local result of one vector or scalar register. -/
theorem completeLocal_leaves (x : Slot) (r : LocalRes) :
    (completeLocal x r).locals = x.locals ∧ (completeLocal x r).fflags = x.fflags ||| r.flags
    ∧ (∀ d v, d < 32 → r.writes = [(⟨.v, d⟩, v)] →
        (completeLocal x r).getV d = v ∧ (completeLocal x r).x = x.x ∧ (completeLocal x r).k = x.k)
    ∧ ∀ d v, 0 < d → d < 32 → r.writes = [(⟨.x, d⟩, v)] →
        (completeLocal x r).getX d = v.setWidth 64 ∧ (completeLocal x r).v = x.v ∧ (completeLocal x r).k = x.k := by
  refine ⟨setRegs_locals r.writes x, rfl, fun d v hd hw => ?_, fun d v h0 hd hw => ?_⟩
  · simp [completeLocal, hw, Slot.setRegs, Slot.setReg, Slot.getV, hd]
  · have h0' : d ≠ 0 := by omega
    simp [completeLocal, hw, Slot.setRegs, Slot.setReg, Slot.getX, hd, h0']

theorem localResult_occurs {n : Nat} {r : LocalRes} (hn : (getSlot s c i).locals[n]? = some r) :
    Occurs (.evVariableLatencyWrite c i n) "VARIABLE_LATENCY_WRITE" s (clocksRun s = true) fun t =>
      t = setSlot s c i (completeLocal { getSlot s c i with locals := (getSlot s c i).locals.eraseIdx n } r) := by
  have he : exec (.evVariableLatencyWrite c i n) s = guarded "VARIABLE_LATENCY_WRITE" s true
      (setSlot s c i (completeLocal { getSlot s c i with locals := (getSlot s c i).locals.eraseIdx n } r)) := by
    simp only [exec_variableLatencyWrite, execEvVariableLatencyWrite, hn]
  exact occurs_when he (by simp) rfl

/-- The oldest matrix operation of a slot, its blocks arrived, takes effect. -/
theorem matrixOperation_completes {m : MatOp} {rest : List MatOp} (hm : (getSlot s c i).mats = m :: rest)
    (hb : m.blocks.length = m.need) (hc : clocksRun s = true) :
    exec (.evVariableLatencyWrite c i (getSlot s c i).locals.length) s
      = .next (completeMat (setSlot s c i { getSlot s c i with mats := rest }) c i m) := by
  simp [exec_variableLatencyWrite, execEvVariableLatencyWrite, hm, guarded, hc, hb]

/-- The first matrix operation that an aborted activation has left due takes effect. -/
theorem lateOperation_lands {m : LateMat} (hm : firstLate [] (getCore s c).late = some m) (hc : clocksRun s = true) :
    exec (.evVariableLatencyWrite c i ((getSlot s c i).locals.length + 1)) s = .next (landLate s c m) := by
  simp [exec_variableLatencyWrite, execEvVariableLatencyWrite, hm, guarded, hc]

/-! ### The directory and the services (R177, R119) -/

theorem cachedNode_cacheNode_self (s : State) (c l name node : Nat) : cachedNode (cacheNode s c l name node) c l name = some node := by
  simp only [cachedNode, cacheNode]
  rw [getCore_modCore_self s c _ (getCore_id s c)]
  simp

@[simp] theorem getSlot_cacheNode (s : State) (c l name node d : Nat) (j : Fin 4) :
    getSlot (cacheNode s c l name node) d j = getSlot s d j :=
  getSlot_modCore s c (f := fun k =>
    { k with dir := ⟨l, name, node⟩ :: k.dir.filter fun e => !(e.launch == l && e.name == name) }) (fun _ => rfl) (fun _ => rfl) d j

theorem directoryLookup_occurs {name : Nat} {a : Actor} (hs : (getSlot s c i).status = .lookup name)
    (ha : getActor s (getSlot s c i).launch name = some a) :
    Occurs (.evDirectoryLookup c i) "DIRECTORY_LOOKUP" s (clocksRun s = true) fun t =>
      getSlot t c i = { getSlot s c i with status := .running } ∧ cachedNode t c (getSlot s c i).launch name = some a.node
      ∧ OtherSlots s t c i ∧ t.mem = s.mem := by
  have he : exec (.evDirectoryLookup c i) s = guarded "DIRECTORY_LOOKUP" s true
      (cacheNode (setSlot s c i { getSlot s c i with status := .running }) c (getSlot s c i).launch name a.node) := by
    simp only [exec_directoryLookup, execEvDirectoryLookup, hs, ha]
  refine occurs_when he (by simp) ⟨?_, cachedNode_cacheNode_self _ c _ name a.node, ?_, rfl⟩
  · rw [getSlot_cacheNode, getSlot_setSlot_self]
  · intro d j hne
    rw [getSlot_cacheNode]
    exact (OneSlot.of_setSlot s c i _).others d j hne

/-- The slot of an ECALL that is answered goes on with the results in a0 and a1. -/
theorem answeredSlot_getX (x : Slot) (r0 r1 : Word) {n : Nat} (hn : n < 32) :
    ((x.setReg ⟨.x, 5⟩ (ofWord r0)).setReg ⟨.x, 6⟩ (ofWord r1)).getX n = if n = 5 then r0 else if n = 6 then r1 else x.getX n := by
  have hw (w : Word) : (ofWord w).setWidth 64 = w := by simp [ofWord]
  by_cases h5 : n = 5
  · simp [Slot.setReg, Slot.getX, hw, h5]
  · by_cases h6 : n = 6
    · simp [Slot.setReg, Slot.getX, hw, h6]
    · have e5 : ¬ 5 = n := fun h => h5 h.symm
      have e6 : ¬ 6 = n := fun h => h6 h.symm
      simp [Slot.setReg, Slot.getX, h5, h6, hn, e5, e6]

theorem ecallResume_occurs (r0 r1 : Word) (ho : (getSlot s c i).oneStep = false) :
    Occurs (.evEcallResume c i r0 r1) "ECALL_RESUME" s (clocksRun s = true ∧ (getSlot s c i).status = .ecall) fun t =>
      ∃ sl, t = setSlot { s with requests := s.requests.filter fun r => !(r.core == c && r.slot == i) } c i sl
        ∧ sl.status = .running ∧ sl.pc = (getSlot s c i).pc ∧ sl.v = (getSlot s c i).v ∧ sl.k = (getSlot s c i).k
        ∧ ∀ n, n < 32 → sl.getX n = if n = 5 then r0 else if n = 6 then r1 else (getSlot s c i).getX n := by
  refine occurs_when (exec_ecallResume s c i r0 r1) (by simp) ⟨_, rfl, ?_⟩
  have hstep : stepHalt { ((getSlot s c i).setReg ⟨.x, 5⟩ (ofWord r0)).setReg ⟨.x, 6⟩ (ofWord r1) with status := .running }
      (getSlot s c i).pc
      = { ((getSlot s c i).setReg ⟨.x, 5⟩ (ofWord r0)).setReg ⟨.x, 6⟩ (ofWord r1) with status := .running } := by
    simp [stepHalt, ho]
  rw [hstep]
  exact ⟨rfl, by simp, by simp [Slot.setReg], by simp [Slot.setReg], fun n hn => answeredSlot_getX _ r0 r1 hn⟩

theorem ecallRefuse_occurs : Occurs (.evEcallRefuse c i) "ECALL_REFUSE" s (clocksRun s = true ∧ (getSlot s c i).status = .ecall)
    (fun t => t = takeTrap s c i 0x0B 0 (getSlot s c i).epc) :=
  occurs_when (exec_ecallRefuse s c i) (by simp) rfl

/-! ### A post that waits for a full queue (R202) -/

theorem egressWaits_iff {x : Slot} : egressWaits s x = true ↔ x.status = .hend ∧ x.accs = [] ∧ x.mats = []
    ∧ ∃ o d rest, x.sends = .egr .post o d :: rest
      ∧ 4096 ≤ egressCount (getEgress s (egQueue o)) + postsInFlight s (egQueue o) := by
  simp only [egressWaits, Bool.and_eq_true, beq_iff_eq, List.isEmpty_iff, and_assoc]
  refine and_congr_right fun _ => and_congr_right fun _ => and_congr_right fun _ => ⟨fun h => ?_, ?_⟩
  · split at h
    · next o d rest he => exact ⟨o, d, rest, he, by simpa [egressFull] using h⟩
    · simp at h
  · rintro ⟨o, d, rest, he, hf⟩
    simpa [he, egressFull] using hf

theorem egpostTimeout_occurs : Occurs (.evEgpostTimeout c i) "EGPOST_TIMEOUT" s
    (clocksRun s = true ∧ (getSlot s c i).status = .hend ∧ (getSlot s c i).accs = [] ∧ (getSlot s c i).mats = []
      ∧ 2 ^ 24 ≤ (getSlot s c i).waited ∧ ∃ o d rest, (getSlot s c i).sends = .egr .post o d :: rest
        ∧ 4096 ≤ egressCount (getEgress s (egQueue o)) + postsInFlight s (egQueue o))
    (fun t => getSlot t c i = Slot.reset
      ∧ t.reports = s.reports ++ [⟨(getSlot s c i).launch, 0x0F, 5, 0, 0, 0, (getSlot s c i).actor, c, 0, 0, 0⟩]
      ∧ t.mem = s.mem ∧ OtherSlots s t c i) := by
  have hframe := oneSlot_abortSlot s c i
  refine occurs_when (exec_egpostTimeout s c i) ?_ ⟨?_, ?_, hframe.mem, hframe.others⟩
  · rw [Bool.and_eq_true, egressWaits_iff, decide_eq_true_eq]
    exact ⟨fun ⟨hc, ⟨hs, ha, hm, hq⟩, hw⟩ => ⟨hc, hs, ha, hm, hw, hq⟩, fun ⟨hc, hs, ha, hm, hw, hq⟩ => ⟨hc, ⟨hs, ha, hm, hq⟩, hw⟩⟩
  · rw [getSlot_report, getSlot_abortSlot]
  · rw [report_reports, hframe.reports]
    rfl

/-! ### A word that is no instruction, and a fetch outside the text (R75, R115) -/

theorem onSlot_running (hr : s.cur.status = .running) (f : State → Nat → Fin 4 → Slot → State) :
    onSlot s f = .next (f s.settled s.curCore s.curSlot s.found) := by
  have hr' : (getSlot s s.curCore s.curSlot).status = .running := hr
  simp only [onSlot, hr']
  rfl

/-- Settles O45: the events of a slot, one after another. -/
theorem slotEvents : Obligations.SlotEvents := by
  unfold Obligations.SlotEvents
  refine fun s c i => ⟨fun l hl => budget_occurs hl, fun h => ?_, countsBudget_running, fun q hq => sequence_occurs hq, fun n r hn => ?_,
    fun m rest hm hb hc => matrixOperation_completes hm hb hc, fun before m after a hl hm hc hb ha hr hs => ?_,
    fun name a hs ha => directoryLookup_occurs hs ha, fun r0 r1 ho => ecallResume_occurs r0 r1 ho, ecallRefuse_occurs,
    egpostTimeout_occurs, fun hr w => ⟨?_, ?_⟩⟩
  · have hstop := countsBudget_stops h
    exact ⟨budget_notPermitted hstop, budget_of_slotCycles hstop⟩
  · obtain ⟨hok, hno⟩ := localResult_occurs hn
    refine ⟨fun hc => ?_, hno⟩
    obtain ⟨t, he, ht⟩ := hok hc
    exact ⟨t, he, _, ht, completeLocal_leaves _ r⟩
  · have hfirst : firstLate [] (getCore s c).late = some m := by
      rw [hl]
      exact firstLate_append hm after before [] (fun y hy => (hb y hy).2) fun y hy => (hb y hy).1
    exact ⟨_, lateOperation_lands hfirst hc, landLate_leaves ha hr hs⟩
  · rw [exec_illegal, execEvIllegal, onSlot_running hr, found_pc]
    rfl
  · rw [exec_fetchOutsideText, execEvFetchOutsideText, onSlot_running hr, found_pc]
    rfl

end Sys2Proof.Machine
end

section
/-! SUPPORT. The fields of a word, and the codes of the operands that stand in them (03 R62 to R68). -/
namespace Sys2Proof

/-! ### Fields of a word put together from parts

The rules speak of BitVec.append, which the ++ of encode unfolds to: simp then finds them at every pair of widths. -/

/-- A field above the lower part of a word lies in the upper part. -/
theorem read_upper {n m lo len : Nat} (x : BitVec n) (y : BitVec m) (h : m ≤ lo) :
    (x.append y).extractLsb' lo len = x.extractLsb' (lo - m) len :=
  BitVec.extractLsb'_append_eq_of_le h

theorem read_lower {n m lo len : Nat} (x : BitVec n) (y : BitVec m) (h : lo + len ≤ m) :
    (x.append y).extractLsb' lo len = y.extractLsb' lo len :=
  BitVec.extractLsb'_append_eq_of_add_le h

/-- An immediate is put together from its two parts (R64, formats S and B). -/
theorem append_read {n m : Nat} (x : BitVec (n + m)) : (x.extractLsb' m n).append (x.extractLsb' 0 m) = x :=
  (BitVec.extractLsb'_append_extractLsb'_eq_extractLsb' (Nat.zero_add m).symm).trans BitVec.extractLsb'_eq_self

theorem major_append (x : BitVec 25) (op : BitVec 7) : fld (x.append op) 0 7 = op := by
  rw [fld, read_lower _ _ (by decide), BitVec.extractLsb'_eq_self]

/-! ### A word that holds a value at a bit -/

/-- The field of w that starts at bit lo and is as long as x is x. -/
def Holds (w : BitVec 32) (lo : Nat) {n : Nat} (x : BitVec n) : Prop := fld w lo n = x

section
variable {w : BitVec 32} {lo n m : Nat}

theorem holds_self : Holds w 0 w := BitVec.extractLsb'_eq_self

theorem holds_fld : Holds w lo (fld w lo n) := rfl

theorem holds_bit : Holds w lo (BitVec.ofBool (bit w lo)) := by
  rcases BitVec.eq_zero_or_eq_one (fld w lo 1) with h | h <;> simp [Holds, bit, h]

theorem holds_append (x : BitVec n) (y : BitVec m) : Holds w lo (x.append y) ↔ Holds w (lo + m) x ∧ Holds w lo y := by
  have hw : fld w lo (n + m) = (fld w (lo + m) n).append (fld w lo m) :=
    (BitVec.extractLsb'_append_extractLsb'_eq_extractLsb' rfl).symm
  rw [Holds, hw]
  constructor
  · intro h
    constructor
    · simpa only [Holds, read_upper _ _ le_rfl, Nat.sub_self, BitVec.extractLsb'_eq_self] using congrArg (BitVec.extractLsb' m n) h
    · simpa only [Holds, read_lower _ _ (Nat.zero_add m).le, BitVec.extractLsb'_eq_self] using congrArg (BitVec.extractLsb' 0 m) h
  · rintro ⟨rfl, rfl⟩
    rfl

theorem fld_eq_number {c : Nat} : fld w lo n = BitVec.ofNat n c ↔ Holds w lo (BitVec.ofNat n c) := .rfl

theorem holds_number {c : Nat} : Holds w lo (BitVec.ofNat n c) ↔ ∀ i < n, w.getLsbD (lo + i) = c.testBit i := by
  constructor
  · intro h i hi
    simpa [fld, hi, BitVec.getLsbD_ofNat, -BitVec.getLsbD_eq_getElem] using congrArg (BitVec.getLsbD · i) h
  · intro h
    refine BitVec.eq_of_getLsbD_eq fun i hi => ?_
    simpa [fld, hi, BitVec.getLsbD_ofNat, -BitVec.getLsbD_eq_getElem] using h i hi

/-- A field holds a number exactly when its lowest bit and the field above do: constants of the tables are compared bit by bit. -/
theorem holds_number_succ {c : Nat} : Holds w lo (BitVec.ofNat (n + 1) c)
    ↔ w.getLsbD lo = decide (c % 2 = 1) ∧ Holds w (lo + 1) (BitVec.ofNat n (c / 2)) := by
  simp only [holds_number, Nat.forall_lt_succ_left', Nat.testBit_succ, Nat.testBit_zero, Nat.add_zero, Nat.add_assoc,
    Nat.add_comm 1]

theorem holds_nothing (c : Nat) : Holds w lo (BitVec.ofNat 0 c) := Subsingleton.elim _ _

end

/-! ### Codes of operands (R66 to R70) -/

theorem Ord.ofBits_toBits (o : Ord) : Ord.ofBits o.toBits = o := by cases o <;> rfl

theorem Width.ofBits_toBits (w : Width) : Width.ofBits w.toBits = w := by cases w <;> rfl

theorem Scope.ofBits_toBits (s : Scope) : Scope.ofBits s.toBits = some s := by cases s <;> rfl

theorem FenceKind.ofBits_toBits (k : FenceKind) : FenceKind.ofBits k.toBits = some k := by cases k <;> rfl

theorem ofBool_beq_one (p : Bool) : (BitVec.ofBool p == 1#1) = p := by cases p <;> rfl

theorem Flush.ofBits_toBits (f : Flush) : Flush.ofBits f.toBits = f := by
  obtain ⟨fi, fo⟩ := f
  cases fi <;> cases fo <;> rfl

theorem Ord.toBits_ofBits : ∀ b : BitVec 2, (Ord.ofBits b).toBits = b := by decide

theorem Width.toBits_ofBits : ∀ b : BitVec 2, (Width.ofBits b).toBits = b := by decide

theorem Flush.toBits_ofBits : ∀ b : BitVec 2, (Flush.ofBits b).toBits = b := by decide

theorem Scope.toBits_of_ofBits : ∀ {b : BitVec 3} {s : Scope}, Scope.ofBits b = some s → s.toBits = b := by decide

theorem FenceKind.toBits_of_ofBits : ∀ {b : BitVec 5} {k : FenceKind}, FenceKind.ofBits b = some k → k.toBits = b := by decide

end Sys2Proof
end

section
/-! SUPPORT. Decoding the word of an instruction, and the word of a decoded instruction (03 R70 to R75). -/
namespace Sys2Proof

/-! ### The decoder of each major opcode -/

/-- Bits [6:0] select the decoder (R62, R70 to R73). -/
theorem decodeFields_append (x : BitVec 25) :
    decodeFields (x.append 0x01#7) = decode01 (x.append 0x01#7)
    ∧ decodeFields (x.append 0x02#7) = decode02 (x.append 0x02#7)
    ∧ decodeFields (x.append 0x03#7) = decode03 (x.append 0x03#7)
    ∧ decodeFields (x.append 0x04#7) = decode04 (x.append 0x04#7)
    ∧ decodeFields (x.append 0x05#7) = decode05 (x.append 0x05#7)
    ∧ decodeFields (x.append 0x06#7) = decode06 (x.append 0x06#7)
    ∧ decodeFields (x.append 0x07#7) = decode07 (x.append 0x07#7)
    ∧ decodeFields (x.append 0x08#7) = decode08 (x.append 0x08#7)
    ∧ decodeFields (x.append 0x09#7) = decode09 (x.append 0x09#7)
    ∧ decodeFields (x.append 0x0A#7) = decode0A (x.append 0x0A#7)
    ∧ decodeFields (x.append 0x0B#7) = decode0B (x.append 0x0B#7)
    ∧ decodeFields (x.append 0x0C#7) = decode0C (x.append 0x0C#7)
    ∧ decodeFields (x.append 0x10#7) = decode10 (x.append 0x10#7)
    ∧ decodeFields (x.append 0x11#7) = decode11 (x.append 0x11#7)
    ∧ decodeFields (x.append 0x12#7) = decode12 (x.append 0x12#7)
    ∧ decodeFields (x.append 0x13#7) = decode13 (x.append 0x13#7)
    ∧ decodeFields (x.append 0x14#7) = decode14 (x.append 0x14#7)
    ∧ decodeFields (x.append 0x15#7) = decode15 (x.append 0x15#7)
    ∧ decodeFields (x.append 0x16#7) = decode16 (x.append 0x16#7)
    ∧ decodeFields (x.append 0x18#7) = decode18 (x.append 0x18#7)
    ∧ decodeFields (x.append 0x19#7) = decode19 (x.append 0x19#7)
    ∧ decodeFields (x.append 0x1A#7) = decode1A (x.append 0x1A#7)
    ∧ decodeFields (x.append 0x1B#7) = decode1B (x.append 0x1B#7)
    ∧ decodeFields (x.append 0x1C#7) = decode1C (x.append 0x1C#7)
    ∧ decodeFields (x.append 0x1D#7) = decode1D (x.append 0x1D#7)
    ∧ decodeFields (x.append 0x21#7) = decode21 (x.append 0x21#7)
    ∧ decodeFields (x.append 0x22#7) = decode22 (x.append 0x22#7)
    ∧ decodeFields (x.append 0x23#7) = decode23 (x.append 0x23#7)
    ∧ decodeFields (x.append 0x24#7) = decode24 (x.append 0x24#7)
    ∧ decodeFields (x.append 0x25#7) = decode25 (x.append 0x25#7)
    ∧ decodeFields (x.append 0x26#7) = decode26 (x.append 0x26#7)
    ∧ decodeFields (x.append 0x27#7) = decode27 (x.append 0x27#7)
    ∧ decodeFields (x.append 0x28#7) = decode28 (x.append 0x28#7)
    ∧ decodeFields (x.append 0x40#7) = decode40 (x.append 0x40#7)
    ∧ decodeFields (x.append 0x41#7) = decode41 (x.append 0x41#7)
    ∧ decodeFields (x.append 0x42#7) = decode42 (x.append 0x42#7)
    ∧ decodeFields (x.append 0x43#7) = decode43 (x.append 0x43#7)
    ∧ decodeFields (x.append 0x44#7) = decode44 (x.append 0x44#7)
    ∧ decodeFields (x.append 0x45#7) = decode45 (x.append 0x45#7)
    ∧ decodeFields (x.append 0x46#7) = decode46 (x.append 0x46#7)
    ∧ decodeFields (x.append 0x47#7) = decode47 (x.append 0x47#7)
    ∧ decodeFields (x.append 0x48#7) = decode48 (x.append 0x48#7)
    ∧ decodeFields (x.append 0x49#7) = decode49 (x.append 0x49#7)
    ∧ decodeFields (x.append 0x4A#7) = decode4A (x.append 0x4A#7)
    ∧ decodeFields (x.append 0x4B#7) = decode4B (x.append 0x4B#7)
    ∧ decodeFields (x.append 0x4C#7) = decode4C (x.append 0x4C#7)
    ∧ decodeFields (x.append 0x4D#7) = decode4D (x.append 0x4D#7)
    ∧ decodeFields (x.append 0x4E#7) = decode4E (x.append 0x4E#7)
    ∧ decodeFields (x.append 0x4F#7) = decode4F (x.append 0x4F#7)
    ∧ decodeFields (x.append 0x50#7) = decode50 (x.append 0x50#7)
    ∧ decodeFields (x.append 0x51#7) = decode51 (x.append 0x51#7)
    ∧ decodeFields (x.append 0x52#7) = decode52 (x.append 0x52#7)
    ∧ decodeFields (x.append 0x53#7) = decode53 (x.append 0x53#7)
    ∧ decodeFields (x.append 0x54#7) = decode54 (x.append 0x54#7)
    ∧ decodeFields (x.append 0x55#7) = decode55 (x.append 0x55#7)
    ∧ decodeFields (x.append 0x56#7) = decode56 (x.append 0x56#7)
    ∧ decodeFields (x.append 0x57#7) = decode57 (x.append 0x57#7)
    ∧ decodeFields (x.append 0x58#7) = decode58 (x.append 0x58#7)
    ∧ decodeFields (x.append 0x59#7) = decode59 (x.append 0x59#7)
    ∧ decodeFields (x.append 0x5A#7) = decode5A (x.append 0x5A#7)
    ∧ decodeFields (x.append 0x5B#7) = decode5B (x.append 0x5B#7)
    ∧ decodeFields (x.append 0x5C#7) = decode5C (x.append 0x5C#7)
    ∧ decodeFields (x.append 0x60#7) = decode60 (x.append 0x60#7)
    ∧ decodeFields (x.append 0x61#7) = decode61 (x.append 0x61#7)
    ∧ decodeFields (x.append 0x62#7) = decode62 (x.append 0x62#7)
    ∧ decodeFields (x.append 0x63#7) = decode63 (x.append 0x63#7)
    ∧ decodeFields (x.append 0x64#7) = decode64 (x.append 0x64#7)
    ∧ decodeFields (x.append 0x65#7) = decode65 (x.append 0x65#7)
    ∧ decodeFields (x.append 0x66#7) = decode66 (x.append 0x66#7)
    ∧ decodeFields (x.append 0x67#7) = decode67 (x.append 0x67#7)
    ∧ decodeFields (x.append 0x68#7) = decode68 (x.append 0x68#7)
    ∧ decodeFields (x.append 0x70#7) = decode70 (x.append 0x70#7)
    ∧ decodeFields (x.append 0x71#7) = decode71 (x.append 0x71#7)
    ∧ decodeFields (x.append 0x72#7) = decode72 (x.append 0x72#7)
    ∧ decodeFields (x.append 0x73#7) = decode73 (x.append 0x73#7)
    ∧ decodeFields (x.append 0x74#7) = decode74 (x.append 0x74#7)
    ∧ decodeFields (x.append 0x75#7) = decode75 (x.append 0x75#7)
    ∧ decodeFields (x.append 0x76#7) = decode76 (x.append 0x76#7)
    ∧ decodeFields (x.append 0x77#7) = decode77 (x.append 0x77#7)
    ∧ decodeFields (x.append 0x78#7) = decode78 (x.append 0x78#7)
    ∧ decodeFields (x.append 0x79#7) = decode79 (x.append 0x79#7) := by
  and_intros
  all_goals
    rw [decodeFields, major_append]
    rfl

theorem decodeWord_eq_ok_iff {w : BitVec 32} {i : Instr} : decodeWord w = .ok i ↔ decodeFields w = .ok i ∧ i.check = none := by
  unfold decodeWord
  cases decodeFields w with
  | error e => simp only [reduceCtorEq, false_and]
  | ok j =>
    dsimp only
    split
    case h_1 hc =>
      refine ⟨?_, And.left⟩
      rintro ⟨⟩
      exact ⟨rfl, hc⟩
    case h_2 e hc =>
      refine ⟨by rintro ⟨⟩, ?_⟩
      rintro ⟨⟨⟩, h⟩
      exact absurd (hc.symm.trans h) (Option.some_ne_none e)

/-! ### From the instruction to its word and back -/

/-- It is enough to decode the operands' bits put before the major opcode. -/
theorem decodeFields_encode_of {i : Instr} {x : BitVec 25} {op : BitVec 7} (hi : encode i = x.append op)
    (hd : decodeFields (x.append op) = .ok i) : decodeFields (encode i) = .ok i := by
  rw [hi, hd]

/-- By the instruction: each field of its word is read back by the decoder of its major opcode. -/
theorem decodeFields_encode {i : Instr} (h : i.check = none) : decodeFields (encode i) = .ok i := by
  cases i
  -- The events: their check names noEncoding.
  all_goals try exact absurd h (Option.some_ne_none _)
  -- The words: the major opcode and the tests read constants of encode, the fields read its operands.
  all_goals
    refine decodeFields_encode_of rfl ?_
    simp only [HAppend.hAppend, decodeFields_append, decode01, decode02, decode03, decode04, decode05, decode06, decode07,
      decode08, decode09, decode0A, decode0B, decode0C, decode10, decode11, decode12, decode13, decode14, decode15, decode16,
      decode18, decode19, decode1A, decode1B, decode1C, decode1D, decode21, decode22, decode23, decode24, decode25, decode26,
      decode27, decode28, decode40, decode41, decode42, decode43, decode44, decode45, decode46, decode47, decode48, decode49,
      decode4A, decode4B, decode4C, decode4D, decode4E, decode4F, decode50, decode51, decode52, decode53, decode54, decode55,
      decode56, decode57, decode58, decode59, decode5A, decode5B, decode5C, decode60, decode61, decode62, decode63, decode64,
      decode65, decode66, decode67, decode68, decode70, decode71, decode72, decode73, decode74, decode75, decode76, decode77,
      decode78, decode79, read_upper, read_lower, append_read, fld, bit, Ord.ofBits_toBits, Width.ofBits_toBits,
      Flush.ofBits_toBits, Scope.ofBits_toBits, FenceKind.ofBits_toBits, ofBool_beq_one, Nat.reduceLeDiff, Nat.reduceAdd,
      Nat.reduceSub, BitVec.extractLsb'_eq_self, BitVec.reduceExtractLsb', BitVec.reduceEq, if_true, if_false, and_self]

/-! ### From the word to its instruction and back -/

/-- What is read from w, where it is an instruction, has the word w. -/
structure Faithful (w : BitVec 32) (r : Except DecodeError Instr) : Prop where
  encode_eq : ∀ i, r = .ok i → encode i = w

section
variable {w : BitVec 32} {e : DecodeError}

theorem Faithful.error : Faithful w (.error e) := ⟨by rintro _ ⟨⟩⟩

theorem Faithful.ite {c : Prop} [Decidable c] {r t : Except DecodeError Instr} (hr : c → Faithful w r) (ht : Faithful w t) :
    Faithful w (if c then r else t) := by
  split
  case isTrue hc => exact hr hc
  case isFalse => exact ht

theorem Faithful.scope {b : BitVec 3} {f : Scope → Except DecodeError Instr}
    (h : ∀ s : Scope, s.toBits = b → Faithful w (f s)) :
    Faithful w (match Scope.ofBits b with | some s => f s | none => .error e) := by
  split
  case h_1 s hs => exact h s (Scope.toBits_of_ofBits hs)
  case h_2 => exact .error

theorem Faithful.fenceKind {b : BitVec 5} {f : FenceKind → Except DecodeError Instr}
    (h : ∀ k : FenceKind, k.toBits = b → Faithful w (f k)) :
    Faithful w (match FenceKind.ofBits b with | some k => f k | none => .error e) := by
  split
  case h_1 k hk => exact h k (FenceKind.toBits_of_ofBits hk)
  case h_2 => exact .error

theorem Faithful.ok {i : Instr} {x : BitVec 25} {op : BitVec 7} (hi : encode i = x.append op)
    (hop : (fld w 0 7).toNat = op.toNat) (hx : Holds w 7 x) : Faithful w (.ok i) := by
  refine ⟨?_⟩
  rintro _ ⟨⟩
  have hw : Holds w 0 (x.append op) := (holds_append x op).mpr ⟨hx, BitVec.eq_of_toNat_eq hop⟩
  exact hi.trans (hw.symm.trans holds_self)

end

/-- By the major opcode and the branches of its decoder: each operand stands in the field that it was read from, and each
constant was tested there. -/
theorem decodeFields_faithful (w : BitVec 32) : Faithful w (decodeFields w) := by
  unfold decodeFields
  split
  -- One rule for each form of what a decoder answers: a test, an error, a code that may name no scope or kind of fence.
  repeat' first
    | intro _
    | refine .ite ?_ ?_
    | exact .error
    | refine .scope ?_
    | refine .fenceKind ?_
  all_goals
    refine .ok rfl ‹(fld w 0 7).toNat = _› ?_
    simp_all only [HAppend.hAppend, read_upper, read_lower, BitVec.extractLsb'_eq_self, holds_append, holds_fld, holds_bit,
      fld_eq_number, holds_number_succ, holds_nothing, Ord.toBits_ofBits, Width.toBits_ofBits, Flush.toBits_ofBits,
      Nat.reduceLeDiff, Nat.reduceAdd, Nat.reduceSub, Nat.reduceMod, Nat.reduceDiv, and_self]

/-! ### The statements -/

/-- Settles O2: the fields of the word read the operands back (decodeFields_encode), and the check is met. -/
theorem decodeOfEncode : Obligations.DecodeOfEncode := by
  unfold Obligations.DecodeOfEncode
  exact fun i h => decodeWord_eq_ok_iff.mpr ⟨decodeFields_encode h, h⟩

/-- Settles O3: the check is the decoder's last, and a word is put together from the fields that were read from it. -/
theorem encodeOfDecode : Obligations.EncodeOfDecode := by
  unfold Obligations.EncodeOfDecode
  intro w i h
  obtain ⟨hd, hc⟩ := decodeWord_eq_ok_iff.mp h
  exact ⟨hc, (decodeFields_faithful w).encode_eq i hd⟩

/-- Settles O1: each word is decoded by evaluation. -/
theorem sampleWordsDecode : Obligations.SampleWordsDecode := by
  unfold Obligations.SampleWordsDecode
  exact ⟨rfl, rfl, rfl, rfl, rfl, rfl, rfl, rfl⟩

end Sys2Proof
end

section
/-! SUPPORT. Rounding to whole numbers (04 R88): what the model's roundAt answers, for a number that it holds exactly and for one that
it holds with a sticky bit. -/
namespace Sys2Proof.Machine

/-! ### The modes and what they ask -/

/-- The mode rounds a magnitude of this sign down, up, to nearest (R88). -/
def RoundsDown (mode : Nat) (neg : Bool) : Prop := mode = 1 ∨ (mode = 2 ∧ neg = false) ∨ (mode = 3 ∧ neg = true)
def RoundsUp (mode : Nat) (neg : Bool) : Prop := (mode = 3 ∧ neg = false) ∨ (mode = 2 ∧ neg = true)
def RoundsNear (mode : Nat) : Prop := mode = 0 ∨ mode = 4

/-- Each mode rounds one way, and no two. -/
theorem rounds_cases {mode : Nat} (neg : Bool) (h : mode ≤ 4) :
    (RoundsDown mode neg ∧ ¬RoundsUp mode neg ∧ ¬RoundsNear mode) ∨ (¬RoundsDown mode neg ∧ RoundsUp mode neg ∧ ¬RoundsNear mode)
    ∨ (¬RoundsDown mode neg ∧ ¬RoundsUp mode neg ∧ RoundsNear mode) := by
  unfold RoundsDown RoundsUp RoundsNear
  cases neg <;> simp <;> omega

/-- k is the whole number that y is rounded to. -/
structure RoundsWhole (mode : Nat) (neg : Bool) (y : ℝ) (k : Nat) : Prop where
  lt   : k < y + 1
  gt   : y < k + 1
  down : RoundsDown mode neg → k ≤ y ∧ y < k + 1
  up   : RoundsUp mode neg → k < y + 1 ∧ y ≤ k
  near : RoundsNear mode → 2 * k ≤ 2 * y + 1 ∧ 2 * y ≤ 2 * k + 1
  even : mode = 0 → (2 * k = 2 * y + 1 ∨ 2 * y = 2 * k + 1) → k % 2 = 0
  away : mode = 4 → 2 * y ≠ 2 * k + 1

theorem RoundsWhole.self (mode : Nat) (neg : Bool) (k : Nat) : RoundsWhole mode neg k k where
  lt := by linarith
  gt := by linarith
  down _ := ⟨le_rfl, by linarith⟩
  up _ := ⟨by linarith, le_rfl⟩
  near _ := ⟨by linarith, by linarith⟩
  even _ h := by rcases h with h | h <;> linarith
  away _ h := by linarith

theorem RoundsWhole.le {mode K k : Nat} {neg : Bool} {y : ℝ} (h : RoundsWhole mode neg y k) (hy : y ≤ K) : k ≤ K := by
  have : (k : ℝ) < K + 1 := h.lt.trans_le (by linarith)
  exact Nat.lt_succ_iff.mp (by exact_mod_cast this)

theorem RoundsWhole.ge {mode K k : Nat} {neg : Bool} {y : ℝ} (h : RoundsWhole mode neg y k) (hy : K ≤ y) : K ≤ k := by
  have : (K : ℝ) < k + 1 := lt_of_le_of_lt hy h.gt
  exact Nat.lt_succ_iff.mp (by exact_mod_cast this)

/-- The whole part K of y, and how R of u compares with the half. -/
structure Cut (y : ℝ) (K R u : Nat) : Prop where
  floor : K ≤ y
  ceil  : y < K + 1
  whole : R = 0 ↔ y = K
  above : u < 2 * R ↔ 2 * K + 1 < 2 * y
  half  : 2 * R = u ↔ 2 * y = 2 * K + 1

theorem roundsUp_zero (mode : Nat) (neg : Bool) (K n : Nat) : roundsUp mode neg K 0 n = false := by simp [roundsUp]

/-- Rounding a number with a fraction: K + 1 or K as the mode has it. -/
theorem Cut.roundsWhole {y : ℝ} {K R n : Nat} (h : Cut y K R (2 ^ n)) (mode : Nat) (neg : Bool) :
    RoundsWhole mode neg y (if roundsUp mode neg K R n then K + 1 else K) := by
  obtain ⟨hfloor, hceil, hwhole, habove, hhalf⟩ := h
  by_cases hR : R = 0
  · subst hR
    rw [roundsUp_zero, if_neg (by simp), hwhole.mp rfl]
    exact .self mode neg K
  have hlt : (K : ℝ) < y := lt_of_le_of_ne hfloor fun hy => hR (hwhole.mpr hy.symm)
  constructor
  case lt => split <;> push_cast <;> linarith
  case gt => split <;> push_cast <;> linarith
  case down =>
    rintro (rfl | ⟨rfl, rfl⟩ | ⟨rfl, rfl⟩) <;> simp [roundsUp, hR, hfloor, hceil]
  case up =>
    rintro (⟨rfl, rfl⟩ | ⟨rfl, rfl⟩) <;> simp [roundsUp, hR] <;> constructor <;> linarith
  case near =>
    rintro (rfl | rfl)
    · by_cases h1 : 2 ^ n < 2 * R
      · have := habove.mp h1
        simp only [roundsUp, hR, h1, decide_true, Bool.true_or, if_true, if_false, Nat.cast_add, Nat.cast_one]
        constructor <;> linarith
      · have : ¬(2 * (K : ℝ) + 1 < 2 * y) := fun hy => h1 (habove.mpr hy)
        by_cases h2 : 2 * R = 2 ^ n
        · have := hhalf.mp h2
          split <;> push_cast <;> constructor <;> linarith
        · simp only [roundsUp, hR, h1, h2, decide_false, Bool.false_and, Bool.or_self, if_false, Bool.false_eq_true]
          constructor <;> linarith
    · by_cases h1 : 2 ^ n ≤ 2 * R
      · have : 2 * (K : ℝ) + 1 ≤ 2 * y := by
          rcases Nat.lt_or_eq_of_le h1 with h | h
          · exact (habove.mp h).le
          · exact (hhalf.mp h.symm).ge
        simp only [roundsUp, hR, ge_iff_le, h1, decide_true, if_true, if_false, Nat.cast_add, Nat.cast_one]
        constructor <;> linarith
      · have : ¬(2 * (K : ℝ) + 1 < 2 * y) := fun hy => h1 (habove.mpr hy).le
        simp only [roundsUp, hR, ge_iff_le, h1, decide_false, if_false, Bool.false_eq_true]
        constructor <;> linarith
  case even =>
    rintro rfl htie
    have hhalf' : 2 * R = 2 ^ n := by
      rw [hhalf]
      split at htie <;> push_cast at htie <;> rcases htie with h | h <;> linarith
    simp only [roundsUp, hR, hhalf', lt_irrefl, decide_false, decide_true, Bool.false_or, Bool.true_and, if_false]
    split
    · simp_all; omega
    · simp_all
  case away =>
    rintro rfl htie
    by_cases h1 : 2 ^ n ≤ 2 * R
    · simp only [roundsUp, hR, ge_iff_le, h1, decide_true, if_true, if_false, Nat.cast_add, Nat.cast_one] at htie
      linarith
    · simp only [roundsUp, hR, ge_iff_le, h1, decide_false, if_false, Bool.false_eq_true] at htie
      exact h1 (hhalf.mpr htie).ge

/-- A number with a fraction is not whole, and it is not rounded to itself. -/
theorem Cut.inexact {y : ℝ} {K R n : Nat} (h : Cut y K R (2 ^ n)) (mode : Nat) (neg : Bool) :
    (R != 0) = true ↔ y ≠ (if roundsUp mode neg K R n then K + 1 else K : Nat) := by
  rw [bne_iff_ne, ne_eq, ne_eq, not_iff_not, h.whole]
  constructor
  · intro hy
    rw [h.whole.mpr hy, roundsUp_zero, if_neg (by simp), hy]
  · intro hy
    split at hy
    · have := h.ceil
      push_cast at hy
      linarith
    · exact hy

/-! ### Numbers that the model holds exactly or with a sticky bit -/

/-- m parts of 2^e stand for x: exactly, or with p bits and an odd last bit that marks a rest (06 R129). -/
def Approx (p m : Nat) (e : Int) (x : ℝ) : Prop :=
  x = m * 2 ^ e ∨ (m % 2 = 1 ∧ 2 ^ p ≤ m ∧ (m - 1) * 2 ^ e < x ∧ x < (m + 1) * 2 ^ e)

theorem two_zpow_pos (e : Int) : (0 : ℝ) < 2 ^ e := zpow_pos (by norm_num) e

theorem two_zpow_add (a b : Int) : (2 : ℝ) ^ (a + b) = 2 ^ a * 2 ^ b := zpow_add₀ (by norm_num) a b

theorem two_zpow_natAdd (e : Int) (n : Nat) : (2 : ℝ) ^ (e + n) = 2 ^ e * 2 ^ n := by rw [two_zpow_add, zpow_natCast]

/-- A power of two at the higher of two exponents, in parts of the lower. -/
theorem two_zpow_split {a b : Int} (h : a ≤ b) : (2 : ℝ) ^ b = 2 ^ a * 2 ^ (b - a).toNat := by
  rw [← two_zpow_natAdd]
  congr 1
  omega

/-- A cut at 2^n parts, seen in parts. -/
theorem cut_of_parts {z : ℝ} {K R n : Nat} (hfloor : (K : ℝ) * 2 ^ n ≤ z) (hceil : z < (K + 1) * 2 ^ n) (hwhole : R = 0 ↔ z = K * 2 ^ n)
    (habove : 2 ^ n < 2 * R ↔ (2 * K + 1) * 2 ^ n < 2 * z) (hhalf : 2 * R = 2 ^ n ↔ 2 * z = (2 * K + 1) * 2 ^ n) :
    Cut (z / 2 ^ n) K R (2 ^ n) := by
  have hu : (0 : ℝ) < 2 ^ n := by positivity
  have h2 : 2 * (z / 2 ^ n) = 2 * z / 2 ^ n := by ring
  refine ⟨(le_div_iff₀ hu).mpr hfloor, (div_lt_iff₀ hu).mpr hceil, ?_, ?_, ?_⟩
  · rw [hwhole, div_eq_iff hu.ne']
  · rw [habove, h2, lt_div_iff₀ hu]
  · rw [hhalf, h2, div_eq_iff hu.ne']

/-- A number that is held exactly, cut at 2^n parts. -/
theorem cut_exact (m n : Nat) : Cut ((m : ℝ) / 2 ^ n) (m / 2 ^ n) (m % 2 ^ n) (2 ^ n) := by
  have hm : m / 2 ^ n * 2 ^ n + m % 2 ^ n = m := Nat.div_add_mod' m (2 ^ n)
  have hr : m % 2 ^ n < 2 ^ n := Nat.mod_lt m (Nat.two_pow_pos n)
  generalize m / 2 ^ n = K at *
  generalize m % 2 ^ n = R at *
  have h1 : (K + 1) * 2 ^ n = K * 2 ^ n + 2 ^ n := by ring
  have h2 : (2 * K + 1) * 2 ^ n = 2 * (K * 2 ^ n) + 2 ^ n := by ring
  apply cut_of_parts
  · exact_mod_cast (by omega : K * 2 ^ n ≤ m)
  · exact_mod_cast (by omega : m < (K + 1) * 2 ^ n)
  · exact_mod_cast (by omega : R = 0 ↔ m = K * 2 ^ n)
  · exact_mod_cast (by omega : 2 ^ n < 2 * R ↔ (2 * K + 1) * 2 ^ n < 2 * m)
  · exact_mod_cast (by omega : 2 * R = 2 ^ n ↔ 2 * m = (2 * K + 1) * 2 ^ n)

/-- A number with a sticky bit, cut at least two bits above it: the rest never reaches a whole or a half. -/
theorem cut_sticky {m n : Nat} {z : ℝ} (hodd : m % 2 = 1) (hn : 2 ≤ n) (hlo : (m : ℝ) - 1 < z) (hhi : z < m + 1) :
    Cut (z / 2 ^ n) (m / 2 ^ n) (m % 2 ^ n) (2 ^ n) := by
  have hm : m / 2 ^ n * 2 ^ n + m % 2 ^ n = m := Nat.div_add_mod' m (2 ^ n)
  have hr : m % 2 ^ n < 2 ^ n := Nat.mod_lt m (Nat.two_pow_pos n)
  have h4 : 2 ^ n % 4 = 0 := Nat.mod_eq_zero_of_dvd (pow_dvd_pow 2 hn)
  have hpar : m % 2 ^ n % 2 = 1 := by rw [Nat.mod_mod_of_dvd m (dvd_pow_self 2 (by omega)), hodd]
  generalize m / 2 ^ n = K at *
  generalize m % 2 ^ n = R at *
  have h1 : (K + 1) * 2 ^ n = K * 2 ^ n + 2 ^ n := by ring
  have h2 : (2 * K + 1) * 2 ^ n = 2 * (K * 2 ^ n) + 2 ^ n := by ring
  have hfloor : (K : ℝ) * 2 ^ n + 1 ≤ m := by exact_mod_cast (by omega : K * 2 ^ n + 1 ≤ m)
  have hceil : (m : ℝ) + 1 ≤ (K + 1) * 2 ^ n := by exact_mod_cast (by omega : m + 1 ≤ (K + 1) * 2 ^ n)
  have hside : (2 ^ n < 2 * R ∧ (2 * (K : ℝ) + 1) * 2 ^ n + 2 ≤ 2 * m) ∨ (2 * R < 2 ^ n ∧ 2 * (m : ℝ) + 2 ≤ (2 * K + 1) * 2 ^ n) := by
    rcases Nat.lt_or_gt_of_ne (by omega : 2 ^ n ≠ 2 * R) with h | h
    · exact .inl ⟨h, by exact_mod_cast (by omega : (2 * K + 1) * 2 ^ n + 2 ≤ 2 * m)⟩
    · exact .inr ⟨h, by exact_mod_cast (by omega : 2 * m + 2 ≤ (2 * K + 1) * 2 ^ n)⟩
  apply cut_of_parts
  · linarith
  · linarith
  · exact iff_of_false (by omega) (by intro h; linarith)
  · rcases hside with ⟨h, hz⟩ | ⟨h, hz⟩
    · exact iff_of_true h (by linarith)
    · exact iff_of_false (by omega) (by linarith)
  · rcases hside with ⟨h, hz⟩ | ⟨h, hz⟩
    · exact iff_of_false (by omega) (by intro h; linarith)
    · exact iff_of_false (by omega) (by intro h; linarith)

/-! ### The model's roundAt -/

theorem roundAt_of_le (mode : Nat) (neg : Bool) (m : Nat) {e q : Int} (h : q ≤ e) :
    roundAt mode neg m e q = (m * 2 ^ (e - q).toNat, false) := by simp [roundAt, h]

theorem roundAt_of_lt (mode : Nat) (neg : Bool) (m : Nat) {e q : Int} {n : Nat} (hn : 0 < n) (h : q = e + n) :
    roundAt mode neg m e q = (if roundsUp mode neg (m / 2 ^ n) (m % 2 ^ n) n then m / 2 ^ n + 1 else m / 2 ^ n, m % 2 ^ n != 0) := by
  subst h
  simp [roundAt, hn.ne']

/-- A cut at n parts above e gives what roundAt answers there. -/
theorem Cut.roundAt {x : ℝ} {m n : Nat} {e q : Int} (hn : 0 < n) (hq : q = e + n) (h : Cut (x / 2 ^ q) (m / 2 ^ n) (m % 2 ^ n) (2 ^ n))
    (mode : Nat) (neg : Bool) : RoundsWhole mode neg (x / 2 ^ q) (roundAt mode neg m e q).1
      ∧ ((Machine.roundAt mode neg m e q).2 = true ↔ x / 2 ^ q ≠ (Machine.roundAt mode neg m e q).1) := by
  rw [roundAt_of_lt mode neg m hn hq]
  exact ⟨h.roundsWhole mode neg, h.inexact mode neg⟩

/-- The model's rounding of x to whole numbers of 2^q, with its inexactness (R88). -/
theorem roundAt_rounds {p m : Nat} {e q : Int} {x : ℝ} (hx : Approx p m e x) (hq : x = m * 2 ^ e ∨ e + 2 ≤ q) (mode : Nat) (neg : Bool) :
    RoundsWhole mode neg (x / 2 ^ q) (roundAt mode neg m e q).1 ∧ ((roundAt mode neg m e q).2 = true ↔ x / 2 ^ q ≠ (roundAt mode neg m e q).1) := by
  by_cases hle : q ≤ e
  · have hexact : x = m * 2 ^ e := hq.resolve_right (by omega)
    have hy : x / 2 ^ q = (m * 2 ^ (e - q).toNat : Nat) := by
      rw [hexact, two_zpow_split hle, div_eq_iff (two_zpow_pos q).ne']
      push_cast
      ring
    rw [roundAt_of_le mode neg m hle, hy]
    exact ⟨.self mode neg _, by simp⟩
  · obtain ⟨n, hn, rfl⟩ : ∃ n : Nat, 0 < n ∧ q = e + n := ⟨(q - e).toNat, by omega, by omega⟩
    have he := two_zpow_pos e
    have hdiv : x / 2 ^ (e + n : Int) = x / 2 ^ e / 2 ^ n := by rw [two_zpow_natAdd, div_div]
    refine Cut.roundAt hn rfl ?_ mode neg
    rw [hdiv]
    rcases hx with rfl | ⟨hodd, -, hlo, hhi⟩
    · rw [mul_div_cancel_right₀ _ he.ne']
      exact cut_exact m n
    · by_cases hexact : x = m * 2 ^ e
      · rw [hexact, mul_div_cancel_right₀ _ he.ne']
        exact cut_exact m n
      · have hn2 : e + 2 ≤ e + n := hq.resolve_left hexact
        exact cut_sticky hodd (by omega) ((lt_div_iff₀ he).mpr hlo) ((div_lt_iff₀ he).mpr hhi)

/-! ### One value in parts of different size -/

theorem roundsUp_scale (mode : Nat) (neg : Bool) (K R n j : Nat) : roundsUp mode neg K (R * 2 ^ j) (n + j) = roundsUp mode neg K R n := by
  have hp : 0 < 2 ^ j := Nat.two_pow_pos j
  have h0 : R * 2 ^ j = 0 ↔ R = 0 := by simp
  have hlt : 2 ^ (n + j) < 2 * (R * 2 ^ j) ↔ 2 ^ n < 2 * R := by
    rw [pow_add, ← Nat.mul_assoc, Nat.mul_lt_mul_right hp]
  have heq : 2 * (R * 2 ^ j) = 2 ^ (n + j) ↔ 2 * R = 2 ^ n := by
    rw [pow_add, ← Nat.mul_assoc, Nat.mul_left_inj hp.ne']
  have hle : 2 ^ (n + j) ≤ 2 * (R * 2 ^ j) ↔ 2 ^ n ≤ 2 * R := by
    rw [pow_add, ← Nat.mul_assoc, Nat.mul_le_mul_right_iff hp]
  simp only [roundsUp, h0, gt_iff_lt, hlt, heq, ge_iff_le, hle]

/-- Rounding does not depend on the parts in which a number is counted. -/
theorem roundAt_scale (mode : Nat) (neg : Bool) (m j : Nat) (e q : Int) :
    roundAt mode neg (m * 2 ^ j) e q = roundAt mode neg m (e + j) q := by
  by_cases h1 : q ≤ e
  · rw [roundAt_of_le _ _ _ h1, roundAt_of_le _ _ _ (by omega : q ≤ e + j), Nat.mul_assoc, ← pow_add]
    congr 3
    omega
  obtain ⟨n, hn, hq⟩ : ∃ n : Nat, 0 < n ∧ q = e + n := ⟨(q - e).toNat, by omega, by omega⟩
  rw [roundAt_of_lt mode neg _ hn hq]
  by_cases h2 : n ≤ j
  · obtain ⟨i, rfl⟩ := Nat.exists_eq_add_of_le h2
    have hm : m * 2 ^ (n + i) = 2 ^ n * (m * 2 ^ i) := by ring
    rw [roundAt_of_le _ _ _ (by omega : q ≤ e + (n + i : Nat)), hm, Nat.mul_mod_right, Nat.mul_div_cancel_left _ (Nat.two_pow_pos n),
      roundsUp_zero, show (e + (n + i : Nat) - q).toNat = i by omega]
    simp
  · obtain ⟨i, hi, rfl⟩ : ∃ i, 0 < i ∧ n = i + j := ⟨n - j, by omega, by omega⟩
    rw [roundAt_of_lt mode neg m hi (by omega : q = e + j + i), pow_add, Nat.mul_div_mul_right _ _ (Nat.two_pow_pos j),
      Nat.mul_mod_mul_right, roundsUp_scale]
    congr 1
    rw [Bool.eq_iff_iff]
    simp

/-- Two counts of one number in parts of 2^e and 2^e', the first the finer. -/
theorem eq_mul_two_pow {m m' : Nat} {e e' : Int} (hle : e ≤ e') (h : (m : ℝ) * 2 ^ e = m' * 2 ^ e') : m = m' * 2 ^ (e' - e).toNat := by
  rw [two_zpow_split hle, mul_comm ((2 : ℝ) ^ e), ← mul_assoc] at h
  exact_mod_cast mul_right_cancel₀ (two_zpow_pos e).ne' h

/-- What holds of one number in finer parts holds of any two counts of one number. -/
theorem of_same_value {α : Type} {f : Nat → Int → α} (hf : ∀ m (j : Nat) e, f (m * 2 ^ j) e = f m (e + j)) {m m' : Nat} {e e' : Int}
    (h : (m : ℝ) * 2 ^ e = m' * 2 ^ e') : f m e = f m' e' := by
  rcases le_total e e' with hle | hle
  · rw [eq_mul_two_pow hle h, hf, Int.toNat_of_nonneg (by omega), add_sub_cancel]
  · rw [eq_mul_two_pow hle h.symm, hf, Int.toNat_of_nonneg (by omega), add_sub_cancel]

theorem roundAt_congr (mode : Nat) (neg : Bool) (q : Int) {m m' : Nat} {e e' : Int} (h : (m : ℝ) * 2 ^ e = m' * 2 ^ e') :
    roundAt mode neg m e q = roundAt mode neg m' e' q :=
  of_same_value (f := fun m e => roundAt mode neg m e q) (fun m j e => roundAt_scale mode neg m j e q) h

end Sys2Proof.Machine
end

section
/-! SUPPORT. The magnitudes of a format's encodings, in order, and the encoding that a number is rounded to (04 R78, R88). -/
namespace Sys2Proof.Machine

/-! ### Magnitudes of encodings -/

/-- The magnitude of an encoding without its sign, in smallest units, were there no greatest exponent. -/
def codeMag (fb c : Nat) : Nat := if c / 2 ^ fb = 0 then c else (2 ^ fb + c % 2 ^ fb) * 2 ^ (c / 2 ^ fb - 1)

/-- The fields of an encoding, with its sign cut off. -/
theorem div_mod_fields (f : FFmt) (b : Nat) : b / 2 ^ f.fb % 2 ^ f.eb = b % 2 ^ (f.eb + f.fb) / 2 ^ f.fb
    ∧ b % 2 ^ f.fb = b % 2 ^ (f.eb + f.fb) % 2 ^ f.fb := by
  rw [Nat.add_comm, pow_add, Nat.mod_mul_right_div_self, Nat.mod_mul_right_mod]
  exact ⟨rfl, rfl⟩

theorem FFmt.mag_eq (f : FFmt) (b : Nat) : f.mag b = codeMag f.fb (b % 2 ^ (f.eb + f.fb)) := by
  obtain ⟨hdiv, hmod⟩ := div_mod_fields f b
  simp only [FFmt.mag, codeMag, hdiv, hmod]
  split
  · rename_i h
    exact Nat.mod_eq_of_lt (Nat.lt_of_div_eq_zero (Nat.two_pow_pos _) h)
  · rfl

theorem FFmt.mag_of_lt (f : FFmt) {c : Nat} (h : c < 2 ^ (f.eb + f.fb)) : f.mag c = codeMag f.fb c := by
  rw [f.mag_eq, Nat.mod_eq_of_lt h]

/-- An encoding of a significand k in the binade s; k may stand one past the greatest. -/
theorem codeMag_binade {fb s k : Nat} (hk : k ≤ 2 ^ (fb + 1)) (hs : s = 0 ∨ 2 ^ fb ≤ k) : codeMag fb (s * 2 ^ fb + k) = k * 2 ^ s := by
  have hp : 0 < 2 ^ fb := Nat.two_pow_pos fb
  rw [pow_succ] at hk
  by_cases h1 : k < 2 ^ fb
  · obtain rfl : s = 0 := by omega
    simp [codeMag, Nat.div_eq_of_lt h1]
  obtain ⟨r, rfl⟩ := Nat.exists_eq_add_of_le (Nat.le_of_not_lt h1)
  by_cases h2 : r < 2 ^ fb
  · have hc : s * 2 ^ fb + (2 ^ fb + r) = (s + 1) * 2 ^ fb + r := by ring
    have hd : ((s + 1) * 2 ^ fb + r) / 2 ^ fb = s + 1 := by
      rw [Nat.mul_comm, Nat.mul_add_div hp, Nat.div_eq_of_lt h2]
    have hr : ((s + 1) * 2 ^ fb + r) % 2 ^ fb = r := by rw [Nat.mul_comm, Nat.mul_add_mod, Nat.mod_eq_of_lt h2]
    simp [codeMag, hc, hd, hr]
  · obtain rfl : r = 2 ^ fb := by omega
    have hc : s * 2 ^ fb + (2 ^ fb + 2 ^ fb) = (s + 2) * 2 ^ fb := by ring
    simp only [codeMag, hc, Nat.mul_div_cancel _ hp, Nat.mul_mod_left]
    simp [pow_succ]
    ring

/-- Every encoding is that of a significand in a binade. -/
theorem exists_binade (fb c : Nat) : ∃ s k, c = s * 2 ^ fb + k ∧ k < 2 ^ (fb + 1) ∧ (s = 0 ∨ 2 ^ fb ≤ k) := by
  have hp : 0 < 2 ^ fb := Nat.two_pow_pos fb
  have hc : c / 2 ^ fb * 2 ^ fb + c % 2 ^ fb = c := Nat.div_add_mod' c (2 ^ fb)
  have hr : c % 2 ^ fb < 2 ^ fb := Nat.mod_lt c hp
  rw [pow_succ]
  cases hd : c / 2 ^ fb with
  | zero => exact ⟨0, c, by omega, by rw [hd] at hc; omega, .inl rfl⟩
  | succ s =>
    rw [hd, Nat.add_mul] at hc
    exact ⟨s, 2 ^ fb + c % 2 ^ fb, by omega, by omega, .inr (by omega)⟩

theorem codeMag_lt_succ (fb c : Nat) : codeMag fb c < codeMag fb (c + 1) := by
  obtain ⟨s, k, rfl, hk, hs⟩ := exists_binade fb c
  rw [codeMag_binade hk.le hs, Nat.add_assoc, codeMag_binade hk (by omega)]
  exact (Nat.mul_lt_mul_right (Nat.two_pow_pos s)).mpr (by omega)

theorem codeMag_strictMono (fb : Nat) : StrictMono (codeMag fb) := strictMono_nat_of_lt_succ (codeMag_lt_succ fb)

theorem codeMag_of_le {fb c : Nat} (h : c ≤ 2 ^ (fb + 1)) : codeMag fb c = c := by
  simpa using codeMag_binade (s := 0) h (.inl rfl)

/-- The encodings below and above one with significand k. -/
theorem codeMag_below {fb s k d : Nat} (hk : k ≤ 2 ^ (fb + 1)) (hs : s = 0 ∨ 2 ^ fb < k) (hd : d < s * 2 ^ fb + k) :
    codeMag fb d + 2 ^ s ≤ k * 2 ^ s := by
  obtain ⟨j, rfl⟩ : ∃ j, k = j + 1 := by
    rcases hs with rfl | h
    · exact ⟨k - 1, by omega⟩
    · exact ⟨k - 1, by omega⟩
  have h := (codeMag_strictMono fb).monotone (by omega : d ≤ s * 2 ^ fb + j)
  rw [codeMag_binade (by omega) (by omega)] at h
  linarith [Nat.add_mul j 1 (2 ^ s)]

theorem codeMag_above {fb s k d : Nat} (hk : k ≤ 2 ^ (fb + 1)) (hs : s = 0 ∨ 2 ^ fb ≤ k) (hd : s * 2 ^ fb + k < d) :
    (k + 1) * 2 ^ s ≤ codeMag fb d := by
  refine le_trans ?_ ((codeMag_strictMono fb).monotone hd)
  rcases Nat.lt_or_ge k (2 ^ (fb + 1)) with h | h
  · rw [Nat.succ_eq_add_one, Nat.add_assoc, codeMag_binade (by omega) (by omega)]
  · obtain rfl : k = 2 ^ (fb + 1) := by omega
    have hp : 0 < 2 ^ fb := Nat.two_pow_pos fb
    have hc : s * 2 ^ fb + 2 ^ (fb + 1) + 1 = (s + 1) * 2 ^ fb + (2 ^ fb + 1) := by ring
    rw [Nat.succ_eq_add_one, hc, codeMag_binade (by rw [pow_succ]; omega) (by omega)]
    have : (2 ^ fb + 1) * 2 ^ (s + 1) = (2 ^ (fb + 1) + 2) * 2 ^ s := by ring
    rw [this]
    exact Nat.mul_le_mul_right _ (by omega)

/-! ### The encoding that a number is rounded to -/

/-- c is the encoding that x smallest units are rounded to, were there no greatest exponent. -/
structure RoundsCode (fb mode : Nat) (neg : Bool) (x : ℝ) (c : Nat) : Prop where
  down  : RoundsDown mode neg → codeMag fb c ≤ x ∧ ∀ d, c < d → x < codeMag fb d
  up    : RoundsUp mode neg → x ≤ codeMag fb c ∧ ∀ d, d < c → codeMag fb d < x
  below : RoundsNear mode → ∀ d, d < c → (codeMag fb c + codeMag fb d : ℝ) ≤ 2 * x
  above : RoundsNear mode → ∀ d, c < d → 2 * x ≤ codeMag fb c + codeMag fb d
  even  : mode = 0 → ∀ d, d ≠ c → 2 * x = codeMag fb c + codeMag fb d → c % 2 = 0
  away  : mode = 4 → ∀ d, d ≠ c → 2 * x = codeMag fb c + codeMag fb d → d < c

/-- A number of a binade is rounded to an encoding by rounding it to whole parts of the binade. -/
theorem RoundsWhole.code {fb mode s k : Nat} {neg : Bool} {y : ℝ} (h : RoundsWhole mode neg y k) (hfb : 1 ≤ fb) (hk : k ≤ 2 ^ (fb + 1))
    (hs : s = 0 ∨ (2 ^ fb ≤ k ∧ (2 ^ fb : ℝ) ≤ y)) : RoundsCode fb mode neg (y * 2 ^ s) (s * 2 ^ fb + k) := by
  have hs' : s = 0 ∨ 2 ^ fb ≤ k := hs.imp_right And.left
  have hu : (0 : ℝ) < 2 ^ s := by positivity
  have hself : (codeMag fb (s * 2 ^ fb + k) : ℝ) = k * 2 ^ s := by rw [codeMag_binade hk hs']; push_cast; rfl
  have habove : ∀ d, s * 2 ^ fb + k < d → ((k : ℝ) + 1) * 2 ^ s ≤ codeMag fb d := fun d hd => by
    exact_mod_cast codeMag_above hk hs' hd
  have hbelow : ∀ d, d < s * 2 ^ fb + k → (codeMag fb d : ℝ) ≤ (k - 1) * 2 ^ s ∨ ((k : ℝ) ≤ y ∧ (codeMag fb d : ℝ) < k * 2 ^ s) := by
    intro d hd
    by_cases hlow : s = 0 ∨ 2 ^ fb < k
    · have : (codeMag fb d : ℝ) + 2 ^ s ≤ k * 2 ^ s := by exact_mod_cast codeMag_below hk hlow hd
      exact .inl (by linarith)
    · obtain ⟨hk2, hy⟩ := hs.resolve_left (by omega)
      obtain rfl : k = 2 ^ fb := by omega
      refine .inr ⟨by exact_mod_cast hy, ?_⟩
      rw [← hself]
      exact_mod_cast codeMag_strictMono fb hd
  have heven : k % 2 = 0 → (s * 2 ^ fb + k) % 2 = 0 := fun hk => by
    have : 2 ^ fb % 2 = 0 := Nat.mod_eq_zero_of_dvd (dvd_pow_self 2 (by omega))
    simp [Nat.add_mod, Nat.mul_mod, this, hk]
  have htie : RoundsNear mode → ∀ d, d ≠ s * 2 ^ fb + k → 2 * (y * 2 ^ s) = codeMag fb (s * 2 ^ fb + k) + codeMag fb d →
      (d < s * 2 ^ fb + k ∧ 2 * (k : ℝ) = 2 * y + 1) ∨ 2 * y = 2 * k + 1 := by
    intro hnear d hd heq
    rw [hself] at heq
    obtain ⟨hlo, hhi⟩ := h.near hnear
    rcases Nat.lt_or_gt_of_ne hd with hd | hd
    · refine .inl ⟨hd, ?_⟩
      rcases hbelow d hd with hb | ⟨hy, hb⟩
      · have : y * 2 ^ s * 2 ≤ (2 * k - 1) * 2 ^ s := by linarith
        nlinarith
      · nlinarith
    · have := habove d hd
      have : (2 * k + 1) * 2 ^ s ≤ y * 2 ^ s * 2 := by linarith
      exact .inr (by nlinarith)
  constructor
  case down =>
    intro hdown
    obtain ⟨hlo, hhi⟩ := h.down hdown
    rw [hself]
    exact ⟨by gcongr, fun d hd => lt_of_lt_of_le (by gcongr) (habove d hd)⟩
  case up =>
    intro hup
    obtain ⟨hlo, hhi⟩ := h.up hup
    rw [hself]
    refine ⟨by gcongr, fun d hd => ?_⟩
    rcases hbelow d hd with hb | ⟨hy, hb⟩
    · exact lt_of_le_of_lt hb (by gcongr; linarith)
    · exact lt_of_lt_of_le hb (by gcongr)
  case below =>
    intro hnear d hd
    obtain ⟨hlo, hhi⟩ := h.near hnear
    rw [hself]
    rcases hbelow d hd with hb | ⟨hy, hb⟩
    · nlinarith
    · nlinarith
  case above =>
    intro hnear d hd
    obtain ⟨hlo, hhi⟩ := h.near hnear
    have := habove d hd
    rw [hself]
    nlinarith
  case even =>
    intro hm d hd heq
    refine heven (h.even hm ?_)
    exact (htie (.inl hm) d hd heq).imp_left And.right
  case away =>
    intro hm d hd heq
    exact ((htie (.inr hm) d hd heq).resolve_right (h.away hm)).1

end Sys2Proof.Machine
end

section
/-! SUPPORT. A format's rounding of an exact magnitude, with its flags (01 R36, 04 R88, R89): the model's roundMag is what the
statements call rounded once. -/
namespace Sys2Proof.Machine

/-! ### The encoding that roundMag makes -/

/-- What the format's widths must be: two bits of exponent and one of fraction. -/
structure FFmt.Wide (f : FFmt) : Prop where
  eb : 2 ≤ f.eb
  fb : 1 ≤ f.fb

theorem wide_fp32 : fmtFP32.Wide := ⟨by decide, by decide⟩
theorem wide_fp16 : fmtFP16.Wide := ⟨by decide, by decide⟩
theorem wide_bf16 : fmtBF16.Wide := ⟨by decide, by decide⟩

/-- The exponent of the highest bit of a magnitude, and that of the unit in which it is rounded. -/
def highBit (m : Nat) (e : Int) : Int := e + m.log2
def FFmt.ulp (f : FFmt) (m : Nat) (e : Int) : Int := max (highBit m e - f.fb) f.unit

/-- The significand, the encoding and the tininess of a rounded magnitude. -/
def FFmt.significand (f : FFmt) (mode : Nat) (neg : Bool) (m : Nat) (e : Int) : Nat := (roundAt mode neg m e (f.ulp m e)).1
def FFmt.code (f : FFmt) (mode : Nat) (neg : Bool) (m : Nat) (e : Int) : Nat :=
  (f.ulp m e - f.unit).toNat * 2 ^ f.fb + f.significand mode neg m e
def FFmt.tiny (f : FFmt) (mode : Nat) (neg : Bool) (m : Nat) (e : Int) : Bool :=
  (if (roundAt mode neg m e (highBit m e - f.fb)).1 = 2 ^ (f.fb + 1) then highBit m e + 1 else highBit m e) < f.emin

theorem signed_eq (f : FFmt) (neg : Bool) (c : Nat) : signed f neg c = f.withSign neg c := by
  cases neg <;> simp [signed, FFmt.withSign, FFmt.signBit]

/-- roundMag by the encoding, where the significand has the bits that the binade asks. -/
theorem roundMag_eq {f : FFmt} (hf : f.Wide) {mode m : Nat} {neg : Bool} {e : Int} (hhi : f.significand mode neg m e ≤ 2 ^ (f.fb + 1))
    (hlo : f.ulp m e = f.unit ∨ 2 ^ f.fb ≤ f.significand mode neg m e) :
    roundMag f mode neg m e = if f.code mode neg m e < f.infBits
      then (f.withSign neg (f.code mode neg m e), flagIf (roundAt mode neg m e (f.ulp m e)).2 flagNX
        ||| flagIf ((roundAt mode neg m e (f.ulp m e)).2 && f.tiny mode neg m e) flagUF)
      else (overflowBits f mode neg, flagOF ||| flagNX) := by
  have hp : 0 < 2 ^ f.fb := Nat.two_pow_pos _
  have heb : 4 ≤ 2 ^ f.eb := Nat.pow_le_pow_right (n := 2) (by decide) hf.eb
  have hq : f.unit ≤ f.ulp m e := le_max_right _ _
  have hul : max (e + m.log2 - f.fb) (f.emin - f.fb) = f.ulp m e := rfl
  have hunit : f.unit = 1 - f.bias - f.fb := rfl
  have hbig : 2 ^ f.fb ≤ f.infBits := Nat.le_mul_of_pos_left _ (by omega)
  unfold roundMag
  simp only [hul, ← signed_eq]
  rw [show (roundAt mode neg m e (f.ulp m e)).1 = f.significand mode neg m e from rfl]
  by_cases h1 : f.significand mode neg m e < 2 ^ f.fb
  · have hcode : f.code mode neg m e = f.significand mode neg m e := by
      rw [FFmt.code, hlo.resolve_right (by omega)]
      simp
    rw [if_pos h1, hcode, if_pos (show f.significand mode neg m e < f.infBits by omega)]
    rfl
  rw [if_neg h1]
  -- The significand is brought below twice its lower bound; j is the binade and r the fraction.
  obtain ⟨j, r, hj, hr, hcode⟩ : ∃ j r : Nat, (if f.significand mode neg m e = 2 ^ (f.fb + 1) then ((2 ^ f.fb : Nat), f.ulp m e + 1)
      else (f.significand mode neg m e, f.ulp m e)) = (2 ^ f.fb + r, f.unit + j) ∧ r < 2 ^ f.fb
      ∧ f.code mode neg m e = (j + 1) * 2 ^ f.fb + r := by
    by_cases h2 : f.significand mode neg m e = 2 ^ (f.fb + 1)
    · refine ⟨(f.ulp m e - f.unit).toNat + 1, 0, ?_, hp, ?_⟩
      · rw [if_pos h2, Prod.mk.injEq]
        exact ⟨rfl, by push_cast; omega⟩
      · rw [FFmt.code, h2]
        ring
    · rw [pow_succ] at hhi h2
      refine ⟨(f.ulp m e - f.unit).toNat, f.significand mode neg m e - 2 ^ f.fb, ?_, by omega, ?_⟩
      · rw [pow_succ, if_neg h2, Prod.mk.injEq]
        exact ⟨by omega, by omega⟩
      · rw [FFmt.code, Nat.add_mul]
        omega
  rw [hj, hcode]
  have hef : f.unit + j + f.fb + f.bias = ((j + 1 : Nat) : Int) := by push_cast; omega
  have hlt : ((2 : Int) ^ f.eb - 1 ≤ ((j + 1 : Nat) : Int)) ↔ ¬(j + 1) * 2 ^ f.fb + r < f.infBits := by
    have : (2 : Int) ^ f.eb - 1 = ((2 ^ f.eb - 1 : Nat) : Int) := by rw [Nat.cast_sub (by omega)]; push_cast; rfl
    rw [this, Nat.cast_le, FFmt.infBits, not_lt]
    constructor
    · intro h
      exact le_trans (Nat.mul_le_mul_right _ h) (Nat.le_add_right _ _)
    · intro h
      by_contra hn
      have := Nat.mul_le_mul_right (2 ^ f.fb) (Nat.lt_of_not_le hn)
      rw [Nat.succ_mul] at this
      omega
  simp only [hef, ge_iff_le, hlt]
  by_cases hc : (j + 1) * 2 ^ f.fb + r < f.infBits
  · rw [if_neg (not_not.mpr hc), if_pos hc, Int.toNat_natCast, Nat.add_sub_cancel_left]
    rfl
  · rw [if_pos hc, if_neg hc]

/-! ### Where the number lies -/

/-- The binade of a number, by the highest bit of what stands for it. -/
theorem Approx.binade {p m : Nat} {e : Int} {x : ℝ} (h : Approx p m e x) (hp : 1 ≤ p) (hm : m ≠ 0) :
    (2 : ℝ) ^ highBit m e ≤ x ∧ x < 2 ^ (highBit m e + 1) := by
  have hlo : 2 ^ m.log2 ≤ m := Nat.log2_self_le hm
  have hhi : m < 2 ^ (m.log2 + 1) := Nat.lt_log2_self
  have he := two_zpow_pos e
  have h1 : (2 : ℝ) ^ highBit m e = 2 ^ m.log2 * 2 ^ e := by rw [highBit, two_zpow_natAdd, mul_comm]
  have h2 : (2 : ℝ) ^ (highBit m e + 1) = 2 ^ (m.log2 + 1) * 2 ^ e := by
    rw [highBit, Int.add_assoc, show ((m.log2 : Int) + 1) = (m.log2 + 1 : Nat) from rfl, two_zpow_natAdd, mul_comm]
  rw [h1, h2]
  rcases h with rfl | ⟨hodd, hpm, hxlo, hxhi⟩
  · have hlo' : (2 : ℝ) ^ m.log2 ≤ m := by exact_mod_cast hlo
    have hhi' : (m : ℝ) < 2 ^ (m.log2 + 1) := by exact_mod_cast hhi
    exact ⟨by gcongr, by gcongr⟩
  · have hl : m.log2 ≠ 0 := by
      intro h0
      have : 2 ^ 1 ≤ 2 ^ p := Nat.pow_le_pow_right (by decide) hp
      rw [h0] at hhi
      omega
    have heven : 2 ^ m.log2 % 2 = 0 := Nat.mod_eq_zero_of_dvd (dvd_pow_self 2 hl)
    have hlo' : (2 : ℝ) ^ m.log2 ≤ m - 1 := by
      rw [le_sub_iff_add_le]
      exact_mod_cast (by omega : 2 ^ m.log2 + 1 ≤ m)
    have hhi' : (m : ℝ) + 1 ≤ 2 ^ (m.log2 + 1) := by exact_mod_cast hhi
    exact ⟨le_trans (by gcongr) hxlo.le, lt_of_lt_of_le hxhi (by gcongr)⟩

/-- A number in a binade, in units of fb bits below its highest. -/
theorem div_zpow_bounds {x : ℝ} {T q : Int} {n : Nat} (h : (2 : ℝ) ^ T ≤ x ∧ x < 2 ^ (T + 1)) :
    (q = T - n → (2 : ℝ) ^ n ≤ x / 2 ^ q) ∧ (T - n ≤ q → x / 2 ^ q < 2 ^ (n + 1)) := by
  have hq := two_zpow_pos q
  rw [le_div_iff₀ hq, div_lt_iff₀ hq, mul_comm, ← two_zpow_natAdd, mul_comm, ← two_zpow_natAdd]
  refine ⟨?_, fun hle => h.2.trans_le (zpow_le_zpow_right₀ (by norm_num) (by push_cast; omega))⟩
  rintro rfl
  rw [sub_add_cancel]
  exact h.1

/-- The number in smallest units is its part of the binade, scaled. -/
theorem div_unit_eq (f : FFmt) (m : Nat) (e : Int) (x : ℝ) : x / 2 ^ f.unit = x / 2 ^ f.ulp m e * 2 ^ (f.ulp m e - f.unit).toNat := by
  have hsplit : (2 : ℝ) ^ f.ulp m e = 2 ^ f.unit * 2 ^ (f.ulp m e - f.unit).toNat := two_zpow_split (le_max_right _ _)
  have := (two_zpow_pos f.unit).ne'
  rw [hsplit]
  field_simp

section
variable {f : FFmt} {mode m : Nat} {e : Int} {x : ℝ} (neg : Bool) (hf : f.Wide) (hm : m ≠ 0) (hx : Approx (f.fb + 2) m e x)
include hm hx

/-- The sticky bit lies two places below every unit of rounding. -/
theorem Approx.room {q : Int} (hq : highBit m e - f.fb ≤ q) : x = m * 2 ^ e ∨ e + 2 ≤ q := by
  refine hx.imp_right fun ⟨_, hpm, _, _⟩ => ?_
  have : f.fb + 2 ≤ m.log2 := (Nat.le_log2 hm).mpr hpm
  unfold highBit at hq
  omega

/-- The number in the unit that it is rounded in, and its significand. -/
theorem significand_rounds : RoundsWhole mode neg (x / 2 ^ f.ulp m e) (f.significand mode neg m e)
    ∧ ((roundAt mode neg m e (f.ulp m e)).2 = true ↔ x / 2 ^ f.ulp m e ≠ f.significand mode neg m e) :=
  roundAt_rounds hx (hx.room hm (le_max_left _ _)) mode neg

theorem ulp_bounds : x / 2 ^ f.ulp m e < 2 ^ (f.fb + 1) ∧ (f.ulp m e = f.unit ∨ (2 : ℝ) ^ f.fb ≤ x / 2 ^ f.ulp m e) := by
  have hb := hx.binade (by omega) hm
  refine ⟨(div_zpow_bounds hb).2 (le_max_left _ _), ?_⟩
  rcases le_total (highBit m e - f.fb) f.unit with h | h
  · exact .inl (max_eq_right h)
  · exact .inr ((div_zpow_bounds hb).1 (max_eq_left h))

theorem significand_bounds : f.significand mode neg m e ≤ 2 ^ (f.fb + 1) ∧ (f.ulp m e = f.unit ∨ 2 ^ f.fb ≤ f.significand mode neg m e) := by
  obtain ⟨hlt, hge⟩ := ulp_bounds hm hx
  obtain ⟨hr, -⟩ := significand_rounds (mode := mode) neg hm hx
  exact ⟨hr.le (by push_cast; exact hlt.le), hge.imp_right fun h => hr.ge (by push_cast; exact h)⟩

include hf in
theorem code_rounds : RoundsCode f.fb mode neg (x / 2 ^ f.unit) (f.code mode neg m e) := by
  rw [div_unit_eq f m e x]
  obtain ⟨hr, -⟩ := significand_rounds (mode := mode) neg hm hx
  obtain ⟨hhi, hlo⟩ := significand_bounds (mode := mode) neg hm hx
  obtain ⟨-, hge⟩ := ulp_bounds hm hx
  refine hr.code hf.fb hhi ?_
  rcases eq_or_ne (f.ulp m e) f.unit with h | h
  · exact .inl (by omega)
  · exact .inr ⟨hlo.resolve_left h, hge.resolve_left h⟩

theorem code_inexact : (roundAt mode neg m e (f.ulp m e)).2 = true ↔ x / 2 ^ f.unit ≠ codeMag f.fb (f.code mode neg m e) := by
  obtain ⟨-, hnx⟩ := significand_rounds (mode := mode) neg hm hx
  obtain ⟨hhi, hlo⟩ := significand_bounds (mode := mode) neg hm hx
  rw [hnx, div_unit_eq f m e x, FFmt.code, codeMag_binade hhi (hlo.imp_left (by omega))]
  push_cast
  rw [ne_eq, ne_eq, mul_left_inj' (by positivity)]

end

/-! ### Tininess -/

/-- Rounded to the format's precision with no least exponent, x smallest units would be less than the least normal magnitude. -/
def Tiny (fb mode : Nat) (neg : Bool) (x : ℝ) : Prop :=
  (RoundsNear mode → x < 2 ^ fb - 1 / 4) ∧ (RoundsDown mode neg → x < 2 ^ fb) ∧ (RoundsUp mode neg → x ≤ 2 ^ fb - 1 / 2)

theorem not_tiny {fb mode : Nat} (neg : Bool) {x : ℝ} (hmode : mode ≤ 4) (hx : (2 : ℝ) ^ fb ≤ x) : ¬Tiny fb mode neg x := by
  rintro ⟨hnear, hdown, hup⟩
  rcases rounds_cases neg hmode with ⟨h, -, -⟩ | ⟨-, h, -⟩ | ⟨-, -, h⟩
  · linarith [hdown h]
  · linarith [hup h]
  · linarith [hnear h]

/-- One binade below the least normal: tiny unless the significand is rounded up to the next binade. -/
theorem RoundsWhole.tiny_iff {fb mode k : Nat} {neg : Bool} {y : ℝ} (h : RoundsWhole mode neg y k) (hmode : mode ≤ 4)
    (hy : y < 2 ^ (fb + 1)) : k ≠ 2 ^ (fb + 1) ↔ Tiny fb mode neg (y / 2) := by
  have hk : k ≤ 2 ^ (fb + 1) := h.le (by push_cast; exact hy.le)
  have hpow : (2 : ℝ) ^ (fb + 1) = 2 * 2 ^ fb := by ring
  constructor
  · intro hne
    have hlt : (k : ℝ) + 1 ≤ 2 ^ (fb + 1) := by exact_mod_cast (by omega : k + 1 ≤ 2 ^ (fb + 1))
    refine ⟨fun hnear => ?_, fun _ => by linarith, fun hup => by linarith [(h.up hup).2]⟩
    obtain ⟨-, hhi⟩ := h.near hnear
    refine lt_of_le_of_ne (by linarith) fun heq => ?_
    have htie : 2 * y = 2 * k + 1 := by linarith
    rcases hnear with hm | hm
    · have hkk : k + 1 = 2 ^ (fb + 1) := by
        have : (k : ℝ) + 1 = 2 ^ (fb + 1) := by linarith
        exact_mod_cast this
      have := h.even hm (.inr htie)
      rw [pow_succ] at hkk
      omega
    · exact h.away hm htie
  · rintro ⟨hnear, hdown, hup⟩ rfl
    have hcast : (((2 ^ (fb + 1) : Nat)) : ℝ) = 2 * 2 ^ fb := by push_cast; ring
    rcases rounds_cases neg hmode with ⟨hd, -, -⟩ | ⟨-, hu, -⟩ | ⟨-, -, hn⟩
    · linarith [(h.down hd).1]
    · linarith [(h.up hu).1, hup hu]
    · linarith [(h.near hn).1, hnear hn]

theorem tiny_iff {f : FFmt} {mode m : Nat} {e : Int} {x : ℝ} (neg : Bool) (hf : f.Wide) (hm : m ≠ 0) (hx : Approx (f.fb + 2) m e x)
    (hmode : mode ≤ 4) : f.tiny mode neg m e = true ↔ Tiny f.fb mode neg (x / 2 ^ f.unit) := by
  have hb := hx.binade (by omega) hm
  have hemin : f.emin = f.unit + f.fb := by unfold FFmt.unit; omega
  have hfb : (2 : ℝ) ≤ 2 ^ f.fb := by exact_mod_cast Nat.pow_le_pow_right (n := 2) (by decide) hf.fb
  simp only [FFmt.tiny, decide_eq_true_eq, hemin]
  generalize hT : highBit m e = T at *
  have hu := two_zpow_pos f.unit
  rcases lt_trichotomy (T + 1) (f.unit + f.fb) with hlt | heq | hgt
  · have hsmall : x / 2 ^ f.unit < 2 ^ f.fb / 2 := by
      rw [div_lt_iff₀ hu, show (2 : ℝ) ^ f.fb / 2 * 2 ^ f.unit = 2 ^ (f.unit + f.fb - 1) by
        rw [zpow_sub₀ (by norm_num), two_zpow_natAdd, zpow_one]; ring]
      exact hb.2.trans_le (zpow_le_zpow_right₀ (by norm_num) (by omega))
    refine iff_of_true (by split <;> omega) ⟨fun _ => by linarith, fun _ => by linarith, fun _ => by linarith⟩
  · obtain ⟨hr, -⟩ := roundAt_rounds hx (hx.room hm (q := T - f.fb) (by omega)) mode neg
    have hhalf : x / 2 ^ f.unit = x / 2 ^ (T - f.fb) / 2 := by
      rw [show f.unit = T - f.fb + 1 by omega, two_zpow_add, zpow_one, div_div]
    rw [hhalf, ← hr.tiny_iff hmode ((div_zpow_bounds hb).2 le_rfl)]
    split
    · simp_all
    · simp_all; omega
  · refine iff_of_false (by split <;> omega) (not_tiny neg hmode ?_)
    rw [le_div_iff₀ hu, mul_comm, ← two_zpow_natAdd]
    exact le_trans (zpow_le_zpow_right₀ (by norm_num) (by omega)) hb.1

end Sys2Proof.Machine
end

section
/-! SUPPORT. A number rounded once to a format, as the statements say it, of a real number of smallest units; and the forms in which
the statements name the number. -/
namespace Sys2Proof.Machine

/-! ### Rounded once -/

/-- r is the number of x smallest units, rounded once. -/
def RoundsUnits (f : FFmt) (mode : Nat) (neg : Bool) (x : ℝ) (r : Nat × FFlags) : Prop :=
  RoundsTo f mode neg (fun h => (h : ℝ) ≤ 4 * x) (fun h => 4 * x ≤ h) r

theorem infBits_lt (f : FFmt) : f.infBits < 2 ^ (f.eb + f.fb) := by
  rw [FFmt.infBits, pow_add]
  have := Nat.two_pow_pos f.eb
  exact (Nat.mul_lt_mul_right (Nat.two_pow_pos _)).mpr (by omega)

/-- The encoding before the infinity, and its magnitude. -/
theorem FFmt.Wide.infBits {f : FFmt} (hf : f.Wide) : 2 ^ f.fb < f.infBits := by
  have : 4 ≤ 2 ^ f.eb := Nat.pow_le_pow_right (n := 2) (by decide) hf.eb
  have := Nat.two_pow_pos f.fb
  unfold FFmt.infBits
  nlinarith [Nat.mul_le_mul_right (2 ^ f.fb) (by omega : 3 ≤ 2 ^ f.eb - 1)]

theorem overflowBits_eq (f : FFmt) {mode : Nat} (neg : Bool) (hmode : mode ≤ 4) :
    (RoundsDown mode neg ∧ overflowBits f mode neg = f.withSign neg (f.infBits - 1))
    ∨ (¬RoundsDown mode neg ∧ overflowBits f mode neg = f.withSign neg f.infBits) := by
  unfold RoundsDown overflowBits
  simp only [signed_eq]
  interval_cases mode <;> cases neg <;> simp

/-- What the flags of a result say (R36). -/
theorem flags_of {nx of uf : Bool} {exact big tiny : Prop} {r : FFlags} (hr : r = flagIf nx flagNX ||| flagIf of flagOF ||| flagIf uf flagUF)
    (hnx : nx = true ↔ ¬exact) (hof : of = true ↔ big) (huf : uf = true ↔ ¬exact ∧ tiny) :
    ∃ nx of uf : Bool, r = flagIf nx flagNX ||| flagIf of flagOF ||| flagIf uf flagUF
      ∧ (nx = true ↔ ¬exact) ∧ (of = true ↔ big) ∧ (uf = true ↔ ¬exact ∧ tiny) := ⟨nx, of, uf, hr, hnx, hof, huf⟩

/-- Tininess in quarters of a smallest unit. -/
theorem tiny_quarters (fb mode : Nat) (neg : Bool) (x : ℝ) :
    (RoundsNear mode → ¬((4 * 2 ^ fb - 1 : Nat) : ℝ) ≤ 4 * x) ∧ (RoundsDown mode neg → ¬((4 * 2 ^ fb : Nat) : ℝ) ≤ 4 * x)
      ∧ (RoundsUp mode neg → 4 * x ≤ (4 * 2 ^ fb - 2 : Nat)) ↔ Tiny fb mode neg x := by
  have hpos : 1 ≤ 2 ^ fb := Nat.one_le_two_pow
  rw [Nat.cast_sub (by omega), Nat.cast_sub (by omega)]
  push_cast
  unfold Tiny
  refine and_congr (imp_congr_right fun _ => ?_) (and_congr (imp_congr_right fun _ => ?_) (imp_congr_right fun _ => ?_))
  · rw [not_le]; constructor <;> intro h <;> linarith
  · rw [not_le]; constructor <;> intro h <;> linarith
  · constructor <;> intro h <;> linarith

section
variable {f : FFmt} {mode c : Nat} {neg : Bool} {x : ℝ} {r : Nat × FFlags}

/-- The encoding that is not beyond the greatest reads as the statements ask it, given which encoding it is and its flags. -/
theorem RoundsCode.below_top {c : Nat} (h : RoundsCode f.fb mode neg x c) (hc : c ≤ f.infBits)
    (hbig : x < codeMag f.fb f.infBits) {nx tiny : Bool} (hnx : nx = true ↔ x ≠ codeMag f.fb c) (htiny : tiny = true ↔ Tiny f.fb mode neg x)
    (hr : r = (f.withSign neg c, flagIf nx flagNX ||| flagIf (c == f.infBits) flagOF ||| flagIf (nx && tiny) flagUF)) :
    RoundsUnits f mode neg x r := by
  have hmag : ∀ d, d ≤ f.infBits → f.mag d = codeMag f.fb d := fun d hd => f.mag_of_lt (lt_of_le_of_lt hd (infBits_lt f))
  have hnot : ¬((4 * codeMag f.fb f.infBits : Nat) : ℝ) ≤ 4 * x := by push_cast; linarith
  subst hr
  unfold RoundsUnits RoundsTo
  simp only [show (2 ^ f.eb - 1) * 2 ^ f.fb = f.infBits from rfl]
  refine ⟨c, hc, rfl, fun hb => absurd (by rwa [hmag _ le_rfl] at hb) hnot, fun _ => ⟨fun hd => ?_, fun hu => ?_, fun hn => ⟨?_, ?_, ?_⟩⟩, ?_⟩
  · obtain ⟨hle, hlt⟩ := h.down hd
    refine ⟨by rw [hmag c hc]; push_cast; linarith, fun d hd hdt => ?_⟩
    rw [hmag d hdt]
    push_cast
    linarith [hlt d hd]
  · obtain ⟨hle, hlt⟩ := h.up hu
    refine ⟨by rw [hmag c hc]; push_cast; linarith, fun d hd => ?_⟩
    rw [hmag d (by omega)]
    push_cast
    linarith [hlt d hd]
  · intro d hd
    rw [hmag c hc, hmag d (by omega)]
    push_cast
    linarith [h.below hn d hd]
  · intro d hd hdt
    rw [hmag c hc, hmag d hdt]
    push_cast
    linarith [h.above hn d hd]
  · intro d hd hdt h1 h2
    rw [hmag c hc, hmag d hdt] at h1 h2
    push_cast at h1 h2
    have htie : 2 * x = codeMag f.fb c + codeMag f.fb d := by linarith
    split
    · exact h.even ‹_› d hd htie
    · exact h.away (hn.resolve_left ‹_›) d hd htie
  · have hexact : (¬(4 * f.mag f.infBits : Nat) ≤ 4 * x ∧ ((4 * f.mag c : Nat) : ℝ) ≤ 4 * x ∧ 4 * x ≤ (4 * f.mag c : Nat))
        ↔ x = codeMag f.fb c := by
      rw [hmag c hc, hmag _ le_rfl]
      push_cast at hnot ⊢
      exact ⟨fun ⟨_, h1, h2⟩ => by linarith, fun h => ⟨hnot, by linarith, by linarith⟩⟩
    refine flags_of rfl (hnx.trans (not_congr hexact.symm)) ?_ ?_
    · rw [beq_iff_eq, hmag _ le_rfl]
      exact ⟨.inr, fun h => h.resolve_left hnot⟩
    · rw [Bool.and_eq_true, hnx, htiny]
      exact and_congr (not_congr hexact.symm) (tiny_quarters f.fb mode neg x).symm

/-- A magnitude one step beyond the greatest or more overflows. -/
theorem roundsUnits_overflow (hf : f.Wide) (hmode : mode ≤ 4) (hbig : codeMag f.fb f.infBits ≤ x)
    (hr : r = (overflowBits f mode neg, flagOF ||| flagNX)) : RoundsUnits f mode neg x r := by
  have hmag : f.mag f.infBits = codeMag f.fb f.infBits := f.mag_of_lt (infBits_lt f)
  have hge : ((4 * f.mag f.infBits : Nat) : ℝ) ≤ 4 * x := by rw [hmag]; push_cast; linarith
  have hnt : ¬Tiny f.fb mode neg x := by
    refine not_tiny neg hmode (le_trans ?_ hbig)
    exact_mod_cast le_trans hf.infBits.le (codeMag_strictMono f.fb).le_apply
  subst hr
  unfold RoundsUnits RoundsTo
  simp only [show (2 ^ f.eb - 1) * 2 ^ f.fb = f.infBits from rfl]
  obtain ⟨c, hc, hbits, hdown, hup⟩ : ∃ c, c ≤ f.infBits ∧ overflowBits f mode neg = f.withSign neg c
      ∧ (RoundsDown mode neg → c = f.infBits - 1) ∧ (¬RoundsDown mode neg → c = f.infBits) := by
    rcases overflowBits_eq f neg hmode with ⟨hd, h⟩ | ⟨hd, h⟩
    · exact ⟨_, Nat.sub_le _ _, h, fun _ => rfl, absurd hd⟩
    · exact ⟨_, le_rfl, h, fun h' => absurd h' hd, fun _ => rfl⟩
  refine ⟨c, hc, hbits, fun _ => ⟨hdown, hup⟩, absurd hge, flags_of (nx := true) (of := true) (uf := false) rfl ?_ ?_ ?_⟩
  · exact iff_of_true rfl fun h => h.1 hge
  · exact iff_of_true rfl (.inl hge)
  · exact iff_of_false (by decide) fun h => hnt ((tiny_quarters f.fb mode neg x).mp h.2)

theorem RoundsCode.lt_of_lt (h : RoundsCode f.fb mode neg x c) (hmode : mode ≤ 4) {t : Nat} (ht : c < t) : x < codeMag f.fb t := by
  have hlt : (codeMag f.fb c : ℝ) < codeMag f.fb t := by exact_mod_cast codeMag_strictMono f.fb ht
  rcases rounds_cases neg hmode with ⟨hd, -, -⟩ | ⟨-, hu, -⟩ | ⟨-, -, hn⟩
  · exact (h.down hd).2 t ht
  · exact lt_of_le_of_lt (h.up hu).1 hlt
  · linarith [h.above hn t ht]

theorem RoundsCode.eq_of_lt (h : RoundsCode f.fb mode neg x c) (hmode : mode ≤ 4) {t : Nat} (ht : t ≤ c) (hx : x < codeMag f.fb t) :
    c = t ∧ ¬RoundsDown mode neg ∧ ∀ d, d < t → (codeMag f.fb d : ℝ) < x := by
  have hle : (codeMag f.fb t : ℝ) ≤ codeMag f.fb c := by exact_mod_cast (codeMag_strictMono f.fb).monotone ht
  have hmono : ∀ d, d < t → (codeMag f.fb d : ℝ) < codeMag f.fb t := fun d hd => by exact_mod_cast codeMag_strictMono f.fb hd
  rcases rounds_cases neg hmode with ⟨hd, -, -⟩ | ⟨hd, hu, -⟩ | ⟨hd, -, hn⟩
  · linarith [(h.down hd).1]
  · refine ⟨(Nat.le_of_not_lt fun hlt => ?_).antisymm ht, hd, fun d hdt => (h.up hu).2 d (by omega)⟩
    linarith [(h.up hu).2 t hlt]
  · refine ⟨(Nat.le_of_not_lt fun hlt => ?_).antisymm ht, hd, fun d hdt => ?_⟩
    · linarith [h.below hn t hlt]
    · linarith [h.below hn d (by omega), hmono d hdt]

end

/-- The model's rounding of an exact magnitude, or of one with a sticky bit, is the number rounded once. -/
theorem roundMag_rounds {f : FFmt} {mode m : Nat} {neg : Bool} {e : Int} {x : ℝ} (hf : f.Wide) (hmode : mode ≤ 4) (hm : m ≠ 0)
    (hx : Approx (f.fb + 2) m e x) : RoundsUnits f mode neg (x / 2 ^ f.unit) (roundMag f mode neg m e) := by
  have hcode := code_rounds (mode := mode) neg hf hm hx
  have hnx := code_inexact (mode := mode) neg hm hx
  have htiny := tiny_iff neg hf hm hx hmode
  obtain ⟨hhi, hlo⟩ := significand_bounds (mode := mode) neg hm hx
  rw [roundMag_eq hf hhi hlo]
  split
  case isTrue hc =>
    refine hcode.below_top hc.le (hcode.lt_of_lt hmode hc) hnx htiny ?_
    simp [hc.ne, flagIf]
  case isFalse hc =>
    rcases le_or_gt (codeMag f.fb f.infBits : ℝ) (x / 2 ^ f.unit) with hbig | hbig
    · exact roundsUnits_overflow hf hmode hbig rfl
    obtain ⟨heq, hd, hlt⟩ := hcode.eq_of_lt hmode (Nat.le_of_not_lt hc) hbig
    have hbits : overflowBits f mode neg = f.withSign neg f.infBits := ((overflowBits_eq f neg hmode).resolve_left fun h => hd h.1).2
    have hfar : ¬Tiny f.fb mode neg (x / 2 ^ f.unit) := by
      have := hlt (2 ^ f.fb) hf.infBits
      rw [codeMag_of_le (Nat.pow_le_pow_right (by decide) (Nat.le_succ _))] at this
      exact not_tiny neg hmode (by push_cast at this; exact this.le)
    rw [heq] at hcode hnx
    refine hcode.below_top le_rfl hbig hnx htiny ?_
    rw [hbits, hnx.mpr hbig.ne, Bool.eq_false_iff.mpr fun h => hfar (htiny.mp h)]
    simp [flagIf]
    decide

/-! ### The number as a ratio, an integer or a root -/

theorem two_zpow_toNat (t : Int) : (2 : ℝ) ^ t * 2 ^ (-t).toNat = 2 ^ t.toNat := by
  rcases le_total 0 t with h | h
  · lift t to Nat using h
    simp
  · obtain ⟨n, rfl⟩ : ∃ n : Nat, t = -n := ⟨(-t).toNat, by omega⟩
    simp [zpow_neg]

/-- A ratio rounded once is its number of smallest units rounded once. -/
theorem roundsRatio_iff {f : FFmt} {mode n d : Nat} {neg : Bool} {e : Int} {r : Nat × FFlags} (hd : d ≠ 0) :
    RoundsRatio f mode neg n d e r ↔ RoundsUnits f mode neg (n / d * 2 ^ e / 2 ^ f.unit) r := by
  have hd' : (0 : ℝ) < d := by exact_mod_cast Nat.pos_of_ne_zero hd
  have ht := two_zpow_toNat (e - f.unit + 2)
  have hx : 4 * ((n : ℝ) / d * 2 ^ e / 2 ^ f.unit) = n / d * 2 ^ (e - f.unit + 2) := by
    rw [two_zpow_add, zpow_sub₀ (by norm_num)]
    norm_num
    ring
  have hp : (0 : ℝ) < 2 ^ (f.unit - 2 - e).toNat := by positivity
  rw [show -(e - f.unit + 2) = f.unit - 2 - e by ring] at ht
  have hscale : (n : ℝ) / d * 2 ^ (e - f.unit + 2) = (n * 2 ^ (e - f.unit + 2).toNat) / (d * 2 ^ (f.unit - 2 - e).toNat) := by
    rw [← ht]
    field_simp
  unfold RoundsRatio RoundsUnits
  simp only [hx, hscale, le_div_iff₀ (mul_pos hd' hp), div_le_iff₀ (mul_pos hd' hp)]
  refine iff_of_eq (congrArg₂ (fun p q => RoundsTo f mode neg p q r) ?_ ?_) <;>
  · funext h
    rw [← Nat.cast_le (α := ℝ)]
    push_cast
    rw [mul_assoc]

end Sys2Proof.Machine
end

section
/-! SUPPORT. The value of an encoding (04 R78, R79), by what it is: finite, an infinity or a NaN; and a value in a format. -/
namespace Sys2Proof.Machine

/-! ### Decoding -/

/-- An encoding decodes to m parts of 2^e, of its sign: its own magnitude, counted in parts no smaller than its smallest unit. -/
structure FinVal (f : FFmt) (b m : Nat) (e : Int) : Prop where
  eq   : fdecode f b = .fin (f.sign b) m e
  unit : f.unit ≤ e
  mag  : m * 2 ^ (e - f.unit).toNat = f.mag b
  lt   : m < 2 ^ (f.fb + 1)
  exp  : e < f.unit + 2 ^ f.eb

theorem fdecode_sign (f : FFmt) (b : Nat) : decide (b / f.signBit % 2 = 1) = f.sign b := by
  rw [FFmt.sign, FFmt.signBit, Bool.eq_iff_iff, decide_eq_true_eq, beq_iff_eq]

theorem fields_lt (f : FFmt) (b : Nat) : b % 2 ^ (f.eb + f.fb) / 2 ^ f.fb < 2 ^ f.eb := by
  rw [Nat.div_lt_iff_lt_mul (Nat.two_pow_pos _), ← pow_add]
  exact Nat.mod_lt _ (Nat.two_pow_pos _)

section
variable {f : FFmt} {b : Nat}

theorem FFmt.isFin.decode (h : f.isFin b) : ∃ m e, FinVal f b m e := by
  obtain ⟨hdiv, -⟩ := div_mod_fields f b
  have hne : b / 2 ^ f.fb % 2 ^ f.eb ≠ 2 ^ f.eb - 1 := by
    rw [hdiv]
    exact ((Nat.div_lt_iff_lt_mul (Nat.two_pow_pos _)).mpr h).ne
  have hr : b % 2 ^ f.fb < 2 ^ f.fb := Nat.mod_lt _ (Nat.two_pow_pos _)
  have hE : ((b / 2 ^ f.fb % 2 ^ f.eb : Nat) : Int) < 2 ^ f.eb := by exact_mod_cast Nat.mod_lt _ (Nat.two_pow_pos f.eb)
  by_cases h0 : b / 2 ^ f.fb % 2 ^ f.eb = 0
  · refine ⟨b % 2 ^ f.fb, f.unit, ?_, le_rfl, ?_, by rw [pow_succ]; omega, by omega⟩
    · simp only [fdecode, if_neg hne, if_pos h0, fdecode_sign]
      rfl
    · simp [FFmt.mag, h0]
  · refine ⟨2 ^ f.fb + b % 2 ^ f.fb, f.unit + (b / 2 ^ f.fb % 2 ^ f.eb - 1 : Nat), ?_, by omega, ?_, by rw [pow_succ]; omega, by omega⟩
    · simp only [fdecode, if_neg hne, if_neg h0, fdecode_sign, Nat.cast_sub (Nat.one_le_iff_ne_zero.mpr h0)]
      rfl
    · simp [FFmt.mag, h0]

theorem fields_of_le (h : f.infBits ≤ b % 2 ^ (f.eb + f.fb)) : b / 2 ^ f.fb % 2 ^ f.eb = 2 ^ f.eb - 1
    ∧ b % 2 ^ f.fb = b % 2 ^ (f.eb + f.fb) - f.infBits := by
  obtain ⟨hdiv, hmod⟩ := div_mod_fields f b
  have hd : b % 2 ^ (f.eb + f.fb) / 2 ^ f.fb = 2 ^ f.eb - 1 := by
    have := (Nat.le_div_iff_mul_le (Nat.two_pow_pos f.fb)).mpr h
    have := fields_lt f b
    omega
  refine ⟨hdiv.trans hd, hmod.trans ?_⟩
  have := Nat.div_add_mod' (b % 2 ^ (f.eb + f.fb)) (2 ^ f.fb)
  rw [hd] at this
  unfold FFmt.infBits
  omega

theorem FFmt.isInf.decode (h : f.isInf b) : fdecode f b = .inf (f.sign b) := by
  obtain ⟨hdiv, hmod⟩ := fields_of_le (f := f) (b := b) (le_of_eq h.symm)
  have h0 : b % 2 ^ f.fb = 0 := by rw [hmod, h]; exact Nat.sub_self _
  simp only [fdecode, if_pos hdiv, if_pos h0, fdecode_sign]

theorem FFmt.isNan.decode (h : f.isNan b) : fdecode f b = .nan (decide (b % 2 ^ f.fb < 2 ^ (f.fb - 1))) := by
  have hlt : f.infBits < b % 2 ^ (f.eb + f.fb) := h
  obtain ⟨hdiv, hmod⟩ := fields_of_le hlt.le
  simp only [fdecode, if_pos hdiv, if_neg (show b % 2 ^ f.fb ≠ 0 by omega)]

theorem FFmt.isSnan.decode (h : f.isSnan b) : fdecode f b = .nan true := by rw [h.1.decode, decide_eq_true h.2]

theorem FFmt.isNan.decode_quiet (h : f.isNan b) (hs : ¬f.isSnan b) : fdecode f b = .nan false := by
  rw [h.decode, decide_eq_false fun hq => hs ⟨h, hq⟩]

/-- An encoding is finite, an infinity or a NaN, and no two of these. -/
theorem FFmt.isFin.not_nan (h : f.isFin b) : ¬f.isNan b := fun hn => Nat.lt_asymm h hn
theorem FFmt.isFin.not_inf (h : f.isFin b) : ¬f.isInf b := fun hi => Nat.lt_irrefl _ (lt_of_eq_of_lt hi.symm h)
theorem FFmt.isInf.not_nan (h : f.isInf b) : ¬f.isNan b := fun hn => Nat.lt_irrefl _ (lt_of_lt_of_eq hn h)
theorem FFmt.isSnan.nan (h : f.isSnan b) : f.isNan b := h.1
theorem FFmt.class (f : FFmt) (b : Nat) : f.isFin b ∨ f.isInf b ∨ f.isNan b := lt_trichotomy _ _

theorem FFmt.isFin.not_snan (h : f.isFin b) : ¬f.isSnan b := fun hs => h.not_nan hs.1
theorem FFmt.isInf.not_snan (h : f.isInf b) : ¬f.isSnan b := fun hs => h.not_nan hs.1

theorem isNan_fdecode : (fdecode f b).isNan = true ↔ f.isNan b := by
  rcases f.class b with h | h | h
  · obtain ⟨m, e, hv⟩ := h.decode
    simp [hv.eq, FVal.isNan, h.not_nan]
  · simp [h.decode, FVal.isNan, h.not_nan]
  · simp [h.decode, FVal.isNan, h]

theorem isSnan_fdecode : (fdecode f b).isSnan = true ↔ f.isSnan b := by
  rcases f.class b with h | h | h
  · obtain ⟨m, e, hv⟩ := h.decode
    simp [hv.eq, FVal.isSnan, h.not_snan]
  · simp [h.decode, FVal.isSnan, h.not_snan]
  · simp [h.decode, FVal.isSnan, FFmt.isSnan, h]

theorem mag_eq_zero_iff : f.mag b = 0 ↔ b % 2 ^ (f.eb + f.fb) = 0 := by
  rw [f.mag_eq]
  have h0 : codeMag f.fb 0 = 0 := codeMag_of_le (Nat.zero_le _)
  conv_lhs => rw [← h0]
  exact (codeMag_strictMono f.fb).injective.eq_iff

theorem isZero_fdecode : (fdecode f b).isZero = true ↔ f.isFin b ∧ f.mag b = 0 := by
  rcases f.class b with h | h | h
  · obtain ⟨m, e, hv⟩ := h.decode
    simp [hv.eq, FVal.isZero, h, ← hv.mag]
  · rw [h.decode]
    exact iff_of_false (by simp [FVal.isZero]) fun hf => hf.1.not_inf h
  · rw [h.decode]
    exact iff_of_false (by simp [FVal.isZero]) fun hf => hf.1.not_nan h

end

/-- The sign turned over. -/
theorem fdecode_neg {f : FFmt} {b b' : Nat} (hm : b' % 2 ^ (f.eb + f.fb) = b % 2 ^ (f.eb + f.fb)) (hs : f.sign b' = !f.sign b) :
    fdecode f b' = (fdecode f b).neg := by
  obtain ⟨hdiv, hmod⟩ := div_mod_fields f b
  obtain ⟨hdiv', hmod'⟩ := div_mod_fields f b'
  rw [hm, ← hdiv] at hdiv'
  rw [hm, ← hmod] at hmod'
  simp only [fdecode, fdecode_sign, hdiv', hmod', hs]
  split
  · split <;> rfl
  · split <;> rfl

/-! ### The exact value of a finite encoding -/

/-- m parts of 2^e, of a sign. -/
noncomputable def realVal (neg : Bool) (m : Nat) (e : Int) : ℝ := (if neg then -(m : ℝ) else m) * 2 ^ e

theorem abs_realVal (neg : Bool) (m : Nat) (e : Int) : |realVal neg m e| = m * 2 ^ e := by
  have he := two_zpow_pos e
  rw [realVal, abs_mul, abs_of_pos he]
  congr 1
  cases neg <;> simp

theorem realVal_eq_zero {neg : Bool} {m : Nat} {e : Int} : realVal neg m e = 0 ↔ m = 0 := by
  rw [← abs_eq_zero, abs_realVal, mul_eq_zero, Nat.cast_eq_zero, or_iff_left (two_zpow_pos e).ne']

theorem realVal_neg_iff {neg : Bool} {m : Nat} {e : Int} : realVal neg m e < 0 ↔ neg = true ∧ m ≠ 0 := by
  have he := two_zpow_pos e
  cases neg
  · simp only [realVal, Bool.false_eq_true, if_false, false_and, iff_false, not_lt]
    positivity
  · simp only [realVal, if_true, true_and, neg_mul, Left.neg_neg_iff]
    constructor
    · rintro h rfl
      simp at h
    · intro h
      have : (0 : ℝ) < m := by exact_mod_cast Nat.pos_of_ne_zero h
      positivity

/-- A magnitude in parts of 2^lo, no larger than its own. -/
theorem scaled_realVal (neg : Bool) (m : Nat) {e lo : Int} (h : lo ≤ e) : (scaled neg m e lo : ℝ) * 2 ^ lo = realVal neg m e := by
  rw [realVal, two_zpow_split h]
  cases neg <;> simp [scaled] <;> ring

section
variable {f : FFmt} {b m : Nat} {e : Int} (h : FinVal f b m e)
include h

theorem FinVal.value : (m : ℝ) * 2 ^ e = f.mag b * 2 ^ f.unit := by
  rw [← h.mag, two_zpow_split h.unit]
  push_cast
  ring

theorem FinVal.units : realVal (f.sign b) m e = f.units b * 2 ^ f.unit := by
  have := h.value
  cases hs : f.sign b <;> simp [realVal, FFmt.units, hs, this]

theorem FinVal.zero_iff : m = 0 ↔ f.mag b = 0 := by
  rw [← h.mag]
  simp

end

/-! ### Encoding -/

theorem fencode_nan (f : FFmt) (mode : Nat) (sg : Bool) : fencode f mode (.nan sg) = (f.nanBits, flagIf sg flagNV) := rfl

theorem fencode_inf (f : FFmt) (mode : Nat) (neg : Bool) : fencode f mode (.inf neg) = (f.withSign neg f.infBits, 0) := by
  simp [fencode, signed_eq]

theorem fencode_zero (f : FFmt) (mode : Nat) (neg : Bool) (e : Int) : fencode f mode (.fin neg 0 e) = (f.withSign neg 0, 0) := by
  simp [fencode, signed_eq]

theorem fencode_fin (f : FFmt) (mode : Nat) (neg : Bool) {m : Nat} (e : Int) (hm : m ≠ 0) :
    fencode f mode (.fin neg m e) = roundMag f mode neg m e := by simp [fencode, hm]

/-- A value with a non-zero magnitude in a format: the ratio that it stands for, rounded once. -/
theorem fencode_rounds {f : FFmt} {mode m n d : Nat} {neg : Bool} {e e' : Int} (hf : f.Wide) (hmode : mode ≤ 4) (hm : m ≠ 0) (hd : d ≠ 0)
    (hx : Approx (f.fb + 2) m e (n / d * 2 ^ e')) : RoundsRatio f mode neg n d e' (fencode f mode (.fin neg m e)) := by
  rw [roundsRatio_iff hd, fencode_fin f mode neg e hm]
  exact roundMag_rounds hf hmode hm hx

theorem fencode_rounds_exact {f : FFmt} {mode m n : Nat} {neg : Bool} {e e' : Int} (hf : f.Wide) (hmode : mode ≤ 4) (hm : m ≠ 0)
    (hx : (n : ℝ) * 2 ^ e' = m * 2 ^ e) : RoundsRatio f mode neg n 1 e' (fencode f mode (.fin neg m e)) :=
  fencode_rounds hf hmode hm one_ne_zero (.inl (by simpa using hx))

/-! ### A value that a format holds -/

/-- Encoding does not depend on the parts in which a value is counted. -/
theorem roundMag_scale (f : FFmt) (mode : Nat) (neg : Bool) {m : Nat} (hm : m ≠ 0) (j : Nat) (e : Int) :
    roundMag f mode neg (m * 2 ^ j) e = roundMag f mode neg m (e + j) := by
  have hlog : (m * 2 ^ j).log2 = m.log2 + j := by
    have hp : 0 < 2 ^ j := Nat.two_pow_pos j
    rw [Nat.log2_eq_iff (Nat.mul_ne_zero hm hp.ne'), Nat.pow_add, Nat.add_right_comm, Nat.pow_add, Nat.mul_le_mul_right_iff hp,
      Nat.mul_lt_mul_right hp]
    exact ⟨Nat.log2_self_le hm, Nat.lt_log2_self⟩
  have htop : e + ((m * 2 ^ j).log2 : Int) = e + j + m.log2 := by rw [hlog]; push_cast; ring
  simp only [roundMag, htop, roundAt_scale]

/-- A magnitude that a format holds is encoded as it is. -/
theorem roundMag_of_fits {f : FFmt} {mode m c : Nat} {neg : Bool} {e : Int} (hf : f.Wide) (hm : m ≠ 0) (hlt : m < 2 ^ (f.fb + 1))
    (he : f.unit ≤ e) (hc : codeMag f.fb c = m * 2 ^ (e - f.unit).toNat) (hfin : c < f.infBits) :
    roundMag f mode neg m e = (f.withSign neg c, 0) := by
  have hx : Approx (f.fb + 2) m e (m * 2 ^ e) := .inl rfl
  have hlog : m.log2 < f.fb + 1 := (Nat.log2_lt hm).mpr hlt
  have hul : f.ulp m e ≤ e := max_le (by unfold highBit; omega) he
  have hge : f.unit ≤ f.ulp m e := le_max_right _ _
  have hat := roundAt_of_le mode neg m hul
  obtain ⟨hhi, hlo⟩ := significand_bounds (mode := mode) neg hm hx
  have hcode : f.code mode neg m e = c := by
    apply (codeMag_strictMono f.fb).injective
    rw [hc, FFmt.code, codeMag_binade hhi (hlo.imp_left (by omega)), FFmt.significand, hat, Nat.mul_assoc, ← pow_add]
    congr 2
    omega
  rw [roundMag_eq hf hhi hlo, hcode, if_pos hfin, hat]
  simp [flagIf]

/-- The encoding of a sign and a magnitude is the encoding of both. -/
theorem withSign_split {f : FFmt} {b : Nat} (hb : b < 2 ^ (1 + f.eb + f.fb)) : f.withSign (f.sign b) (b % 2 ^ (f.eb + f.fb)) = b := by
  have hdm := Nat.div_add_mod' b (2 ^ (f.eb + f.fb))
  rw [Nat.add_assoc, pow_add, pow_one] at hb
  have hq : b / 2 ^ (f.eb + f.fb) < 2 := (Nat.div_lt_iff_lt_mul (Nat.two_pow_pos _)).mpr hb
  unfold FFmt.withSign FFmt.sign
  generalize b / 2 ^ (f.eb + f.fb) = q at *
  rcases (by omega : q = 0 ∨ q = 1) with rfl | rfl
  · simpa using hdm
  · simpa using hdm

/-- A value that a format holds is itself again, whatever the mode. -/
theorem fencode_fdecode {f : FFmt} (hf : f.Wide) (mode : Nat) {b : Nat} (hb : b < 2 ^ (1 + f.eb + f.fb)) (hn : ¬f.isNan b) :
    fencode f mode (fdecode f b) = (b, 0) := by
  rcases f.class b with h | h | h
  · obtain ⟨m, e, hv⟩ := h.decode
    rw [hv.eq]
    by_cases hm : m = 0
    · have h0 : b % 2 ^ (f.eb + f.fb) = 0 := mag_eq_zero_iff.mp (hv.zero_iff.mp hm)
      rw [hm, fencode_zero, ← h0, withSign_split hb]
    · rw [fencode_fin f mode _ e hm, roundMag_of_fits hf hm hv.lt hv.unit (by rw [hv.mag, f.mag_eq]) h, withSign_split hb]
  · rw [h.decode, fencode_inf, FFmt.infBits, ← h, withSign_split hb]
  · exact absurd h hn

end Sys2Proof.Machine
end

section
/-! SUPPORT. FP32 arithmetic (04 R89, 06 R129, R130): sums, products, fused products, quotients and roots of decoded values. -/
namespace Sys2Proof.Machine

/-! ### Decoded FP32 values -/

theorem finish32_zero (mode : Nat) (v : FVal) : finish32 mode (v, 0) = fencode fmtFP32 mode v := by
  simp [finish32]

theorem finish32_nan (mode : Nat) (fl : FFlags) : finish32 mode (.nan false, fl) = (fmtFP32.nanBits, fl) := by
  simp [finish32, fencode_nan, flagIf]

theorem finish32_inf (mode : Nat) (neg : Bool) (fl : FFlags) : finish32 mode (.inf neg, fl) = (fmtFP32.withSign neg fmtFP32.infBits, fl) := by
  simp [finish32, fencode_inf]

section
variable {a b : Nat}

theorem fp32_fin (h : fmtFP32.isFin a) : ∃ m e, FinVal fmtFP32 a m e ∧ fp32 a = .fin (fmtFP32.sign a) m e := by
  obtain ⟨m, e, hv⟩ := h.decode
  exact ⟨m, e, hv, hv.eq⟩

theorem fp32_inf (h : fmtFP32.isInf a) : fp32 a = .inf (fmtFP32.sign a) := h.decode

theorem fp32_isNan : (fp32 a).isNan = true ↔ fmtFP32.isNan a := isNan_fdecode
theorem fp32_isSnan : (fp32 a).isSnan = true ↔ fmtFP32.isSnan a := isSnan_fdecode

theorem FinVal.zero_iff32 {m : Nat} {e : Int} (h : FinVal fmtFP32 a m e) : m = 0 ↔ a % 2 ^ 31 = 0 := by
  rw [h.zero_iff, mag_eq_zero_iff]
  rfl

theorem fp32_isZero (h : fmtFP32.isFin a) : (fp32 a).isZero = decide (a % 2 ^ 31 = 0) := by
  obtain ⟨m, e, hv, heq⟩ := fp32_fin h
  rw [heq, Bool.eq_iff_iff, decide_eq_true_eq, ← hv.zero_iff32]
  simp [FVal.isZero]

/-- Equal magnitudes of equal sign are equal encodings. -/
theorem eq_of_sign_mod {x y : Nat} (hx : x < 2 ^ 32) (hy : y < 2 ^ 32) (hs : fmtFP32.sign x = fmtFP32.sign y) (hm : x % 2 ^ 31 = y % 2 ^ 31) :
    x = y := by
  rw [← withSign_split (f := fmtFP32) hx, ← withSign_split (f := fmtFP32) hy, hs, show x % 2 ^ (fmtFP32.eb + fmtFP32.fb) = x % 2 ^ 31 from rfl, hm]
  rfl

end

theorem negIf_fin (n s : Bool) (m : Nat) (e : Int) : (if n then (FVal.fin s m e).neg else .fin s m e) = .fin (s != n) m e := by
  cases n <;> simp [FVal.neg]

theorem negIf_inf (n s : Bool) : (if n then (FVal.inf s).neg else .inf s) = .inf (s != n) := by
  cases n <;> simp [FVal.neg]

theorem negIf_nan (n s : Bool) : (if n then (FVal.nan s).neg else .nan s) = .nan s := by
  cases n <;> rfl

/-! ### NaN operands -/

section
variable {x y : FVal}

theorem fsum_nan (mode : Nat) (h : x.isNan = true ∨ y.isNan = true) :
    fsum mode x y = (.nan false, flagIf (x.isSnan || y.isSnan) flagNV) := by
  cases x <;> cases y <;> simp_all [fsum, FVal.isNan, FVal.isSnan]

theorem fprod_nan (h : x.isNan = true ∨ y.isNan = true) : fprod x y = (.nan false, flagIf (x.isSnan || y.isSnan) flagNV) := by
  cases x <;> cases y <;> simp_all [fprod, FVal.isNan, FVal.isSnan]

theorem fquot_nan (h : x.isNan = true ∨ y.isNan = true) : fquot x y = (.nan false, flagIf (x.isSnan || y.isSnan) flagNV) := by
  cases x <;> cases y <;> simp_all [fquot, FVal.isNan, FVal.isSnan]

/-- The product of two values that are no NaN, an infinity times a zero apart, raises nothing and is no NaN. -/
theorem fprod_valid (hx : x.isNan = false) (hy : y.isNan = false)
    (h : ¬(((∃ n, x = .inf n) ∧ y.isZero = true) ∨ (x.isZero = true ∧ ∃ n, y = .inf n))) :
    (fprod x y).1.isNan = false ∧ (fprod x y).1.isSnan = false ∧ (fprod x y).2 = 0 := by
  cases x <;> cases y <;> simp_all [fprod, FVal.isNan, FVal.isSnan, FVal.isZero]

end

/-! ### Sums of finite values -/

theorem fsum_fin (mode : Nat) (na nb : Bool) (ma mb : Nat) (ea eb : Int) : fsum mode (.fin na ma ea) (.fin nb mb eb)
    = if ma = 0 && mb = 0 then (.fin (if na = nb then na else mode = 2) 0 0, 0)
      else (ofScaled mode (scaled na ma ea (min ea eb) + scaled nb mb eb (min ea eb)) (min ea eb), 0) := rfl

theorem scaled_add (na nb : Bool) (ma mb : Nat) (ea eb : Int) :
    ((scaled na ma ea (min ea eb) + scaled nb mb eb (min ea eb) : Int) : ℝ) * 2 ^ min ea eb = realVal na ma ea + realVal nb mb eb := by
  push_cast
  rw [add_mul, scaled_realVal _ _ (min_le_left _ _), scaled_realVal _ _ (min_le_right _ _)]

/-- A non-zero integer of units, rounded once, whatever parts it is counted in. -/
theorem fencode_realVal {f : FFmt} {mode m : Nat} {neg : Bool} {v e lo : Int} (hf : f.Wide) (hmode : mode ≤ 4) (hv : v ≠ 0)
    (h : (v : ℝ) * 2 ^ e = realVal neg m lo) : RoundsInt f mode v e (fencode f mode (.fin neg m lo)) := by
  have he := two_zpow_pos e
  have hm : m ≠ 0 := by
    rintro rfl
    rw [realVal_eq_zero.mpr rfl] at h
    simp [hv, he.ne'] at h
  have hsign : decide (v < 0) = neg := by
    have : realVal neg m lo < 0 ↔ v < 0 := by
      rw [← h, ← not_le, mul_nonneg_iff_of_pos_right he, not_le, Int.cast_lt_zero]
    rw [Bool.eq_iff_iff, decide_eq_true_eq, ← this, realVal_neg_iff, and_iff_left hm]
  have habs : ((v.natAbs : Nat) : ℝ) * 2 ^ e = m * 2 ^ lo := by
    rw [← abs_realVal neg m lo, ← h, abs_mul, abs_of_pos he, ← Int.cast_abs, Int.abs_eq_natAbs]
    rfl
  rw [RoundsInt, hsign]
  exact fencode_rounds_exact hf hmode hm habs

/-- An integer as a sign and a magnitude. -/
theorem realVal_natAbs (V lo : Int) : realVal (decide (V < 0)) V.natAbs lo = V * 2 ^ lo := by
  rw [realVal]
  congr 1
  by_cases h : V < 0
  · rw [decide_eq_true h, if_pos rfl, ← Int.cast_natCast, ← Int.cast_neg]
    congr 1
    omega
  · rw [decide_eq_false h, if_neg (by simp), ← Int.cast_natCast]
    congr 1
    omega

theorem fencode_ofScaled {f : FFmt} {mode : Nat} {v V e lo : Int} (hf : f.Wide) (hmode : mode ≤ 4) (hv : v ≠ 0)
    (h : (v : ℝ) * 2 ^ e = V * 2 ^ lo) : RoundsInt f mode v e (fencode f mode (ofScaled mode V lo)) := by
  have hV : V ≠ 0 := by
    rintro rfl
    simp [hv, (two_zpow_pos e).ne'] at h
  rw [ofScaled, if_neg hV]
  exact fencode_realVal hf hmode hv (h.trans (realVal_natAbs V lo).symm)

section
variable {mode : Nat} {na nb : Bool} {ma mb : Nat} {ea eb : Int}

theorem fsum_rounds {v e : Int} (hmode : mode ≤ 4) (hv : v ≠ 0) (h : (v : ℝ) * 2 ^ e = realVal na ma ea + realVal nb mb eb) :
    RoundsInt fmtFP32 mode v e (finish32 mode (fsum mode (.fin na ma ea) (.fin nb mb eb))) := by
  have hne : ¬(ma = 0 ∧ mb = 0) := by
    rintro ⟨rfl, rfl⟩
    simp [realVal, hv, (two_zpow_pos e).ne'] at h
  rw [fsum_fin, if_neg (by simpa using hne), finish32_zero]
  exact fencode_ofScaled wide_fp32 hmode hv (h.trans (scaled_add ..).symm)

/-- An exact zero takes the sign of its terms, where both are zero and of one sign; else that of the mode (R129). -/
theorem fsum_zero (h : realVal na ma ea + realVal nb mb eb = 0) : finish32 mode (fsum mode (.fin na ma ea) (.fin nb mb eb))
    = (fmtFP32.withSign (if ma = 0 ∧ na = nb then na else mode == 2) 0, 0) := by
  have hsum := (scaled_add na nb ma mb ea eb).trans h
  rw [mul_eq_zero, Int.cast_eq_zero, or_iff_left (two_zpow_pos _).ne'] at hsum
  have hz : ma = 0 ↔ mb = 0 := by
    rw [← realVal_eq_zero (neg := na) (e := ea), ← realVal_eq_zero (neg := nb) (e := eb)]
    constructor <;> intro h' <;> linarith
  rw [fsum_fin, hsum]
  by_cases hm : ma = 0
  · rw [if_pos (by simp [hm, hz.mp hm]), finish32_zero, fencode_zero]
    by_cases hn : na = nb
    · simp [hm, hn]
    · simp [hm, hn]; rfl
  · rw [if_neg (by simp [hm]), finish32_zero, ofScaled, if_pos rfl, fencode_zero, if_neg (fun h => hm h.1)]
    rfl

end

/-! ### Products -/

theorem realVal_mul (na nb : Bool) (ma mb : Nat) (ea eb : Int) :
    realVal (na != nb) (ma * mb) (ea + eb) = realVal na ma ea * realVal nb mb eb := by
  unfold realVal
  rw [two_zpow_add]
  cases na <;> cases nb <;> simp <;> ring

/-! ### Quotients and roots: a whole part and a sticky bit -/

/-- Twice the whole part of z, with a bit for its rest. -/
theorem approx_sticky {p q : Nat} {z : ℝ} (e : Int) (exact : Prop) [Decidable exact] (h1 : exact → z = q) (h2 : ¬exact → q < z ∧ z < q + 1)
    (hp : 2 ^ p ≤ 2 * q + 1) : Approx p (2 * q + if exact then 0 else 1) e (2 * z * 2 ^ e) := by
  have he := two_zpow_pos e
  by_cases h : exact
  · left
    simp [h, h1 h]
  · obtain ⟨hlo, hhi⟩ := h2 h
    rw [if_neg h]
    refine .inr ⟨by omega, hp, ?_, ?_⟩
    · push_cast
      gcongr
      linarith
    · push_cast
      gcongr
      linarith

section
variable {a b ma mb : Nat} {ea eb : Int} {mode : Nat} (ha : FinVal fmtFP32 a ma ea)
include ha

theorem fquot_rounds (hb : FinVal fmtFP32 b mb eb) (hmode : mode ≤ 4) (na nb : Bool) (hma : ma ≠ 0) (hmb : mb ≠ 0) :
    RoundsRatio fmtFP32 mode (na != nb) (fmtFP32.mag a) (fmtFP32.mag b) 0 (finish32 mode (fquot (.fin na ma ea) (.fin nb mb eb))) := by
  have hq : fquot (.fin na ma ea) (.fin nb mb eb) = (.fin (na != nb) (2 * (ma * 2 ^ 64 / mb) + if ma * 2 ^ 64 % mb = 0 then 0 else 1)
      (ea - eb - 65), 0) := by simp [fquot, hma, hmb]
  have hmb' : (0 : ℝ) < mb := by exact_mod_cast Nat.pos_of_ne_zero hmb
  have hdm : ma * 2 ^ 64 / mb * mb + ma * 2 ^ 64 % mb = ma * 2 ^ 64 := Nat.div_add_mod' _ _
  have hr : ma * 2 ^ 64 % mb < mb := Nat.mod_lt _ (Nat.pos_of_ne_zero hmb)
  have hbig : 2 ^ 40 ≤ ma * 2 ^ 64 / mb := by
    rw [Nat.le_div_iff_mul_le (Nat.pos_of_ne_zero hmb)]
    have : mb < 2 ^ 24 := hb.lt
    have : 1 ≤ ma := Nat.pos_of_ne_zero hma
    omega
  have hval : (fmtFP32.mag a : ℝ) / fmtFP32.mag b * 2 ^ (0 : Int) = 2 * ((ma : ℝ) * 2 ^ 64 / mb) * 2 ^ (ea - eb - 65) := by
    have hu := (two_zpow_pos fmtFP32.unit).ne'
    rw [zpow_zero, mul_one, ← mul_div_mul_right _ _ hu, ← ha.value, ← hb.value, zpow_sub₀ (by norm_num), zpow_sub₀ (by norm_num)]
    have := (two_zpow_pos eb).ne'
    norm_num
    field_simp
    norm_num
  generalize hn : ma * 2 ^ 64 / mb = q at *
  generalize ma * 2 ^ 64 % mb = r at *
  have hdm' : (q : ℝ) * mb + r = ma * 2 ^ 64 := by exact_mod_cast hdm
  rw [hq, finish32_zero]
  have happ : Approx 25 (2 * q + if r = 0 then 0 else 1) (ea - eb - 65) (2 * ((ma : ℝ) * 2 ^ 64 / mb) * 2 ^ (ea - eb - 65)) := by
    refine approx_sticky (ea - eb - 65) (r = 0) ?_ ?_ (by omega)
    · intro h0
      rw [← hdm', h0]
      simp [hmb'.ne']
    · intro h0
      have h1 : (0 : ℝ) < r := by exact_mod_cast Nat.pos_of_ne_zero h0
      have h2 : (r : ℝ) < mb := by exact_mod_cast hr
      rw [← hdm', lt_div_iff₀ hmb', div_lt_iff₀ hmb']
      exact ⟨by linarith, by linarith⟩
  refine fencode_rounds wide_fp32 hmode (by omega) (fun h => hmb (hb.zero_iff.mpr h)) ?_
  rw [hval]
  exact happ

end

/-- The bits of a root from 2^k down leave the greatest whole number whose square is no greater (06 R129). -/
theorem isqrt_spec {n : Nat} : ∀ k r, r * r ≤ n → n < (r + 2 ^ (k + 1)) * (r + 2 ^ (k + 1)) →
    isqrt n k r * isqrt n k r ≤ n ∧ n < (isqrt n k r + 1) * (isqrt n k r + 1)
  | 0, r, hlo, hhi => by
    unfold isqrt
    split
    · exact ⟨‹_›, hhi⟩
    · exact ⟨hlo, Nat.lt_of_not_le ‹_›⟩
  | k + 1, r, hlo, hhi => by
    unfold isqrt
    split
    · refine isqrt_spec k _ ‹_› ?_
      rwa [Nat.add_assoc, ← Nat.mul_two, ← pow_succ]
    · exact isqrt_spec k r hlo (Nat.lt_of_not_le ‹_›)

/-- A root rounded once is what the statements say of its square. -/
theorem roundsTo_sqrt {f : FFmt} {mode : Nat} {neg : Bool} {x : ℝ} {n : Nat} {r : Nat × FFlags} (hx : 0 ≤ x) (hn : 16 * (x * x) = n)
    (h : RoundsUnits f mode neg x r) : RoundsTo f mode neg (fun h => h * h ≤ n) (fun h => n ≤ h * h) r := by
  have key (h : Nat) : ((h : ℝ) ≤ 4 * x ↔ h * h ≤ n) ∧ (4 * x ≤ h ↔ n ≤ h * h) := by
    have hh : (0 : ℝ) ≤ h := Nat.cast_nonneg h
    rw [← Nat.cast_le (α := ℝ), ← Nat.cast_le (α := ℝ), ← hn]
    push_cast
    rw [show 16 * (x * x) = (4 * x) * (4 * x) by ring]
    exact ⟨(mul_self_le_mul_self_iff hh (by linarith)), (mul_self_le_mul_self_iff (by linarith) hh)⟩
  unfold RoundsUnits at h
  simpa only [fun h => (key h).1, fun h => (key h).2] using h

/-- A number with an even exponent: half of it is the exponent of the root. -/
theorem fsqrt_even (m : Nat) (e : Int) : ∃ m' e', (if e % 2 != 0 then 2 * m else m) = m' ∧ (if e % 2 != 0 then e - 1 else e) = 2 * e'
    ∧ (m : ℝ) * 2 ^ e = m' * (2 ^ e' * 2 ^ e') ∧ m' ≤ 2 * m ∧ m ≤ m' := by
  by_cases h : e % 2 = 0
  · refine ⟨m, e / 2, by simp [h], by simp [h]; omega, ?_, by omega, le_rfl⟩
    rw [← two_zpow_add]
    congr 2
    omega
  · refine ⟨2 * m, (e - 1) / 2, by simp [h], by simp [h]; omega, ?_, le_rfl, by omega⟩
    rw [← two_zpow_add, show e = (e - 1) / 2 + (e - 1) / 2 + 1 by omega, two_zpow_add _ 1]
    push_cast
    rw [show ((e - 1) / 2 + (e - 1) / 2 + 1 - 1 : Int) / 2 = (e - 1) / 2 by omega]
    ring

theorem fsqrt_rounds {a m : Nat} {e : Int} {mode : Nat} (ha : FinVal fmtFP32 a m e) (hmode : mode ≤ 4) (hm : m ≠ 0) :
    RoundsTo fmtFP32 mode false (fun h => h * h ≤ fmtFP32.mag a * 2 ^ 153) (fun h => fmtFP32.mag a * 2 ^ 153 ≤ h * h)
      (finish32 mode (fsqrt (.fin false m e))) := by
  obtain ⟨m', e', hm', he', hval, hle, hge⟩ := fsqrt_even m e
  obtain ⟨n, hn⟩ : ∃ n, m' * 2 ^ 64 = n := ⟨_, rfl⟩
  have hq : fsqrt (.fin false m e) = (.fin false (2 * isqrt n 45 0 + if isqrt n 45 0 * isqrt n 45 0 = n then 0 else 1) (e' - 33), 0) := by
    simp only [fsqrt, if_neg hm, hm', he', hn, Bool.false_eq_true, if_false]
    rw [Int.mul_ediv_cancel_left _ (by decide)]
  have hlt : m < 2 ^ 24 := ha.lt
  obtain ⟨hlo, hhi⟩ := isqrt_spec (n := n) 45 0 (Nat.zero_le _) (by omega)
  rw [hq, finish32_zero]
  generalize isqrt n 45 0 = q at *
  have hbig : 2 ^ 25 ≤ 2 * q + 1 := by
    by_contra hlt
    have : (q + 1) * (q + 1) ≤ 2 ^ 25 * 2 ^ 25 := Nat.mul_le_mul (by omega) (by omega)
    omega
  have happ : Approx 25 (2 * q + if q * q = n then 0 else 1) (e' - 33) (2 * √(n : ℝ) * 2 ^ (e' - 33)) := by
    refine approx_sticky _ _ ?_ ?_ hbig
    · rintro rfl
      rw [Nat.cast_mul, Real.sqrt_mul_self (Nat.cast_nonneg q)]
    · intro hne
      rw [Real.lt_sqrt (Nat.cast_nonneg q), Real.sqrt_lt' (by positivity)]
      exact ⟨by exact_mod_cast (by rw [pow_two]; omega : q ^ 2 < n), by exact_mod_cast (by rw [pow_two]; omega : n < (q + 1) ^ 2)⟩
  have hr := roundMag_rounds (neg := false) wide_fp32 hmode (by split <;> omega) happ
  rw [fencode_fin _ _ _ _ (by split <;> omega)]
  have hs : √(n : ℝ) * √(n : ℝ) = m' * 2 ^ 64 := by
    rw [Real.mul_self_sqrt (Nat.cast_nonneg n)]
    exact_mod_cast hn.symm
  have hx : 2 * √(n : ℝ) * 2 ^ (e' - 33) / 2 ^ fmtFP32.unit = 2 * √(n : ℝ) * (2 ^ e' * 2 ^ 116) := by
    rw [div_eq_iff (two_zpow_pos _).ne', mul_assoc (2 * √(n : ℝ)), ← two_zpow_natAdd, ← two_zpow_add]
    congr 2
    show e' - 33 = e' + 116 + -149
    ring
  have hmag : (fmtFP32.mag a : ℝ) = m' * (2 ^ e' * 2 ^ e') * 2 ^ 149 := by
    rw [← hval, ha.value, mul_assoc, ← two_zpow_natAdd]
    simp [show fmtFP32.unit = -149 from rfl]
  refine roundsTo_sqrt (by positivity) ?_ hr
  rw [hx, Nat.cast_mul, Nat.cast_pow, Nat.cast_ofNat, hmag]
  calc 16 * (2 * √(n : ℝ) * (2 ^ e' * 2 ^ 116) * (2 * √(n : ℝ) * (2 ^ e' * 2 ^ 116)))
      = 64 * (√(n : ℝ) * √(n : ℝ)) * ((2 : ℝ) ^ e' * 2 ^ e') * 2 ^ 232 := by ring
    _ = (m' : ℝ) * (2 ^ e' * 2 ^ e') * 2 ^ 149 * 2 ^ 153 := by rw [hs]; ring

end Sys2Proof.Machine
end

section
/-! SUPPORT. The FP32 operations on encodings (06 R129, R130), by what their operands are. -/
namespace Sys2Proof.Machine

/-- A NaN result: the canonical one, with NV where an operand is signalling (04 R79). -/
theorem quiet_of {bad : Prop} {s : Bool} {r : Nat × FFlags} (hs : s = true ↔ bad) (hr : r = (fmtFP32.nanBits, flagIf s flagNV)) :
    (bad → r = (0x7FC00000, flagNV)) ∧ (¬bad → r = (0x7FC00000, 0)) := by
  refine ⟨fun h => ?_, fun h => ?_⟩
  · rw [hr, hs.mpr h]
    rfl
  · rw [hr, Bool.eq_false_iff.mpr fun h' => h (hs.mp h')]
    rfl

theorem snan_or {a b : Nat} : ((fp32 a).isSnan || (fp32 b).isSnan) = true ↔ fmtFP32.isSnan a ∨ fmtFP32.isSnan b := by
  rw [Bool.or_eq_true, fp32_isSnan, fp32_isSnan]

theorem snan_or3 {a b c : Nat} : ((fp32 a).isSnan || (fp32 b).isSnan || (fp32 c).isSnan) = true
    ↔ fmtFP32.isSnan a ∨ fmtFP32.isSnan b ∨ fmtFP32.isSnan c := by
  rw [Bool.or_eq_true, snan_or, fp32_isSnan, or_assoc]

section
variable {a b : Nat} (mode : Nat)

/-! ### NaN operands -/

theorem fadd32_nan (h : fmtFP32.isNan a ∨ fmtFP32.isNan b) :
    fadd32 mode a b = (fmtFP32.nanBits, flagIf ((fp32 a).isSnan || (fp32 b).isSnan) flagNV) := by
  rw [fadd32, fsum_nan mode (h.imp fp32_isNan.mpr fp32_isNan.mpr), finish32_nan]

theorem fmul32_nan (h : fmtFP32.isNan a ∨ fmtFP32.isNan b) :
    fmul32 mode a b = (fmtFP32.nanBits, flagIf ((fp32 a).isSnan || (fp32 b).isSnan) flagNV) := by
  rw [fmul32, fprod_nan (h.imp fp32_isNan.mpr fp32_isNan.mpr), finish32_nan]

theorem fdiv32_nan (h : fmtFP32.isNan a ∨ fmtFP32.isNan b) :
    fdiv32 mode a b = (fmtFP32.nanBits, flagIf ((fp32 a).isSnan || (fp32 b).isSnan) flagNV) := by
  rw [fdiv32, fquot_nan (h.imp fp32_isNan.mpr fp32_isNan.mpr), finish32_nan]

/-! ### Infinite operands -/

theorem fadd32_inf_fin (ha : fmtFP32.isInf a) (hb : fmtFP32.isFin b) :
    fadd32 mode a b = (fmtFP32.withSign (fmtFP32.sign a) fmtFP32.infBits, 0) := by
  obtain ⟨m, e, -, hb⟩ := fp32_fin hb
  rw [fadd32, fp32_inf ha, hb, fsum, finish32_inf] <;> simp

theorem fadd32_fin_inf (ha : fmtFP32.isFin a) (hb : fmtFP32.isInf b) :
    fadd32 mode a b = (fmtFP32.withSign (fmtFP32.sign b) fmtFP32.infBits, 0) := by
  obtain ⟨m, e, -, ha⟩ := fp32_fin ha
  rw [fadd32, fp32_inf hb, ha, fsum, finish32_inf] <;> simp

theorem fadd32_inf_inf (ha : fmtFP32.isInf a) (hb : fmtFP32.isInf b) (hal : a < 2 ^ 32) (hbl : b < 2 ^ 32) : fadd32 mode a b
    = if a = b then (fmtFP32.withSign (fmtFP32.sign a) fmtFP32.infBits, 0) else (fmtFP32.nanBits, flagNV) := by
  have hsign : fmtFP32.sign a = fmtFP32.sign b ↔ a = b := ⟨fun h => eq_of_sign_mod hal hbl h (ha.trans hb.symm), congrArg _⟩
  rw [fadd32, fp32_inf ha, fp32_inf hb, fsum]
  simp only [hsign]
  split
  · exact finish32_inf mode _ 0
  · exact finish32_nan mode flagNV

theorem fmul32_inf_fin (ha : fmtFP32.isInf a) (hb : fmtFP32.isFin b) : fmul32 mode a b
    = if b % 2 ^ 31 = 0 then (fmtFP32.nanBits, flagNV) else (fmtFP32.withSign (fmtFP32.sign a != fmtFP32.sign b) fmtFP32.infBits, 0) := by
  have hz := fp32_isZero hb
  obtain ⟨m, e, -, hb⟩ := fp32_fin hb
  rw [hb] at hz
  rw [fmul32, fp32_inf ha, hb, fprod, hz]
  · simp only [decide_eq_true_eq]
    split
    · exact finish32_nan mode flagNV
    · exact finish32_inf mode _ 0
  · simp

theorem fmul32_fin_inf (ha : fmtFP32.isFin a) (hb : fmtFP32.isInf b) : fmul32 mode a b
    = if a % 2 ^ 31 = 0 then (fmtFP32.nanBits, flagNV) else (fmtFP32.withSign (fmtFP32.sign a != fmtFP32.sign b) fmtFP32.infBits, 0) := by
  have hz := fp32_isZero ha
  obtain ⟨m, e, -, ha⟩ := fp32_fin ha
  rw [ha] at hz
  rw [fmul32, fp32_inf hb, ha, fprod, hz]
  · simp only [decide_eq_true_eq]
    split
    · exact finish32_nan mode flagNV
    · exact finish32_inf mode _ 0
  · simp
  · simp

theorem fmul32_inf_inf (ha : fmtFP32.isInf a) (hb : fmtFP32.isInf b) :
    fmul32 mode a b = (fmtFP32.withSign (fmtFP32.sign a != fmtFP32.sign b) fmtFP32.infBits, 0) := by
  rw [fmul32, fp32_inf ha, fp32_inf hb]
  exact finish32_inf mode _ 0

theorem fdiv32_inf_fin (ha : fmtFP32.isInf a) (hb : fmtFP32.isFin b) :
    fdiv32 mode a b = (fmtFP32.withSign (fmtFP32.sign a != fmtFP32.sign b) fmtFP32.infBits, 0) := by
  obtain ⟨m, e, -, hb⟩ := fp32_fin hb
  rw [fdiv32, fp32_inf ha, hb]
  exact finish32_inf mode _ 0

theorem fdiv32_fin_inf (ha : fmtFP32.isFin a) (hb : fmtFP32.isInf b) :
    fdiv32 mode a b = (fmtFP32.withSign (fmtFP32.sign a != fmtFP32.sign b) 0, 0) := by
  obtain ⟨m, e, -, ha⟩ := fp32_fin ha
  rw [fdiv32, fp32_inf hb, ha]
  exact (finish32_zero mode _).trans (fencode_zero _ _ _ _)

theorem fdiv32_inf_inf (ha : fmtFP32.isInf a) (hb : fmtFP32.isInf b) : fdiv32 mode a b = (fmtFP32.nanBits, flagNV) := by
  rw [fdiv32, fp32_inf ha, fp32_inf hb]
  exact finish32_nan mode flagNV

/-! ### Finite operands -/

theorem realVal_units {m : Nat} {e : Int} (h : FinVal fmtFP32 a m e) : realVal (fmtFP32.sign a) m e = fmtFP32.units a * 2 ^ (-149 : Int) := h.units

theorem fadd32_fin {mode : Nat} (hmode : mode ≤ 4) (ha : fmtFP32.isFin a) (hb : fmtFP32.isFin b) (hal : a < 2 ^ 32) (hbl : b < 2 ^ 32) :
    (fmtFP32.units a + fmtFP32.units b ≠ 0 → RoundsInt fmtFP32 mode (fmtFP32.units a + fmtFP32.units b) (-149) (fadd32 mode a b))
    ∧ (fmtFP32.units a + fmtFP32.units b = 0 →
      fadd32 mode a b = (fmtFP32.withSign (if a % 2 ^ 31 = 0 ∧ a = b then fmtFP32.sign a else mode == 2) 0, 0)) := by
  obtain ⟨ma, ea, hva, hfa⟩ := fp32_fin ha
  obtain ⟨mb, eb, hvb, hfb⟩ := fp32_fin hb
  have hsum : ((fmtFP32.units a + fmtFP32.units b : Int) : ℝ) * 2 ^ (-149 : Int)
      = realVal (fmtFP32.sign a) ma ea + realVal (fmtFP32.sign b) mb eb := by
    rw [realVal_units hva, realVal_units hvb]
    push_cast
    ring
  rw [fadd32, hfa, hfb]
  refine ⟨fun h => fsum_rounds hmode h hsum, fun h => ?_⟩
  rw [h, Int.cast_zero, zero_mul] at hsum
  have hz : ma = 0 → mb = 0 := fun h0 => by
    rw [realVal_eq_zero.mpr h0, zero_add] at hsum
    exact realVal_eq_zero.mp hsum.symm
  rw [fsum_zero hsum.symm]
  congr 3
  rw [hva.zero_iff32] at hz ⊢
  rw [hvb.zero_iff32] at hz
  exact propext (and_congr_right fun h0 => ⟨fun hs => eq_of_sign_mod hal hbl hs (h0.trans (hz h0).symm), congrArg _⟩)

theorem fmul32_fin {mode : Nat} (hmode : mode ≤ 4) (ha : fmtFP32.isFin a) (hb : fmtFP32.isFin b) :
    (fmtFP32.units a * fmtFP32.units b ≠ 0 → RoundsInt fmtFP32 mode (fmtFP32.units a * fmtFP32.units b) (-298) (fmul32 mode a b))
    ∧ (fmtFP32.units a * fmtFP32.units b = 0 → fmul32 mode a b = (fmtFP32.withSign (fmtFP32.sign a != fmtFP32.sign b) 0, 0)) := by
  obtain ⟨ma, ea, hva, hfa⟩ := fp32_fin ha
  obtain ⟨mb, eb, hvb, hfb⟩ := fp32_fin hb
  have hprod : ((fmtFP32.units a * fmtFP32.units b : Int) : ℝ) * 2 ^ (-298 : Int)
      = realVal (fmtFP32.sign a != fmtFP32.sign b) (ma * mb) (ea + eb) := by
    rw [realVal_mul, realVal_units hva, realVal_units hvb, show (-298 : Int) = -149 + -149 by rfl, two_zpow_add]
    push_cast
    ring
  rw [fmul32, hfa, hfb, fprod, finish32_zero]
  refine ⟨fun h => fencode_realVal wide_fp32 hmode h hprod, fun h => ?_⟩
  rw [h, Int.cast_zero, zero_mul] at hprod
  rw [realVal_eq_zero.mp hprod.symm, fencode_zero]

theorem fdiv32_fin {mode : Nat} (hmode : mode ≤ 4) (ha : fmtFP32.isFin a) (hb : fmtFP32.isFin b) :
    (a % 2 ^ 31 ≠ 0 → b % 2 ^ 31 ≠ 0 →
      RoundsRatio fmtFP32 mode (fmtFP32.sign a != fmtFP32.sign b) (fmtFP32.mag a) (fmtFP32.mag b) 0 (fdiv32 mode a b))
    ∧ (a % 2 ^ 31 = 0 → b % 2 ^ 31 ≠ 0 → fdiv32 mode a b = (fmtFP32.withSign (fmtFP32.sign a != fmtFP32.sign b) 0, 0))
    ∧ (a % 2 ^ 31 ≠ 0 → b % 2 ^ 31 = 0 → fdiv32 mode a b = (fmtFP32.withSign (fmtFP32.sign a != fmtFP32.sign b) fmtFP32.infBits, flagDZ))
    ∧ (a % 2 ^ 31 = 0 → b % 2 ^ 31 = 0 → fdiv32 mode a b = (fmtFP32.nanBits, flagNV)) := by
  obtain ⟨ma, ea, hva, hfa⟩ := fp32_fin ha
  obtain ⟨mb, eb, hvb, hfb⟩ := fp32_fin hb
  rw [fdiv32, hfa, hfb, ne_eq, ne_eq, ← hva.zero_iff32, ← hvb.zero_iff32]
  refine ⟨fquot_rounds hva hvb hmode _ _, ?_, ?_, ?_⟩
  · intro h1 h2
    simp only [fquot, if_neg h2, if_pos h1]
    exact (finish32_zero mode _).trans (fencode_zero _ _ _ _)
  · intro h1 h2
    simp only [fquot, if_neg h1, if_pos h2]
    exact finish32_inf mode _ flagDZ
  · intro h1 h2
    simp only [fquot, if_pos h1, if_pos h2]
    exact finish32_nan mode flagNV

/-! ### Subtraction -/

theorem sign_xor (b : Nat) : fmtFP32.sign (b ^^^ 2 ^ 31) = !fmtFP32.sign b := by
  have h (c : Nat) : fmtFP32.sign c = c.testBit 31 := by
    rw [Nat.testBit_eq_decide_div_mod_eq]
    rfl
  rw [h, h, Nat.testBit_xor, Nat.testBit_two_pow_self, Bool.xor_true]

theorem fsub32_eq (a b mode : Nat) : fsub32 mode a b = fadd32 mode a (b ^^^ 2 ^ 31) := by
  have hmod : (b ^^^ 2 ^ 31) % 2 ^ 31 = b % 2 ^ 31 := by
    rw [Nat.xor_mod_two_pow]
    simp
  rw [fsub32, fadd32, fp32, fp32, fp32, fdecode_neg (f := fmtFP32) hmod (sign_xor b)]

end

/-! ### Roots -/

section
variable {a : Nat} (mode : Nat)

theorem fsqrt32_nan (h : fmtFP32.isNan a) : fsqrt32 mode a = (fmtFP32.nanBits, flagIf (fp32 a).isSnan flagNV) := by
  have hn := fp32_isNan.mpr h
  cases hv : fp32 a with
  | nan s => rw [fsqrt32, hv]; exact finish32_nan mode _
  | inf n => simp [hv, FVal.isNan] at hn
  | fin n m e => simp [hv, FVal.isNan] at hn

theorem fsqrt32_zero (h : a % 2 ^ 31 = 0) : fsqrt32 mode a = (fmtFP32.withSign (fmtFP32.sign a) 0, 0) := by
  have hfin : fmtFP32.isFin a := lt_of_eq_of_lt h (by decide)
  obtain ⟨m, e, hv, hf⟩ := fp32_fin hfin
  rw [fsqrt32, hf, hv.zero_iff32.mpr h]
  exact (finish32_zero mode _).trans (fencode_zero _ _ _ _)

theorem fsqrt32_inf : fsqrt32 mode 0x7F800000 = (fmtFP32.withSign false fmtFP32.infBits, 0) := by
  have h : fp32 0x7F800000 = .inf false := by decide
  rw [fsqrt32, h]
  exact finish32_inf mode false 0

/-- A number below zero has no root. -/
theorem fsqrt32_neg (hz : a % 2 ^ 31 ≠ 0) (hn : ¬fmtFP32.isNan a) (hs : fmtFP32.sign a = true) :
    fsqrt32 mode a = (fmtFP32.nanBits, flagNV) := by
  rcases fmtFP32.class a with h | h | h
  · obtain ⟨m, e, hv, hf⟩ := fp32_fin h
    rw [fsqrt32, hf, fsqrt, if_neg (fun h0 => hz (hv.zero_iff32.mp h0)), hs]
    exact finish32_nan mode flagNV
  · rw [fsqrt32, fp32_inf h, hs]
    exact finish32_nan mode flagNV
  · exact absurd h hn

theorem fsqrt32_fin {mode : Nat} (hmode : mode ≤ 4) (hz : a % 2 ^ 31 ≠ 0) (hf : fmtFP32.isFin a) (hs : fmtFP32.sign a = false) :
    RoundsTo fmtFP32 mode false (fun h => h * h ≤ fmtFP32.mag a * 2 ^ 153) (fun h => fmtFP32.mag a * 2 ^ 153 ≤ h * h) (fsqrt32 mode a) := by
  obtain ⟨m, e, hv, hf⟩ := fp32_fin hf
  rw [fsqrt32, hf, hs]
  exact fsqrt_rounds hv hmode fun h0 => hz (hv.zero_iff32.mp h0)

end

/-! ### Fused products and sums -/

section
variable {a b c : Nat} (mode : Nat) (negP negC : Bool)

/-- An infinity times a zero. -/
def InvalidProduct (a b : Nat) : Prop := (fmtFP32.isInf a ∧ b % 2 ^ 31 = 0) ∨ (a % 2 ^ 31 = 0 ∧ fmtFP32.isInf b)

theorem isFin_of_zero (h : a % 2 ^ 31 = 0) : fmtFP32.isFin a := lt_of_eq_of_lt h (by decide)

theorem fprod_invalid (h : InvalidProduct a b) : fprod (fp32 a) (fp32 b) = (.nan false, flagNV) := by
  rcases h with ⟨ha, hb⟩ | ⟨ha, hb⟩
  · have hf := isFin_of_zero hb
    have hz := fp32_isZero hf
    obtain ⟨m, e, -, hf⟩ := fp32_fin hf
    rw [hf] at hz
    rw [fp32_inf ha, hf, fprod, if_pos (hz.trans (decide_eq_true hb))]
    simp
  · have hf := isFin_of_zero ha
    have hz := fp32_isZero hf
    obtain ⟨m, e, -, hf⟩ := fp32_fin hf
    rw [hf] at hz
    rw [fp32_inf hb, hf, fprod, if_pos (hz.trans (decide_eq_true ha))]
    · simp
    · simp

theorem fma32_invalid (h : InvalidProduct a b) : fma32 negP negC mode a b c = (fmtFP32.nanBits, flagNV) := by
  rw [fma32]
  simp only [fprod_invalid h, negIf_nan]
  rw [fsum_nan mode (.inl rfl), finish32_nan]
  generalize ((FVal.nan false).isSnan || _) = x
  cases x <;> rfl

theorem neg_isNan (n : Bool) (v : FVal) : (if n then v.neg else v).isNan = v.isNan := by cases n <;> cases v <;> rfl
theorem neg_isSnan (n : Bool) (v : FVal) : (if n then v.neg else v).isSnan = v.isSnan := by cases n <;> cases v <;> rfl

theorem isInf_of_fp32 {n : Bool} (h : fp32 a = .inf n) : fmtFP32.isInf a := by
  rcases fmtFP32.class a with hc | hc | hc
  · obtain ⟨m, e, -, hf⟩ := fp32_fin hc
    rw [hf] at h
    cases h
  · exact hc
  · have := fp32_isNan.mpr hc
    rw [h] at this
    cases this

theorem zero_of_fp32 (h : (fp32 a).isZero = true) : a % 2 ^ 31 = 0 := mag_eq_zero_iff.mp (isZero_fdecode.mp h).2

theorem fprod32_valid (hv : ¬InvalidProduct a b) (ha : ¬fmtFP32.isNan a) (hb : ¬fmtFP32.isNan b) :
    (fprod (fp32 a) (fp32 b)).1.isNan = false ∧ (fprod (fp32 a) (fp32 b)).1.isSnan = false ∧ (fprod (fp32 a) (fp32 b)).2 = 0 := by
  rw [← fp32_isNan, Bool.not_eq_true] at ha hb
  refine fprod_valid ha hb fun h => hv ?_
  exact h.imp (fun ⟨⟨_, hi⟩, hz⟩ => ⟨isInf_of_fp32 hi, zero_of_fp32 hz⟩) (fun ⟨hz, _, hi⟩ => ⟨zero_of_fp32 hz, isInf_of_fp32 hi⟩)

theorem fma32_nan (hv : ¬InvalidProduct a b) (h : fmtFP32.isNan a ∨ fmtFP32.isNan b ∨ fmtFP32.isNan c) :
    fma32 negP negC mode a b c = (fmtFP32.nanBits, flagIf ((fp32 a).isSnan || (fp32 b).isSnan || (fp32 c).isSnan) flagNV) := by
  rw [fma32]
  by_cases hab : fmtFP32.isNan a ∨ fmtFP32.isNan b
  · simp only [fprod_nan (hab.imp fp32_isNan.mpr fp32_isNan.mpr), negIf_nan]
    rw [fsum_nan mode (.inl rfl), finish32_nan, neg_isSnan]
    cases (fp32 a).isSnan <;> cases (fp32 b).isSnan <;> cases (fp32 c).isSnan <;> rfl
  · have hc : fmtFP32.isNan c := by tauto
    rw [not_or] at hab
    obtain ⟨hp, hps, hpf⟩ := fprod32_valid hv hab.1 hab.2
    have hsa : (fp32 a).isSnan = false := Bool.eq_false_iff.mpr fun h => hab.1 (fp32_isSnan.mp h).1
    have hsb : (fp32 b).isSnan = false := Bool.eq_false_iff.mpr fun h => hab.2 (fp32_isSnan.mp h).1
    rw [hpf, fsum_nan mode (.inr (by rw [neg_isNan, fp32_isNan.mpr hc])), finish32_nan, neg_isSnan, neg_isSnan, hps, hsa, hsb]
    simp

/-- The product of an infinity with what is no zero and no NaN. -/
theorem fprod_wide (hw : fmtFP32.isInf a ∨ fmtFP32.isInf b) (hv : ¬InvalidProduct a b) (ha : ¬fmtFP32.isNan a) (hb : ¬fmtFP32.isNan b) :
    fprod (fp32 a) (fp32 b) = (.inf (fmtFP32.sign a != fmtFP32.sign b), 0) := by
  rcases hw with h | h
  · rcases fmtFP32.class b with hc | hc | hc
    · have hz := fp32_isZero hc
      obtain ⟨m, e, -, hf⟩ := fp32_fin hc
      rw [hf, decide_eq_false fun h0 => hv (.inl ⟨h, h0⟩)] at hz
      rw [fp32_inf h, hf, fprod, if_neg (by simp [hz])]
      · rfl
      · simp
    · rw [fp32_inf h, fp32_inf hc]
      rfl
    · exact absurd hc hb
  · rcases fmtFP32.class a with hc | hc | hc
    · have hz := fp32_isZero hc
      obtain ⟨m, e, -, hf⟩ := fp32_fin hc
      rw [hf, decide_eq_false fun h0 => hv (.inr ⟨h0, h⟩)] at hz
      rw [fp32_inf h, hf, fprod, if_neg (by simp [hz])]
      · rfl
      · simp
      · simp
    · rw [fp32_inf h, fp32_inf hc]
      rfl
    · exact absurd hc ha

theorem fma32_of_prod {p : FVal} (h : fprod (fp32 a) (fp32 b) = (p, 0)) : fma32 negP negC mode a b c
    = finish32 mode (fsum mode (if negP then p.neg else p) (if negC then (fp32 c).neg else fp32 c)) := by
  simp [fma32, h]

theorem fma32_wide_fin (hw : fmtFP32.isInf a ∨ fmtFP32.isInf b) (hv : ¬InvalidProduct a b) (ha : ¬fmtFP32.isNan a) (hb : ¬fmtFP32.isNan b)
    (hc : fmtFP32.isFin c) : fma32 negP negC mode a b c
      = (fmtFP32.withSign ((fmtFP32.sign a != fmtFP32.sign b) != negP) fmtFP32.infBits, 0) := by
  obtain ⟨m, e, -, hf⟩ := fp32_fin hc
  rw [fma32_of_prod mode negP negC (fprod_wide hw hv ha hb), hf, negIf_inf, negIf_fin]
  exact finish32_inf mode _ 0

theorem fma32_wide_inf (hw : fmtFP32.isInf a ∨ fmtFP32.isInf b) (hv : ¬InvalidProduct a b) (ha : ¬fmtFP32.isNan a) (hb : ¬fmtFP32.isNan b)
    (hc : fmtFP32.isInf c) : fma32 negP negC mode a b c
      = if ((fmtFP32.sign a != fmtFP32.sign b) != negP) = (fmtFP32.sign c != negC)
        then (fmtFP32.withSign ((fmtFP32.sign a != fmtFP32.sign b) != negP) fmtFP32.infBits, 0) else (fmtFP32.nanBits, flagNV) := by
  rw [fma32_of_prod mode negP negC (fprod_wide hw hv ha hb), fp32_inf hc, negIf_inf, negIf_inf, fsum]
  split
  · exact finish32_inf mode _ 0
  · exact finish32_nan mode flagNV

theorem fma32_fin_inf (ha : fmtFP32.isFin a) (hb : fmtFP32.isFin b) (hc : fmtFP32.isInf c) :
    fma32 negP negC mode a b c = (fmtFP32.withSign (fmtFP32.sign c != negC) fmtFP32.infBits, 0) := by
  obtain ⟨ma, ea, -, hfa⟩ := fp32_fin ha
  obtain ⟨mb, eb, -, hfb⟩ := fp32_fin hb
  rw [fma32_of_prod mode negP negC (by rw [hfa, hfb, fprod]), fp32_inf hc, negIf_fin, negIf_inf]
  exact finish32_inf mode _ 0

theorem realVal_not (n s : Bool) (m : Nat) (e : Int) : realVal (s != n) m e = if n then -realVal s m e else realVal s m e := by
  unfold realVal
  cases n <;> cases s <;> simp

theorem fma32_fin {mode : Nat} (hmode : mode ≤ 4) (ha : fmtFP32.isFin a) (hb : fmtFP32.isFin b) (hc : fmtFP32.isFin c) {p t : Int}
    (hp : p = if negP then -(fmtFP32.units a * fmtFP32.units b) else fmtFP32.units a * fmtFP32.units b)
    (ht : t = p + 2 ^ 149 * (if negC then -fmtFP32.units c else fmtFP32.units c)) :
    (t ≠ 0 → RoundsInt fmtFP32 mode t (-298) (fma32 negP negC mode a b c))
    ∧ (t = 0 → fma32 negP negC mode a b c = (fmtFP32.withSign
        (if p = 0 ∧ ((fmtFP32.sign a != fmtFP32.sign b) != negP) = (fmtFP32.sign c != negC) then (fmtFP32.sign a != fmtFP32.sign b) != negP
          else mode == 2) 0, 0)) := by
  obtain ⟨ma, ea, hva, hfa⟩ := fp32_fin ha
  obtain ⟨mb, eb, hvb, hfb⟩ := fp32_fin hb
  obtain ⟨mc, ec, hvc, hfc⟩ := fp32_fin hc
  have h298 : (2 : ℝ) ^ (-298 : Int) = 2 ^ (-149 : Int) * 2 ^ (-149 : Int) := by rw [← two_zpow_add]; rfl
  have hprod : (p : ℝ) * 2 ^ (-298 : Int) = realVal ((fmtFP32.sign a != fmtFP32.sign b) != negP) (ma * mb) (ea + eb) := by
    rw [realVal_not, realVal_mul, realVal_units hva, realVal_units hvb, hp, h298]
    cases negP <;> simp <;> ring
  have hterm : ((2 ^ 149 * (if negC then -fmtFP32.units c else fmtFP32.units c) : Int) : ℝ) * 2 ^ (-298 : Int)
      = realVal (fmtFP32.sign c != negC) mc ec := by
    have h149 : (2 : ℝ) ^ 149 * 2 ^ (-298 : Int) = 2 ^ (-149 : Int) := by
      rw [← zpow_natCast, ← two_zpow_add]
      rfl
    rw [realVal_not, realVal_units hvc, ← h149]
    cases negC
    · simp only [Bool.false_eq_true, if_false]
      push_cast
      ring
    · simp only [if_true]
      push_cast
      ring
  have hsum : (t : ℝ) * 2 ^ (-298 : Int) = realVal ((fmtFP32.sign a != fmtFP32.sign b) != negP) (ma * mb) (ea + eb)
      + realVal (fmtFP32.sign c != negC) mc ec := by
    rw [← hprod, ← hterm, ht]
    push_cast
    ring
  have hfma : fma32 negP negC mode a b c = finish32 mode (fsum mode (.fin ((fmtFP32.sign a != fmtFP32.sign b) != negP) (ma * mb) (ea + eb))
      (.fin (fmtFP32.sign c != negC) mc ec)) := by
    rw [fma32_of_prod mode negP negC (by rw [hfa, hfb, fprod]), hfc, negIf_fin, negIf_fin]
  rw [hfma]
  refine ⟨fun h => fsum_rounds hmode h hsum, fun h => ?_⟩
  rw [h, Int.cast_zero, zero_mul] at hsum
  rw [fsum_zero hsum.symm]
  have hzero : p = 0 ↔ ma * mb = 0 := by
    rw [← realVal_eq_zero (neg := (fmtFP32.sign a != fmtFP32.sign b) != negP) (e := ea + eb), ← hprod, mul_eq_zero, Int.cast_eq_zero,
      or_iff_left (two_zpow_pos _).ne']
  simp only [hzero]

end
end Sys2Proof.Machine
end

section
/-! SUPPORT. The order of FP32 values, and the lesser and the greater of two (06 R129). -/
namespace Sys2Proof.Machine

/-! ### The order of values is that of their units -/

theorem units_eq (a : Nat) : fmtFP32.units a = if fmtFP32.sign a then -(codeMag 23 (a % 2 ^ 31) : Int) else codeMag 23 (a % 2 ^ 31) := by
  rw [FFmt.units, fmtFP32.mag_eq]
  rfl

theorem units_inf {a : Nat} (h : fmtFP32.isInf a) :
    fmtFP32.units a = if fmtFP32.sign a then -(codeMag 23 fmtFP32.infBits : Int) else codeMag 23 fmtFP32.infBits := by
  rw [units_eq, show a % 2 ^ 31 = fmtFP32.infBits from h]

theorem units_fin {a : Nat} (h : fmtFP32.isFin a) :
    -(codeMag 23 fmtFP32.infBits : Int) < fmtFP32.units a ∧ fmtFP32.units a < codeMag 23 fmtFP32.infBits := by
  have hlt : codeMag 23 (a % 2 ^ 31) < codeMag 23 fmtFP32.infBits := codeMag_strictMono 23 h
  rw [units_eq]
  split <;> omega

theorem scaled_units {a m : Nat} {e lo : Int} (h : FinVal fmtFP32 a m e) (hlo : lo ≤ e) :
    (scaled (fmtFP32.sign a) m e lo : ℝ) * 2 ^ lo = fmtFP32.units a * 2 ^ (-149 : Int) := by
  rw [scaled_realVal _ _ hlo, realVal_units h]

section
variable {a b : Nat}

/-- Two finite values compare as their units. -/
theorem scaled_compare {ma mb : Nat} {ea eb : Int} (ha : FinVal fmtFP32 a ma ea) (hb : FinVal fmtFP32 b mb eb) :
    (scaled (fmtFP32.sign a) ma ea (min ea eb) < scaled (fmtFP32.sign b) mb eb (min ea eb) ↔ fmtFP32.units a < fmtFP32.units b)
    ∧ (scaled (fmtFP32.sign a) ma ea (min ea eb) = scaled (fmtFP32.sign b) mb eb (min ea eb) ↔ fmtFP32.units a = fmtFP32.units b) := by
  have h1 := scaled_units ha (min_le_left ea eb)
  have h2 := scaled_units hb (min_le_right ea eb)
  have hlo := two_zpow_pos (min ea eb)
  have hu := two_zpow_pos (-149)
  constructor
  · rw [← Int.cast_lt (R := ℝ), ← mul_lt_mul_iff_left₀ hlo, h1, h2, mul_lt_mul_iff_left₀ hu, Int.cast_lt]
  · rw [← Int.cast_inj (α := ℝ), ← mul_left_inj' hlo.ne', h1, h2, mul_left_inj' hu.ne', Int.cast_inj]

theorem fless_units (ha : ¬fmtFP32.isNan a) (hb : ¬fmtFP32.isNan b) :
    fless (fp32 a) (fp32 b) = decide (fmtFP32.units a < fmtFP32.units b)
    ∧ fequal (fp32 a) (fp32 b) = decide (fmtFP32.units a = fmtFP32.units b) := by
  have hM : (0 : Int) < codeMag 23 fmtFP32.infBits := by decide
  rcases fmtFP32.class a with hca | hca | hca
  · obtain ⟨ma, ea, hva, hfa⟩ := fp32_fin hca
    have hra := units_fin hca
    rcases fmtFP32.class b with hcb | hcb | hcb
    · obtain ⟨mb, eb, hvb, hfb⟩ := fp32_fin hcb
      obtain ⟨hlt, heq⟩ := scaled_compare hva hvb
      rw [hfa, hfb]
      exact ⟨decide_eq_decide.mpr hlt, Bool.eq_iff_iff.mpr (beq_iff_eq.trans (heq.trans decide_eq_true_iff.symm))⟩
    · rw [hfa, fp32_inf hcb, units_inf hcb]
      cases fmtFP32.sign b <;> simp [fless, fequal] <;> omega
    · exact absurd hcb hb
  · rcases fmtFP32.class b with hcb | hcb | hcb
    · obtain ⟨mb, eb, hvb, hfb⟩ := fp32_fin hcb
      have hrb := units_fin hcb
      rw [hfb, fp32_inf hca, units_inf hca]
      cases fmtFP32.sign a <;> simp [fless, fequal] <;> omega
    · rw [fp32_inf hca, fp32_inf hcb, units_inf hca, units_inf hcb]
      cases fmtFP32.sign a <;> cases fmtFP32.sign b <;> simp [fless, fequal] <;> omega
    · exact absurd hcb hb
  · exact absurd hca ha

theorem isNeg_fp32 (ha : ¬fmtFP32.isNan a) : (fp32 a).isNeg = fmtFP32.sign a := by
  rcases fmtFP32.class a with hca | hca | hca
  · obtain ⟨ma, ea, hva, hfa⟩ := fp32_fin hca
    rw [hfa, FVal.isNeg]
  · rw [fp32_inf hca, FVal.isNeg]
  · exact absurd hca ha

/-! ### The order of encodings -/

/-- Encodings in the order of their values, −0 below +0. -/
def fpKey (x : Nat) : Int := if 2 ^ 31 ≤ x then -((x - 2 ^ 31 : Nat) : Int) - 1 else x

theorem fpKey_eq {x : Nat} (h : x < 2 ^ 32) :
    fpKey x = if fmtFP32.sign x then -((x % 2 ^ 31 : Nat) : Int) - 1 else (x % 2 ^ 31 : Nat) := by
  have hs : fmtFP32.sign x = decide (2 ^ 31 ≤ x) := by
    rw [FFmt.sign, Bool.eq_iff_iff, beq_iff_eq, decide_eq_true_eq, show fmtFP32.eb + fmtFP32.fb = 31 from rfl]
    omega
  rw [fpKey, hs]
  simp only [decide_eq_true_eq]
  split <;> omega

/-- The model's comparison of min and max is the order of the encodings. -/
theorem aLess_iff (ha : ¬fmtFP32.isNan a) (hb : ¬fmtFP32.isNan b) (hal : a < 2 ^ 32) (hbl : b < 2 ^ 32) :
    (fless (fp32 a) (fp32 b) || (fequal (fp32 a) (fp32 b) && (fp32 a).isNeg && !(fp32 b).isNeg)) = decide (fpKey a < fpKey b) := by
  obtain ⟨hlt, heq⟩ := fless_units ha hb
  rw [hlt, heq, isNeg_fp32 ha, isNeg_fp32 hb, units_eq, units_eq, fpKey_eq hal, fpKey_eq hbl]
  have hmono : codeMag 23 (a % 2 ^ 31) < codeMag 23 (b % 2 ^ 31) ↔ a % 2 ^ 31 < b % 2 ^ 31 := (codeMag_strictMono 23).lt_iff_lt
  have hmono' : codeMag 23 (b % 2 ^ 31) < codeMag 23 (a % 2 ^ 31) ↔ b % 2 ^ 31 < a % 2 ^ 31 := (codeMag_strictMono 23).lt_iff_lt
  generalize codeMag 23 (a % 2 ^ 31) = x at *
  generalize codeMag 23 (b % 2 ^ 31) = y at *
  generalize a % 2 ^ 31 = p at *
  generalize b % 2 ^ 31 = q at *
  cases fmtFP32.sign a <;> cases fmtFP32.sign b <;> simp <;> omega

/-- Encodings of one key are one. -/
theorem fpKey_inj (h : fpKey a = fpKey b) : a = b := by
  unfold fpKey at h
  split at h <;> split at h <;> omega

/-- minimumNumber and maximumNumber (06 R129). -/
theorem fminmax32_nan_nan (isMax : Bool) (ha : fmtFP32.isNan a) (hb : fmtFP32.isNan b) : (fminmax32 isMax a b).1 = fmtFP32.nanBits := by
  simp [fminmax32, fp32_isNan.mpr ha, fp32_isNan.mpr hb]

theorem fminmax32_nan_left (isMax : Bool) (ha : fmtFP32.isNan a) (hb : ¬fmtFP32.isNan b) : (fminmax32 isMax a b).1 = b := by
  rw [← fp32_isNan, Bool.not_eq_true] at hb
  simp [fminmax32, fp32_isNan.mpr ha, hb]

theorem fminmax32_nan_right (isMax : Bool) (ha : ¬fmtFP32.isNan a) (hb : fmtFP32.isNan b) : (fminmax32 isMax a b).1 = a := by
  rw [← fp32_isNan, Bool.not_eq_true] at ha
  simp [fminmax32, fp32_isNan.mpr hb, ha]

theorem fminmax32_flags (isMax : Bool) : (fminmax32 isMax a b).2 = flagIf ((fp32 a).isSnan || (fp32 b).isSnan) flagNV := by
  simp only [fminmax32]
  repeat' split
  all_goals rfl

theorem fminmax32_nv (isMax : Bool) : (fmtFP32.isSnan a ∨ fmtFP32.isSnan b → (fminmax32 isMax a b).2 = flagNV)
    ∧ (¬(fmtFP32.isSnan a ∨ fmtFP32.isSnan b) → (fminmax32 isMax a b).2 = 0) := by
  rw [fminmax32_flags, ← snan_or]
  cases (fp32 a).isSnan || (fp32 b).isSnan <;> simp [flagIf]

theorem fminmax32_order (isMax : Bool) (ha : ¬fmtFP32.isNan a) (hb : ¬fmtFP32.isNan b) (hal : a < 2 ^ 32) (hbl : b < 2 ^ 32) :
    fminmax32 isMax a b = (if isMax = true then (if fpKey a ≤ fpKey b then b else a) else if fpKey a ≤ fpKey b then a else b, 0) := by
  have hf : (fminmax32 isMax a b).2 = 0 := by
    rw [fminmax32_flags, Bool.eq_false_iff.mpr fun h => (snan_or.mp h).elim (fun h => ha h.1) (fun h => hb h.1)]
    rfl
  refine Prod.ext ?_ hf
  have hlt := aLess_iff ha hb hal hbl
  rw [← fp32_isNan, Bool.not_eq_true] at ha hb
  simp only [fminmax32, ha, hb, hlt, Bool.and_self, Bool.false_eq_true, if_false]
  rcases lt_trichotomy (fpKey a) (fpKey b) with h | h | h
  · cases isMax <;> simp [h, h.le]
  · cases isMax <;> simp [fpKey_inj h]
  · cases isMax <;> simp [h.le.not_gt, h.not_ge]

end
end Sys2Proof.Machine
end

section
/-! SUPPORT. Whole parts in integers, and XF elements (04 R88, R97, R98, R101, R102, R391). -/
namespace Sys2Proof.Machine

/-! ### Rounding to whole parts, in integers -/

/-- Rounding n bits away, in parts. -/
theorem roundAt_parts (mode : Nat) (neg : Bool) (m n : Nat) (e : Int) :
    RoundsWhole mode neg ((m : ℝ) / 2 ^ n) (roundAt mode neg m e (e + n)).1 := by
  have hx : Approx 0 m e (m * 2 ^ e) := .inl rfl
  have h := (roundAt_rounds hx (q := e + n) (.inl rfl) mode neg).1
  rwa [two_zpow_natAdd, mul_comm ((2 : ℝ) ^ e), mul_div_mul_right _ _ (two_zpow_pos e).ne'] at h

section
variable {mode m n k : Nat} {neg : Bool} (h : RoundsWhole mode neg ((m : ℝ) / 2 ^ n) k)
include h

theorem RoundsWhole.parts_down (hd : RoundsDown mode neg) : k * 2 ^ n ≤ m ∧ m < (k + 1) * 2 ^ n := by
  obtain ⟨h1, h2⟩ := h.down hd
  rw [le_div_iff₀ (by positivity)] at h1
  rw [div_lt_iff₀ (by positivity)] at h2
  exact ⟨by exact_mod_cast h1, by exact_mod_cast h2⟩

theorem RoundsWhole.parts_up (hu : RoundsUp mode neg) : m ≤ k * 2 ^ n ∧ k * 2 ^ n < m + 2 ^ n := by
  obtain ⟨h1, h2⟩ := h.up hu
  rw [div_le_iff₀ (by positivity)] at h2
  rw [← sub_lt_iff_lt_add, lt_div_iff₀ (by positivity), sub_mul, one_mul, sub_lt_iff_lt_add] at h1
  exact ⟨by exact_mod_cast h2, by exact_mod_cast h1⟩

theorem RoundsWhole.parts_near (hn : RoundsNear mode) : 2 * (k * 2 ^ n) ≤ 2 * m + 2 ^ n ∧ 2 * m ≤ 2 * (k * 2 ^ n) + 2 ^ n := by
  obtain ⟨h1, h2⟩ := h.near hn
  have hu : (0 : ℝ) < 2 ^ n := by positivity
  have hm : (m : ℝ) = m / 2 ^ n * 2 ^ n := by field_simp
  have h1' : 2 * ((k : ℝ) * 2 ^ n) ≤ 2 * m + 2 ^ n := by nlinarith
  have h2' : 2 * (m : ℝ) ≤ 2 * (k * 2 ^ n) + 2 ^ n := by nlinarith
  exact ⟨by exact_mod_cast h1', by exact_mod_cast h2'⟩

theorem RoundsWhole.parts_even (hm : mode = 0) (ht : 2 * (k * 2 ^ n) = 2 * m + 2 ^ n ∨ 2 * m = 2 * (k * 2 ^ n) + 2 ^ n) : k % 2 = 0 := by
  have hu : (0 : ℝ) < 2 ^ n := by positivity
  refine h.even hm (ht.imp (fun ht => ?_) (fun ht => ?_))
  · have : 2 * ((k : ℝ) * 2 ^ n) = 2 * m + 2 ^ n := by exact_mod_cast ht
    field_simp
    linarith
  · have : 2 * (m : ℝ) = 2 * (k * 2 ^ n) + 2 ^ n := by exact_mod_cast ht
    field_simp
    linarith

theorem RoundsWhole.parts_away (hm : mode = 4) : 2 * m < 2 * (k * 2 ^ n) + 2 ^ n := by
  refine lt_of_le_of_ne (h.parts_near (.inr hm)).2 fun ht => h.away hm ?_
  have : 2 * (m : ℝ) = 2 * (k * 2 ^ n) + 2 ^ n := by exact_mod_cast ht
  field_simp
  linarith

end

/-! ### Halvings to the nearest even -/

/-- k is m / 2^n to the nearest, with ties to even. -/
def NearestEven (m : Int) (n : Nat) (k : Int) : Prop :=
  2 * (k * 2 ^ n - m).natAbs ≤ 2 ^ n ∧ (2 * (k * 2 ^ n - m).natAbs = 2 ^ n → k % 2 = 0)

theorem shiftRNE_nearest (m : Int) (n : Nat) : NearestEven m n (shiftRNE m n) := by
  have hr := roundAt_parts RNE false m.natAbs n 0
  rw [zero_add] at hr
  obtain ⟨h1, h2⟩ := hr.parts_near (.inl rfl)
  have heven := hr.parts_even rfl
  rw [shiftRNE]
  generalize (roundAt RNE false m.natAbs 0 n).1 = k at *
  have hp : (((k * 2 ^ n : Nat)) : Int) = (k : Int) * 2 ^ n := by push_cast; rfl
  have hu : ((2 ^ n : Nat) : Int) = 2 ^ n := by push_cast; rfl
  unfold NearestEven
  generalize k * 2 ^ n = P at *
  by_cases hm : m < 0
  · rw [if_pos hm, neg_mul, ← hp]
    exact ⟨by omega, fun ht => by have := heven (by omega); omega⟩
  · rw [if_neg hm, ← hp]
    exact ⟨by omega, fun ht => by have := heven (by omega); omega⟩

theorem shiftRNE_le {m : Int} {a : Nat} (h : m.natAbs ≤ 2 * a) : (shiftRNE m 1).natAbs ≤ a := by
  have := (shiftRNE_nearest m 1).1
  omega

theorem shiftRNE_zero (n : Nat) : shiftRNE 0 n = 0 := by
  have := (shiftRNE_nearest 0 n).1
  rw [sub_zero, Int.natAbs_mul] at this
  have hp : ((2 : Int) ^ n).natAbs = 2 ^ n := Int.natAbs_pow 2 n
  rw [hp] at this
  have hu : 0 < 2 ^ n := Nat.two_pow_pos n
  have : (shiftRNE 0 n).natAbs = 0 := by
    by_contra hne
    have := Nat.mul_le_mul_right (2 ^ n) (Nat.one_le_iff_ne_zero.mpr hne)
    omega
  omega

/-! ### A number made an XF element (R391) -/

theorem natAbs_le_log2 (m : Int) {j : Nat} (h : m.natAbs.log2 + 1 ≤ j) : m.natAbs ≤ 2 ^ j :=
  Nat.lt_log2_self.le.trans (Nat.pow_le_pow_right (by decide) h)

theorem xfNarrow_done {m : Int} (k : Int) (n : Nat) (h : m.natAbs ≤ 2 ^ 47 - 1) : xfNarrow m k n = (m, k) := by
  cases n with
  | zero => rfl
  | succ n => rw [xfNarrow, if_neg (by omega)]

theorem xfNarrow_step {m : Int} (k : Int) (n : Nat) (h : 2 ^ 47 - 1 < m.natAbs) :
    xfNarrow m k (n + 1) = xfNarrow (shiftRNE m 1) (k + 1) n := by rw [xfNarrow, if_pos h]

/-- Turns enough for the bits of a number are enough. -/
theorem xfNarrow_stable : ∀ {n n' : Nat} {m : Int} (k : Int), m.natAbs ≤ 2 ^ n → m.natAbs ≤ 2 ^ n' → xfNarrow m k n = xfNarrow m k n'
  | 0, n', m, k, h, _ => by rw [xfNarrow_done k n' (by omega)]; rfl
  | n + 1, 0, m, k, _, h => by rw [xfNarrow_done k (n + 1) (by omega)]; rfl
  | n + 1, n' + 1, m, k, h, h' => by
    rw [xfNarrow, xfNarrow]
    split
    · rw [pow_succ'] at h h'
      exact xfNarrow_stable _ (shiftRNE_le h) (shiftRNE_le h')
    · rfl

theorem xfFloor_zero (k : Int) (n : Nat) : xfFloor 0 k n = (0, k) := by cases n <;> simp [xfFloor]

theorem xfFloor_done (m : Int) {k : Int} (n : Nat) (h : -32768 ≤ k) : xfFloor m k n = (m, k) := by
  cases n <;> simp [xfFloor, h]

theorem xfFloor_step {m k : Int} (n : Nat) (hk : k < -32768) (hm : m ≠ 0) : xfFloor m k (n + 1) = xfFloor (shiftRNE m 1) (k + 1) n := by
  simp [xfFloor, hk, hm]

/-- A number of one bit is gone after a halving. -/
theorem shiftRNE_small {m : Int} (h : m.natAbs ≤ 1) : shiftRNE m 1 = 0 := by
  obtain ⟨h1, h2⟩ := shiftRNE_nearest m 1
  omega

theorem xfFloor_small {m : Int} (k : Int) (n : Nat) (h : m.natAbs ≤ 1) :
    xfFloor m k (n + 1) = if k < -32768 ∧ m ≠ 0 then (0, k + 1) else (m, k) := by
  split
  case isTrue hc => rw [xfFloor_step n hc.1 hc.2, shiftRNE_small h, xfFloor_zero]
  case isFalse hc => rw [xfFloor, if_neg (by simpa using hc)]

theorem xfFloor_stable : ∀ {n n' : Nat} {m : Int} (k : Int), m.natAbs ≤ 2 ^ n → m.natAbs ≤ 2 ^ n' → xfFloor m k (n + 1) = xfFloor m k (n' + 1)
  | 0, n', m, k, h, _ => by rw [xfFloor_small k 0 (by omega), xfFloor_small k n' (by omega)]
  | n + 1, 0, m, k, _, h => by rw [xfFloor_small k (n + 1) (by omega), xfFloor_small k 0 (by omega)]
  | n + 1, n' + 1, m, k, h, h' => by
    rw [xfFloor, xfFloor.eq_def m k (n' + 1 + 1)]
    dsimp only
    split
    · rw [pow_succ'] at h h'
      exact xfFloor_stable _ (shiftRNE_le h) (shiftRNE_le h')
    · rfl

/-- A number too long, or of too low an exponent, is halved. -/
theorem toXF_halve {m k : Int} (h : 2 ^ 47 - 1 < m.natAbs ∨ k < -32768) : toXF m k = toXF (shiftRNE m 1) (k + 1) := by
  by_cases hm : 2 ^ 47 - 1 < m.natAbs
  · have hh : (shiftRNE m 1).natAbs ≤ 2 ^ (m.natAbs.log2 + 1) :=
      shiftRNE_le (by rw [← pow_succ']; exact natAbs_le_log2 m (by omega))
    rw [toXF, xfNarrow_step k _ hm, xfNarrow_stable (k + 1) hh (natAbs_le_log2 _ (j := (shiftRNE m 1).natAbs.log2 + 2) (by omega))]
    rfl
  have hk : k < -32768 := h.resolve_left hm
  by_cases h0 : m = 0
  · subst h0
    rw [shiftRNE_zero]
    simp [toXF, xfNarrow_done, xfFloor_zero]
  · have hh : (shiftRNE m 1).natAbs ≤ 2 ^ (m.natAbs.log2 + 1) :=
      shiftRNE_le (by rw [← pow_succ']; exact natAbs_le_log2 m (by omega))
    have hs : (shiftRNE m 1).natAbs ≤ 2 ^ 47 - 1 := shiftRNE_le (by omega)
    rw [toXF, toXF, xfNarrow_done k _ (by omega), xfNarrow_done (k + 1) _ hs]
    dsimp only
    rw [xfFloor_step _ hk h0, xfFloor_stable (k + 1) hh (natAbs_le_log2 _ (j := (shiftRNE m 1).natAbs.log2 + 2) (by omega))]

/-- The greatest magnitude of an XF element, of a sign. -/
def xfLargest (m : Int) : XF := ⟨if m < 0 then -(2 ^ 47 - 1) else 2 ^ 47 - 1, 32767⟩

theorem toXF_fits {m k : Int} (hm : m.natAbs ≤ 2 ^ 47 - 1) (hk : -32768 ≤ k) :
    toXF m k = if m = 0 then ⟨0, 0⟩ else if 32767 < k then xfLargest m else ⟨m, k⟩ := by
  rw [toXF, xfNarrow_done k _ hm]
  dsimp only
  rw [xfFloor_done m _ hk]
  rfl

/-! ### Normal elements and addition (R98) -/

/-- r is a with its mantissa doubled until it is full, or the exponent is the least. -/
def IsNorm (a r : XF) : Prop := ∃ n : Nat, r = ⟨a.m * 2 ^ n, a.e - n⟩ ∧ -32768 ≤ r.e ∧ (a.m = 0 → n = 0)
  ∧ (a.m ≠ 0 → 2 ^ 46 ≤ r.m.natAbs ∨ r.e = -32768) ∧ (n ≠ 0 → a.m.natAbs * 2 ^ (n - 1) < 2 ^ 46)

theorem IsNorm.refl {a : XF} (he : -32768 ≤ a.e) (h : a.m ≠ 0 → 2 ^ 46 ≤ a.m.natAbs ∨ a.e = -32768) : IsNorm a a :=
  ⟨0, by simp, he, fun _ => rfl, h, fun h => absurd rfl h⟩

theorem IsNorm.double {a r : XF} (hm : a.m ≠ 0) (hlt : a.m.natAbs < 2 ^ 46) (h : IsNorm ⟨a.m * 2, a.e - 1⟩ r) : IsNorm a r := by
  obtain ⟨n, rfl, he, -, hfull, hlast⟩ := h
  refine ⟨n + 1, ?_, he, fun h0 => absurd h0 hm, fun _ => hfull (by simp [hm]), fun _ => ?_⟩
  · simp only [XF.mk.injEq]
    exact ⟨by ring, by push_cast; ring⟩
  · cases n with
    | zero => simpa using hlt
    | succ n =>
      have := hlast (by omega)
      simp only [Int.natAbs_mul, Nat.add_sub_cancel] at this ⊢
      rw [pow_succ]
      calc a.m.natAbs * (2 ^ n * 2) = a.m.natAbs * 2 * 2 ^ n := by ring
        _ < 2 ^ 46 := this

theorem xfNorm_isNorm : ∀ (n : Nat) {a : XF}, -32768 ≤ a.e → (a.m ≠ 0 → 2 ^ 46 ≤ a.m.natAbs * 2 ^ n) → IsNorm a (xfNorm a n)
  | 0, a, he, hn => .refl he fun hm => .inl (by simpa using hn hm)
  | n + 1, a, he, hn => by
    rw [xfNorm]
    split
    case isTrue hc =>
      simp only [Bool.and_eq_true, bne_iff_ne, decide_eq_true_eq] at hc
      obtain ⟨⟨hm, hlt⟩, hgt⟩ := hc
      refine .double hm hlt (xfNorm_isNorm n (by dsimp only; omega) fun _ => ?_)
      have := hn hm
      rw [pow_succ] at this
      rw [Int.natAbs_mul]
      calc 2 ^ 46 ≤ a.m.natAbs * (2 ^ n * 2) := this
        _ = a.m.natAbs * 2 * 2 ^ n := by ring
    case isFalse hc =>
      simp only [Bool.and_eq_true, bne_iff_ne, decide_eq_true_eq] at hc
      exact .refl he fun hm => by omega

theorem xfNorm_full {a : XF} (he : -32768 ≤ a.e) : IsNorm a (xfNorm a 48) :=
  xfNorm_isNorm 48 he fun hm => by
    have : 1 ≤ a.m.natAbs := by omega
    omega

theorem XF.isNaN_iff {a : XF} : a.isNaN = true ↔ a.m = -2 ^ 47 := beq_iff_eq

theorem xfAdd_nan {a b : XF} (h : a.m = -2 ^ 47 ∨ b.m = -2 ^ 47) : xfAdd a b = ⟨-2 ^ 47, 32767⟩ := by
  rw [xfAdd, if_pos (by rwa [Bool.or_eq_true, XF.isNaN_iff, XF.isNaN_iff])]
  rfl

/-- A sum that is one bit too long is halved. -/
def xfCarry (s e : Int) : XF := if s.natAbs > 2 ^ 47 - 1 then ⟨shiftRNE s 1, e + 1⟩ else ⟨s, e⟩

theorem xfCarry_spec (s e : Int) : e ≤ (xfCarry s e).e ∧ if 2 ^ 47 - 1 < s.natAbs then NearestEven s 1 (xfCarry s e).m ∧ (xfCarry s e).e = e + 1
    else (xfCarry s e).m = s ∧ (xfCarry s e).e = e := by
  unfold xfCarry
  split
  · exact ⟨by dsimp only; omega, shiftRNE_nearest s 1, rfl⟩
  · exact ⟨le_rfl, rfl, rfl⟩

/-- A sum made an element: zero, the largest, or normal. -/
def xfFinish (r : XF) : XF := if r.m = 0 then ⟨0, 0⟩ else if r.e > 32767 then xfLargest r.m else xfNorm r 48

theorem xfFinish_spec {r : XF} (he : -32768 ≤ r.e) : (r.m = 0 → xfFinish r = ⟨0, 0⟩) ∧ (r.m ≠ 0 → 32767 < r.e → xfFinish r = xfLargest r.m)
    ∧ (r.m ≠ 0 → r.e ≤ 32767 → IsNorm r (xfFinish r)) := by
  refine ⟨fun h => if_pos h, fun h hlt => ?_, fun h hle => ?_⟩
  · rw [xfFinish, if_neg h, if_pos hlt]
  · rw [xfFinish, if_neg h, if_neg (by omega)]
    exact xfNorm_full he

section
variable {a b : XF} (ha : a.m ≠ -2 ^ 47) (hb : b.m ≠ -2 ^ 47)
include ha hb

theorem xfAdd_eq : xfAdd a b = if a.m = 0 then xfNorm b 48 else if b.m = 0 then xfNorm a 48
    else xfFinish (xfCarry (shiftRNE (xfNorm a 48).m (max (xfNorm a 48).e (xfNorm b 48).e - (xfNorm a 48).e).toNat
      + shiftRNE (xfNorm b 48).m (max (xfNorm a 48).e (xfNorm b 48).e - (xfNorm b 48).e).toNat) (max (xfNorm a 48).e (xfNorm b 48).e)) := by
  rw [xfAdd, if_neg (by rw [Bool.or_eq_true, XF.isNaN_iff, XF.isNaN_iff]; tauto)]
  rfl

/-- The addition of two elements that are neither zero nor NaN. -/
theorem xfAdd_nonzero (hae : -32768 ≤ a.e) (hbe : -32768 ≤ b.e) (ha0 : a.m ≠ 0) (hb0 : b.m ≠ 0) :
    ∃ p q x y s E, IsNorm a p ∧ IsNorm b q
      ∧ NearestEven p.m (max p.e q.e - p.e).toNat x ∧ NearestEven q.m (max p.e q.e - q.e).toNat y
      ∧ (if 2 ^ 47 - 1 < (x + y).natAbs then NearestEven (x + y) 1 s ∧ E = max p.e q.e + 1 else s = x + y ∧ E = max p.e q.e)
      ∧ (s = 0 → xfAdd a b = ⟨0, 0⟩) ∧ (s ≠ 0 → 32767 < E → xfAdd a b = xfLargest s)
      ∧ (s ≠ 0 → E ≤ 32767 → IsNorm ⟨s, E⟩ (xfAdd a b)) := by
  have hp := xfNorm_full hae
  have hq := xfNorm_full hbe
  have hadd := xfAdd_eq ha hb
  rw [if_neg ha0, if_neg hb0] at hadd
  rw [hadd]
  generalize xfNorm a 48 = p at *
  generalize xfNorm b 48 = q at *
  have hx := shiftRNE_nearest p.m (max p.e q.e - p.e).toNat
  have hy := shiftRNE_nearest q.m (max p.e q.e - q.e).toNat
  generalize shiftRNE p.m (max p.e q.e - p.e).toNat = x at *
  generalize shiftRNE q.m (max p.e q.e - q.e).toNat = y at *
  obtain ⟨hle, hcarry⟩ := xfCarry_spec (x + y) (max p.e q.e)
  generalize xfCarry (x + y) (max p.e q.e) = r at *
  have hpe : -32768 ≤ p.e := by obtain ⟨n, -, he, -⟩ := hp; exact he
  exact ⟨p, q, x, y, r.m, r.e, hp, hq, hx, hy, hcarry, xfFinish_spec (r := r) ((hpe.trans (le_max_left _ _)).trans hle)⟩

end

/-! ### The fields of an element, and a reduction home's cell -/

theorem toBits_cast (w : Nat) (v : Int) : (toBits w v : Int) = v % 2 ^ w := by
  rw [toBits, BitVec.toNat_ofInt]
  have : (0 : Int) ≤ v % (2 ^ w : Nat) := Int.emod_nonneg _ (by positivity)
  rw [Int.toNat_of_nonneg this]
  push_cast
  rfl

theorem toBits_lt (w : Nat) (v : Int) : toBits w v < 2 ^ w := BitVec.isLt _

theorem xfEncode_cast (a : XF) : (xfEncode a : Int) = a.m % 2 ^ 48 + 2 ^ 48 * (a.e % 2 ^ 16) := by
  rw [xfEncode, Nat.cast_add, Nat.cast_mul, toBits_cast, toBits_cast]
  norm_num

theorem xfEncode_lt (a : XF) : xfEncode a < 2 ^ 64 := by
  have h1 := toBits_lt 48 a.m
  have h2 := toBits_lt 16 a.e
  rw [xfEncode]
  omega

theorem sintOf_mod (w b : Nat) : sintOf w (b % 2 ^ w) = (BitVec.ofNat w b).toInt := by
  rw [sintOf]
  congr 1
  apply BitVec.eq_of_toNat_eq
  simp

/-- Each element of a cell has its own sum added (R102). -/
theorem reduceCell_elem (cell w0 w1 : Vec) {j : Nat} (hj : j < 8) : (reduceCell cell w0 w1).toNat / 2 ^ (64 * j) % 2 ^ 64
    = xfEncode (xfAdd (xfDecode (cell.toNat / 2 ^ (64 * j) % 2 ^ 64))
      (toXF (BitVec.ofNat 64 (w0.toNat / 2 ^ (64 * j) % 2 ^ 64)).toInt (BitVec.ofNat 16 w1.toNat).toInt)) := by
  rw [← sintOf_mod 16]
  exact (lane_build (w := 64) (fun j => xfEncode (xfAdd (xfDecode (cell.toNat / 2 ^ (64 * j) % 2 ^ 64))
    (toXF (sintOf 64 (w0.toNat / 2 ^ (64 * j) % 2 ^ 64)) (sintOf 16 (w1.toNat % 2 ^ 16))))) hj).trans (Nat.mod_eq_of_lt (xfEncode_lt _))

end Sys2Proof.Machine
end

section
/-! SUPPORT. The statement on the rounding modes, the arithmetic of FP32 and XF elements (04 R78 to R102, R391, 06 R129, R130). -/
namespace Sys2Proof.Machine

theorem roundAt_whole_parts (mode : Nat) (neg : Bool) (m n : Nat) (e : Int) (hn : 0 < n) :
    let r := roundAt mode neg m e (e + n)
    let k := r.1
    let u := 2 ^ n
    let down : Prop := k * u ≤ m ∧ m < (k + 1) * u
    let up : Prop := m ≤ k * u ∧ k * u < m + u
    (r.2 = true ↔ m % u ≠ 0)
    ∧ (mode = 0 → 2 * (k * u) ≤ 2 * m + u ∧ 2 * m ≤ 2 * (k * u) + u
        ∧ (2 * (k * u) = 2 * m + u ∨ 2 * m = 2 * (k * u) + u → k % 2 = 0))
    ∧ (mode = 1 → down) ∧ (mode = 2 → if neg then up else down) ∧ (mode = 3 → if neg then down else up)
    ∧ (mode = 4 → 2 * (k * u) ≤ 2 * m + u ∧ 2 * m < 2 * (k * u) + u) := by
  have h := roundAt_parts mode neg m n e
  refine ⟨?_, fun hm => ?_, fun hm => ?_, fun hm => ?_, fun hm => ?_, fun hm => ?_⟩
  · rw [roundAt_of_lt mode neg m hn rfl, bne_iff_ne]
  · obtain ⟨h1, h2⟩ := h.parts_near (.inl hm)
    exact ⟨h1, h2, h.parts_even hm⟩
  · exact h.parts_down (.inl hm)
  · cases neg
    · exact h.parts_down (.inr (.inl ⟨hm, rfl⟩))
    · exact h.parts_up (.inr ⟨hm, rfl⟩)
  · cases neg
    · exact h.parts_up (.inl ⟨hm, rfl⟩)
    · exact h.parts_down (.inr (.inr ⟨hm, rfl⟩))
  · exact ⟨(h.parts_near (.inr hm)).1, h.parts_away hm⟩

/-- Settles O59: roundAt gives the whole parts (roundAt_parts), roundMag the number rounded once (roundMag_rounds), each operation
hands roundMag its exact value or one with a sticky bit, and XF elements are halved and doubled as R391 and R98 say. -/
theorem roundingModes : Obligations.RoundingModes := by
  unfold Obligations.RoundingModes
  refine ⟨⟨fun mode neg m n e hn => roundAt_whole_parts mode neg m n e hn, ?_, ?_⟩, ⟨?_, ?_⟩, ?_, ?_, ?_, ?_⟩
  · intro mode neg m n e
    rw [roundAt_of_le mode neg m (by omega), sub_sub_cancel, Int.toNat_natCast]
  · intro f mode b hf hb hnan
    have hw : f.Wide := by rcases hf with rfl | rfl | rfl; exacts [wide_fp32, wide_fp16, wide_bf16]
    exact fencode_fdecode hw mode hb fun hn => by rw [isNan_fdecode.mpr hn] at hnan; cases hnan
  · intro g mode m neg e hg hmode hm
    have hw : g.Wide := by rcases hg with rfl | rfl | rfl; exacts [wide_fp32, wide_fp16, wide_bf16]
    exact fencode_rounds_exact hw hmode hm rfl
  · intro mode a b c hmode ha hb hc
    refine ⟨fun hfa hfb => ?_, fun hia hfb => ?_, fun hfa hib => ?_, fun hia hib => ?_, fun hn => ?_, fsub32_eq a b mode,
      fsqrt32_zero mode, ?_, ?_, ?_, ?_, ?_, ?_⟩
    · obtain ⟨hs, hs0⟩ := fadd32_fin hmode hfa hfb ha hb
      obtain ⟨hp, hp0⟩ := fmul32_fin hmode hfa hfb
      obtain ⟨hq, hq0, hqd, hqn⟩ := fdiv32_fin hmode hfa hfb
      exact ⟨hs, hs0, hp, hp0, hq, hq0, hqd, hqn⟩
    · exact ⟨fadd32_inf_fin mode hia hfb, fdiv32_inf_fin mode hia hfb, fmul32_inf_fin mode hia hfb⟩
    · exact ⟨fadd32_fin_inf mode hfa hib, fdiv32_fin_inf mode hfa hib, fmul32_fin_inf mode hfa hib⟩
    · exact ⟨fdiv32_inf_inf mode hia hib, fmul32_inf_inf mode hia hib, fadd32_inf_inf mode hia hib ha hb⟩
    · simp only [List.forall_mem_cons]
      exact ⟨quiet_of snan_or (fadd32_nan mode hn), quiet_of snan_or (fmul32_nan mode hn), quiet_of snan_or (fdiv32_nan mode hn),
        fun _ h => absurd h List.not_mem_nil⟩
    · rintro rfl
      exact fsqrt32_inf mode
    · exact fun hn => quiet_of fp32_isSnan (fsqrt32_nan mode hn)
    · exact fsqrt32_neg mode
    · exact fsqrt32_fin hmode
    · intro isMax
      have hnv := fminmax32_nv (a := a) (b := b) isMax
      exact ⟨fun h1 h2 => ⟨fminmax32_nan_nan isMax h1 h2, hnv⟩, fun h1 h2 => ⟨fminmax32_nan_left isMax h1 h2, hnv⟩,
        fun h1 h2 => ⟨fminmax32_nan_right isMax h1 h2, hnv⟩, fun h1 h2 => fminmax32_order isMax h1 h2 ha hb⟩
    · intro negP negC
      exact ⟨fun h1 h2 h3 => fma32_fin negP negC hmode h1 h2 h3 rfl rfl, fun h1 h2 h3 => fma32_fin_inf mode negP negC h1 h2 h3,
        fun ⟨hw, hv, h1, h2⟩ h3 => fma32_wide_fin mode negP negC hw hv h1 h2 h3,
        fun ⟨hw, hv, h1, h2⟩ h3 => fma32_wide_inf mode negP negC hw hv h1 h2 h3, fma32_invalid mode negP negC,
        fun hv hn => quiet_of snan_or3 (fma32_nan mode negP negC hv hn)⟩
  · exact fun m k => ⟨fun h => ⟨_, shiftRNE_nearest m 1, toXF_halve h⟩, toXF_fits⟩
  · intro a b ⟨_, hae, _⟩ ⟨_, hbe, _⟩
    refine ⟨xfAdd_nan, fun ha hb => ⟨fun h0 => ?_, fun ha0 hb0 => ?_, fun ha0 hb0 => xfAdd_nonzero ha hb hae hbe ha0 hb0⟩⟩
    · rw [xfAdd_eq ha hb, if_pos h0]
      exact xfNorm_full hbe
    · rw [xfAdd_eq ha hb, if_neg ha0, if_pos hb0]
      exact xfNorm_full hae
  · exact fun w a => ⟨rfl, xfEncode_cast a⟩
  · exact fun cell w0 w1 j hj => reduceCell_elem cell w0 w1 hj

end Sys2Proof.Machine
end

section
/-! SUPPORT. Conversions of single values (04 R91, 06 R139): between formats, from integers and to integers. -/
namespace Sys2Proof.Machine

/-! ### Between formats -/

/-- r is the value of an encoding of one format in another. -/
def Floating (src dst : FFmt) (mode b : Nat) (r : Nat × FFlags) : Prop :=
  (src.isFin b → if src.mag b = 0 then r = (dst.withSign (src.sign b) 0, 0) else RoundsRatio dst mode (src.sign b) (src.mag b) 1 src.unit r)
  ∧ (src.isInf b → r = (dst.withSign (src.sign b) ((2 ^ dst.eb - 1) * 2 ^ dst.fb), 0))
  ∧ (src.isNan b → r.1 = (2 ^ dst.eb - 1) * 2 ^ dst.fb + 2 ^ (dst.fb - 1)
      ∧ (src.isSnan b → r.2 = flagNV) ∧ (¬src.isSnan b → r.2 = 0))

theorem floating_fencode (src : FFmt) {dst : FFmt} {mode : Nat} (hd : dst.Wide) (hmode : mode ≤ 4) (b : Nat) :
    Floating src dst mode b (fencode dst mode (fdecode src b)) := by
  refine ⟨fun h => ?_, fun h => ?_, fun h => ?_⟩
  · obtain ⟨m, e, hv⟩ := h.decode
    rw [hv.eq]
    by_cases hm : m = 0
    · rw [if_pos (hv.zero_iff.mp hm), hm, fencode_zero]
    · rw [if_neg fun h0 => hm (hv.zero_iff.mpr h0)]
      exact fencode_rounds_exact hd hmode hm hv.value.symm
  · rw [h.decode, fencode_inf]
    rfl
  · refine ⟨by rw [h.decode]; rfl, fun hs => ?_, fun hs => ?_⟩
    · rw [hs.decode]
      rfl
    · rw [h.decode_quiet hs]
      rfl

/-! ### From integers -/

/-- r is an integer in a format. -/
def Whole (dst : FFmt) (mode : Nat) (v : Int) (r : Nat × FFlags) : Prop := if v = 0 then r = (0, 0) else RoundsInt dst mode v 0 r

theorem whole_fencode {dst : FFmt} {mode : Nat} (hd : dst.Wide) (hmode : mode ≤ 4) (v : Int) :
    Whole dst mode v (fencode dst mode (intVal v)) := by
  unfold Whole
  split
  case isTrue h =>
    rw [h]
    exact fencode_zero dst mode false 0
  case isFalse h => exact fencode_realVal hd hmode h (realVal_natAbs v 0).symm

/-! ### To integers -/

def clampInt (lo hi v : Int) : Int := max lo (min hi v)

theorem saturate_eq {lo hi : Int} (h : lo ≤ hi) (v : Int) : saturate lo hi v = clampInt lo hi v := by
  unfold saturate clampInt
  split
  · omega
  · split <;> omega

/-- r is the value of an encoding rounded to an integer of a range. -/
def ToWhole (src : FFmt) (mode b w : Nat) (lo hi : Int) (r : Nat × FFlags) : Prop :=
  let k := roundAt mode (src.sign b) (src.mag b) src.unit 0
  let v : Int := if src.sign b then -(k.1 : Int) else k.1
  (src.isNan b → r = (0, flagNV))
  ∧ (src.isInf b → r = (toBits w (if src.sign b then lo else hi), flagNV))
  ∧ (src.isFin b → r = (toBits w (clampInt lo hi v), if lo ≤ v ∧ v ≤ hi then flagIf k.2 flagNX else flagNV))

theorem toIntRange_fin {mode m : Nat} {neg : Bool} {e lo hi : Int} (h : lo ≤ hi) :
    let k := roundAt mode neg m e 0
    let v : Int := if neg then -(k.1 : Int) else k.1
    toIntRange mode lo hi (.fin neg m e) = (clampInt lo hi v, if lo ≤ v ∧ v ≤ hi then flagIf k.2 flagNX else flagNV) := by
  intro k v
  show (if v < lo then (lo, flagNV) else if v > hi then (hi, flagNV) else (v, flagIf k.2 flagNX)) = _
  unfold clampInt
  split
  · rw [if_neg (by omega), min_eq_right (by omega), max_eq_left (by omega)]
  · split
    · rw [if_neg (by omega), min_eq_left (by omega), max_eq_right (by omega)]
    · rw [if_pos (by omega), min_eq_right (by omega), max_eq_right (by omega)]

theorem toWhole_toIntRange (src : FFmt) (mode b w : Nat) {lo hi : Int} (h : lo ≤ hi) :
    ToWhole src mode b w lo hi (toBits w (toIntRange mode lo hi (fdecode src b)).1, (toIntRange mode lo hi (fdecode src b)).2) := by
  refine ⟨fun hc => ?_, fun hc => ?_, fun hc => ?_⟩
  · rw [hc.decode]
    simp [toIntRange, toBits]
  · rw [hc.decode]
    rfl
  · obtain ⟨m, e, hv⟩ := hc.decode
    rw [hv.eq, toIntRange_fin h, roundAt_congr mode (src.sign b) 0 hv.value]

/-! ### The conversions of VCVT (R139) -/

theorem convert_floating {mode : Nat} (hmode : mode ≤ 4) (w x : Nat) :
    ∀ p ∈ [(0, fmtFP32, fmtBF16), (1, fmtFP32, fmtFP16), (2, fmtBF16, fmtFP32), (3, fmtFP16, fmtFP32), (4, fmtBF16, fmtFP16),
        (5, fmtFP16, fmtBF16)], Floating p.2.1 p.2.2 mode (x % 2 ^ (1 + p.2.1.eb + p.2.1.fb)) (convert p.1 mode w x) := by
  simp only [List.forall_mem_cons]
  exact ⟨floating_fencode fmtFP32 wide_bf16 hmode _, floating_fencode fmtFP32 wide_fp16 hmode _, floating_fencode fmtBF16 wide_fp32 hmode _,
    floating_fencode fmtFP16 wide_fp32 hmode _, floating_fencode fmtBF16 wide_fp16 hmode _, floating_fencode fmtFP16 wide_bf16 hmode _,
    fun _ h => absurd h List.not_mem_nil⟩

theorem convert_signed {mode : Nat} (hmode : mode ≤ 4) (w x : Nat) :
    ∀ p ∈ [(6, 32, fmtFP32), (8, 64, fmtFP32), (14, 8, fmtFP32), (15, 8, fmtBF16)],
      Whole p.2.2 mode (BitVec.ofNat p.2.1 x).toInt (convert p.1 mode w x) := by
  simp only [List.forall_mem_cons]
  exact ⟨whole_fencode wide_fp32 hmode _, whole_fencode wide_fp32 hmode _, whole_fencode wide_fp32 hmode _, whole_fencode wide_bf16 hmode _,
    fun _ h => absurd h List.not_mem_nil⟩

theorem convert_unsigned {mode : Nat} (hmode : mode ≤ 4) (w x : Nat) :
    ∀ p ∈ [(7, 32), (9, 64)], Whole fmtFP32 mode (x % 2 ^ p.2 : Nat) (convert p.1 mode w x) := by
  simp only [List.forall_mem_cons]
  exact ⟨whole_fencode wide_fp32 hmode _, whole_fencode wide_fp32 hmode _, fun _ h => absurd h List.not_mem_nil⟩

theorem convert_toWhole (mode w x : Nat) :
    ∀ p ∈ [(10, -(2 ^ 31), 2 ^ 31 - 1), (11, 0, 2 ^ 32 - 1), (12, -(2 ^ 63), 2 ^ 63 - 1), (13, (0 : Int), (2 ^ 64 - 1 : Int))],
      ToWhole fmtFP32 mode (x % 2 ^ 32) w p.2.1 p.2.2 (convert p.1 mode w x) := by
  simp only [List.forall_mem_cons]
  exact ⟨toWhole_toIntRange fmtFP32 mode _ w (by decide), toWhole_toIntRange fmtFP32 mode _ w (by decide),
    toWhole_toIntRange fmtFP32 mode _ w (by decide), toWhole_toIntRange fmtFP32 mode _ w (by decide), fun _ h => absurd h List.not_mem_nil⟩

theorem convert_narrow (mode w x : Nat) : convert 16 mode w x = (toBits w (clampInt (-128) 127 (BitVec.ofNat 32 x).toInt), 0)
    ∧ convert 17 mode w x = (toBits w (clampInt (-(2 ^ 31)) (2 ^ 31 - 1) (BitVec.ofNat 64 x).toInt), 0) := by
  rw [← saturate_eq (by decide), ← saturate_eq (by decide)]
  exact ⟨rfl, rfl⟩

end Sys2Proof.Machine
end

section
/-! SUPPORT. DX elements (04 R81, R82, R84): the value of a code, and what VTBDEC makes of a block's elements (06 R140, R141). -/
namespace Sys2Proof.Machine

/-! ### The value of a code, by its format's number -/

def dxFmt (dx8 : Bool) : Nat := if dx8 then 4 else 5

/-- The magnitude, sign and exponent of a code with its selector, as the statements read them from a descriptor. -/
def dxCodeUnit (fmt : Nat) (E : Int) : Int := if fmt = 4 then E - 9 else E - 2
def dxCodeMag (fmt c : Nat) : Nat :=
  if fmt = 4 then (if c / 8 % 8 = 0 then c % 8 else (8 + c % 8) * 2 ^ (c / 8 % 8 - 1)) else if c % 4 = 0 then 0 else 2 ^ (c % 4 - 1)
def dxCodeExp (fmt : Nat) (desc : Nat) (c : Nat) : Int :=
  desc / 256 % 256 - 127 - if c / (if fmt = 4 then 128 else 8) % 2 = 1 then (desc % 16 : Nat) + 1 else 0
def dxCodeNeg (fmt c : Nat) : Bool := c / (if fmt = 4 then 64 else 4) % 2 == 1

theorem dxCodeMag_eq (dx8 : Bool) (c : Nat) : dxCodeMag (dxFmt dx8) c = dxMag dx8 (c % dxSign dx8) := by
  cases dx8
  · rfl
  · have h1 : c % 64 / 8 = c / 8 % 8 := by omega
    have h2 : c % 64 % 8 = c % 8 := by omega
    simp [dxCodeMag, dxFmt, dxMag, dxSign, h1]

theorem dxCodeUnit_eq (dx8 : Bool) (E : Int) : dxCodeUnit (dxFmt dx8) E = E - dxUnit dx8 := by cases dx8 <;> rfl

theorem dxCodeNeg_eq (dx8 : Bool) (c : Nat) : dxCodeNeg (dxFmt dx8) c = decide (c / dxSign dx8 % 2 = 1) := by
  cases dx8 <;> exact Bool.eq_iff_iff.mpr (beq_iff_eq.trans decide_eq_true_iff.symm)

theorem dxCodeExp_eq (dx8 : Bool) (desc c : Nat) : dxCodeExp (dxFmt dx8) desc c
    = if c / dxSel dx8 % 2 = 1 then ((desc / 256 % 256 : Nat) : Int) - 127 - (desc % 16 : Nat) - 1 else ((desc / 256 % 256 : Nat) : Int) - 127 := by
  have hsel : (if dxFmt dx8 = 4 then 128 else 8) = dxSel dx8 := by cases dx8 <;> rfl
  rw [dxCodeExp, hsel]
  split <;> omega

/-- A descriptor's fields stand in its low 16 bits. -/
theorem dxCodeExp_mod (fmt desc c : Nat) : dxCodeExp fmt (desc % 2 ^ 16) c = dxCodeExp fmt desc c := by
  unfold dxCodeExp
  rw [show desc % 2 ^ 16 % 16 = desc % 16 by omega]
  congr 2
  omega

theorem dxExps_nan {d : Desc} (h : d.toNat / 256 = 255) : dxExps d = none := by simp [dxExps, h]

theorem dxExps_some {d : Desc} (h : d.toNat / 256 ≠ 255) :
    dxExps d = some (((d.toNat / 256 : Nat) : Int) - 127, ((d.toNat / 256 : Nat) : Int) - 127 - (d.toNat % 16 : Nat) - 1) := by
  simp only [dxExps, if_neg h]

theorem scale_mod (d : Desc) : d.toNat / 256 % 256 = d.toNat / 256 := by
  have : d.toNat < 2 ^ 16 := d.isLt
  omega

theorem dxValue_nan (dx8 : Bool) {d : Desc} (c : Nat) (h : d.toNat / 256 = 255) : dxValue dx8 d c = .nan false := by
  rw [dxValue, dxExps_nan h]

theorem dxValue_fin (dx8 : Bool) {d : Desc} (c : Nat) (h : d.toNat / 256 ≠ 255) : dxValue dx8 d c
    = .fin (dxCodeNeg (dxFmt dx8) c) (dxCodeMag (dxFmt dx8) c) (dxCodeUnit (dxFmt dx8) (dxCodeExp (dxFmt dx8) d.toNat c)) := by
  rw [dxValue, dxExps_some h, dxCodeNeg_eq, dxCodeMag_eq, dxCodeUnit_eq, dxCodeExp_eq, scale_mod d]

/-! ### A code's value in a format -/

/-- r is the value of a DX element in a format. -/
def DxTo (dst : FFmt) (mode fmt desc e : Nat) (r : Nat × FFlags) : Prop :=
  (desc / 256 % 256 = 255 → r = ((2 ^ dst.eb - 1) * 2 ^ dst.fb + 2 ^ (dst.fb - 1), 0))
  ∧ (desc / 256 % 256 ≠ 255 → if dxCodeMag fmt e = 0 then r = (dst.withSign (dxCodeNeg fmt e) 0, 0)
      else RoundsRatio dst mode (dxCodeNeg fmt e) (dxCodeMag fmt e) 1 (dxCodeUnit fmt (dxCodeExp fmt desc e)) r)

theorem dxTo_fencode {dst : FFmt} {mode : Nat} (hd : dst.Wide) (hmode : mode ≤ 4) (dx8 : Bool) (d : Desc) (c : Nat) :
    DxTo dst mode (dxFmt dx8) d.toNat c (fencode dst mode (dxValue dx8 d c)) := by
  unfold DxTo
  rw [scale_mod d]
  refine ⟨fun h => by rw [dxValue_nan dx8 c h]; rfl, fun h => ?_⟩
  rw [dxValue_fin dx8 c h]
  split
  case isTrue h0 => rw [h0, fencode_zero]
  case isFalse h0 => exact fencode_rounds_exact hd hmode h0 rfl

/-- The descriptor in a word. -/
theorem DxTo.of_mod {dst : FFmt} {mode fmt desc e : Nat} {r : Nat × FFlags} (h : DxTo dst mode fmt (desc % 2 ^ 16) e r) :
    DxTo dst mode fmt desc e r := by
  unfold DxTo at h ⊢
  rwa [dxCodeExp_mod, show desc % 2 ^ 16 / 256 % 256 = desc / 256 % 256 by omega] at h

/-! ### The elements that VTBDEC decodes -/

theorem laneFmt_wide (w : Width) : (laneFmt w).Wide := by
  unfold laneFmt
  split
  · exact wide_bf16
  · exact wide_fp32

theorem decodeElems_beyond {sl : Slot} {w : Width} {blk : Vec} {x : Word} {j : Nat}
    (h : 512 / fmtBits (x.toNat / 16 % 16) ≤ x.toNat / 2 ^ 16 % 512 + j) : decodeElems sl w blk x j = (0, 0) := by
  rw [decodeElems, blockElems]
  exact if_neg (Nat.not_lt.mpr h)

section
variable {sl : Slot} {w : Width} {blk : Vec} {x : Word} {j fmt : Nat}
  (hi : x.toNat / 2 ^ 16 % 512 + j < 512 / fmtBits fmt) (hfmt : x.toNat / 16 % 16 = fmt)
include hi hfmt

/-- An element of the block, encoded in the lane's format. -/
theorem decodeElems_plain (h4 : fmt ≠ 4) (h5 : fmt ≠ 5) : decodeElems sl w blk x j = fencode (laneFmt w) sl.frm.toNat
    (elementValue fmt (x.setWidth 16) (element blk fmt (x.toNat / 2 ^ 16 % 512 + j))) := by
  subst hfmt
  simp only [decodeElems, blockElems, if_pos hi, h4, h5, decide_false, Bool.or_self]
  cases dxExps (x.setWidth 16) <;> rfl

theorem decodeElems_dx (dx8 : Bool) (hdx : fmt = dxFmt dx8) : decodeElems sl w blk x j = fencode (laneFmt w) sl.frm.toNat
    (dxValue dx8 (x.setWidth 16) (element blk fmt (x.toNat / 2 ^ 16 % 512 + j))) := by
  subst hfmt
  have hor : (decide (x.toNat / 16 % 16 = 4) || decide (x.toNat / 16 % 16 = 5)) = true := by rw [hdx]; cases dx8 <;> rfl
  have hval : elementValue (x.toNat / 16 % 16) (x.setWidth 16) (element blk (x.toNat / 16 % 16) (x.toNat / 2 ^ 16 % 512 + j))
      = dxValue dx8 (x.setWidth 16) (element blk (x.toNat / 16 % 16) (x.toNat / 2 ^ 16 % 512 + j)) := by rw [hdx]; cases dx8 <;> rfl
  simp only [decodeElems, blockElems, if_pos hi, hor, hval]
  cases hd : dxExps (x.setWidth 16) with
  | none => simp [dxValue, hd, fencode_nan, flagIf]
  | some p => rfl

end
end Sys2Proof.Machine
end

section
/-! SUPPORT. Rounding to a DX code (04 R92 to R94): the code of one exponent, and the nearer of two. -/
namespace Sys2Proof.Machine

/-! ### Magnitudes of codes -/

theorem dxMag_lt_succ (dx8 : Bool) : ∀ c, c < dxCodes dx8 → dxMag dx8 c < dxMag dx8 (c + 1) := by
  cases dx8 <;> decide

theorem dxMag_lt (dx8 : Bool) {c d : Nat} (h : c < d) (hd : d ≤ dxCodes dx8) : dxMag dx8 c < dxMag dx8 d := by
  induction d, h using Nat.le_induction with
  | base => exact dxMag_lt_succ dx8 c (by omega)
  | succ d hcd ih => exact (ih (by omega)).trans (dxMag_lt_succ dx8 d (by omega))

theorem dxMag_zero (dx8 : Bool) : dxMag dx8 0 = 0 := by cases dx8 <;> rfl

/-- A count of parts, in parts of a lower exponent. -/
theorem lower_parts (m : Nat) {e lo : Int} (h : lo ≤ e) : ((m * 2 ^ (e - lo).toNat : Nat) : ℝ) * 2 ^ lo = m * 2 ^ e := by
  rw [two_zpow_split h]
  push_cast
  ring

theorem magGe_iff (m : Nat) (e : Int) (k : Nat) (u : Int) : magGe m e k u = true ↔ (k : ℝ) * 2 ^ u ≤ m * 2 ^ e := by
  rw [← lower_parts m (min_le_left e u), ← lower_parts k (min_le_right e u), mul_le_mul_iff_left₀ (two_zpow_pos _), Nat.cast_le, magGe]
  exact decide_eq_true_iff

/-- The value of a code without its sign, in the unit of its exponent. -/
noncomputable def dxVal (dx8 : Bool) (u : Int) (c : Nat) : ℝ := dxMag dx8 c * 2 ^ u

theorem dxVal_lt (dx8 : Bool) (u : Int) {c d : Nat} (h : c < d) (hd : d ≤ dxCodes dx8) : dxVal dx8 u c < dxVal dx8 u d := by
  have : (dxMag dx8 c : ℝ) < dxMag dx8 d := by exact_mod_cast dxMag_lt dx8 h hd
  exact mul_lt_mul_of_pos_right this (two_zpow_pos u)

theorem dxVal_le (dx8 : Bool) (u : Int) {c d : Nat} (h : c ≤ d) (hd : d ≤ dxCodes dx8) : dxVal dx8 u c ≤ dxVal dx8 u d := by
  rcases Nat.lt_or_eq_of_le h with h | rfl
  · exact (dxVal_lt dx8 u h hd).le
  · exact le_rfl

/-! ### The code of one exponent -/

/-- The greatest code that does not exceed a magnitude. -/
theorem dxFloor_spec (dx8 : Bool) (m : Nat) (e u : Int) : ∀ n, dxFloor dx8 m e u n ≤ n ∧ dxVal dx8 u (dxFloor dx8 m e u n) ≤ m * 2 ^ e
    ∧ ∀ d, dxFloor dx8 m e u n < d → d ≤ n → m * 2 ^ e < dxVal dx8 u d
  | 0 => by
    have he := two_zpow_pos e
    refine ⟨le_rfl, ?_, fun d h hd => absurd h (by rw [dxFloor]; omega)⟩
    rw [dxFloor, dxVal, dxMag_zero, Nat.cast_zero, zero_mul]
    positivity
  | n + 1 => by
    rw [dxFloor]
    split
    case isTrue h => exact ⟨le_rfl, (magGe_iff ..).mp h, fun d h hd => absurd h (by omega)⟩
    case isFalse h =>
      obtain ⟨hle, hlo, hhi⟩ := dxFloor_spec dx8 m e u n
      refine ⟨hle.trans (Nat.le_succ n), hlo, fun d hd hdn => ?_⟩
      rcases Nat.lt_or_eq_of_le hdn with hd' | rfl
      · exact hhi d hd (by omega)
      · exact not_le.mp fun hle => h ((magGe_iff ..).mpr hle)

/-- r is the code that a magnitude x is rounded to in units of 2^u, and whether it was saturated (R93). -/
structure DxRounds (dx8 : Bool) (mode : Nat) (neg : Bool) (x : ℝ) (u : Int) (r : Nat × Bool) : Prop where
  le   : r.1 ≤ dxCodes dx8
  near : RoundsNear mode → ∀ c, c ≤ dxCodes dx8 → |dxVal dx8 u r.1 - x| ≤ |dxVal dx8 u c - x|
  tie  : mode = 0 → ∀ c, c ≤ dxCodes dx8 → c ≠ r.1 → |dxVal dx8 u c - x| = |dxVal dx8 u r.1 - x| → r.1 % 2 = 0
  up   : RoundsUp mode neg → x ≤ dxVal dx8 u r.1 ∨ r.1 = dxCodes dx8
  down : RoundsDown mode neg → dxVal dx8 u r.1 ≤ x
  sat  : r.2 = true ↔ r.1 = dxCodes dx8 ∧ dxVal dx8 u r.1 < x

section
variable {dx8 : Bool} {x : ℝ} {u : Int} {c : Nat} (mode : Nat) (neg : Bool)

/-- A magnitude that is a code's. -/
theorem DxRounds.exact (hc : c ≤ dxCodes dx8) (hx : x = dxVal dx8 u c) : DxRounds dx8 mode neg x u (c, false) where
  le := hc
  near _ d _ := by
    rw [hx, sub_self, abs_zero]
    exact abs_nonneg _
  tie _ d hd hne h := by
    rw [hx, sub_self, abs_zero, abs_eq_zero, sub_eq_zero] at h
    rcases Nat.lt_or_gt_of_ne hne with hlt | hlt
    · exact absurd h (dxVal_lt dx8 u hlt hc).ne
    · exact absurd h (dxVal_lt dx8 u hlt hd).ne'
  up _ := .inl hx.le
  down _ := hx.ge
  sat := iff_of_false Bool.false_ne_true fun h => lt_irrefl _ (lt_of_lt_of_eq h.2 hx)

/-- A magnitude beyond the greatest code's. -/
theorem DxRounds.saturated (hx : dxVal dx8 u (dxCodes dx8) < x) : DxRounds dx8 mode neg x u (dxCodes dx8, true) where
  le := le_rfl
  near _ d hd := by
    have := dxVal_le dx8 u hd le_rfl
    rw [abs_of_neg (by linarith), abs_of_neg (by linarith)]
    linarith
  tie _ d hd hne h := by
    have := dxVal_lt dx8 u (lt_of_le_of_ne hd hne) le_rfl
    rw [abs_of_neg (by linarith), abs_of_neg (by linarith)] at h
    linarith
  up _ := .inr rfl
  down _ := hx.le
  sat := iff_of_true rfl ⟨rfl, hx⟩

/-- Every code lies on one side of a magnitude between two that follow each other. -/
theorem dxVal_side (hc : c < dxCodes dx8) (d : Nat) (hd : d ≤ dxCodes dx8) :
    (d ≤ c ∧ dxVal dx8 u d ≤ dxVal dx8 u c ∧ (d ≠ c → dxVal dx8 u d < dxVal dx8 u c))
    ∨ (c + 1 ≤ d ∧ dxVal dx8 u (c + 1) ≤ dxVal dx8 u d ∧ (d ≠ c + 1 → dxVal dx8 u (c + 1) < dxVal dx8 u d)) := by
  rcases Nat.lt_or_ge c d with h | h
  · exact .inr ⟨h, dxVal_le dx8 u h hd, fun hne => dxVal_lt dx8 u (by omega) hd⟩
  · exact .inl ⟨h, dxVal_le dx8 u h hc.le, fun hne => dxVal_lt dx8 u (by omega) hc.le⟩

section
variable (hc : c < dxCodes dx8) (hlo : dxVal dx8 u c < x) (hhi : x < dxVal dx8 u (c + 1))
include hc hlo hhi

theorem DxRounds.lower (hn : RoundsNear mode → 2 * x ≤ dxVal dx8 u c + dxVal dx8 u (c + 1)) (hu : ¬RoundsUp mode neg)
    (ht : mode = 0 → 2 * x = dxVal dx8 u c + dxVal dx8 u (c + 1) → c % 2 = 0) : DxRounds dx8 mode neg x u (c, false) where
  le := hc.le
  near h d hd := by
    have := hn h
    rw [abs_of_neg (by linarith)]
    rcases dxVal_side (u := u) hc d hd with ⟨_, h1, _⟩ | ⟨_, h1, _⟩
    · rw [abs_of_neg (by linarith)]
      linarith
    · rw [abs_of_pos (by linarith)]
      linarith
  tie h d hd hne heq := by
    have := hn (.inl h)
    rw [abs_of_neg (by linarith : dxVal dx8 u c - x < 0)] at heq
    rcases dxVal_side (u := u) hc d hd with ⟨_, _, h1⟩ | ⟨_, h1, _⟩
    · have := h1 hne
      rw [abs_of_neg (by linarith)] at heq
      linarith
    · rw [abs_of_pos (by linarith)] at heq
      exact ht h (by linarith)
  up h := absurd h hu
  down _ := hlo.le
  sat := iff_of_false Bool.false_ne_true fun h => hc.ne h.1

theorem DxRounds.upper (hn : RoundsNear mode → dxVal dx8 u c + dxVal dx8 u (c + 1) ≤ 2 * x) (hd : ¬RoundsDown mode neg)
    (ht : mode = 0 → 2 * x = dxVal dx8 u c + dxVal dx8 u (c + 1) → (c + 1) % 2 = 0) : DxRounds dx8 mode neg x u (c + 1, false) where
  le := hc
  near h d hd := by
    have := hn h
    rw [abs_of_pos (by linarith)]
    rcases dxVal_side (u := u) hc d hd with ⟨_, h1, _⟩ | ⟨_, h1, _⟩
    · rw [abs_of_neg (by linarith)]
      linarith
    · rw [abs_of_pos (by linarith)]
      linarith
  tie h d hd hne heq := by
    have := hn (.inl h)
    rw [abs_of_pos (by linarith : 0 < dxVal dx8 u (c + 1) - x)] at heq
    rcases dxVal_side (u := u) hc d hd with ⟨_, h1, _⟩ | ⟨_, _, h1⟩
    · rw [abs_of_neg (by linarith)] at heq
      exact ht h (by linarith)
    · have := h1 hne
      rw [abs_of_pos (by linarith)] at heq
      linarith
  up _ := .inl hhi.le
  down h := absurd h hd
  sat := iff_of_false Bool.false_ne_true fun h => by linarith [h.2]

end

/-- The choice between two codes that follow each other, as the model makes it of parts x, a and b. -/
def dxUp (mode : Nat) (neg : Bool) (x a b c : Nat) : Bool :=
  match mode with
  | 0 => 2 * x > a + b || (2 * x = a + b && c % 2 = 1)
  | 1 => false
  | 2 => neg
  | 3 => !neg
  | _ => 2 * x ≥ a + b

theorem dxUp_rounds {mode : Nat} (hmode : mode ≤ 4) {p : ℝ} (hp : 0 < p) {X A B : Nat} (hX : X * p = x) (hA : A * p = dxVal dx8 u c)
    (hB : B * p = dxVal dx8 u (c + 1)) (hc : c < dxCodes dx8) (hlo : dxVal dx8 u c < x) (hhi : x < dxVal dx8 u (c + 1)) :
    DxRounds dx8 mode neg x u (if dxUp mode neg X A B c then c + 1 else c, false) := by
  have hlt : A + B < 2 * X ↔ dxVal dx8 u c + dxVal dx8 u (c + 1) < 2 * x := by
    rw [← hX, ← hA, ← hB, ← add_mul, ← mul_assoc, mul_lt_mul_iff_left₀ hp]
    exact_mod_cast Iff.rfl
  have hle : A + B ≤ 2 * X ↔ dxVal dx8 u c + dxVal dx8 u (c + 1) ≤ 2 * x := by
    rw [← hX, ← hA, ← hB, ← add_mul, ← mul_assoc, mul_le_mul_iff_left₀ hp]
    exact_mod_cast Iff.rfl
  split
  case isTrue h =>
    refine .upper mode neg hc hlo hhi (fun hn => ?_) (fun hd => ?_) (fun hm ht => ?_)
    · rw [← hle]
      rcases hn with rfl | rfl
      · simp only [dxUp, Bool.or_eq_true, Bool.and_eq_true, decide_eq_true_eq] at h
        omega
      · simpa [dxUp] using h
    · rcases hd with rfl | ⟨rfl, rfl⟩ | ⟨rfl, rfl⟩ <;> simp [dxUp] at h
    · subst hm
      simp only [dxUp, Bool.or_eq_true, Bool.and_eq_true, decide_eq_true_eq, gt_iff_lt] at h
      rcases h with h | ⟨_, h⟩
      · linarith [hlt.mp h]
      · omega
  case isFalse h =>
    refine .lower mode neg hc hlo hhi (fun hn => ?_) (fun hu => ?_) (fun hm ht => ?_)
    · rw [← not_lt, ← hlt]
      rcases hn with rfl | rfl
      · simp only [dxUp, Bool.or_eq_true, Bool.and_eq_true, decide_eq_true_eq] at h
        omega
      · simp only [dxUp, ge_iff_le, decide_eq_true_eq] at h
        omega
    · rcases hu with ⟨rfl, rfl⟩ | ⟨rfl, rfl⟩ <;> simp [dxUp] at h
    · subst hm
      have h1 : ¬A + B < 2 * X := fun h' => by linarith [hlt.mp h']
      have h2 : A + B ≤ 2 * X := hle.mpr ht.ge
      simp only [dxUp, Bool.or_eq_true, Bool.and_eq_true, decide_eq_true_eq] at h
      omega

theorem roundDX_rounds {mode : Nat} (hmode : mode ≤ 4) (dx8 neg : Bool) (m : Nat) (e E : Int) :
    DxRounds dx8 mode neg (m * 2 ^ e) (E - dxUnit dx8) (roundDX dx8 mode neg m e E) := by
  obtain ⟨hle, hlo, hhi⟩ := dxFloor_spec dx8 m e (E - dxUnit dx8) (dxCodes dx8)
  have hX := lower_parts m (min_le_left e (E - dxUnit dx8))
  have hV (c : Nat) : ((dxMag dx8 c * 2 ^ (E - dxUnit dx8 - min e (E - dxUnit dx8)).toNat : Nat) : ℝ) * 2 ^ min e (E - dxUnit dx8)
      = dxVal dx8 (E - dxUnit dx8) c := lower_parts (dxMag dx8 c) (min_le_right e (E - dxUnit dx8))
  have hp := two_zpow_pos (min e (E - dxUnit dx8))
  unfold roundDX
  dsimp only
  generalize dxFloor dx8 m e (E - dxUnit dx8) (dxCodes dx8) = c at *
  generalize m * 2 ^ (e - min e (E - dxUnit dx8)).toNat = X at *
  split
  case isTrue h => exact .exact mode neg hle (by rw [← hX, h, hV])
  case isFalse h =>
    have hlt : dxVal dx8 (E - dxUnit dx8) c < m * 2 ^ e := by
      refine lt_of_le_of_ne hlo fun heq => h ?_
      rw [← hX, ← hV, mul_left_inj' hp.ne'] at heq
      exact_mod_cast heq.symm
    split
    case isTrue ht =>
      rw [ht] at hlt
      exact .saturated mode neg hlt
    case isFalse ht =>
      have hc : c < dxCodes dx8 := lt_of_le_of_ne hle ht
      exact dxUp_rounds neg hmode hp hX (hV c) (hV (c + 1)) hc hlt (hhi (c + 1) (Nat.lt_succ_self c) hc)

end
end Sys2Proof.Machine
end

section
/-! SUPPORT. The nearer of a DX element's two codes, with its flags (04 R93), and what VTBENC makes of a value (06 R142). -/
namespace Sys2Proof.Machine

/-! ### The parts of a code -/

/-- The exponent that a code selects, and its value without the sign. -/
def dxSelected (dx8 : Bool) (hi : Int) (gap k : Nat) : Int := if k / dxSel dx8 % 2 = 1 then hi - gap - 1 else hi
noncomputable def dxCodeVal (dx8 : Bool) (hi : Int) (gap k : Nat) : ℝ :=
  dxVal dx8 (dxSelected dx8 hi gap k - dxUnit dx8) (k % dxSign dx8)

/-- A code put together from its magnitude, selector and sign. -/
def dxJoin (dx8 : Bool) (c : Nat) (low neg : Bool) : Nat := (if low then c + dxSel dx8 else c) + if neg then dxSign dx8 else 0

theorem dxSign_eq (dx8 : Bool) : dxSign dx8 = dxCodes dx8 + 1 := by cases dx8 <;> rfl

theorem mod_dxSign_le (dx8 : Bool) (k : Nat) : k % dxSign dx8 ≤ dxCodes dx8 := by
  have := dxSign_eq dx8
  have := Nat.mod_lt k (show 0 < dxSign dx8 by omega)
  omega

section
variable {dx8 : Bool} {c : Nat} (low neg : Bool)

theorem dxJoin_parts (hc : c ≤ dxCodes dx8) : dxJoin dx8 c low neg < 4 * dxSign dx8 ∧ dxJoin dx8 c low neg % dxSign dx8 = c
    ∧ (dxJoin dx8 c low neg / dxSign dx8 % 2 = if neg then 1 else 0) ∧ (dxJoin dx8 c low neg / dxSel dx8 = if low then 1 else 0)
    ∧ dxJoin dx8 c low neg % 2 = c % 2 := by
  unfold dxJoin dxCodes dxSign dxSel at *
  cases dx8 <;> cases low <;> cases neg <;> simp only [Bool.false_eq_true, if_true, if_false] at * <;> omega

theorem dxCodeVal_join (hc : c ≤ dxCodes dx8) (hi : Int) (gap : Nat) : dxCodeVal dx8 hi gap (dxJoin dx8 c low neg)
    = dxVal dx8 ((if low then hi - gap - 1 else hi) - dxUnit dx8) c := by
  obtain ⟨-, hmod, -, hsel, -⟩ := dxJoin_parts low neg hc
  rw [dxCodeVal, dxSelected, hmod, hsel]
  cases low <;> rfl

/-- A code of the same parts is the same. -/
theorem eq_dxJoin {k : Nat} (hc : c ≤ dxCodes dx8) (hk : k < 4 * dxSign dx8) (hmod : k % dxSign dx8 = c)
    (hneg : k / dxSign dx8 % 2 = if neg then 1 else 0) (hsel : k / dxSel dx8 = if low then 1 else 0) : k = dxJoin dx8 c low neg := by
  unfold dxJoin dxCodes dxSign dxSel at *
  cases dx8 <;> cases low <;> cases neg <;> simp only [Bool.false_eq_true, if_true, if_false] at * <;> omega

end

/-! ### The nearer of two codes -/

/-- The distance of two counts of parts, counted in lower parts. -/
theorem natAbs_parts (k m : Nat) {u e lo : Int} (hu : lo ≤ u) (he : lo ≤ e) :
    ((((k * 2 ^ (u - lo).toNat : Nat) - (m * 2 ^ (e - lo).toNat : Nat) : Int).natAbs : Nat) : ℝ) * 2 ^ lo = |(k : ℝ) * 2 ^ u - m * 2 ^ e| := by
  rw [← lower_parts k hu, ← lower_parts m he, ← sub_mul, abs_mul, abs_of_pos (two_zpow_pos lo), Nat.cast_natAbs]
  push_cast
  rfl

theorem dxError_eq (dx8 : Bool) (c m : Nat) {u e lo : Int} (hu : lo ≤ u) (he : lo ≤ e) :
    (dxError dx8 c u m e lo : ℝ) * 2 ^ lo = |dxVal dx8 u c - m * 2 ^ e| := natAbs_parts (dxMag dx8 c) m hu he

/-- r is the code of a magnitude x and a sign under a descriptor's exponents, with its flags (R93). -/
structure DxEncodes (dx8 : Bool) (mode : Nat) (hi : Int) (gap : Nat) (neg : Bool) (x : ℝ) (r : Nat × FFlags) : Prop where
  lt    : r.1 < 4 * dxSign dx8
  sign  : r.1 / dxSign dx8 % 2 = if neg then 1 else 0
  near  : RoundsNear mode → ∀ k, |dxCodeVal dx8 hi gap r.1 - x| ≤ |dxCodeVal dx8 hi gap k - x|
  tie   : mode = 0 → ∀ k, k < 4 * dxSign dx8 → k / dxSign dx8 % 2 = (if neg then 1 else 0) → k ≠ r.1 →
            |dxCodeVal dx8 hi gap k - x| = |dxCodeVal dx8 hi gap r.1 - x| →
            if k / dxSel dx8 = r.1 / dxSel dx8 then r.1 % 2 = 0 else r.1 < dxSel dx8
  up    : RoundsUp mode neg → x ≤ dxCodeVal dx8 hi gap r.1 ∨ r.1 % dxSign dx8 = dxCodes dx8
  down  : RoundsDown mode neg → dxCodeVal dx8 hi gap r.1 ≤ x
  flags : ∃ nx of : Bool, r.2 = flagIf nx flagNX ||| flagIf of flagOF ∧ (nx = true ↔ dxCodeVal dx8 hi gap r.1 ≠ x)
            ∧ (of = true ↔ r.1 % dxSign dx8 = dxCodes dx8 ∧ dxCodeVal dx8 hi gap r.1 < x)

/-- The code of one exponent, where no code of the other is nearer. -/
theorem DxRounds.encodes {dx8 : Bool} {mode : Nat} {hi : Int} {gap : Nat} {neg low sat nx : Bool} {x : ℝ} {c : Nat}
    (h : DxRounds dx8 mode neg x ((if low then hi - gap - 1 else hi) - dxUnit dx8) (c, sat))
    (hnx : nx = true ↔ dxVal dx8 ((if low then hi - gap - 1 else hi) - dxUnit dx8) c ≠ x)
    (hother : RoundsNear mode → ∀ d, d ≤ dxCodes dx8 →
      if low then |dxVal dx8 ((if low then hi - gap - 1 else hi) - dxUnit dx8) c - x| < |dxVal dx8 (hi - dxUnit dx8) d - x|
      else |dxVal dx8 ((if low then hi - gap - 1 else hi) - dxUnit dx8) c - x| ≤ |dxVal dx8 (hi - gap - 1 - dxUnit dx8) d - x|) :
    DxEncodes dx8 mode hi gap neg x (dxJoin dx8 c low neg, flagIf nx flagNX ||| flagIf sat flagOF) := by
  have hc : c ≤ dxCodes dx8 := h.le
  obtain ⟨hlt, hmod, hneg, hsel, hpar⟩ := dxJoin_parts low neg hc
  have hval := dxCodeVal_join low neg hc hi gap
  constructor
  case lt => exact hlt
  case sign => exact hneg
  case near =>
    intro hn k
    rw [hval, dxCodeVal, dxSelected]
    have h1 := h.near hn _ (mod_dxSign_le dx8 k)
    have h2 := hother hn _ (mod_dxSign_le dx8 k)
    cases low <;> simp only [Bool.false_eq_true, if_true, if_false] at h1 h2 ⊢ <;> split
    · exact h2
    · exact h1
    · exact h1
    · exact h2.le
  case tie =>
    intro hm k hk hkneg hne heq
    rw [hval, dxCodeVal, dxSelected] at heq
    have h1 := h.tie hm _ (mod_dxSign_le dx8 k)
    have h2 := hother (.inl hm) _ (mod_dxSign_le dx8 k)
    rw [hsel, hpar]
    by_cases hs : k / dxSel dx8 = if low then 1 else 0
    · rw [if_pos hs]
      refine h1 (fun hc' => hne (eq_dxJoin low neg hc hk hc' hkneg hs)) ?_
      rw [hs] at heq
      cases low <;> exact heq
    · rw [if_neg hs]
      have hlt2 : k / dxSel dx8 < 2 := by
        rw [Nat.div_lt_iff_lt_mul (by cases dx8 <;> decide)]
        cases dx8 <;> exact hk
      cases low
      · exact Nat.lt_of_div_eq_zero (by cases dx8 <;> decide) hsel
      · have hz : ¬k / dxSel dx8 % 2 = 1 := by
          simp only [if_true] at hs
          generalize k / dxSel dx8 = q at *
          omega
        rw [if_neg hz] at heq
        exact absurd heq (h2 : _ < _).ne'
  case up =>
    intro hu
    rw [hval, hmod]
    exact h.up hu
  case down =>
    intro hd
    rw [hval]
    exact h.down hd
  case flags =>
    rw [hval, hmod]
    exact ⟨nx, sat, rfl, hnx, h.sat⟩

theorem dxEncode_encodes {mode : Nat} (hmode : mode ≤ 4) (dx8 : Bool) (hi : Int) (gap : Nat) (neg : Bool) (m : Nat) (e : Int) :
    DxEncodes dx8 mode hi gap neg (m * 2 ^ e) (dxEncode dx8 mode hi gap neg m e) := by
  have h0 := roundDX_rounds hmode dx8 neg m e hi
  have h1 := roundDX_rounds hmode dx8 neg m e (hi - gap - 1)
  have hlo : min e (hi - gap - 1 - dxUnit dx8) ≤ hi - dxUnit dx8 := (min_le_right _ _).trans (by omega)
  have he0 := dxError_eq dx8 (roundDX dx8 mode neg m e hi).1 m hlo (min_le_left e _)
  have he1 := dxError_eq dx8 (roundDX dx8 mode neg m e (hi - gap - 1)).1 m (min_le_right e (hi - gap - 1 - dxUnit dx8)) (min_le_left e _)
  have hp := two_zpow_pos (min e (hi - gap - 1 - dxUnit dx8))
  unfold dxEncode
  dsimp only
  generalize dxError dx8 (roundDX dx8 mode neg m e hi).1 (hi - dxUnit dx8) m e _ = e0 at *
  generalize dxError dx8 (roundDX dx8 mode neg m e (hi - gap - 1)).1 (hi - gap - 1 - dxUnit dx8) m e _ = e1 at *
  generalize roundDX dx8 mode neg m e hi = r0 at *
  generalize roundDX dx8 mode neg m e (hi - gap - 1) = r1 at *
  have hzero {n : Nat} {y z : ℝ} (h : (n : ℝ) * 2 ^ min e (hi - gap - 1 - dxUnit dx8) = |y - z|) : (n != 0) = true ↔ y ≠ z := by
    rw [bne_iff_ne, ne_eq, ne_eq, not_iff_not, ← sub_eq_zero (a := y), ← abs_eq_zero, ← h, mul_eq_zero, or_iff_left hp.ne', Nat.cast_eq_zero]
  split
  case isTrue hlt =>
    refine DxRounds.encodes (low := true) h1 (hzero he1) fun hn d hd => ?_
    have hlt' : (e1 : ℝ) < e0 := by exact_mod_cast hlt
    have := h0.near hn d hd
    rw [← he0] at this
    simp only [if_true, ← he1]
    nlinarith
  case isFalse hlt =>
    refine DxRounds.encodes (low := false) h0 (hzero he0) fun hn d hd => ?_
    have hle : (e0 : ℝ) ≤ e1 := by exact_mod_cast Nat.le_of_not_lt hlt
    have := h1.near hn d hd
    rw [← he1] at this
    simp only [Bool.false_eq_true, if_false, ← he0]
    nlinarith

end Sys2Proof.Machine
end

section
/-! SUPPORT. The elements that VTBENC encodes (04 R91, R93, 06 R142). -/
namespace Sys2Proof.Machine

theorem encodeElem_bit (mode b : Nat) {src : FFmt} (hw : src.Wide) (desc : Desc) :
    (src.isNan b → encodeElem mode 7 desc (fdecode src b) = (0, flagNV))
    ∧ (¬src.isNan b → encodeElem mode 7 desc (fdecode src b) = (if src.sign b = false ∧ src.mag b ≠ 0 then 1 else 0, 0)) := by
  refine ⟨fun h => by rw [h.decode]; rfl, fun hn => ?_⟩
  rcases src.class b with h | h | h
  · obtain ⟨m, e, hv⟩ := h.decode
    simp only [hv.eq, ne_eq, ← hv.zero_iff]
    cases src.sign b <;> simp [encodeElem, FVal.isNan, FVal.isZero, FVal.isNeg, flagIf]
  · have hm : src.mag b ≠ 0 := fun h0 => by
      have := h.symm.trans (mag_eq_zero_iff.mp h0)
      exact (Nat.zero_le _).not_gt (lt_of_lt_of_eq hw.infBits this)
    rw [h.decode]
    cases src.sign b <;> simp [encodeElem, FVal.isNan, FVal.isZero, FVal.isNeg, flagIf, hm]
  · exact absurd h hn

/-! ### DX codes -/

/-- An integer number of parts of 2^-160. -/
theorem parts160 {k : Nat} {u : Int} (h : -160 ≤ u) : (((k * 2 ^ (u + 160).toNat : Int)) : ℝ) * 2 ^ (-160 : Int) = k * 2 ^ u := by
  have := lower_parts k h
  rw [sub_neg_eq_add] at this
  rw [← this]
  push_cast
  rfl

/-- The exponents that a descriptor gives. -/
theorem dxCodeVal_desc (dx8 : Bool) (d : Desc) (k : Nat) : (dxCodeMag (dxFmt dx8) k : ℝ)
    * 2 ^ dxCodeUnit (dxFmt dx8) (dxCodeExp (dxFmt dx8) d.toNat k) = dxCodeVal dx8 ((d.toNat / 256 : Nat) - 127) (d.toNat % 16) k := by
  rw [dxCodeMag_eq, dxCodeUnit_eq, dxCodeExp_eq, scale_mod, dxCodeVal, dxVal, dxSelected]

theorem dxCodeUnit_ge (dx8 : Bool) (desc k : Nat) : -160 ≤ dxCodeUnit (dxFmt dx8) (dxCodeExp (dxFmt dx8) desc k) := by
  rw [dxCodeUnit_eq, dxCodeExp_eq]
  cases dx8 <;> simp only [dxUnit, Bool.false_eq_true, if_true, if_false] <;> split <;> omega

theorem natAbs_sub_le_iff {v w x : Int} {V W X p : ℝ} (hp : 0 < p) (hv : v * p = V) (hw : w * p = W) (hx : x * p = X) :
    (v - x).natAbs ≤ (w - x).natAbs ↔ |V - X| ≤ |W - X| := by
  rw [← hv, ← hw, ← hx, ← sub_mul, ← sub_mul, abs_mul, abs_mul, abs_of_pos hp, mul_le_mul_iff_left₀ hp, ← Nat.cast_le (α := ℝ),
    Nat.cast_natAbs, Nat.cast_natAbs]
  push_cast
  rfl

theorem encodeElem_dx_none (dx8 : Bool) (mode : Nat) {desc : Desc} {v : FVal} (h : (∀ neg m e, v ≠ .fin neg m e) ∨ desc.toNat / 256 = 255) :
    encodeElem mode (dxFmt dx8) desc v = (0, flagNV) := by
  rcases h with h | h
  · cases v with
    | fin neg m e => exact absurd rfl (h neg m e)
    | nan _ => cases dx8 <;> simp [dxFmt, encodeElem]
    | inf _ => cases dx8 <;> simp [dxFmt, encodeElem]
  · cases dx8 <;> simp [dxFmt, encodeElem, dxExps_nan h]

theorem encodeElem_dx_fin (dx8 : Bool) (mode : Nat) {desc : Desc} (neg : Bool) (m : Nat) (e : Int) (h : desc.toNat / 256 ≠ 255) :
    encodeElem mode (dxFmt dx8) desc (.fin neg m e) = dxEncode dx8 mode ((desc.toNat / 256 : Nat) - 127) (desc.toNat % 16) neg m e := by
  cases dx8
  · simp only [dxFmt, encodeElem, dxExps_some h]
    rfl
  · simp only [dxFmt, encodeElem, dxExps_some h]
    rfl

theorem not_fin_of_fdecode {src : FFmt} {b : Nat} (h : ¬src.isFin b) (neg : Bool) (m : Nat) (e : Int) : fdecode src b ≠ .fin neg m e := by
  rcases src.class b with hc | hc | hc
  · exact absurd hc h
  · rw [hc.decode]
    simp
  · rw [hc.decode]
    simp

/-- The code of a finite value, in whole parts of 2^-160 (R93). -/
theorem encodeElem_dx (dx8 : Bool) {src : FFmt} {mode b : Nat} {desc : Desc} (hu : -160 ≤ src.unit) (hmode : mode ≤ 4) (hfin : src.isFin b)
    (hne : desc.toNat / 256 ≠ 255) :
    let fmt := dxFmt dx8
    let r := encodeElem mode fmt desc (fdecode src b)
    let x : Int := src.mag b * 2 ^ (src.unit + 160).toNat
    let v (c : Nat) : Int := dxCodeMag fmt c * 2 ^ (dxCodeUnit fmt (dxCodeExp fmt desc.toNat c) + 160).toNat
    let up : Prop := (mode = 3 ∧ src.sign b = false) ∨ (mode = 2 ∧ src.sign b = true)
    r.1 < 4 * dxSign dx8 ∧ dxCodeNeg fmt r.1 = src.sign b
    ∧ (mode = 0 ∨ mode = 4 → ∀ c', c' < 4 * dxSign dx8 → (v r.1 - x).natAbs ≤ (v c' - x).natAbs)
    ∧ (up → x ≤ v r.1 ∨ r.1 % dxSign dx8 = dxCodes dx8) ∧ (¬up → mode ≠ 0 → mode ≠ 4 → v r.1 ≤ x)
    ∧ ∃ nx of : Bool, r.2 = flagIf nx flagNX ||| flagIf of flagOF ∧ (nx = true ↔ v r.1 ≠ x)
      ∧ (of = true ↔ r.1 % dxSign dx8 = dxCodes dx8 ∧ v r.1 < x) := by
  intro fmt r x v up
  obtain ⟨m, e, hv⟩ := hfin.decode
  have henc : DxEncodes dx8 mode ((desc.toNat / 256 : Nat) - 127) (desc.toNat % 16) (src.sign b) (m * 2 ^ e) r := by
    have hr : r = dxEncode dx8 mode ((desc.toNat / 256 : Nat) - 127) (desc.toNat % 16) (src.sign b) m e := by
      show encodeElem mode (dxFmt dx8) desc (fdecode src b) = _
      rw [hv.eq, encodeElem_dx_fin dx8 mode _ m e hne]
    rw [hr]
    exact dxEncode_encodes hmode dx8 _ _ _ m e
  have hp := two_zpow_pos (-160)
  have hx : (x : ℝ) * 2 ^ (-160 : Int) = m * 2 ^ e := (parts160 hu).trans hv.value.symm
  have hval (k : Nat) : (v k : ℝ) * 2 ^ (-160 : Int) = dxCodeVal dx8 ((desc.toNat / 256 : Nat) - 127) (desc.toNat % 16) k :=
    (parts160 (dxCodeUnit_ge dx8 desc.toNat k)).trans (dxCodeVal_desc dx8 desc k)
  obtain ⟨nx, of, hfl, hnx, hof⟩ := henc.flags
  rw [← hval, ← hx, ne_eq, mul_left_inj' hp.ne', Int.cast_inj] at hnx
  rw [← hval, ← hx, mul_lt_mul_iff_left₀ hp, Int.cast_lt] at hof
  refine ⟨henc.lt, ?_, fun hn k _ => ?_, fun hup => ?_, fun hup h0 h4 => ?_, nx, of, hfl, hnx, hof⟩
  · rw [dxCodeNeg_eq, henc.sign]
    cases src.sign b <;> rfl
  · rw [natAbs_sub_le_iff hp (hval r.1) (hval k) hx]
    exact henc.near hn k
  · have := henc.up hup
    rwa [← hval, ← hx, mul_le_mul_iff_left₀ hp, Int.cast_le] at this
  · have hd : RoundsDown mode (src.sign b) := by
      rcases rounds_cases (src.sign b) hmode with ⟨h, -, -⟩ | ⟨-, h, -⟩ | ⟨-, -, h⟩
      · exact h
      · exact absurd h hup
      · exact absurd h (by rintro (h | h) <;> omega)
    have := henc.down hd
    rwa [← hval, ← hx, mul_le_mul_iff_left₀ hp, Int.cast_le] at this

end Sys2Proof.Machine
end

section
/-! SUPPORT. Values counted in different parts, and the products that a row of the matrix unit adds (04 R95, R96, R98, R100). -/
namespace Sys2Proof.Machine

/-! ### One value in two counts -/

/-- Two values are one: both NaN, an infinity of one sign, or one number and sign. -/
def FVal.Same : FVal → FVal → Prop
  | .nan _, .nan _ => True
  | .inf n, .inf n' => n = n'
  | .fin n m e, .fin n' m' e' => n = n' ∧ (m : ℝ) * 2 ^ e = m' * 2 ^ e'
  | _, _ => False

theorem FVal.Same.symm {v w : FVal} (h : v.Same w) : w.Same v := by
  cases v <;> cases w <;> try exact h.elim
  case nan.nan => trivial
  case inf.inf => exact (show _ = _ from h).symm
  case fin.fin => exact ⟨h.1.symm, h.2.symm⟩

theorem same_fin {n n' : Bool} {m m' : Nat} {e e' : Int} :
    (FVal.fin n m e).Same (.fin n' m' e') ↔ n = n' ∧ (m : ℝ) * 2 ^ e = m' * 2 ^ e' := Iff.rfl

theorem FVal.Same.refl (v : FVal) : v.Same v := by
  cases v
  · trivial
  · exact rfl
  · exact ⟨rfl, rfl⟩

/-- Values that are one have equal signs and are zero together. -/
theorem same_zero {m m' : Nat} {e e' : Int} (h : (m : ℝ) * 2 ^ e = m' * 2 ^ e') : m = 0 ↔ m' = 0 := by
  have h1 : (m : ℝ) * 2 ^ e = 0 ↔ m = 0 := by rw [mul_eq_zero, or_iff_left (two_zpow_pos e).ne', Nat.cast_eq_zero]
  have h2 : (m' : ℝ) * 2 ^ e' = 0 ↔ m' = 0 := by rw [mul_eq_zero, or_iff_left (two_zpow_pos e').ne', Nat.cast_eq_zero]
  rw [← h1, h, h2]

theorem realVal_congr (n : Bool) {m m' : Nat} {e e' : Int} (h : (m : ℝ) * 2 ^ e = m' * 2 ^ e') : realVal n m e = realVal n m' e' := by
  unfold realVal
  cases n <;> simp [h]

/-- roundMag gives one result for one number. -/
theorem roundMag_congr (f : FFmt) (mode : Nat) (neg : Bool) {m m' : Nat} {e e' : Int} (hm : m ≠ 0) (h : (m : ℝ) * 2 ^ e = m' * 2 ^ e') :
    roundMag f mode neg m e = roundMag f mode neg m' e' := by
  have hm' : m' ≠ 0 := fun h0 => hm ((same_zero h).mpr h0)
  rcases le_total e e' with hle | hle
  · rw [eq_mul_two_pow hle h, roundMag_scale f mode neg hm', Int.toNat_of_nonneg (by omega), add_sub_cancel]
  · rw [eq_mul_two_pow hle h.symm, roundMag_scale f mode neg hm, Int.toNat_of_nonneg (by omega), add_sub_cancel]

section
variable {v v' w w' : FVal}

theorem FVal.Same.encode (h : v.Same v') (f : FFmt) (mode : Nat) : (fencode f mode v).1 = (fencode f mode v').1 := by
  cases v <;> cases v' <;> try exact h.elim
  case nan.nan => rfl
  case inf.inf => rw [show _ = _ from h]
  case fin.fin n m e n' m' e' =>
    obtain ⟨rfl, hval⟩ := same_fin.mp h
    by_cases hm : m = 0
    · rw [hm, (same_zero hval).mp hm, fencode_zero, fencode_zero]
    · rw [fencode_fin f mode n e hm, fencode_fin f mode n e' fun h0 => hm ((same_zero hval).mpr h0), roundMag_congr f mode n hm hval]

theorem FVal.Same.isZero (h : v.Same v') : v.isZero = v'.isZero := by
  cases v <;> cases v' <;> try exact h.elim
  case nan.nan => rfl
  case inf.inf => rfl
  case fin.fin n m e n' m' e' =>
    obtain ⟨-, hval⟩ := same_fin.mp h
    have := same_zero hval
    rw [FVal.isZero, FVal.isZero, Bool.eq_iff_iff, beq_iff_eq, beq_iff_eq, this]

theorem FVal.Same.prod (h : v.Same v') (k : w.Same w') : (fprod v w).1.Same (fprod v' w').1 := by
  have hz := h.isZero
  have kz := k.isZero
  cases v <;> cases v' <;> (try exact h.elim) <;> cases w <;> cases w' <;> try exact k.elim
  case fin.fin.fin.fin n m e n' m' e' s p q s' p' q' =>
    obtain ⟨rfl, hval⟩ := same_fin.mp h
    obtain ⟨rfl, kval⟩ := same_fin.mp k
    refine same_fin.mpr ⟨rfl, ?_⟩
    push_cast
    rw [two_zpow_add, two_zpow_add, mul_mul_mul_comm, hval, kval, mul_mul_mul_comm]
  case inf.inf.fin.fin n n' s p q s' p' q' =>
    obtain rfl : n = n' := h
    obtain ⟨rfl, -⟩ := same_fin.mp k
    simp only [fprod, kz]
    split <;> trivial
  case fin.fin.inf.inf s p q s' p' q' n n' =>
    obtain rfl : n = n' := k
    obtain ⟨rfl, -⟩ := same_fin.mp h
    simp only [fprod, hz]
    split <;> trivial
  case inf.inf.inf.inf n n' s s' =>
    obtain rfl : n = n' := h
    obtain rfl : s = s' := k
    rfl
  all_goals trivial

/-- A sum of one value in two counts. -/
theorem ofScaled_same (mode : Nat) {V V' lo lo' : Int} (h : (V : ℝ) * 2 ^ lo = V' * 2 ^ lo') : (ofScaled mode V lo).Same (ofScaled mode V' lo') := by
  have hz : V = 0 ↔ V' = 0 := by
    have h1 : (V : ℝ) * 2 ^ lo = 0 ↔ V = 0 := by rw [mul_eq_zero, or_iff_left (two_zpow_pos lo).ne', Int.cast_eq_zero]
    have h2 : (V' : ℝ) * 2 ^ lo' = 0 ↔ V' = 0 := by rw [mul_eq_zero, or_iff_left (two_zpow_pos lo').ne', Int.cast_eq_zero]
    rw [← h1, h, h2]
  rw [← realVal_natAbs, ← realVal_natAbs] at h
  unfold ofScaled
  by_cases h0 : V = 0
  · rw [if_pos h0, if_pos (hz.mp h0)]
    exact ⟨rfl, by simp⟩
  · have h0' : V' ≠ 0 := fun h' => h0 (hz.mpr h')
    rw [if_neg h0, if_neg h0']
    refine same_fin.mpr ⟨?_, by rw [← abs_realVal, ← abs_realVal (decide (V' < 0)), h]⟩
    have h1 : V < 0 ↔ realVal (decide (V < 0)) V.natAbs lo < 0 := by rw [realVal_neg_iff]; simp [h0]
    have h2 : V' < 0 ↔ realVal (decide (V' < 0)) V'.natAbs lo' < 0 := by rw [realVal_neg_iff]; simp [h0']
    rw [decide_eq_decide, h1, h, ← h2]

theorem FVal.Same.sum (h : v.Same v') (k : w.Same w') (mode : Nat) : (fsum mode v w).1.Same (fsum mode v' w').1 := by
  cases v <;> cases v' <;> (try exact h.elim) <;> cases w <;> cases w' <;> try exact k.elim
  case fin.fin.fin.fin n m e n' m' e' s p q s' p' q' =>
    obtain ⟨rfl, hval⟩ := same_fin.mp h
    obtain ⟨rfl, kval⟩ := same_fin.mp k
    have hz := same_zero hval
    have kz := same_zero kval
    rw [fsum_fin, fsum_fin, decide_eq_decide.mpr hz, decide_eq_decide.mpr kz]
    cases decide (m' = 0) && decide (p' = 0)
    · simp only [Bool.false_eq_true, if_false]
      refine ofScaled_same mode ?_
      rw [scaled_add, scaled_add, realVal_congr n hval, realVal_congr s kval]
    · simp only [if_true]
      exact .refl _
  case inf.inf.fin.fin => exact (h : _ = _)
  case fin.fin.inf.inf => exact (k : _ = _)
  case inf.inf.inf.inf n n' s s' =>
    obtain rfl : n = n' := h
    obtain rfl : s = s' := k
    simp only [fsum]
    split <;> trivial
  all_goals trivial

end

theorem fsum_comm (mode : Nat) (v w : FVal) : fsum mode v w = fsum mode w v := by
  cases v <;> cases w
  case fin.fin n m e s p q =>
    rw [fsum_fin, fsum_fin, Bool.and_comm, min_comm, Int.add_comm]
    congr 3
    by_cases h : n = s
    · simp [h]
    · simp [h, Ne.symm h]
  case inf.inf n s =>
    by_cases h : n = s
    · simp [fsum, h]
    · simp [fsum, h, Ne.symm h]
  all_goals simp [fsum, FVal.isSnan, Bool.or_comm]

/-! ### Narrow formats in FP32 -/

/-- A number of few bits, of a magnitude that a format holds, has an encoding. -/
theorem exists_code {f : FFmt} {m : Nat} {e : Int} (hm : m ≠ 0) (hlt : m < 2 ^ (f.fb + 1)) (he : f.unit ≤ e) :
    ∃ c, codeMag f.fb c = m * 2 ^ (e - f.unit).toNat := by
  have hx : Approx (f.fb + 2) m e (m * 2 ^ e) := .inl rfl
  have hlog : m.log2 < f.fb + 1 := (Nat.log2_lt hm).mpr hlt
  have hul : f.ulp m e ≤ e := max_le (by unfold highBit; omega) he
  have hge : f.unit ≤ f.ulp m e := le_max_right _ _
  obtain ⟨hhi, hlo⟩ := significand_bounds (mode := 0) false hm hx
  refine ⟨f.code 0 false m e, ?_⟩
  rw [FFmt.code, codeMag_binade hhi (hlo.imp_left (by omega)), FFmt.significand, roundAt_of_le 0 false m hul, Nat.mul_assoc, ← pow_add]
  congr 2
  omega

/-- The encoding of a sign and a magnitude, taken apart. -/
theorem withSign_parts (f : FFmt) (neg : Bool) {c : Nat} (hc : c < 2 ^ (f.eb + f.fb)) :
    f.sign (f.withSign neg c) = neg ∧ f.withSign neg c % 2 ^ (f.eb + f.fb) = c := by
  have hp := Nat.two_pow_pos (f.eb + f.fb)
  unfold FFmt.sign FFmt.withSign
  cases neg
  · simp [Nat.div_eq_of_lt hc, Nat.mod_eq_of_lt hc]
  · simp [Nat.add_div_left _ hp, Nat.div_eq_of_lt hc, Nat.mod_eq_of_lt hc]

/-- An encoding that is made exactly is decoded to its value. -/
theorem same_of_fits {f : FFmt} (hf : f.Wide) {mode m c : Nat} (neg : Bool) {e : Int} (hm : m ≠ 0) (hlt : m < 2 ^ (f.fb + 1))
    (he : f.unit ≤ e) (hc : codeMag f.fb c = m * 2 ^ (e - f.unit).toNat) (hfin : c < f.infBits) :
    (fdecode f (fencode f mode (.fin neg m e)).1).Same (.fin neg m e) := by
  have hlt' : c < 2 ^ (f.eb + f.fb) := hfin.trans (infBits_lt f)
  obtain ⟨hsign, hmod⟩ := withSign_parts f neg hlt'
  rw [fencode_fin f mode neg e hm, roundMag_of_fits hf hm hlt he hc hfin]
  have hfc : f.isFin (f.withSign neg c) := by rw [FFmt.isFin, hmod]; exact hfin
  obtain ⟨m', e', hv⟩ := hfc.decode
  rw [hv.eq, hsign]
  refine same_fin.mpr ⟨rfl, ?_⟩
  rw [hv.value, f.mag_eq, hmod, hc, two_zpow_split he]
  push_cast
  ring

/-- The values of a narrower format are FP32 values. -/
theorem fp32_widen {src : FFmt} (hfb : src.fb ≤ 23) (hu : fmtFP32.unit ≤ src.unit)
    (htop : codeMag src.fb src.infBits * 2 ^ (src.unit - fmtFP32.unit).toNat ≤ codeMag 23 fmtFP32.infBits) (b : Nat) :
    (fp32 (fencode fmtFP32 0 (fdecode src b)).1).Same (fdecode src b) := by
  rcases src.class b with h | h | h
  · obtain ⟨m, e, hv⟩ := h.decode
    rw [hv.eq]
    by_cases hm : m = 0
    · have hz (s : Bool) : fp32 (fmtFP32.withSign s 0) = .fin s 0 (-149) := by cases s <;> decide
      rw [hm, fencode_zero, hz]
      exact same_fin.mpr ⟨rfl, by simp⟩
    · have hlt : m < 2 ^ (23 + 1) := hv.lt.trans_le (Nat.pow_le_pow_right (by decide) (by omega))
      have he : fmtFP32.unit ≤ e := hu.trans hv.unit
      obtain ⟨c, hc⟩ := exists_code (f := fmtFP32) hm hlt he
      refine same_of_fits wide_fp32 (src.sign b) hm hlt he hc ?_
      refine (codeMag_strictMono 23).lt_iff_lt.mp (lt_of_lt_of_le ?_ htop)
      have hexp : (e - fmtFP32.unit).toNat = (e - src.unit).toNat + (src.unit - fmtFP32.unit).toNat := by
        have := hv.unit
        omega
      rw [show codeMag 23 c = _ from hc, hexp, pow_add, ← Nat.mul_assoc, hv.mag, src.mag_eq]
      exact (Nat.mul_lt_mul_right (Nat.two_pow_pos _)).mpr (codeMag_strictMono src.fb h)
  · rw [h.decode, fencode_inf]
    cases src.sign b <;> exact (rfl : _ = _)
  · rw [h.decode, fencode_nan, show fp32 fmtFP32.nanBits = .nan false by decide]
    trivial

theorem fp32_of_bf16 (w b : Nat) : (fp32 (convert 2 0 w b).1).Same (fdecode fmtBF16 (b % 2 ^ 16)) :=
  fp32_widen (src := fmtBF16) (by decide) (by decide) (by decide) _

theorem fp32_of_fp16 (w b : Nat) : (fp32 (convert 3 0 w b).1).Same (fdecode fmtFP16 (b % 2 ^ 16)) :=
  fp32_widen (src := fmtFP16) (by decide) (by decide) (by decide) _

/-! ### One product added -/

/-- A product added to an FP32 accumulator is a fused product and sum of FP32 numbers of the same values (R95). -/
theorem macStep_fma {f : Nat} (hf : mmacAcc f = 0) (sat : Bool) (acc : Nat) {p q : Nat} {v w : FVal} (hp : (fp32 p).Same v) (hq : (fp32 q).Same w) :
    macStep f sat acc v w = (fma32 false false 0 p q acc).1 := by
  have hmac : macStep f sat acc v w = (finish32 RNE (fsum RNE (fp32 acc) (fprod v w).1)).1 := by simp [macStep, hf]
  rw [hmac]
  have hsum : (fsum 0 (fp32 acc) (fprod v w).1).1.Same (fsum 0 (fprod (fp32 p) (fp32 q)).1 (fp32 acc)).1 := by
    rw [fsum_comm]
    exact (FVal.Same.sum (hp.prod hq) (.refl _) 0).symm
  exact hsum.encode fmtFP32 0

end Sys2Proof.Machine
end

section
/-! SUPPORT. Rows of products, and the elements that MLOAD decodes (04 R95 to R100, 09 R207, R208, R210). -/
namespace Sys2Proof.Machine

/-! ### XF fields -/

theorem sintOf_toBits {w n : Nat} {v : Int} (hw : 0 < w) (hn : n % 2 ^ w = toBits w v) (hlo : -2 ^ (w - 1) ≤ v) (hhi : v < 2 ^ (w - 1)) :
    sintOf w n = v := by
  have : BitVec.ofNat w n = BitVec.ofInt w v := by
    apply BitVec.eq_of_toNat_eq
    rw [BitVec.toNat_ofNat, hn]
    rfl
  rw [sintOf, this, BitVec.toInt_ofInt_eq_self hw hlo hhi]

/-- An element of the fields' ranges is read as it was written. -/
theorem xfDecode_encode {a : XF} (hm : -2 ^ 47 ≤ a.m ∧ a.m < 2 ^ 47) (he : -2 ^ 15 ≤ a.e ∧ a.e < 2 ^ 15) : xfDecode (xfEncode a) = a := by
  have h1 := toBits_lt 48 a.m
  have h2 := toBits_lt 16 a.e
  rw [xfDecode, xfEncode, sintOf_toBits (by decide) (by omega) hm.1 hm.2, sintOf_toBits (v := a.e) (by decide) (by omega) he.1 he.2]

/-- A number that fits becomes the element of its mantissa and exponent. -/
theorem xfOfVal_fin (neg : Bool) {m : Nat} {e : Int} (hm : m ≤ 2 ^ 47 - 1) (he : -32768 ≤ e) (he' : e ≤ 32767) :
    xfOfVal (.fin neg m e) = if m = 0 then ⟨0, 0⟩ else ⟨if neg then -(m : Int) else m, e⟩ := by
  have h : ∀ v : Int, v.natAbs = m → toXF v e = if m = 0 then ⟨0, 0⟩ else ⟨v, e⟩ := fun v hv => by
    rw [toXF_fits (by omega) he, if_neg (c := 32767 < e) (by omega)]
    exact if_congr (by omega) rfl rfl
  exact h _ (by cases neg <;> simp)

/-- The bits of an XF element are exactly v parts of 2^u. -/
def Exactly (bits : Nat) (v u : Int) : Prop :=
  (xfDecode bits).m ≠ -2 ^ 47 ∧ -200 ≤ (xfDecode bits).e ∧ (xfDecode bits).m * 2 ^ ((xfDecode bits).e + 200).toNat = v * 2 ^ (u + 200).toNat

theorem exactly_xfOfVal (neg : Bool) {m : Nat} {e : Int} (hm : m ≤ 2 ^ 47 - 1) (he : -200 ≤ e) (he' : e ≤ 32767) :
    Exactly (xfEncode (xfOfVal (.fin neg m e))) (if neg then -(m : Int) else m) e := by
  have hv := xfOfVal_fin neg hm (by omega) he'
  rw [Exactly, hv]
  by_cases h0 : m = 0
  · rw [if_pos h0, xfDecode_encode (by decide) (by decide)]
    simp [h0]
  · rw [if_neg h0, xfDecode_encode ⟨by dsimp only; split <;> omega, by dsimp only; split <;> omega⟩ ⟨by dsimp only; omega, by dsimp only; omega⟩]
    exact ⟨by dsimp only; split <;> omega, he, rfl⟩

/-! ### The elements of an MLOAD -/

theorem loadElem_int (fmt : Nat) (d : Desc) (b : Nat) : loadElem 1 fmt d b = toBits 32 (BitVec.ofNat 8 b).toInt := rfl

section
variable {fmt : Nat} {src : FFmt} {d : Desc} {b : Nat} (hval : elementValue fmt d b = fdecode src b)
include hval

theorem loadElem_floating : ∃ fl, Floating src fmtFP32 0 b (loadElem 0 fmt d b, fl) :=
  ⟨(fencode fmtFP32 RNE (fdecode src b)).2, by rw [loadElem, hval]; exact floating_fencode src wide_fp32 (by decide) b⟩

theorem loadElem_exactly (hfb : src.fb < 47) (hu : -200 ≤ src.unit) (htop : src.unit + 2 ^ src.eb ≤ 32767) (h : src.isFin b) :
    Exactly (loadElem 2 fmt d b) (src.units b) src.unit := by
  obtain ⟨m, e, hv⟩ := h.decode
  have hm : m ≤ 2 ^ 47 - 1 := by
    have := hv.lt
    have : 2 ^ (src.fb + 1) ≤ 2 ^ 47 := Nat.pow_le_pow_right (by decide) hfb
    omega
  have hlo := hv.unit
  have hx := exactly_xfOfVal (e := e) (src.sign b) hm (by omega) (by have := hv.exp; omega)
  have hload : loadElem 2 fmt d b = xfEncode (xfOfVal (.fin (src.sign b) m e)) := by rw [loadElem, hval, hv.eq]; rfl
  rw [hload]
  refine ⟨hx.1, hx.2.1, hx.2.2.trans ?_⟩
  have hexp : (e + 200).toNat = (e - src.unit).toNat + (src.unit + 200).toNat := by omega
  rw [FFmt.units, hexp, pow_add, ← mul_assoc, ← hv.mag]
  congr 1
  cases src.sign b <;> simp

theorem loadElem_nan (h : ¬src.isFin b) : loadElem 2 fmt d b = xfEncode ⟨-2 ^ 47, 32767⟩ := by
  have hload : loadElem 2 fmt d b = xfEncode (xfOfVal (fdecode src b)) := by rw [loadElem, hval]; rfl
  rw [hload]
  cases hv : fdecode src b with
  | fin n m e => exact absurd hv (not_fin_of_fdecode h n m e)
  | nan s => rfl
  | inf n => rfl

end

theorem dxCodeMag_le (dx8 : Bool) (c : Nat) : dxCodeMag (dxFmt dx8) c ≤ 15 * 2 ^ 6 := by
  have h : ∀ c, c ≤ dxCodes dx8 → dxMag dx8 c ≤ 15 * 2 ^ 6 := by cases dx8 <;> decide
  rw [dxCodeMag_eq]
  exact h _ (mod_dxSign_le dx8 c)

theorem dxCodeUnit_le (dx8 : Bool) (desc k : Nat) : dxCodeUnit (dxFmt dx8) (dxCodeExp (dxFmt dx8) desc k) ≤ 200 := by
  rw [dxCodeUnit_eq, dxCodeExp_eq]
  cases dx8 <;> simp only [dxUnit, Bool.false_eq_true, if_true, if_false] <;> split <;> omega

theorem elementValue_dx (dx8 : Bool) (d : Desc) (b : Nat) : elementValue (dxFmt dx8) d b = dxValue dx8 d b := by cases dx8 <;> rfl

theorem loadElem_dx (dx8 : Bool) (d : Desc) (b : Nat) : (∃ fl, DxTo fmtFP32 0 (dxFmt dx8) d.toNat b (loadElem 0 (dxFmt dx8) d b, fl))
    ∧ (d.toNat / 256 = 255 → loadElem 2 (dxFmt dx8) d b = xfEncode ⟨-2 ^ 47, 32767⟩)
    ∧ (d.toNat / 256 ≠ 255 → Exactly (loadElem 2 (dxFmt dx8) d b)
        (if dxCodeNeg (dxFmt dx8) b then -(dxCodeMag (dxFmt dx8) b : Int) else dxCodeMag (dxFmt dx8) b)
        (dxCodeUnit (dxFmt dx8) (dxCodeExp (dxFmt dx8) d.toNat b))) := by
  have h0 : loadElem 0 (dxFmt dx8) d b = (fencode fmtFP32 RNE (dxValue dx8 d b)).1 := by rw [loadElem, elementValue_dx]; rfl
  have h2 : loadElem 2 (dxFmt dx8) d b = xfEncode (xfOfVal (dxValue dx8 d b)) := by rw [loadElem, elementValue_dx]; rfl
  refine ⟨⟨(fencode fmtFP32 RNE (dxValue dx8 d b)).2, ?_⟩, fun h => ?_, fun h => ?_⟩
  · rw [h0]
    exact dxTo_fencode wide_fp32 (by decide) dx8 d b
  · rw [h2, dxValue_nan dx8 b h]
    rfl
  · rw [h2, dxValue_fin dx8 b h]
    have h1 := dxCodeMag_le dx8 b
    have h3 := dxCodeUnit_ge dx8 d.toNat b
    have h4 := dxCodeUnit_le dx8 d.toNat b
    exact exactly_xfOfVal _ (by omega) (by omega) (by omega)

/-! ### Rows of products -/

/-- A row of the matrix unit, one product at a time. -/
theorem macRow_of_step {f : Nat} {sat : Bool} {a b : Vec × Desc} {g : Nat → Nat → Nat → Nat} (acc : Nat)
    (h : ∀ acc p q, p < 2 ^ fmtBits (mmacFmt f) → q < 2 ^ fmtBits (mmacFmt f) →
      macStep f sat acc (elementValue (mmacFmt f) a.2 p) (elementValue (mmacFmt f) b.2 q) = g acc p q) :
    macRow f sat a b acc = (List.range (512 / fmtBits (mmacFmt f))).foldl
      (fun acc k => g acc (element a.1 (mmacFmt f) k) (element b.1 (mmacFmt f) k)) acc := by
  unfold macRow
  dsimp only
  congr 1
  funext acc k
  exact h acc _ _ (Nat.mod_lt _ (Nat.two_pow_pos _)) (Nat.mod_lt _ (Nat.two_pow_pos _))

theorem macStep_int (sat : Bool) (d d' : Desc) (acc p q : Nat) : macStep 5 sat acc (elementValue 6 d p) (elementValue 6 d' q)
    = toBits 32 (if sat then clampInt (-(2 ^ 31)) (2 ^ 31 - 1) (sintOf 32 acc + sintOf 8 p * sintOf 8 q)
        else sintOf 32 acc + sintOf 8 p * sintOf 8 q) := by
  have hv (v : Int) : (if decide (v < 0) then -(v.natAbs : Int) else v.natAbs) = v := by
    simp only [decide_eq_true_eq]
    split <;> omega
  have h : macStep 5 sat acc (elementValue 6 d p) (elementValue 6 d' q) = toBits 32 (if sat then saturate (-(2 ^ 31)) (2 ^ 31 - 1)
      (sintOf 32 acc + (if decide (sintOf 8 p < 0) then -((sintOf 8 p).natAbs : Int) else (sintOf 8 p).natAbs)
        * (if decide (sintOf 8 q < 0) then -((sintOf 8 q).natAbs : Int) else (sintOf 8 q).natAbs))
      else (sintOf 32 acc + (if decide (sintOf 8 p < 0) then -((sintOf 8 p).natAbs : Int) else (sintOf 8 p).natAbs)
        * (if decide (sintOf 8 q < 0) then -((sintOf 8 q).natAbs : Int) else (sintOf 8 q).natAbs))) := rfl
  rw [h, hv, hv, saturate_eq (by decide)]

/-- The product of two DX elements as an XF number. -/
theorem xfOfVal_dxProduct (dx8 : Bool) (d d' : Desc) (p q : Nat) : xfOfVal (fprod (dxValue dx8 d p) (dxValue dx8 d' q)).1
    = if d.toNat / 256 = 255 ∨ d'.toNat / 256 = 255 then xfNaN
      else toXF ((if dxCodeNeg (dxFmt dx8) p != dxCodeNeg (dxFmt dx8) q then -1 else 1)
          * (dxCodeMag (dxFmt dx8) p * dxCodeMag (dxFmt dx8) q : Nat))
        (dxCodeUnit (dxFmt dx8) (dxCodeExp (dxFmt dx8) d.toNat p) + dxCodeUnit (dxFmt dx8) (dxCodeExp (dxFmt dx8) d'.toNat q)) := by
  by_cases h : d.toNat / 256 = 255 ∨ d'.toNat / 256 = 255
  · have hn : (dxValue dx8 d p).isNan = true ∨ (dxValue dx8 d' q).isNan = true := by
      rcases h with h | h
      · exact .inl (by rw [dxValue_nan dx8 p h]; rfl)
      · exact .inr (by rw [dxValue_nan dx8 q h]; rfl)
    rw [if_pos h, fprod_nan hn]
    rfl
  · rw [if_neg h]
    rw [not_or] at h
    rw [dxValue_fin dx8 p h.1, dxValue_fin dx8 q h.2, fprod, xfOfVal]
    congr 1
    split <;> ring

theorem macStep_xf {f : Nat} (hf : mmacAcc f = 2) (sat : Bool) (acc : Nat) (v w : FVal) :
    macStep f sat acc v w = xfEncode (xfAdd (xfDecode acc) (xfOfVal (fprod v w).1)) := by simp [macStep, hf]

end Sys2Proof.Machine
end

section
/-! SUPPORT. The blocks that MSTORE writes (04 R91 to R94, R99, 09 R210). -/
namespace Sys2Proof.Machine

/-! ### Elements of a packed block -/

/-- Element j of a block packed from a list that fits. -/
theorem packed_elem {bits : Nat} {l : List Nat} {y j : Nat} (hl : bits * l.length ≤ 512) (hj : l[j]? = some y) (hy : y < 2 ^ bits) :
    (BitVec.ofNat 512 (packElems bits l)).toNat / 2 ^ (bits * j) % 2 ^ bits = y := by
  refine (lane_ofLanes hl j).trans ?_
  rw [List.getD_eq_getElem?_getD, hj, Option.getD_some, Nat.mod_eq_of_lt hy]

theorem packed_zeros (bits : Nat) {α : Type} (xs : List α) : packElems bits (xs.map fun _ => 0) = 0 := by
  induction xs with
  | nil => rfl
  | cons x r ih => rw [List.map_cons, packElems, ih, Nat.zero_mod, Nat.mul_zero]

theorem withSign_lt (f : FFmt) (neg : Bool) {c : Nat} (hc : c ≤ f.infBits) : f.withSign neg c < 2 ^ (1 + f.eb + f.fb) := by
  have := infBits_lt f
  rw [Nat.add_assoc, pow_add, pow_one]
  unfold FFmt.withSign
  split <;> omega

theorem fencode_lt {f : FFmt} (hf : f.Wide) {mode : Nat} (hmode : mode ≤ 4) (v : FVal) : (fencode f mode v).1 < 2 ^ (1 + f.eb + f.fb) := by
  cases v with
  | nan s =>
    have h1 : 2 ^ f.fb = 2 * 2 ^ (f.fb - 1) := by rw [← pow_succ']; congr 1; have := hf.fb; omega
    have h2 : f.infBits + 2 ^ f.fb = 2 ^ (f.eb + f.fb) := by
      have := Nat.two_pow_pos f.eb
      rw [FFmt.infBits, ← Nat.succ_mul, pow_add]
      congr 1
      omega
    have h3 := Nat.two_pow_pos (f.fb - 1)
    rw [fencode_nan, Nat.add_assoc, pow_add, pow_one, FFmt.nanBits]
    omega
  | inf n =>
    rw [fencode_inf]
    exact withSign_lt f n le_rfl
  | fin n m e =>
    by_cases hm : m = 0
    · rw [hm, fencode_zero]
      exact withSign_lt f n (Nat.zero_le _)
    · obtain ⟨c, hc, hr, -⟩ := fencode_rounds_exact (neg := n) hf hmode hm (rfl : (m : ℝ) * 2 ^ e = _)
      rw [hr]
      exact withSign_lt f n hc

/-! ### Formats other than DX -/

theorem storeBlock_plain {fmt : Nat} (gap : Nat) (xs : List FVal) (h4 : fmt ≠ 4) (h5 : fmt ≠ 5) : storeBlock fmt gap xs
    = (BitVec.ofNat 512 (packElems (fmtBits fmt) (xs.map (storeElem fmt))), BitVec.ofNat 16 (fmt * 16)) := by
  rw [storeBlock, if_neg (by simp [h4, h5])]

theorem storeBlock_code {fmt gap : Nat} {xs : List FVal} {x : FVal} {j : Nat} (h4 : fmt ≠ 4) (h5 : fmt ≠ 5)
    (hl : xs.length = 512 / fmtBits fmt) (hj : xs[j]? = some x) (hx : storeElem fmt x < 2 ^ fmtBits fmt) :
    (storeBlock fmt gap xs).1.toNat / 2 ^ (fmtBits fmt * j) % 2 ^ fmtBits fmt = storeElem fmt x := by
  rw [storeBlock_plain gap xs h4 h5]
  refine packed_elem ?_ ?_ hx
  · rw [List.length_map, hl]
    exact Nat.mul_div_le 512 _
  · rw [List.getElem?_map, hj]
    rfl

/-- A floating-point element of a block, rounded once. -/
def StoredAs (f : FFmt) (x : FVal) (code : Nat) : Prop := ∃ fl : FFlags,
  match x with
  | .fin neg m e => if m = 0 then code = f.withSign neg 0 else RoundsRatio f 0 neg m 1 e (code, fl)
  | .inf neg => code = f.withSign neg ((2 ^ f.eb - 1) * 2 ^ f.fb)
  | .nan _ => code = (2 ^ f.eb - 1) * 2 ^ f.fb + 2 ^ (f.fb - 1)

theorem storedAs_fencode {f : FFmt} (hf : f.Wide) (x : FVal) : StoredAs f x (fencode f RNE x).1 := by
  refine ⟨(fencode f RNE x).2, ?_⟩
  cases x with
  | nan s => rfl
  | inf n => rw [fencode_inf]; rfl
  | fin n m e =>
    show if m = 0 then _ else _
    split
    case isTrue h => rw [h, fencode_zero]
    case isFalse h => exact fencode_rounds_exact hf (by decide) h rfl

theorem storeBlock_floating {fmt gap : Nat} {f : FFmt} {xs : List FVal} (hf : f.Wide) (h4 : fmt ≠ 4) (h5 : fmt ≠ 5)
    (hbits : fmtBits fmt = 1 + f.eb + f.fb) (hstore : ∀ x, storeElem fmt x = (fencode f RNE x).1) (hl : xs.length = 512 / fmtBits fmt)
    {j : Nat} {x : FVal} (hj : xs[j]? = some x) :
    StoredAs f x ((storeBlock fmt gap xs).1.toNat / 2 ^ (fmtBits fmt * j) % 2 ^ fmtBits fmt) := by
  rw [storeBlock_code h4 h5 hl hj (by rw [hstore, hbits]; exact fencode_lt hf (by decide) x), hstore]
  exact storedAs_fencode hf x

theorem storeBlock_int {gap : Nat} {xs : List FVal} (hl : xs.length = 512 / fmtBits 6) {j : Nat} {v : Int}
    (hj : xs[j]? = some (.fin (decide (v < 0)) v.natAbs 0)) :
    (storeBlock 6 gap xs).1.toNat / 2 ^ (fmtBits 6 * j) % 2 ^ fmtBits 6 = toBits 8 (clampInt (-128) 127 v) := by
  have hs : storeElem 6 (.fin (decide (v < 0)) v.natAbs 0) = toBits 8 (clampInt (-128) 127 v) := by
    have hv : (if decide (v < 0) then -((v.natAbs * 2 ^ (0 - 0 : Int).toNat : Nat) : Int) else (v.natAbs * 2 ^ (0 - 0 : Int).toNat : Nat)) = v := by
      simp only [decide_eq_true_eq, sub_self, Int.toNat_zero, pow_zero, mul_one]
      split <;> omega
    show toBits 8 (toIntRange RNE (-128) 127 (.fin (decide (v < 0)) v.natAbs 0)).1 = _
    rw [toIntRange_fin (by decide), roundAt_of_le _ _ _ le_rfl, hv]
  rw [storeBlock_code (by decide) (by decide) hl hj (by rw [hs]; exact toBits_lt 8 _), hs]

/-! ### The exponent of a DX block (R92) -/

/-- The greater of two magnitudes, by the order of the model's search. -/
def dxBigStep (acc : Nat × Int) (x : FVal) : Nat × Int :=
  match x with
  | .fin _ m e => if m != 0 && (acc.1 = 0 || magGe m e acc.1 acc.2) then (m, e) else acc
  | _ => acc

def dxBig (xs : List FVal) : Nat × Int := xs.foldl dxBigStep (0, 0)

/-- The exponent that a block's largest magnitude asks for. -/
def dxExponent (dx8 : Bool) (big : Nat × Int) : Int :=
  if big.1 = 0 then -127
  else if !dx8 && magGe big.1 big.2 3 (big.2 + big.1.log2 - 1) then big.2 + big.1.log2 + 1 else big.2 + big.1.log2

theorem dxScale_eq (dx8 : Bool) (xs : List FVal) : dxScale dx8 xs = min (max (dxExponent dx8 (dxBig xs)) (-127)) 127 := rfl

/-- What a search leaves: no less than where it began and than each magnitude passed, and one of these. -/
theorem foldl_dxBigStep (xs : List FVal) : ∀ acc : Nat × Int,
    (acc.1 : ℝ) * 2 ^ acc.2 ≤ (xs.foldl dxBigStep acc).1 * 2 ^ (xs.foldl dxBigStep acc).2
    ∧ (∀ n m e, FVal.fin n m e ∈ xs → (m : ℝ) * 2 ^ e ≤ (xs.foldl dxBigStep acc).1 * 2 ^ (xs.foldl dxBigStep acc).2)
    ∧ (xs.foldl dxBigStep acc = acc ∨ ∃ n, FVal.fin n (xs.foldl dxBigStep acc).1 (xs.foldl dxBigStep acc).2 ∈ xs) := by
  induction xs with
  | nil => exact fun acc => ⟨le_rfl, fun _ _ _ h => absurd h List.not_mem_nil, .inl rfl⟩
  | cons x r ih =>
    intro acc
    rw [List.foldl_cons]
    obtain ⟨hle, hall, hone⟩ := ih (dxBigStep acc x)
    have hstep : (acc.1 : ℝ) * 2 ^ acc.2 ≤ (dxBigStep acc x).1 * 2 ^ (dxBigStep acc x).2
        ∧ (∀ n m e, x = .fin n m e → (m : ℝ) * 2 ^ e ≤ (dxBigStep acc x).1 * 2 ^ (dxBigStep acc x).2)
        ∧ (dxBigStep acc x = acc ∨ ∃ n, x = .fin n (dxBigStep acc x).1 (dxBigStep acc x).2) := by
      cases x with
      | nan s => exact ⟨le_rfl, fun _ _ _ h => FVal.noConfusion h, .inl rfl⟩
      | inf n => exact ⟨le_rfl, fun _ _ _ h => FVal.noConfusion h, .inl rfl⟩
      | fin n m e =>
        have hacc := two_zpow_pos acc.2
        have he := two_zpow_pos e
        unfold dxBigStep
        dsimp only
        split
        case isTrue hc =>
          refine ⟨?_, fun _ _ _ h => by cases h; exact le_rfl, .inr ⟨n, rfl⟩⟩
          simp only [Bool.and_eq_true, Bool.or_eq_true, decide_eq_true_eq, magGe_iff] at hc
          rcases hc.2 with h | h
          · rw [h, Nat.cast_zero, zero_mul]
            positivity
          · exact h
        case isFalse hc =>
          refine ⟨le_rfl, fun n' m' e' h => ?_, .inl rfl⟩
          cases h
          simp only [Bool.and_eq_true, Bool.or_eq_true, decide_eq_true_eq, magGe_iff, bne_iff_ne, not_and_or, not_or, not_not, not_le] at hc
          rcases hc with h | h
          · rw [h, Nat.cast_zero, zero_mul]
            positivity
          · exact h.2.le
    refine ⟨hstep.1.trans hle, fun n m e hm => ?_, ?_⟩
    · rcases List.mem_cons.mp hm with rfl | hm
      · exact (hstep.2.1 n m e rfl).trans hle
      · exact hall n m e hm
    · rcases hone with h | ⟨n, h⟩
      · rw [h]
        exact hstep.2.2.imp_right fun ⟨n, hn⟩ => ⟨n, List.mem_cons.mpr (.inl hn.symm)⟩
      · exact .inr ⟨n, List.mem_cons_of_mem x h⟩

/-- A value of k or more parts of 2^u. -/
def HasParts (x : FVal) (k : Nat) (u : Int) : Prop := ∃ neg m e, x = .fin neg m e ∧ m ≠ 0
  ∧ k * 2 ^ (u - min e u).toNat ≤ m * 2 ^ (e - min e u).toNat

theorem parts_le_iff (m : Nat) (e : Int) (k : Nat) (u : Int) :
    k * 2 ^ (u - min e u).toNat ≤ m * 2 ^ (e - min e u).toNat ↔ (k : ℝ) * 2 ^ u ≤ m * 2 ^ e := by
  rw [← magGe_iff, magGe]
  exact decide_eq_true_iff.symm

/-- Some value of a block reaches what its largest magnitude reaches. -/
theorem exists_hasParts_iff (xs : List FVal) {k : Nat} (hk : k ≠ 0) (u : Int) :
    (∃ x ∈ xs, HasParts x k u) ↔ (k : ℝ) * 2 ^ u ≤ (dxBig xs).1 * 2 ^ (dxBig xs).2 := by
  obtain ⟨-, hall, hone⟩ := foldl_dxBigStep xs (0, 0)
  constructor
  · rintro ⟨x, hx, n, m, e, rfl, -, h⟩
    exact ((parts_le_iff ..).mp h).trans (hall n m e hx)
  · intro h
    have hu := two_zpow_pos u
    have hk' : (0 : ℝ) < k := by exact_mod_cast Nat.pos_of_ne_zero hk
    have hne : (dxBig xs).1 ≠ 0 := by
      intro h0
      rw [h0, Nat.cast_zero, zero_mul] at h
      have := mul_pos hk' hu
      linarith
    rcases hone with h0 | ⟨n, hn⟩
    · exact absurd (congrArg Prod.fst h0) hne
    · exact ⟨_, hn, n, _, _, rfl, hne, (parts_le_iff ..).mpr h⟩

theorem dxBig_zero {xs : List FVal} (h : ∀ x ∈ xs, ∃ neg e, x = .fin neg 0 e) : (dxBig xs).1 = 0 := by
  obtain ⟨-, -, hone⟩ := foldl_dxBigStep xs (0, 0)
  rcases hone with h0 | ⟨n, hn⟩
  · exact congrArg Prod.fst h0
  · obtain ⟨n', e, he⟩ := h _ hn
    simp only [FVal.fin.injEq] at he
    exact he.2.1

theorem dxExponent_spec (dx8 : Bool) (xs : List FVal) : ((∀ x ∈ xs, ∃ neg e, x = .fin neg 0 e) → dxExponent dx8 (dxBig xs) = -127)
    ∧ ∀ T, (∃ x ∈ xs, HasParts x 1 T) → (∀ x ∈ xs, ¬HasParts x 1 (T + 1)) →
      ((dxFmt dx8 = 5 ∧ ∃ x ∈ xs, HasParts x 3 (T - 1)) → dxExponent dx8 (dxBig xs) = T + 1)
      ∧ (¬(dxFmt dx8 = 5 ∧ ∃ x ∈ xs, HasParts x 3 (T - 1)) → dxExponent dx8 (dxBig xs) = T) := by
  refine ⟨fun h => by rw [dxExponent, if_pos (dxBig_zero h)], fun T h1 h2 => ?_⟩
  rw [exists_hasParts_iff xs one_ne_zero, Nat.cast_one, one_mul] at h1
  have h2' : ¬∃ x ∈ xs, HasParts x 1 (T + 1) := fun ⟨x, hx, h⟩ => h2 x hx h
  rw [exists_hasParts_iff xs one_ne_zero, Nat.cast_one, one_mul, not_le] at h2'
  rw [exists_hasParts_iff xs (by decide : (3 : Nat) ≠ 0)]
  generalize dxBig xs = big at *
  have hm : big.1 ≠ 0 := by
    intro h0
    rw [h0, Nat.cast_zero, zero_mul] at h1
    linarith [two_zpow_pos T]
  -- The exponent of the highest bit is the one that the largest magnitude reaches.
  have hb := (show Approx 1 big.1 big.2 _ from .inl rfl).binade le_rfl hm
  have hT : big.2 + big.1.log2 = T := by
    have h3 := (zpow_lt_zpow_iff_right₀ (by norm_num : (1 : ℝ) < 2)).mp (lt_of_le_of_lt h1 hb.2)
    have h4 := (zpow_lt_zpow_iff_right₀ (by norm_num : (1 : ℝ) < 2)).mp (lt_of_le_of_lt hb.1 h2')
    unfold highBit at h3 h4
    omega
  have h5 : (!dx8 && magGe big.1 big.2 3 (T - 1)) = true ↔ dxFmt dx8 = 5 ∧ ((3 : Nat) : ℝ) * 2 ^ (T - 1) ≤ big.1 * 2 ^ big.2 := by
    rw [Bool.and_eq_true, magGe_iff]
    cases dx8 <;> simp [dxFmt]
  rw [dxExponent, if_neg hm, hT, ← h5]
  exact ⟨fun h => if_pos h, fun h => if_neg h⟩

/-! ### DX blocks (R92 to R94) -/

theorem fmtBits_dx (dx8 : Bool) : 2 ^ fmtBits (dxFmt dx8) = 4 * dxSign dx8 := by cases dx8 <;> rfl

theorem storeBlock_dx (dx8 : Bool) (gap : Nat) (xs : List FVal) : storeBlock (dxFmt dx8) gap xs
    = (BitVec.ofNat 512 (packElems (fmtBits (dxFmt dx8)) (dxBlock dx8 gap xs).1), (dxBlock dx8 gap xs).2) := by cases dx8 <;> rfl

/-- A value is a number. -/
def FVal.isNumber : FVal → Bool
  | .fin _ _ _ => true
  | _ => false

theorem FVal.isNumber_iff (x : FVal) : x.isNumber = true ↔ ∃ neg m e, x = .fin neg m e := by
  cases x <;> simp [FVal.isNumber]

/-- The code of a number in a block of an exponent and a gap. -/
def dxBlockCode (dx8 : Bool) (hi : Int) (gap : Nat) : FVal → Nat
  | .fin neg m e => (dxEncode dx8 RNE hi gap neg m e).1
  | _ => 0

theorem dxBlock_eq (dx8 : Bool) (gap : Nat) (xs : List FVal) : dxBlock dx8 gap xs = if xs.any (fun x => !x.isNumber)
    then (xs.map (fun _ => 0), BitVec.ofNat 16 (255 * 256 + dxFmt dx8 * 16 + gap))
    else (xs.map (dxBlockCode dx8 (dxScale dx8 xs) gap), BitVec.ofNat 16 ((dxScale dx8 xs + 127).toNat * 256 + dxFmt dx8 * 16 + gap)) := by
  have h1 : (fun x : FVal => !x.isNumber) = (fun x => match x with | .fin _ _ _ => false | _ => true) := by funext x; cases x <;> rfl
  have h2 : dxBlockCode dx8 (dxScale dx8 xs) gap
      = (fun x => match x with | .fin neg m e => (dxEncode dx8 RNE (dxScale dx8 xs) gap neg m e).1 | _ => 0) := by funext x; cases x <;> rfl
  rw [h1, h2]
  rfl

/-- A block with a value that is no number is the NaN block of codes 0. -/
theorem storeBlock_dx_nan (dx8 : Bool) {gap : Nat} {xs : List FVal} (hgap : gap < 16) (h : ∃ x ∈ xs, ¬∃ neg m e, x = .fin neg m e) :
    (storeBlock (dxFmt dx8) gap xs).1 = 0 ∧ (storeBlock (dxFmt dx8) gap xs).2.toNat = 255 * 256 + dxFmt dx8 * 16 + gap := by
  obtain ⟨x, hx, hn⟩ := h
  have hany : xs.any (fun x => !x.isNumber) = true := by
    rw [List.any_eq_true]
    exact ⟨x, hx, by rw [← x.isNumber_iff] at hn; simpa using hn⟩
  rw [storeBlock_dx, dxBlock_eq, if_pos hany, packed_zeros]
  refine ⟨rfl, ?_⟩
  rw [BitVec.toNat_ofNat, Nat.mod_eq_of_lt]
  have : dxFmt dx8 ≤ 5 := by cases dx8 <;> decide
  omega

theorem dxScale_clamp (dx8 : Bool) (xs : List FVal) : dxScale dx8 xs = clampInt (-127) 127 (dxExponent dx8 (dxBig xs)) := by
  rw [dxScale_eq, clampInt]
  omega

section
variable (dx8 : Bool) {gap : Nat} {xs : List FVal} (hgap : gap < 16) (h : ∀ x ∈ xs, ∃ neg m e, x = .fin neg m e)
include h

theorem storeBlock_dx_fin : storeBlock (dxFmt dx8) gap xs
    = (BitVec.ofNat 512 (packElems (fmtBits (dxFmt dx8)) (xs.map (dxBlockCode dx8 (dxScale dx8 xs) gap))),
      BitVec.ofNat 16 ((dxScale dx8 xs + 127).toNat * 256 + dxFmt dx8 * 16 + gap)) := by
  have hany : ¬xs.any (fun x => !x.isNumber) = true := by
    rw [List.any_eq_true]
    rintro ⟨x, hx, hn⟩
    rw [(x.isNumber_iff).mpr (h x hx)] at hn
    cases hn
  rw [storeBlock_dx, dxBlock_eq, if_neg hany]

include hgap

theorem storeBlock_dx_desc : ((storeBlock (dxFmt dx8) gap xs).2.toNat : Int) = (dxScale dx8 xs + 127) * 256 + dxFmt dx8 * 16 + gap := by
  have hf : dxFmt dx8 ≤ 5 := by cases dx8 <;> decide
  have hs := dxScale_eq dx8 xs
  rw [storeBlock_dx_fin dx8 h, BitVec.toNat_ofNat, Nat.mod_eq_of_lt (by omega)]
  push_cast
  omega

/-- Each code of a block is the nearest: the high exponent and an even code where two are as near. -/
theorem storeBlock_dx_code {j m : Nat} {neg : Bool} {e : Int} (hl : xs.length = 512 / fmtBits (dxFmt dx8)) (hj : xs[j]? = some (.fin neg m e)) :
    let desc := (storeBlock (dxFmt dx8) gap xs).2.toNat
    let lo := min e (-200)
    let far (c : Nat) : Nat :=
      ((dxCodeMag (dxFmt dx8) c * 2 ^ (dxCodeUnit (dxFmt dx8) (dxCodeExp (dxFmt dx8) desc c) - lo).toNat : Nat)
        - (m * 2 ^ (e - lo).toNat : Nat) : Int).natAbs
    let c := (storeBlock (dxFmt dx8) gap xs).1.toNat / 2 ^ (fmtBits (dxFmt dx8) * j) % 2 ^ fmtBits (dxFmt dx8)
    dxCodeNeg (dxFmt dx8) c = neg ∧ ∀ c', c' < 2 * dxSel dx8 → far c ≤ far c'
      ∧ (far c' = far c → dxCodeNeg (dxFmt dx8) c' = neg → c' ≠ c → if c' / dxSel dx8 = c / dxSel dx8 then c % 2 = 0 else c < dxSel dx8) := by
  intro desc lo far c
  have hdesc : (desc : Int) = (dxScale dx8 xs + 127) * 256 + dxFmt dx8 * 16 + gap := storeBlock_dx_desc dx8 hgap h
  have hf : dxFmt dx8 ≤ 5 := by cases dx8 <;> decide
  have hs := dxScale_eq dx8 xs
  have hhi : ((desc / 256 : Nat) : Int) - 127 = dxScale dx8 xs := by omega
  have hg : desc % 16 = gap := by omega
  have henc := dxEncode_encodes (mode := RNE) (by decide) dx8 (dxScale dx8 xs) gap neg m e
  have hc : c = (dxEncode dx8 RNE (dxScale dx8 xs) gap neg m e).1 := by
    show (storeBlock (dxFmt dx8) gap xs).1.toNat / _ % _ = _
    rw [storeBlock_dx_fin dx8 h]
    refine packed_elem ?_ ?_ (by rw [fmtBits_dx]; exact henc.lt)
    · rw [List.length_map, hl]
      exact Nat.mul_div_le 512 _
    · rw [List.getElem?_map, hj]
      rfl
  have hp := two_zpow_pos lo
  have hfar (k : Nat) : (far k : ℝ) * 2 ^ lo = |dxCodeVal dx8 (dxScale dx8 xs) gap k - m * 2 ^ e| := by
    have hu := dxCodeUnit_ge dx8 desc k
    refine (natAbs_parts _ m ((min_le_right e (-200)).trans (by omega)) (min_le_left e (-200))).trans ?_
    rw [dxCodeVal_desc dx8 (storeBlock (dxFmt dx8) gap xs).2 k, show (storeBlock (dxFmt dx8) gap xs).2.toNat = desc from rfl, hhi, hg]
  have hneg (k : Nat) : dxCodeNeg (dxFmt dx8) k = neg ↔ k / dxSign dx8 % 2 = if neg then 1 else 0 := by
    rw [dxCodeNeg_eq]
    cases neg <;> simp
  obtain ⟨-, hsign, hnear, htie, -, -, -⟩ := henc
  rw [← hc] at hsign hnear htie
  refine ⟨(hneg c).mpr hsign, fun k hk => ⟨?_, fun heq hkn hne => ?_⟩⟩
  · have := hnear (.inl rfl) k
    rw [← hfar, ← hfar, mul_le_mul_iff_left₀ hp] at this
    exact_mod_cast this
  · exact htie rfl k (lt_of_lt_of_eq hk (by cases dx8 <;> rfl)) ((hneg k).mp hkn) hne (by rw [← hfar, ← hfar, heq])

end
end Sys2Proof.Machine
end

section
/-! SUPPORT. The streaming merge unit (06 R137, R138): the lists that registers hold, and what the union and the intersection of two
ascending lists give. -/
namespace Sys2Proof.Machine

/-! ### Lists in registers -/

/-- The lanes of a register below the first that holds the greatest value, which ends the list. -/
def laneList (w : Nat) (v : Vec) : List Nat :=
  ((List.range (512 / w)).map fun i => v.toNat / 2 ^ (w * i) % 2 ^ w).takeWhile (· != 2 ^ w - 1)

/-- The place of a value in a list, as an origin tells it. -/
def originPlace (l : List Nat) (v : Nat) : Nat := match l.idxOf? v with | some i => 0x80 + i | none => 0

theorem takeWhile_stops {α : Type} (p : α → Bool) : ∀ (l : List α) (h : (l.takeWhile p).length < l.length), p l[(l.takeWhile p).length] = false
  | [], h => absurd h (by simp)
  | a :: l, h => by
    by_cases ha : p a
    · simp only [List.takeWhile_cons, ha, if_true, List.length_cons, List.getElem_cons_succ] at h ⊢
      exact takeWhile_stops p l (by omega)
    · simp only [List.takeWhile_cons, ha, Bool.false_eq_true, if_false, List.length_nil, List.getElem_cons_zero]

theorem laneList_lt {w u : Nat} {v : Vec} (h : u ∈ laneList w v) : u < 2 ^ w - 1 := by
  have hne := List.mem_takeWhile_imp h
  have hmem := (List.takeWhile_prefix _).subset h
  obtain ⟨i, -, rfl⟩ := List.mem_map.mp hmem
  have := Nat.mod_lt (v.toNat / 2 ^ (w * i)) (Nat.two_pow_pos w)
  rw [bne_iff_ne] at hne
  omega

/-- Where the list goes on a lane holds its element; where it ends the lane reads as the greatest value. -/
theorem lane_laneList {w i : Nat} (v : Vec) (h : i ≤ (laneList w v).length) :
    (if i < 512 / w then lane v w i else 2 ^ w - 1) = (laneList w v)[i]?.getD (2 ^ w - 1) := by
  have hpre := List.takeWhile_prefix (l := (List.range (512 / w)).map fun i => v.toNat / 2 ^ (w * i) % 2 ^ w) (· != 2 ^ w - 1)
  have hle : (laneList w v).length ≤ 512 / w := by
    have := hpre.length_le
    rwa [List.length_map, List.length_range] at this
  rcases Nat.lt_or_eq_of_le h with h | rfl
  · rw [if_pos (by omega), List.getElem?_eq_getElem h, Option.getD_some]
    have := hpre.getElem h
    rw [List.getElem_map, List.getElem_range] at this
    exact this.symm
  · rw [List.getElem?_eq_none le_rfl, Option.getD_none]
    split
    case isTrue hlt =>
      have := takeWhile_stops (· != 2 ^ w - 1) ((List.range (512 / w)).map fun i => v.toNat / 2 ^ (w * i) % 2 ^ w)
        (by rwa [List.length_map, List.length_range])
      rw [List.getElem_map, List.getElem_range, bne_eq_false_iff_eq] at this
      exact this
    case isFalse => rfl

/-! ### Ascending lists -/

section
variable {l : List Nat} (hl : l.Pairwise (· < ·))
include hl

theorem originPlace_of_get {i v : Nat} (h : l[i]? = some v) : originPlace l v = 0x80 + i := by
  obtain ⟨hi, hv⟩ := List.getElem?_eq_some_iff.mp h
  have : l.idxOf? v = some i := by
    rw [List.idxOf?_eq_some_iff]
    refine ⟨hi, hv, fun j hj => ?_⟩
    have := List.pairwise_iff_getElem.mp hl j i (by omega) hi hj
    omega
  rw [originPlace, this]

theorem lt_of_mem_drop {i v z : Nat} (h : l[i]? = some z) (hv : v ∈ l.drop (i + 1)) : z < v := by
  obtain ⟨hi, rfl⟩ := List.getElem?_eq_some_iff.mp h
  obtain ⟨k, hk, rfl⟩ := List.mem_iff_getElem.mp hv
  rw [List.getElem_drop]
  rw [List.length_drop] at hk
  exact List.pairwise_iff_getElem.mp hl i (i + 1 + k) hi (by omega) (by omega)

end

theorem originPlace_of_not_mem {l : List Nat} {v : Nat} (h : v ∉ l) : originPlace l v = 0 := by
  rw [originPlace, List.idxOf?_eq_none_iff.mpr h]

theorem drop_of_get {l : List Nat} {i z : Nat} (h : l[i]? = some z) : l.drop i = z :: l.drop (i + 1) := by
  obtain ⟨hi, rfl⟩ := List.getElem?_eq_some_iff.mp h
  exact List.drop_eq_getElem_cons hi

theorem drop_of_none {l : List Nat} {i : Nat} (h : l[i]? = none) : l.drop i = [] :=
  List.drop_eq_nil_of_le (List.getElem?_eq_none_iff.mp h)

theorem le_of_mem_drop {l : List Nat} (hl : l.Pairwise (· < ·)) {i v z : Nat} (h : l[i]? = some z) (hv : v ∈ l.drop i) : z ≤ v := by
  rw [drop_of_get h] at hv
  rcases List.mem_cons.mp hv with rfl | hv
  · exact le_rfl
  · exact (lt_of_mem_drop hl h hv).le

/-! ### The loop of R138 -/

section
variable {w : Nat} {x y : Vec} {i j fuel : Nat} (hi : i ≤ (laneList w x).length) (hj : j ≤ (laneList w y).length)
include hi hj

theorem mergeNext_eq (union : Bool) : mergeNext union w x y ⟨i, j, false⟩ (fuel + 1)
    = let sent := 2 ^ w - 1
      let a := (laneList w x)[i]?.getD sent
      let b := (laneList w y)[j]?.getD sent
      if a = sent ∧ b = sent then (sent, 0, ⟨i, j, true⟩)
      else if union = false ∧ (a = sent ∨ b = sent) then (sent, 0, ⟨i, j, true⟩)
      else if a = b then (a, (0x80 + i) * 256 + (0x80 + j), ⟨i + 1, j + 1, false⟩)
      else if a < b then
        if union then (a, (0x80 + i) * 256, ⟨i + 1, j, false⟩) else mergeNext union w x y ⟨i + 1, j, false⟩ fuel
      else if union then (b, 0x80 + j, ⟨i, j + 1, false⟩) else mergeNext union w x y ⟨i, j + 1, false⟩ fuel := by
  dsimp only
  rw [← lane_laneList x hi, ← lane_laneList y hj, mergeNext]
  simp only [Bool.false_eq_true, if_false, Bool.and_eq_true, Bool.or_eq_true, decide_eq_true_eq, Bool.not_eq_true', Nat.add_assoc]

/-- Both lists at their end. -/
theorem mergeNext_ended (union : Bool) (hx : (laneList w x)[i]? = none) (hy : (laneList w y)[j]? = none) :
    mergeNext union w x y ⟨i, j, false⟩ (fuel + 1) = (2 ^ w - 1, 0, ⟨i, j, true⟩) := by
  rw [mergeNext_eq hi hj, hx, hy]
  simp

end

/-! ### The union -/

/-- From place i of a list the value z is taken, to place i': it stands there, or every value from there on is greater. -/
def Takes (l : List Nat) (i z i' : Nat) : Prop := (l[i]? = some z ∧ i' = i + 1) ∨ (i' = i ∧ ∀ v ∈ l.drop i, z < v)

/-- What the list gives to the origin. -/
def originPart (l : List Nat) (i z : Nat) : Nat := if l[i]? = some z then 0x80 + i else 0

section
variable {l : List Nat} (hl : l.Pairwise (· < ·)) {i z i' : Nat} (h : Takes l i z i')
include h

theorem Takes.le (hi : i ≤ l.length) : i' ≤ l.length := by
  rcases h with ⟨hz, rfl⟩ | ⟨rfl, -⟩
  · obtain ⟨hlt, -⟩ := List.getElem?_eq_some_iff.mp hz
    exact hlt
  · exact hi

theorem Takes.subset {v : Nat} (hv : v ∈ l.drop i') : v ∈ l.drop i := by
  rcases h with ⟨hz, rfl⟩ | ⟨rfl, -⟩
  · rw [drop_of_get hz]
    exact List.mem_cons_of_mem z hv
  · exact hv

theorem Takes.rest {v : Nat} (hv : v ∈ l.drop i) (hne : v ≠ z) : v ∈ l.drop i' := by
  rcases h with ⟨hz, rfl⟩ | ⟨rfl, -⟩
  · rw [drop_of_get hz] at hv
    exact (List.mem_cons.mp hv).resolve_left hne
  · exact hv

theorem Takes.before {v : Nat} (hbefore : ∀ u ∈ l.take i, u < v) (hv : z < v) : ∀ u ∈ l.take i', u < v := by
  rcases h with ⟨hz, rfl⟩ | ⟨rfl, -⟩
  · intro u hu
    obtain ⟨hlt, rfl⟩ := List.getElem?_eq_some_iff.mp hz
    rw [List.take_succ_eq_append_getElem hlt, List.mem_append, List.mem_singleton] at hu
    rcases hu with hu | rfl
    · exact hbefore u hu
    · exact hv
  · exact hbefore

include hl

theorem Takes.lt {v : Nat} (hv : v ∈ l.drop i') : z < v := by
  rcases h with ⟨hz, rfl⟩ | ⟨rfl, hall⟩
  · exact lt_of_mem_drop hl hz hv
  · exact hall v hv

/-- The origin is the place of the value in the whole list, where what was taken before is less. -/
theorem Takes.origin (hbefore : ∀ u ∈ l.take i, u < z) : originPart l i z = originPlace l z := by
  rcases h with ⟨hz, rfl⟩ | ⟨rfl, hall⟩
  · rw [originPart, if_pos hz, originPlace_of_get hl hz]
  · have hnot : z ∉ l := by
      rw [← List.take_append_drop i' l, List.mem_append]
      rintro (hm | hm)
      · exact lt_irrefl z (hbefore z hm)
      · exact lt_irrefl z (hall z hm)
    rw [originPlace_of_not_mem hnot, originPart, if_neg fun hz => hnot (List.mem_of_getElem? hz)]

/-- The values taken, counted. -/
theorem Takes.count (os : List Nat) : i + ((l.drop i).filter fun v => (z :: os).contains v).length
    = i' + ((l.drop i').filter fun v => os.contains v).length := by
  have hrest : ((l.drop i').filter fun v => (z :: os).contains v) = (l.drop i').filter fun v => os.contains v := by
    apply List.filter_congr
    intro v hv
    have := (h.lt hl hv).ne'
    rw [List.contains_cons, beq_false_of_ne this, Bool.false_or]
  rcases h with ⟨hz, rfl⟩ | ⟨rfl, -⟩
  · rw [drop_of_get hz, List.filter_cons_of_pos (by simp), List.length_cons, hrest]
    omega
  · rw [hrest]

end

theorem mergeNext_union {w : Nat} {x y : Vec} (hx : (laneList w x).Pairwise (· < ·)) (hy : (laneList w y).Pairwise (· < ·)) {i j fuel : Nat}
    (hi : i ≤ (laneList w x).length) (hj : j ≤ (laneList w y).length)
    (h : ¬((laneList w x)[i]? = none ∧ (laneList w y)[j]? = none)) : ∃ z i' j', mergeNext true w x y ⟨i, j, false⟩ (fuel + 1)
      = (z, originPart (laneList w x) i z * 256 + originPart (laneList w y) j z, ⟨i', j', false⟩)
    ∧ Takes (laneList w x) i z i' ∧ Takes (laneList w y) j z j' ∧ ((laneList w x)[i]? = some z ∨ (laneList w y)[j]? = some z) := by
  rw [mergeNext_eq hi hj]
  cases ha : (laneList w x)[i]? with
  | none =>
    cases hb : (laneList w y)[j]? with
    | none => exact absurd ⟨ha, hb⟩ h
    | some b =>
      have hlt := laneList_lt (List.mem_of_getElem? hb)
      refine ⟨b, i, j + 1, ?_, .inr ⟨rfl, by simp [drop_of_none ha]⟩, .inl ⟨hb, rfl⟩, .inr rfl⟩
      simp [originPart, ha, hb, hlt.ne, hlt.ne', hlt.le.not_gt]
  | some a =>
    have hlta := laneList_lt (List.mem_of_getElem? ha)
    cases hb : (laneList w y)[j]? with
    | none =>
      refine ⟨a, i + 1, j, ?_, .inl ⟨ha, rfl⟩, .inr ⟨rfl, by simp [drop_of_none hb]⟩, .inl rfl⟩
      simp [originPart, ha, hb, hlta, hlta.ne]
    | some b =>
      have hltb := laneList_lt (List.mem_of_getElem? hb)
      rcases lt_trichotomy a b with hab | rfl | hab
      · refine ⟨a, i + 1, j, ?_, .inl ⟨ha, rfl⟩, .inr ⟨rfl, fun v hv => hab.trans_le (le_of_mem_drop hy hb hv)⟩, .inl rfl⟩
        simp [originPart, ha, hb, hlta.ne, hab, hab.ne, hab.ne']
      · refine ⟨a, i + 1, j + 1, ?_, .inl ⟨ha, rfl⟩, .inl ⟨hb, rfl⟩, .inl rfl⟩
        simp [originPart, ha, hb, hlta.ne]
      · refine ⟨b, i, j + 1, ?_, .inr ⟨rfl, fun v hv => hab.trans_le (le_of_mem_drop hx ha hv)⟩, .inl ⟨hb, rfl⟩, .inr rfl⟩
        simp [originPart, ha, hb, hltb.ne, hab.ne', hab.le.not_gt]

theorem mergeRun_done (union : Bool) (w : Nat) (x y : Vec) (i j : Nat) : ∀ n,
    mergeRun union w x y ⟨i, j, true⟩ n = (List.replicate n (2 ^ w - 1, 0), ⟨i, j, true⟩)
  | 0 => rfl
  | n + 1 => by
    have h : mergeNext union w x y ⟨i, j, true⟩ (2 * (512 / w) + 1) = (2 ^ w - 1, 0, ⟨i, j, true⟩) := by simp [mergeNext]
    rw [mergeRun, h]
    dsimp only
    rw [mergeRun_done union w x y i j n]
    rfl

theorem mergeRun_succ {union : Bool} {w : Nat} {x y : Vec} {st st' : MergeAt} {z o : Nat} (n : Nat)
    (h : mergeNext union w x y st (2 * (512 / w) + 1) = (z, o, st')) :
    mergeRun union w x y st (n + 1) = ((z, o) :: (mergeRun union w x y st' n).1, (mergeRun union w x y st' n).2) := by
  rw [mergeRun, h]

/-- The outputs of a merge that are values: the others are the end of the list. -/
def mergeOuts (w : Nat) (r : List (Nat × Nat) × MergeAt) : List (Nat × Nat) := r.1.filter fun p => p.1 != 2 ^ w - 1

/-- What a merge gives, whatever kind it is: n outputs, its values ascending, each with its two places. -/
structure MergeGives (w : Nat) (x y : Vec) (n : Nat) (r : List (Nat × Nat) × MergeAt) : Prop where
  length  : r.1.length = n
  ascends : ((mergeOuts w r).map (·.1)).Pairwise (· < ·)
  origins : ∀ p ∈ mergeOuts w r, p.2 = originPlace (laneList w x) p.1 * 256 + originPlace (laneList w y) p.1

/-- What a union from two places gives (R138). -/
structure UnionGives (w : Nat) (x y : Vec) (i j n : Nat) (r : List (Nat × Nat) × MergeAt) : Prop extends MergeGives w x y n r where
  subset : ∀ v ∈ (mergeOuts w r).map (·.1), v ∈ (laneList w x).drop i ∨ v ∈ (laneList w y).drop j
  missed : ∀ v, (v ∈ (laneList w x).drop i ∨ v ∈ (laneList w y).drop j) → v ∉ (mergeOuts w r).map (·.1) →
            (mergeOuts w r).length = n ∧ ∀ z ∈ (mergeOuts w r).map (·.1), z < v
  countX : r.2.i = i + (((laneList w x).drop i).filter fun v => ((mergeOuts w r).map (·.1)).contains v).length
  countY : r.2.j = j + (((laneList w y).drop j).filter fun v => ((mergeOuts w r).map (·.1)).contains v).length

theorem mergeOuts_cons {w z o : Nat} {l : List (Nat × Nat)} {st : MergeAt} (hz : z < 2 ^ w - 1) :
    mergeOuts w ((z, o) :: l, st) = (z, o) :: mergeOuts w (l, st) := by
  simp [mergeOuts, hz.ne]

theorem mergeOuts_ended (w n o : Nat) (st : MergeAt) : mergeOuts w (List.replicate n (2 ^ w - 1, o), st) = [] := by
  simp [mergeOuts]

section
variable {w : Nat} {x y : Vec}

/-- A merge that has ended: both lists are used up. -/
theorem unionGives_ended {i j : Nat} (hx : (laneList w x)[i]? = none) (hy : (laneList w y)[j]? = none) (n : Nat) :
    UnionGives w x y i j n (List.replicate n (2 ^ w - 1, 0), ⟨i, j, true⟩) where
  length := List.length_replicate
  ascends := by simp [mergeOuts_ended]
  origins := by simp [mergeOuts_ended]
  subset := by simp [mergeOuts_ended]
  missed := by simp [drop_of_none hx, drop_of_none hy]
  countX := by simp [drop_of_none hx]
  countY := by simp [drop_of_none hy]

/-- A merge of no outputs. -/
theorem unionGives_none (i j : Nat) : UnionGives w x y i j 0 (mergeRun true w x y ⟨i, j, false⟩ 0) where
  length := rfl
  ascends := .nil
  origins _ h := absurd h List.not_mem_nil
  subset _ h := absurd h List.not_mem_nil
  missed _ _ _ := ⟨rfl, fun _ h => absurd h List.not_mem_nil⟩
  countX := by simp [mergeRun, mergeOuts]
  countY := by simp [mergeRun, mergeOuts]

variable (hx : (laneList w x).Pairwise (· < ·)) (hy : (laneList w y).Pairwise (· < ·))
include hx hy

/-- One value taken before a union. -/
theorem UnionGives.take {i j i' j' n z o : Nat} {r : List (Nat × Nat) × MergeAt} (h : UnionGives w x y i' j' n r)
    (hTx : Takes (laneList w x) i z i') (hTy : Takes (laneList w y) j z j')
    (hz : (laneList w x)[i]? = some z ∨ (laneList w y)[j]? = some z)
    (ho : o = originPlace (laneList w x) z * 256 + originPlace (laneList w y) z) : UnionGives w x y i j (n + 1) ((z, o) :: r.1, r.2) := by
  have hmem : z ∈ (laneList w x).drop i ∨ z ∈ (laneList w y).drop j :=
    hz.imp (fun h => by rw [drop_of_get h]; exact List.mem_cons_self) (fun h => by rw [drop_of_get h]; exact List.mem_cons_self)
  have hlt : z < 2 ^ w - 1 := hmem.elim (fun h => laneList_lt (List.mem_of_mem_drop h)) (fun h => laneList_lt (List.mem_of_mem_drop h))
  have houts : mergeOuts w ((z, o) :: r.1, r.2) = (z, o) :: mergeOuts w r := mergeOuts_cons hlt
  have habove : ∀ v ∈ (mergeOuts w r).map (·.1), z < v := fun v hv => (h.subset v hv).elim (hTx.lt hx) (hTy.lt hy)
  constructor
  case toMergeGives =>
    constructor
    case length => rw [List.length_cons, h.length]
    case ascends =>
      rw [houts, List.map_cons, List.pairwise_cons]
      exact ⟨habove, h.ascends⟩
    case origins =>
      rw [houts]
      intro p hp
      rcases List.mem_cons.mp hp with rfl | hp
      · exact ho
      · exact h.origins p hp
  case subset =>
    rw [houts, List.map_cons]
    intro v hv
    rcases List.mem_cons.mp hv with rfl | hv
    · exact hmem
    · exact (h.subset v hv).imp hTx.subset hTy.subset
  case missed =>
    rw [houts, List.map_cons]
    intro v hv hnot
    rw [List.mem_cons, not_or] at hnot
    have hv' := hv.imp (hTx.rest · hnot.1) (hTy.rest · hnot.1)
    obtain ⟨hn, hall⟩ := h.missed v hv' hnot.2
    refine ⟨by rw [List.length_cons, hn], fun u hu => ?_⟩
    rcases List.mem_cons.mp hu with rfl | hu
    · exact hv'.elim (hTx.lt hx) (hTy.lt hy)
    · exact hall u hu
  case countX =>
    rw [houts, List.map_cons, hTx.count hx]
    exact h.countX
  case countY =>
    rw [houts, List.map_cons, hTy.count hy]
    exact h.countY

/-- The union from two places, where all that was taken before is less than all that is left. -/
theorem mergeRun_union : ∀ (n : Nat) {i j : Nat}, i ≤ (laneList w x).length → j ≤ (laneList w y).length →
    (∀ v, (v ∈ (laneList w x).drop i ∨ v ∈ (laneList w y).drop j) → (∀ u ∈ (laneList w x).take i, u < v) ∧ ∀ u ∈ (laneList w y).take j, u < v) →
    UnionGives w x y i j n (mergeRun true w x y ⟨i, j, false⟩ n)
  | 0, i, j, _, _, _ => unionGives_none i j
  | n + 1, i, j, hi, hj, hbefore => by
    by_cases hend : (laneList w x)[i]? = none ∧ (laneList w y)[j]? = none
    · rw [mergeRun_succ n (mergeNext_ended hi hj true hend.1 hend.2), mergeRun_done]
      exact unionGives_ended hend.1 hend.2 (n + 1)
    · obtain ⟨z, i', j', hnext, hTx, hTy, hz⟩ := mergeNext_union hx hy (fuel := 2 * (512 / w)) hi hj hend
      rw [mergeRun_succ n hnext]
      have hmem : z ∈ (laneList w x).drop i ∨ z ∈ (laneList w y).drop j :=
        hz.imp (fun h => by rw [drop_of_get h]; exact List.mem_cons_self) (fun h => by rw [drop_of_get h]; exact List.mem_cons_self)
      obtain ⟨hbx, hby⟩ := hbefore z hmem
      have hrest := mergeRun_union n (hTx.le hi) (hTy.le hj) fun v hv => by
        obtain ⟨h1, h2⟩ := hbefore v (hv.imp hTx.subset hTy.subset)
        have hlt := hv.elim (hTx.lt hx) (hTy.lt hy)
        exact ⟨hTx.before h1 hlt, hTy.before h2 hlt⟩
      exact hrest.take hx hy hTx hTy hz (by rw [hTx.origin hx hbx, hTy.origin hy hby])

end

/-! ### The intersection -/

/-- The values from two places on that both lists hold. -/
def common (w : Nat) (x y : Vec) (i j : Nat) : List Nat := ((laneList w x).drop i).filter fun v => ((laneList w y).drop j).contains v

theorem laneList_length (w : Nat) (v : Vec) : (laneList w v).length ≤ 512 / w := by
  have := (List.takeWhile_prefix (l := (List.range (512 / w)).map fun i => v.toNat / 2 ^ (w * i) % 2 ^ w) (· != 2 ^ w - 1)).length_le
  rwa [List.length_map, List.length_range] at this

section
variable {w : Nat} {x y : Vec}

theorem common_ended {i j : Nat} (h : (laneList w x)[i]? = none ∨ (laneList w y)[j]? = none) : common w x y i j = [] := by
  rcases h with h | h
  · simp [common, drop_of_none h]
  · simp [common, drop_of_none h]

variable (hx : (laneList w x).Pairwise (· < ·)) (hy : (laneList w y).Pairwise (· < ·))

include hy in
/-- The lesser head of the first list is in no rest of the second. -/
theorem common_skip_left {i j a b : Nat} (ha : (laneList w x)[i]? = some a) (hb : (laneList w y)[j]? = some b) (hab : a < b) :
    common w x y i j = common w x y (i + 1) j := by
  have hnot : a ∉ (laneList w y).drop j := fun h => (le_of_mem_drop hy hb h).not_gt hab
  rw [common, drop_of_get ha, List.filter_cons_of_neg (by simpa using hnot)]
  rfl

/-- A value above the head of the second list is in its rest or not at all. -/
theorem contains_drop {j b v : Nat} (hb : (laneList w y)[j]? = some b) (h : b < v) :
    ((laneList w y).drop j).contains v = ((laneList w y).drop (j + 1)).contains v := by
  rw [drop_of_get hb, List.contains_cons, beq_false_of_ne h.ne', Bool.false_or]

include hx in
theorem common_skip_right {i j a b : Nat} (ha : (laneList w x)[i]? = some a) (hb : (laneList w y)[j]? = some b) (hab : b < a) :
    common w x y i j = common w x y i (j + 1) :=
  List.filter_congr fun _ hv => contains_drop hb (hab.trans_le (le_of_mem_drop hx ha hv))

include hx in
theorem common_both {i j a : Nat} (ha : (laneList w x)[i]? = some a) (hb : (laneList w y)[j]? = some a) :
    common w x y i j = a :: common w x y (i + 1) (j + 1) := by
  rw [common, drop_of_get ha, List.filter_cons_of_pos (by rw [drop_of_get hb]; simp)]
  congr 1
  exact List.filter_congr fun v hv => contains_drop hb (lt_of_mem_drop hx ha hv)

include hx in
theorem common_ascends (i j n : Nat) : ((common w x y i j).take n).Pairwise (· < ·) :=
  hx.sublist ((List.take_sublist n _).trans (List.filter_sublist.trans (List.drop_sublist i _)))

include hx hy

/-- The loop of R138 passes over what one list alone holds. -/
theorem mergeNext_inter : ∀ (fuel : Nat) {i j : Nat}, i ≤ (laneList w x).length → j ≤ (laneList w y).length →
    (laneList w x).length - i + ((laneList w y).length - j) < fuel →
    (∃ i' j' z, mergeNext false w x y ⟨i, j, false⟩ fuel = (z, (0x80 + i') * 256 + (0x80 + j'), ⟨i' + 1, j' + 1, false⟩)
      ∧ (laneList w x)[i']? = some z ∧ (laneList w y)[j']? = some z ∧ common w x y i j = z :: common w x y (i' + 1) (j' + 1))
    ∨ ∃ i' j', mergeNext false w x y ⟨i, j, false⟩ fuel = (2 ^ w - 1, 0, ⟨i', j', true⟩) ∧ common w x y i j = []
  | 0, _, _, _, _, h => absurd h (Nat.not_lt_zero _)
  | fuel + 1, i, j, hi, hj, hfuel => by
    rw [mergeNext_eq hi hj]
    cases ha : (laneList w x)[i]? with
    | none => exact .inr ⟨i, j, by simp, common_ended (.inl ha)⟩
    | some a =>
      have hlta := laneList_lt (List.mem_of_getElem? ha)
      obtain ⟨hia, -⟩ := List.getElem?_eq_some_iff.mp ha
      cases hb : (laneList w y)[j]? with
      | none => exact .inr ⟨i, j, by simp, common_ended (.inr hb)⟩
      | some b =>
        have hltb := laneList_lt (List.mem_of_getElem? hb)
        obtain ⟨hjb, -⟩ := List.getElem?_eq_some_iff.mp hb
        rcases lt_trichotomy a b with hab | rfl | hab
        · rw [common_skip_left hy ha hb hab]
          have := mergeNext_inter fuel (i := i + 1) hia hj (by omega)
          simpa [hlta.ne, hltb.ne, hab, hab.ne] using this
        · exact .inl ⟨i, j, a, by simp [hlta.ne], ha, hb, common_both hx ha hb⟩
        · rw [common_skip_right hx ha hb hab]
          have := mergeNext_inter fuel (j := j + 1) hi hjb (by omega)
          simpa [hlta.ne, hltb.ne, hab.ne', hab.le.not_gt] using this

/-- The intersection from two places (R138). -/
theorem mergeRun_inter : ∀ (n : Nat) {i j : Nat}, i ≤ (laneList w x).length → j ≤ (laneList w y).length →
    MergeGives w x y n (mergeRun false w x y ⟨i, j, false⟩ n)
    ∧ (mergeOuts w (mergeRun false w x y ⟨i, j, false⟩ n)).map (·.1) = (common w x y i j).take n
  | 0, i, j, _, _ => ⟨⟨rfl, .nil, fun _ h => absurd h List.not_mem_nil⟩, by simp [mergeRun, mergeOuts]⟩
  | n + 1, i, j, hi, hj => by
    have hlx := laneList_length w x
    have hly := laneList_length w y
    rcases mergeNext_inter hx hy (2 * (512 / w) + 1) hi hj (by omega) with ⟨i', j', z, hnext, hzx, hzy, hcom⟩ | ⟨i', j', hnext, hcom⟩
    · obtain ⟨hix, -⟩ := List.getElem?_eq_some_iff.mp hzx
      obtain ⟨hjy, -⟩ := List.getElem?_eq_some_iff.mp hzy
      obtain ⟨⟨hlen, -, horig⟩, hmap⟩ := mergeRun_inter n hix hjy
      have hlt := laneList_lt (List.mem_of_getElem? hzx)
      have hmap' : ((z, (0x80 + i') * 256 + (0x80 + j')) :: mergeOuts w (mergeRun false w x y ⟨i' + 1, j' + 1, false⟩ n)).map (·.1)
          = (common w x y i j).take (n + 1) := by
        rw [List.map_cons, hmap, hcom, List.take_succ_cons]
      rw [mergeRun_succ n hnext]
      refine ⟨⟨by rw [List.length_cons, hlen], ?_, ?_⟩, ?_⟩
      · rw [mergeOuts_cons hlt]
        rw [hmap']
        exact common_ascends hx i j (n + 1)
      · rw [mergeOuts_cons hlt]
        intro p hp
        rcases List.mem_cons.mp hp with rfl | hp
        · rw [originPlace_of_get hx hzx, originPlace_of_get hy hzy]
        · exact horig p hp
      · rw [mergeOuts_cons hlt]
        exact hmap'
    · rw [mergeRun_succ n hnext, mergeRun_done, hcom]
      have houts : mergeOuts w (((2 ^ w - 1, 0) :: List.replicate n (2 ^ w - 1, 0), ⟨i', j', true⟩) : List (Nat × Nat) × MergeAt) = [] :=
        mergeOuts_ended w (n + 1) 0 _
      exact ⟨⟨by simp, by simp [houts], by simp [houts]⟩, by simp [houts]⟩

end
end Sys2Proof.Machine
end

section
/-! SUPPORT. A row of the matrix unit by its format (04 R95, R96, R98, R100, 09 R207). -/
namespace Sys2Proof.Machine

/-- A step for each pair of elements of n bits, in ascending order. -/
def rowFold (n : Nat) (a b : Vec) (step : Nat → Nat → Nat → Nat) (acc : Nat) : Nat :=
  (List.range (512 / n)).foldl (fun acc k => step acc (a.toNat / 2 ^ (n * k) % 2 ^ n) (b.toNat / 2 ^ (n * k) % 2 ^ n)) acc

/-- A row is the fold of the format's step. -/
theorem macRow_eq_rowFold {f fmt n : Nat} (hfmt : mmacFmt f = fmt) (hn : fmtBits fmt = n) (step : Nat → Nat → Nat → Nat) (sat : Bool)
    (a b : Vec × Desc) (acc : Nat) (h : ∀ acc p q, p < 2 ^ n → q < 2 ^ n →
      macStep f sat acc (elementValue fmt a.2 p) (elementValue fmt b.2 q) = step acc p q) :
    macRow f sat a b acc = rowFold n a.1 b.1 step acc := by
  subst hfmt
  subst hn
  exact macRow_of_step acc h

/-- A product added to an FP32 element, rounded once. -/
def fmaStep (acc p q : Nat) : Nat := (fma32 false false 0 p q acc).1

section
variable (sat : Bool) (a b : Vec × Desc) (acc : Nat)

theorem macRow_fp32 : macRow 4 sat a b acc = rowFold 32 a.1 b.1 fmaStep acc := by
  refine macRow_eq_rowFold (fmt := 1) rfl rfl _ sat a b acc fun acc p q _ _ => ?_
  exact macStep_fma rfl sat acc (FVal.Same.refl (fp32 p)) (FVal.Same.refl (fp32 q))

/-- A 16-bit format's elements as FP32, by the conversion op. -/
theorem macRow_widened {f op : Nat} {src : FFmt} (fmt : Nat) (hfmt : mmacFmt f = fmt) (hn : fmtBits fmt = 16) (hacc : mmacAcc f = 0)
    (hval : ∀ d p, elementValue fmt d p = fdecode src p) (hwiden : ∀ b, (fp32 (convert op 0 32 b).1).Same (fdecode src (b % 2 ^ 16))) :
    macRow f sat a b acc = rowFold 16 a.1 b.1 (fun acc p q => fmaStep acc (convert op 0 32 p).1 (convert op 0 32 q).1) acc := by
  refine macRow_eq_rowFold hfmt hn _ sat a b acc fun acc p q hp hq => ?_
  have h (d : Desc) {p : Nat} (hp : p < 2 ^ 16) : (fp32 (convert op 0 32 p).1).Same (elementValue fmt d p) := by
    have := hwiden p
    rwa [Nat.mod_eq_of_lt hp, ← hval d p] at this
  exact macStep_fma hacc sat acc (h a.2 hp) (h b.2 hq)

theorem macRow_int : macRow 5 sat a b acc = rowFold 8 a.1 b.1 (fun acc p q =>
    toBits 32 (if sat then clampInt (-(2 ^ 31)) (2 ^ 31 - 1) (sintOf 32 acc + sintOf 8 p * sintOf 8 q)
      else sintOf 32 acc + sintOf 8 p * sintOf 8 q)) acc :=
  macRow_eq_rowFold (fmt := 6) rfl rfl _ sat a b acc fun acc p q _ _ => macStep_int sat a.2 b.2 acc p q

/-- A product of two DX elements added to an XF element. -/
theorem macRow_dx {f n : Nat} (dx8 : Bool) (hfmt : mmacFmt f = dxFmt dx8) (hn : fmtBits (dxFmt dx8) = n) (hacc : mmacAcc f = 2) :
    macRow f sat a b acc = rowFold n a.1 b.1 (fun acc p q =>
      xfEncode (xfAdd (xfDecode acc) (if a.2.toNat / 256 = 255 ∨ b.2.toNat / 256 = 255 then xfNaN
        else toXF ((if dxCodeNeg (dxFmt dx8) p != dxCodeNeg (dxFmt dx8) q then -1 else 1)
            * (dxCodeMag (dxFmt dx8) p * dxCodeMag (dxFmt dx8) q : Nat))
          (dxCodeUnit (dxFmt dx8) (dxCodeExp (dxFmt dx8) a.2.toNat p) + dxCodeUnit (dxFmt dx8) (dxCodeExp (dxFmt dx8) b.2.toNat q))))) acc := by
  refine macRow_eq_rowFold hfmt hn _ sat a b acc fun acc p q _ _ => ?_
  rw [macStep_xf hacc, elementValue_dx, elementValue_dx, xfOfVal_dxProduct]

end

end Sys2Proof.Machine
end

section
/-! SUPPORT. The statement on single elements (04 R81 to R100, 06 R137 to R142, 09 R207 to R210). -/
namespace Sys2Proof.Machine

/-! ### Typed blocks -/

theorem intVal_natCast (n : Nat) : intVal n = .fin false n 0 := by simp [intVal]

/-- An element of a block in a lane, by its format (R140, R141). -/
theorem decodeElems_spec {sl : Slot} {w : Width} {blk : Vec} {x : Word} {j fmt : Nat} (hmode : sl.frm.toNat ≤ 4)
    (hi : x.toNat / 2 ^ 16 % 512 + j < 512 / fmtBits fmt) (hfmt : x.toNat / 16 % 16 = fmt) :
    let mode := sl.frm.toNat
    let e := element blk fmt (x.toNat / 2 ^ 16 % 512 + j)
    let r := decodeElems sl w blk x j
    (fmt = 1 → Floating fmtFP32 (laneFmt w) mode e r) ∧ (fmt = 2 → Floating fmtBF16 (laneFmt w) mode e r)
    ∧ (fmt = 3 → Floating fmtFP16 (laneFmt w) mode e r) ∧ (fmt = 6 → Whole (laneFmt w) mode (BitVec.ofNat 8 e).toInt r)
    ∧ (fmt = 7 → Whole (laneFmt w) mode e r) ∧ (fmt = 4 ∨ fmt = 5 → DxTo (laneFmt w) mode fmt x.toNat e r) := by
  intro mode e r
  have hw := laneFmt_wide w
  have hplain (h4 : fmt ≠ 4) (h5 : fmt ≠ 5) : r = fencode (laneFmt w) mode (elementValue fmt (x.setWidth 16) e) :=
    decodeElems_plain hi hfmt h4 h5
  have hdx (dx8 : Bool) (h : fmt = dxFmt dx8) : DxTo (laneFmt w) mode fmt x.toNat e r := by
    have hr : r = fencode (laneFmt w) mode (dxValue dx8 (x.setWidth 16) e) := decodeElems_dx hi hfmt dx8 h
    rw [hr, h]
    refine DxTo.of_mod ?_
    rw [← BitVec.toNat_setWidth]
    exact dxTo_fencode hw hmode dx8 _ e
  refine ⟨?_, ?_, ?_, ?_, ?_, fun h => h.elim (hdx true) (hdx false)⟩
  · rintro rfl
    rw [hplain (by decide) (by decide)]
    exact floating_fencode fmtFP32 hw hmode e
  · rintro rfl
    rw [hplain (by decide) (by decide)]
    exact floating_fencode fmtBF16 hw hmode e
  · rintro rfl
    rw [hplain (by decide) (by decide)]
    exact floating_fencode fmtFP16 hw hmode e
  · rintro rfl
    rw [hplain (by decide) (by decide)]
    exact whole_fencode hw hmode _
  · rintro rfl
    rw [hplain (by decide) (by decide), show elementValue 7 (x.setWidth 16) e = .fin false e 0 from rfl, ← intVal_natCast]
    exact whole_fencode hw hmode _

/-! ### Population counts -/

theorem popCount_eq : ∀ (n z : Nat), popCount z n = ((List.range n).filter fun k => z.testBit k).length
  | 0, _ => rfl
  | n + 1, z => by
    rw [popCount, popCount_eq n, List.range_succ_eq_map, List.filter_cons, List.filter_map, Nat.testBit_zero]
    have hshift : ((fun k => z.testBit k) ∘ Nat.succ) = fun k => (z / 2).testBit k := by
      funext k
      exact Nat.testBit_succ z k
    rw [hshift]
    rcases Nat.mod_two_eq_zero_or_one z with h | h <;> simp [h, Nat.add_comm]

theorem binStep_eq (isAnd sat : Bool) (a b : Vec) (acc : Nat) :
    let n := ((List.range 512).filter fun k => if isAnd then a.getLsbD k && b.getLsbD k else a.getLsbD k != b.getLsbD k).length
    let v : Int := (BitVec.ofNat 32 acc).toInt + n
    binStep isAnd sat a b acc = toBits 32 (if sat then clampInt (-(2 ^ 31)) (2 ^ 31 - 1) v else v) := by
  intro n v
  have hn : popCount (if isAnd then a &&& b else a ^^^ b).toNat 512 = n := by
    rw [popCount_eq]
    show _ = (List.filter _ _).length
    congr 2
    funext k
    show (if isAnd then a &&& b else a ^^^ b).getLsbD k = _
    cases isAnd <;> simp
  rw [← saturate_eq (by decide)]
  show binStep isAnd sat a b acc = toBits 32 (if sat then saturate _ _ ((BitVec.ofNat 32 acc).toInt + (n : Int)) else (BitVec.ofNat 32 acc).toInt + (n : Int))
  rw [← hn]
  rfl

/-! ### Blocks by format -/

theorem loadElem_spec (fmt b : Nat) (d : Desc) :
    (fmt = 6 → loadElem 1 fmt d b = toBits 32 (BitVec.ofNat 8 b).toInt)
    ∧ (∀ f ∈ [(1, fmtFP32), (2, fmtBF16), (3, fmtFP16)], f.1 = fmt → (∃ fl, Floating f.2 fmtFP32 0 b (loadElem 0 fmt d b, fl))
      ∧ (f.2.isFin b → Exactly (loadElem 2 fmt d b) (f.2.units b) f.2.unit)
      ∧ (¬f.2.isFin b → loadElem 2 fmt d b = xfEncode ⟨-2 ^ 47, 32767⟩))
    ∧ (fmt = 4 ∨ fmt = 5 → (∃ fl, DxTo fmtFP32 0 fmt d.toNat b (loadElem 0 fmt d b, fl))
      ∧ (d.toNat / 256 = 255 → loadElem 2 fmt d b = xfEncode ⟨-2 ^ 47, 32767⟩)
      ∧ (d.toNat / 256 ≠ 255 → Exactly (loadElem 2 fmt d b) (if dxCodeNeg fmt b then -(dxCodeMag fmt b : Int) else dxCodeMag fmt b)
          (dxCodeUnit fmt (dxCodeExp fmt d.toNat b)))) := by
  have hfloat {f : FFmt} (hval : elementValue fmt d b = fdecode f b) (hfb : f.fb < 47) (hu : -200 ≤ f.unit) (htop : f.unit + 2 ^ f.eb ≤ 32767) :
      (∃ fl, Floating f fmtFP32 0 b (loadElem 0 fmt d b, fl)) ∧ (f.isFin b → Exactly (loadElem 2 fmt d b) (f.units b) f.unit)
        ∧ (¬f.isFin b → loadElem 2 fmt d b = xfEncode ⟨-2 ^ 47, 32767⟩) :=
    ⟨loadElem_floating hval, loadElem_exactly hval hfb hu htop, loadElem_nan hval⟩
  refine ⟨fun _ => loadElem_int fmt d b, ?_, ?_⟩
  · simp only [List.forall_mem_cons]
    refine ⟨?_, ?_, ?_, fun _ h => absurd h List.not_mem_nil⟩
    · rintro rfl
      exact hfloat rfl (by decide) (by decide) (by decide)
    · rintro rfl
      exact hfloat rfl (by decide) (by decide) (by decide)
    · rintro rfl
      exact hfloat rfl (by decide) (by decide) (by decide)
  · rintro (rfl | rfl)
    · exact loadElem_dx true d b
    · exact loadElem_dx false d b

theorem storeBlock_formats {fmt : Nat} (gap : Nat) {xs : List FVal} (hl : xs.length = 512 / fmtBits fmt) :
    ∀ f ∈ [(1, fmtFP32), (2, fmtBF16), (3, fmtFP16)], f.1 = fmt → (storeBlock fmt gap xs).2.toNat = fmt * 16
      ∧ ∀ (j : Nat) (x : FVal), xs[j]? = some x →
        StoredAs f.2 x ((storeBlock fmt gap xs).1.toNat / 2 ^ (fmtBits fmt * j) % 2 ^ fmtBits fmt) := by
  simp only [List.forall_mem_cons]
  refine ⟨?_, ?_, ?_, fun _ h => absurd h List.not_mem_nil⟩
  · rintro rfl
    exact ⟨rfl, fun j x hj => storeBlock_floating wide_fp32 (by decide) (by decide) rfl (fun _ => rfl) hl hj⟩
  · rintro rfl
    exact ⟨rfl, fun j x hj => storeBlock_floating wide_bf16 (by decide) (by decide) rfl (fun _ => rfl) hl hj⟩
  · rintro rfl
    exact ⟨rfl, fun j x hj => storeBlock_floating wide_fp16 (by decide) (by decide) rfl (fun _ => rfl) hl hj⟩

/-- A block in a DX format (R92 to R94, R99). -/
theorem storeBlock_dx_spec (dx8 : Bool) {gap : Nat} {xs : List FVal} (hgap : gap < 16) (hl : xs.length = 512 / fmtBits (dxFmt dx8)) :
    let r := storeBlock (dxFmt dx8) gap xs
    let code (j : Nat) : Nat := r.1.toNat / 2 ^ (fmtBits (dxFmt dx8) * j) % 2 ^ fmtBits (dxFmt dx8)
    let desc := r.2.toNat
    let finite (x : FVal) : Prop := ∃ neg m e, x = .fin neg m e
    ((∃ x ∈ xs, ¬finite x) → r.1 = 0 ∧ desc = 255 * 256 + dxFmt dx8 * 16 + gap)
    ∧ ((∀ x ∈ xs, finite x) → ∃ F : Int, (desc : Int) = (clampInt (-127) 127 F + 127) * 256 + dxFmt dx8 * 16 + gap
      ∧ ((∀ x ∈ xs, ∃ neg e, x = .fin neg 0 e) → F = -127)
      ∧ (∀ T, (∃ x ∈ xs, HasParts x 1 T) → (∀ x ∈ xs, ¬HasParts x 1 (T + 1)) →
        let above : Prop := dxFmt dx8 = 5 ∧ ∃ x ∈ xs, HasParts x 3 (T - 1)
        (above → F = T + 1) ∧ (¬above → F = T))
      ∧ ∀ j neg m e, xs[j]? = some (.fin neg m e) →
        let lo := min e (-200)
        let far (c : Nat) : Nat :=
          ((dxCodeMag (dxFmt dx8) c * 2 ^ (dxCodeUnit (dxFmt dx8) (dxCodeExp (dxFmt dx8) desc c) - lo).toNat : Nat)
            - (m * 2 ^ (e - lo).toNat : Nat) : Int).natAbs
        let c := code j
        dxCodeNeg (dxFmt dx8) c = neg ∧ ∀ c', c' < 2 * dxSel dx8 → far c ≤ far c'
          ∧ (far c' = far c → dxCodeNeg (dxFmt dx8) c' = neg → c' ≠ c → if c' / dxSel dx8 = c / dxSel dx8 then c % 2 = 0 else c < dxSel dx8)) := by
  intro r code desc finite
  obtain ⟨hzeros, hlargest⟩ := dxExponent_spec dx8 xs
  refine ⟨storeBlock_dx_nan dx8 hgap, fun h => ⟨dxExponent dx8 (dxBig xs), ?_, hzeros, hlargest, fun j neg m e hj => storeBlock_dx_code dx8 hgap h hl hj⟩⟩
  rw [← dxScale_clamp]
  exact storeBlock_dx_desc dx8 hgap h

/-- A merge from the beginning of two registers' lists (R138). -/
theorem mergeRun_spec {w n : Nat} {x y : Vec} (hx : (laneList w x).Pairwise (· < ·)) (hy : (laneList w y).Pairwise (· < ·)) :
    UnionGives w x y 0 0 n (mergeRun true w x y ⟨0, 0, false⟩ n) ∧ MergeGives w x y n (mergeRun false w x y ⟨0, 0, false⟩ n)
    ∧ (mergeOuts w (mergeRun false w x y ⟨0, 0, false⟩ n)).map (·.1)
      = ((laneList w x).filter fun v => (laneList w y).contains v).take n := by
  obtain ⟨h1, h2⟩ := mergeRun_inter hx hy n (Nat.zero_le _) (Nat.zero_le _)
  exact ⟨mergeRun_union hx hy n (Nat.zero_le _) (Nat.zero_le _) fun v _ => ⟨by simp, by simp⟩, h1, h2⟩

/-- Settles O60, clause by clause: conversions, a typed block's elements decoded and encoded, merges, rows of products, MLOAD's elements,
MSTORE's blocks, and the population count. -/
theorem elementOperations : Obligations.ElementOperations := by
  unfold Obligations.ElementOperations
  refine ⟨?_, ?_, ?_, ?_, ?_, ⟨?_, ?_⟩, ?_⟩
  · intro mode w x hmode
    exact ⟨convert_floating hmode w x, convert_signed hmode w x, convert_unsigned hmode w x, convert_toWhole mode w x, convert_narrow mode w x⟩
  · intro sl w blk x j hmode
    exact ⟨decodeElems_beyond, fun hi => decodeElems_spec hmode hi rfl⟩
  · intro src mode fmt b desc hsrc hmode hb
    have hw : src.Wide := by rcases hsrc with rfl | rfl; exacts [wide_bf16, wide_fp32]
    have hu : -160 ≤ src.unit := by rcases hsrc with rfl | rfl <;> decide
    refine ⟨?_, ?_, ?_, ?_, ?_, ?_⟩
    · rintro rfl
      exact floating_fencode src wide_fp32 hmode b
    · rintro rfl
      exact floating_fencode src wide_bf16 hmode b
    · rintro rfl
      exact floating_fencode src wide_fp16 hmode b
    · rintro rfl
      exact toWhole_toIntRange src mode b 8 (by decide)
    · rintro rfl
      exact encodeElem_bit mode b hw desc
    · rintro (rfl | rfl)
      · exact ⟨fun h => encodeElem_dx_none true mode (h.imp not_fin_of_fdecode id), fun h1 h2 => encodeElem_dx true hu hmode h1 h2⟩
      · exact ⟨fun h => encodeElem_dx_none false mode (h.imp not_fin_of_fdecode id), fun h1 h2 => encodeElem_dx false hu hmode h1 h2⟩
  · intro w n x y _ s list run outs place hx hy
    obtain ⟨hunion, hinter, hmap⟩ := mergeRun_spec (n := n) hx hy
    have hgives (union : Bool) : MergeGives w x y n (mergeRun union w x y ⟨0, 0, false⟩ n) := by
      cases union
      · exact hinter
      · exact hunion.toMergeGives
    exact ⟨fun union => ⟨(hgives union).length, (hgives union).ascends, (hgives union).origins⟩, hmap, hunion.subset, hunion.missed,
      hunion.countX.trans (Nat.zero_add _), hunion.countY.trans (Nat.zero_add _)⟩
  · intro f sat a b acc _
    refine ⟨?_, ?_, ?_, ?_, ?_, ?_⟩
    · rintro rfl
      exact macRow_fp32 sat a b acc
    · rintro rfl
      exact macRow_widened sat a b acc 2 rfl rfl rfl (fun _ _ => rfl) (fp32_of_bf16 32)
    · rintro rfl
      exact macRow_widened sat a b acc 3 rfl rfl rfl (fun _ _ => rfl) (fp32_of_fp16 32)
    · rintro rfl
      exact macRow_int sat a b acc
    · rintro rfl
      exact macRow_dx sat a b acc true rfl rfl rfl
    · rintro rfl
      exact macRow_dx sat a b acc false rfl rfl rfl
  · exact fun fmt b d _ => loadElem_spec fmt b d
  · intro fmt gap xs hgap hl
    refine ⟨storeBlock_formats gap hl, ?_, ?_⟩
    · rintro rfl
      exact ⟨rfl, fun j v hj => storeBlock_int hl hj⟩
    · rintro (rfl | rfl)
      · exact storeBlock_dx_spec true hgap hl
      · exact storeBlock_dx_spec false hgap hl
  · exact binStep_eq

end Sys2Proof.Machine
end

section
/-! SUPPORT. The step that runs the current slot's next instruction (05 R115, 10 R241 Issue), and the statement on it. -/
namespace Sys2Proof.Machine

/-- Where no agenda names a move and the current slot is not held, it issues. -/
theorem step_issues {s : State} (ha : s.agenda = []) (hs : s.cur.stall = none) (hi : issuesNext s = true) :
    step s = issueNext s s.curCore s.curSlot := by
  simp only [issuesNext, Bool.and_eq_true] at hi
  obtain ⟨⟨⟨⟨hc, hr⟩, -⟩, -⟩, -⟩ := hi
  have hgo : (clocksRun s && (getSlot s s.curCore s.curSlot).status == .running && (getSlot s s.curCore s.curSlot).stall.isNone) = true := by
    simp [hc, show (getSlot s s.curCore s.curSlot).status = .running from beq_iff_eq.mp hr,
      show (getSlot s s.curCore s.curSlot).stall = none from hs]
  rw [step, ha]
  exact if_pos hgo

/-- Nothing comes before the word at the current slot's pc: no spent budget, halt or breakpoint (R37, R345, R346). -/
theorem issueNext_fetches {s : State} (hi : issuesNext s = true) :
    issueNext s s.curCore s.curSlot = issueFetched s s.curCore s.curSlot s.cur := by
  simp only [issuesNext, Bool.and_eq_true, Bool.not_eq_true'] at hi
  obtain ⟨⟨⟨⟨hc, hr⟩, hbudget⟩, hhalt⟩, hbreak⟩ := hi
  rw [State.cur] at hr hbudget hhalt hbreak
  simp only [issueNext, hc, hr, hbudget, hhalt, hbreak, bne, Bool.not_true, Bool.or_self, Bool.false_eq_true, if_false]
  rfl

/-- The word at the current slot's pc, translated and not poisoned, is the one that issues. -/
theorem issueFetched_word {s : State} {pa key : Nat} (hd : s.cur.inDebug = false)
    (ht : translate s (clusterOf s.curCore) s.cur.ctx s.cur.pc .fetch = .ok pa key) (hp : isPoisoned s pa = false) :
    issueFetched s s.curCore s.curSlot s.cur = issueWord s ((readThrough s pa 4 key).setWidth 32) := by
  have hf : fetch s s.curCore s.cur = .word ((readThrough s pa 4 key).setWidth 32) := by
    simp only [fetch, ht, performMem, hp, Bool.false_eq_true, if_false]
  simp only [issueFetched, hd, Bool.false_eq_true, if_false, hf]

theorem issueWord_ok {s : State} {w : BitVec 32} {i : Instr} (h : decodeWord w = .ok i) : issueWord s w = exec i s := by
  simp only [issueWord, h]

theorem issueWord_error {s : State} {w : BitVec 32} {e : DecodeError} (h : decodeWord w = .error e) :
    issueWord s w = exec (.evIllegal w) s := by
  simp only [issueWord, h]

/-- What the current slot's next instruction does, where its word is read (R115). -/
theorem issueNext_word {s : State} {pa key : Nat} (hi : issuesNext s = true) (hd : s.cur.inDebug = false)
    (ht : translate s (clusterOf s.curCore) s.cur.ctx s.cur.pc .fetch = .ok pa key) (hp : isPoisoned s pa = false) :
    issueNext s s.curCore s.curSlot = issueWord s ((readThrough s pa 4 key).setWidth 32) :=
  (issueNext_fetches hi).trans (issueFetched_word hd ht hp)

theorem toNat_append_byte {n : Nat} (x : BitVec n) (y : Byte) : (x ++ y).toNat = y.toNat + 256 * x.toNat := by
  rw [BitVec.toNat_append, ← Nat.shiftLeft_add_eq_or_of_lt y.isLt, Nat.shiftLeft_eq]
  omega

/-- Four bytes read as a word, the lowest first (R6). -/
theorem memRead_four (m : List Host.Cell) (a : Nat) : (BitVec.ofNat 512 (memRead m a 4)).setWidth 32
    = memByte m (a + 3) ++ memByte m (a + 2) ++ memByte m (a + 1) ++ memByte m a := by
  refine BitVec.eq_of_toNat_eq ?_
  simp only [toNat_append_byte, memRead, BitVec.toNat_setWidth, BitVec.toNat_ofNat, Nat.add_assoc, Nat.reduceAdd]
  have h0 := (memByte m a).isLt
  have h1 := (memByte m (a + 1)).isLt
  have h2 := (memByte m (a + 2)).isLt
  have h3 := (memByte m (a + 3)).isLt
  omega

/-- Settles O4: the default move of an empty agenda, and a move of the agenda that names the slot. -/
theorem stepRunsDecodedInstruction : Obligations.StepRunsDecodedInstruction := by
  unfold Obligations.StepRunsDecodedInstruction
  intro s pa key ha hs hi hd ht hp
  have hstep : step s = issueWord s ((readThrough s pa 4 key).setWidth 32) := (step_issues ha hs hi).trans (issueNext_word hi hd ht hp)
  refine ⟨fun i hw => ⟨hstep.trans (issueWord_ok hw), fun c j rest => ?_⟩, fun e hw => hstep.trans (issueWord_error hw), fun hk => ?_⟩
  · have hmove : step { s with curCore := c, curSlot := j, agenda := .issue s.curCore s.curSlot :: rest }
        = issueNext { s with agenda := rest } s.curCore s.curSlot := rfl
    exact hmove.trans ((issueNext_word (s := { s with agenda := rest }) hi hd ht hp).trans (issueWord_ok hw))
  · rw [readThrough, if_neg (Bool.eq_false_iff.mp hk), memRead_four]

end Sys2Proof.Machine
end

section
/-! SUPPORT. Scalar integer instructions (05 R105 to R111): each completes with the value that its operation gives of its operands; and
the statement on the immediate and register operations. -/
namespace Sys2Proof.Machine

/-! ### The shapes of scalar instructions -/

section
variable {i : Instr} {s : State} {sc : BitVec 2} {b a d : BitVec 5} {v : Word}

theorem aluImm_writes {f : Word → Word} (he : exec i s = aluImm f sc a d s) (hv : f (s.found.rx a) = v) :
    WritesFixed i s [xr a] (xr d) 1 sc (ofWord v) := by
  rw [← hv]
  exact writesFixed_of (f := fun sl => ofWord (f (sl.rx a))) he

theorem aluUnary_writes {f : Word → Word} (he : exec i s = aluUnary f sc a d s) (hv : f (s.found.rx a) = v) :
    WritesFixed i s [xr a] (xr d) 1 sc (ofWord v) := aluImm_writes he hv

theorem aluReg_writes {f : Word → Word → Word} {lat : Nat} (he : exec i s = aluReg f lat sc b a d s)
    (hv : f (s.found.rx a) (s.found.rx b) = v) : WritesFixed i s [xr a, xr b] (xr d) lat sc (ofWord v) := by
  rw [← hv]
  exact writesFixed_of (f := fun sl => ofWord (f (sl.rx a) (sl.rx b))) he

theorem divide_writes {f : Word → Word → Word} (he : exec i s = divide f b a d s) (hv : f (s.found.rx a) (s.found.rx b) = v) :
    WritesLater i s [xr a, xr b] [xr d] [(xr d, ofWord v)] := by
  rw [← hv]
  exact writesLater_of (f := fun sl => [(xr d, ofWord (f (sl.rx a) (sl.rx b)))]) he

end

/-! ### Comparisons as the tables state them -/

theorem boolWord_slt (x y : Word) : boolWord (x.slt y) = if x.toInt < y.toInt then 1 else 0 := by
  simp only [boolWord, BitVec.slt_iff_toInt_lt]

theorem boolWord_ult (x y : Word) : boolWord (x.ult y) = if x.toNat < y.toNat then 1 else 0 := by
  simp only [boolWord, BitVec.ult_iff_toNat_lt]

/-- A choice by a strict comparison is that by the weak one, where the two agree on equal operands. -/
theorem ite_lt_eq_ite_le {α β : Type} [LinearOrder β] {m n : β} (p q : α) (h : m = n → p = q) :
    (if m < n then p else q) = if m ≤ n then p else q := by
  rcases lt_trichotomy m n with hlt | heq | hgt
  · rw [if_pos hlt, if_pos hlt.le]
  · rw [if_neg heq.not_lt, if_pos heq.le, h heq]
  · rw [if_neg hgt.not_gt, if_neg hgt.not_ge]

/-- The lesser or greater of two signed words (R108 MIN, MAX). -/
theorem ite_slt (x y p q : Word) (h : x = y → p = q) : (if x.slt y then p else q) = if x.toInt ≤ y.toInt then p else q := by
  simp only [BitVec.slt_iff_toInt_lt]
  exact ite_lt_eq_ite_le p q fun he => h (BitVec.eq_of_toInt_eq he)

/-- The lesser or greater of two unsigned words (R108 MINU, MAXU). -/
theorem ite_ult (x y p q : Word) (h : x = y → p = q) : (if x.ult y then p else q) = if x.toNat ≤ y.toNat then p else q := by
  simp only [BitVec.ult_iff_toNat_lt]
  exact ite_lt_eq_ite_le p q fun he => h (BitVec.eq_of_toNat_eq he)

/-! ### The statement -/

/-- Settles O5: each row of the tables by its arm and its operation. -/
theorem integerOperations : Obligations.IntegerOperations := by
  unfold Obligations.IntegerOperations
  refine ⟨fun s sc imm h u a d => ⟨?_, ?_, ?_, ?_, ?_, ?_, ?_, ?_, ?_, ?_, ?_, fun _ => ?_⟩,
    fun s sc b a d => ⟨?_, ?_, ?_, ?_, ?_, ?_, ?_, ?_, ?_, ?_, ?_, ?_, ?_, ?_, ?_, ?_, ?_⟩⟩
  · exact aluImm_writes (rfl : _ = execAddi ..) rfl
  · exact aluImm_writes (rfl : _ = execAndi ..) rfl
  · exact aluImm_writes (rfl : _ = execOri ..) rfl
  · exact aluImm_writes (rfl : _ = execXori ..) rfl
  · exact aluImm_writes (rfl : _ = execSlti ..) (boolWord_slt ..)
  · exact aluImm_writes (rfl : _ = execSltiu ..) (boolWord_ult ..)
  · exact aluImm_writes (rfl : _ = execSlli ..) rfl
  · exact aluImm_writes (rfl : _ = execSrli ..) rfl
  · exact aluImm_writes (rfl : _ = execSrai ..) rfl
  · exact aluImm_writes (rfl : _ = execRori ..) rfl
  · exact writesFixed_of (f := fun _ => ofWord (immU u)) (rfl : _ = execLui ..)
  · rw [← found_pc]
    exact writesFixed_of (f := fun sl => ofWord (sl.pc + immU u)) (rfl : _ = execAuipc ..)
  · exact aluReg_writes (rfl : _ = execAdd ..) rfl
  · exact aluReg_writes (rfl : _ = execSub ..) rfl
  · exact aluReg_writes (rfl : _ = execAnd ..) rfl
  · exact aluReg_writes (rfl : _ = execOr ..) rfl
  · exact aluReg_writes (rfl : _ = execXor ..) rfl
  · exact aluReg_writes (rfl : _ = execAndn ..) rfl
  · exact aluReg_writes (rfl : _ = execSll ..) rfl
  · exact aluReg_writes (rfl : _ = execSrl ..) rfl
  · exact aluReg_writes (rfl : _ = execSra ..) rfl
  · exact aluReg_writes (rfl : _ = execRol ..) rfl
  · exact aluReg_writes (rfl : _ = execRor ..) rfl
  · exact aluReg_writes (rfl : _ = execSlt ..) (boolWord_slt ..)
  · exact aluReg_writes (rfl : _ = execSltu ..) (boolWord_ult ..)
  · exact aluReg_writes (rfl : _ = execMin ..) (ite_slt _ _ _ _ id)
  · exact aluReg_writes (rfl : _ = execMax ..) (ite_slt _ _ _ _ Eq.symm)
  · exact aluReg_writes (rfl : _ = execMinu ..) (ite_ult _ _ _ _ id)
  · exact aluReg_writes (rfl : _ = execMaxu ..) (ite_ult _ _ _ _ Eq.symm)

end Sys2Proof.Machine
end

section
/-! SUPPORT. Multiplies and divides (05 R109, R110), the words of their forms, and the statement on them. -/
namespace Sys2Proof.Machine

/-! ### Words -/

/-- A word that the decoder of its major opcode reads as a well-formed instruction. -/
theorem decodeWord_of_fields {w : BitVec 32} {i : Instr} (h : decodeFields w = .ok i) (hc : i.check = none) : decodeWord w = .ok i :=
  decodeWord_eq_ok_iff.mpr ⟨h, hc⟩

/-- A word that the decoder of its major opcode refuses is no instruction. -/
theorem decodeWord_ne_ok {w : BitVec 32} (h : ∃ e, decodeFields w = .error e) (i : Instr) : decodeWord w ≠ .ok i := by
  obtain ⟨e, he⟩ := h
  intro hi
  have hf := (decodeWord_eq_ok_iff.mp hi).1
  rw [he] at hf
  cases hf

/-- A word of format R with the major opcode of multiplies and divides (R63, R71). -/
def multiplyWord (sc : BitVec 2) (f3 : BitVec 3) (f5 b a d : BitVec 5) : BitVec 32 := sc ++ f3 ++ f5 ++ b ++ a ++ d ++ 0x0B#7

section
variable (sc : BitVec 2) (f3 : BitVec 3) (f5 b a d : BitVec 5)

theorem fld_multiplyWord : fld (multiplyWord sc f3 f5 b a d) 27 3 = f3 ∧ fld (multiplyWord sc f3 f5 b a d) 22 5 = f5
    ∧ fld (multiplyWord sc f3 f5 b a d) 30 2 = sc ∧ fld (multiplyWord sc f3 f5 b a d) 17 5 = b
    ∧ fld (multiplyWord sc f3 f5 b a d) 12 5 = a ∧ fld (multiplyWord sc f3 f5 b a d) 7 5 = d := by
  simp only [multiplyWord, HAppend.hAppend, fld, read_upper, read_lower, Nat.reduceLeDiff, Nat.reduceAdd, Nat.reduceSub,
    BitVec.extractLsb'_eq_self, and_self]

theorem decodeFields_multiplyWord : decodeFields (multiplyWord sc f3 f5 b a d) = decode0B (multiplyWord sc f3 f5 b a d) := by
  have hop : fld (multiplyWord sc f3 f5 b a d) 0 7 = 0x0B#7 := major_append _ _
  rw [decodeFields, hop]
  rfl

/-- The multiplies, with f5 = 0. -/
theorem decode_multiply : decodeWord (multiplyWord sc 0 0 b a d) = .ok (.mul sc b a d)
    ∧ decodeWord (multiplyWord sc 1 0 b a d) = .ok (.mulh sc b a d) ∧ decodeWord (multiplyWord sc 2 0 b a d) = .ok (.mulhu sc b a d)
    ∧ decodeWord (multiplyWord sc 3 0 b a d) = .ok (.mulhsu sc b a d) := by
  refine ⟨?_, ?_, ?_, ?_⟩
  all_goals
    refine decodeWord_of_fields ?_ rfl
    simp [decodeFields_multiplyWord, decode0B, fld_multiplyWord]

/-- The divides, with f5 = 0 and SC = 0 (R74). -/
theorem decode_divide : decodeWord (multiplyWord 0 4 0 b a d) = .ok (.div b a d)
    ∧ decodeWord (multiplyWord 0 5 0 b a d) = .ok (.divu b a d) ∧ decodeWord (multiplyWord 0 6 0 b a d) = .ok (.rem b a d)
    ∧ decodeWord (multiplyWord 0 7 0 b a d) = .ok (.remu b a d) := by
  refine ⟨?_, ?_, ?_, ?_⟩
  all_goals
    refine decodeWord_of_fields ?_ rfl
    simp [decodeFields_multiplyWord, decode0B, fld_multiplyWord]

variable {sc f3 f5}

theorem decode_multiply_f5 (h : f5 ≠ 0) (i : Instr) : decodeWord (multiplyWord sc f3 f5 b a d) ≠ .ok i := by
  refine decodeWord_ne_ok ?_ i
  simp only [decodeFields_multiplyWord, decode0B, fld_multiplyWord, show ¬ f5 = 0#5 from h, false_and, if_false]
  repeat' split
  all_goals exact ⟨_, rfl⟩

theorem decode_divide_sc (h : sc ≠ 0) (h4 : 4 ≤ f3.toNat) (i : Instr) : decodeWord (multiplyWord sc f3 f5 b a d) ≠ .ok i := by
  have hne (n : BitVec 3) (hn : n.toNat < 4) : ¬ f3 = n := by
    rintro rfl
    omega
  refine decodeWord_ne_ok ?_ i
  simp only [decodeFields_multiplyWord, decode0B, fld_multiplyWord, show ¬ sc = 0#2 from h, and_false, if_false,
    hne 0#3 (by decide), hne 1#3 (by decide), hne 2#3 (by decide), hne 3#3 (by decide)]
  repeat' split
  all_goals exact ⟨_, rfl⟩

end

/-! ### Products -/

/-- Bits 127 to 64 of a product of 64-bit operands. -/
theorem mulHigh_eq (p : Int) : mulHigh p = (BitVec.ofInt 128 p).extractLsb' 64 64 := by
  refine BitVec.eq_of_toNat_eq ?_
  rw [mulHigh, BitVec.toNat_ofInt, BitVec.extractLsb'_toNat, BitVec.toNat_ofInt, Nat.shiftRight_eq_div_pow]
  omega

theorem mulHigh_natCast (n : Nat) : mulHigh n = (BitVec.ofNat 128 n).extractLsb' 64 64 := by
  rw [mulHigh_eq, BitVec.ofInt_natCast]

theorem mul_eq_ofInt (x y : Word) : x * y = BitVec.ofInt 64 (x.toInt * y.toInt) := by
  rw [BitVec.ofInt_mul, BitVec.ofInt_toInt, BitVec.ofInt_toInt]

/-! ### Quotients and remainders -/

theorem ofInt_tdiv_edge {x y : Word} (hx : x.toInt = -(2 ^ 63)) (hy : y.toInt = -1) :
    BitVec.ofInt 64 (x.toInt.tdiv y.toInt) = x := by
  rw [← BitVec.ofInt_toInt (x := x), hx, hy]
  rfl

theorem ofInt_tmod_edge {x y : Word} (hx : x.toInt = -(2 ^ 63)) (hy : y.toInt = -1) :
    BitVec.ofInt 64 (x.toInt.tmod y.toInt) = 0 := by
  rw [hx, hy]
  rfl

theorem tdiv_mul_add_tmod_word (x y : Word) :
    BitVec.ofInt 64 (x.toInt.tdiv y.toInt) * y + BitVec.ofInt 64 (x.toInt.tmod y.toInt) = x := by
  calc _ = BitVec.ofInt 64 (x.toInt.tdiv y.toInt) * BitVec.ofInt 64 y.toInt + BitVec.ofInt 64 (x.toInt.tmod y.toInt) := by
        rw [BitVec.ofInt_toInt (x := y)]
    _ = BitVec.ofInt 64 x.toInt := by rw [← BitVec.ofInt_mul, ← BitVec.ofInt_add, Int.tdiv_mul_add_tmod]
    _ = x := BitVec.ofInt_toInt

theorem div_mul_add_mod_word (x y : Word) :
    BitVec.ofNat 64 (x.toNat / y.toNat) * y + BitVec.ofNat 64 (x.toNat % y.toNat) = x := by
  calc _ = BitVec.ofNat 64 (x.toNat / y.toNat) * BitVec.ofNat 64 y.toNat + BitVec.ofNat 64 (x.toNat % y.toNat) := by
        rw [BitVec.ofNat_toNat, BitVec.setWidth_eq]
    _ = BitVec.ofNat 64 x.toNat := by rw [← BitVec.ofNat_mul, ← BitVec.ofNat_add, Nat.div_add_mod']
    _ = x := by rw [BitVec.ofNat_toNat, BitVec.setWidth_eq]

/-- A remainder is not of the other sign than its dividend (R110). -/
theorem pos_of_tmod_pos {m n : Int} (h : 0 < m.tmod n) : 0 < m := by
  by_contra hm
  have := Int.tmod_nonneg n (show 0 ≤ -m by omega)
  rw [Int.neg_tmod] at this
  omega

theorem neg_of_tmod_neg {m n : Int} (h : m.tmod n < 0) : m < 0 := by
  by_contra hm
  exact absurd (Int.tmod_nonneg n (not_lt.mp hm)) (not_le.mpr h)

/-- The table's row for −2^63 by −1 is what truncation gives: it needs no row of its own. -/
theorem edge_row {c p : Prop} [Decidable c] [Decidable p] {u v t : Word} (h : p → t = v) :
    (if c then u else t) = if c then u else if p then v else t := by
  by_cases hp : p <;> simp [hp, h]

/-! ### The statement -/

/-- Settles O6: the values by the exact product and by truncated division, the words by their encoding. -/
theorem multiplyAndDivide : Obligations.MultiplyAndDivide := by
  unfold Obligations.MultiplyAndDivide
  refine ⟨fun s sc b a d => ⟨?_, ?_, ?_, ?_, fun f5 => ⟨fun h => ?_, fun h f3 => ?_⟩, ?_⟩,
    fun s b a d => ⟨?_, ?_, ?_, ?_, fun _ => ?_, ?_, ?_⟩⟩
  · exact aluReg_writes (rfl : _ = execMul ..) (mul_eq_ofInt ..)
  · exact aluReg_writes (rfl : _ = execMulh ..) (mulHigh_eq ..)
  · exact aluReg_writes (rfl : _ = execMulhu ..) (by rw [← Nat.cast_mul, mulHigh_natCast])
  · exact aluReg_writes (rfl : _ = execMulhsu ..) (mulHigh_eq ..)
  · subst h
    exact decode_multiply sc b a d
  · exact decode_multiply_f5 b a d h
  · exact (decode_multiply 1 22 13 13).1
  · exact divide_writes (rfl : _ = execDiv ..) (edge_row fun h => ofInt_tdiv_edge h.1 h.2)
  · exact divide_writes (rfl : _ = execDivu ..) rfl
  · exact divide_writes (rfl : _ = execRem ..) (edge_row fun h => ofInt_tmod_edge h.1 h.2)
  · exact divide_writes (rfl : _ = execRemu ..) rfl
  · exact ⟨tdiv_mul_add_tmod_word .., div_mul_add_mod_word .., pos_of_tmod_pos, neg_of_tmod_neg⟩
  · obtain ⟨hdiv, hdivu, hrem, hremu⟩ := decode_divide b a d
    exact ⟨hdiv, hdivu, hrem, hremu, fun z hz f3 hf3 => decode_divide_sc b a d hz hf3⟩
  · exact (decode_divide 6 5 13).2.2.2

end Sys2Proof.Machine
end

section
/-! SUPPORT. Bit manipulation (05 R111): what each loop of the model computes, bit by bit, and the statement on it. -/
namespace Sys2Proof.Machine

/-! ### Leading and trailing zeros -/

/-- Of an n-bit value, the bit below the leading zeros is its highest one bit. -/
theorem leadZeros_spec (x : Nat) : ∀ n, x < 2 ^ n →
    leadZeros x n ≤ n ∧ x < 2 ^ (n - leadZeros x n) ∧ (leadZeros x n < n → 2 ^ (n - 1 - leadZeros x n) ≤ x)
  | 0, hx => ⟨le_rfl, hx, fun h => absurd h (lt_irrefl 0)⟩
  | n + 1, hx => by
    have hlt : x / 2 ^ n < 2 := Nat.div_lt_of_lt_mul (by rwa [← pow_succ])
    rw [leadZeros]
    split
    · next h1 =>
      have hle : 2 ^ n ≤ x := by
        by_contra hc
        rw [Nat.div_eq_of_lt (not_le.mp hc)] at h1
        cases h1
      exact ⟨Nat.zero_le _, hx, fun _ => hle⟩
    · next h1 =>
      have hx' : x < 2 ^ n := (Nat.div_eq_zero_iff_lt (Nat.two_pow_pos n)).mp (by
        generalize x / 2 ^ n = q at hlt h1
        omega)
      obtain ⟨hle, hup, hlow⟩ := leadZeros_spec x n hx'
      refine ⟨by omega, ?_, fun h => ?_⟩
      · rwa [show n + 1 - (1 + leadZeros x n) = n - leadZeros x n by omega]
      · rw [show n + 1 - 1 - (1 + leadZeros x n) = n - 1 - leadZeros x n by omega]
        exact hlow (by omega)

theorem trailZeros_spec : ∀ n x : Nat,
    trailZeros x n ≤ n ∧ (∀ j, j < trailZeros x n → x.testBit j = false) ∧ (trailZeros x n < n → x.testBit (trailZeros x n) = true)
  | 0, _ => ⟨le_rfl, fun _ h => absurd h (Nat.not_lt_zero _), fun h => absurd h (lt_irrefl 0)⟩
  | n + 1, x => by
    rw [trailZeros]
    split
    · next h1 => exact ⟨Nat.zero_le _, fun _ h => absurd h (Nat.not_lt_zero _), fun _ => by simp [h1]⟩
    · next h1 =>
      obtain ⟨hle, hzero, hone⟩ := trailZeros_spec n (x / 2)
      refine ⟨by omega, fun j hj => ?_, fun h => ?_⟩
      · cases j with
        | zero => simpa using h1
        | succ j => exact (Nat.testBit_succ x j).trans (hzero j (by omega))
      · rw [Nat.add_comm, Nat.testBit_succ]
        exact hone (by omega)

/-! ### Extraction and deposit -/

/-- The places of the one bits of m below n, rising: where bit 0 is one it comes first, and the others are one above those of m / 2. -/
theorem ones_succ (m n : Nat) : (List.range (n + 1)).filter m.testBit
    = (if m % 2 = 1 then [0] else []) ++ ((List.range n).filter (m / 2).testBit).map Nat.succ := by
  have hshift : m.testBit ∘ Nat.succ = (m / 2).testBit := funext fun k => Nat.testBit_succ m k
  rw [List.range_succ_eq_map, List.filter_cons, List.filter_map, hshift]
  by_cases h : m % 2 = 1 <;> simp [h]

theorem testBit_bit (b y j : Nat) (hb : b < 2) : (b + 2 * y).testBit j = if j = 0 then decide (b = 1) else y.testBit (j - 1) := by
  cases j with
  | zero => simp [Nat.testBit_zero, Nat.add_mod, Nat.mod_eq_of_lt hb]
  | succ j => simp [Nat.testBit_succ, show (b + 2 * y) / 2 = y by omega]

/-- Bit j of an extraction is the bit of x at the j-th one bit of m. -/
theorem bitExtract_testBit : ∀ n x m j : Nat, (bitExtract x m n).testBit j
    = match ((List.range n).filter m.testBit)[j]? with | some p => x.testBit p | none => false
  | 0, _, _, _ => by simp [bitExtract]
  | n + 1, x, m, j => by
    rw [bitExtract, ones_succ]
    split
    · rw [testBit_bit _ _ _ (Nat.mod_lt x (by decide))]
      cases j with
      | zero => simp [Nat.testBit_zero]
      | succ j =>
        simp only [Nat.succ_ne_zero, if_false, Nat.add_sub_cancel, bitExtract_testBit n (x / 2) (m / 2) j, List.cons_append,
          List.nil_append, List.getElem?_cons_succ, List.getElem?_map]
        cases ((List.range n).filter (m / 2).testBit)[j]? <;> simp [Nat.testBit_succ]
    · simp only [bitExtract_testBit n (x / 2) (m / 2) j, List.nil_append, List.getElem?_map]
      cases ((List.range n).filter (m / 2).testBit)[j]? <;> simp [Nat.testBit_succ]

/-- Bit p of a deposit is, at a one bit of m, the bit of x whose number is that of the one bits of m below p. -/
theorem bitDeposit_testBit : ∀ n x m p : Nat, p < n → (bitDeposit x m n).testBit p
    = (m.testBit p && x.testBit ((List.range p).filter m.testBit).length)
  | n + 1, x, m, 0, _ => by
    rw [bitDeposit]
    split
    · next h => simp [Nat.testBit_zero, h, Nat.add_mod]
    · next h => simp [Nat.testBit_zero, h]
  | n + 1, x, m, p + 1, hp => by
    rw [bitDeposit, ones_succ, Nat.testBit_succ m p]
    split
    · rw [testBit_bit _ _ _ (Nat.mod_lt x (by decide))]
      simp [bitDeposit_testBit n (x / 2) (m / 2) p (by omega), Nat.testBit_succ]
    · have hz := testBit_bit 0 (bitDeposit x (m / 2) n) (p + 1) (by decide)
      rw [Nat.zero_add] at hz
      simp [hz, bitDeposit_testBit n x (m / 2) p (by omega)]

/-! ### Bytes reversed -/

theorem reverseBytes_lt : ∀ n x : Nat, reverseBytes x n < 256 ^ n
  | 0, _ => by simp [reverseBytes]
  | n + 1, x => by
    have hrest := reverseBytes_lt n (x / 256)
    have htop : x % 256 * 256 ^ n ≤ 255 * 256 ^ n := Nat.mul_le_mul_right _ (by omega)
    rw [reverseBytes, pow_succ]
    omega

theorem reverseBytes_byte : ∀ n x k : Nat, k < n → reverseBytes x n / 256 ^ k % 256 = x / 256 ^ (n - 1 - k) % 256
  | n + 1, x, k, hk => by
    rw [reverseBytes]
    rcases Nat.lt_succ_iff_lt_or_eq.mp hk with hlt | rfl
    · have hpow : x % 256 * 256 ^ n = 256 ^ k * (256 * (x % 256 * 256 ^ (n - k - 1))) := by
        have hn : 256 ^ n = 256 ^ k * (256 * 256 ^ (n - k - 1)) := by
          rw [← pow_succ', ← pow_add, show k + (n - k - 1 + 1) = n by omega]
        rw [hn]
        ring
      rw [hpow, Nat.mul_add_div (Nat.pow_pos (by decide)), Nat.mul_add_mod, reverseBytes_byte n (x / 256) k hlt,
        Nat.div_div_eq_div_mul, ← pow_succ', show n - 1 - k + 1 = n + 1 - 1 - k by omega]
    · rw [Nat.mul_comm, Nat.mul_add_div (Nat.pow_pos (by decide)), Nat.div_eq_of_lt (reverseBytes_lt k _)]
      simp

/-! ### The statement -/

theorem bitExtract_getLsbD (x m : Word) (j : Nat) (hj : j < 64) : (BitVec.ofNat 64 (bitExtract x.toNat m.toNat 64)).getLsbD j
    = match ((List.range 64).filter m.getLsbD)[j]? with | some p => x.getLsbD p | none => false := by
  rw [BitVec.getLsbD_ofNat, bitExtract_testBit, decide_eq_true hj, Bool.true_and]
  rfl

theorem bitDeposit_getLsbD (x m : Word) (p : Nat) (hp : p < 64) : (BitVec.ofNat 64 (bitDeposit x.toNat m.toNat 64)).getLsbD p
    = (m.getLsbD p && x.getLsbD ((List.range p).filter m.getLsbD).length) := by
  rw [BitVec.getLsbD_ofNat, bitDeposit_testBit 64 _ _ _ hp, decide_eq_true hp, Bool.true_and]
  rfl

theorem reverseBytes_extract (x : Word) (k : Nat) (hk : k < 8) :
    (BitVec.ofNat 64 (reverseBytes x.toNat 8)).extractLsb' (8 * k) 8 = x.extractLsb' (8 * (7 - k)) 8 := by
  refine BitVec.eq_of_toNat_eq ?_
  rw [BitVec.extractLsb'_toNat, BitVec.extractLsb'_toNat, BitVec.toNat_ofNat,
    Nat.mod_eq_of_lt (show _ < 2 ^ 64 from reverseBytes_lt 8 _), Nat.shiftRight_eq_div_pow, Nat.shiftRight_eq_div_pow, pow_mul, pow_mul]
  exact reverseBytes_byte 8 _ k hk

/-- Settles O7: each operation by what its loop computes. -/
theorem bitManipulation : Obligations.BitManipulation := by
  unfold Obligations.BitManipulation
  intro s sc b a d x m ones W1 W2
  refine ⟨⟨leadZeros x.toNat 64, ?_⟩, ⟨trailZeros x.toNat 64, ?_⟩, ?_, ⟨_, aluReg_writes (rfl : _ = execBext ..) rfl, ?_⟩,
    ⟨_, aluReg_writes (rfl : _ = execBdep ..) rfl, ?_⟩, ?_, ?_, ?_, ⟨_, aluUnary_writes (rfl : _ = execRev8 ..) rfl, ?_⟩⟩
  · obtain ⟨hle, hup, hlow⟩ := leadZeros_spec x.toNat 64 x.isLt
    exact ⟨hle, hup, hlow, aluUnary_writes (rfl : _ = execClz ..) rfl⟩
  · obtain ⟨hle, hzero, hone⟩ := trailZeros_spec 64 x.toNat
    exact ⟨hle, hzero, hone, aluUnary_writes (rfl : _ = execCtz ..) rfl⟩
  · exact aluUnary_writes (rfl : _ = execPopc ..) (congrArg _ (popCount_eq 64 x.toNat))
  · exact bitExtract_getLsbD x m
  · exact bitDeposit_getLsbD x m
  · exact aluUnary_writes (rfl : _ = execSextb ..) rfl
  · exact aluUnary_writes (rfl : _ = execSexth ..) rfl
  · exact aluUnary_writes (rfl : _ = execSextw ..) rfl
  · exact reverseBytes_extract x

end Sys2Proof.Machine
end

section
/-! SUPPORT. Jumps and branches (05 R112 to R114), their words, and the statement on them. -/
namespace Sys2Proof.Machine

/-! ### The instructions -/

section
variable {i : Instr} {s : State}

theorem jal_jumps {imm : BitVec 20} {d : BitVec 5} (h : canIssue s [] [xr d] = true) :
    Does (.jal imm d) s fun u => Retires s u 0 (s.cur.pc + imm.signExtend 64 * 4)
      (s.found.writeFix (xr d) (ofWord (s.cur.pc + 4)) 1) := by
  refine ⟨_, (rfl : _ = execJal imm d s).trans (issue_can h), ?_⟩
  simpa [State.settled, State.setCur] using
    retires_retire s (s.found.writeFix (xr d) (ofWord (s.cur.pc + 4)) 1) 0 (s.cur.pc + imm.signExtend 64 * 4)

theorem jalr_jumps {imm : BitVec 13} {a d : BitVec 5} (h : canIssue s [xr a] [xr d] = true)
    (ht : (s.found.rx a + imm.signExtend 64).toNat % 4 = 0) :
    Does (.jalr imm a d) s fun u => Retires s u 0 (s.found.rx a + imm.signExtend 64)
      (s.found.writeFix (xr d) (ofWord (s.cur.pc + 4)) 1) := by
  refine ⟨_, (rfl : _ = execJalr imm a d s).trans (issue_can h), ?_⟩
  simp only [bne_eq_false_iff_eq.mpr ht, Bool.false_eq_true, if_false]
  simpa [State.settled, State.setCur] using
    retires_retire s (s.found.writeFix (xr d) (ofWord (s.cur.pc + 4)) 1) 0 (s.found.rx a + imm.signExtend 64)

theorem jalr_traps {imm : BitVec 13} {a d : BitVec 5} (h : canIssue s [xr a] [xr d] = true)
    (ht : (s.found.rx a + imm.signExtend 64).toNat % 4 ≠ 0) :
    Traps (.jalr imm a d) s 0x03 (s.found.rx a + imm.signExtend 64) := by
  refine ((rfl : _ = execJalr imm a d s).trans (issue_can h)).trans ?_
  simp only [bne_iff_ne.mpr ht, if_true, found_pc]
  rfl

/-- A branch whose condition is the proposition p (R114). -/
theorem branch_continues {cond : Word → Word → Bool} {off : BitVec 12} {b a : BitVec 5} {p : Prop} [Decidable p]
    (he : exec i s = branch cond off b a s) (hp : cond (s.found.rx a) (s.found.rx b) = true ↔ p) (h : canIssue s [xr a, xr b] [] = true) :
    Does i s fun u => Retires s u 0 (if p then s.cur.pc + off.signExtend 64 * 4 else s.cur.pc + 4) s.found := by
  refine ⟨_, he.trans (issue_can h), ?_⟩
  simpa [State.settled, State.setCur, hp] using
    retires_retire s s.found 0 (if p then s.cur.pc + off.signExtend 64 * 4 else s.cur.pc + 4)

end

/-! ### The words -/

/-- The two bits above the immediate of a JALR are zero (R63). -/
theorem jalr_word_z {z : BitVec 2} (hz : z ≠ 0) (imm : BitVec 13) (a d : BitVec 5) (i : Instr) :
    decodeWord (z ++ imm ++ a ++ d ++ 0x22#7) ≠ .ok i := by
  have hop : fld (z ++ imm ++ a ++ d ++ 0x22#7) 0 7 = 0x22#7 := major_append _ _
  have hfld : fld (z ++ imm ++ a ++ d ++ 0x22#7) 30 2 = z := by
    simp only [HAppend.hAppend, fld, read_upper, Nat.reduceLeDiff, Nat.reduceAdd, Nat.reduceSub, BitVec.extractLsb'_eq_self]
  refine decodeWord_ne_ok ⟨.zeroField, ?_⟩ i
  rw [decodeFields, hop]
  exact if_neg (by rwa [hfld])

/-- The word of a branch by its condition code (R63, R71). -/
def branchWord (cond : BitVec 3) (hi : BitVec 7) (lo b a : BitVec 5) : BitVec 32 := cond ++ hi ++ b ++ a ++ lo ++ 0x24#7

section
variable (cond : BitVec 3) (hi : BitVec 7) (lo b a : BitVec 5)

theorem fld_branchWord : fld (branchWord cond hi lo b a) 29 3 = cond ∧ fld (branchWord cond hi lo b a) 22 7 = hi
    ∧ fld (branchWord cond hi lo b a) 17 5 = b ∧ fld (branchWord cond hi lo b a) 12 5 = a ∧ fld (branchWord cond hi lo b a) 7 5 = lo := by
  simp only [branchWord, HAppend.hAppend, fld, read_upper, read_lower, Nat.reduceLeDiff, Nat.reduceAdd, Nat.reduceSub,
    BitVec.extractLsb'_eq_self, and_self]

theorem decodeFields_branchWord : decodeFields (branchWord cond hi lo b a) = decode24 (branchWord cond hi lo b a) := by
  have hop : fld (branchWord cond hi lo b a) 0 7 = 0x24#7 := major_append _ _
  rw [decodeFields, hop]
  rfl

theorem decode_branch : decodeWord (branchWord 0 hi lo b a) = .ok (.beq (hi ++ lo) b a)
    ∧ decodeWord (branchWord 1 hi lo b a) = .ok (.bne (hi ++ lo) b a) ∧ decodeWord (branchWord 2 hi lo b a) = .ok (.blt (hi ++ lo) b a)
    ∧ decodeWord (branchWord 3 hi lo b a) = .ok (.bge (hi ++ lo) b a) ∧ decodeWord (branchWord 4 hi lo b a) = .ok (.bltu (hi ++ lo) b a)
    ∧ decodeWord (branchWord 5 hi lo b a) = .ok (.bgeu (hi ++ lo) b a) := by
  refine ⟨?_, ?_, ?_, ?_, ?_, ?_⟩
  all_goals
    refine decodeWord_of_fields ?_ rfl
    simp [decodeFields_branchWord, decode24, fld_branchWord]

/-- Condition codes 6 and 7 name no branch. -/
theorem decode_branch_unassigned (i : Instr) (hc : cond = 6 ∨ cond = 7) : decodeWord (branchWord cond hi lo b a) ≠ .ok i := by
  refine decodeWord_ne_ok ⟨.selector, ?_⟩ i
  rcases hc with rfl | rfl <;> simp [decodeFields_branchWord, decode24, fld_branchWord]

end

theorem not_slt_iff {x y : Word} : (!x.slt y) = true ↔ y.toInt ≤ x.toInt := by
  rw [Bool.not_eq_true', ← Bool.not_eq_true, BitVec.slt_iff_toInt_lt, not_lt]

theorem not_ult_iff {x y : Word} : (!x.ult y) = true ↔ y.toNat ≤ x.toNat := by
  rw [Bool.not_eq_true', ← Bool.not_eq_true, BitVec.ult_iff_toNat_lt, not_lt]

/-- A sign-extended immediate lies in the range of its bits. -/
theorem toInt_signExtend_range {n : Nat} (x : BitVec n) (h : n ≤ 64) :
    -2 ^ (n - 1) ≤ (x.signExtend 64 : Word).toInt ∧ (x.signExtend 64 : Word).toInt < 2 ^ (n - 1) := by
  rw [BitVec.toInt_signExtend_of_le h]
  exact ⟨BitVec.le_toInt x, BitVec.toInt_lt⟩

/-- Settles O8: the jumps and branches by what they leave, their words by the fields. -/
theorem jumpsAndBranches : Obligations.JumpsAndBranches := by
  unfold Obligations.JumpsAndBranches
  refine ⟨fun s imm imm' a d => ⟨fun _ => ⟨fun h => ?_, jalr_jumps, jalr_traps⟩, ?_, ?_, fun z hz => jalr_word_z hz imm' a d, ?_,
    toInt_signExtend_range imm (by decide)⟩, fun s off b a h _ => ⟨?_, ?_, ?_, ?_, ?_, ?_, ?_⟩⟩
  · exact jal_jumps h
  · exact decodeOfEncode (.jal imm d) rfl
  · exact decodeOfEncode (.jalr imm' a d) rfl
  · exact decodeOfEncode (.jalr 0 1 0) rfl
  · exact branch_continues (rfl : _ = execBeq ..) beq_iff_eq h
  · exact branch_continues (rfl : _ = execBne ..) bne_iff_ne h
  · exact branch_continues (rfl : _ = execBlt ..) BitVec.slt_iff_toInt_lt h
  · exact branch_continues (rfl : _ = execBge ..) not_slt_iff h
  · exact branch_continues (rfl : _ = execBltu ..) BitVec.ult_iff_toNat_lt h
  · exact branch_continues (rfl : _ = execBgeu ..) not_ult_iff h
  · obtain ⟨hlow, hhigh⟩ := toInt_signExtend_range off (by decide)
    refine ⟨hlow, hhigh, fun hi lo => ?_⟩
    obtain ⟨hbeq, hbne, hblt, hbge, hbltu, hbgeu⟩ := decode_branch hi lo b a
    exact ⟨hbeq, hbne, hblt, hbge, hbltu, hbgeu, fun i => ⟨decode_branch_unassigned 6 hi lo b a i (.inl rfl),
      decode_branch_unassigned 7 hi lo b a i (.inr rfl)⟩⟩

end Sys2Proof.Machine
end

section
/-! SUPPORT. CSR instructions (05 R116, R117): what each CSR reads, what a write changes, and the statement on them. -/
namespace Sys2Proof.Machine

/-! ### Writes -/

@[simp] theorem csrWrite_pc (sl : Slot) (n : Nat) (v : Word) : (csrWrite sl n v).pc = sl.pc := by
  unfold csrWrite
  repeat' split
  all_goals rfl

theorem csrWrite_fflags (sl : Slot) (v : Word) : csrWrite sl 0x001 v = { sl with fflags := v.setWidth 5 } := rfl

theorem csrWrite_frm (sl : Slot) (v : Word) :
    csrWrite sl 0x002 v = { sl with frm := if v.toNat % 8 ≤ 4 then v.setWidth 3 else sl.frm } := by
  show (if v.toNat % 8 ≤ 4 then { sl with frm := v.setWidth 3 } else sl) = _
  split <;> rfl

theorem csrWrite_chk (sl : Slot) (v : Word) : csrWrite sl 0x003 v = { sl with chk := v.getLsbD 0 } := rfl

theorem csrWrite_oscope (sl : Slot) (v : Word) :
    csrWrite sl 0x004 v = { sl with oscope := (scopeOf (v.toNat % 8)).getD sl.oscope } := by
  show (match scopeOf (v.toNat % 8) with | some x => { sl with oscope := x } | none => sl) = _
  cases scopeOf (v.toNat % 8) <;> rfl

/-- The scope that a code names has that code; the codes 6 and 7 name none. -/
theorem scopeCode_scopeOf (k : Nat) (hk : k < 8) (o : Scope) :
    scopeCode ((scopeOf k).getD o) = if k ≤ 5 then k else scopeCode o := by
  interval_cases k <;> rfl

theorem scopeCode_lt (o : Scope) : scopeCode o < 2 ^ 64 := by cases o <;> decide

/-! ### The instructions -/

section
variable {i : Instr} {s : State} {major : BitVec 7} {writes : Bool} {f : Word → Word → Word} {sc : BitVec 2} {immSrc : Bool}
  {csr : BitVec 12} {a d : BitVec 5}

/-- A CSR instruction that may be made gives rd the old value, and writes the field where it writes (R116, R117). -/
theorem csrOp_writes {new : Word} (he : exec i s = csrOp major writes f sc immSrc csr a d s)
    (hnew : f (csrRead s.settled s.curCore s.curSlot s.found csr.toNat) (if immSrc then a.setWidth 64 else s.found.rx a) = new)
    (h : canIssue s (if immSrc then [] else [xr a]) [xr d] = true) (hfp : csr = 1 → s.cur.locals.any (·.fp) = false)
    (ha : csrAssigned csr = true) (hw : (writes && csrReadOnly csr) = false) :
    Does i s fun t => Retires s t sc.toNat (s.cur.pc + 4) ((if writes then csrWrite s.found csr.toNat new else s.found).writeFix
      (xr d) (ofWord (csrRead s.settled s.curCore s.curSlot s.found csr.toNat)) 1) := by
  have hflags : (decide (csr = 1) && s.found.locals.any (·.fp)) = false := by
    by_cases h1 : csr = 1
    · simpa [h1, State.found] using hfp h1
    · rw [decide_eq_false h1, Bool.false_and]
  have hgo : exec i s = .next (retire (setSlot s.settled s.curCore s.curSlot ((if writes then csrWrite s.found csr.toNat new
      else s.found).writeFix (xr d) (ofWord (csrRead s.settled s.curCore s.curSlot s.found csr.toNat)) 1)) s.curCore s.curSlot
      sc.toNat (s.cur.pc + 4)) := by
    rw [he, csrOp, ha, hw, Bool.not_true, Bool.or_self, if_neg Bool.false_ne_true, issue_can h]
    simp only [hflags, Bool.false_eq_true, if_false, hnew]
    congr 2
    cases writes <;> simp
  refine ⟨_, hgo, ?_⟩
  rw [State.settled, State.setCur, setSlot_setSlot]
  exact retires_retire s _ sc.toNat (s.cur.pc + 4)

/-- A CSR that is not assigned, or a write of a read-only one, traps ILLEGAL with the instruction's word (R34, R116). -/
theorem csrOp_traps (he : exec i s = csrOp major writes f sc immSrc csr a d s)
    (hword : csrWord major sc immSrc csr a d = (encode i).setWidth 64) (hr : s.cur.status = .running)
    (hx : (!csrAssigned csr || (writes && csrReadOnly csr)) = true) : Traps i s 0x01 ((encode i).setWidth 64) := by
  rw [Traps, he, ← hword, csrOp, if_pos hx, onSlot_running hr, found_pc]
  rfl

end

section
variable (s : State) (sc : BitVec 2) (immSrc : Bool) (csr : BitVec 12) (a d : BitVec 5)

theorem exec_csrrw : exec (.csrrw sc immSrc csr a d) s = csrOp 0x25#7 true (fun _ v => v) sc immSrc csr a d s := rfl

theorem exec_csrrs : exec (.csrrs sc immSrc csr a d) s
    = csrOp 0x26#7 (a != 0) (fun old v => old ||| v) sc immSrc csr a d s := rfl

theorem exec_csrrc : exec (.csrrc sc immSrc csr a d) s
    = csrOp 0x27#7 (a != 0) (fun old v => old &&& ~~~v) sc immSrc csr a d s := rfl

end

/-! ### The numbers of R34 -/

theorem csrAssigned_iff (n : BitVec 12) : csrAssigned n = true ↔ n.toNat ∈ [1, 2, 3, 4] ∨ (0xC00 ≤ n.toNat ∧ n.toNat ≤ 0xC0E) := by
  simp only [csrAssigned, Bool.or_eq_true, Bool.and_eq_true, decide_eq_true_eq, List.mem_cons, List.not_mem_nil, or_false]
  omega

theorem csrReadOnly_iff (n : BitVec 12) : csrReadOnly n = true ↔ n.toNat / 2 ^ 10 = 3 := by
  rw [csrReadOnly, decide_eq_true_eq]
  omega

/-! ### Reads -/

section
variable (s : State) (c : Nat) (i : Fin 4) (sl : Slot)

theorem csrRead_oscope : csrRead s c i sl 0x004 = BitVec.ofNat 64 (scopeCode sl.oscope) := rfl

/-- What the two writes of R36 that may be refused leave, as it is read back. -/
theorem csrRead_csrWrite_oscope (v : Word) : (csrRead s c i (csrWrite sl 0x004 v) 0x004).toNat
    = if v.toNat % 8 ≤ 5 then v.toNat % 8 else (csrRead s c i sl 0x004).toNat := by
  rw [csrWrite_oscope, csrRead_oscope, csrRead_oscope, BitVec.toNat_ofNat, BitVec.toNat_ofNat, Nat.mod_eq_of_lt (scopeCode_lt _),
    Nat.mod_eq_of_lt (scopeCode_lt _), scopeCode_scopeOf _ (Nat.mod_lt _ (by decide))]

theorem csrRead_csrWrite_frm (v : Word) : (csrRead s c i (csrWrite sl 0x002 v) 0x002).toNat
    = if v.toNat % 8 ≤ 4 then v.toNat % 8 else sl.frm.toNat := by
  rw [csrWrite_frm]
  show ((if v.toNat % 8 ≤ 4 then v.setWidth 3 else sl.frm).setWidth 64).toNat = _
  split <;> simp <;> omega

/-- A write of oscope is seen in no other CSR. -/
theorem csrRead_csrWrite_ne {n : Nat} (hn : n ≠ 0x004) (v : Word) : csrRead s c i (csrWrite sl 0x004 v) n = csrRead s c i sl n := by
  rw [csrWrite_oscope, csrRead, csrRead, if_neg hn, if_neg hn]
  rfl

end

/-! ### Free rows (R22) -/

/-- The lowest free row that zfree names: 0x800 where there is none. -/
def lowestFree (s : State) (c : Nat) : Nat := (freeRows s c).headD 0x800

theorem lowestFree_of_none {s : State} {c : Nat} (h : ∀ r, r < 2048 → rowFree s c r = false) : lowestFree s c = 0x800 := by
  have hnil : freeRows s c = [] := List.filter_eq_nil_iff.mpr fun r hr => by simp [h r (List.mem_range.mp hr)]
  rw [lowestFree, hnil]
  rfl

theorem lowestFree_of_free {s : State} {c r : Nat} (hr : r < 2048) (hf : rowFree s c r = true) :
    lowestFree s c ≤ r ∧ rowFree s c (lowestFree s c) = true := by
  rw [lowestFree, List.headD_eq_head?_getD, freeRows, List.head?_filter]
  cases hfind : (List.range 2048).find? (rowFree s c) with
  | none => simpa [hf] using List.find?_range_eq_none.mp hfind r hr
  | some q =>
    obtain ⟨hq, -, hbelow⟩ := List.find?_range_eq_some.mp hfind
    refine ⟨not_lt.mp fun hlt => ?_, hq⟩
    simpa [hf] using hbelow r hlt

theorem lowestFree_le (s : State) (c : Nat) : lowestFree s c ≤ 0x800 := by
  by_cases h : ∃ r, r < 2048 ∧ rowFree s c r = true
  · obtain ⟨r, hr, hf⟩ := h
    exact (lowestFree_of_free hr hf).1.trans hr.le
  · refine (lowestFree_of_none fun r hr => ?_).le
    exact Bool.eq_false_iff.mpr fun hf => h ⟨r, hr, hf⟩

theorem freeRows_length_le (s : State) (c : Nat) : (freeRows s c).length ≤ 2048 :=
  (List.length_filter_le _ _).trans_eq List.length_range

theorem zfreeValue_toNat (s : State) (c : Nat) : (zfreeValue s c).toNat = lowestFree s c * 2 ^ 16 + (freeRows s c).length := by
  have hlow := lowestFree_le s c
  have hlen := freeRows_length_le s c
  rw [zfreeValue, BitVec.toNat_ofNat, ← lowestFree, Nat.mod_eq_of_lt (by omega)]

/-- The two fields of zfree. -/
theorem zfreeValue_fields (s : State) (c : Nat) : (zfreeValue s c).toNat < 2 ^ 28
    ∧ (zfreeValue s c).toNat % 2 ^ 16 = (freeRows s c).length ∧ (zfreeValue s c).toNat / 2 ^ 16 = lowestFree s c := by
  have hlow := lowestFree_le s c
  have hlen := freeRows_length_le s c
  rw [zfreeValue_toNat]
  omega

/-! ### The statement -/

/-- A number that fits its field reads as itself. -/
theorem toNat_ofNat_mod {m n : Nat} (h : n ≤ 64) : (BitVec.ofNat 64 (m % 2 ^ n)).toNat = m % 2 ^ n := by
  rw [BitVec.toNat_ofNat, Nat.mod_eq_of_lt]
  exact (Nat.mod_lt _ (Nat.two_pow_pos n)).trans_le (Nat.pow_le_pow_right (by decide) h)

theorem csrRead_chk_toNat (s : State) (c : Nat) (i : Fin 4) (sl : Slot) :
    (csrRead s c i sl 0x003).toNat = if sl.chk then 1 else 0 := by
  show (if sl.chk then (1 : Word) else 0).toNat = _
  split <;> rfl

theorem csrRead_csrWrite_chk (s : State) (c : Nat) (i : Fin 4) (sl : Slot) (v : Word) :
    (csrRead s c i (csrWrite sl 0x003 v) 0x003).toNat = v.toNat % 2 := by
  rw [csrRead_chk_toNat, csrWrite_chk]
  show (if v.toNat.testBit 0 then 1 else 0) = _
  rw [Nat.testBit_zero]
  rcases Nat.mod_two_eq_zero_or_one v.toNat with h | h <;> simp [h]

theorem csrRead_oscope_toNat (s : State) (c : Nat) (i : Fin 4) (sl : Slot) :
    (csrRead s c i sl 0x004).toNat = scopeCode sl.oscope := by
  rw [csrRead_oscope, BitVec.toNat_ofNat, Nat.mod_eq_of_lt (scopeCode_lt _)]

theorem chanValue_toNat (sl : Slot) :
    (chanValue sl).toNat = (if sl.task then 2 ^ 16 else 0) + 2 ^ 8 * (sl.cls % 8) + sl.chan % 16 := by
  rw [chanValue, BitVec.toNat_ofNat]
  split <;> omega

theorem progBits_toNat (sl : Slot) : (BitVec.ofNat 64 (progBits sl)).toNat = (if sl.active then 2 ^ 8 else 0) + sl.nextReg % 2 ^ 6 := by
  rw [progBits, BitVec.toNat_ofNat]
  split <;> omega

/-- Settles O9: the instructions by the two lemmas on csrOp, the fields by their reads and writes. -/
theorem csrAccess : Obligations.CsrAccess := by
  unfold Obligations.CsrAccess
  refine ⟨fun s sc immSrc csr a d => ⟨?_, ?_, ?_⟩, fun n => ⟨csrAssigned_iff n, csrReadOnly_iff n⟩, fun s c i sl v => ?_⟩
  · exact ⟨fun h => csrOp_writes (exec_csrrw s sc immSrc csr a d) rfl h.1 h.2, csrOp_traps (exec_csrrw s sc immSrc csr a d) rfl⟩
  · exact ⟨fun h => csrOp_writes (exec_csrrs s sc immSrc csr a d) rfl h.1 h.2, csrOp_traps (exec_csrrs s sc immSrc csr a d) rfl⟩
  · exact ⟨fun h => csrOp_writes (exec_csrrc s sc immSrc csr a d) rfl h.1 h.2, csrOp_traps (exec_csrrc s sc immSrc csr a d) rfl⟩
  · have hwide {n : Nat} (b : BitVec n) (h : n ≤ 64) : (b.setWidth 64).toNat = b.toNat := BitVec.toNat_setWidth_of_le h
    refine ⟨csrWrite_fflags sl v, csrWrite_frm sl v, csrWrite_chk sl v, csrRead_csrWrite_oscope s c i sl v,
      fun n hn => csrRead_csrWrite_ne s c i sl hn v, rfl, csrRead_csrWrite_frm s c i sl v, csrRead_csrWrite_chk s c i sl v,
      hwide sl.fflags (by decide), hwide sl.frm (by decide), csrRead_chk_toNat s c i sl, ?_, toNat_ofNat_mod (by decide), ?_,
      toNat_ofNat_mod (by decide), chanValue_toNat sl, rfl, toNat_ofNat_mod (by decide), toNat_ofNat_mod (by decide), rfl, ?_,
      hwide (getResident s c sl.launch).cmask (by decide), toNat_ofNat_mod (by decide), progBits_toNat sl,
      hwide sl.cause (by decide), rfl, rfl⟩
    · rw [csrRead_oscope_toNat]
      rfl
    · exact Nat.mod_eq_of_lt (i.isLt.trans (by decide))
    · obtain ⟨hlt, hcount, hlow⟩ := zfreeValue_fields s c
      refine ⟨hlt, hcount, fun h => hlow.trans (lowestFree_of_none h), fun r hr hf => ?_⟩
      obtain ⟨hle, hfree⟩ := lowestFree_of_free hr hf
      exact ⟨hlow.trans_le hle, by rwa [← hlow] at hfree⟩

end Sys2Proof.Machine
end

section
/-! SUPPORT. A trap as the trapping slot and the reports see it (14 R334, R346), and what an ECALL or EBREAK waits for (05 R119). -/
namespace Sys2Proof.Machine

/-! ### Traps -/

@[simp] theorem modActor_requests (s : State) (l n : Nat) (f : Actor → Actor) : (modActor s l n f).requests = s.requests := by
  simp only [modActor, setActor, modLaunch]
  split <;> (try split) <;> rfl

section
variable (s : State) (c : Nat) (i : Fin 4)

@[simp] theorem dropToken_curCore : (dropToken s c i).curCore = s.curCore := by
  simp only [dropToken]
  split <;> rfl

@[simp] theorem dropToken_curSlot : (dropToken s c i).curSlot = s.curSlot := by
  simp only [dropToken]
  split <;> rfl

@[simp] theorem dropToken_requests : (dropToken s c i).requests = s.requests := by
  simp only [dropToken]
  split <;> rfl

theorem getSlot_dropToken : getSlot (dropToken s c i) c i = { getSlot s c i with token := none } := by
  simp only [dropToken]
  split
  · exact getSlot_setSlot_self _ c i _
  · next h => rw [← h]

@[simp] theorem abortSlot_curCore : (abortSlot s c i).curCore = s.curCore := by
  simp only [abortSlot, setSlot_curCore, modCore_curCore, dropToken_curCore]
  split <;> exact modActor_curCore ..

@[simp] theorem abortSlot_curSlot : (abortSlot s c i).curSlot = s.curSlot := by
  simp only [abortSlot, setSlot_curSlot, modCore_curSlot, dropToken_curSlot]
  split <;> exact modActor_curSlot ..

theorem abortSlot_requests : (abortSlot s c i).requests = s.requests.filter fun r => !(r.core == c && r.slot == i) := by
  simp only [abortSlot, setSlot_requests, modCore_requests, dropToken_requests]
  split <;> exact congrArg _ (modActor_requests ..)

variable {s c i} {cause : Nat} {tval epc : Word}

/-- Outside debug execution a trap frees the slot, reports the fault and leaves no new request. -/
theorem takeTrap_aborts (hd : (getSlot s c i).inDebug = false) : getSlot (takeTrap s c i cause tval epc) c i = Slot.reset
    ∧ (takeTrap s c i cause tval epc).reports = s.reports ++ [trapReport (getSlot s c i) c i 0 cause tval epc]
    ∧ (∀ q ∈ (takeTrap s c i cause tval epc).requests, q ∈ s.requests) := by
  have ht : takeTrap s c i cause tval epc = report (abortSlot s c i) (trapReport (getSlot s c i) c i 0 cause tval epc) := by
    simp only [takeTrap, trapFrom, hd, Bool.false_eq_true, if_false]
  refine ⟨?_, ?_, ?_⟩
  · rw [ht, getSlot_report, getSlot_abortSlot]
  · rw [ht, report_reports, (oneSlot_abortSlot s c i).reports]
  · intro q hq
    rw [ht, report_requests, abortSlot_requests] at hq
    exact List.mem_of_mem_filter hq

/-- In debug execution the activation stays halted, with the trap's three values, and makes no request (R346). -/
theorem takeTrap_halts (hd : (getSlot s c i).inDebug = true) : (takeTrap s c i cause tval epc).requests = s.requests
    ∧ getSlot (takeTrap s c i cause tval epc) c i =
      { getSlot s c i with
        status := .halted, inDebug := false, dbgWords := [], stall := none, card := none, claimed := false, token := none
        cause := BitVec.ofNat 8 cause, epc := epc, tval := tval } := by
  simp only [takeTrap, trapFrom, hd, if_true]
  exact ⟨dropToken_requests _ c i, by rw [getSlot_dropToken, getSlot_setSlot_self]⟩

@[simp] theorem takeTrap_curCore : (takeTrap s c i cause tval epc).curCore = s.curCore := by
  simp only [takeTrap, trapFrom]
  split <;> simp

@[simp] theorem takeTrap_curSlot : (takeTrap s c i cause tval epc).curSlot = s.curSlot := by
  simp only [takeTrap, trapFrom]
  split <;> simp

end

/-! ### The wait of R119 step 1 -/

/-- The clocks waited are those to the last pending write. -/
theorem pendingClocks_spec (clock : Nat) (l : List PendFix) : (∀ p ∈ l, p.vis ≤ clock + pendingClocks clock l)
    ∧ (pendingClocks clock l ≠ 0 → ∃ p ∈ l, p.vis = clock + pendingClocks clock l) := by
  induction l with
  | nil => exact ⟨fun _ h => absurd h List.not_mem_nil, fun h => absurd rfl h⟩
  | cons p l ih =>
    obtain ⟨hall, hlast⟩ := ih
    simp only [pendingClocks, List.forall_mem_cons, List.exists_mem_cons_iff]
    refine ⟨⟨by omega, fun q hq => (hall q hq).trans (by omega)⟩, fun hne => ?_⟩
    by_cases hp : pendingClocks clock l ≤ p.vis - clock
    · exact .inl (by omega)
    · obtain ⟨q, hq, he⟩ := hlast (by omega)
      exact .inr ⟨q, hq, by omega⟩

/-- Once the last pending write is visible, none is pending. -/
theorem overtake_nil {clock : Nat} {l : List PendFix} (h : ∀ p ∈ l, p.vis ≤ clock) : overtake clock l = [] := by
  induction l with
  | nil => rfl
  | cons p l ih =>
    rw [overtake, if_pos (h p List.mem_cons_self)]
    exact ih fun q hq => h q (List.mem_cons_of_mem p hq)

/-- Cycles leave a slot as it is where no budget counts and no commit waits. -/
theorem slotCycles_rests {s : State} {x : Slot} (hb : countsBudget x = false) (hs : x.status ≠ .hend) (n : Nat) :
    slotCycles s n x = x := by
  have hw : egressWaits s x = false := by simp [egressWaits, hs]
  simp only [slotCycles, hb, hw, Bool.false_eq_true, if_false]

section
variable {s : State}

/-- The clocks that a service instruction of the current slot waits for. -/
def State.serviceClocks (s : State) : Nat := pendingClocks s.cur.clock s.found.pend

/-- The current slot when its clock has come to the last pending write. -/
def State.waitedSlot (s : State) : Slot := ({ s.found with clock := s.cur.clock + s.serviceClocks } : Slot).settle

/-- The state in which a service instruction of the current slot goes on. -/
def State.served (s : State) : State := afterPending s.settled s.curCore s.curSlot s.found

theorem waitedSlot_pend (s : State) : s.waitedSlot.pend = [] :=
  (settle_pend _).trans (overtake_nil (pendingClocks_spec s.cur.clock s.found.pend).1)

/-- What the wait leaves of the current slot beside its registers, pending writes and flags. -/
theorem waitedSlot_keeps (s : State) : s.waitedSlot.status = s.cur.status ∧ s.waitedSlot.inDebug = s.cur.inDebug
    ∧ s.waitedSlot.pc = s.cur.pc ∧ s.waitedSlot.budget = s.cur.budget ∧ s.waitedSlot.launch = s.cur.launch
    ∧ s.waitedSlot.actor = s.cur.actor ∧ s.waitedSlot.msgid = s.cur.msgid ∧ s.waitedSlot.ctx = s.cur.ctx := by
  simp [State.waitedSlot, State.found]

theorem served_slot (s : State) :
    getSlot s.served s.curCore s.curSlot = slotCycles s s.serviceClocks s.waitedSlot := by
  rw [State.served, afterPending, getSlot_passCycles_self, slotCycles_setSlot, getSlot_setSlot_self, State.waitedSlot,
    State.serviceClocks, show s.found.clock = s.cur.clock from Slot.settle_clock _]
  rfl

/-- Outside debug execution the wait counts against the budget (R37). -/
theorem served_slot_counts (hr : s.cur.status = .running) (hd : s.cur.inDebug = false) : getSlot s.served s.curCore s.curSlot
    = { s.waitedSlot with budget := s.cur.budget - s.serviceClocks } := by
  obtain ⟨hstatus, hdebug, -, hbudget, -⟩ := waitedSlot_keeps s
  rw [served_slot, slotCycles, if_pos (countsBudget_running (hstatus.trans hr) (hdebug.trans hd)), hbudget]

theorem served_slot_debug (hr : s.cur.status = .running) (hd : s.cur.inDebug = true) :
    getSlot s.served s.curCore s.curSlot = s.waitedSlot := by
  obtain ⟨hstatus, hdebug, -⟩ := waitedSlot_keeps s
  rw [served_slot, slotCycles_rests (countsBudget_stops (.inl (hdebug.trans hd))) (by rw [hstatus, hr]; decide)]

theorem issueService_goes {f : State → Nat → Fin 4 → Slot → State} (h : canIssue s [] [] = true) (hi : s.cur.interlocked = [])
    (ha : s.cur.accs = []) :
    issueService s f = .next (if countsBudget (getSlot s.served s.curCore s.curSlot)
        && (getSlot s.served s.curCore s.curSlot).budget == 0 then budgetTrap s.served s.curCore s.curSlot
      else f s.served s.curCore s.curSlot (getSlot s.served s.curCore s.curSlot)) := by
  have hw : serviceWait s.found = none := by
    simp [serviceWait, State.found, settle_interlocked, hi, ha]
  rw [issueService, issue_can h]
  simp only [hw]
  rfl

/-- Where the budget outlasts the wait, the service instruction does its own effect. -/
theorem issueService_within {f : State → Nat → Fin 4 → Slot → State} (h : canIssue s [] [] = true) (hi : s.cur.interlocked = [])
    (ha : s.cur.accs = []) (hd : s.cur.inDebug = false) (hb : s.serviceClocks < s.cur.budget) :
    issueService s f = .next (f s.served s.curCore s.curSlot
      { s.waitedSlot with budget := s.cur.budget - s.serviceClocks }) := by
  have hne : ¬ s.cur.budget - s.serviceClocks = 0 := by omega
  rw [issueService_goes h hi ha, served_slot_counts (canIssue_running h) hd, if_neg (by simp [hne])]

/-- Where the budget ends in the wait, the activation traps (R37). -/
theorem issueService_spent {f : State → Nat → Fin 4 → Slot → State} (h : canIssue s [] [] = true) (hi : s.cur.interlocked = [])
    (ha : s.cur.accs = []) (hd : s.cur.inDebug = false) (hb : s.cur.budget ≤ s.serviceClocks) :
    issueService s f = .next (budgetTrap s.served s.curCore s.curSlot) := by
  obtain ⟨hstatus, hdebug, -⟩ := waitedSlot_keeps s
  have hr : s.cur.status = .running := canIssue_running h
  rw [issueService_goes h hi ha, served_slot_counts hr hd, if_pos]
  simp [countsBudget, hstatus, hr, hdebug, hd, hb]

/-- No budget counts in debug execution. -/
theorem issueService_debug {f : State → Nat → Fin 4 → Slot → State} (h : canIssue s [] [] = true) (hi : s.cur.interlocked = [])
    (ha : s.cur.accs = []) (hd : s.cur.inDebug = true) :
    issueService s f = .next (f s.served s.curCore s.curSlot s.waitedSlot) := by
  obtain ⟨-, hdebug, -⟩ := waitedSlot_keeps s
  rw [issueService_goes h hi ha, served_slot_debug (canIssue_running h) hd,
    countsBudget_stops (.inl (hdebug.trans hd)), Bool.false_and, if_neg Bool.false_ne_true]

end

end Sys2Proof.Machine
end

section
/-! SUPPORT. ECALL, EBREAK, TRET and HEND (05 R119 to R122), each by its outcomes, and the statement on them. -/
namespace Sys2Proof.Machine

/-! ### Waits with a cause -/

/-- The activation of the current slot waits with a cause, at the instruction that follows, its pending writes made (R119, R120). -/
def HeldWith (s t : State) (st : Status) (cause : BitVec 8) : Prop :=
  t.cur.status = st ∧ t.cur.cause = cause ∧ t.cur.epc = s.cur.pc ∧ t.cur.tval = 0 ∧ t.cur.pc = s.cur.pc + 4
    ∧ t.cur.clock = s.waitedSlot.clock + 1 ∧ t.cur.pend = [] ∧ t.cur.x = s.waitedSlot.x ∧ t.cur.v = s.waitedSlot.v
    ∧ t.cur.k = s.waitedSlot.k ∧ t.mem = s.mem

section
variable {s u : State} {x : Slot} (hc : u.curCore = s.curCore) (hi : u.curSlot = s.curSlot)
include hc hi

theorem cur_eq_getSlot : u.cur = getSlot u s.curCore s.curSlot := by
  rw [State.cur, hc, hi]

theorem cur_setSlot : (setSlot u s.curCore s.curSlot x).cur = x :=
  (cur_eq_getSlot (u := setSlot u s.curCore s.curSlot x) hc hi).trans (getSlot_setSlot_self u s.curCore s.curSlot x)

/-- The current slot, written before cycles of its core pass. -/
theorem cur_passCycles (n : Nat) : (passCycles (setSlot u s.curCore s.curSlot x) s.curCore n).cur = slotCycles u n x := by
  rw [cur_eq_getSlot (u := passCycles (setSlot u s.curCore s.curSlot x) s.curCore n) hc hi, getSlot_passCycles_self,
    getSlot_setSlot_self, slotCycles_setSlot]

/-- The same where no budget counts and no commit waits. -/
theorem cur_rests (n : Nat) (hb : countsBudget x = false) (hs : x.status ≠ .hend) :
    (passCycles (setSlot u s.curCore s.curSlot x) s.curCore n).cur = x :=
  (cur_passCycles hc hi n).trans (slotCycles_rests hb hs n)

theorem cur_takeTrap (cause : Nat) (tval epc : Word) : (takeTrap u s.curCore s.curSlot cause tval epc).cur
    = getSlot (takeTrap u s.curCore s.curSlot cause tval epc) s.curCore s.curSlot :=
  cur_eq_getSlot ((takeTrap_curCore ..).trans hc) ((takeTrap_curSlot ..).trans hi)

end

/-! ### Traps of the current slot -/

/-- The activation of the current slot ends with a report. -/
theorem takeTrap_ends {s u : State} {x : Slot} {cause : Nat} {tval epc : Word} (hc : u.curCore = s.curCore) (hi : u.curSlot = s.curSlot)
    (hr : u.reports = s.reports) (hq : u.requests = s.requests) (hx : getSlot u s.curCore s.curSlot = x) (hd : x.inDebug = false) :
    let t := takeTrap u s.curCore s.curSlot cause tval epc
    t.cur.status = .free ∧ (∀ q ∈ t.requests, q ∈ s.requests)
      ∧ t.reports = s.reports ++ [trapReport x s.curCore s.curSlot 0 cause tval epc] := by
  intro t
  subst hx
  obtain ⟨hslot, hreports, hrequests⟩ := takeTrap_aborts (cause := cause) (tval := tval) (epc := epc) hd
  refine ⟨?_, fun q hm => hq ▸ hrequests q hm, hr ▸ hreports⟩
  rw [cur_takeTrap hc hi, hslot]
  rfl

section
variable {s : State} {l : Launch} (h : canIssue s [] [] = true) (hi : s.cur.interlocked = []) (ha : s.cur.accs = [])
include h hi ha

/-! ### ECALL and EBREAK -/

theorem ecall_delivers (hd : s.cur.inDebug = false) (hb : s.serviceClocks < s.cur.budget) :
    Does .ecall s fun t => HeldWith s t .ecall 0x0B ∧ ∃ r, t.requests = s.requests ++ [r] ∧ r.core = s.curCore ∧ r.slot = s.curSlot
      ∧ r.actor = s.cur.actor ∧ r.msgid = s.cur.msgid ∧ r.launch = s.cur.launch ∧ r.ctx = s.cur.ctx
      ∧ r.service = s.waitedSlot.getX 12 ∧ r.args = (List.range 6).map fun k => s.waitedSlot.getX (5 + k) := by
  obtain ⟨-, hdebug, hpc, -, hlaunch, hactor, hmsgid, hctx⟩ := waitedSlot_keeps s
  have he : exec .ecall s = _ := (rfl : _ = execEcall s).trans (issueService_within h hi ha hd hb)
  simp only [hdebug, hd, Bool.false_eq_true, if_false] at he
  refine ⟨_, he, ?_, _, rfl, rfl, rfl, hactor, hmsgid, hlaunch, hctx, rfl, rfl⟩
  rw [HeldWith, cur_rests (s := s)]
  · exact ⟨rfl, rfl, hpc, rfl, congrArg (· + 4) hpc, rfl, waitedSlot_pend s, rfl, rfl, rfl, rfl⟩
  · rfl
  · rfl
  · rfl
  · exact fun hs => nomatch hs

theorem ecall_inDebug (hd : s.cur.inDebug = true) : Does .ecall s fun t => t.cur.status = .halted ∧ t.cur.inDebug = false
    ∧ t.cur.cause = 0x0B ∧ t.cur.epc = s.cur.pc ∧ t.cur.tval = 0 ∧ t.cur.pc = s.cur.pc ∧ t.requests = s.requests := by
  obtain ⟨-, hdebug, hpc, -⟩ := waitedSlot_keeps s
  have he : exec .ecall s = _ := (rfl : _ = execEcall s).trans (issueService_debug h hi ha hd)
  simp only [hdebug, hd, if_true] at he
  have hslot := served_slot_debug (canIssue_running h) hd
  obtain ⟨hrequests, hhalted⟩ := takeTrap_halts (cause := causeECALL) (tval := 0) (epc := s.waitedSlot.pc) (hslot ▸ hdebug.trans hd)
  refine ⟨_, he, ?_⟩
  beta_reduce
  rw [cur_takeTrap (s := s) (u := s.served) rfl rfl, hrequests, hhalted, hslot]
  exact ⟨rfl, rfl, rfl, hpc, rfl, hpc, rfl⟩

theorem service_spent (hl : getLaunch s s.cur.launch = some l) (hd : s.cur.inDebug = false) (hb : s.cur.budget ≤ s.serviceClocks)
    {i : Instr} {f : State → Nat → Fin 4 → Slot → State} (he : exec i s = issueService s f) : Does i s fun t => t.cur.status = .free
      ∧ (∀ q ∈ t.requests, q ∈ s.requests) ∧ ∃ r, t.reports = s.reports ++ [r] ∧ r.launch = s.cur.launch ∧ r.cause = 0x05
      ∧ r.epc = s.cur.pc ∧ r.tval = BitVec.ofNat 64 l.budget := by
  obtain ⟨-, hdebug, hpc, -, hlaunch, -⟩ := waitedSlot_keeps s
  have hslot := served_slot_counts (canIssue_running h) hd
  have hbudget : budgetTrap s.served s.curCore s.curSlot
      = takeTrap s.served s.curCore s.curSlot causeBUDGET (BitVec.ofNat 64 l.budget) s.cur.pc := by
    rw [budgetTrap, hslot]
    simp only [hlaunch, hpc, show getLaunch s.served s.cur.launch = some l from hl]
  refine ⟨_, (he.trans (issueService_spent h hi ha hd hb)).trans (congrArg _ hbudget), ?_⟩
  obtain ⟨hfree, hrequests, hreports⟩ := takeTrap_ends (s := s) (u := s.served) (cause := causeBUDGET) (tval := BitVec.ofNat 64 l.budget)
    (epc := s.cur.pc) rfl rfl rfl rfl hslot (hdebug.trans hd)
  exact ⟨hfree, hrequests, _, hreports, hlaunch, rfl, rfl, rfl⟩

theorem ebreak_halts (hl : getLaunch s s.cur.launch = some l) (hd : s.cur.inDebug = false) (hb : s.serviceClocks < s.cur.budget)
    (hat : l.attached = true) : Does .ebreak s fun t => HeldWith s t .halted 0x0C := by
  obtain ⟨-, hdebug, hpc, -, hlaunch, -⟩ := waitedSlot_keeps s
  have he : exec .ebreak s = _ := (rfl : _ = execEbreak s).trans (issueService_within h hi ha hd hb)
  simp only [hlaunch, show getLaunch s.served s.cur.launch = some l from hl, hat, hdebug, hd, Bool.not_true, Bool.or_self,
    Bool.false_eq_true, if_false] at he
  refine ⟨_, he, ?_⟩
  beta_reduce
  rw [HeldWith, cur_rests (s := s)]
  · exact ⟨rfl, rfl, hpc, rfl, congrArg (· + 4) hpc, rfl, waitedSlot_pend s, rfl, rfl, rfl, rfl⟩
  · rfl
  · rfl
  · rfl
  · exact fun hs => nomatch hs

theorem ebreak_traps (hl : getLaunch s s.cur.launch = some l) (hd : s.cur.inDebug = false) (hb : s.serviceClocks < s.cur.budget)
    (hat : l.attached = false) : Does .ebreak s fun t => t.cur.status = .free ∧ ∃ r, t.reports = s.reports ++ [r]
      ∧ r.launch = s.cur.launch ∧ r.cause = 0x0C ∧ r.epc = s.cur.pc := by
  obtain ⟨-, hdebug, hpc, -, hlaunch, -⟩ := waitedSlot_keeps s
  have he : exec .ebreak s = _ := (rfl : _ = execEbreak s).trans (issueService_within h hi ha hd hb)
  simp only [hlaunch, show getLaunch s.served s.cur.launch = some l from hl, hat, Bool.not_false, Bool.or_true, if_true] at he
  refine ⟨_, he, ?_⟩
  obtain ⟨hfree, -, hreports⟩ := takeTrap_ends (s := s) (u := s.served) (cause := causeEBREAK) (tval := 0)
    (epc := s.waitedSlot.pc) rfl rfl rfl rfl (served_slot_counts (canIssue_running h) hd) (hdebug.trans hd)
  exact ⟨hfree, _, hreports, hlaunch, rfl, hpc⟩

end

/-! ### TRET and HEND -/

section
variable {s : State} (h : canIssue s [] [] = true)
include h

theorem tret_returns (hd : s.cur.inDebug = true) : Does .tret s fun t => t.cur.status = .running ∧ t.cur.inDebug = false
    ∧ t.cur.pc = s.cur.pc ∧ t.cur.clock = s.cur.clock + 1 := by
  have hdebug : s.found.inDebug = true := (Slot.settle_inDebug _).trans hd
  have he : exec .tret s = _ := (rfl : _ = execTret s).trans (issue_can h)
  simp only [hdebug, if_true] at he
  refine ⟨_, he, ?_⟩
  beta_reduce
  rw [cur_passCycles (s := s) (u := s.settled) rfl rfl]
  obtain ⟨b, w, hw⟩ := slotCycles_only s.settled 1 { returnFromDebug s.found with clock := s.found.clock + 1 }
  rw [hw]
  exact ⟨rfl, rfl, found_pc s, congrArg (· + 1) (Slot.settle_clock _)⟩

theorem tret_illegal (hd : s.cur.inDebug = false) : Traps .tret s 0x01 0x00800028 := by
  have hdebug : s.found.inDebug = false := (Slot.settle_inDebug _).trans hd
  have he : exec .tret s = _ := (rfl : _ = execTret s).trans (issue_can h)
  simp only [hdebug, Bool.false_eq_true, if_false, found_pc] at he
  exact he

theorem hend_waits : Does .hend s fun t => t.cur.status = .hend ∧ t.cur.pc = s.cur.pc ∧ t.cur.budget = s.cur.budget
    ∧ countsBudget t.cur = false ∧ t.cur.sends = s.cur.sends ∧ t.cur.waited = 0 := by
  refine ⟨_, (rfl : _ = execHend s).trans (issue_can h), ?_⟩
  beta_reduce
  rw [cur_setSlot (s := s) (u := s.settled) rfl rfl]
  exact ⟨rfl, found_pc s, Slot.settle_budget _, rfl, Slot.settle_sends _, rfl⟩

end

/-- Settles O10: each outcome of the four instructions, at the clock of the last pending write. -/
theorem systemInstructions : Obligations.SystemInstructions := by
  unfold Obligations.SystemInstructions
  intro s l h hi ha hl
  obtain ⟨hall, hlast⟩ := pendingClocks_spec s.cur.clock s.found.pend
  refine ⟨s.serviceClocks, hall, hlast, ecall_delivers h hi ha, ecall_inDebug h hi ha, fun hd hb i hm => ?_,
    fun hd hb _ hat => ebreak_halts h hi ha hl hd hb hat, ebreak_traps h hi ha hl, tret_returns h, tret_illegal h, fun _ => hend_waits h⟩
  rcases List.mem_pair.mp hm with rfl | rfl
  · exact service_spent h hi ha hl hd hb (rfl : _ = execEcall s)
  · exact service_spent h hi ha hl hd hb (rfl : _ = execEbreak s)

end Sys2Proof.Machine
end

section
/-! SUPPORT. What messages and group operations leave as it was (08 R176 to R192, 12 R298 to R301): every slot, memory, the actors that
there are, and, but for a group operation's own record, every group. -/
namespace Sys2Proof.Machine

/-! ### Launches after one is written -/

theorem getLaunch_modLaunch_self {s : State} {l : Nat} {x : Launch} {f : Launch → Launch} (h : getLaunch s l = some x)
    (hid : (f x).id = x.id) : getLaunch (modLaunch s l f) l = some (f x) := by
  have hput := findBy_putBy_self Launch.id (f x) s.launches
  rw [hid, getLaunch_id h] at hput
  simp only [modLaunch, h]
  exact hput

theorem getLaunch_modLaunch_ne (s : State) {l k : Nat} {f : Launch → Launch} (hid : ∀ x, (f x).id = x.id) (hk : k ≠ l) :
    getLaunch (modLaunch s l f) k = getLaunch s k := by
  unfold modLaunch
  split
  · next x hx => exact findBy_putBy_ne Launch.id (f x) s.launches (by rw [hid, getLaunch_id hx]; exact hk)
  · rfl

/-- A launch written is written in the launches alone. -/
theorem modLaunch_only (s : State) (l : Nat) (f : Launch → Launch) : modLaunch s l f = { s with launches := (modLaunch s l f).launches } := by
  unfold modLaunch
  split <;> rfl

/-- Writing an actor of a launch takes none away. -/
theorem setActor_actor_isSome (x : Launch) (a : Actor) {n : Nat} (h : (x.actor n).isSome) : ((x.setActor a).actor n).isSome := by
  by_cases hn : n = a.name
  · subst hn
    rw [Launch.actor, Launch.setActor, findBy_putBy_self Actor.name]
    rfl
  · rwa [Launch.actor, Launch.setActor, findBy_putBy_ne Actor.name _ _ hn]

/-! ### Two frames -/

/-- The slots and memory of a state are those of another, and no actor of it is gone. -/
structure KeepsSlots (s t : State) : Prop where
  slots  : ∀ d j, getSlot t d j = getSlot s d j
  mem    : t.mem = s.mem
  actors : ∀ l n, (getActor s l n).isSome → (getActor t l n).isSome

/-- The groups are those of the other state too. -/
structure KeepsGroups (s t : State) : Prop extends KeepsSlots s t where
  groups : ∀ d l, getGroup t d l = getGroup s d l

variable {s t u : State}

theorem KeepsSlots.refl (s : State) : KeepsSlots s s := ⟨fun _ _ => rfl, rfl, fun _ _ h => h⟩

theorem KeepsSlots.trans (h : KeepsSlots s t) (h' : KeepsSlots t u) : KeepsSlots s u :=
  ⟨fun d j => (h'.slots d j).trans (h.slots d j), h'.mem.trans h.mem, fun l n ha => h'.actors l n (h.actors l n ha)⟩

theorem KeepsGroups.refl (s : State) : KeepsGroups s s := ⟨.refl s, fun _ _ => rfl⟩

theorem KeepsGroups.trans (h : KeepsGroups s t) (h' : KeepsGroups t u) : KeepsGroups s u :=
  ⟨h.toKeepsSlots.trans h'.toKeepsSlots, fun d l => (h'.groups d l).trans (h.groups d l)⟩

theorem KeepsSlots.fst_ite {b : Bool} {p q : State × MemRes} (hp : KeepsSlots s p.1) (hq : KeepsSlots s q.1) :
    KeepsSlots s (if b then p else q).1 := by
  split
  · exact hp
  · exact hq

theorem KeepsGroups.ite {b : Bool} (ht : KeepsGroups s t) (hu : KeepsGroups s u) : KeepsGroups s (if b then t else u) := by
  split
  · exact ht
  · exact hu

/-- States with the same cores, launches and memory. -/
theorem KeepsGroups.of_fields (hc : t.cores = s.cores) (hm : t.mem = s.mem) (hl : t.launches = s.launches) : KeepsGroups s t :=
  ⟨⟨fun d j => by simp only [getSlot, getCore, hc], hm, fun l n h => by rwa [getActor_congr hl]⟩,
    fun d l => by simp only [getGroup, getCore, hc]⟩

/-- A core written beside its slots. -/
theorem KeepsSlots.of_modCore (s : State) (c : Nat) {f : Core → Core} (hid : ∀ k, (f k).id = k.id) (hs : ∀ k, (f k).slots = k.slots) :
    KeepsSlots s (modCore s c f) := ⟨getSlot_modCore s c hid hs, rfl, fun _ _ h => h⟩

/-- A core written beside its slots and groups. -/
theorem KeepsGroups.of_modCore (s : State) (c : Nat) {f : Core → Core} (hid : ∀ k, (f k).id = k.id) (hs : ∀ k, (f k).slots = k.slots)
    (hg : ∀ k, (f k).groups = k.groups) : KeepsGroups s (modCore s c f) := by
  refine ⟨.of_modCore s c hid hs, fun d l => ?_⟩
  by_cases hd : d = c
  · subst hd
    simp only [getGroup, getCore_modCore_self s d f ((hid _).trans (getCore_id s d)), hg]
  · simp only [getGroup, getCore_modCore_ne s c f ((hid _).trans (getCore_id s c)) hd]

/-- A launch written that keeps its number and its actors. -/
theorem KeepsGroups.of_modLaunch (s : State) (l : Nat) {f : Launch → Launch} (hid : ∀ x, (f x).id = x.id)
    (ha : ∀ x n, (x.actor n).isSome → ((f x).actor n).isSome) : KeepsGroups s (modLaunch s l f) := by
  have hcores : (modLaunch s l f).cores = s.cores := by rw [modLaunch_only]
  refine ⟨⟨fun d j => by simp only [getSlot, getCore, hcores], by rw [modLaunch_only], fun k n h => ?_⟩,
    fun d k => by simp only [getGroup, getCore, hcores]⟩
  by_cases hk : k = l
  · subst hk
    cases hl : getLaunch s k with
    | none => simp [getActor, hl] at h
    | some x =>
      rw [getActor_of_launch hl] at h
      rw [getActor_of_launch (getLaunch_modLaunch_self hl (hid x))]
      exact ha x n h
  · rwa [getActor, getLaunch_modLaunch_ne s hid hk]

/-! ### Messages -/

theorem keeps_setActor (s : State) (l : Nat) (a : Actor) : KeepsGroups s (setActor s l a) :=
  .of_modLaunch s l (fun _ => rfl) fun x _ => setActor_actor_isSome x a

theorem keeps_modActor (s : State) (l n : Nat) (f : Actor → Actor) : KeepsGroups s (modActor s l n f) := by
  unfold modActor
  split
  · exact keeps_setActor s l _
  · exact .refl s

theorem keeps_countDropped (s : State) (l n : Nat) : KeepsGroups s (countDropped s l n) :=
  .of_modLaunch s l (fun _ => rfl) fun _ _ h => h

theorem keeps_nextArrival (s : State) (c : Nat) : KeepsGroups s (nextArrival s c).2.2 :=
  .of_modCore s c (f := fun k => { k with arrival := k.arrival + 1 }) (fun _ => rfl) (fun _ => rfl) fun _ => rfl

theorem keeps_nextSeq (s : State) (c : Nat) : KeepsGroups s (nextSeq s c).2 :=
  .of_modCore s c (f := fun k => { k with seq := k.seq + 1 }) (fun _ => rfl) (fun _ => rfl) fun _ => rfl

theorem keeps_enqueue (s : State) (src dst : Nat) (p : Packet) : KeepsGroups s (enqueue s src dst p) := .of_fields rfl rfl rfl

theorem keeps_report (s : State) (r : FaultReport) : KeepsGroups s (report s r) := .of_fields rfl rfl rfl

theorem keeps_intoMailbox (s : State) (l : Nat) (a : Actor) (ch : Nat) (m : Msg) : KeepsGroups s (intoMailbox s l a ch m) :=
  (keeps_nextArrival s a.core).trans (keeps_modActor _ l a.name _)

theorem keeps_intoBox {l : Nat} {a : Actor} {ch : Nat} {m : Msg} (h : intoBox s l a ch m = .done t) : KeepsGroups s t := by
  unfold intoBox at h
  split at h
  · cases h
    exact keeps_setActor s l _
  · cases h

theorem keeps_atMailbox {l : Launch} {a : Actor} {ch : Nat} {m : Msg} (h : atMailbox s l a ch m = .done t) : KeepsGroups s t := by
  simp only [atMailbox] at h
  split at h
  · split at h
    · cases h
      exact keeps_intoMailbox s l.id a ch m
    · split at h
      · exact keeps_intoBox h
      · cases h
  · split at h
    · exact keeps_intoBox h
    · cases h

/-- A message that performs. -/
theorem keeps_performMsg {node l name ch : Nat} {m : Msg} (h : performMsg s node l name ch m = .done t) : KeepsGroups s t := by
  have hdropped (he : Perf.done (countDropped s l 1) = .done t) : KeepsGroups s t := by
    cases he
    exact keeps_countDropped s l 1
  unfold performMsg at h
  split at h
  · cases h
    exact .refl s
  · split at h
    · exact hdropped h
    · split at h
      · exact hdropped h
      · split at h
        · exact hdropped h
        · split at h
          · cases h
          · split at h
            · split at h
              · cases h
              · exact hdropped h
            · split at h
              · exact hdropped h
              · split at h
                · exact keeps_intoBox h
                · exact keeps_atMailbox h

theorem keeps_ownMsg {c asid l name ch : Nat} {m : Msg} (h : ownMsg s c asid l name ch m = some t) : KeepsGroups s t := by
  unfold ownMsg at h
  split at h
  · next t' hp =>
    split at h
    · cases h
    · cases h
      exact keeps_performMsg hp
  · cases h
  · split at h
    · cases h
    · cases h
      exact keeps_enqueue s _ _ _

theorem keeps_sendMsg {c asid l name ch : Nat} {m : Msg} (h : sendMsg s c asid l name ch m = some t) : KeepsGroups s t := by
  unfold sendMsg at h
  split at h
  · cases h
    exact keeps_countDropped s l 1
  · split at h
    · split at h
      · cases h
      · exact keeps_ownMsg h
    · cases h
      exact keeps_enqueue s _ _ _

theorem keeps_cacheNode (s : State) (c l name node : Nat) : KeepsGroups s (cacheNode s c l name node) :=
  .of_modCore s c (f := fun k => { k with dir := ⟨l, name, node⟩ :: k.dir.filter fun e => !(e.launch == l && e.name == name) })
    (fun _ => rfl) (fun _ => rfl) fun _ => rfl

theorem keeps_postMsg (s : State) (c asid l name ch : Nat) (m : Msg) : KeepsGroups s (postMsg s c asid l name ch m) := by
  have hwaits (u : State) : KeepsGroups u (modCore u c fun k => { k with posts := k.posts ++ [⟨asid, l, name, ch, m⟩] }) :=
    .of_modCore u c (fun _ => rfl) (fun _ => rfl) fun _ => rfl
  unfold postMsg
  cases addressOf s c l name with
  | none =>
    dsimp only
    split
    · next h => exact keeps_sendMsg h
    · exact hwaits s
  | some n =>
    refine (keeps_cacheNode s c l name n).trans ?_
    dsimp only
    split
    · next h => exact keeps_sendMsg h
    · exact hwaits _

/-! ### Groups -/

theorem keeps_sendCompletions (h asid l : Nat) (word : Vec) (as : List Arrival) :
    ∀ s, KeepsGroups s (sendCompletions s h asid l word as) := by
  induction as with
  | nil => exact KeepsGroups.refl
  | cons a as ih =>
    intro s
    exact (KeepsGroups.ite ((keeps_nextSeq s h).trans (keeps_postMsg _ h asid l a.name a.chan _)) (.refl s)).trans (ih _)

theorem keeps_deliverGroup (h l ch cls : Nat) (words : List Vec) (msgid : Word) (ns : List Nat) :
    ∀ s, KeepsGroups s (deliverGroup s h l ch cls words msgid ns) := by
  induction ns with
  | nil => exact KeepsGroups.refl
  | cons n ns ih =>
    intro s
    exact (KeepsGroups.ite (keeps_postMsg s h _ l n ch _) (keeps_countDropped s l 1)).trans (ih _)

theorem keeps_setGroup (s : State) (h : Nat) (g : GroupRec) : KeepsSlots s (setGroup s h g) :=
  .of_modCore s h (f := fun k => { k with groups := putBy (·.launch) g k.groups }) (fun _ => rfl) fun _ => rfl

theorem keeps_dropGroup (s : State) (h l : Nat) : KeepsSlots s (dropGroup s h l) :=
  .of_modCore s h (f := fun k => { k with groups := dropBy (·.launch) l k.groups }) (fun _ => rfl) fun _ => rfl

theorem keeps_checkEpoch (s : State) (h l : Nat) : KeepsSlots s (checkEpoch s h l) := by
  unfold checkEpoch
  split
  · exact .refl s
  · split
    · exact .refl s
    · split
      · exact (keeps_report s _).toKeepsSlots
      · exact (keeps_setGroup s h _).trans (keeps_sendCompletions h _ l _ _ _).toKeepsSlots

theorem keeps_removeMember (s : State) (h l name : Nat) (ended : Bool) : KeepsSlots s (removeMember s h l name ended) := by
  unfold removeMember
  split
  · exact .refl s
  · refine (keeps_modActor s l name fun a => { a with groups := a.groups.filter (· != h) }).toKeepsSlots.trans ?_
    dsimp only
    split
    · exact keeps_dropGroup _ h l
    · exact (keeps_setGroup _ h _).trans (keeps_checkEpoch _ h l)

theorem keeps_performGroup_deliver (s : State) (l : Nat) (o : Word) (cls : Nat) (words : List Vec) (msgid : Word) :
    KeepsSlots s (performGroup s l o (.deliver cls words msgid)).1 := by
  simp only [performGroup]
  split
  · exact .refl s
  · exact (keeps_deliverGroup _ l _ cls words msgid _ s).toKeepsSlots

theorem keeps_performGroup_arrive (s : State) (l : Nat) (o : Word) (name : Nat) (kind : CollKind) (payload : Vec) :
    KeepsSlots s (performGroup s l o (.arrive name kind payload)).1 := by
  simp only [performGroup]
  split
  · exact .refl s
  · have hbad := (keeps_report s (agentFault l causeGROUP 7 (BitVec.ofNat 64 (o.toNat % 2 ^ 24)) (groupHome o))).toKeepsSlots
    exact .fst_ite hbad (.fst_ite hbad ((keeps_setGroup s _ _).trans (keeps_checkEpoch _ _ l)))

theorem keeps_performGroup_ended (s : State) (l : Nat) (o : Word) (name : Nat) : KeepsSlots s (performGroup s l o (.ended name)).1 :=
  keeps_removeMember s _ l name true

/-! ### A member that ends -/

theorem getGroup_launch {h l : Nat} {g : GroupRec} (hg : getGroup s h l = some g) : g.launch = l := findBy_key hg

theorem getGroup_setGroup_self (s : State) (h : Nat) {l : Nat} {g : GroupRec} (hl : g.launch = l) :
    getGroup (setGroup s h g) h l = some g := by
  subst hl
  have hcore := getCore_modCore_self s h (fun k => { k with groups := putBy (·.launch) g k.groups }) (getCore_id s h)
  simp only [getGroup, setGroup, hcore]
  exact findBy_putBy_self GroupRec.launch g _

theorem getGroup_dropGroup_self (s : State) (h l : Nat) : getGroup (dropGroup s h l) h l = none := by
  have hcore := getCore_modCore_self s h (fun k => { k with groups := dropBy (·.launch) l k.groups }) (getCore_id s h)
  simp only [getGroup, dropGroup, hcore]
  exact findBy_dropBy_self GroupRec.launch l _

/-- A group has the members after its epoch is checked that it had before (R189). -/
theorem members_checkEpoch {h l : Nat} {g : GroupRec} (hg : getGroup (checkEpoch s h l) h l = some g) :
    ∃ g', getGroup s h l = some g' ∧ g.members = g'.members := by
  unfold checkEpoch at hg
  split at hg
  · exact ⟨g, hg, rfl⟩
  · next g' hg' =>
    have hl : g'.launch = l := getGroup_launch hg'
    split at hg
    · exact ⟨g, hg, rfl⟩
    · split at hg
      · exact ⟨g, hg, rfl⟩
      · rw [(keeps_sendCompletions h _ l _ _ _).groups, getGroup_setGroup_self (l := l)] at hg
        · cases hg
          exact ⟨g', hg', rfl⟩
        · exact hl

/-- Who leaves is no member (R188, R194). -/
theorem not_mem_removeMember {h l name : Nat} {ended : Bool} {g : GroupRec}
    (hg : getGroup (removeMember s h l name ended) h l = some g) : name ∉ g.members := by
  unfold removeMember at hg
  split at hg
  · next hnone => simp [hnone] at hg
  · next g' hg' =>
    have hl : g'.launch = l := getGroup_launch hg'
    dsimp only at hg
    split at hg
    · simp [getGroup_dropGroup_self] at hg
    · obtain ⟨g'', hset, hmem⟩ := members_checkEpoch hg
      rw [getGroup_setGroup_self (l := l)] at hset
      · cases hset
        rw [hmem]
        exact fun hin => by simpa using List.of_mem_filter hin
      · exact hl

end Sys2Proof.Machine
end

section
/-! SUPPORT. The event COMMIT (05 R122, 08 R174): what it answers for what an entry comes to, and the entries of the send buffer that
take one step (R172 to R176, R180, R189, R195, R202). -/
namespace Sys2Proof.Machine

/-! ### The event -/

/-- A slot is due to commit: it has come to step 3 of HEND, and its launch is live (R122). -/
structure CommitDue (s : State) (c : Nat) (i : Fin 4) (l : Launch) : Prop where
  clocks : clocksRun s = true
  status : (getSlot s c i).status = .hend
  launch : getLaunch s (getSlot s c i).launch = some l
  phase  : l.phase = .running
  accs   : (getSlot s c i).accs = []
  mats   : (getSlot s c i).mats = []

/-- The slot once an entry is committed and these are left. -/
def Slot.committed (x : Slot) (rest : List SendEntry) : Slot :=
  { x with sends := rest, commit := .idle, result := none, waited := 0 }

theorem exec_commit (c : Nat) (i : Fin 4) (s : State) : exec (.evCommit c i) s = execEvCommit c i s := rfl

/-- While an access or a matrix operation is left, nothing commits (R122 step 2). -/
theorem commit_notPermitted {s : State} {c : Nat} {i : Fin 4} (h : (getSlot s c i).accs ≠ [] ∨ (getSlot s c i).mats ≠ []) :
    exec (.evCommit c i) s = notPermitted "COMMIT" := by
  rw [exec_commit, execEvCommit, if_neg]
  intro hgo
  simp only [Bool.and_eq_true, List.isEmpty_iff] at hgo
  obtain ⟨⟨⟨-, ha⟩, hm⟩, -⟩ := hgo
  exact h.elim (fun hne => hne ha) fun hne => hne hm

variable {s t : State} {c : Nat} {i : Fin 4} {l : Launch} {e : SendEntry} {rest : List SendEntry}

namespace CommitDue

/-- Of a slot that is due, the event takes one step of the next entry, or ends the activation. -/
theorem exec_eq (h : CommitDue s c i l) : exec (.evCommit c i) s = match (getSlot s c i).sends with
    | [] => .next (finishSlot s c i)
    | e :: _ => match commitEntry s c i e with
      | .step s => .next s
      | .done s => .next (nextEntry s c i)
      | .wait => notPermitted "COMMIT"
      | .miss va kind => .next (setSlot s c i { getSlot s c i with status := .hendWalk va kind false })
      | .reported s => .next (abortSlot s c i)
      | .fault cause tval => .next (trapFrom 2 s c i cause tval (getSlot s c i).pc) := by
  rw [exec_commit, execEvCommit]
  refine if_pos ?_
  simp only [h.clocks, h.status, h.launch, h.accs, h.mats, Launch.live, h.phase]
  rfl

theorem finishes (h : CommitDue s c i l) (hs : (getSlot s c i).sends = []) : exec (.evCommit c i) s = .next (finishSlot s c i) := by
  rw [h.exec_eq, hs]

theorem steps (h : CommitDue s c i l) (hs : (getSlot s c i).sends = e :: rest) (he : commitEntry s c i e = .step t) :
    exec (.evCommit c i) s = .next t := by
  simp only [h.exec_eq, hs, he]

theorem next_entry (h : CommitDue s c i l) (hs : (getSlot s c i).sends = e :: rest) (he : commitEntry s c i e = .done t) :
    exec (.evCommit c i) s = .next (nextEntry t c i) := by
  simp only [h.exec_eq, hs, he]

/-- An entry whose effect leaves the slot commits, and the next one comes. -/
theorem commits (h : CommitDue s c i l) (hs : (getSlot s c i).sends = e :: rest) (he : commitEntry s c i e = .done t)
    (ht : getSlot t c i = getSlot s c i) : exec (.evCommit c i) s = .next (setSlot t c i ((getSlot s c i).committed rest)) := by
  rw [h.next_entry hs he, nextEntry, modSlot, ht, hs]
  rfl

theorem waits (h : CommitDue s c i l) (hs : (getSlot s c i).sends = e :: rest) (he : commitEntry s c i e = .wait) :
    exec (.evCommit c i) s = notPermitted "COMMIT" := by
  simp only [h.exec_eq, hs, he]

theorem reports (h : CommitDue s c i l) (hs : (getSlot s c i).sends = e :: rest) (he : commitEntry s c i e = .reported t) :
    exec (.evCommit c i) s = .next (abortSlot t c i) := by
  simp only [h.exec_eq, hs, he]

theorem faults {tval : Word} (h : CommitDue s c i l) (hs : (getSlot s c i).sends = e :: rest)
    (he : commitEntry s c i e = .fault causeTASK tval) :
    exec (.evCommit c i) s = .next (trapFrom 2 s c i 0x0E tval (getSlot s c i).pc) := by
  simp only [h.exec_eq, hs, he]
  rfl

/-- An entry that enters the queue of a pair commits. -/
theorem enqueues {dst : Nat} {k : Packet} (h : CommitDue s c i l) (hs : (getSlot s c i).sends = e :: rest)
    (he : commitEntry s c i e = .done (enqueue t (coreNode c) dst k)) (ht : getSlot t c i = getSlot s c i) :
    exec (.evCommit c i) s = .next (setSlot (enqueue t (coreNode c) dst k) c i ((getSlot s c i).committed rest)) :=
  h.commits hs he (((keeps_enqueue t (coreNode c) dst k).slots c i).trans ht)

end CommitDue

/-! ### Messages (R176, R177, R300) -/

theorem strays_iff (u : State) (c l name node : Nat) : strays u c l name node = true ↔ ∃ p ∈ u.pairs, p.src = coreNode c ∧ p.dst ≠ node
    ∧ ∃ k ∈ p.out ++ p.store.map (·.pkt), isFor l name k = true ∧ k.orig = none := by
  simp only [strays, List.any_eq_true, Bool.and_eq_true, beq_iff_eq, bne_iff_ne, Option.isNone_iff_eq_none, and_assoc]

/-- The message that a SEND makes, with the core's next SEQ (R36). -/
def sentMsg (s : State) (c cls : Nat) (words : List Vec) : Msg := ⟨cls, words, msgidOf c (nextSeq s c).1, 0, 0, 0, false⟩

theorem getCore_nextSeq (s : State) (c : Nat) : getCore (nextSeq s c).2 c = { getCore s c with seq := (getCore s c).seq + 1 } :=
  getCore_modCore_self s c (fun k => { k with seq := k.seq + 1 }) (getCore_id s c)

/-- A SEND takes a SEQ and nothing that its address or its path is read from. -/
theorem addressOf_nextSeq (s : State) (c l name : Nat) : addressOf (nextSeq s c).2 c l name = addressOf s c l name := by
  simp only [addressOf, cachedNode, getCore_nextSeq]
  rfl

theorem commitEntry_send (s : State) (c : Nat) (i : Fin 4) (name ch cls : Nat) (words : List Vec) :
    commitEntry s c i (.send name ch cls words) = match sendMsg (nextSeq s c).2 c (getSlot s c i).ctx (getSlot s c i).launch name ch
      (sentMsg s c cls words) with | some u => .done u | none => .wait := rfl

section
variable {l name ch cls node asid : Nat} {words : List Vec} {m : Msg}

theorem sendMsg_away (ha : addressOf s c l name = some node) (hn : node ≠ coreNode c) :
    sendMsg s c asid l name ch m = some (enqueue s (coreNode c) node (msgPacket asid l name ch m)) := by
  simp only [sendMsg, ha, hn, if_false]

theorem sendMsg_waits (ha : addressOf s c l name = some (coreNode c)) (hw : postWaits (getCore s c).posts l name = true) :
    sendMsg s c asid l name ch m = none := by
  simp only [sendMsg, ha, hw, if_true]

theorem sendMsg_own (ha : addressOf s c l name = some (coreNode c)) (hw : postWaits (getCore s c).posts l name = false) :
    sendMsg s c asid l name ch m = ownMsg s c asid l name ch m := by
  simp only [sendMsg, ha, hw, Bool.false_eq_true, if_true, if_false]

theorem ownMsg_done (h : performMsg s (coreNode c) l name ch m = .done t) : ownMsg s c asid l name ch m
    = if strays s c l name (coreNode c) then none else some t := by
  simp only [ownMsg, h]

theorem ownMsg_defer {r : Nat} (h : performMsg s (coreNode c) l name ch m = .defer r) : ownMsg s c asid l name ch m = none := by
  simp only [ownMsg, h]

theorem ownMsg_forward (h : performMsg s (coreNode c) l name ch m = .forward node) : ownMsg s c asid l name ch m
    = if strays s c l name node then none
      else some (enqueue s (coreNode c) node { msgPacket asid l name ch m with hops := 1 }) := by
  simp only [ownMsg, h]

end

/-- What a SEND to the core's own node comes to (R241, R300). -/
theorem commitEntry_send_own {name ch cls : Nat} {words : List Vec}
    (ha : addressOf s c (getSlot s c i).launch name = some (coreNode c)) (hw : postWaits (getCore s c).posts (getSlot s c i).launch name = false) :
    commitEntry s c i (.send name ch cls words) = match ownMsg (nextSeq s c).2 c (getSlot s c i).ctx (getSlot s c i).launch name ch
      (sentMsg s c cls words) with | some u => .done u | none => .wait := by
  rw [commitEntry_send, sendMsg_own ((addressOf_nextSeq ..).trans ha) (by rwa [getCore_nextSeq])]

section
variable {name ch cls : Nat} {words : List Vec} (h : CommitDue s c i l) (hs : (getSlot s c i).sends = .send name ch cls words :: rest)
include h hs

theorem send_away {node : Nat} (ha : addressOf s c (getSlot s c i).launch name = some node) (hn : node ≠ coreNode c) :
    exec (.evCommit c i) s = .next (setSlot (enqueue (nextSeq s c).2 (coreNode c) node
      (newPacket (2 * words.length) cls (getSlot s c i).ctx (.msg (getSlot s c i).launch name ch (sentMsg s c cls words)))) c i
      ((getSlot s c i).committed rest)) := by
  refine h.enqueues hs ?_ ((keeps_nextSeq s c).slots c i)
  rw [commitEntry_send, sendMsg_away ((addressOf_nextSeq ..).trans ha) hn]
  rfl

variable (ha : addressOf s c (getSlot s c i).launch name = some (coreNode c))
include ha

theorem send_postWaits (hw : postWaits (getCore s c).posts (getSlot s c i).launch name = true) :
    exec (.evCommit c i) s = notPermitted "COMMIT" := by
  refine h.waits hs ?_
  rw [commitEntry_send, sendMsg_waits ((addressOf_nextSeq ..).trans ha) (by rwa [getCore_nextSeq])]

variable (hw : postWaits (getCore s c).posts (getSlot s c i).launch name = false)
include hw

theorem send_defers {r : Nat}
    (hp : performMsg (nextSeq s c).2 (coreNode c) (getSlot s c i).launch name ch (sentMsg s c cls words) = .defer r) :
    exec (.evCommit c i) s = notPermitted "COMMIT" := by
  refine h.waits hs ?_
  rw [commitEntry_send_own ha hw, ownMsg_defer hp]

theorem send_performs (hp : performMsg (nextSeq s c).2 (coreNode c) (getSlot s c i).launch name ch (sentMsg s c cls words) = .done t) :
    exec (.evCommit c i) s = if strays s c (getSlot s c i).launch name (coreNode c) then notPermitted "COMMIT"
      else .next (setSlot t c i ((getSlot s c i).committed rest)) := by
  have hentry := (commitEntry_send_own ha hw).trans (by rw [ownMsg_done hp])
  rw [show strays (nextSeq s c).2 c (getSlot s c i).launch name (coreNode c) = strays s c (getSlot s c i).launch name (coreNode c)
    from rfl] at hentry
  split
  · next hstray => exact h.waits hs (by rw [hentry, if_pos hstray])
  · next hstray =>
    exact h.commits hs (by rw [hentry, if_neg hstray])
      (((keeps_performMsg hp).slots c i).trans ((keeps_nextSeq s c).slots c i))

theorem send_forwards {node : Nat}
    (hp : performMsg (nextSeq s c).2 (coreNode c) (getSlot s c i).launch name ch (sentMsg s c cls words) = .forward node) :
    exec (.evCommit c i) s = if strays s c (getSlot s c i).launch name node then notPermitted "COMMIT"
      else .next (setSlot (enqueue (nextSeq s c).2 (coreNode c) node
        { newPacket (2 * words.length) cls (getSlot s c i).ctx (.msg (getSlot s c i).launch name ch (sentMsg s c cls words)) with
          hops := 1 }) c i ((getSlot s c i).committed rest)) := by
  have hentry := (commitEntry_send_own ha hw).trans (by rw [ownMsg_forward hp])
  rw [show strays (nextSeq s c).2 c (getSlot s c i).launch name node = strays s c (getSlot s c i).launch name node from rfl] at hentry
  split
  · next hstray => exact h.waits hs (by rw [hentry, if_pos hstray])
  · next hstray =>
    refine h.enqueues hs ?_ ((keeps_nextSeq s c).slots c i)
    rw [hentry, if_neg hstray]
    rfl

end

/-! ### Reductions, group items and egress (R102, R180, R189, R202) -/

/-- A write through a key slot writes memory and the key of its block (R273). -/
theorem writeThrough_only (s : State) (pa key : Nat) (v : Vec) (mask : BitVec 64) : writeThrough s pa key v mask
    = { s with mem := (writeThrough s pa key v mask).mem, blockKey := (writeThrough s pa key v mask).blockKey } := by
  rw [writeThrough]
  cases hkey : isDram pa && blockKeyOf s pa != keyValue s key with
  | true => rfl
  | false => rfl

theorem getSlot_performRed (s : State) (pa key : Nat) (w0 w1 : Vec) (r : FaultReport) (c : Nat) (i : Fin 4) :
    getSlot (performRed s pa key w0 w1 r) c i = getSlot s c i := by
  unfold performRed
  cases hp : isPoisoned s pa with
  | true => exact (sameTasks_homeMusic s (homeOf pa) 3 pa).slots c i
  | false =>
    rw [if_neg Bool.false_ne_true, writeThrough_only]
    rfl

theorem red_away (h : CommitDue s c i l) {va : Word} {pa key cls : Nat} {w0 w1 : Vec}
    (hs : (getSlot s c i).sends = .red va pa key cls w0 w1 :: rest) (hp : homeOf pa ≠ coreNode c) :
    exec (.evCommit c i) s = .next (setSlot (enqueue s (coreNode c) (homeOf pa) (newAccess 4 (getSlot s c i).ctx va
      (.red (getSlot s c i).launch pa key w0 w1 ⟨(getSlot s c i).launch, 0x04, 6, va, (getSlot s c i).pc, (getSlot s c i).msgid,
        (getSlot s c i).actor, c, i.val, 0, 0⟩))) c i ((getSlot s c i).committed rest)) :=
  h.enqueues hs (if_neg hp) rfl

theorem red_own (h : CommitDue s c i l) {va : Word} {pa key cls : Nat} {w0 w1 : Vec}
    (hs : (getSlot s c i).sends = .red va pa key cls w0 w1 :: rest) (hp : homeOf pa = coreNode c) :
    exec (.evCommit c i) s = .next (setSlot (performRed s pa key w0 w1 ⟨(getSlot s c i).launch, 0x04, 6, va, (getSlot s c i).pc,
      (getSlot s c i).msgid, (getSlot s c i).actor, c, i.val, 0, 0⟩) c i ((getSlot s c i).committed rest)) :=
  h.commits hs (if_pos hp) (getSlot_performRed ..)

theorem gsend_away (h : CommitDue s c i l) {o : Word} {cls : Nat} {words : List Vec}
    (hs : (getSlot s c i).sends = .gsend o cls words :: rest) (ho : groupHome o ≠ c) :
    exec (.evCommit c i) s = .next (setSlot (enqueue (nextSeq s c).2 (coreNode c) (coreNode (groupHome o))
      (newPacket (2 * words.length) cls (getSlot s c i).ctx (.grp (getSlot s c i).launch o
        (.deliver cls words (msgidOf c (nextSeq s c).1)) none))) c i ((getSlot s c i).committed rest)) :=
  h.enqueues hs (if_neg ho) ((keeps_nextSeq s c).slots c i)

theorem gsend_own (h : CommitDue s c i l) {o : Word} {cls : Nat} {words : List Vec}
    (hs : (getSlot s c i).sends = .gsend o cls words :: rest) (ho : groupHome o = c) :
    exec (.evCommit c i) s = .next (setSlot (performGroup (nextSeq s c).2 (getSlot s c i).launch o
      (.deliver cls words (msgidOf c (nextSeq s c).1))).1 c i ((getSlot s c i).committed rest)) :=
  h.commits hs (if_pos ho) (((keeps_performGroup_deliver ..).slots c i).trans ((keeps_nextSeq s c).slots c i))

theorem commitEntry_coll (s : State) (c : Nat) (i : Fin 4) (kind : CollKind) (o : Word) (p : Vec) :
    commitEntry s c i (.coll kind o p) =
      if groupHome o = c then
        if s.reports.length < (performGroup s (getSlot s c i).launch o (.arrive (getSlot s c i).actor kind p)).1.reports.length then
          .reported (performGroup s (getSlot s c i).launch o (.arrive (getSlot s c i).actor kind p)).1
        else .done (performGroup s (getSlot s c i).launch o (.arrive (getSlot s c i).actor kind p)).1
      else .done (enqueue s (coreNode c) (coreNode (groupHome o)) (newPacket (if kind = .gbar then 0 else 2) (groupClass o)
        (getSlot s c i).ctx (.grp (getSlot s c i).launch o (.arrive (getSlot s c i).actor kind p) none))) := by
  simp only [commitEntry, beq_iff_eq]

section
variable {kind : CollKind} {o : Word} {p : Vec} (h : CommitDue s c i l) (hs : (getSlot s c i).sends = .coll kind o p :: rest)
include h hs

theorem coll_away (ho : groupHome o ≠ c) :
    exec (.evCommit c i) s = .next (setSlot (enqueue s (coreNode c) (coreNode (groupHome o))
      (newPacket (if kind = .gbar then 0 else 2) (groupClass o) (getSlot s c i).ctx
        (.grp (getSlot s c i).launch o (.arrive (getSlot s c i).actor kind p) none))) c i ((getSlot s c i).committed rest)) :=
  h.enqueues hs ((commitEntry_coll ..).trans (if_neg ho)) rfl

variable (ho : groupHome o = c)
include ho

theorem coll_own (hr : (performGroup s (getSlot s c i).launch o (.arrive (getSlot s c i).actor kind p)).1.reports.length
      ≤ s.reports.length) :
    exec (.evCommit c i) s = .next (setSlot (performGroup s (getSlot s c i).launch o (.arrive (getSlot s c i).actor kind p)).1 c i
      ((getSlot s c i).committed rest)) :=
  h.commits hs ((commitEntry_coll ..).trans ((if_pos ho).trans (if_neg hr.not_gt))) ((keeps_performGroup_arrive ..).slots c i)

/-- A GROUP fault at the core's own group home discards the later entries (R174, R189). -/
theorem coll_reported (hr : s.reports.length
      < (performGroup s (getSlot s c i).launch o (.arrive (getSlot s c i).actor kind p)).1.reports.length) :
    Does (.evCommit c i) s fun w => getSlot w c i = Slot.reset
      ∧ w.reports = (performGroup s (getSlot s c i).launch o (.arrive (getSlot s c i).actor kind p)).1.reports ∧ w.mem = s.mem := by
  have hentry := (commitEntry_coll s c i kind o p).trans ((if_pos ho).trans (if_pos hr))
  have habort := oneSlot_abortSlot (performGroup s (getSlot s c i).launch o (.arrive (getSlot s c i).actor kind p)).1 c i
  exact ⟨_, h.reports hs hentry, getSlot_abortSlot _ c i, habort.reports, habort.mem.trans (keeps_performGroup_arrive ..).mem⟩

end

theorem commitEntry_egr (s : State) (c : Nat) (i : Fin 4) (op : EgrOp) (o : Word) (d : Vec) :
    commitEntry s c i (.egr op o d) =
      if op = .post ∧ egressFull s (egQueue o) = true then .wait
      else .done (enqueue s (coreNode c) (egressNode (c / 4096)) (newPacket (if op = .post then 2 else 0) 0 (getSlot s c i).ctx
        (.egr (getSlot s c i).launch c (egQueue o) op o d))) := by
  simp only [commitEntry, Bool.and_eq_true, beq_iff_eq]

theorem egressFull_iff (s : State) (q : Nat) :
    egressFull s q = true ↔ 4096 ≤ egressCount (getEgress s q) + postsInFlight s q := decide_eq_true_iff

theorem egr_leaves (h : CommitDue s c i l) {op : EgrOp} {o : Word} {d : Vec} (hs : (getSlot s c i).sends = .egr op o d :: rest)
    (hroom : op = .post → egressCount (getEgress s (egQueue o)) + postsInFlight s (egQueue o) < 4096) :
    exec (.evCommit c i) s = .next (setSlot (enqueue s (coreNode c) (egressNode (c / 4096))
      (newPacket (if op = .post then 2 else 0) 0 (getSlot s c i).ctx (.egr (getSlot s c i).launch c (egQueue o) op o d))) c i
      ((getSlot s c i).committed rest)) := by
  refine h.enqueues hs ((commitEntry_egr ..).trans (if_neg ?_)) rfl
  rintro ⟨hop, hfull⟩
  exact absurd ((egressFull_iff s _).mp hfull) (not_le.mpr (hroom hop))

/-- A post to a full queue stays (R202). -/
theorem egr_waits (h : CommitDue s c i l) {o : Word} {d : Vec} (hs : (getSlot s c i).sends = .egr .post o d :: rest)
    (hfull : 4096 ≤ egressCount (getEgress s (egQueue o)) + postsInFlight s (egQueue o)) :
    exec (.evCommit c i) s = notPermitted "COMMIT" :=
  h.waits hs ((commitEntry_egr ..).trans (if_pos ⟨rfl, (egressFull_iff s _).mpr hfull⟩))

/-! ### Pushes (R195, R292) -/

theorem dieClosed_iff (hl : getLaunch s (getSlot s c i).launch = some l) (die : Nat) :
    dieClosed s (getSlot s c i).launch die = true ↔ die ∈ l.closed := by
  simp only [dieClosed, hl, List.contains_iff_mem]

theorem commitEntry_qpush (s : State) (c : Nat) (i : Fin 4) (o : Word) (level : Nat) (words : List Vec) :
    commitEntry s c i (.qpush o level false words) =
      if dieClosed s (getSlot s c i).launch (dieOf c) then .fault causeTASK o
      else match pushTask s c (getSlot s c i).launch (getSlot s c i).ctx level (newTask c words) (pushReport (getSlot s c i) c i o) with
        | none => .wait
        | some u => .done u := rfl

theorem qpush_close (h : CommitDue s c i l) {o : Word} {level : Nat} {words : List Vec}
    (hs : (getSlot s c i).sends = .qpush o level true words :: rest) :
    exec (.evCommit c i) s = .next (setSlot (enqueue s (coreNode c) (queueNode c 2)
      (newPacket 0 0 (getSlot s c i).ctx (.close (getSlot s c i).launch))) c i ((getSlot s c i).committed rest)) :=
  h.enqueues hs rfl rfl

section
variable {o : Word} {level : Nat} {words : List Vec} (h : CommitDue s c i l)
  (hs : (getSlot s c i).sends = .qpush o level false words :: rest)
include h hs

/-- A push to a closed die traps TASK (R195). -/
theorem qpush_closed (hc : dieOf c ∈ l.closed) :
    exec (.evCommit c i) s = .next (trapFrom 2 s c i 0x0E o (getSlot s c i).pc) :=
  h.faults hs ((commitEntry_qpush ..).trans (if_pos ((dieClosed_iff h.launch _).mpr hc)))

theorem qpush_away (hc : dieOf c ∉ l.closed) (hlevel : 0 < level)
    (hroom : enterLevel s c (getSlot s c i).launch level ⟨words, c, 0, 0, 0, false⟩ ≠ none) :
    exec (.evCommit c i) s = .next (setSlot (enqueue s (coreNode c) (queueNode c level)
      (newPacket (2 * words.length) 0 (getSlot s c i).ctx (.tsk (getSlot s c i).launch level ⟨words, c, 0, 0, 0, false⟩
        ⟨(getSlot s c i).launch, 0x0E, 2, o, (getSlot s c i).pc, (getSlot s c i).msgid, (getSlot s c i).actor, c, i.val, 0, 0⟩))) c i
      ((getSlot s c i).committed rest)) := by
  refine h.enqueues hs ((commitEntry_qpush ..).trans ((if_neg fun hd => hc ((dieClosed_iff h.launch _).mp hd)).trans ?_)) rfl
  obtain ⟨u, hu⟩ := Option.ne_none_iff_exists'.mp hroom
  rw [pushTask, if_neg (by omega), newTask, hu]
  rfl

end

end Sys2Proof.Machine
end

section
/-! SUPPORT. The commits that put a task in the core's own queue or work on a task control block (08 R195 to R199, R292). -/
namespace Sys2Proof.Machine

/-! ### A task in the core's own queue (R288, R292) -/

/-- A task has entered the queue of a core for a launch, behind those there. -/
structure TaskEntered (s u : State) (c l : Nat) (k : Task) : Prop where
  slots : ∀ d j, getSlot u d j = getSlot s d j
  mem   : u.mem = s.mem
  pairs : u.pairs = s.pairs
  tasks : (getResident u c l).tasks = (getResident s c l).tasks ++ [k]

theorem tasks_modResident_append (s : State) (c l : Nat) (k : Task) :
    (getResident (modResident s c l fun r => { r with tasks := r.tasks ++ [k] }) c l).tasks = (getResident s c l).tasks ++ [k] := by
  have h := getResident_setResident_self s c { getResident s c l with tasks := (getResident s c l).tasks ++ [k] }
  rw [getResident_launch] at h
  exact congrArg Resident.tasks h

theorem sameTasks_nextArrival (s : State) (c : Nat) : SameTasks s (nextArrival s c).2.2 :=
  .of_modCore s c (f := fun k => { k with arrival := k.arrival + 1 }) (fun _ => rfl) (fun _ => rfl) fun _ => rfl

/-- A core with room takes a task, with its next arrival number. -/
theorem enterCore_room {s : State} {c : Nat} (l : Nat) (k : Task) (h : coreTasks (getCore s c) < 64) :
    ∃ u, enterCore s c l k = some u
      ∧ TaskEntered s u c l { k with arr := (getCore s c).arrival, age := 0, since := (getCore s c).cycle } := by
  have harr := sameTasks_nextArrival s c
  refine ⟨_, if_pos h, ?_⟩
  exact ⟨fun d j => (getSlot_setResident ..).trans (harr.slots d j), harr.mem, rfl,
    (tasks_modResident_append (nextArrival s c).2.2 c l _).trans (by rw [harr.residents])⟩

variable {s : State} {c : Nat} {i : Fin 4} {l : Launch} {e : SendEntry} {rest : List SendEntry}

theorem qpush_own (h : CommitDue s c i l) {o : Word} {words : List Vec}
    (hs : (getSlot s c i).sends = .qpush o 0 false words :: rest) (hc : dieOf c ∉ l.closed) (hroom : coreTasks (getCore s c) < 64) :
    Does (.evCommit c i) s fun t => getSlot t c i = (getSlot s c i).committed rest ∧ OtherSlots s t c i ∧ t.mem = s.mem
      ∧ (getResident t c (getSlot s c i).launch).tasks = (getResident s c (getSlot s c i).launch).tasks
        ++ [⟨words, c, (getCore s c).arrival, 0, (getCore s c).cycle, false⟩] := by
  obtain ⟨u, hu, henter⟩ := enterCore_room (getSlot s c i).launch (newTask c words) hroom
  have hentry : commitEntry s c i (.qpush o 0 false words) = .done u := by
    rw [commitEntry_qpush, if_neg fun hd => hc ((dieClosed_iff h.launch _).mp hd), pushTask, if_pos rfl, hu]
  refine ⟨_, h.commits hs hentry (henter.slots c i), getSlot_setSlot_self .., otherSlots_setSlot henter.slots c i _, henter.mem, ?_⟩
  rw [getResident_setSlot, henter.tasks]
  rfl

/-! ### The steps after the block is written (R198, R199) -/

theorem commitEntry_tdone {b : Word} (hc : (getSlot s c i).commit ≠ .idle) : commitEntry s c i (.tdone b) = commitStep s c i true := by
  cases hcommit : (getSlot s c i).commit with
  | idle => exact absurd hcommit hc
  | _ => simp only [commitEntry, hcommit]

theorem commitEntry_tarmRelease {b : Word} (hc : (getSlot s c i).commit ≠ .idle) :
    commitEntry s c i (.tarmRelease b) = commitStep s c i false := by
  cases hcommit : (getSlot s c i).commit with
  | idle => exact absurd hcommit hc
  | _ => simp only [commitEntry, hcommit]

section
variable (h : CommitDue s c i l) {b b' : Word} {v : Vec} {d : Desc}
include h

theorem tdone_written (hs : (getSlot s c i).sends = .tdone b' :: rest) (hc : (getSlot s c i).commit = .block b)
    (hr : (getSlot s c i).result = some (0, v, d)) :
    exec (.evCommit c i) s = .next (setSlot s c i
      { getSlot s c i with commit := .readSucc (BitVec.ofNat 64 (tcbSucc v)) 0 (tcbNsucc v) [], result := none }) := by
  refine h.steps hs ((commitEntry_tdone (by simp [hc])).trans ?_)
  simp only [commitStep, hc, hr]
  rfl

theorem tarm_written (hs : (getSlot s c i).sends = .tarmRelease b' :: rest) (hc : (getSlot s c i).commit = .block b)
    (hr : (getSlot s c i).result = some (0, v, d)) :
    exec (.evCommit c i) s = .next (setSlot s c i { getSlot s c i with commit := .push [(b, tcbLevel v, v)], result := none }) := by
  refine h.steps hs ((commitEntry_tarmRelease (by simp [hc])).trans ?_)
  simp only [commitStep, hc, hr]
  rfl

/-- A block in another state traps TASK (R198). -/
theorem block_faults {code : Nat} (hs : (getSlot s c i).sends = e :: rest) (he : e = .tdone b' ∨ e = .tarmRelease b')
    (hc : (getSlot s c i).commit = .block b) (hr : (getSlot s c i).result = some (code, v, d)) (hcode : code ≠ 0) :
    exec (.evCommit c i) s = .next (trapFrom 2 s c i 0x0E b (getSlot s c i).pc) := by
  have hstep (w : Bool) : commitStep s c i w = .fault causeTASK b := by simp only [commitStep, hc, hr, bne_iff_ne.mpr hcode, if_true]
  have hidle : (getSlot s c i).commit ≠ .idle := by simp [hc]
  obtain rfl | rfl := he
  · exact h.faults hs ((commitEntry_tdone hidle).trans (hstep true))
  · exact h.faults hs ((commitEntry_tarmRelease hidle).trans (hstep false))

variable {list : Word} {k n : Nat} {rel : List (Word × Nat × Vec)} (hs : (getSlot s c i).sends = .tdone b' :: rest)
include hs

theorem succs_read_none (hc : (getSlot s c i).commit = .readSucc list k n []) (hr : (getSlot s c i).result = none) (hk : n ≤ k) :
    exec (.evCommit c i) s = .next (setSlot s c i ((getSlot s c i).committed rest)) := by
  refine h.commits hs ((commitEntry_tdone (by simp [hc])).trans ?_) rfl
  simp only [commitStep, hc, hr, hk, if_true]
  rfl

theorem succs_read_some (hc : (getSlot s c i).commit = .readSucc list k n rel) (hr : (getSlot s c i).result = none) (hk : n ≤ k)
    (hrel : rel ≠ []) :
    exec (.evCommit c i) s = .next (setSlot s c i { getSlot s c i with commit := .push rel, result := none }) := by
  refine h.steps hs ((commitEntry_tdone (by simp [hc])).trans ?_)
  simp only [commitStep, hc, hr, hk, if_true, List.isEmpty_iff, hrel, if_false]

/-- A misaligned successor traps TASK (R198). -/
theorem succ_misaligned {code : Nat} (hc : (getSlot s c i).commit = .readSucc list k n rel)
    (hr : (getSlot s c i).result = some (code, v, d)) (hv : v.toNat % 64 ≠ 0) :
    exec (.evCommit c i) s = .next (trapFrom 2 s c i 0x0E (v.setWidth 64) (getSlot s c i).pc) := by
  have hmis : (v.setWidth 64).toNat % 64 ≠ 0 := by
    rwa [BitVec.toNat_setWidth, Nat.mod_mod_of_dvd _ (by decide)]
  refine h.faults hs ((commitEntry_tdone (by simp [hc])).trans ?_)
  simp only [commitStep, hc, hr, bne_iff_ne.mpr hmis, if_true]

theorem succ_faults {code : Nat} (hc : (getSlot s c i).commit = .decSucc list k n b rel)
    (hr : (getSlot s c i).result = some (code, v, d)) (hcode : code ≠ 0) :
    exec (.evCommit c i) s = .next (trapFrom 2 s c i 0x0E b (getSlot s c i).pc) := by
  refine h.faults hs ((commitEntry_tdone (by simp [hc])).trans ?_)
  simp only [commitStep, hc, hr, bne_iff_ne.mpr hcode, if_true]

theorem succ_decremented (hc : (getSlot s c i).commit = .decSucc list k n b rel) (hr : (getSlot s c i).result = some (0, v, d)) :
    exec (.evCommit c i) s = .next (setSlot s c i { getSlot s c i with
      commit := .readSucc list (k + 1) n (if tcbCount v = 0 then insertRelease (b, tcbLevel v, v) rel else rel), result := none }) := by
  refine h.steps hs ((commitEntry_tdone (by simp [hc])).trans ?_)
  simp only [commitStep, hc, hr]
  rfl

end

/-! ### The released blocks are pushed (R199) -/

theorem queuesQuiet_congr {t : State} (h : t.pairs = s.pairs) (c : Nat) : queuesQuiet t c = queuesQuiet s c := by
  simp only [queuesQuiet, getPair, h]

section
variable {b : Word} {level : Nat} {v : Vec} {more : List (Word × Nat × Vec)} (he : e = .tdone b ∨ e = .tarmRelease b)
  (hc : (getSlot s c i).commit = .push ((b, level, v) :: more)) (hq : queuesQuiet s c = true)
include he hc hq

theorem commitEntry_push : commitEntry s c i e = pushRelease s c i (getSlot s c i).launch b level v more := by
  have hstep (w : Bool) : commitStep s c i w = pushRelease s c i (getSlot s c i).launch b level v more := by
    simp only [commitStep, hc, hq, if_true]
  have hidle : (getSlot s c i).commit ≠ .idle := by simp [hc]
  obtain rfl | rfl := he
  · exact (commitEntry_tdone hidle).trans (hstep true)
  · exact (commitEntry_tarmRelease hidle).trans (hstep false)

variable (h : CommitDue s c i l) (hs : (getSlot s c i).sends = e :: rest)
include h hs

theorem release_closed (hd : dieOf c ∈ l.closed) :
    exec (.evCommit c i) s = .next (trapFrom 2 s c i 0x0E b (getSlot s c i).pc) := by
  refine h.faults hs ((commitEntry_push he hc hq).trans ?_)
  rw [pushRelease, if_pos ((dieClosed_iff h.launch _).mpr hd)]

/-- A released block with a place in the core's own queue is pushed as its task (R199). -/
theorem release_own (hd : dieOf c ∉ l.closed) (hlevel : level = 0) (hroom : coreTasks (getCore s c) < 64) :
    Does (.evCommit c i) s fun t =>
      (getResident t c (getSlot s c i).launch).tasks = (getResident s c (getSlot s c i).launch).tasks
        ++ [⟨v :: List.replicate (l.words - 1) 0, c, (getCore s c).arrival, 0, (getCore s c).cycle, false⟩]
      ∧ getSlot t c i = if more = [] then (getSlot s c i).committed rest else { getSlot s c i with commit := .push more } := by
  obtain ⟨u, hu, henter⟩ := enterCore_room (getSlot s c i).launch (releaseTask s c (getSlot s c i).launch v) hroom
  have hslot : modSlot u c i (fun sl => { sl with commit := .push more })
      = setSlot u c i { getSlot s c i with commit := .push more } := by rw [modSlot, henter.slots]
  have hquiet (x : Slot) : queuesQuiet (setSlot u c i x) c = true := by
    rw [queuesQuiet_congr (s := s) (show (setSlot u c i x).pairs = s.pairs from henter.pairs), hq]
  have hentry : commitEntry s c i e = if more = [] then .done (setSlot u c i { getSlot s c i with commit := .push more })
      else .step (setSlot u c i { getSlot s c i with commit := .push more }) := by
    rw [commitEntry_push he hc hq, pushRelease, if_neg fun hd' => hd ((dieClosed_iff h.launch _).mp hd'), pushTask, if_pos hlevel, hu]
    simp only [hslot, hquiet, Bool.and_true, List.isEmpty_iff]
  have htasks (x : Slot) : (getResident (setSlot u c i x) c (getSlot s c i).launch).tasks
      = (getResident s c (getSlot s c i).launch).tasks
        ++ [⟨v :: List.replicate (l.words - 1) 0, c, (getCore s c).arrival, 0, (getCore s c).cycle, false⟩] := by
    rw [getResident_setSlot, henter.tasks, releaseTask, h.launch]
    rfl
  by_cases hmore : more = []
  · rw [if_pos hmore] at hentry ⊢
    have hnext : nextEntry (setSlot u c i { getSlot s c i with commit := .push more }) c i
        = setSlot u c i ((getSlot s c i).committed rest) := by
      rw [nextEntry, modSlot, getSlot_setSlot_self, setSlot_setSlot, hs]
      rfl
    exact ⟨_, (h.next_entry hs hentry).trans (by rw [hnext]), htasks _, getSlot_setSlot_self ..⟩
  · rw [if_neg hmore] at hentry ⊢
    exact ⟨_, h.steps hs hentry, htasks _, getSlot_setSlot_self ..⟩

end

end Sys2Proof.Machine
end

section
/-! SUPPORT. The task control block that the commit of a TDONE or of a TARM with count 0 writes in the core's own slice (08 R197, R198):
memory read after it is written, the fields of a block, and the access that performs at once (R241). -/
namespace Sys2Proof.Machine

/-! ### Memory read after it is written -/

/-- Bytes read where the same bytes were written under a full mask. -/
theorem memRead_memWrite_full (n : Nat) : ∀ {m : List Host.Cell} (a v : Nat), Memory.wf m = true →
    memRead (memWrite m a v (2 ^ n - 1) n) a n = v % 256 ^ n := by
  induction n with
  | zero => intros; simp [memRead, Nat.mod_one]
  | succ n ih =>
    intro m a v hw
    have hpos := Nat.two_pow_pos n
    have hodd : (2 ^ (n + 1) - 1) % 2 = 1 := by omega
    have hhalf : (2 ^ (n + 1) - 1) / 2 = 2 ^ n - 1 := by omega
    have hset := wf_memSet a (BitVec.ofNat 8 v) hw
    have hlow : memByte (memWrite (memSet m a (BitVec.ofNat 8 v)) (a + 1) (v / 256) (2 ^ n - 1) n) a = BitVec.ofNat 8 v := by
      rw [memByte_memWrite_ne n _ _ _ _ hset (by omega), memByte_memSet hw, if_pos rfl]
    rw [memRead, memWrite, if_pos hodd, hhalf, hlow, ih _ _ hset, BitVec.toNat_ofNat, 
      show 256 ^ (n + 1) = 256 * 256 ^ n from Nat.pow_succ', Nat.mod_mul]

theorem byteMask_all : (byteMask 64).toNat = 2 ^ 64 - 1 := by decide

/-! ### The fields of a block (R197) -/

theorem tcbCount_lt (b : Vec) : tcbCount b < 2 ^ 32 := Nat.mod_lt _ (by decide)

theorem tcbState_eq (b : Vec) : tcbState b = (b.extractLsb' 40 8).toNat := by
  simp [tcbState, BitVec.extractLsb'_toNat, Nat.shiftRight_eq_div_pow]

theorem tcbCount_eq (b : Vec) : tcbCount b = (b.extractLsb' 0 32).toNat := by
  simp [tcbCount, BitVec.extractLsb'_toNat]

theorem toNat_ofNat_of_lt {n : Nat} (h : n < 2 ^ 48) : (BitVec.ofNat 512 n : Vec).toNat = n := by
  rw [BitVec.toNat_ofNat, Nat.mod_eq_of_lt (h.trans (Nat.pow_lt_pow_right (by decide) (by decide)))]

/-- A field under the mask of a block's STATE and COUNT is what it is set to. -/
theorem extractLsb'_tcbSet (b : Vec) {state count lo n : Nat} (hs : state < 2 ^ 8) (hc : count < 2 ^ 32) (hn : lo + n < 512)
    (hmask : (0xFF * 2 ^ 40 + 0xFFFFFFFF) / 2 ^ lo % 2 ^ n = 2 ^ n - 1) :
    ((tcbSet b state count).extractLsb' lo n).toNat = (state * 2 ^ 40 + count) / 2 ^ lo % 2 ^ n := by
  have hones : (BitVec.ofNat 512 (0xFF * 2 ^ 40 + 0xFFFFFFFF)).extractLsb' lo n = BitVec.allOnes n := by
    apply BitVec.eq_of_toNat_eq
    rw [BitVec.extractLsb'_toNat, toNat_ofNat_of_lt (by decide), Nat.shiftRight_eq_div_pow, hmask, BitVec.toNat_allOnes]
  rw [tcbSet, BitVec.extractLsb'_or, BitVec.extractLsb'_and, BitVec.extractLsb'_not_of_lt hn, hones, BitVec.not_allOnes,
    BitVec.and_zero, BitVec.zero_or, BitVec.extractLsb'_toNat, toNat_ofNat_of_lt (by omega), Nat.shiftRight_eq_div_pow]

theorem tcbState_tcbSet (b : Vec) {state count : Nat} (hs : state < 2 ^ 8) (hc : count < 2 ^ 32) :
    tcbState (tcbSet b state count) = state := by
  rw [tcbState_eq, extractLsb'_tcbSet b hs hc (by decide) (by decide)]
  omega

theorem tcbCount_tcbSet (b : Vec) {state count : Nat} (hs : state < 2 ^ 8) (hc : count < 2 ^ 32) :
    tcbCount (tcbSet b state count) = count := by
  rw [tcbCount_eq, extractLsb'_tcbSet b hs hc (by decide) (by decide)]
  omega

/-! ### A block of the core's own slice (R258, R273) -/

/-- What a core is the home of is no DRAM. -/
theorem isDram_of_homeOf_core {pa c : Nat} (h : homeOf pa = coreNode c) : isDram pa = false := by
  cases hs : isSram pa with
  | true =>
    simp only [isSram, decide_eq_true_eq] at hs
    simp only [isDram, isGddr, isLpddr, Bool.or_eq_false_iff, Bool.and_eq_false_iff, decide_eq_false_iff_not]
    omega
  | false =>
    cases hg : isGddr pa with
    | true =>
      simp only [homeOf, hs, hg, coreNode, if_true, Bool.false_eq_true, if_false] at h
      omega
    | false =>
      simp only [homeOf, hs, hg, coreNode, Bool.false_eq_true, if_false] at h
      omega

theorem blockThrough_sram {s : State} {pa key : Nat} (h : isDram pa = false) :
    blockThrough s pa key = BitVec.ofNat 512 (memRead s.mem (pa / 64 * 64) 64) := by
  simp only [blockThrough, h, Bool.false_and, Bool.false_eq_true, if_false]

theorem writeThrough_sram_mem {s : State} {pa key : Nat} (h : isDram pa = false) (v : Vec) (mask : BitVec 64) :
    (writeThrough s pa key v mask).mem = memWrite s.mem pa v.toNat mask.toNat 64 := by
  simp only [writeThrough, h, Bool.false_and, Bool.false_eq_true, if_false]

/-- A whole block of SRAM reads as it was written. -/
theorem blockRead_writeThrough {s : State} {pa key : Nat} (hs : s.inv) (h : isDram pa = false) (ha : pa % 64 = 0) (v : Vec) :
    BitVec.ofNat 512 (memRead (writeThrough s pa key v (byteMask 64)).mem (pa / 64 * 64) 64) = v := by
  rw [writeThrough_sram_mem h, byteMask_all, Nat.div_mul_cancel (Nat.dvd_of_mod_eq_zero ha), memRead_memWrite_full 64 _ _ hs,
    Nat.mod_eq_of_lt (lt_of_lt_of_eq v.isLt (Nat.pow_mul 2 8 64)), BitVec.ofNat_toNat, BitVec.setWidth_eq]

/-! ### An access of a commit in the core's own slice (R174, R241) -/

theorem returnToken_only (s : State) (q : Option Seqr) : returnToken s q = { s with tokens := (returnToken s q).tokens } := by
  cases q <;> rfl

/-- The state in which an access of a commit performs: its step is noted, and a token it would hold is back. -/
def commitIssued (s : State) (c : Nat) (i : Fin 4) (st : CommitStep) : State :=
  returnToken (setSlot s c i { getSlot s c i with commit := st, result := none, token := none }) (getSlot s c i).token

variable {s w : State} {c : Nat} {i : Fin 4} {st : CommitStep} {pa key : Nat} {b : Word} {op : MemOp}

theorem getSlot_commitIssued : getSlot (commitIssued s c i st) c i
    = { getSlot s c i with commit := st, result := none, token := none } := by
  rw [commitIssued, returnToken_only]
  exact getSlot_setSlot_self ..

theorem commitIssued_mem : (commitIssued s c i st).mem = s.mem := by
  rw [commitIssued, returnToken_only]
  rfl

theorem isPoisoned_commitIssued : isPoisoned (commitIssued s c i st) pa = isPoisoned s pa := by
  rw [commitIssued, returnToken_only]
  rfl

/-- In the core's own slice the access performs at once, and its answer is in the slot. -/
theorem commitAccess_own {r : MemRes} (hh : homeOf pa = coreNode c) (hperf : performMem (commitIssued s c i st) op key = (w, r))
    (hr : r.poison = false) : commitAccess s c i pa key b op st
      = setSlot w c i { (getSlot w c i).claim (AccDst.commit b).claims with result := some (r.code, r.value, r.desc) } := by
  rw [commitIssued] at hperf
  simp only [commitAccess, leaveIssue, modSlot, hh, if_true, getSlot_setSlot_self, setSlot_setSlot, performAt, hperf, hr, completeDst,
    Bool.false_eq_true, if_false]

/-- An operation that replaces a block that is fit, and answers code 1 where it is not. -/
structure ReplacesBlock (s : State) (op : MemOp) (pa key : Nat) (fit : Vec → Prop) (new : Vec → Vec) : Prop where
  fits   : fit (blockThrough s pa key) → performMem s op key
    = (writeThrough s pa key (new (blockThrough s pa key)) (byteMask 64), okRes (new (blockThrough s pa key)))
  unfits : ¬fit (blockThrough s pa key) → performMem s op key = (s, ⟨blockThrough s pa key, 0, 1, false⟩)

/-- TDONE's block is running, and is done (R198). -/
theorem replaces_tdoneSet (hp : isPoisoned s pa = false) :
    ReplacesBlock s (.tdoneSet pa) pa key (fun v => tcbState v = 2) fun v => tcbSet v 3 (tcbCount v) := by
  constructor
  · intro hfit
    simp only [performMem, hp, hfit, Bool.false_eq_true, if_true, if_false]
  · intro hfit
    simp only [performMem, hp, hfit, Bool.false_eq_true, if_false]

/-- TARM's block is armed with no predecessor left, and is released (R197). -/
theorem replaces_tarmRelease (hp : isPoisoned s pa = false) :
    ReplacesBlock s (.tarmRelease pa) pa key (fun v => tcbState v = 1 ∧ tcbCount v = 0) fun v => tcbSet v 2 0 := by
  constructor
  · intro hfit
    simp only [performMem, hp, hfit, decide_true, Bool.and_self, Bool.false_eq_true, if_true, if_false]
  · intro hfit
    simp only [performMem, hp, Bool.and_eq_true, decide_eq_true_eq, hfit, Bool.false_eq_true, if_false]

/-- The commit's first access: the slot has its step and answer, and the block is replaced where it was fit. -/
theorem commitAccess_replaces {fit : Vec → Prop} {new : Vec → Vec} (hh : homeOf pa = coreNode c)
    (hop : ReplacesBlock (commitIssued s c i st) op pa key fit new) :
    let t := commitAccess s c i pa key b op st
    let old : Vec := BitVec.ofNat 512 (memRead s.mem (pa / 64 * 64) 64)
    (getSlot t c i).commit = st ∧ (getSlot t c i).sends = (getSlot s c i).sends
    ∧ ∃ r, (getSlot t c i).result = some r
    ∧ (fit old → r.1 = 0 ∧ r.2.1 = new old
      ∧ (s.inv → pa % 64 = 0 → BitVec.ofNat 512 (memRead t.mem (pa / 64 * 64) 64) = new old))
    ∧ (¬fit old → r.1 = 1 ∧ t.mem = s.mem) := by
  intro t old
  have hsram := isDram_of_homeOf_core hh
  have hold : blockThrough (commitIssued s c i st) pa key = old := by rw [blockThrough_sram hsram, commitIssued_mem]
  obtain ⟨hfits, hunfits⟩ := hop
  rw [hold] at hfits hunfits
  by_cases hfit : fit old
  · have ht := commitAccess_own (b := b) hh (hfits hfit) rfl
    have hslot : getSlot (writeThrough (commitIssued s c i st) pa key (new old) (byteMask 64)) c i
        = getSlot (commitIssued s c i st) c i := by
      rw [writeThrough_only]
      rfl
    refine ⟨?_, ?_, (0, new old, 0), ?_, fun _ => ⟨rfl, rfl, fun hinv ha => ?_⟩, fun hn => absurd hfit hn⟩
    · simp only [t, ht, getSlot_setSlot_self, Slot.claim_commit, hslot, getSlot_commitIssued]
    · simp only [t, ht, getSlot_setSlot_self, Slot.claim_sends, hslot, getSlot_commitIssued]
    · simp only [t, ht, getSlot_setSlot_self, okRes]
    · simp only [t, ht, setSlot_mem]
      exact blockRead_writeThrough (show Memory.wf _ = true by rwa [commitIssued_mem]) hsram ha _
  · have ht := commitAccess_own (b := b) hh (hunfits hfit) rfl
    refine ⟨?_, ?_, (1, old, 0), ?_, fun hf => absurd hf hfit, fun _ => ⟨rfl, ?_⟩⟩
    · simp only [t, ht, getSlot_setSlot_self, Slot.claim_commit, getSlot_commitIssued]
    · simp only [t, ht, getSlot_setSlot_self, Slot.claim_sends, getSlot_commitIssued]
    · simp only [t, ht, getSlot_setSlot_self]
    · simp only [t, ht, setSlot_mem, commitIssued_mem]

/-! ### The first step of a TDONE and of a TARM with count 0 -/

section
variable {l : Launch} {rest : List SendEntry} (h : CommitDue s c i l) (hc : (getSlot s c i).commit = .idle)
  (htr : translate s (clusterOf c) (getSlot s c i).ctx b .write = .ok pa key)
include h hc htr

theorem tdone_starts (hs : (getSlot s c i).sends = .tdone b :: rest) :
    exec (.evCommit c i) s = .next (commitAccess s c i pa key b (.tdoneSet pa) (.block b)) :=
  h.steps hs (by simp only [commitEntry, hc, withCommitPa, htr])

theorem tarm_starts (hs : (getSlot s c i).sends = .tarmRelease b :: rest) :
    exec (.evCommit c i) s = .next (commitAccess s c i pa key b (.tarmRelease pa) (.block b)) :=
  h.steps hs (by simp only [commitEntry, hc, withCommitPa, htr])

end

end Sys2Proof.Machine
end

section
/-! SUPPORT. The end of an activation: its slot is free, and with ACTEND its actor ends (05 R122, 08 R194). -/
namespace Sys2Proof.Machine

/-! ### Queues of pairs -/

theorem pairKey_eq_iff {a b d : Nat} : pairKey a d = pairKey a b ↔ d = b := by
  simp only [pairKey]
  omega

theorem coreNode_eq_iff {c d : Nat} : coreNode d = coreNode c ↔ d = c := by
  simp only [coreNode]
  omega

theorem getPair_key (s : State) (a b : Nat) : (getPair s a b).key = pairKey a b := by
  unfold getPair
  cases h : findBy Pair.key (pairKey a b) s.pairs with
  | none => rfl
  | some p => exact findBy_key h

theorem getPair_congr {s t : State} (h : t.pairs = s.pairs) (a b : Nat) : getPair t a b = getPair s a b := by
  simp only [getPair, h]

theorem getPair_setPair_self (s : State) {p : Pair} {a b : Nat} (h : p.key = pairKey a b) : getPair (setPair s p) a b = p := by
  have hput := findBy_putBy_self Pair.key p s.pairs
  rw [h] at hput
  exact congrArg (Option.getD · (Pair.reset a b)) hput

theorem getPair_setPair_ne (s : State) {p : Pair} {a b : Nat} (h : pairKey a b ≠ p.key) :
    getPair (setPair s p) a b = getPair s a b :=
  congrArg (Option.getD · (Pair.reset a b)) (findBy_putBy_ne Pair.key p s.pairs h)

theorem getPair_enqueue_self (s : State) (a b : Nat) (k : Packet) :
    getPair (enqueue s a b k) a b = { getPair s a b with out := (getPair s a b).out ++ [k] } :=
  getPair_setPair_self s (getPair_key s a b)

theorem getPair_enqueue_ne (s : State) (a : Nat) {b d : Nat} (k : Packet) (h : d ≠ b) :
    getPair (enqueue s a b k) a d = getPair s a d :=
  getPair_setPair_ne s fun heq => h (pairKey_eq_iff.mp (heq.trans (getPair_key s a b)))

/-! ### The groups of an actor that ends (R194) -/

section
variable (c l name asid : Nat)

theorem keeps_leaveGroups (gs : List Nat) : ∀ s, KeepsSlots s (leaveGroups s c l name asid gs) := by
  induction gs with
  | nil => exact KeepsSlots.refl
  | cons h gs ih =>
    intro s
    rw [leaveGroups]
    by_cases hc : h = c
    · rw [if_pos hc]
      exact (keeps_performGroup_ended s l _ name).trans (ih _)
    · rw [if_neg hc]
      exact (keeps_enqueue s _ _ _).toKeepsSlots.trans (ih _)

/-- The packet by which an actor leaves a group with another home. -/
def leavePacket (h : Nat) : Packet := newPacket 0 0 asid (.grp l (BitVec.ofNat 64 h) (.ended name) none)

theorem leaveGroups_away {h : Nat} (hh : h ≠ c) (gs : List Nat) (s : State) : leaveGroups s c l name asid (h :: gs)
    = leaveGroups (enqueue s (coreNode c) (coreNode h) (leavePacket l name asid h)) c l name asid gs := by
  rw [leaveGroups, if_neg hh]
  rfl

variable {c}

/-- Leaving groups of other homes writes no launch. -/
theorem leaveGroups_launches (gs : List Nat) (hc : c ∉ gs) : ∀ s, (leaveGroups s c l name asid gs).launches = s.launches := by
  induction gs with
  | nil => exact fun _ => rfl
  | cons h gs ih =>
    intro s
    rw [leaveGroups_away c l name asid (List.ne_of_not_mem_cons hc).symm, ih (List.not_mem_of_not_mem_cons hc)]
    rfl

/-- A home that is not left gets no packet. -/
theorem getPair_leaveGroups_ne {d : Nat} (gs : List Nat) (hc : c ∉ gs) (hd : d ∉ gs) :
    ∀ s, getPair (leaveGroups s c l name asid gs) (coreNode c) (coreNode d) = getPair s (coreNode c) (coreNode d) := by
  induction gs with
  | nil => exact fun _ => rfl
  | cons h gs ih =>
    intro s
    rw [leaveGroups_away c l name asid (List.ne_of_not_mem_cons hc).symm,
      ih (List.not_mem_of_not_mem_cons hc) (List.not_mem_of_not_mem_cons hd), getPair_enqueue_ne]
    exact fun heq => List.ne_of_not_mem_cons hd (coreNode_eq_iff.mp heq)

/-- Each home that is left gets the actor's leave, behind what the queue of its pair holds. -/
theorem out_leaveGroups (gs : List Nat) (hc : c ∉ gs) (hn : gs.Nodup) : ∀ s, ∀ h ∈ gs,
    (getPair (leaveGroups s c l name asid gs) (coreNode c) (coreNode h)).out
      = (getPair s (coreNode c) (coreNode h)).out ++ [leavePacket l name asid h] := by
  induction gs with
  | nil => simp
  | cons g gs ih =>
    intro s h hh
    have hc' := List.not_mem_of_not_mem_cons hc
    obtain ⟨hg, hn'⟩ := List.nodup_cons.mp hn
    rw [leaveGroups_away c l name asid (List.ne_of_not_mem_cons hc).symm]
    obtain rfl | hmem := List.mem_cons.mp hh
    · rw [getPair_leaveGroups_ne l name asid gs hc' hg, getPair_enqueue_self]
    · rw [ih hc' hn' _ h hmem, getPair_enqueue_ne]
      exact fun heq => hg (coreNode_eq_iff.mp heq ▸ hmem)

end

/-- The group operand that names a core's own group. -/
theorem groupHome_ofNat {c : Nat} (h : c < 2 ^ 24) : groupHome (BitVec.ofNat 64 c) = c := by
  simp only [groupHome, groupModule, groupId, BitVec.toNat_ofNat]
  omega

theorem getGroup_setSlot (s : State) (c : Nat) (i : Fin 4) (v : Slot) (l : Nat) : getGroup (setSlot s c i v) c l = getGroup s c l := by
  simp only [getGroup, getCore_setSlot_self]

/-! ### The actor that ends (R194) -/

/-- An actor that has ended: it is at no place and owns no row and no channel. -/
def Actor.atEnd (a : Actor) : Actor := { a with place := .ended, zrows := 0, chans := [], box := [] }

/-- The messages that an actor drops as it ends. -/
def Actor.undelivered (a : Actor) : Nat := (a.chans.map fun ch => ch.queue.length).sum + a.box.length

theorem atEnd_owns (a : Actor) (r : Nat) : a.atEnd.owns r = false := by
  rw [Actor.owns, ← Bool.not_eq_true, Bool.and_eq_true, decide_eq_true_eq, decide_eq_true_eq]
  exact fun ⟨hlow, hhigh⟩ => absurd hhigh (not_lt.mpr hlow)

variable {s : State} {c l name asid : Nat} {a : Actor}

theorem endActor_eq (ha : getActor s l name = some a) : endActor s c l name asid
    = modActor (countDropped (leaveGroups s c l name asid a.groups) l a.undelivered) l name Actor.atEnd := by
  simp only [endActor, ha]
  rfl

theorem keepsGroups_after_leave (u : State) (l name n : Nat) (f : Actor → Actor) :
    KeepsGroups u (modActor (countDropped u l n) l name f) := (keeps_countDropped u l n).trans (keeps_modActor _ l name f)

theorem keeps_endActor (ha : getActor s l name = some a) : KeepsSlots s (endActor s c l name asid) := by
  rw [endActor_eq ha]
  exact (keeps_leaveGroups c l name asid a.groups s).trans (keepsGroups_after_leave _ l name _ _).toKeepsSlots

theorem getActor_endActor (ha : getActor s l name = some a) : ∃ b : Actor, getActor (endActor s c l name asid) l name = some b.atEnd := by
  have hkeeps := (keeps_leaveGroups c l name asid a.groups s).trans (keeps_countDropped _ l a.undelivered).toKeepsSlots
  obtain ⟨b, hb⟩ := Option.isSome_iff_exists.mp (hkeeps.actors l name (by rw [ha]; rfl))
  refine ⟨b, ?_⟩
  rw [endActor_eq ha]
  have hname : b.name = name := getActor_name hb
  exact getActor_modActor_self hb hname

theorem getLaunch_modActor {x : Launch} (hl : getLaunch s l = some x) (f : Actor → Actor) :
    ∃ as, getLaunch (modActor s l name f) l = some { x with actors := as } := by
  unfold modActor
  split
  · exact ⟨_, getLaunch_modLaunch_self (f := fun x => x.setActor _) hl rfl⟩
  · exact ⟨x.actors, hl⟩

theorem modActor_pairs (s : State) (l name : Nat) (f : Actor → Actor) : (modActor s l name f).pairs = s.pairs := by
  unfold modActor
  split
  · rw [setActor, modLaunch_only]
  · rfl

theorem countDropped_pairs (s : State) (l n : Nat) : (countDropped s l n).pairs = s.pairs := by rw [countDropped, modLaunch_only]

/-- What an actor drops counts for its launch, where every group it leaves has another home. -/
theorem dropped_endActor {x : Launch} (ha : getActor s l name = some a) (hl : getLaunch s l = some x) (hc : c ∉ a.groups) :
    ∃ x', getLaunch (endActor s c l name asid) l = some x' ∧ x'.dropped = min (x.dropped + a.undelivered) (2 ^ 32 - 1) := by
  have hleft : getLaunch (leaveGroups s c l name asid a.groups) l = some x := by
    rwa [getLaunch, leaveGroups_launches l name asid a.groups hc]
  have hcount := getLaunch_modLaunch_self (f := fun x => { x with dropped := min (x.dropped + a.undelivered) (2 ^ 32 - 1) }) hleft rfl
  obtain ⟨as, has⟩ := getLaunch_modActor (name := name) hcount Actor.atEnd
  rw [endActor_eq ha]
  exact ⟨_, has, rfl⟩

theorem out_endActor (ha : getActor s l name = some a) (hc : c ∉ a.groups) (hn : a.groups.Nodup) {h : Nat} (hh : h ∈ a.groups) :
    (getPair (endActor s c l name asid) (coreNode c) (coreNode h)).out
      = (getPair s (coreNode c) (coreNode h)).out ++ [leavePacket l name asid h] := by
  rw [endActor_eq ha, getPair_congr ((modActor_pairs ..).trans (countDropped_pairs ..))]
  exact out_leaveGroups l name asid a.groups hc hn s h hh

/-- An actor that ends is no member of the group of its own core. -/
theorem not_mem_endActor (ha : getActor s l name = some a) (hg : a.groups = [c]) (hc : c < 2 ^ 24) {g : GroupRec}
    (hget : getGroup (endActor s c l name asid) c l = some g) : name ∉ g.members := by
  have hleave : leaveGroups s c l name asid [c] = removeMember s c l name true := by
    simp only [leaveGroups, if_true, performGroup, groupHome_ofNat hc]
  rw [endActor_eq ha, (keepsGroups_after_leave _ l name _ _).groups, hg, hleave] at hget
  exact not_mem_removeMember hget

/-! ### The slot that ends -/

variable {i : Fin 4} {x : Launch}

theorem finishSlot_plain (ha : (getSlot s c i).actend = false) (ho : (getSlot s c i).oneStep = false) :
    finishSlot s c i = setSlot s c i Slot.reset := by
  simp only [finishSlot, ha, ho, Bool.false_eq_true, if_false]

theorem finishSlot_actend (ha : (getSlot s c i).actend = true) (ho : (getSlot s c i).oneStep = false) : finishSlot s c i
    = setSlot (endActor s c (getSlot s c i).launch (getSlot s c i).actor (getSlot s c i).ctx) c i Slot.reset := by
  simp only [finishSlot, ha, ho, Bool.false_eq_true, if_true, if_false]

end Sys2Proof.Machine
end

section
/-! PROOF. O44, from the entries and their steps. -/
namespace Sys2Proof.Machine

variable {s : State} {c : Nat} {i : Fin 4} {l : Launch}

/-- An activation with ACTEND ends its actor (R194). -/
theorem activation_ends (h : CommitDue s c i l) (hs : (getSlot s c i).sends = []) (hend : (getSlot s c i).actend = true)
    (ho : (getSlot s c i).oneStep = false) {a : Actor} (ha : getActor s (getSlot s c i).launch (getSlot s c i).actor = some a) :
    Does (.evCommit c i) s fun t =>
      getSlot t c i = Slot.reset ∧ OtherSlots s t c i ∧ t.mem = s.mem
      ∧ (∃ b, getActor t (getSlot s c i).launch (getSlot s c i).actor = some b ∧ b.place = .ended ∧ (∀ r, b.owns r = false)
        ∧ b.chans = [] ∧ b.box = [])
      ∧ (c ∉ a.groups → a.groups.Nodup →
        (∃ l', getLaunch t (getSlot s c i).launch = some l' ∧ l'.dropped = min (l.dropped + a.undelivered) (2 ^ 32 - 1))
        ∧ ∀ g ∈ a.groups, (getPair t (coreNode c) (coreNode g)).out = (getPair s (coreNode c) (coreNode g)).out
          ++ [leavePacket (getSlot s c i).launch (getSlot s c i).actor (getSlot s c i).ctx g])
      ∧ (a.groups = [c] → c < 2 ^ 24 → ∀ g, getGroup t c (getSlot s c i).launch = some g → (getSlot s c i).actor ∉ g.members) := by
  have hkeeps := keeps_endActor (c := c) (asid := (getSlot s c i).ctx) ha
  obtain ⟨b, hb⟩ := getActor_endActor (c := c) (asid := (getSlot s c i).ctx) ha
  refine ⟨_, (h.finishes hs).trans (by rw [finishSlot_actend hend ho]), getSlot_setSlot_self .., otherSlots_setSlot hkeeps.slots c i _,
    hkeeps.mem, ⟨b.atEnd, hb, rfl, atEnd_owns b, rfl, rfl⟩, fun hc hn => ⟨dropped_endActor ha h.launch hc, fun g hg => ?_⟩,
    fun hg hc g hget => ?_⟩
  · exact out_endActor ha hc hn hg
  · rw [getGroup_setSlot] at hget
    exact not_mem_endActor ha hg hc hget

/-- The first step of a TDONE and of a TARM with count 0 in the core's own slice. -/
theorem block_written (h : CommitDue s c i l) {b : Word} {rest : List SendEntry} {pa key : Nat}
    (hs : (getSlot s c i).sends = .tdone b :: rest ∨ (getSlot s c i).sends = .tarmRelease b :: rest)
    (hc : (getSlot s c i).commit = .idle) (htr : translate s (clusterOf c) (getSlot s c i).ctx b .write = .ok pa key)
    (hh : homeOf pa = coreNode c) (hp : isPoisoned s pa = false) :
    Does (.evCommit c i) s fun t => (getSlot t c i).commit = .block b ∧ (getSlot t c i).sends = (getSlot s c i).sends
      ∧ ∃ r, (getSlot t c i).result = some r
      ∧ let old : Vec := BitVec.ofNat 512 (memRead s.mem (pa / 64 * 64) 64)
        let new : Vec := BitVec.ofNat 512 (memRead t.mem (pa / 64 * 64) 64)
        let ok : Prop := if (getSlot s c i).sends = .tdone b :: rest then tcbState old = 2 else tcbState old = 1 ∧ tcbCount old = 0
        (ok → r.1 = 0 ∧ (s.inv → pa % 64 = 0 → r.2.1 = new ∧ tcbCount new = tcbCount old
          ∧ tcbState new = if (getSlot s c i).sends = .tdone b :: rest then 3 else 2))
        ∧ (¬ok → r.1 = 1 ∧ t.mem = s.mem) := by
  obtain hs | hs := hs
  · obtain ⟨hcommit, hsends, r, hr, hfit, hunfit⟩ := commitAccess_replaces (b := b) hh
      (replaces_tdoneSet (key := key) (isPoisoned_commitIssued.trans hp : isPoisoned (commitIssued s c i (.block b)) pa = false))
    refine ⟨_, tdone_starts h hc htr hs, hcommit, hsends, r, hr, ?_⟩
    simp only [hs, if_true]
    refine ⟨fun hok => ?_, hunfit⟩
    obtain ⟨hcode, hval, hmem⟩ := hfit hok
    refine ⟨hcode, fun hinv hpa => ?_⟩
    rw [hmem hinv hpa]
    exact ⟨hval, tcbCount_tcbSet _ (by decide) (tcbCount_lt _), tcbState_tcbSet _ (by decide) (tcbCount_lt _)⟩
  · obtain ⟨hcommit, hsends, r, hr, hfit, hunfit⟩ := commitAccess_replaces (b := b) hh
      (replaces_tarmRelease (key := key) (isPoisoned_commitIssued.trans hp : isPoisoned (commitIssued s c i (.block b)) pa = false))
    refine ⟨_, tarm_starts h hc htr hs, hcommit, hsends, r, hr, ?_⟩
    have hne : ¬(SendEntry.tarmRelease b :: rest = .tdone b :: rest) := by simp
    simp only [hs, if_neg hne]
    refine ⟨fun hok => ?_, hunfit⟩
    obtain ⟨hcode, hval, hmem⟩ := hfit hok
    refine ⟨hcode, fun hinv hpa => ?_⟩
    rw [hmem hinv hpa]
    exact ⟨hval, (tcbCount_tcbSet _ (by decide) (by decide)).trans hok.2.symm, tcbState_tcbSet _ (by decide) (by decide)⟩

/-- Settles O44: what each entry of the send buffer comes to, and what its event then leaves. -/
theorem commitsInOrder : Obligations.CommitsInOrder := by
  intro s c i l x hclk hst hl hph here next Commits Enqueues Stays Faults astray Goes
  refine ⟨commit_notPermitted, fun haccs hmats => ?_⟩
  have h : CommitDue s c i l := ⟨hclk, hst, hl, hph, haccs, hmats⟩
  refine ⟨fun hs ha ho => (h.finishes hs).trans (by rw [finishSlot_plain ha ho]), fun hs hend ho a ha => activation_ends h hs hend ho ha,
    fun n rest hs => h.commits hs rfl rfl, ?send, ?red, ?gsend, ?coll, fun op o d hroom rest hs => egr_leaves h hs hroom,
    fun o d hfull rest hs => egr_waits h hs hfull, fun o level words rest hs => qpush_close h hs,
    fun o level words hc rest hs => qpush_closed h hs hc,
    fun o level words hc hlevel hroom rest hs => qpush_away h hs hc hlevel hroom,
    fun o words rest hc hs hroom => qpush_own h hs hc hroom,
    fun b rest pa key hs hc htr hh hp => block_written h hs hc htr hh hp, ?written, ?unfit, ?succs, ?misaligned, ?succ, ?push⟩
  case send =>
    intro name ch cls words m e u
    refine ⟨fun node ha hn rest hs => send_away h hs ha hn, fun ha => ⟨fun hw rest hs => send_postWaits h hs ha hw, fun hw =>
      ⟨fun t hp => ⟨fun hstray rest hs => ?_, fun hstray rest hs => ?_⟩, fun r hp rest hs => send_defers h hs ha hw hp,
        fun n hp hstray rest hs => ?_, fun n hp hstray rest hs => ?_⟩⟩⟩
    · exact (send_performs h hs ha hw hp).trans (if_pos ((strays_iff ..).mpr hstray))
    · exact (send_performs h hs ha hw hp).trans (if_neg fun hstr => hstray ((strays_iff ..).mp hstr))
    · exact (send_forwards h hs ha hw hp).trans (if_pos ((strays_iff ..).mpr hstray))
    · exact (send_forwards h hs ha hw hp).trans (if_neg fun hstr => hstray ((strays_iff ..).mp hstr))
  case red => exact fun va pa key cls w0 w1 => ⟨fun hp rest hs => red_away h hs hp, fun hp rest hs => red_own h hs hp⟩
  case gsend => exact fun o cls words => ⟨fun ho rest hs => gsend_away h hs ho, fun ho rest hs => gsend_own h hs ho⟩
  case coll =>
    exact fun kind o p => ⟨fun ho rest hs => coll_away h hs ho, fun ho => ⟨fun hr rest hs => coll_own h hs ho hr,
      fun hr rest hs => coll_reported h hs ho hr⟩⟩
  case written =>
    exact fun b b' d v hc hr => ⟨fun rest hs => tdone_written h hs hc hr, fun rest hs => tarm_written h hs hc hr⟩
  case unfit =>
    exact fun b b' v d code hc hr hcode => ⟨fun rest hs => block_faults h hs (.inl rfl) hc hr hcode,
      fun rest hs => block_faults h hs (.inr rfl) hc hr hcode⟩
  case succs =>
    intro list k n rel b' hc hr hk
    refine ⟨fun hrel rest hs => ?_, fun hrel rest hs => succs_read_some h hs hc hr hk hrel⟩
    subst hrel
    exact succs_read_none h hs hc hr hk
  case misaligned => exact fun list k n rel b' code v d hc hr hv rest hs => succ_misaligned h hs hc hr hv
  case succ =>
    intro list k n b rel b' code v d hc hr
    refine ⟨fun hcode rest hs => succ_faults h hs hc hr hcode, fun hcode rest hs => ?_⟩
    subst hcode
    exact succ_decremented h hs hc hr
  case push =>
    intro e b level v more rest he hs hc hq
    refine ⟨fun hd rest' hs' => release_closed he hc hq h hs' hd, fun hd hlevel hroom => release_own he hc hq h hs hd hlevel hroom⟩

end Sys2Proof.Machine
end

section
/-! SUPPORT. The lanes and flags of a vector instruction's result, and the signed value of a lane (01 R14, 06 R126 to R128). -/
namespace Sys2Proof

theorem Width.lanes_eq (w : Width) : 512 / w.bits = w.lanes := by cases w <;> rfl

theorem Width.bits_pos (w : Width) : 0 < w.bits := by cases w <;> decide

end Sys2Proof

namespace Sys2Proof.Machine

/-! ### Lanes -/

/-- A merged result has the lanes that its function gives, where these fit (R126). -/
theorem lanesAre_mergeLanes (w : Width) (mask : BitVec 64) (old : Vec) {f g : Nat → Nat}
    (h : ∀ j, j < w.lanes → maskBit mask j = true → f j % 2 ^ w.bits = g j) : LanesAre w mask old (mergeLanes w.bits mask old f) g := by
  intro j hj
  rw [lane_mergeLanes mask old f (by rwa [w.lanes_eq])]
  split
  · next hm => exact h j hj hm
  · rfl

theorem lanesAre_mergeLanes_of_lt (w : Width) (mask : BitVec 64) (old : Vec) {g : Nat → Nat} (h : ∀ j, g j < 2 ^ w.bits) :
    LanesAre w mask old (mergeLanes w.bits mask old g) g :=
  lanesAre_mergeLanes w mask old fun j _ _ => Nat.mod_eq_of_lt (h j)

/-- A lane is a value of its width. -/
theorem toNat_ofNat_lane (v : Vec) (n j : Nat) : (BitVec.ofNat n (lane v n j)).toNat = lane v n j := by
  rw [BitVec.toNat_ofNat, Nat.mod_eq_of_lt (lane_lt v n j)]

/-! ### Flags -/

/-- A bit of a value joined over a list is the bit of one of the joined. -/
theorem getLsbD_foldl_or {n : Nat} (p : Nat → Bool) (g : Nat → BitVec n) (k : Nat) (l : List Nat) : ∀ acc : BitVec n,
    (l.foldl (fun acc j => if p j then acc ||| g j else acc) acc).getLsbD k = (acc.getLsbD k || l.any fun j => p j && (g j).getLsbD k) := by
  induction l with
  | nil => simp
  | cons j l ih =>
    intro acc
    rw [List.foldl_cons, ih, List.any_cons]
    cases p j
    · rfl
    · simp [Bool.or_assoc]

/-- The flags of the active lanes together (R127). -/
theorem flagsAre_laneFlags (n : Nat) (mask : BitVec 64) (g : Nat → FFlags) : FlagsAre n mask (laneFlags n mask g) g := by
  intro k _
  rw [laneFlags, getLsbD_foldl_or]
  simp

/-! ### The signed value of a lane -/

/-- The signed value of a word, by its upper half. -/
theorem toInt_halves {n : Nat} (hn : 0 < n) (x : BitVec n) :
    x.toInt = if x.toNat < 2 ^ (n - 1) then (x.toNat : Int) else (x.toNat : Int) - 2 ^ n := by
  have hpow : 2 ^ n = 2 * 2 ^ (n - 1) := by rw [← pow_succ', Nat.sub_add_cancel hn]
  have hiff : 2 * x.toNat < 2 ^ n ↔ x.toNat < 2 ^ (n - 1) := by omega
  simp only [BitVec.toInt_eq_toNat_cond, hiff]
  push_cast
  rfl

/-- The low bits of an integer. -/
theorem toNat_ofInt_emod (n : Nat) (z : Int) : (BitVec.ofInt n z).toNat = (z % 2 ^ n).toNat := by
  rw [BitVec.toNat_ofInt]
  push_cast
  rfl

/-- The lesser or greater of two words by their signed and by their plain values. -/
theorem toNat_ite_slt {n : Nat} (x y p q : BitVec n) (h : x = y → p = q) :
    (if x.slt y then p else q).toNat = if x.toInt ≤ y.toInt then p.toNat else q.toNat := by
  simp only [BitVec.slt_iff_toInt_lt]
  rw [ite_lt_eq_ite_le p q fun he => h (BitVec.eq_of_toInt_eq he), apply_ite BitVec.toNat]

theorem toNat_ite_ult {n : Nat} (x y p q : BitVec n) (h : x = y → p = q) :
    (if x.ult y then p else q).toNat = if x.toNat ≤ y.toNat then p.toNat else q.toNat := by
  simp only [BitVec.ult_iff_toNat_lt]
  rw [ite_lt_eq_ite_le p q fun he => h (BitVec.eq_of_toNat_eq he), apply_ite BitVec.toNat]

end Sys2Proof.Machine
end

section
/-! SUPPORT. The statement on the integer lane operations (06 R128). -/
namespace Sys2Proof.Machine

section
variable {base twin : Instr} {s : State} {sc : BitVec 2} {m : BitVec 3} {w : Width} {b a d : BitVec 5} {ch : BitVec 4}

/-- An integer lane operation and its twin have the lanes that the operation gives of words of their width. -/
theorem vecInt_lanes {op : LaneOp} {g : Nat → Nat → Nat} (hb : exec base s = vecInt op (.reg a) sc m w b d s)
    (ht : exec twin s = vecInt op (.ch ch) sc m w b d s) (hg : ∀ x y : BitVec w.bits, (op w.bits x y).toNat = g x.toNat y.toNat) :
    ∃ f, VectorPair base twin a ch s ([vr b] ++ maskDst m d) (vr d) 2 sc f
      ∧ ∀ sl x, (f sl x).2 = 0
        ∧ LanesAre w (sl.rk m) (sl.rv d) (f sl x).1 fun j => g (lane x w.bits j) (lane (sl.rv b) w.bits j) := by
  refine ⟨_, vectorPair_of hb ht, fun sl x => ⟨rfl, lanesAre_mergeLanes w _ _ fun j _ _ => ?_⟩⟩
  rw [Nat.mod_eq_of_lt (BitVec.isLt _), hg, toNat_ofNat_lane, toNat_ofNat_lane]

theorem vecPopc_lanes (hb : exec base s = vecPopc (.reg a) sc m w d s) (ht : exec twin s = vecPopc (.ch ch) sc m w d s) :
    ∃ f, VectorPair base twin a ch s (maskDst m d) (vr d) 2 sc f
      ∧ ∀ sl x, (f sl x).2 = 0
        ∧ LanesAre w (sl.rk m) (sl.rv d) (f sl x).1 fun j => ((List.range w.bits).filter (lane x w.bits j).testBit).length := by
  refine ⟨_, vectorPair_of hb ht, fun sl x => ⟨rfl, lanesAre_mergeLanes w _ _ fun j _ _ => ?_⟩⟩
  rw [popCount_eq]
  have hle : ((List.range w.bits).filter (lane x w.bits j).testBit).length ≤ w.bits := by
    simpa using List.length_filter_le (lane x w.bits j).testBit (List.range w.bits)
  exact Nat.mod_eq_of_lt (hle.trans_lt Nat.lt_two_pow_self)

end

/-- Settles O13: each row of the table by its operation on words of the lanes' width. -/
theorem vectorIntegerLanes : Obligations.VectorIntegerLanes := by
  unfold Obligations.VectorIntegerLanes
  intro s sc m w b a d ch n si low L
  have hsi (x : BitVec n) : si x.toNat = x.toInt := (toInt_halves w.bits_pos x).symm
  have hlow (z : Int) : (BitVec.ofInt n z).toNat = low z := toNat_ofInt_emod n z
  have row {base twin : Instr} {op : LaneOp} {g : Nat → Nat → Nat} (hb : exec base s = vecInt op (.reg a) sc m w b d s)
      (ht : exec twin s = vecInt op (.ch ch) sc m w b d s) (hg : ∀ x y : BitVec n, (op n x y).toNat = g x.toNat y.toNat) :
      L base twin g := vecInt_lanes hb ht hg
  clear_value L
  refine ⟨?_, ?_, ?_, ?_, ?_, ?_, ?_, ?_, ?_, ?_, ?_, ?_, ?_, ?_, ?_, ?_⟩
  · exact row (rfl : _ = execVadd ..) (rfl : _ = execVaddCh ..) BitVec.toNat_add
  · refine row (rfl : _ = execVsub ..) (rfl : _ = execVsubCh ..) fun x y => ?_
    have hsub : x - y = BitVec.ofInt n (x.toNat - y.toNat) := by
      refine BitVec.eq_of_toInt_eq ?_
      rw [BitVec.toInt_sub, BitVec.toInt_ofInt, BitVec.toInt_eq_toNat_bmod, BitVec.toInt_eq_toNat_bmod]
      simp
    exact (congrArg BitVec.toNat hsub).trans (hlow _)
  · exact row (rfl : _ = execVmul ..) (rfl : _ = execVmulCh ..) BitVec.toNat_mul
  · refine row (rfl : _ = execVmulh ..) (rfl : _ = execVmulhCh ..) fun x y => ?_
    rw [hsi, hsi]
    exact hlow _
  · refine row (rfl : _ = execVmin ..) (rfl : _ = execVminCh ..) fun x y => ?_
    rw [hsi, hsi]
    exact toNat_ite_slt x y x y id
  · refine row (rfl : _ = execVmax ..) (rfl : _ = execVmaxCh ..) fun x y => ?_
    rw [hsi, hsi]
    exact toNat_ite_slt x y y x Eq.symm
  · exact row (rfl : _ = execVminu ..) (rfl : _ = execVminuCh ..) fun x y => toNat_ite_ult x y x y id
  · exact row (rfl : _ = execVmaxu ..) (rfl : _ = execVmaxuCh ..) fun x y => toNat_ite_ult x y y x Eq.symm
  · exact row (rfl : _ = execVand ..) (rfl : _ = execVandCh ..) BitVec.toNat_and
  · exact row (rfl : _ = execVor ..) (rfl : _ = execVorCh ..) BitVec.toNat_or
  · exact row (rfl : _ = execVxor ..) (rfl : _ = execVxorCh ..) BitVec.toNat_xor
  · refine row (rfl : _ = execVandn ..) (rfl : _ = execVandnCh ..) fun x y => ?_
    rw [BitVec.toNat_and, BitVec.toNat_not]
  · refine row (rfl : _ = execVshl ..) (rfl : _ = execVshlCh ..) fun x y => ?_
    rw [BitVec.toNat_shiftLeft, Nat.shiftLeft_eq]
    rfl
  · refine row (rfl : _ = execVshr ..) (rfl : _ = execVshrCh ..) fun x y => ?_
    rw [BitVec.toNat_ushiftRight, Nat.shiftRight_eq_div_pow]
    rfl
  · refine row (rfl : _ = execVshra ..) (rfl : _ = execVshraCh ..) fun x y => ?_
    rw [hsi, ← hlow, laneShift, BitVec.sshiftRight, Int.shiftRight_eq_div_pow]
    push_cast
    rfl
  · exact vecPopc_lanes (rfl : _ = execVpopc ..) (rfl : _ = execVpopcCh ..)

end Sys2Proof.Machine
end

section
/-! SUPPORT. The statement on moves between the register files and on the mask instructions (06 R143 to R145). -/
namespace Sys2Proof.Machine

/-- A mask operation writes what its function gives of the two masks (R145). -/
theorem maskOp_writes {i : Instr} {s : State} {sc : BitVec 2} {b a d : BitVec 3} {f : BitVec 64 → BitVec 64 → BitVec 64}
    (he : exec i s = maskOp f sc b a d s) :
    WritesFixed i s [kr a, kr b] (kr d) 1 sc (ofWord (f (s.found.rk a) (s.found.rk b))) :=
  writesFixed_of (f := fun sl => ofWord (f (sl.rk a) (sl.rk b))) he

/-- Settles O19: each instruction by the value that it computes of the slot. -/
theorem movesAndMasks : Obligations.MovesAndMasks := by
  unfold Obligations.MovesAndMasks
  intro s sc m w a d ka kb kd x y n l0 K
  refine ⟨maskOp_writes (rfl : _ = execKand ..), maskOp_writes (rfl : _ = execKor ..), maskOp_writes (rfl : _ = execKxor ..),
    maskOp_writes (f := fun x y => x &&& ~~~y) (rfl : _ = execKandn ..), ?_, ?_, ?_, ?_, ⟨trailZeros x.toNat 64, ?_⟩, ?_, ?_⟩
  · exact writesFixed_of (f := fun sl => ofWord (~~~(sl.rk ka))) (rfl : _ = execKnot ..)
  · exact writesFixed_of (f := fun sl => ofWord (sl.rk ka)) (rfl : _ = execKmvKToX ..)
  · exact writesFixed_of (f := fun sl => ofWord (sl.rx a)) (rfl : _ = execKmvXToK ..)
  · have hpop : ((List.range 64).filter x.getLsbD).length = popCount x.toNat 64 := (popCount_eq 64 x.toNat).symm
    rw [hpop]
    exact writesFixed_of (f := fun sl => ofWord (BitVec.ofNat 64 (popCount (sl.rk ka).toNat 64))) (rfl : _ = execKpopc ..)
  · obtain ⟨hle, hzero, hone⟩ := trailZeros_spec 64 x.toNat
    exact ⟨hle, hzero, hone,
      writesFixed_of (f := fun sl => ofWord (BitVec.ofNat 64 (trailZeros (sl.rk ka).toNat 64))) (rfl : _ = execKfirst ..)⟩
  · have hl0 : (if l0 < 2 ^ (n - 1) then (l0 : Int) else (l0 : Int) - 2 ^ n) = sintOf n l0 := by
      rw [sintOf, toInt_halves w.bits_pos, toNat_ofNat_lane]
    have hword (z : Int) : BitVec.ofNat 512 (toBits 64 z) = ofWord (BitVec.ofInt 64 z) := BitVec.ofNat_toNat _ _
    rw [hl0, ← hword]
    exact writesFixed_of (f := fun sl => BitVec.ofNat 512 (toBits 64 (sintOf w.bits (lane (sl.rv a) w.bits 0)))) (rfl : _ = execVmvxv ..)
  · refine ⟨_, writesFixed_of (rfl : _ = execVmvx ..), lanesAre_mergeLanes_of_lt w _ _ fun j => ?_⟩
    split
    · exact Nat.mod_lt _ (Nat.two_pow_pos _)
    · exact Nat.two_pow_pos _

end Sys2Proof.Machine
end

section
/-! SUPPORT. The order of FP32 values by their encodings (04 R78, 06 R131). -/
namespace Sys2Proof.Machine

/-! ### Magnitudes with their signs -/

/-- The place of an FP32 encoding in the order of signed magnitudes: both zeros stand at 0. -/
def orderKey (v : Nat) : Int := if v < 2 ^ 31 then v else 2 ^ 31 - (v : Int)

/-- The value at a place, in smallest units. -/
def signedMag (k : Int) : Int := k.sign * codeMag 23 k.natAbs

theorem codeMag_zero (fb : Nat) : codeMag fb 0 = 0 := codeMag_of_le (Nat.zero_le _)

theorem signedMag_natCast (n : Nat) : signedMag n = codeMag 23 n := by
  cases n with
  | zero => simp [signedMag, codeMag_zero]
  | succ n => rw [signedMag, Int.sign_natCast_of_ne_zero n.succ_ne_zero, one_mul, Int.natAbs_natCast]

theorem signedMag_neg (k : Int) : signedMag (-k) = -signedMag k := by simp [signedMag]

theorem signedMag_strictMono : StrictMono signedMag := by
  refine strictMono_of_odd_strictMonoOn_nonneg signedMag_neg fun x hx y hy hxy => ?_
  obtain ⟨m, rfl⟩ := Int.eq_ofNat_of_zero_le hx
  obtain ⟨n, rfl⟩ := Int.eq_ofNat_of_zero_le hy
  rw [signedMag_natCast, signedMag_natCast]
  exact_mod_cast codeMag_strictMono 23 (by exact_mod_cast hxy)

/-- An encoding's value in smallest units is that of its place. -/
theorem units_eq_signedMag {p : Nat} (hp : p < 2 ^ 32) : fmtFP32.units p = signedMag (orderKey p) := by
  have hsign : fmtFP32.sign p = decide (2 ^ 31 ≤ p) := by
    rw [FFmt.sign, Bool.eq_iff_iff, beq_iff_eq, decide_eq_true_eq, show fmtFP32.eb + fmtFP32.fb = 31 from rfl]
    omega
  rw [units_eq, hsign, orderKey]
  by_cases h : p < 2 ^ 31
  · rw [decide_eq_false (not_le.mpr h), if_neg Bool.false_ne_true, if_pos h, signedMag_natCast, Nat.mod_eq_of_lt h]
  · have hneg : (2 : Int) ^ 31 - p = -((p % 2 ^ 31 : Nat) : Int) := by omega
    rw [decide_eq_true (not_lt.mp h), if_pos rfl, if_neg h, hneg, signedMag_neg, signedMag_natCast]

/-- 06 R131: FP32 patterns compare by their places, and a NaN with nothing. -/
theorem fp32_order {p q : Nat} (hp : p < 2 ^ 32) (hq : q < 2 ^ 32) :
    (fless (fp32 p) (fp32 q) = true ↔ ¬fmtFP32.isNan p ∧ ¬fmtFP32.isNan q ∧ orderKey p < orderKey q)
    ∧ (fequal (fp32 p) (fp32 q) = true ↔ ¬fmtFP32.isNan p ∧ ¬fmtFP32.isNan q ∧ orderKey p = orderKey q) := by
  by_cases np : fmtFP32.isNan p
  · rw [fp32, np.decode]
    simp [fless, fequal, np]
  by_cases nq : fmtFP32.isNan q
  · rw [fp32, fp32, nq.decode]
    cases fdecode fmtFP32 p <;> simp [fless, fequal, nq]
  obtain ⟨hlt, heq⟩ := fless_units np nq
  rw [hlt, heq, decide_eq_true_iff, decide_eq_true_iff, units_eq_signedMag hp, units_eq_signedMag hq,
    signedMag_strictMono.lt_iff_lt, signedMag_strictMono.injective.eq_iff]
  simp [np, nq]

end Sys2Proof.Machine
end

section
/-! SUPPORT. The statement on comparisons, three-input logic, funnel shifts and rotates (06 R131 to R133). -/
namespace Sys2Proof.Machine

/-! ### Predicates -/

/-- One flag raised by any of the active lanes. -/
theorem laneFlags_flagIf (n : Nat) (mask : BitVec 64) (c : Nat → Bool) (fl : FFlags) :
    laneFlags n mask (fun j => flagIf (c j) fl) = flagIf ((List.range n).any fun j => maskBit mask j && c j) fl := by
  have hbit (b : Bool) (k : Nat) : (flagIf b fl).getLsbD k = (b && fl.getLsbD k) := by cases b <;> simp [flagIf]
  refine BitVec.eq_of_getLsbD_eq fun k _ => ?_
  rw [laneFlags, getLsbD_foldl_or, hbit]
  simp only [hbit]
  cases fl.getLsbD k <;> simp

section
variable {base twin : Instr} {s : State} {sc : BitVec 2} {m : BitVec 3} {b a : BitVec 5} {ch : BitVec 4}

/-- A comparison and its twin give the predicate of their condition on the lanes (R131). -/
theorem vecCmp_bits {w : Width} {d : BitVec 3} {c : (w : Nat) → BitVec w → BitVec w → Bool} {p : Nat → Nat → Bool}
    (hb : exec base s = vecCmp c (.reg a) sc m w b d s) (ht : exec twin s = vecCmp c (.ch ch) sc m w b d s)
    (hp : ∀ x y : BitVec w.bits, c w.bits x y = p x.toNat y.toNat) :
    ∃ f, VectorPair base twin a ch s ([vr b] ++ maskSrc m) (kr d) 2 sc f
      ∧ ∀ sl x, (f sl x).2 = 0 ∧ ∀ j, (f sl x).1.getLsbD j
          = (decide (j < w.lanes) && maskBit (sl.rk m) j && p (lane x w.bits j) (lane (sl.rv b) w.bits j)) := by
  have hlanes : w.lanes ≤ 64 := by cases w <;> decide
  refine ⟨_, vectorPair_of hb ht, fun sl x => ⟨rfl, fun j => ?_⟩⟩
  rw [getLsbD_predicate _ _ hlanes, hp, toNat_ofNat_lane, toNat_ofNat_lane]

/-- An FP comparison and its twin: the predicate, and NV for a signalling NaN, or any NaN where the comparison asks (R131). -/
theorem vecFcmp_bits {d : BitVec 3} {fi quiet : Bool} {p : FVal → FVal → Bool} (hb : exec base s = vecFcmp p quiet (.reg a) sc m fi b d s)
    (ht : exec twin s = vecFcmp p quiet (.ch ch) sc m fi b d s) :
    ∃ f, VectorPair base twin a ch s ([vr b] ++ maskSrc m) (kr d) 4 sc f
      ∧ ∀ sl x, let u (v : Vec) (j : Nat) : FVal := fp32 (flushIn fi (lane v 32 j))
          let bad (v : FVal) : Bool := if quiet then v.isNan else v.isSnan
          (∀ j, (f sl x).1.getLsbD j = (decide (j < 16) && maskBit (sl.rk m) j && p (u x j) (u (sl.rv b) j)))
          ∧ (f sl x).2 = if (List.range 16).any (fun j => maskBit (sl.rk m) j && (bad (u x j) || bad (u (sl.rv b) j)))
              then flagNV else 0 := by
  refine ⟨_, vectorPair_of hb ht, fun sl x => ⟨fun j => getLsbD_predicate _ _ (by decide), ?_⟩⟩
  have hbad (v v' : FVal) : (v.isSnan || v'.isSnan || (quiet && (v.isNan || v'.isNan)))
      = ((if quiet then v.isNan else v.isSnan) || (if quiet then v'.isNan else v'.isSnan)) := by
    cases quiet <;> cases v <;> cases v' <;> simp [FVal.isNan, FVal.isSnan]
  simp only [laneFlags_flagIf, hbad]
  rfl

/-! ### Bit logic and shifts -/

/-- Bit i of the three-input function is the entry of its truth table that the three bits name (R132). -/
theorem getLsbD_bool3 (t : BitVec 8) (x y z : Vec) {i : Nat} (hi : i < 512) : (bool3 t x y z).getLsbD i
    = t.getLsbD (4 * (x.getLsbD i).toNat + 2 * (y.getLsbD i).toNat + (z.getLsbD i).toNat) := by
  rw [bool3, getLsbD_foldl_or]
  simp only [BitVec.getLsbD_and, apply_ite (BitVec.getLsbD · i), BitVec.getLsbD_not, hi, decide_true, Bool.true_and]
  cases x.getLsbD i <;> cases y.getLsbD i <;> cases z.getLsbD i <;> simp [List.range_succ]

/-- With every bit set, every lane is active. -/
theorem maskBit_allOnes {w : Width} {j : Nat} (hj : j < w.lanes) : maskBit (BitVec.allOnes 64) j = true := by
  have hlanes : w.lanes ≤ 64 := by cases w <;> decide
  rw [maskBit, BitVec.getLsbD_allOnes]
  exact decide_eq_true (hj.trans_le hlanes)

/-- A result built lane by lane, every lane of it. -/
theorem lanesAre_build (w : Width) {f g : Nat → Nat} (h : ∀ j, f j % 2 ^ w.bits = g j) :
    LanesAre w (BitVec.allOnes 64) 0 (ofLanes w.bits ((List.range w.lanes).map f)) g := by
  intro j hj
  have hmask := maskBit_allOnes hj
  rw [← w.lanes_eq] at hj ⊢
  rw [lane_build f hj, h, hmask, if_pos rfl]

theorem funnel_left (x y : Nat) {n : Nat} (hn : n < 64) (hy : y < 2 ^ 64) :
    (if n = 0 then x else (x * 2 ^ n + y / 2 ^ (64 - n)) % 2 ^ 64) % 2 ^ 64 = (x * 2 ^ 64 + y) * 2 ^ n / 2 ^ 64 % 2 ^ 64 := by
  have hsplit : 2 ^ 64 = 2 ^ (64 - n) * 2 ^ n := by rw [← pow_add, Nat.sub_add_cancel hn.le]
  have hdiv : (x * 2 ^ 64 + y) * 2 ^ n / 2 ^ 64 = x * 2 ^ n + y / 2 ^ (64 - n) := by
    rw [Nat.add_mul, Nat.mul_right_comm, Nat.add_comm, Nat.add_mul_div_right _ _ (Nat.two_pow_pos 64), Nat.add_comm]
    congr 1
    conv_lhs => rw [hsplit]
    exact Nat.mul_div_mul_right _ _ (Nat.two_pow_pos n)
  rw [hdiv]
  split
  · next h0 =>
    subst h0
    rw [Nat.sub_zero, Nat.div_eq_of_lt hy, pow_zero, Nat.mul_one, Nat.add_zero]
  · rw [Nat.mod_mod]

theorem funnel_right (x y : Nat) {n : Nat} (hn : n < 64) :
    (if n = 0 then x else x / 2 ^ n + y * 2 ^ (64 - n) % 2 ^ 64) % 2 ^ 64 = (y * 2 ^ 64 + x) / 2 ^ n % 2 ^ 64 := by
  have hsplit : 2 ^ 64 = 2 ^ (64 - n) * 2 ^ n := by rw [← pow_add, Nat.sub_add_cancel hn.le]
  have hdiv : (y * 2 ^ 64 + x) / 2 ^ n = x / 2 ^ n + y * 2 ^ (64 - n) := by
    rw [hsplit, ← Nat.mul_assoc, Nat.add_comm, Nat.add_mul_div_right _ _ (Nat.two_pow_pos n)]
  rw [hdiv]
  split
  · next h0 =>
    subst h0
    simp
  · rw [Nat.add_mod_mod]

/-- The two parts of a rotated word do not overlap. -/
theorem rotated_parts {x n k : Nat} (hnk : n + k = 64) (hx : x < 2 ^ 64) :
    x * 2 ^ n % 2 ^ 64 ||| x / 2 ^ k = (x * 2 ^ n + x / 2 ^ k) % 2 ^ 64 := by
  have hsplit : 2 ^ 64 = 2 ^ k * 2 ^ n := by rw [← pow_add, Nat.add_comm, hnk]
  have hlow : x / 2 ^ k < 2 ^ n := Nat.div_lt_of_lt_mul (by rwa [← hsplit])
  have hhigh : x * 2 ^ n % 2 ^ 64 = x % 2 ^ k * 2 ^ n := by rw [hsplit, Nat.mul_mod_mul_right]
  have hsum : x % 2 ^ k * 2 ^ n + x / 2 ^ k < 2 ^ 64 := by
    have hle : (x % 2 ^ k + 1) * 2 ^ n ≤ 2 ^ 64 := by
      rw [hsplit]
      exact Nat.mul_le_mul_right _ (Nat.mod_lt _ (Nat.two_pow_pos k))
    rw [Nat.succ_mul] at hle
    omega
  rw [← Nat.mod_add_mod, hhigh, Nat.mod_eq_of_lt hsum, ← Nat.shiftLeft_eq, Nat.shiftLeft_add_eq_or_of_lt hlow]

theorem rotateLeft_toNat (x : BitVec 64) {n : Nat} (hn : n < 64) :
    (x.rotateLeft n).toNat = (x.toNat * 2 ^ n + x.toNat / 2 ^ (64 - n)) % 2 ^ 64 := by
  rw [BitVec.toNat_rotateLeft, Nat.mod_eq_of_lt hn, Nat.shiftLeft_eq, Nat.shiftRight_eq_div_pow]
  exact rotated_parts (Nat.add_sub_cancel' hn.le) x.isLt

theorem rotateRight_toNat (x : BitVec 64) {n : Nat} (hn : n < 64) :
    (x.rotateRight n).toNat = (x.toNat * 2 ^ 64 + x.toNat) / 2 ^ n % 2 ^ 64 := by
  have hsplit : 2 ^ 64 = 2 ^ (64 - n) * 2 ^ n := by rw [← pow_add, Nat.sub_add_cancel hn.le]
  have hdiv : (x.toNat * 2 ^ 64 + x.toNat) / 2 ^ n = x.toNat * 2 ^ (64 - n) + x.toNat / 2 ^ n := by
    conv_lhs => rw [hsplit]
    rw [← Nat.mul_assoc, Nat.add_comm, Nat.add_mul_div_right _ _ (Nat.two_pow_pos n), Nat.add_comm]
  rw [BitVec.toNat_rotateRight, Nat.mod_eq_of_lt hn, Nat.shiftLeft_eq, Nat.shiftRight_eq_div_pow, Nat.or_comm, hdiv]
  exact rotated_parts (Nat.sub_add_cancel hn.le) x.isLt

end

/-! ### The statement -/

/-- Settles O15: comparisons by their condition on words and values, the order of FP32 values by their places, and the shifts by the
doubled word. -/
theorem vectorComparesAndLogic : Obligations.VectorComparesAndLogic := by
  unfold Obligations.VectorComparesAndLogic
  refine ⟨?_, ?_, ?_⟩
  · intro s sc m w fi b a d ch n si C F
    have hsi (x : BitVec n) : si x.toNat = x.toInt := (toInt_halves w.bits_pos x).symm
    have row {base twin : Instr} {c : (w : Nat) → BitVec w → BitVec w → Bool} {p : Nat → Nat → Bool}
        (hb : exec base s = vecCmp c (.reg a) sc m w b d s) (ht : exec twin s = vecCmp c (.ch ch) sc m w b d s)
        (hp : ∀ x y : BitVec n, c n x y = p x.toNat y.toNat) : C base twin p := vecCmp_bits hb ht hp
    have frow {base twin : Instr} {quiet : Bool} {p : FVal → FVal → Bool} (hb : exec base s = vecFcmp p quiet (.reg a) sc m fi b d s)
        (ht : exec twin s = vecFcmp p quiet (.ch ch) sc m fi b d s) : F base twin quiet p := vecFcmp_bits hb ht
    clear_value C F
    refine ⟨?_, ?_, ?_, ?_, ?_, ?_, ?_, ?_, ?_, ?_⟩
    · refine row (rfl : _ = execVcmpeq ..) (rfl : _ = execVcmpeqCh ..) fun x y => ?_
      rw [Bool.eq_iff_iff, beq_iff_eq, beq_iff_eq, BitVec.toNat_inj]
    · refine row (rfl : _ = execVcmpne ..) (rfl : _ = execVcmpneCh ..) fun x y => ?_
      rw [Bool.eq_iff_iff, bne_iff_ne, bne_iff_ne, BitVec.toNat_ne_iff_ne]
    · refine row (rfl : _ = execVcmplt ..) (rfl : _ = execVcmpltCh ..) fun x y => ?_
      rw [hsi, hsi, BitVec.slt_eq_decide]
    · refine row (rfl : _ = execVcmple ..) (rfl : _ = execVcmpleCh ..) fun x y => ?_
      rw [hsi, hsi, BitVec.sle_eq_decide]
    · exact row (rfl : _ = execVcmpltu ..) (rfl : _ = execVcmpltuCh ..) fun x y => rfl
    · exact row (rfl : _ = execVcmpleu ..) (rfl : _ = execVcmpleuCh ..) fun x y => rfl
    · exact frow (rfl : _ = execVfcmpeq ..) (rfl : _ = execVfcmpeqCh ..)
    · exact frow (rfl : _ = execVfcmplt ..) (rfl : _ = execVfcmpltCh ..)
    · exact frow (rfl : _ = execVfcmple ..) (rfl : _ = execVfcmpleCh ..)
    · exact frow (rfl : _ = execVfcmpun ..) (rfl : _ = execVfcmpunCh ..)
  · intro p q hp hq nan key
    obtain ⟨hless, hequal⟩ := fp32_order hp hq
    have hquiet : p % 2 ^ 23 < 2 ^ 22 ↔ p / 2 ^ 22 % 2 = 0 := by omega
    exact ⟨fp32_isNan, fp32_isSnan.trans (and_congr_right fun _ => hquiet), hless, hequal⟩
  · intro s sc t h b a d ch n R
    have hn : n < 64 := h.isLt
    refine ⟨⟨_, vectorPair_of (rfl : _ = execVbool3 ..) (rfl : _ = execVbool3Ch ..), fun sl x => ⟨rfl, fun i hi => getLsbD_bool3 t _ _ _ hi⟩⟩,
      ?_, ?_, ?_, ?_⟩
    · exact ⟨_, vectorPair_of (rfl : _ = execVfshl ..) (rfl : _ = execVfshlCh ..),
        fun sl x => ⟨rfl, lanesAre_build .w64 fun j => funnel_left _ _ hn (lane_lt ..)⟩⟩
    · exact ⟨_, vectorPair_of (rfl : _ = execVfshr ..) (rfl : _ = execVfshrCh ..),
        fun sl x => ⟨rfl, lanesAre_build .w64 fun j => funnel_right _ _ hn⟩⟩
    · refine ⟨_, vectorPair_of (rfl : _ = execVrotl ..) (rfl : _ = execVrotlCh ..), fun sl x => ⟨rfl, lanesAre_build .w64 fun j => ?_⟩⟩
      refine (Nat.mod_eq_of_lt (BitVec.isLt _)).trans ((rotateLeft_toNat _ hn).trans ?_)
      rw [toNat_ofNat_lane]
    · refine ⟨_, vectorPair_of (rfl : _ = execVrotr ..) (rfl : _ = execVrotrCh ..), fun sl x => ⟨rfl, lanesAre_build .w64 fun j => ?_⟩⟩
      refine (Nat.mod_eq_of_lt (BitVec.isLt _)).trans ((rotateRight_toNat _ hn).trans ?_)
      rw [toNat_ofNat_lane]

end Sys2Proof.Machine
end

section
/-! SUPPORT. FP32 results are FP32 patterns (04 R78, R88 to R90). -/
namespace Sys2Proof.Machine

/-- The modes above 4 round as mode 4 does. -/
theorem fencode_mode_min (f : FFmt) (mode : RMode) (v : FVal) : fencode f mode v = fencode f (min mode 4) v := by
  rcases le_total mode 4 with h | h
  · rw [min_eq_left h]
  · obtain ⟨k, rfl⟩ := Nat.exists_eq_add_of_le' h
    rw [min_eq_right h]
    have hup : roundsUp (k + 4) = roundsUp 4 := rfl
    have hover : overflowBits f (k + 4) = overflowBits f 4 := rfl
    have hmag : roundMag f (k + 4) = roundMag f 4 := by
      unfold roundMag roundAt
      rw [hup, hover]
    unfold fencode
    rw [hmag]

theorem finish32_lt (mode : RMode) (r : FVal × FFlags) : (finish32 mode r).1 < 2 ^ 32 := by
  rw [finish32, fencode_mode_min]
  exact fencode_lt wide_fp32 (min_le_right mode 4) r.1

theorem fminmax32_lt (isMax : Bool) {p q : Nat} (hp : p < 2 ^ 32) (hq : q < 2 ^ 32) : (fminmax32 isMax p q).1 < 2 ^ 32 := by
  simp only [fminmax32]
  split
  · exact show fmtFP32.nanBits < 2 ^ 32 by decide
  split
  · exact hq
  split
  · exact hp
  split
  · exact hp
  · exact hq

/-! ### Subnormal inputs and results (R90) -/

theorem flushIn_le (fi : Bool) (v : Nat) : flushIn fi v ≤ v := by
  rw [flushIn]
  split
  · exact Nat.div_mul_le_self _ _
  · exact le_rfl

theorem flushOut_le (fo : Bool) (r : Nat × FFlags) : (flushOut fo r).1 ≤ r.1 := by
  rw [flushOut]
  split
  · exact Nat.div_mul_le_self _ _
  · exact le_rfl

theorem flushIn_lane_lt (fi : Bool) (v : Vec) (j : Nat) : flushIn fi (lane v 32 j) < 2 ^ 32 := (flushIn_le ..).trans_lt (lane_lt ..)

theorem isSub32_iff (v : Nat) : isSub32 v = true ↔ 0 < v % 2 ^ 31 ∧ v % 2 ^ 31 < 2 ^ 23 := by
  rw [isSub32, Bool.and_eq_true, beq_iff_eq, bne_iff_ne]
  omega

theorem flush_subnormal {v : Nat} (fl : FFlags) (h : isSub32 v = true) :
    flushIn true v = v / 2 ^ 31 * 2 ^ 31 ∧ flushOut true (v, fl) = (v / 2 ^ 31 * 2 ^ 31, fl ||| 0b00011) := by
  have hflags : fl ||| flagUF ||| flagNX = fl ||| 0b00011 := BitVec.or_assoc ..
  simp [flushIn, flushOut, h, hflags]

theorem flush_other {v : Nat} (fl : FFlags) (h : isSub32 v = false) : flushIn true v = v ∧ flushOut true (v, fl) = (v, fl) := by
  simp [flushIn, flushOut, h]

end Sys2Proof.Machine
end

section
/-! SUPPORT. The statement on the FP32 lane operations (06 R129, R130). -/
namespace Sys2Proof.Machine

/-- The lanes and the flags of an FP32 result whose lanes are FP32 patterns (R127). -/
theorem vecFpLanes_lanes (sl : Slot) (m : BitVec 3) (d : BitVec 5) {r : Nat → Nat × FFlags} (h : ∀ j, (r j).1 < 2 ^ 32) :
    LanesAre .w32 (sl.rk m) (sl.rv d) (vecFpLanes sl m d r).1 (fun j => (r j).1)
    ∧ FlagsAre 16 (sl.rk m) (vecFpLanes sl m d r).2 (fun j => (r j).2) := by
  rw [vecFpLanes]
  exact ⟨lanesAre_mergeLanes_of_lt .w32 (sl.rk m) (sl.rv d) h, flagsAre_laneFlags 16 (sl.rk m) fun j => (r j).2⟩

/-- Settles O14: each operation gives FP32 patterns, lane by lane; and the two flushes by what a subnormal is. -/
theorem vectorFpLanes : Obligations.VectorFpLanes := by
  unfold Obligations.VectorFpLanes
  refine ⟨?_, fun v fl => ⟨rfl, rfl, fun h0 h1 => ?_, fun h => ?_⟩⟩
  · intro s sc m x b a d ch arg Lanes F F2 F3
    have row {base twin : Instr} {srcs : List RegRef} {op : Slot → Vec → Nat → Nat × FFlags}
        (hb : exec base s = issueVec s (.reg a) srcs (vr d) 4 sc fun sl v => vecFpLanes sl m d (op sl v))
        (ht : exec twin s = issueVec s (.ch ch) srcs (vr d) 4 sc fun sl v => vecFpLanes sl m d (op sl v))
        (hop : ∀ sl v j, (op sl v j).1 < 2 ^ 32) : F base twin srcs op :=
      ⟨_, vectorPair_of hb ht, fun sl v => vecFpLanes_lanes sl m d (hop sl v)⟩
    have rounded (mode : RMode) (r : FVal × FFlags) : (flushOut x.fo (finish32 mode r)).1 < 2 ^ 32 :=
      (flushOut_le ..).trans_lt (finish32_lt mode r)
    have chosen (isMax : Bool) (v v' : Vec) (j : Nat) : (flushOut x.fo (fminmax32 isMax (arg v j) (arg v' j))).1 < 2 ^ 32 :=
      (flushOut_le ..).trans_lt (fminmax32_lt isMax (flushIn_lane_lt ..) (flushIn_lane_lt ..))
    clear_value F
    refine ⟨?_, ?_, ?_, ?_, ?_, ?_, ?_, ?_, ?_, ?_, ?_, ?_⟩
    · exact row (rfl : _ = execVfadd ..) (rfl : _ = execVfaddCh ..) fun sl v j => rounded ..
    · exact row (rfl : _ = execVfsub ..) (rfl : _ = execVfsubCh ..) fun sl v j => rounded ..
    · exact row (rfl : _ = execVfmul ..) (rfl : _ = execVfmulCh ..) fun sl v j => rounded ..
    · exact row (rfl : _ = execVfmin ..) (rfl : _ = execVfminCh ..) fun sl v j => chosen ..
    · exact row (rfl : _ = execVfmax ..) (rfl : _ = execVfmaxCh ..) fun sl v j => chosen ..
    · exact row (rfl : _ = execVfsqrt ..) (rfl : _ = execVfsqrtCh ..) fun sl v j => rounded ..
    · exact row (rfl : _ = execVfabs ..) (rfl : _ = execVfabsCh ..) fun sl v j => (Nat.mod_lt _ (by decide)).trans (by decide)
    · exact row (rfl : _ = execVfma ..) (rfl : _ = execVfmaCh ..) fun sl v j => rounded ..
    · exact row (rfl : _ = execVfms ..) (rfl : _ = execVfmsCh ..) fun sl v j => rounded ..
    · exact row (rfl : _ = execVfnma ..) (rfl : _ = execVfnmaCh ..) fun sl v j => rounded ..
    · exact row (rfl : _ = execVfnms ..) (rfl : _ = execVfnmsCh ..) fun sl v j => rounded ..
    · exact ⟨_, vectorPairLater_of (rfl : _ = execVfdiv ..) (rfl : _ = execVfdivCh ..), fun sl v =>
        ⟨_, rfl, vecFpLanes_lanes sl m d fun j => rounded ..⟩⟩
  · exact flush_subnormal fl ((isSub32_iff v).mpr ⟨h0, h1⟩)
  · refine flush_other fl (Bool.eq_false_iff.mpr fun hs => ?_)
    rw [isSub32_iff] at hs
    omega

end Sys2Proof.Machine
end

section
/-! SUPPORT. The active lanes of a vector, and what stands in lane 0 or is put back in their places (06 R134, R135). -/
namespace Sys2Proof.Machine

/-! ### Active lanes below a place -/

/-- The places below n that a mask has active, and the lanes at them, both in ascending order. -/
def activeBelow (mask : BitVec 64) (n : Nat) : List Nat := (List.range n).filter (maskBit mask)

theorem activeLanes_eq (w : Width) (mask : BitVec 64) (v : Vec) :
    activeLanes w.bits mask v = (activeBelow mask w.lanes).map (lane v w.bits) := by rw [activeLanes, w.lanes_eq, activeBelow]

theorem activeBelow_succ {mask : BitVec 64} {j : Nat} (h : maskBit mask j = true) :
    activeBelow mask (j + 1) = activeBelow mask j ++ [j] := by simp [activeBelow, List.range_succ, h]

/-- The active places below a place are the first of all. -/
theorem activeBelow_take {mask : BitVec 64} {j n : Nat} (h : j ≤ n) :
    (activeBelow mask n).take (activeBelow mask j).length = activeBelow mask j := by
  obtain ⟨k, rfl⟩ := Nat.exists_eq_add_of_le h
  unfold activeBelow
  rw [List.range_add, List.filter_append]
  exact List.take_left

/-- The number of active places below an active one is its number among all. -/
theorem activeBelow_get {mask : BitVec 64} {j n : Nat} (h : j < n) (hm : maskBit mask j = true) :
    (activeBelow mask n).take ((activeBelow mask j).length + 1) = activeBelow mask j ++ [j] := by
  rw [← activeBelow_succ hm, ← activeBelow_take (mask := mask) (Nat.succ_le_of_lt h), activeBelow_succ hm, List.length_append]
  rfl

theorem activeBelow_length_lt {mask : BitVec 64} {j n : Nat} (h : j < n) (hm : maskBit mask j = true) :
    (activeBelow mask j).length < (activeBelow mask n).length := by
  have := congrArg List.length (activeBelow_get h hm)
  simp only [List.length_take, List.length_append, List.length_singleton] at this
  omega

theorem mem_lanes_lt {v : Vec} {w y : Nat} {l : List Nat} (h : y ∈ l.map (lane v w)) : y < 2 ^ w := by
  obtain ⟨j, -, rfl⟩ := List.mem_map.mp h
  exact lane_lt v w j

/-- Results put back in their places: each active lane has the one of its number. -/
theorem lanesAre_scatterActive (w : Width) (mask : BitVec 64) (old : Vec) {rs : List Nat} {g : Nat → Nat}
    (h : ∀ j, j < w.lanes → maskBit mask j = true → rs.getD (activeBelow mask j).length 0 % 2 ^ w.bits = g j) :
    LanesAre w mask old (scatterActive w.bits mask old rs) g := lanesAre_mergeLanes w mask old h

/-- Lane 0 alone replaced, as a mask of lane 0 alone says it. -/
theorem lanesAre_withLane0 (w : Width) (old : Vec) {r : Nat} (h : r < 2 ^ w.bits) :
    LanesAre w 1 old (withLane0 w.bits old r) fun _ => r := by
  intro j hj
  have hmask : maskBit 1 j = decide (j = 0) := by simp [maskBit]
  rw [lane_withLane0 old r (by rwa [w.lanes_eq]), hmask, Nat.mod_eq_of_lt h]
  simp only [decide_eq_true_eq]

theorem exists_lanesAre_withLane0 (w : Width) (old : Vec) {r : Nat} {isOf : Nat → Prop} (h : isOf r ∧ r < 2 ^ w.bits) :
    ∃ r', isOf r' ∧ LanesAre w 1 old (withLane0 w.bits old r) fun _ => r' := ⟨r, h.1, lanesAre_withLane0 w old h.2⟩

/-! ### Integer reductions and scans -/

/-- Sums of words are the words of sums. -/
theorem foldl_words_sum (n : Nat) (l : List Nat) : ∀ acc : Nat, acc < 2 ^ n →
    l.foldl (fun acc y => (BitVec.ofNat n acc + BitVec.ofNat n y).toNat) acc = (acc + l.sum) % 2 ^ n := by
  induction l with
  | nil => exact fun acc h => (Nat.mod_eq_of_lt h).symm
  | cons y l ih =>
    intro acc _
    rw [List.foldl_cons, ih _ (BitVec.isLt _), List.sum_cons, ← Nat.add_assoc]
    simp

/-- A fold that takes of two words the one with the lesser key ends in a member with the least key. -/
theorem foldl_words_least {n : Nat} {key : Nat → Int} {op : BitVec n → BitVec n → BitVec n}
    (hop : ∀ p q : BitVec n, (op p q = p ∧ key p.toNat ≤ key q.toNat) ∨ (op p q = q ∧ key q.toNat ≤ key p.toNat)) (l : List Nat) :
    ∀ x, x < 2 ^ n → (∀ y ∈ l, y < 2 ^ n) →
      let r := l.foldl (fun acc y => (op (BitVec.ofNat n acc) (BitVec.ofNat n y)).toNat) x
      r < 2 ^ n ∧ r ∈ x :: l ∧ ∀ y ∈ x :: l, key r ≤ key y := by
  induction l with
  | nil => exact fun x hx _ => ⟨hx, by simp⟩
  | cons z l ih =>
    intro x hx hl
    rw [List.forall_mem_cons] at hl
    have hch := hop (BitVec.ofNat n x) (BitVec.ofNat n z)
    rw [BitVec.toNat_ofNat, BitVec.toNat_ofNat, Nat.mod_eq_of_lt hx, Nat.mod_eq_of_lt hl.1] at hch
    rw [List.foldl_cons]
    rcases hch with ⟨heq, hle⟩ | ⟨heq, hle⟩
    · obtain ⟨hlt, hmem, hmin⟩ := ih x hx hl.2
      rw [heq, BitVec.toNat_ofNat, Nat.mod_eq_of_lt hx]
      simp only [List.mem_cons, forall_eq_or_imp] at hmem hmin ⊢
      exact ⟨hlt, by tauto, hmin.1, hmin.1.trans hle, hmin.2⟩
    · obtain ⟨hlt, hmem, hmin⟩ := ih z hl.1 hl.2
      rw [heq, BitVec.toNat_ofNat, Nat.mod_eq_of_lt hl.1]
      simp only [List.mem_cons, forall_eq_or_imp] at hmem hmin ⊢
      exact ⟨hlt, by tauto, hmin.1.trans hle, hmin.1, hmin.2⟩

/-- The lesser of two signed words, and the greater. -/
theorem slt_picks_least {n : Nat} (p q : BitVec n) : ((if p.slt q then p else q) = p ∧ p.toInt ≤ q.toInt)
    ∨ ((if p.slt q then p else q) = q ∧ q.toInt ≤ p.toInt) := by
  split
  · next h => exact .inl ⟨rfl, (BitVec.slt_iff_toInt_lt.mp h).le⟩
  · next h => exact .inr ⟨rfl, not_lt.mp fun hlt => h (BitVec.slt_iff_toInt_lt.mpr hlt)⟩

theorem slt_picks_greatest {n : Nat} (p q : BitVec n) : ((if p.slt q then q else p) = p ∧ -p.toInt ≤ -q.toInt)
    ∨ ((if p.slt q then q else p) = q ∧ -q.toInt ≤ -p.toInt) := by
  split
  · next h => exact .inr ⟨rfl, neg_le_neg (BitVec.slt_iff_toInt_lt.mp h).le⟩
  · next h => exact .inl ⟨rfl, neg_le_neg (not_lt.mp fun hlt => h (BitVec.slt_iff_toInt_lt.mpr hlt))⟩

/-- The k-th partial sum of a scan. -/
theorem scanSums_get (w : Nat) (l : List Nat) : ∀ acc k, k < l.length → (scanSums w acc l).getD k 0 = (acc + (l.take (k + 1)).sum) % 2 ^ w := by
  induction l with
  | nil => exact fun _ _ h => absurd h (Nat.not_lt_zero _)
  | cons x l ih =>
    intro acc k hk
    cases k with
    | zero => simp [scanSums]
    | succ k =>
      rw [scanSums, List.getD_cons_succ, ih _ k (Nat.lt_of_succ_lt_succ hk), List.take_succ_cons, List.sum_cons, Nat.mod_add_mod,
        Nat.add_assoc]

/-! ### Partial results of an FP reduction -/

section
variable {f : RMode → Nat → Nat → Nat × FFlags} {mode : RMode} {x : Flush}

/-- One more lane: the first enters as it is, a later one is combined with the partial result. -/
def fpNext (f : RMode → Nat → Nat → Nat × FFlags) (mode : RMode) (x : Flush) (st : Option (Nat × FFlags)) (v : Nat) : Nat × FFlags :=
  match st with
  | none => fpFirst x v
  | some (acc, fl) =>
    ((flushOut x.fo (f mode acc (flushIn x.fi v))).1, (flushOut x.fo (f mode acc (flushIn x.fi v))).2 ||| fl)

theorem fpPartials_cons (st : Option (Nat × FFlags)) (v : Nat) (l : List Nat) :
    fpPartials f mode x st (v :: l) = fpNext f mode x st v :: fpPartials f mode x (some (fpNext f mode x st v)) l := by
  cases st <;> rfl

theorem fpPartials_length (l : List Nat) : ∀ st, (fpPartials f mode x st l).length = l.length := by
  induction l with
  | nil => exact fun _ => rfl
  | cons v l ih => simp [fpPartials_cons, ih]

theorem fpPartials_take (l : List Nat) : ∀ st k, fpPartials f mode x st (l.take k) = (fpPartials f mode x st l).take k := by
  induction l with
  | nil => simp [fpPartials]
  | cons v l ih =>
    intro st k
    cases k with
    | zero => simp [fpPartials]
    | succ k => simp [fpPartials_cons, ih]

/-- The last partial result after one more lane. -/
theorem fpPartials_append_last (v : Nat) (l : List Nat) : ∀ st, (fpPartials f mode x st (l ++ [v])).getLast?
    = some (fpNext f mode x ((fpPartials f mode x st l).getLast?.or st) v) := by
  induction l with
  | nil => exact fun st => by rw [List.nil_append, fpPartials_cons]; rfl
  | cons y l ih =>
    intro st
    rw [List.cons_append, fpPartials_cons, fpPartials_cons, List.getLast?_cons, List.getLast?_cons, ih, Option.getD_some]
    cases (fpPartials f mode x (some (fpNext f mode x st y)) l).getLast? <;> rfl

/-- The last partial result of the first lanes. -/
theorem fpPartials_get (l : List Nat) {k : Nat} (h : k < l.length) :
    (fpPartials f mode x none l)[k]? = (fpPartials f mode x none (l.take (k + 1))).getLast? := by
  rw [fpPartials_take, List.getLast?_take, if_neg k.succ_ne_zero, Nat.add_sub_cancel, List.getElem?_eq_getElem (by rwa [fpPartials_length])]
  rfl

/-- Partial results are FP32 patterns. -/
theorem fpPartials_lt (hf : ∀ p q, p < 2 ^ 32 → q < 2 ^ 32 → (f mode p q).1 < 2 ^ 32) (l : List Nat) : ∀ st : Option (Nat × FFlags),
    (∀ r ∈ st, r.1 < 2 ^ 32) → (∀ v ∈ l, v < 2 ^ 32) → ∀ r ∈ fpPartials f mode x st l, r.1 < 2 ^ 32 := by
  induction l with
  | nil => simp [fpPartials]
  | cons v l ih =>
    intro st hst hl
    have hv : flushIn x.fi v < 2 ^ 32 := (flushIn_le ..).trans_lt (hl v List.mem_cons_self)
    have hnext : (fpNext f mode x st v).1 < 2 ^ 32 := by
      cases st with
      | none =>
        simp only [fpNext, fpFirst]
        split
        · exact show fmtFP32.nanBits < 2 ^ 32 by decide
        · exact (flushOut_le ..).trans_lt hv
      | some r => exact (flushOut_le ..).trans_lt (hf _ _ (hst r rfl) hv)
    rw [fpPartials_cons]
    simp only [List.mem_cons, forall_eq_or_imp]
    exact ⟨hnext, ih _ (by simpa using hnext) fun y hy => hl y (List.mem_cons_of_mem v hy)⟩

theorem lastPartial_lt (hf : ∀ p q, p < 2 ^ 32 → q < 2 ^ 32 → (f mode p q).1 < 2 ^ 32) {l : List Nat} (hl : ∀ v ∈ l, v < 2 ^ 32)
    {r : Nat × FFlags} (hr : r.1 < 2 ^ 32) : ((fpPartials f mode x none l).getLast?.getD r).1 < 2 ^ 32 := by
  cases h : (fpPartials f mode x none l).getLast? with
  | none => exact hr
  | some q => exact fpPartials_lt hf l none (by simp) hl q (List.mem_of_getLast? h)

end

end Sys2Proof.Machine
end

section
/-! SUPPORT. The statement on reductions and scans (06 R134, R135). -/
namespace Sys2Proof.Machine

section
variable {base twin : Instr} {s : State} {sc : BitVec 2} {m : BitVec 3} {w : Width} {a d : BitVec 5} {ch : BitVec 4}

/-- An integer reduction and its twin write a word in lane 0: that of no active lane, or the fold over them. -/
theorem vecRed_lanes {op : LaneOp} {none : Nat → Nat} {isOf : List Nat → Nat → Prop} (hb : exec base s = vecRed op none (.reg a) sc m w d s)
    (ht : exec twin s = vecRed op none (.ch ch) sc m w d s) (h0 : isOf [] (none w.bits) ∧ none w.bits < 2 ^ w.bits)
    (hfold : ∀ x l, x < 2 ^ w.bits → (∀ y ∈ l, y < 2 ^ w.bits) →
      let r := l.foldl (fun acc y => (op w.bits (BitVec.ofNat w.bits acc) (BitVec.ofNat w.bits y)).toNat) x
      isOf (x :: l) r ∧ r < 2 ^ w.bits) :
    ∃ f, VectorPair base twin a ch s ([vr d] ++ maskSrc m) (vr d) 4 sc f
      ∧ ∀ sl v, (f sl v).2 = 0 ∧ ∃ r, isOf ((activeBelow (sl.rk m) w.lanes).map (lane v w.bits)) r
        ∧ LanesAre w 1 (sl.rv d) (f sl v).1 fun _ => r := by
  refine ⟨_, vectorPair_of hb ht, fun sl v => ⟨rfl, exists_lanesAre_withLane0 w _ ?_⟩⟩
  rw [activeLanes_eq]
  have hlt : ∀ y ∈ (activeBelow (sl.rk m) w.lanes).map (lane v w.bits), y < 2 ^ w.bits := fun _ => mem_lanes_lt
  cases hl : (activeBelow (sl.rk m) w.lanes).map (lane v w.bits) with
  | nil => exact h0
  | cons x l =>
    rw [hl, List.forall_mem_cons] at hlt
    exact hfold x l hlt.1 hlt.2

/-- An FP reduction and its twin write the last partial result in lane 0, with its flags. -/
theorem vecFred_lanes {x : Flush} {op : RMode → Nat → Nat → Nat × FFlags} {empty : Nat} (hb : exec base s = vecFred op empty (.reg a) sc m x d s)
    (ht : exec twin s = vecFred op empty (.ch ch) sc m x d s) (hop : ∀ mode p q, p < 2 ^ 32 → q < 2 ^ 32 → (op mode p q).1 < 2 ^ 32)
    (hempty : empty < 2 ^ 32) :
    ∃ f, VectorPair base twin a ch s ([vr d] ++ maskSrc m) (vr d) 8 sc f
      ∧ ∀ sl v, let r := (fpPartials op sl.frm.toNat x none ((activeBelow (sl.rk m) 16).map (lane v 32))).getLast?.getD (empty, 0)
        (f sl v).2 = r.2 ∧ LanesAre .w32 1 (sl.rv d) (f sl v).1 fun _ => r.1 :=
  ⟨_, vectorPair_of hb ht, fun sl _ =>
    ⟨rfl, lanesAre_withLane0 .w32 (sl.rv d) (lastPartial_lt (hop _) (fun _ => mem_lanes_lt) hempty)⟩⟩

end

section
variable {mask : BitVec 64} {v : Vec} {j : Nat}

/-- A scan's sum at an active lane is that of the active lanes up to it. -/
theorem scanSums_lane {w : Width} (hj : j < w.lanes) (hm : maskBit mask j = true) :
    (scanSums w.bits 0 (activeLanes w.bits mask v)).getD (activeBelow mask j).length 0
      = ((activeBelow mask (j + 1)).map (lane v w.bits)).sum % 2 ^ w.bits := by
  have hlt : (activeBelow mask j).length < (activeLanes w.bits mask v).length := by
    rw [activeLanes_eq, List.length_map]
    exact activeBelow_length_lt hj hm
  rw [scanSums_get _ _ _ _ hlt, activeLanes_eq, ← List.map_take, activeBelow_get hj hm, activeBelow_succ hm, Nat.zero_add]

/-- An FP scan's result at an active lane is the last partial result of the active lanes up to it. -/
theorem fpPartials_lane {f : RMode → Nat → Nat → Nat × FFlags} {mode : RMode} {x : Flush} (hj : j < 16) (hm : maskBit mask j = true) :
    ((fpPartials f mode x none (activeLanes 32 mask v)).map (·.1)).getD (activeBelow mask j).length 0
      = ((fpPartials f mode x none ((activeBelow mask (j + 1)).map (lane v 32))).getLast?.getD (0, 0)).1 := by
  have hlanes : activeLanes 32 mask v = (activeBelow mask 16).map (lane v 32) := activeLanes_eq .w32 mask v
  have hlt : (activeBelow mask j).length < ((activeBelow mask 16).map (lane v 32)).length := by
    rw [List.length_map]
    exact activeBelow_length_lt hj hm
  rw [hlanes, List.getD_eq_getElem?_getD, List.getElem?_map, fpPartials_get _ hlt, ← List.map_take, activeBelow_get hj hm, activeBelow_succ hm]
  cases (fpPartials f mode x none _).getLast? <;> rfl

end

/-- Settles O16: integer reductions as folds, FP ones as last partial results, and scans as the reductions of the lanes so far. -/
theorem vectorReductionsAndScans : Obligations.VectorReductionsAndScans := by
  unfold Obligations.VectorReductionsAndScans
  refine ⟨?_, ?_⟩
  · intro s sc m w x a d ch n si act Red last Fred
    have row {base twin : Instr} {op : LaneOp} {none : Nat → Nat} {isOf : List Nat → Nat → Prop}
        (hb : exec base s = vecRed op none (.reg a) sc m w d s) (ht : exec twin s = vecRed op none (.ch ch) sc m w d s)
        (h0 : isOf [] (none n) ∧ none n < 2 ^ n) (hfold : ∀ x l, x < 2 ^ n → (∀ y ∈ l, y < 2 ^ n) →
          let r := l.foldl (fun acc y => (op n (BitVec.ofNat n acc) (BitVec.ofNat n y)).toNat) x
          isOf (x :: l) r ∧ r < 2 ^ n) : Red base twin isOf := vecRed_lanes hb ht h0 hfold
    have frow {base twin : Instr} {op : RMode → Nat → Nat → Nat × FFlags} {empty : Nat}
        (hb : exec base s = vecFred op empty (.reg a) sc m x d s) (ht : exec twin s = vecFred op empty (.ch ch) sc m x d s)
        (hop : ∀ mode p q, p < 2 ^ 32 → q < 2 ^ 32 → (op mode p q).1 < 2 ^ 32) (hempty : empty < 2 ^ 32) : Fred base twin op empty :=
      vecFred_lanes hb ht hop hempty
    have hadd (mode : RMode) (p q : Nat) (_ : p < 2 ^ 32) (_ : q < 2 ^ 32) : (fadd32 mode p q).1 < 2 ^ 32 := finish32_lt ..
    have htop : 2 ^ (n - 1) < 2 ^ n := Nat.pow_lt_pow_right (by decide) (Nat.sub_lt w.bits_pos Nat.one_pos)
    have hsi (y : BitVec n) : si y.toNat = y.toInt := (toInt_halves w.bits_pos y).symm
    clear_value Red Fred
    refine ⟨?_, ?_, ?_, ?_, ?_, ?_, ⟨_, vectorPair_of (rfl : _ = execVscan ..) (rfl : _ = execVscanCh ..), fun sl v => ⟨rfl, ?_⟩⟩,
      ⟨_, vectorPair_of (rfl : _ = execVfscan ..) (rfl : _ = execVfscanCh ..), fun sl v => ⟨?_, ?_⟩⟩⟩
    · refine row (rfl : _ = execVredsum ..) (rfl : _ = execVredsumCh ..) ⟨rfl, Nat.two_pow_pos n⟩ fun y l hy _ => ?_
      simp only [foldl_words_sum n l y hy, List.sum_cons, true_and]
      exact Nat.mod_lt _ (Nat.two_pow_pos n)
    · refine row (rfl : _ = execVredmin ..) (rfl : _ = execVredminCh ..) ⟨?_, ?_⟩ fun y l hy hl => ?_
      · rw [if_pos rfl]
      · exact (Nat.sub_le _ 1).trans_lt htop
      · obtain ⟨hlt, hmem, hmin⟩ := foldl_words_least (key := si) (fun p q => by rw [hsi, hsi]; exact slt_picks_least p q) l y hy hl
        exact ⟨(if_neg (List.cons_ne_nil y l)).mpr ⟨hmem, hmin⟩, hlt⟩
    · refine row (rfl : _ = execVredmax ..) (rfl : _ = execVredmaxCh ..) ⟨?_, ?_⟩ fun y l hy hl => ?_
      · rw [if_pos rfl]
      · exact htop
      · obtain ⟨hlt, hmem, hmax⟩ := foldl_words_least (key := fun z => -si z) (fun p q => by rw [hsi, hsi]; exact slt_picks_greatest p q) l y hy hl
        exact ⟨(if_neg (List.cons_ne_nil y l)).mpr ⟨hmem, fun z hz => neg_le_neg_iff.mp (hmax z hz)⟩, hlt⟩
    · exact frow (rfl : _ = execVfredsum ..) (rfl : _ = execVfredsumCh ..) hadd (by decide)
    · exact frow (rfl : _ = execVfredmin ..) (rfl : _ = execVfredminCh ..) (fun _ _ _ => fminmax32_lt false) (by decide)
    · exact frow (rfl : _ = execVfredmax ..) (rfl : _ = execVfredmaxCh ..) (fun _ _ _ => fminmax32_lt true) (by decide)
    · refine lanesAre_scatterActive w _ _ fun j hj hm => ?_
      rw [scanSums_lane hj hm, Nat.mod_mod]
      rfl
    · cases h : last fadd32 sl (act 32 sl 16 v) <;> exact congrArg (fun o : Option (Nat × FFlags) => (o.map (·.2)).getD 0) h
    · refine lanesAre_scatterActive .w32 _ _ fun j hj hm => ?_
      rw [fpPartials_lane hj hm]
      exact Nat.mod_eq_of_lt (lastPartial_lt (hadd _) (fun _ => mem_lanes_lt) (by decide))
  · intro op mode x v l acc fl last u
    refine ⟨rfl, fun h => ?_, fun h => ?_, fun h => ?_⟩
    · exact congrArg some (if_pos h)
    · exact congrArg some (if_neg (Bool.eq_false_iff.mp h))
    · have hlast : (fpPartials op mode x none l).getLast? = some (acc, fl) := h
      exact (fpPartials_append_last v l none).trans (by rw [hlast]; rfl)

end Sys2Proof.Machine
end

section
/-! SUPPORT. The statement on permutations and on the merge instructions (06 R136 to R138). -/
namespace Sys2Proof.Machine

/-! ### Lanes picked by their number -/

theorem laneOr0_eq (v : Vec) (w : Width) (i : Nat) : laneOr0 v w.bits i = if i < w.lanes then lane v w.bits i else 0 := by
  rw [laneOr0, w.lanes_eq]

theorem laneOr0_lt (v : Vec) (n i : Nat) : laneOr0 v n i < 2 ^ n := by
  rw [laneOr0]
  split
  · exact lane_lt v n i
  · exact Nat.two_pow_pos n

/-- The lanes of a register in a list, the lane of a number read back. -/
theorem getD_map_lane (v : Vec) (w : Width) (i : Nat) : ((List.range w.lanes).map (lane v w.bits)).getD i 0 = laneOr0 v w.bits i := by
  rw [laneOr0_eq]
  split
  · next h => simp [h]
  · next h => simp [h]

/-- The active lanes moved to the lowest places, and the destination's above them (R136 VCOMPRESS). -/
theorem lane_compressed (mask : BitVec 64) (v old : Vec) (w : Width) {j : Nat} (hj : j < w.lanes) :
    lane (ofLanes w.bits ((List.range w.lanes).map fun j =>
        if j < (activeLanes w.bits mask v).length then (activeLanes w.bits mask v).getD j 0 else lane old w.bits j)) w.bits j
      = ((activeBelow mask w.lanes)[j]?.map (lane v w.bits)).getD (lane old w.bits j) := by
  rw [← w.lanes_eq] at hj
  rw [← w.lanes_eq, lane_build _ hj, w.lanes_eq, activeLanes_eq, List.length_map]
  by_cases h : j < (activeBelow mask w.lanes).length
  · rw [if_pos h, List.getD_eq_getElem?_getD, List.getElem?_map, List.getElem?_eq_getElem h]
    exact Nat.mod_eq_of_lt (lane_lt ..)
  · rw [if_neg h, List.getElem?_eq_none (not_lt.mp h)]
    exact Nat.mod_eq_of_lt (lane_lt ..)

/-! ### Merged outputs -/

/-- An output of the merge loop is a lane or the sentinel. -/
theorem mergeNext_lt (union : Bool) (w : Nat) (x y : Vec) : ∀ (fuel : Nat) (st : MergeAt), (mergeNext union w x y st fuel).1 < 2 ^ w := by
  have hsent : 2 ^ w - 1 < 2 ^ w := Nat.sub_lt (Nat.two_pow_pos w) Nat.one_pos
  have hlane (v : Vec) (i : Nat) : (if i < 512 / w then lane v w i else 2 ^ w - 1) < 2 ^ w := by
    split
    · exact lane_lt v w i
    · exact hsent
  intro fuel
  induction fuel with
  | zero => exact fun _ => hsent
  | succ fuel ih =>
    intro st
    have ha := hlane x st.i
    have hb := hlane y st.j
    simp only [mergeNext]
    generalize (if st.i < 512 / w then lane x w st.i else 2 ^ w - 1) = a at ha ⊢
    generalize (if st.j < 512 / w then lane y w st.j else 2 ^ w - 1) = b at hb ⊢
    split
    · exact hsent
    split
    · exact hsent
    split
    · exact hsent
    split
    · exact ha
    split
    · split
      · exact ha
      · exact ih _
    · split
      · exact hb
      · exact ih _

theorem mergeRun_lt (union : Bool) (w : Nat) (x y : Vec) : ∀ (n : Nat) (st : MergeAt), ∀ p ∈ (mergeRun union w x y st n).1, p.1 < 2 ^ w := by
  intro n
  induction n with
  | zero => exact fun _ p h => absurd h List.not_mem_nil
  | succ n ih =>
    intro st
    rw [mergeRun, List.forall_mem_cons]
    exact ⟨mergeNext_lt union w x y _ st, ih _⟩

theorem mergeRun_getD_lt (union : Bool) (w : Nat) (x y : Vec) (n : Nat) (st : MergeAt) (k : Nat) :
    ((mergeRun union w x y st n).1.getD k (0, 0)).1 < 2 ^ w := by
  rw [List.getD_eq_getElem?_getD]
  cases h : (mergeRun union w x y st n).1[k]? with
  | none => exact Nat.two_pow_pos w
  | some p => exact mergeRun_lt union w x y n st p (List.mem_of_getElem? h)

theorem getD_map_pair {α : Type} (f : Nat × Nat → α) (l : List (Nat × Nat)) (k : Nat) : (l.map f).getD k (f (0, 0)) = f (l.getD k (0, 0)) := by
  rw [List.getD_eq_getElem?_getD, List.getD_eq_getElem?_getD, List.getElem?_map]
  cases l[k]? <;> rfl

/-- Three counts in the lowest lanes. -/
theorem lanesAre_three (w : Width) (p q r : Nat) : LanesAre w (BitVec.allOnes 64) 0 (ofLanes w.bits [p, q, r])
    fun j => (if j = 0 then p else if j = 1 then q else if j = 2 then r else 0) % 2 ^ w.bits := by
  intro j hj
  have hfit : w.bits * 3 ≤ 512 := by cases w <;> decide
  rw [lane_ofLanes hfit, maskBit_allOnes hj, if_pos rfl]
  match j with
  | 0 | 1 | 2 => rfl
  | j + 3 => rfl

section
variable {base twin : Instr} {s : State} {m : BitVec 3} {w : Width} {b a d : BitVec 5} {ch : BitVec 4}

/-- A merge instruction and its twin write the outputs, the origins and the counts of the merge loop (R137, R138). -/
theorem vecMerge_results {union : Bool} (hb : exec base s = vecMerge union (.reg a) m w b d s)
    (ht : exec twin s = vecMerge union (.ch ch) m w b d s) :
    ∃ f, VectorPairLater base twin a ch s ([vr b] ++ if m = 0 then [] else [kr m, vr d, vr (d + 1)])
        [vr d, vr (d + 1), vr (d + 2)] false f
      ∧ ∀ sl x, let run := mergeRun union w.bits x (sl.rv b) ⟨0, 0, false⟩ (activeBelow (sl.rk m) w.lanes).length
          let at_ (j : Nat) : Nat := (activeBelow (sl.rk m) j).length
          ∃ v0 v1 v2, f sl x = ([(vr d, v0), (vr (d + 1), v1), (vr (d + 2), v2)], 0)
            ∧ LanesAre w (sl.rk m) (sl.rv d) v0 (fun j => (run.1.getD (at_ j) (0, 0)).1)
            ∧ LanesAre w (sl.rk m) (sl.rv (d + 1)) v1 (fun j => (run.1.getD (at_ j) (0, 0)).2 % 2 ^ w.bits)
            ∧ LanesAre w (BitVec.allOnes 64) 0 v2 (fun j => (if j = 0 then run.2.i else if j = 1 then run.2.j
                else if j = 2 then (run.1.filter fun p => p.1 != 2 ^ w.bits - 1).length else 0) % 2 ^ w.bits) := by
  refine ⟨_, vectorPairLater_of hb ht, fun sl x => ⟨_, _, _, rfl, lanesAre_scatterActive w _ _ fun j _ _ => ?_,
    lanesAre_scatterActive w _ _ fun j _ _ => congrArg (· % 2 ^ w.bits) (getD_map_pair (·.2) _ _), lanesAre_three w _ _ _⟩⟩
  rw [getD_map_pair (·.1)]
  exact Nat.mod_eq_of_lt (mergeRun_getD_lt ..)

end

/-! ### The statement -/

/-- Settles O17: each permutation by the source lane of a lane, and the merges by the results of their loop. -/
theorem vectorPermutesAndMerges : Obligations.VectorPermutesAndMerges := by
  unfold Obligations.VectorPermutesAndMerges
  refine ⟨?_, ?_⟩
  · intro s sc m w b a d ch n pick below P vd
    have hpick (v : Vec) (i : Nat) : laneOr0 v n i = pick v i := laneOr0_eq v w i
    have hmod (v : Vec) (i : Nat) : laneOr0 v n i % 2 ^ n = laneOr0 v n i := Nat.mod_eq_of_lt (laneOr0_lt v n i)
    have row {base twin : Instr} {srcs : List RegRef} {old : Slot → Vec} {h g : Slot → Vec → Nat → Nat}
        (hb : exec base s = issueVec s (.reg a) srcs (vr d) 2 sc fun sl v => (mergeLanes n (sl.rk m) (old sl) (h sl v), noFlags))
        (ht : exec twin s = issueVec s (.ch ch) srcs (vr d) 2 sc fun sl v => (mergeLanes n (sl.rk m) (old sl) (h sl v), noFlags))
        (hg : ∀ sl v j, h sl v j % 2 ^ n = g sl v j) : P base twin srcs old g :=
      ⟨_, vectorPair_of hb ht, fun sl v => ⟨rfl, lanesAre_mergeLanes w _ _ fun j _ _ => hg sl v j⟩⟩
    clear_value P
    simp only [← hpick]
    refine ⟨?_, ?_, ?_, ?_, ?_, ?_, ?_, ?_⟩
    · exact row (rfl : _ = execVperm ..) (rfl : _ = execVpermCh ..) fun sl v j => hmod ..
    · refine row (rfl : _ = execVslideup ..) (rfl : _ = execVslideupCh ..) fun sl v j => ?_
      by_cases hj : j < (sl.rx b).toNat
      · simp only [if_pos hj, Nat.zero_mod]
      · simp only [if_neg hj]
        exact hmod ..
    · exact row (rfl : _ = execVslidedn ..) (rfl : _ = execVslidednCh ..) fun sl v j => hmod ..
    · exact row (rfl : _ = execVbcast ..) (rfl : _ = execVbcastCh ..) fun sl v j => hmod ..
    · refine row (rfl : _ = execVexpand ..) (rfl : _ = execVexpandCh ..) fun sl v j => ?_
      exact (congrArg (· % 2 ^ n) (getD_map_lane v w _)).trans (hmod ..)
    · exact row (rfl : _ = execVsel ..) (rfl : _ = execVselCh ..) fun sl v j => Nat.mod_eq_of_lt (lane_lt ..)
    · exact row (rfl : _ = execVmv ..) (rfl : _ = execVmvCh ..) fun sl v j => Nat.mod_eq_of_lt (lane_lt ..)
    · refine ⟨_, vectorPair_of (rfl : _ = execVcompress ..) (rfl : _ = execVcompressCh ..), fun sl v => ⟨rfl, fun j hj => ?_⟩⟩
      refine (lane_compressed _ _ _ _ hj).trans ?_
      show ((below sl w.lanes)[j]?.map _).getD _ = _
      cases (below sl w.lanes)[j]? <;> rfl
  · intro s m w b a d ch n M
    exact ⟨vecMerge_results (rfl : _ = execVmrgu ..) (rfl : _ = execVmrguCh ..),
      vecMerge_results (rfl : _ = execVmrgi ..) (rfl : _ = execVmrgiCh ..)⟩

end Sys2Proof.Machine
end

section
/-! SUPPORT. The statement on conversions and on the typed-block instructions (06 R139 to R142). -/
namespace Sys2Proof.Machine

section
variable {i : Instr} {s : State} {srcs : List RegRef}

/-- An instruction whose effect at issue is to write one register with flags, and to retire. -/
theorem does_fixed {F : State → Nat → Fin 4 → Slot → State} {dst : RegRef} {v : Vec} {fl : FFlags} {lat : Nat} {sc : BitVec 2}
    (he : exec i s = issue s srcs [dst] F) (h : canIssue s srcs [dst] = true)
    (hF : F s.settled s.curCore s.curSlot s.found = retire (setSlot s.settled s.curCore s.curSlot
      (accrueAt (s.found.writeFix dst v lat) fl lat)) s.curCore s.curSlot sc.toNat (s.found.pc + 4)) :
    Does i s fun t => Retires s t sc.toNat (s.cur.pc + 4) (accrueAt (s.found.writeFix dst v lat) fl lat) := by
  refine ⟨_, he.trans (issue_can h), ?_⟩
  rw [hF, State.settled, State.setCur, setSlot_setSlot, found_pc]
  exact retires_retire s _ sc.toNat (s.cur.pc + 4)

theorem issueVec_does {a : BitVec 5} {dst : RegRef} {lat : Nat} {sc : BitVec 2} {f : Slot → Vec → Vec × FFlags}
    (he : exec i s = issueVec s (.reg a) srcs dst lat sc f) (h : canIssue s ([vr a] ++ srcs) [dst] = true) :
    Does i s fun t => Retires s t sc.toNat (s.cur.pc + 4)
      (accrueAt (s.found.writeFix dst (f s.found (s.found.rv a)).1 lat) (f s.found (s.found.rv a)).2 lat) := does_fixed he h rfl

/-- A typed-block instruction completes where its x operand passes the checks of R140, and traps ILLEGAL with its word where not. -/
theorem tblock_does {word : BitVec 32} {sc : BitVec 2} {w : Width} {b d : BitVec 5} {f : Slot → Word → Vec × FFlags}
    (he : exec i s = tblock word srcs sc w b d f s) (h : canIssue s srcs [vr d] = true) (hok : tblockOk (s.found.rx b) w.lanes = true) :
    Does i s fun t => Retires s t sc.toNat (s.cur.pc + 4)
      (accrueAt (s.found.writeFix (vr d) (f s.found (s.found.rx b)).1 3) (f s.found (s.found.rx b)).2 3) :=
  does_fixed he h (if_pos hok)

theorem tblock_traps {word : BitVec 32} {sc : BitVec 2} {w : Width} {b d : BitVec 5} {f : Slot → Word → Vec × FFlags}
    (he : exec i s = tblock word srcs sc w b d f s) (h : canIssue s srcs [vr d] = true) (hok : tblockOk (s.found.rx b) w.lanes = false) :
    Traps i s 0x01 (word.setWidth 64) := by
  refine (he.trans (issue_can h)).trans (congrArg Host.Outcome.next ?_)
  rw [if_neg (Bool.eq_false_iff.mp hok), found_pc]
  rfl

end

/-- The flags of the active lanes that have a place in the block. -/
theorem flagsAre_guarded (n : Nat) (mask : BitVec 64) (c : Nat → Prop) [DecidablePred c] (g : Nat → FFlags) :
    FlagsAre n mask ((List.range n).foldl (fun acc j => if maskBit mask j && decide (c j) then acc ||| g j else acc) 0)
      fun j => if c j then g j else 0 := by
  intro k _
  have h0 : (0 : FFlags).getLsbD k = false := BitVec.getLsbD_zero
  rw [getLsbD_foldl_or (fun j => maskBit mask j && decide (c j)), h0, Bool.false_or]
  congr 1
  funext j
  by_cases hj : c j
  · simp only [hj, decide_true, if_true, Bool.and_true]
  · simp only [hj, decide_false, if_false, h0, Bool.and_false, Bool.false_and]

/-- An element of a block built element by element. -/
theorem element_build {fmt i : Nat} (f : Nat → Nat) (hi : i < blockElems fmt) :
    element (ofLanes (fmtBits fmt) ((List.range (blockElems fmt)).map f)) fmt i = f i % 2 ^ fmtBits fmt := lane_build f hi

theorem element_lt (v : Vec) (fmt i : Nat) : element v fmt i < 2 ^ fmtBits fmt := Nat.mod_lt _ (Nat.two_pow_pos _)

/-- Settles O18: VCVT by the conversion of its lanes, the typed-block instructions by the two outcomes of their checks. -/
theorem conversionsAndTypedBlocks : Obligations.ConversionsAndTypedBlocks := by
  unfold Obligations.ConversionsAndTypedBlocks
  intro s sc m w k b a d n x fmt e0 desc mode k' Done
  refine ⟨fun h => ?_, fun h => ⟨fun hok => ?_, fun hok => ?_⟩, fun h => ⟨fun hok => ?_, fun hok => ?_⟩⟩
  · exact ⟨_, _, issueVec_does (rfl : _ = execVcvt ..) h, lanesAre_mergeLanes w _ _ fun j _ _ => rfl, flagsAre_laneFlags _ _ _⟩
  · exact ⟨_, _, tblock_does (rfl : _ = execVtbdec ..) h hok, lanesAre_mergeLanes w _ _ fun j _ _ => rfl, flagsAre_laneFlags _ _ _⟩
  · exact tblock_traps (rfl : _ = execVtbdec ..) h hok
  · refine ⟨_, _, tblock_does (rfl : _ = execVtbenc ..) h hok, fun q hq => ?_, fun i hi => ?_⟩
    · exact flagsAre_guarded _ _ (fun j => e0 + j < blockElems fmt) _ q hq
    · refine (element_build _ hi).trans ?_
      simp only [Bool.and_eq_true, decide_eq_true_eq, and_assoc]
      split
      · rfl
      · exact Nat.mod_eq_of_lt (element_lt _ _ _)
  · exact tblock_traps (rfl : _ = execVtbenc ..) h hok

end Sys2Proof.Machine
end

section
/-! SUPPORT. The memory instructions of a slot (07 R147, R148, 10 R241 to R246): what one access leaves beside its slot and in it,
and how an instruction of ready elements goes through them and retires. -/
namespace Sys2Proof.Machine

/-! ### A perform and a slot -/

/-- A perform at a home reads no slot and writes none. -/
theorem performMem_setSlot (s : State) (c : Nat) (i : Fin 4) (v : Slot) (op : MemOp) (key : Nat) :
    performMem (setSlot s c i v) op key = (setSlot (performMem s op key).1 c i v, (performMem s op key).2) := by
  have hpoison (pa : Nat) : isPoisoned (setSlot s c i v) pa = isPoisoned s pa := rfl
  have hblock (pa : Nat) : blockThrough (setSlot s c i v) pa key = blockThrough s pa key := rfl
  have hread (pa n : Nat) : readThrough (setSlot s c i v) pa n key = readThrough s pa n key := rfl
  have hdesc (pa : Nat) : descOf (setSlot s c i v) pa = descOf s pa := rfl
  have hwrite (pa : Nat) (x : Vec) (m : BitVec 64) : writeThrough (setSlot s c i v) pa key x m = setSlot (writeThrough s pa key x m) c i v := by
    unfold writeThrough
    cases hkey : isDram pa && blockKeyOf s pa != keyValue s key with
    | true => exact (if_pos hkey).trans rfl
    | false => exact (if_neg (Bool.eq_false_iff.mp hkey)).trans rfl
  have hset (u : State) (pa : Nat) (d : Desc) : setDesc (setSlot u c i v) pa d = setSlot (setDesc u pa d) c i v := rfl
  have hclear (u : State) (pa : Nat) : clearPoison (setSlot u c i v) pa = setSlot (clearPoison u pa) c i v := rfl
  cases op <;> simp only [performMem, hpoison, hblock, hread, hdesc, hwrite, hset, hclear] <;> (repeat' split) <;> rfl

/-- Destinations of the loads and stores: none, or bytes into a register. -/
def AccDst.plain : AccDst → Bool
  | .none => true
  | .x _ _ _ => true
  | .v _ _ _ => true
  | _ => false

/-- The slot in which the answer of a load has landed. -/
def Slot.landed (sl : Slot) (dst : AccDst) (r : MemRes) : Slot :=
  match dst with
  | .x rd n signed => sl.setReg ⟨.x, rd⟩ (ofWord (extendBytes r.value n signed))
  | .v rd mask shift => sl.setReg ⟨.v, rd⟩ (mergeBytes (sl.getV rd) (r.value <<< (8 * shift)) mask)
  | _ => sl

variable {u u' : State} {c : Nat} {i : Fin 4} {sl x : Slot} {g : Gating}

theorem completeDst_plain {dst : AccDst} {r : MemRes} (hr : r.poison = false) (hd : dst.plain = true) (epc va : Word) :
    completeDst (setSlot u c i sl) c i epc va dst r = setSlot u c i (sl.landed dst r) := by
  cases dst <;> simp_all [completeDst, AccDst.plain, Slot.landed, modSlot]

theorem AccDst.plain.holdsIssue {dst : AccDst} (h : dst.plain = true) : dst.holdsIssue = false := by
  cases dst <;> first | rfl | cases h

/-! ### One access -/

/-- What an access of the core's own slice leaves in its slot. -/
def Slot.performed (sl : Slot) (dst : AccDst) (r : MemRes) : Slot := ({ sl with token := none }.claim dst.claims).landed dst r

theorem leaveIssue_own {r : Req} (hh : homeOf r.pa = coreNode c) (hd : r.dst.plain = true)
    (hp : (performMem (returnToken u sl.token) r.op r.key).2.poison = false) :
    leaveIssue (setSlot u c i sl) c i g r = setSlot (performMem (returnToken u sl.token) r.op r.key).1 c i
      (sl.performed r.dst (performMem (returnToken u sl.token) r.op r.key).2) := by
  have htok : returnToken (setSlot u c i { sl with token := none }) sl.token
      = setSlot (returnToken u sl.token) c i { sl with token := none } := by cases sl.token <;> rfl
  simp only [leaveIssue, hh, if_true, getSlot_setSlot_self, setSlot_setSlot, htok, performAt, performMem_setSlot, hp, modSlot,
    Bool.false_eq_true, if_false, completeDst_plain hp hd, Slot.performed]

/-- The access that stands outstanding in a slot. -/
def leftAccess (id : Nat) (g : Gating) (epc : Word) (r : Req) : Access :=
  ⟨id, homeOf r.pa, g.load, g.store, g.acquire || g.sc, r.va, epc, r.dst⟩

/-- The state in which the request of an access stands in the queue of its pair. -/
def requested (u : State) (c : Nat) (i : Fin 4) (g : Gating) (sl : Slot) (r : Req) : State :=
  enqueue { u with nextId := u.nextId + 1 } (coreNode c) (homeOf r.pa)
    { newAccess r.op.flits sl.ctx r.va (r.op.body r.key ⟨c, i, u.nextId, sl.token⟩) with opx := g.code * 32 }

theorem leaveIssue_away {r : Req} (hh : homeOf r.pa ≠ coreNode c) :
    leaveIssue (setSlot u c i sl) c i g r = setSlot (requested u c i g sl r) c i
      { sl.claim r.dst.claims with accs := sl.accs ++ [leftAccess u.nextId g sl.pc r], token := none } := by
  have hset (v : Slot) : setSlot { setSlot u c i sl with nextId := u.nextId + 1 } c i v
      = setSlot (setSlot { u with nextId := u.nextId + 1 } c i sl) c i v := rfl
  simp only [leaveIssue, hh, if_false, getSlot_setSlot_self, setSlot_nextId, hset, setSlot_setSlot]
  rfl

/-! ### The elements of an instruction -/

/-- An element that is aligned and translated in a slot. -/
def Elem.fits (u : State) (c ctx : Nat) (e : Elem) : Prop :=
  e.va.toNat % e.size = 0 ∧ ∃ pa key, translate u (clusterOf c) ctx e.va e.kind = .ok pa key

theorem checkUnit_fits {ctx : Nat} : ∀ {es : List Elem}, (∀ e ∈ es, e.fits u c ctx) → checkUnit u (clusterOf c) ctx es = .ok
  | [], _ => rfl
  | e :: es, h => by
    obtain ⟨ha, pa, key, ht⟩ := h e (List.mem_cons_self ..)
    simp only [checkUnit, ha, ht, bne_self_eq_false, Bool.false_eq_true, if_false]
    exact checkUnit_fits fun x hx => h x (List.mem_cons_of_mem _ hx)

theorem keepPlace_false (sl : Slot) (n : Nat) : keepPlace sl false n = sl := rfl

/-- Whether the elements after one begin with another unit of restart (R160). -/
def beginsUnit (e : Elem) : List Elem → Bool
  | y :: _ => y.idx % 64 != e.idx % 64
  | [] => true

/-- The first of elements that fit leaves, and the next is at issue. -/
theorem runElems_cons {multi begun check : Bool} {e : Elem} {rest : List Elem} {pa key : Nat}
    (hfit : ∀ y ∈ e :: rest, y.fits u c sl.ctx) (ht : translate u (clusterOf c) sl.ctx e.va e.kind = .ok pa key)
    (hsc : g.sc = true → sl.token = some (seqrOf c sl.act g.scope))
    (hl : leaveIssue (setSlot u c i (keepPlace sl (multi && begun) (e.idx % 64))) c i g ⟨e.op pa, key, pa, e.va, e.dst⟩ = setSlot u' c i x)
    (hx : x.status = .running) :
    runElems c i g multi (setSlot u c i sl) begun check (e :: rest)
      = runElems c i g multi (setSlot u' c i x) true (beginsUnit e rest) rest := by
  have hunit : (if check then checkUnit u (clusterOf c) sl.ctx (e :: rest.takeWhile fun y => y.idx % 64 == e.idx % 64) else .ok) = .ok := by
    split
    · refine checkUnit_fits fun y hy => hfit y ?_
      rcases List.mem_cons.mp hy with rfl | hy
      · exact List.mem_cons_self ..
      · exact List.mem_cons_of_mem _ (List.takeWhile_sublist _ |>.mem hy)
    · rfl
  have hcheck (es : List Elem) : checkUnit (setSlot u c i sl) (clusterOf c) sl.ctx es = checkUnit u (clusterOf c) sl.ctx es := by
    induction es with
    | nil => rfl
    | cons y ys ih => 
      simp only [checkUnit, ih]
      rfl
  have htok : (g.sc && sl.token != some (seqrOf c sl.act g.scope)) = false := by
    cases hg : g.sc with
    | false => rfl
    | true => simp [hsc hg]
  have hkeep : (if multi && begun then setSlot (setSlot u c i sl) c i (keepPlace sl true (e.idx % 64)) else setSlot u c i sl)
      = setSlot u c i (keepPlace sl (multi && begun) (e.idx % 64)) := by
    cases multi && begun with
    | true => exact setSlot_setSlot ..
    | false => rfl
  have ht' : translate (setSlot u c i sl) (clusterOf c) sl.ctx e.va e.kind = .ok pa key := ht
  simp only [runElems, getSlot_setSlot_self, hcheck, hunit, ht', htok, hkeep, hl, hx, Bool.false_eq_true, if_false, beq_self_eq_true, if_true]
  cases rest <;> rfl

/-! ### The instruction -/

/-- The slot after its memory instruction has issued, with its destinations claimed. -/
theorem memInstr_done {s : State} {multi : Bool} {dsts : List RegRef} {es : List Elem} (hg : gate c sl g = none) (ha : sl.active = false)
    (hr : runElems c i g multi (setSlot s c i sl) false true es = (setSlot u c i x, true)) :
    memInstr s c i sl g multi dsts es
      = retire (setSlot u c i { x.claim dsts with active := false, nextReg := 0 }) c i 0 (sl.pc + 4) := by
  simp only [memInstr, hg, ha, Bool.false_eq_true, if_false, hr, modSlot, getSlot_setSlot_self, setSlot_setSlot]

end Sys2Proof.Machine
end

section
/-! SUPPORT. The memory instructions of the current slot in the terms of the statements (10 R241): what an instruction of one access comes
to, and the forms of the scalar accesses (07 R151 to R155). -/
namespace Sys2Proof.Machine

/-! ### Instructions that go through elements -/

/-- Once it issues, an instruction goes through these elements. -/
def IsMemInstr (i : Instr) (s : State) (srcs dsts : List RegRef) (g : Gating) (multi : Bool) (es : List Elem) : Prop :=
  canIssue s srcs dsts = true → exec i s = .next (memInstr s.settled s.curCore s.curSlot s.found g multi dsts es)

variable {s u : State} {i : Instr} {srcs dsts : List RegRef} {g : Gating}

theorem ungated_active (h : ungated s g = true) : s.found.active = false := by
  simp only [ungated, Bool.and_eq_true, Bool.not_eq_true'] at h
  simpa [State.found] using h.1.1

theorem ungated_gate (h : ungated s g = true) : gate s.curCore s.found g = none := by
  simp only [ungated, Bool.and_eq_true, Option.isNone_iff_eq_none] at h
  exact h.1.2

theorem ungated_token (h : ungated s g = true) (hg : g.sc = true) : s.found.token = some (seqrOf s.curCore s.found.act g.scope) := by
  simp only [ungated, Bool.and_eq_true, Bool.or_eq_true, hg, Bool.not_true, Bool.false_eq_true, false_or, beq_iff_eq] at h
  simpa [State.found] using h.2

theorem canIssue_found (h : canIssue s srcs dsts = true) : s.found.status = .running := by
  rw [State.found, Slot.settle_status]
  exact canIssue_running h

/-- An instruction of which every element has left retires. -/
theorem IsMemInstr.does {multi : Bool} {es : List Elem} {x : Slot} (h : IsMemInstr i s srcs dsts g multi es) (hc : canIssue s srcs dsts = true)
    (hu : ungated s g = true) (hcore : u.curCore = s.curCore) (hslot : u.curSlot = s.curSlot)
    (hr : runElems s.curCore s.curSlot g multi s.settled false true es = (setSlot u s.curCore s.curSlot x, true)) :
    Does i s fun t => Retires u t 0 (s.cur.pc + 4) { x.claim dsts with active := false, nextReg := 0 } := by
  have hsettled : setSlot s.settled s.curCore s.curSlot s.found = s.settled := setSlot_setSlot ..
  refine ⟨_, (h hc).trans (congrArg Host.Outcome.next (memInstr_done (ungated_gate hu) (ungated_active hu) (hsettled.symm ▸ hr))), ?_⟩
  rw [← hcore, ← hslot, found_pc]
  exact retires_retire u _ 0 (s.cur.pc + 4)

/-! ### One access -/

/-- Destinations claimed with an access, and then with its instruction. -/
theorem claim_claim {sl : Slot} {as bs : List RegRef} (h : ∀ r ∈ as, r ∈ bs) : (sl.claim as).claim bs = sl.claim bs := by
  simp only [Slot.claim, List.map_map]
  congr 1
  refine List.map_congr_left fun p _ => ?_
  by_cases hp : p.reg ∈ as
  · simp [hp, h _ hp]
  · simp [hp]

section
variable {e : Elem} {pa key : Nat} (h : IsMemInstr i s srcs dsts g false [e]) (hc : canIssue s srcs dsts = true) (hu : ungated s g = true)
  (ha : e.va.toNat % e.size = 0) (ht : s.trans e.va e.kind = .ok pa key)
include h hc hu ha ht

/-- An instruction of one access retires once the access has left. -/
theorem IsMemInstr.one_does {x : Slot} (hcore : u.curCore = s.curCore) (hslot : u.curSlot = s.curSlot) (hx : x.status = .running)
    (hl : leaveIssue s.settled s.curCore s.curSlot g ⟨e.op pa, key, pa, e.va, e.dst⟩ = setSlot u s.curCore s.curSlot x) :
    Does i s fun t => Retires u t 0 (s.cur.pc + 4) { x.claim dsts with active := false, nextReg := 0 } := by
  have hctx : s.found.ctx = s.cur.ctx := by simp [State.found]
  have htr : translate s (clusterOf s.curCore) s.found.ctx e.va e.kind = .ok pa key := by rw [hctx]; exact ht
  refine h.does hc hu hcore hslot (runElems_cons ?_ htr (ungated_token hu) hl hx)
  intro y hy
  rw [List.mem_singleton] at hy
  exact hy ▸ ⟨ha, pa, key, htr⟩

/-- A request for another home stands in its queue, and the access is outstanding. -/
theorem IsMemInstr.request (hd : e.dst.plain = true) (hclaims : ∀ r ∈ e.dst.claims, r ∈ dsts) (hh : homeOf pa ≠ s.node) :
    Does i s fun t => Retires (requested s s.curCore s.curSlot g s.found ⟨e.op pa, key, pa, e.va, e.dst⟩) t 0 (s.cur.pc + 4)
      { (s.found.claim (if e.dst.holdsIssue then [] else dsts)).left with
        accs := s.cur.accs ++ [leftAccess s.nextId g s.cur.pc ⟨e.op pa, key, pa, e.va, e.dst⟩] } := by
  have hslot : ({ { s.found.claim e.dst.claims with
        accs := s.found.accs ++ [leftAccess s.nextId g s.found.pc ⟨e.op pa, key, pa, e.va, e.dst⟩], token := none }.claim dsts with
      active := false, nextReg := 0 } : Slot) = { (s.found.claim (if e.dst.holdsIssue then [] else dsts)).left with
        accs := s.cur.accs ++ [leftAccess s.nextId g s.cur.pc ⟨e.op pa, key, pa, e.va, e.dst⟩] } := by
    rw [AccDst.plain.holdsIssue hd, found_pc, if_neg Bool.false_ne_true, ← claim_claim (sl := s.found) hclaims, show s.found.accs = s.cur.accs by simp [State.found]]
    rfl
  rw [← hslot]
  exact h.one_does hc hu ha ht rfl rfl (canIssue_found hc) (leaveIssue_away hh)

/-- An access of the core's own slice performs, and its answer is in the slot. -/
theorem IsMemInstr.perform (hd : e.dst.plain = true) (hh : homeOf pa = s.node) {r : MemRes}
    (hp : performMem (returnToken s s.cur.token) (e.op pa) key = (u, r)) (hr : r.poison = false)
    (hcore : u.curCore = s.curCore) (hslot : u.curSlot = s.curSlot) (hx : (s.found.performed e.dst r).status = .running) :
    Does i s fun t => Retires u t 0 (s.cur.pc + 4) { (s.found.performed e.dst r).claim dsts with active := false, nextReg := 0 } := by
  have htok : s.found.token = s.cur.token := by simp [State.found]
  have hl := leaveIssue_own (u := s) (c := s.curCore) (i := s.curSlot) (sl := s.found) (g := g)
    (r := ⟨e.op pa, key, pa, e.va, e.dst⟩) hh hd (by rw [htok, hp]; exact hr)
  rw [htok, hp] at hl
  exact h.one_does hc hu ha ht hcore hslot hx hl

end

end Sys2Proof.Machine
end

section
/-! SUPPORT. The scalar accesses (07 R151 to R155) as instructions of one access, and the statement on those that go to another home. -/
namespace Sys2Proof.Machine

variable {s : State} {i : Instr}

/-! ### Their forms -/

@[simp] theorem found_oscope (s : State) : s.found.oscope = s.cur.oscope := by simp [State.found]
@[simp] theorem found_ctx (s : State) : s.found.ctx = s.cur.ctx := by simp [State.found]
@[simp] theorem found_token (s : State) : s.found.token = s.cur.token := by simp [State.found]

/-- The access of a load, a store, an LDTAG, an STTAG and an atomic, where the slot is s.found. -/
def loadAccess (s : State) (n : Nat) (signed : Bool) (imm : BitVec 13) (a d : BitVec 5) : Elem :=
  ⟨0, s.found.rx a + imm.signExtend 64, n, .read, fun pa => .read pa n, dstX d n signed⟩
def storeAccess (s : State) (n : Nat) (imm : BitVec 13) (b a : BitVec 5) : Elem :=
  ⟨0, s.found.rx a + imm.signExtend 64, n, .write, fun pa => .write pa (ofWord (s.found.rx b)) (byteMask n), .none⟩
def ldtagAccess (s : State) (a d : BitVec 5) : Elem := ⟨0, s.found.rx a, 64, .read, fun pa => .readDesc pa, dstX d 2 false⟩
def sttagAccess (s : State) (b a : BitVec 5) : Elem :=
  ⟨0, s.found.rx a, 64, .write, fun pa => .writeDesc pa ((s.found.rx b).setWidth 16), .none⟩
/-- The bytes of an atomic. -/
def wordBytes (w64 : Bool) : Nat := if w64 then 8 else 4
def atomicAccess (s : State) (w64 : Bool) (op : Nat → MemOp) (a d : BitVec 5) : Elem :=
  ⟨0, s.found.rx a, wordBytes w64, .write, op, dstX d (wordBytes w64) true⟩

variable {o fail : Ord} {scp : Scope} {imm : BitVec 13} {a b d : BitVec 5} {n : Nat} {signed w64 : Bool} {op : RmwOp}

theorem load_isMemInstr (he : exec i s = load n signed o imm a d s) :
    IsMemInstr i s [xr a] [xr d] (gating o s.cur.oscope true false) false [loadAccess s n signed imm a d] := fun h => by
  rw [he, load, issue_can h, found_oscope]
  rfl

theorem store_isMemInstr (he : exec i s = store n o imm b a s) :
    IsMemInstr i s [xr a, xr b] [] (gating o s.cur.oscope false true) false [storeAccess s n imm b a] := fun h => by
  rw [he, store, issue_can h, found_oscope]
  rfl

theorem ldtag_isMemInstr (he : exec i s = execLdtag o a d s) :
    IsMemInstr i s [xr a] [xr d] (gating o s.cur.oscope true false) false [ldtagAccess s a d] := fun h => by
  rw [he, execLdtag, issue_can h, found_oscope]
  rfl

theorem sttag_isMemInstr (he : exec i s = execSttag o b a s) :
    IsMemInstr i s [xr a, xr b] [] (gating o s.cur.oscope false true) false [sttagAccess s b a] := fun h => by
  rw [he, execSttag, issue_can h, found_oscope]
  rfl

theorem amo_isMemInstr (he : exec i s = amo op o scp w64 b a d s) : IsMemInstr i s [xr a, xr b] [xr d] (gating o scp true true) false
    [atomicAccess s w64 (fun pa => .rmw pa (wordBytes w64) op (s.found.rx b)) a d] := fun h => by
  rw [he, amo, issue_can h]
  rfl

theorem cas_isMemInstr (he : exec i s = cas fail o scp w64 b a d s) : IsMemInstr i s [xr a, xr b, xr d] [xr d] (casGating o fail scp) false
    [atomicAccess s w64 (fun pa => .cas pa (wordBytes w64) (s.found.rx d) (s.found.rx b) (failCode fail)) a d] := fun h => by
  rw [he, cas, issue_can h]
  rfl

/-! ### Their destinations -/

theorem dstX_plain (d : BitVec 5) (n : Nat) (signed : Bool) : (dstX d n signed).plain = true := by
  unfold dstX
  split <;> rfl

theorem dstX_claims (d : BitVec 5) (n : Nat) (signed : Bool) : ∀ r ∈ (dstX d n signed).claims, r ∈ [xr d] := by
  unfold dstX
  split
  · exact fun _ h => absurd h List.not_mem_nil
  · exact fun _ h => h

/-! ### Requests to other homes -/

/-- The request of an instruction of one access, as the statement says it. -/
theorem IsMemInstr.requestLeaves {srcs dsts : List RegRef} {g : Gating} {e : Elem} (h : IsMemInstr i s srcs dsts g false [e])
    (hd : e.dst.plain = true) (hclaims : ∀ r ∈ e.dst.claims, r ∈ dsts) :
    RequestLeaves i s srcs dsts g e.va e.size e.kind e.op e.dst := by
  intro hc hu ha pa key ht hh
  have := h.request hc hu ha ht hd hclaims hh
  rwa [requested, found_ctx, found_token] at this

/-- Settles O20: each form is an instruction of one access, whose request leaves. -/
theorem requestsToOtherHomes : Obligations.RequestsToOtherHomes := by
  unfold Obligations.RequestsToOtherHomes
  intro s o scp w64 imm b a d va rd L S n A C
  have hL {i : Instr} {n : Nat} {signed : Bool} (he : exec i s = load n signed o imm a d s) : L i n signed :=
    (load_isMemInstr he).requestLeaves (dstX_plain ..) (dstX_claims _ _ _)
  have hS {i : Instr} {n : Nat} (he : exec i s = store n o imm b a s) : S i n :=
    (store_isMemInstr he).requestLeaves rfl (fun _ h => h)
  have hA {i : Instr} {op : RmwOp} (he : exec i s = amo op o scp w64 b a d s) : A i op :=
    (amo_isMemInstr he).requestLeaves (dstX_plain ..) (dstX_claims _ _ _)
  have hC {i : Instr} {fail : Ord} (he : exec i s = cas fail o scp w64 b a d s) : C i fail :=
    (cas_isMemInstr he).requestLeaves (dstX_plain ..) (dstX_claims _ _ _)
  exact ⟨hL (rfl : _ = execLdb ..), hL (rfl : _ = execLdh ..), hL (rfl : _ = execLdw ..), hL (rfl : _ = execLdd ..),
    hL (rfl : _ = execLdbu ..), hL (rfl : _ = execLdhu ..), hL (rfl : _ = execLdwu ..),
    hS (rfl : _ = execStb ..), hS (rfl : _ = execSth ..), hS (rfl : _ = execStw ..), hS (rfl : _ = execStd ..),
    (ldtag_isMemInstr rfl).requestLeaves (dstX_plain ..) (dstX_claims _ _ _), (sttag_isMemInstr rfl).requestLeaves rfl (fun _ h => h),
    hA (rfl : _ = execAmoadd ..), hA (rfl : _ = execAmoand ..), hA (rfl : _ = execAmoor ..), hA (rfl : _ = execAmoxor ..),
    hA (rfl : _ = execAmomin ..), hA (rfl : _ = execAmomax ..), hA (rfl : _ = execAmominu ..), hA (rfl : _ = execAmomaxu ..),
    hA (rfl : _ = execAmoswap ..), hC (rfl : _ = execCasFailRlx ..), hC (rfl : _ = execCasFailAcq ..), hC (rfl : _ = execCasFailSc ..)⟩

end Sys2Proof.Machine
end

section
/-! SUPPORT. The scalar accesses that stop (07 R147, R148, 10 R246, 11 R268), and the statement on them. -/
namespace Sys2Proof.Machine

variable {s : State} {i : Instr} {srcs dsts : List RegRef} {g : Gating} {e : Elem}

theorem getSlot_settled (s : State) : getSlot s.settled s.curCore s.curSlot = s.found := settled_cur s
theorem setSlot_settled (s : State) (v : Slot) : setSlot s.settled s.curCore s.curSlot v = s.setCur v := setSlot_setSlot ..
theorem setSlot_settled_found (s : State) : setSlot s.settled s.curCore s.curSlot s.found = s.settled := setSlot_setSlot ..

/-- An instruction of one access does what becomes of the access, where that stops it. -/
theorem IsMemInstr.stopsWith {t : State} (h : IsMemInstr i s srcs dsts g false [e]) (hc : canIssue s srcs dsts = true)
    (ha : s.found.active = false) (hg : gate s.curCore s.found g = none)
    (hr : runElems s.curCore s.curSlot g false s.settled false true [e] = (t, false)) : exec i s = .next t := by
  rw [h hc]
  simp only [memInstr, hg, ha, setSlot_settled_found, hr, Bool.false_eq_true, if_false]

/-- What the check of one access finds: MISALIGN, then ACCESS, then a miss (R147, R148). -/
theorem checkUnit_one (s : State) (cluster ctx : Nat) (e : Elem) : checkUnit s cluster ctx [e] =
    if e.va.toNat % e.size ≠ 0 then .misaligned e.va
    else match translate s cluster ctx e.va e.kind with
      | .bad => .bad e.va
      | .miss => .miss e.va e.kind
      | .ok _ _ => .ok := by
  simp only [checkUnit, bne_iff_ne] <;> rfl


section
variable (h : IsMemInstr i s srcs dsts g false [e]) (hc : canIssue s srcs dsts = true) (ha : s.found.active = false)
  (hg : gate s.curCore s.found g = none)
include h hc ha hg

theorem IsMemInstr.misaligned (hv : e.va.toNat % e.size ≠ 0) : Traps i s 0x03 e.va := by
  refine h.stopsWith hc ha hg ?_
  have hcheck : checkUnit s.settled (clusterOf s.curCore) s.found.ctx [e] = .misaligned e.va := by rw [checkUnit_one, if_pos hv]
  simp only [runElems, getSlot_settled, List.takeWhile_nil, hcheck, if_true, Bool.and_false, keepPlace_false, setSlot_settled_found, found_pc]
  rfl

variable (hv : e.va.toNat % e.size = 0)
include hv

theorem IsMemInstr.notPermitted (ht : s.trans e.va e.kind = .bad) : Traps i s 0x04 e.va := by
  refine h.stopsWith hc ha hg ?_
  have htr : translate s.settled (clusterOf s.curCore) s.found.ctx e.va e.kind = .bad := by rw [found_ctx]; exact ht
  have hcheck : checkUnit s.settled (clusterOf s.curCore) s.found.ctx [e] = .bad e.va := by rw [checkUnit_one, if_neg (not_not_intro hv), htr]
  simp only [runElems, getSlot_settled, List.takeWhile_nil, hcheck, if_true, Bool.and_false, keepPlace_false, setSlot_settled_found, found_pc]
  rfl

theorem IsMemInstr.walks (ht : s.trans e.va e.kind = .miss) :
    exec i s = .next (s.setCur { s.found with status := .walk e.va e.kind false, stall := none }) := by
  refine h.stopsWith hc ha hg ?_
  have htr : translate s.settled (clusterOf s.curCore) s.found.ctx e.va e.kind = .miss := by rw [found_ctx]; exact ht
  have hcheck : checkUnit s.settled (clusterOf s.curCore) s.found.ctx [e] = .miss e.va e.kind := by rw [checkUnit_one, if_neg (not_not_intro hv), htr]
  simp only [runElems, getSlot_settled, List.takeWhile_nil, hcheck, if_true, keepPlace_false, setSlot_settled]

/-- An sc access without its token waits for the sequencer (R246). -/
theorem IsMemInstr.sequences {pa key : Nat} (ht : s.trans e.va e.kind = .ok pa key) (hsc : g.sc = true)
    (htok : s.cur.token ≠ some (seqrOf s.curCore s.cur.act g.scope)) :
    exec i s = .next (s.setCur { s.found with status := .token (seqrOf s.curCore s.cur.act g.scope), stall := none }) := by
  refine h.stopsWith hc ha hg ?_
  have htr : translate s.settled (clusterOf s.curCore) s.found.ctx e.va e.kind = .ok pa key := by rw [found_ctx]; exact ht
  have hcheck : checkUnit s.settled (clusterOf s.curCore) s.found.ctx [e] = .ok := by rw [checkUnit_one, if_neg (not_not_intro hv), htr]
  have hact : s.found.act = s.cur.act := by simp [State.found]
  have hq : (g.sc && s.cur.token != some (seqrOf s.curCore s.cur.act g.scope)) = true := by
    rw [hsc, Bool.true_and]
    exact bne_iff_ne.mpr htok
  simp only [runElems, getSlot_settled, List.takeWhile_nil, hcheck, htr, found_token, hact, hq, if_true, keepPlace_false, setSlot_settled]

end

/-- The access of an instruction of one access stops it as the statement says. -/
theorem IsMemInstr.accessStops (h : IsMemInstr i s srcs dsts g false [e]) : AccessStops i s srcs dsts g e.va e.size e.kind := by
  intro hc hactive hg
  have ha : s.found.active = false := by simpa [State.found] using hactive
  exact ⟨h.misaligned hc ha hg, h.notPermitted hc ha hg, h.walks hc ha hg, fun hv ⟨_, _, ht⟩ => h.sequences hc ha hg hv ht⟩

/-- Settles O24: each form is an instruction of one access. -/
theorem accessesThatStop : Obligations.AccessesThatStop := by
  unfold Obligations.AccessesThatStop
  intro s o scp w64 imm b a d va L S n A C
  have hL {i : Instr} {n : Nat} {signed : Bool} (he : exec i s = load n signed o imm a d s) : L i n := (load_isMemInstr he).accessStops
  have hS {i : Instr} {n : Nat} (he : exec i s = store n o imm b a s) : S i n := (store_isMemInstr he).accessStops
  have hA {i : Instr} {op : RmwOp} (he : exec i s = amo op o scp w64 b a d s) : A i := (amo_isMemInstr he).accessStops
  have hC {i : Instr} {fail : Ord} (he : exec i s = cas fail o scp w64 b a d s) : C i fail := (cas_isMemInstr he).accessStops
  exact ⟨hL (rfl : _ = execLdb ..), hL (rfl : _ = execLdh ..), hL (rfl : _ = execLdw ..), hL (rfl : _ = execLdd ..),
    hL (rfl : _ = execLdbu ..), hL (rfl : _ = execLdhu ..), hL (rfl : _ = execLdwu ..),
    hS (rfl : _ = execStb ..), hS (rfl : _ = execSth ..), hS (rfl : _ = execStw ..), hS (rfl : _ = execStd ..),
    (ldtag_isMemInstr rfl).accessStops, (sttag_isMemInstr rfl).accessStops,
    hA (rfl : _ = execAmoadd ..), hA (rfl : _ = execAmoand ..), hA (rfl : _ = execAmoor ..), hA (rfl : _ = execAmoxor ..),
    hA (rfl : _ = execAmomin ..), hA (rfl : _ = execAmomax ..), hA (rfl : _ = execAmominu ..), hA (rfl : _ = execAmomaxu ..),
    hA (rfl : _ = execAmoswap ..), hC (rfl : _ = execCasFailRlx ..), hC (rfl : _ = execCasFailAcq ..), hC (rfl : _ = execCasFailSc ..)⟩

end Sys2Proof.Machine
end

section
/-! SUPPORT. The bytes that the core's own slice gives and takes (01 R6, 07 R151 to R154), and the statements on loads, stores and atomics
of the own slice. -/
namespace Sys2Proof.Machine

/-! ### Bytes read -/

theorem memRead_lt (m : List Host.Cell) (n : Nat) : ∀ a, memRead m a n < 256 ^ n := by
  induction n with
  | zero => exact fun _ => Nat.one_pos
  | succ n ih =>
    intro a
    have hb := (memByte m a).isLt
    have hr := ih (a + 1)
    rw [memRead, Nat.pow_succ']
    omega

theorem memRead_add (m : List Host.Cell) (k n : Nat) : ∀ a, memRead m a (k + n) = memRead m a k + 256 ^ k * memRead m (a + k) n := by
  induction k with
  | zero => intro a; simp [memRead]
  | succ k ih =>
    intro a
    rw [show k + 1 + n = k + n + 1 by omega, memRead, memRead, ih, Nat.pow_succ', show a + 1 + k = a + (k + 1) by omega]
    ring

theorem memRead_one (m : List Host.Cell) (a : Nat) : memRead m a 1 = (memByte m a).toNat := by simp [memRead]

theorem toNat_append_word {n k : Nat} (hi : BitVec n) (lo : BitVec k) : (hi ++ lo).toNat = lo.toNat + 2 ^ k * hi.toNat := by
  rw [BitVec.toNat_append, ← Nat.shiftLeft_add_eq_or_of_lt lo.isLt, Nat.shiftLeft_eq]
  ring

/-- Twice as many bytes are two words, the lower first (R6). -/
theorem memRead_append {m : List Host.Cell} {a n k : Nat} {lo hi : BitVec k} (hk : k = 8 * n) (hlo : memRead m a n = lo.toNat)
    (hhi : memRead m (a + n) n = hi.toNat) : memRead m a (n + n) = (hi ++ lo).toNat := by
  have hpow : 256 ^ n = 2 ^ k := by rw [hk, Nat.pow_mul]
  rw [memRead_add, hlo, hhi, toNat_append_word, hpow]

/-- n bytes as a register value. -/
theorem extendBytes_signed {v : Vec} {n k : Nat} {x : BitVec k} (hk : k = 8 * n) (h : v.toNat = x.toNat) :
    extendBytes v n true = x.signExtend 64 := by
  subst hk
  have hx : x.toNat % 256 ^ n = x.toNat := Nat.mod_eq_of_lt (lt_of_lt_of_eq x.isLt (Nat.pow_mul 2 8 n))
  simp only [extendBytes, h, hx, sintOf, BitVec.ofNat_toNat, BitVec.setWidth_eq, if_true]
  rfl

theorem extendBytes_unsigned {v : Vec} {n k : Nat} {x : BitVec k} (hk : k = 8 * n) (h : v.toNat = x.toNat) :
    extendBytes v n false = x.setWidth 64 := by
  subst hk
  have hx : x.toNat % 256 ^ n = x.toNat := Nat.mod_eq_of_lt (lt_of_lt_of_eq x.isLt (Nat.pow_mul 2 8 n))
  simp only [extendBytes, h, hx, Bool.false_eq_true, if_false, BitVec.ofNat_toNat]

/-! ### Bytes written -/

/-- A byte of memory after a masked write of a value. -/
theorem memByte_maskedWrite {m : List Host.Cell} (hw : Memory.wf m = true) (pa : Nat) (v : Vec) (mask : BitVec 64) (x : Nat) :
    memByte (memWrite m pa v.toNat mask.toNat 64) x
      = if pa ≤ x ∧ x < pa + 64 ∧ mask.getLsbD (x - pa) = true then v.extractLsb' (8 * (x - pa)) 8 else memByte m x := by
  by_cases hin : pa ≤ x ∧ x < pa + 64
  · obtain ⟨j, rfl⟩ := Nat.exists_eq_add_of_le hin.1
    have hbyte : BitVec.ofNat 8 (v.toNat / 256 ^ j) = v.extractLsb' (8 * j) 8 := by
      refine BitVec.eq_of_toNat_eq ?_
      rw [BitVec.extractLsb'_toNat, Nat.shiftRight_eq_div_pow, BitVec.toNat_ofNat, Nat.pow_mul]
    have hmask : (mask.toNat / 2 ^ j % 2 = 1) ↔ mask.getLsbD j = true := by
      rw [BitVec.getLsbD, Nat.testBit_eq_decide_div_mod_eq, decide_eq_true_iff]
    rw [memByte_memWrite 64 pa _ _ j hw (by omega), Nat.add_sub_cancel_left, hbyte]
    simp only [hmask, hin, true_and]
  · rw [memByte_memWrite_ne 64 pa _ _ x hw (by omega), if_neg (fun h => hin ⟨h.1, h.2.1⟩)]

theorem toNat_byteMask {n : Nat} (hn : n ≤ 64) : (byteMask n).toNat = 2 ^ n - 1 := by
  have := Nat.pow_le_pow_right (n := 2) (by decide) hn
  have := Nat.two_pow_pos n
  rw [byteMask, BitVec.toNat_ofNat, Nat.mod_eq_of_lt (by omega)]

theorem getLsbD_byteMask {n : Nat} (hn : n ≤ 64) (j : Nat) : (byteMask n).getLsbD j = decide (j < n) := by
  rw [BitVec.getLsbD, toNat_byteMask hn, Nat.testBit_two_pow_sub_one]

theorem byteMask_ne {n : Nat} (hn : n < 64) : byteMask n ≠ byteMask 64 := fun h => by
  have hbit : (byteMask n).getLsbD n = (byteMask 64).getLsbD n := by rw [h]
  rw [getLsbD_byteMask hn.le, getLsbD_byteMask le_rfl, decide_eq_decide] at hbit
  exact absurd (hbit.mpr hn) (Nat.lt_irrefl n)

/-- A byte of memory after a write of n bytes. -/
theorem memByte_write {m : List Host.Cell} (hw : Memory.wf m = true) (pa : Nat) (v : Vec) {n : Nat} (hn : n ≤ 64) (x : Nat) :
    memByte (memWrite m pa v.toNat (byteMask n).toNat 64) x
      = if pa ≤ x ∧ x < pa + n then v.extractLsb' (8 * (x - pa)) 8 else memByte m x := by
  rw [memByte_maskedWrite hw, getLsbD_byteMask hn]
  simp only [decide_eq_true_eq]
  congr 1
  simp only [eq_iff_iff]
  omega

theorem memWrite_noMask (n : Nat) : ∀ (m : List Host.Cell) (a v : Nat), memWrite m a v 0 n = m := by
  induction n with
  | zero => exact fun _ _ _ => rfl
  | succ n ih => exact fun m a v => ih m (a + 1) (v / 256)

/-- A write under a mask of n bytes is a write of n bytes. -/
theorem memWrite_lowMask (n k : Nat) : ∀ (m : List Host.Cell) (a v : Nat),
    memWrite m a v (2 ^ n - 1) (n + k) = memWrite m a v (2 ^ n - 1) n := by
  induction n with
  | zero => exact fun m a v => memWrite_noMask (0 + k) m a v
  | succ n ih =>
    intro m a v
    have hhalf : (2 ^ (n + 1) - 1) / 2 = 2 ^ n - 1 := by omega
    rw [show n + 1 + k = n + k + 1 by omega, memWrite, memWrite, hhalf, ih]

/-- The bytes written are read back. -/
theorem memRead_write {m : List Host.Cell} (hw : Memory.wf m = true) (pa : Nat) (v : Vec) {n : Nat} (hn : n ≤ 64) :
    memRead (memWrite m pa v.toNat (byteMask n).toNat 64) pa n = v.toNat % 256 ^ n := by
  obtain ⟨k, hk⟩ := Nat.exists_eq_add_of_le hn
  rw [toNat_byteMask hn, hk, memWrite_lowMask, memRead_memWrite_full n pa _ hw]

/-! ### Performs in the own slice -/

section
variable {s : State} {pa key : Nat}

theorem isDram_own (h : homeOf pa = s.node) : isDram pa = false := isDram_of_homeOf_core h

theorem readThrough_sram (h : isDram pa = false) (n : Nat) : readThrough s pa n key = BitVec.ofNat 512 (memRead s.mem pa n) := by
  simp only [readThrough, h, Bool.false_and, Bool.false_eq_true, if_false]

theorem writeThrough_sram (h : isDram pa = false) (v : Vec) (mask : BitVec 64) :
    writeThrough s pa key v mask = { s with mem := memWrite s.mem pa v.toNat mask.toNat 64 } := by
  simp only [writeThrough, h, Bool.false_and, Bool.false_eq_true, if_false]

theorem toNat_memRead (m : List Host.Cell) (pa : Nat) {n : Nat} (hn : n ≤ 64) : (BitVec.ofNat 512 (memRead m pa n) : Vec).toNat = memRead m pa n := by
  rw [BitVec.toNat_ofNat, Nat.mod_eq_of_lt]
  calc memRead m pa n < 256 ^ n := memRead_lt m n pa
    _ ≤ 256 ^ 64 := Nat.pow_le_pow_right (by decide) hn
    _ = 2 ^ 512 := (Nat.pow_mul 2 8 64).symm

@[simp] theorem returnToken_mem (q : Option Seqr) : (returnToken s q).mem = s.mem := by cases q <;> rfl
@[simp] theorem returnToken_descs (q : Option Seqr) : (returnToken s q).descs = s.descs := by cases q <;> rfl
@[simp] theorem returnToken_poisoned (q : Option Seqr) : (returnToken s q).poisoned = s.poisoned := by cases q <;> rfl
@[simp] theorem returnToken_curCore (q : Option Seqr) : (returnToken s q).curCore = s.curCore := by cases q <;> rfl
@[simp] theorem returnToken_curSlot (q : Option Seqr) : (returnToken s q).curSlot = s.curSlot := by cases q <;> rfl
@[simp] theorem isPoisoned_returnToken (q : Option Seqr) (pa : Nat) : isPoisoned (returnToken s q) pa = isPoisoned s pa := by cases q <;> rfl
@[simp] theorem descOf_returnToken (q : Option Seqr) (pa : Nat) : descOf (returnToken s q) pa = descOf s pa := by cases q <;> rfl

end

/-! ### The slot after its access has performed -/

/-- A register written in a slot, with a destination claimed. -/
theorem performed_dstX (sl : Slot) (d : BitVec 5) (n : Nat) (signed : Bool) (r : MemRes) :
    ({ (sl.performed (dstX d n signed) r).claim [xr d] with active := false, nextReg := 0 } : Slot)
      = ((sl.claim [xr d]).setReg (xr d) (ofWord (extendBytes r.value n signed))).left := by
  by_cases hd : d = 0
  · subst hd
    have hnone : dstX 0 n signed = .none := rfl
    rw [hnone, setReg_constant _ _ (rfl : (xr 0).constant = true), ← claim_claim (sl := sl) (fun _ h => absurd h List.not_mem_nil)]
    rfl
  · have hx : dstX d n signed = .x d.toNat n signed := if_neg hd
    have hlt : (xr d).n < 32 := d.isLt
    have hne : (xr d).n ≠ 0 := fun h => hd (BitVec.eq_of_toNat_eq h)
    have hset (y : Slot) (v : Vec) : y.setReg (xr d) v = { y with x := y.x.set d.toNat (v.setWidth 64) d.isLt } :=
      (dif_pos hlt).trans (if_neg hne)
    have hland (y : Slot) : y.landed (.x d.toNat n signed) r = y.setReg (xr d) (ofWord (extendBytes r.value n signed)) := rfl
    rw [hx, Slot.performed, hland, hset, hset, ← claim_claim (sl := sl) (fun _ h => h)]
    rfl

theorem performed_none (sl : Slot) (r : MemRes) : ({ (sl.performed .none r).claim [] with active := false, nextReg := 0 } : Slot) = sl.left := by
  rw [Slot.performed]
  have hclaim (y : Slot) : y.claim [] = y := by simp [Slot.claim]
  rw [show AccDst.none.claims = [] from rfl, hclaim]
  exact congrArg (fun y : Slot => ({ y with active := false, nextReg := 0 } : Slot)) (hclaim _)

theorem landed_status (sl : Slot) (dst : AccDst) (r : MemRes) : (sl.landed dst r).status = sl.status := by
  cases dst <;> simp [Slot.landed]

theorem performed_status (sl : Slot) (dst : AccDst) (r : MemRes) : (sl.performed dst r).status = sl.status := landed_status _ _ r

section
variable {s u : State} {i : Instr} {srcs dsts : List RegRef} {g : Gating} {e : Elem}

/-- An instruction of one access performs in the own slice as the statement says, where the perform leaves what it says. -/
theorem IsMemInstr.performsHere {P : Nat → State → Slot → Prop} (h : IsMemInstr i s srcs dsts g false [e]) (hd : e.dst.plain = true)
    (hp : ∀ pa key, homeOf pa = s.node → isPoisoned s pa = false → ∃ u r, performMem (returnToken s s.cur.token) (e.op pa) key = (u, r)
      ∧ r.poison = false ∧ u.curCore = s.curCore ∧ u.curSlot = s.curSlot
      ∧ P pa u { (s.found.performed e.dst r).claim dsts with active := false, nextReg := 0 }) :
    PerformsHere i s srcs dsts g e.va e.size e.kind P := by
  intro hc hu ha pa key ht hh hpoison
  obtain ⟨u, r, hperf, hr, hcore, hslot, hP⟩ := hp pa key hh hpoison
  have hx : (s.found.performed e.dst r).status = .running := (performed_status ..).trans (canIssue_found hc)
  obtain ⟨t, hexec, hret⟩ := h.perform hc hu ha ht hd hh hperf hr hcore hslot hx
  exact ⟨t, hexec, u, _, hret, hP⟩

end

end Sys2Proof.Machine
end

section
/-! SUPPORT. The statements on loads, stores and atomics of the core's own slice (07 R151 to R155, 01 R6). -/
namespace Sys2Proof.Machine

/-! ### Loads -/

section
variable {s : State} {i : Instr} {o : Ord} {imm : BitVec 13} {a b d : BitVec 5} {n : Nat}

/-- A load of the own slice, by what its bytes are as a register value. -/
theorem load_performs {signed : Bool} {v : Nat → Word} (he : exec i s = load n signed o imm a d s)
    (hv : ∀ pa, extendBytes (BitVec.ofNat 512 (memRead s.mem pa n)) n signed = v pa) :
    PerformsHere i s [xr a] [xr d] (gating o s.cur.oscope true false) (s.found.rx a + imm.signExtend 64) n .read fun pa u sl =>
      u = returnToken s s.cur.token ∧ sl = ((s.found.claim [xr d]).setReg (xr d) (ofWord (v pa))).left := by
  refine (load_isMemInstr he).performsHere (dstX_plain ..) fun pa key hh hp =>
    ⟨_, _, rfl, (isPoisoned_returnToken ..).trans hp, returnToken_curCore _, returnToken_curSlot _, rfl, ?_⟩
  rw [← hv pa, ← returnToken_mem s.cur.token, ← readThrough_sram (key := key) (isDram_own hh)]
  exact performed_dstX ..

theorem ldtag_performs : PerformsHere (.ldtag o a d) s [xr a] [xr d] (gating o s.cur.oscope true false) (s.found.rx a) 64 .read fun pa u sl =>
    u = returnToken s s.cur.token ∧ sl = ((s.found.claim [xr d]).setReg (xr d) (ofWord ((descOf s pa).setWidth 64))).left := by
  refine (ldtag_isMemInstr rfl).performsHere (dstX_plain ..) fun pa key hh hp =>
    ⟨_, _, rfl, (isPoisoned_returnToken ..).trans hp, returnToken_curCore _, returnToken_curSlot _, rfl, ?_⟩
  have hwide (x : Desc) : (x.setWidth 512).toNat = x.toNat := by
    rw [BitVec.toNat_setWidth, Nat.mod_eq_of_lt (lt_trans x.isLt (Nat.pow_lt_pow_right (by decide) (by decide)))]
  refine (performed_dstX ..).trans ?_
  rw [extendBytes_unsigned rfl (hwide _), descOf_returnToken]

end

/-- Settles O21: the value of each load is its bytes, lowest first. -/
theorem ownSliceLoads : Obligations.OwnSliceLoads := by
  unfold Obligations.OwnSliceLoads
  intro s o imm a d va L b h w
  have h1 (pa : Nat) : memRead s.mem pa 1 = (b pa 0).toNat := memRead_one ..
  have h1' (pa k : Nat) : memRead s.mem (pa + k) 1 = (b pa k).toNat := memRead_one ..
  have h2 (pa k : Nat) : memRead s.mem (pa + k) 2 = (h pa k).toNat := memRead_append rfl (h1' pa k) (h1' pa (k + 1))
  have h4 (pa k : Nat) : memRead s.mem (pa + k) 4 = (w pa k).toNat := memRead_append rfl (h2 pa k) (h2 pa (k + 2))
  have h8 (pa : Nat) : memRead s.mem pa 8 = (w pa 4 ++ w pa 0).toNat := memRead_append rfl (h4 pa 0) (h4 pa 4)
  have hn {n : Nat} (hn : n ≤ 64) (pa : Nat) : (BitVec.ofNat 512 (memRead s.mem pa n) : Vec).toNat = memRead s.mem pa n :=
    toNat_memRead s.mem pa hn
  refine ⟨load_performs (rfl : _ = execLdb ..) fun pa => ?_, load_performs (rfl : _ = execLdbu ..) fun pa => ?_,
    load_performs (rfl : _ = execLdh ..) fun pa => ?_, load_performs (rfl : _ = execLdhu ..) fun pa => ?_,
    load_performs (rfl : _ = execLdw ..) fun pa => ?_, load_performs (rfl : _ = execLdwu ..) fun pa => ?_,
    load_performs (rfl : _ = execLdd ..) fun pa => ?_, ldtag_performs⟩
  · exact extendBytes_signed rfl ((hn (by decide) pa).trans (h1 pa))
  · exact extendBytes_unsigned rfl ((hn (by decide) pa).trans (h1 pa))
  · exact extendBytes_signed rfl ((hn (by decide) pa).trans (h2 pa 0))
  · exact extendBytes_unsigned rfl ((hn (by decide) pa).trans (h2 pa 0))
  · exact extendBytes_signed rfl ((hn (by decide) pa).trans (h4 pa 0))
  · exact extendBytes_unsigned rfl ((hn (by decide) pa).trans (h4 pa 0))
  · exact (extendBytes_unsigned rfl ((hn (by decide) pa).trans (h8 pa))).trans (BitVec.setWidth_eq _)

/-! ### Stores -/

theorem extractLsb'_ofWord (w : Word) (k : Nat) : (ofWord w).extractLsb' (8 * k) 8 = w.extractLsb' (8 * k) 8 := by
  refine BitVec.eq_of_getLsbD_eq fun j hj => ?_
  simp only [BitVec.getLsbD_extractLsb', ofWord, BitVec.getLsbD_setWidth, hj, decide_true, Bool.true_and]
  by_cases hk : 8 * k + j < 64
  · simp [show 8 * k + j < 512 by omega]
  · simp [BitVec.getLsbD_of_ge w _ (Nat.le_of_not_lt hk)]

section
variable {s : State} {pa key : Nat}

/-- The state with n bytes of a value written in the own slice, and a token returned. -/
def bytesWritten (s : State) (q : Option Seqr) (pa : Nat) (v : Vec) (n : Nat) : State :=
  { returnToken s q with mem := memWrite s.mem pa v.toNat (byteMask n).toNat 64 }

/-- A write of less than a block in the own slice. -/
theorem performMem_write_own (h : homeOf pa = s.node) (q : Option Seqr) (v : Vec) {n : Nat} (hn : n < 64) :
    performMem (returnToken s q) (.write pa v (byteMask n)) key = (bytesWritten s q pa v n, okRes 0) := by
  simp only [performMem, writeThrough_sram (isDram_own h), byteMask_ne hn, if_false, returnToken_mem, bytesWritten]

/-- The descriptors after one is written. -/
theorem descOf_setDesc (s : State) (pa : Nat) (d : Desc) (x : Nat) :
    descOf (setDesc s pa d) x = if x / 64 = pa / 64 then d else descOf s x := by
  simp only [descOf, setDesc]
  by_cases hx : x / 64 = pa / 64
  · rw [if_pos hx, hx]
    by_cases hd : d = 0
    · rw [if_pos hd, findBy_dropBy_self, hd]
    · rw [if_neg hd, findBy_putBy_self (fun p : Nat × Desc => p.1) (pa / 64, d) s.descs]
  · rw [if_neg hx]
    by_cases hd : d = 0
    · rw [if_pos hd, findBy_dropBy_ne _ _ hx]
    · rw [if_neg hd, findBy_putBy_ne (fun p : Nat × Desc => p.1) (pa / 64, d) _ hx]

end

section
variable {s : State} {i : Instr} {o : Ord} {imm : BitVec 13} {a b : BitVec 5} {n : Nat}

theorem store_performs (he : exec i s = store n o imm b a s) (hn : n < 64) :
    PerformsHere i s [xr a, xr b] [] (gating o s.cur.oscope false true) (s.found.rx a + imm.signExtend 64) n .write fun pa u sl =>
      u = { returnToken s s.cur.token with mem := u.mem } ∧ sl = s.found.left
        ∧ (s.inv → ∀ x, memByte u.mem x = if pa ≤ x ∧ x < pa + n then (s.found.rx b).extractLsb' (8 * (x - pa)) 8 else memByte s.mem x) := by
  refine (store_isMemInstr he).performsHere rfl fun pa key hh hp =>
    ⟨_, _, performMem_write_own hh _ _ hn, rfl, returnToken_curCore _, returnToken_curSlot _, rfl, performed_none .., fun hinv x => ?_⟩
  rw [bytesWritten, memByte_write hinv pa _ hn.le, extractLsb'_ofWord]

theorem sttag_performs : PerformsHere (.sttag o b a) s [xr a, xr b] [] (gating o s.cur.oscope false true) (s.found.rx a) 64 .write fun pa u sl =>
    u = { returnToken s s.cur.token with descs := u.descs } ∧ sl = s.found.left
      ∧ ∀ x, descOf u x = if x / 64 = pa / 64 then (s.found.rx b).setWidth 16 else descOf s x := by
  refine (sttag_isMemInstr rfl).performsHere rfl fun pa key hh hp =>
    ⟨_, _, rfl, rfl, returnToken_curCore _, returnToken_curSlot _, rfl, performed_none .., fun x => ?_⟩
  rw [descOf_setDesc, descOf_returnToken]

end

/-- Settles O22: a store writes its bytes, and STTAG the descriptor of its block. -/
theorem ownSliceStores : Obligations.OwnSliceStores := by
  unfold Obligations.OwnSliceStores
  intro s o imm b a r S
  exact ⟨store_performs (rfl : _ = execStb ..) (by decide), store_performs (rfl : _ = execSth ..) (by decide),
    store_performs (rfl : _ = execStw ..) (by decide), store_performs (rfl : _ = execStd ..) (by decide), sttag_performs⟩

/-! ### Atomics -/

/-- The signed value of n bytes as a register value. -/
theorem extendBytes_old {n x : Nat} (hn : 0 < n) (hx : x < 2 ^ (8 * n)) (hn64 : n ≤ 64) : extendBytes (BitVec.ofNat 512 x) n true
    = BitVec.ofInt 64 (if x < 2 ^ (8 * n - 1) then (x : Int) else (x : Int) - 2 ^ (8 * n)) := by
  have hlt : x < 2 ^ 512 := lt_of_lt_of_le hx (Nat.pow_le_pow_right (by decide) (by omega))
  have hbits : (BitVec.ofNat (8 * n) x).toNat = x := by rw [BitVec.toNat_ofNat, Nat.mod_eq_of_lt hx]
  have hval : x % 256 ^ n = x := Nat.mod_eq_of_lt (lt_of_lt_of_eq hx (Nat.pow_mul 2 8 n))
  rw [extendBytes, BitVec.toNat_ofNat, Nat.mod_eq_of_lt hlt, hval, if_pos rfl, sintOf, toInt_halves (by omega), hbits]

/-- The value that an atomic writes, by its operation (R153). -/
theorem rmwValue_eq (op : RmwOp) {n x y : Nat} (hn : 0 < n) (hx : x < 2 ^ (8 * n)) :
    let m := 2 ^ (8 * n)
    let z := y % m
    let si (v : Nat) : Int := if v < m / 2 then v else (v : Int) - m
    rmwValue op n x y = match op with
      | .add => (x + z) % m
      | .and => x &&& z
      | .or => x ||| z
      | .xor => x ^^^ z
      | .min => if si x ≤ si z then x else z
      | .max => if si x ≤ si z then z else x
      | .minu => if x ≤ z then x else z
      | .maxu => if x ≤ z then z else x
      | .swap => z := by
  intro m z si
  have hox : (BitVec.ofNat (8 * n) x).toNat = x := by rw [BitVec.toNat_ofNat, Nat.mod_eq_of_lt hx]
  have hoy : (BitVec.ofNat (8 * n) y).toNat = z := BitVec.toNat_ofNat ..
  have hhalf : m / 2 = 2 ^ (8 * n - 1) := by
    rw [show m = 2 * 2 ^ (8 * n - 1) by rw [← pow_succ', Nat.sub_add_cancel (by omega)], Nat.mul_div_cancel_left _ (by decide)]
  have hsi (w : BitVec (8 * n)) : w.toInt = si w.toNat := by
    rw [toInt_halves (by omega)]
    simp only [si, hhalf, m]
    push_cast
    rfl
  cases op with
  | add => rw [rmwValue, BitVec.toNat_add, hox, hoy]
  | and => rw [rmwValue, BitVec.toNat_and, hox, hoy]
  | or => rw [rmwValue, BitVec.toNat_or, hox, hoy]
  | xor => rw [rmwValue, BitVec.toNat_xor, hox, hoy]
  | min => rw [rmwValue, toNat_ite_slt _ _ _ _ fun h => h, hsi, hsi, hox, hoy]
  | max => rw [rmwValue, toNat_ite_slt _ _ _ _ fun h => h.symm, hsi, hsi, hox, hoy]
  | minu => rw [rmwValue, toNat_ite_ult _ _ _ _ fun h => h, hox, hoy]
  | maxu => rw [rmwValue, toNat_ite_ult _ _ _ _ fun h => h.symm, hox, hoy]
  | swap => exact hoy

section
variable {s : State} {pa key : Nat} {n : Nat} {e b : Word}

/-- An atomic in the own slice gives the old value and writes the new one (R153). -/
theorem performMem_rmw_own (h : homeOf pa = s.node) (hp : isPoisoned s pa = false) (q : Option Seqr) (op : RmwOp) (hn : n ≤ 64) :
    performMem (returnToken s q) (.rmw pa n op b) key
      = (bytesWritten s q pa (BitVec.ofNat 512 (rmwValue op n (memRead s.mem pa n) b.toNat)) n,
          okRes (BitVec.ofNat 512 (memRead s.mem pa n))) := by
  have hp' := (isPoisoned_returnToken q pa).trans hp
  have hold : readThrough (returnToken s q) pa n key = BitVec.ofNat 512 (memRead s.mem pa n) := by
    rw [readThrough_sram (isDram_own h), returnToken_mem]
  simp only [performMem, hp', hold, toNat_memRead _ _ hn, writeThrough_sram (isDram_own h), returnToken_mem, bytesWritten, Bool.false_eq_true, if_false]

/-- A CAS writes where the old value is that expected (R154). -/
theorem performMem_cas_own (h : homeOf pa = s.node) (hp : isPoisoned s pa = false) (q : Option Seqr) (code : Nat) (hn : n ≤ 64) :
    performMem (returnToken s q) (.cas pa n e b code) key
      = (if memRead s.mem pa n = e.toNat % 256 ^ n then bytesWritten s q pa (ofWord b) n else returnToken s q,
          okRes (BitVec.ofNat 512 (memRead s.mem pa n))) := by
  have hp' := (isPoisoned_returnToken q pa).trans hp
  have hold : readThrough (returnToken s q) pa n key = BitVec.ofNat 512 (memRead s.mem pa n) := by
    rw [readThrough_sram (isDram_own h), returnToken_mem]
  simp only [performMem, hp', hold, toNat_memRead _ _ hn, writeThrough_sram (isDram_own h), returnToken_mem, bytesWritten, Bool.false_eq_true, if_false]
  split <;> rfl

end

/-- What a write of n bytes in canonical memory leaves: the bytes written there, every other byte as it was. -/
theorem write_leaves {m : List Host.Cell} (hw : Memory.wf m = true) (pa : Nat) {n y : Nat} {v : Vec} (hn : n ≤ 64)
    (hy : v.toNat % 256 ^ n = y) :
    memRead (memWrite m pa v.toNat (byteMask n).toNat 64) pa n = y
      ∧ ∀ x, (x < pa ∨ pa + n ≤ x) → memByte (memWrite m pa v.toNat (byteMask n).toNat 64) x = memByte m x := by
  refine ⟨(memRead_write hw pa v hn).trans hy, fun x hx => ?_⟩
  rw [memByte_write hw pa v hn, if_neg (by omega)]

theorem wordBytes_cases (w64 : Bool) : 0 < wordBytes w64 ∧ wordBytes w64 ≤ 8 := by cases w64 <;> decide

section
variable {s : State} {i : Instr} {o fail : Ord} {scp : Scope} {w64 : Bool} {a b d : BitVec 5} {op : RmwOp}

/-- What the atomics of the own slice have in common: rd is the old value, and memory holds the new one. -/
def AtomicPerforms (i : Instr) (s : State) (srcs : List RegRef) (g : Gating) (a d : BitVec 5) (n : Nat) (new : Nat → Nat) : Prop :=
  PerformsHere i s srcs [xr d] g (s.found.rx a) n .write fun pa u sl =>
    u = { returnToken s s.cur.token with mem := u.mem }
    ∧ sl = ((s.found.claim [xr d]).setReg (xr d) (ofWord (BitVec.ofInt 64 (if memRead s.mem pa n < 2 ^ (8 * n - 1)
        then (memRead s.mem pa n : Int) else (memRead s.mem pa n : Int) - 2 ^ (8 * n))))).left
    ∧ (s.inv → memRead u.mem pa n = new (memRead s.mem pa n) ∧ ∀ x, (x < pa ∨ pa + n ≤ x) → memByte u.mem x = memByte s.mem x)

theorem memRead_lt_bits (m : List Host.Cell) (pa n : Nat) : memRead m pa n < 2 ^ (8 * n) :=
  lt_of_lt_of_eq (memRead_lt m n pa) (Nat.pow_mul 2 8 n).symm

theorem performed_old (sl : Slot) (d : BitVec 5) (w64 : Bool) (m : List Host.Cell) (pa : Nat) :
    ({ (sl.performed (dstX d (wordBytes w64) true) (okRes (BitVec.ofNat 512 (memRead m pa (wordBytes w64))))).claim [xr d] with
        active := false, nextReg := 0 } : Slot)
      = ((sl.claim [xr d]).setReg (xr d) (ofWord (BitVec.ofInt 64 (if memRead m pa (wordBytes w64) < 2 ^ (8 * wordBytes w64 - 1)
          then (memRead m pa (wordBytes w64) : Int) else (memRead m pa (wordBytes w64) : Int) - 2 ^ (8 * wordBytes w64))))).left := by
  obtain ⟨hpos, hle⟩ := wordBytes_cases w64
  rw [← extendBytes_old hpos (memRead_lt_bits ..) (by omega)]
  exact performed_dstX ..

theorem amo_performs {new : Nat → Nat} (he : exec i s = amo op o scp w64 b a d s)
    (hnew : ∀ x, x < 2 ^ (8 * wordBytes w64) → rmwValue op (wordBytes w64) x (s.found.rx b).toNat = new x)
    (hlt : ∀ x, x < 2 ^ (8 * wordBytes w64) → new x < 2 ^ (8 * wordBytes w64)) :
    AtomicPerforms i s [xr a, xr b] (gating o scp true true) a d (wordBytes w64) new := by
  obtain ⟨-, hle⟩ := wordBytes_cases w64
  refine (amo_isMemInstr he).performsHere (dstX_plain ..) fun pa key hh hp =>
    ⟨_, _, performMem_rmw_own hh hp _ _ (by omega), rfl, returnToken_curCore _, returnToken_curSlot _, rfl, performed_old .., fun hinv => ?_⟩
  have hold := memRead_lt_bits s.mem pa (wordBytes w64)
  have hval := hlt _ hold
  rw [hnew _ hold]
  refine write_leaves hinv pa (by omega) ?_
  rw [BitVec.toNat_ofNat, Nat.mod_eq_of_lt (lt_of_lt_of_le hval (Nat.pow_le_pow_right (by decide) (by omega))),
    Nat.mod_eq_of_lt (lt_of_lt_of_eq hval (Nat.pow_mul 2 8 _))]

theorem cas_performs (he : exec i s = cas fail o scp w64 b a d s) :
    AtomicPerforms i s [xr a, xr b, xr d] (casGating o fail scp) a d (wordBytes w64) fun old =>
      if old = (s.found.rx d).toNat % 2 ^ (8 * wordBytes w64) then (s.found.rx b).toNat % 2 ^ (8 * wordBytes w64) else old := by
  obtain ⟨-, hle⟩ := wordBytes_cases w64
  have hpow : 256 ^ wordBytes w64 = 2 ^ (8 * wordBytes w64) := (Nat.pow_mul 2 8 _).symm
  refine (cas_isMemInstr he).performsHere (dstX_plain ..) fun pa key hh hp => ⟨_, _, performMem_cas_own hh hp _ _ (by omega), rfl, ?_⟩
  rw [hpow]
  split
  · next heq =>
    refine ⟨returnToken_curCore _, returnToken_curSlot _, rfl, performed_old .., fun hinv => ?_⟩
    dsimp only
    rw [if_pos heq]
    refine write_leaves hinv pa (by omega) ?_
    rw [ofWord, BitVec.toNat_setWidth, Nat.mod_eq_of_lt (lt_trans (s.found.rx b).isLt (Nat.pow_lt_pow_right (by decide) (by decide))), hpow]
  · next hne =>
    refine ⟨returnToken_curCore _, returnToken_curSlot _, rfl, performed_old .., fun _ => ?_⟩
    dsimp only
    rw [if_neg hne, returnToken_mem]
    exact ⟨rfl, fun _ _ => rfl⟩

end

/-- Settles O23: each operation by its value, and CAS by its two outcomes. -/
theorem ownSliceAtomics : Obligations.OwnSliceAtomics := by
  unfold Obligations.OwnSliceAtomics
  intro s o scp b a d r Q w64 n m y si A C
  obtain ⟨hpos, -⟩ := wordBytes_cases w64
  have hm : 0 < m := Nat.two_pow_pos _
  have hy : y < m := Nat.mod_lt _ hm
  have hval (op : RmwOp) {x : Nat} (hx : x < m) := rmwValue_eq op (y := (s.found.rx b).toNat) hpos hx
  have hite {p : Prop} [Decidable p] {x z : Nat} (hx : x < m) (hz : z < m) : (if p then x else z) < m := by split <;> assumption
  have hA {i : Instr} {op : RmwOp} {new : Nat → Nat} (hnew : ∀ x, x < m → rmwValue op n x (s.found.rx b).toNat = new x)
      (hlt : ∀ x, x < m → new x < m) (he : exec i s = amo op o scp w64 b a d s) : A i new := amo_performs he hnew hlt
  have hC {i : Instr} {fail : Ord} (he : exec i s = cas fail o scp w64 b a d s) : C i fail := cas_performs he
  exact ⟨hA (fun _ => hval .add) (fun _ _ => Nat.mod_lt _ hm) (rfl : _ = execAmoadd ..),
    hA (fun _ => hval .and) (fun _ hx => lt_of_le_of_lt Nat.and_le_left hx) (rfl : _ = execAmoand ..),
    hA (fun _ => hval .or) (fun _ hx => Nat.or_lt_two_pow hx hy) (rfl : _ = execAmoor ..),
    hA (fun _ => hval .xor) (fun _ hx => Nat.xor_lt_two_pow hx hy) (rfl : _ = execAmoxor ..),
    hA (fun _ => hval .min) (fun _ hx => hite hx hy) (rfl : _ = execAmomin ..),
    hA (fun _ => hval .max) (fun _ hx => hite hy hx) (rfl : _ = execAmomax ..),
    hA (fun _ => hval .minu) (fun _ hx => hite hx hy) (rfl : _ = execAmominu ..),
    hA (fun _ => hval .maxu) (fun _ hx => hite hy hx) (rfl : _ = execAmomaxu ..),
    hA (fun _ => hval .swap) (fun _ _ => hy) (rfl : _ = execAmoswap ..),
    hC (rfl : _ = execCasFailRlx ..), hC (rfl : _ = execCasFailAcq ..), hC (rfl : _ = execCasFailSc ..)⟩

end Sys2Proof.Machine
end

section
/-! SUPPORT. Instructions of several elements (07 R157 to R160, 01 R39): what stands while their elements leave one after another. -/
namespace Sys2Proof.Machine

/-! ### What an element may change -/

/-- The elements of an instruction change nothing beside their slot but these. -/
def Beside (s u : State) : Prop := u = { s with
  nextId := u.nextId, pairs := u.pairs, tokens := u.tokens, mem := u.mem, poisoned := u.poisoned, descs := u.descs }

theorem Beside.refl (s : State) : Beside s s := rfl

theorem Beside.trans {s t u : State} (h : Beside s t) (h' : Beside t u) : Beside s u :=
  Eq.trans h' (congrArg (fun z : State => { z with
    nextId := u.nextId, pairs := u.pairs, tokens := u.tokens, mem := u.mem, poisoned := u.poisoned, descs := u.descs }) h)

theorem beside_returnToken (s : State) (q : Option Seqr) : Beside s (returnToken s q) := by cases q <;> rfl

/-- A destination in the vector registers, or none. -/
def AccDst.vector : AccDst → Bool
  | .none => true
  | .v _ _ _ => true
  | _ => false

theorem AccDst.vector.plain {dst : AccDst} (h : dst.vector = true) : dst.plain = true := by
  cases dst <;> first | rfl | cases h

theorem landed_vector {dst : AccDst} (h : dst.vector = true) (sl : Slot) (r : MemRes) :
    sl.landed dst r = { sl with v := (sl.landed dst r).v } := by
  cases dst with
  | none => rfl
  | v rd mask shift =>
    simp only [Slot.landed, Slot.setReg]
    split <;> rfl
  | _ => cases h

/-- What stands when some elements have left: nothing is changed but what elements change, nothing is newly poisoned, and those of other
homes are outstanding. -/
structure Leaving (s : State) (done : List Elem) (u : State) (sl : Slot) : Prop where
  beside : Beside s u
  poison : ∀ b ∈ u.poisoned, b ∈ s.poisoned
  slot   : sl = { s.found with
    v := sl.v, accs := sl.accs, pend := sl.pend, token := sl.token, active := sl.active, nextReg := sl.nextReg }
  accs   : sl.accs.map (fun a => (a.va, a.dst)) = s.cur.accs.map (fun a => (a.va, a.dst))
    ++ (done.filter fun e => (ownPa s e).isNone).map fun e => (e.va, e.dst)

section
variable {s u u' : State} {done : List Elem} {sl : Slot} {e : Elem} {g : Gating} {pa key : Nat}

theorem Leaving.start (s : State) : Leaving s [] s s.found where
  beside := .refl s
  poison _ h := h
  slot := rfl
  accs := by simp [State.found]

theorem Leaving.status (h : Leaving s done u sl) (hr : s.found.status = .running) : sl.status = .running :=
  (congrArg Slot.status h.slot).trans hr

theorem Leaving.notPoisoned (h : Leaving s done u sl) (hp : isPoisoned s pa = false) : isPoisoned u pa = false := by
  simp only [isPoisoned, List.contains_eq_mem, decide_eq_false_iff_not] at hp ⊢
  exact fun hin => hp (h.poison _ hin)

theorem Leaving.translate (h : Leaving s done u sl) (va : Word) (k : AccessKind) :
    Machine.translate u (clusterOf s.curCore) sl.ctx va k = s.trans va k := by
  have hctx : sl.ctx = s.cur.ctx := (congrArg Slot.ctx h.slot).trans (found_ctx s)
  have hclusters : u.clusters = s.clusters := (congrArg State.clusters h.beside : _)
  rw [State.trans, hctx]
  simp only [Machine.translate, getCluster, hclusters]

theorem Leaving.keepPlace (h : Leaving s done u sl) (multi : Bool) (n : Nat) : Leaving s done u (keepPlace sl multi n) := by
  cases multi with
  | false => exact h
  | true => exact ⟨h.beside, h.poison, congrArg (fun z : Slot => { z with active := true, nextReg := n }) h.slot, h.accs⟩

/-- An element of another home has left. -/
theorem Leaving.request (h : Leaving s done u sl) (ht : s.trans e.va e.kind = .ok pa key) (hh : homeOf pa ≠ s.node) :
    Leaving s (done ++ [e]) (requested u s.curCore s.curSlot g sl ⟨e.op pa, key, pa, e.va, e.dst⟩)
      { sl.claim e.dst.claims with accs := sl.accs ++ [leftAccess u.nextId g sl.pc ⟨e.op pa, key, pa, e.va, e.dst⟩], token := none } where
  beside := h.beside.trans rfl
  poison := h.poison
  slot := congrArg (fun z : Slot => { z.claim e.dst.claims with
    pend := (sl.claim e.dst.claims).pend, accs := sl.accs ++ [leftAccess u.nextId g sl.pc ⟨e.op pa, key, pa, e.va, e.dst⟩], token := none }) h.slot
  accs := by
    have hown : ownPa s e = none := by simp only [ownPa, ht, hh, if_false]
    simp [h.accs, hown, leftAccess]

/-- An element of the own slice has performed. -/
theorem Leaving.perform (h : Leaving s done u sl) (ht : s.trans e.va e.kind = .ok pa key) (hh : homeOf pa = s.node) (hd : e.dst.vector = true)
    {r : MemRes} (hb : Beside (returnToken u sl.token) u') (hp : ∀ b ∈ u'.poisoned, b ∈ u.poisoned) :
    Leaving s (done ++ [e]) u' (sl.performed e.dst r) where
  beside := (h.beside.trans (beside_returnToken ..)).trans hb
  poison b hin := h.poison b (hp b hin)
  slot := by
    rw [Slot.performed, landed_vector hd]
    exact congrArg (fun z : Slot => ({ ({ z with token := none } : Slot).claim e.dst.claims with
      pend := (sl.claim e.dst.claims).pend, v := (({ sl with token := none } : Slot).claim e.dst.claims |>.landed e.dst r).v })) h.slot
  accs := by
    have hown : ownPa s e = some pa := by simp only [ownPa, ht, hh, if_true]
    have hsame : (sl.performed e.dst r).accs = sl.accs := (congrArg Slot.accs (landed_vector hd _ r) : _)
    simp [hsame, h.accs, hown]

end

/-! ### All the elements -/

/-- What is claimed of memory and of the vector registers while elements leave: it speaks of nothing else; it holds at the beginning;
and an element of the own slice that performs keeps it. -/
structure KeptByElements (s : State) (es : List Elem) (P : List Elem → State → Slot → Prop) : Prop where
  congr : ∀ {done u u' sl sl'}, P done u sl → u'.mem = u.mem → u'.descs = u.descs → u'.poisoned = u.poisoned → sl'.v = sl.v → P done u' sl'
  start : P [] s s.found
  away  : ∀ {done u sl e}, P done u sl → ownPa s e = none → P (done ++ [e]) u sl
  own   : ∀ {done u sl e pa}, e ∈ es → P done u sl → ownPa s e = some pa → homeOf pa = s.node → isPoisoned u pa = false → ∀ key, ∃ u' r,
    performMem u (e.op pa) key = (u', r) ∧ r.poison = false ∧ Beside u u' ∧ (∀ b ∈ u'.poisoned, b ∈ u.poisoned)
      ∧ P (done ++ [e]) u' (sl.landed e.dst r)

section
variable {s : State} {es : List Elem} {P : List Elem → State → Slot → Prop} {g : Gating}

/-- One element of those that are ready leaves. -/
theorem Leaving.step {done : List Elem} {u : State} {sl : Slot} {e : Elem} {pa key : Nat} (hP : KeptByElements s es P) (he : e ∈ es)
    (hd : e.dst.vector = true) (h : Leaving s done u sl) (hp : P done u sl) (ht : s.trans e.va e.kind = .ok pa key)
    (hpoison : ∀ pa, ownPa s e = some pa → isPoisoned s pa = false) :
    ∃ u' x, leaveIssue (setSlot u s.curCore s.curSlot sl) s.curCore s.curSlot g ⟨e.op pa, key, pa, e.va, e.dst⟩
        = setSlot u' s.curCore s.curSlot x ∧ Leaving s (done ++ [e]) u' x ∧ P (done ++ [e]) u' x := by
  by_cases hh : homeOf pa = s.node
  · have hown : ownPa s e = some pa := by simp only [ownPa, ht, hh, if_true]
    have hp' : P done (returnToken u sl.token) (({ sl with token := none } : Slot).claim e.dst.claims) :=
      hP.congr hp (returnToken_mem _) (returnToken_descs _) (returnToken_poisoned _) rfl
    obtain ⟨u', r, hperf, hr, hb, hpo, hkept⟩ := hP.own he hp' hown hh ((isPoisoned_returnToken ..).trans (h.notPoisoned (hpoison pa hown))) key
    have hl := leaveIssue_own (u := u) (c := s.curCore) (i := s.curSlot) (sl := sl) (g := g) (r := ⟨e.op pa, key, pa, e.va, e.dst⟩)
      hh (AccDst.vector.plain hd) (by rw [hperf]; exact hr)
    rw [hperf] at hl
    exact ⟨u', _, hl, h.perform ht hh hd hb fun b hin => returnToken_poisoned (s := u) sl.token ▸ hpo b hin, hkept⟩
  · have hown : ownPa s e = none := by simp only [ownPa, ht, hh, if_false]
    exact ⟨_, _, leaveIssue_away hh, h.request ht hh, hP.congr (hP.away hp hown) rfl rfl rfl rfl⟩

/-- Elements that are ready leave one after another (R241). -/
theorem runElems_ready {multi : Bool} (hP : KeptByElements s es P) (hrun : s.found.status = .running)
    (hd : ∀ e ∈ es, e.dst.vector = true) (hready : ∀ e ∈ es, elemReady s e) :
    ∀ (rest done : List Elem) (u : State) (sl : Slot) (begun check : Bool), (∀ e ∈ rest, e ∈ es) → Leaving s done u sl → P done u sl →
      (g.sc = true → rest ≠ [] → rest.tail = [] ∧ sl.token = some (seqrOf s.curCore sl.act g.scope)) →
      ∃ u' x, runElems s.curCore s.curSlot g multi (setSlot u s.curCore s.curSlot sl) begun check rest
          = (setSlot u' s.curCore s.curSlot x, true) ∧ Leaving s (done ++ rest) u' x ∧ P (done ++ rest) u' x
  | [], done, u, sl, _, _, _, h, hp, _ => ⟨u, sl, rfl, by rwa [List.append_nil], by rwa [List.append_nil]⟩
  | e :: rest, done, u, sl, begun, check, hin, h, hp, hsc => by
    have hfit (y : Elem) (hy : y ∈ e :: rest) : y.fits u s.curCore sl.ctx := by
      obtain ⟨ha, ⟨pa, key, ht⟩, -⟩ := hready y (hin y hy)
      exact ⟨ha, pa, key, (h.translate ..).trans ht⟩
    have hmem := hin e (List.mem_cons_self ..)
    obtain ⟨-, ⟨pa, key, ht⟩, hpoison⟩ := hready e hmem
    have hk := h.keepPlace (multi && begun) (e.idx % 64)
    have hpk : P done u (keepPlace sl (multi && begun) (e.idx % 64)) := hP.congr hp rfl rfl rfl (by cases multi && begun <;> rfl)
    obtain ⟨u', x, hl, h', hp'⟩ := hk.step (g := g) hP hmem (hd e hmem) hpk ht hpoison
    have hgo := runElems_cons (multi := multi) (begun := begun) (check := check) hfit ((h.translate ..).trans ht)
      (fun hg => (hsc hg (List.cons_ne_nil _ _)).2) hl (h'.status hrun)
    obtain ⟨w, y, hr, hw, hpw⟩ := runElems_ready (multi := multi) hP hrun hd hready rest (done ++ [e]) u' x true (beginsUnit e rest)
      (fun z hz => hin z (List.mem_cons_of_mem _ hz)) h' hp' fun hg hne => absurd (hsc hg (List.cons_ne_nil _ _)).1 hne
    refine ⟨w, y, hgo.trans hr, ?_, ?_⟩
    · rwa [List.append_assoc] at hw
    · rwa [List.append_assoc] at hpw

/-- An instruction of elements that are ready completes, with what its elements keep. -/
theorem IsMemInstr.elementsLeave {i : Instr} {srcs dsts : List RegRef} {multi : Bool} {Q : State → Slot → Prop}
    (h : IsMemInstr i s srcs dsts g multi es) (hd : ∀ e ∈ es, e.dst.vector = true) (hP : KeptByElements s es P)
    (hQ : ∀ u sl, P es u sl → Q u sl) : ElementsLeave i s srcs dsts g es Q := by
  intro _ hc hu hsc hready
  have htoken : g.sc = true → es ≠ [] → es.tail = [] ∧ s.found.token = some (seqrOf s.curCore s.found.act g.scope) := by
    intro hg _
    refine ⟨List.eq_nil_of_length_eq_zero ?_, ungated_token hu hg⟩
    rcases hsc with hsc | hsc
    · exact absurd (hg.symm.trans hsc) Bool.true_eq_false_eq_False.elim
    · rw [List.length_tail]
      omega
  obtain ⟨u, x, hr, hl, hp⟩ := runElems_ready (multi := multi) hP (canIssue_found hc) hd hready es [] s s.found false true
    (fun _ he => he) (.start s) hP.start htoken
  rw [List.nil_append] at hl hp
  have hcore : u.curCore = s.curCore := (congrArg State.curCore hl.beside : _)
  have hslot : u.curSlot = s.curSlot := (congrArg State.curSlot hl.beside : _)
  obtain ⟨t, hexec, hret⟩ := h.does hc hu hcore hslot hr
  refine ⟨t, hexec, u, _, hret, hl.beside, (congrArg Slot.x hl.slot : _), (congrArg Slot.k hl.slot : _), ?_, hl.accs, hQ _ _ (hP.congr hp rfl rfl rfl rfl)⟩
  exact (congrArg Slot.sends hl.slot : _).trans (by simp [State.found])

end

end Sys2Proof.Machine
end

section
/-! SUPPORT. The bytes that the elements of vector loads and stores move (07 R157 to R160), and the statement on them. -/
namespace Sys2Proof.Machine

/-! ### Bytes of a register -/

/-- Byte j of a register. -/
def vbyte (v : Vec) (j : Nat) : Byte := v.extractLsb' (8 * j) 8

/-- The bits of a number by its digits of w bits. -/
theorem testBit_digits {w : Nat} (hw : 0 < w) (d : Nat → Nat) (hd : ∀ j, d j < 2 ^ w) (n i : Nat) :
    (((List.range n).map fun j => d j * 2 ^ (w * j)).sum < 2 ^ (w * n))
      ∧ (((List.range n).map fun j => d j * 2 ^ (w * j)).sum).testBit i = (decide (i < w * n) && (d (i / w)).testBit (i % w)) := by
  induction n with
  | zero => simp
  | succ n ih =>
    obtain ⟨hlt, hbit⟩ := ih
    simp only [List.range_succ, List.map_append, List.map_cons, List.map_nil, List.sum_append, List.sum_cons, List.sum_nil, Nat.add_zero]
    generalize hS : ((List.range n).map fun j => d j * 2 ^ (w * j)).sum = S at hlt hbit ⊢
    have hmul : d n * 2 ^ (w * n) + 2 ^ (w * n) ≤ 2 ^ (w * (n + 1)) := by
      rw [Nat.mul_succ, Nat.pow_add, Nat.mul_comm (2 ^ (w * n)), ← Nat.succ_mul]
      exact Nat.mul_le_mul_right _ (hd n)
    refine ⟨by omega, ?_⟩
    rw [Nat.add_comm S, Nat.mul_comm (d n), Nat.testBit_two_pow_mul_add _ hlt, hbit]
    have hsucc : w * (n + 1) = w * n + w := Nat.mul_succ ..
    by_cases hi : i < w * n
    · simp [hi, show i < w * (n + 1) by omega]
    · obtain ⟨k, rfl⟩ := Nat.exists_eq_add_of_le (Nat.le_of_not_lt hi)
      simp only [hi, if_false, Nat.add_sub_cancel_left, hsucc, Nat.add_lt_add_iff_left]
      by_cases hk : k < w
      · simp [hk, Nat.mul_add_div hw, Nat.div_eq_of_lt hk, Nat.mod_eq_of_lt hk]
      · simp [hk, Nat.testBit_lt_two_pow (lt_of_lt_of_le (hd n) (Nat.pow_le_pow_right (by decide) (Nat.le_of_not_lt hk)))]

/-- A byte of two registers merged under a mask. -/
theorem vbyte_mergeBytes (old new : Vec) (mask : BitVec 64) {j : Nat} (hj : j < 64) :
    vbyte (mergeBytes old new mask) j = if mask.getLsbD j then vbyte new j else vbyte old j := by
  have hsum : ((List.range 64).map fun j => if mask.getLsbD j then 255 * 256 ^ j else 0)
      = (List.range 64).map fun j => (if mask.getLsbD j then 255 else 0) * 2 ^ (8 * j) := by
    refine List.map_congr_left fun j _ => ?_
    rw [Nat.pow_mul]
    split
    · rfl
    · exact (Nat.zero_mul _).symm
  refine BitVec.eq_of_getLsbD_eq fun i hi => ?_
  have hbit := (testBit_digits (w := 8) (by decide) (fun j => if mask.getLsbD j then 255 else 0)
    (fun j => by split <;> decide) 64 (8 * j + i)).2
  have hdiv : (8 * j + i) / 8 = j := by omega
  have hmod : (8 * j + i) % 8 = i := by omega
  rw [hdiv, hmod] at hbit
  have h255 : Nat.testBit 255 i = true := by
    rw [show 255 = 2 ^ 8 - 1 by rfl, Nat.testBit_two_pow_sub_one, decide_eq_true hi]
  have hlt : 8 * j + i < 512 := by omega
  simp only [vbyte, mergeBytes, hsum, BitVec.getLsbD_extractLsb', hi, hlt, decide_true, Bool.true_and, BitVec.getLsbD_or, BitVec.getLsbD_and,
    BitVec.getLsbD_not, BitVec.getLsbD_ofNat, hbit]
  cases mask.getLsbD j <;> simp [h255, hi, hlt]

/-- A byte of memory that is read. -/
theorem vbyte_memRead (m : List Host.Cell) (pa : Nat) {n k : Nat} (hn : n ≤ 64) (hk : k < n) :
    vbyte (BitVec.ofNat 512 (memRead m pa n)) k = memByte m (pa + k) := by
  obtain ⟨r, rfl⟩ := Nat.exists_eq_add_of_lt hk
  have hpos : 0 < 256 ^ k := Nat.pow_pos (by decide)
  have hpow : 2 ^ (8 * k) = 256 ^ k := Nat.pow_mul 2 8 k
  refine BitVec.eq_of_toNat_eq ?_
  rw [vbyte, BitVec.extractLsb'_toNat, toNat_memRead m pa hn, Nat.shiftRight_eq_div_pow, hpow, Nat.add_assoc, memRead_add, memRead,
    Nat.add_mul_div_left _ _ hpos, Nat.div_eq_of_lt (memRead_lt m k pa), Nat.zero_add]
  exact (Nat.add_mul_mod_self_left ..).trans (Nat.mod_eq_of_lt (memByte m (pa + k)).isLt)

/-- A byte of a register moved up by bytes. -/
theorem vbyte_shiftLeft (v : Vec) {shift j : Nat} (h : shift ≤ j) (hj : j < 64) : vbyte (v <<< (8 * shift)) j = vbyte v (j - shift) := by
  refine BitVec.eq_of_getLsbD_eq fun i hi => ?_
  simp only [vbyte, BitVec.getLsbD_extractLsb', hi, decide_true, Bool.true_and, BitVec.getLsbD_shiftLeft, show 8 * j + i < 512 by omega,
    show ¬ 8 * j + i < 8 * shift by omega, decide_false, Bool.not_false, show 8 * j + i - 8 * shift = 8 * (j - shift) + i by omega]

theorem getV_setReg (sl : Slot) (r : Nat) (v : Vec) {n : Nat} (hn : n < 32) :
    (sl.setReg ⟨.v, r⟩ v).getV n = if r = n then v else sl.getV n := by
  by_cases hr : r < 32
  · simp only [Slot.setReg, hr, dite_true, Slot.getV, hn, Vector.getElem_set]
  · simp only [Slot.setReg, hr, dite_false, show ¬ r = n by omega, if_false]

/-! ### Loads -/

/-- An element that loads n bytes of a block into the bytes of a register from a place upward, those of a mask. -/
structure Elem.Loads (e : Elem) (n rd : Nat) (mask : BitVec 64) (shift : Nat) : Prop where
  op    : ∀ pa, e.op pa = .read pa n
  dst   : e.dst = .v rd mask shift
  size  : n ≤ 64
  place : ∀ j, mask.getLsbD j = true → shift ≤ j ∧ j < shift + n

/-- What loads keep: memory, and the bytes of registers that no own-slice element has loaded. -/
structure LoadedBytes (s : State) (done : List Elem) (u : State) (sl : Slot) : Prop where
  mem      : u.mem = s.mem
  descs    : u.descs = s.descs
  poisoned : u.poisoned = s.poisoned
  byte     : ∀ rd j, rd < 32 → j < 64 →
    vbyte (sl.getV rd) j = (done.reverse.findSome? (landedByte s rd j)).getD (vbyte (s.found.getV rd) j)

theorem findSome?_reverse_append {α β : Type} (f : α → Option β) (l : List α) (x : α) (y : β) :
    ((l ++ [x]).reverse.findSome? f).getD y = (f x).getD ((l.reverse.findSome? f).getD y) := by
  rw [List.reverse_append, List.reverse_singleton, List.singleton_append, List.findSome?_cons]
  cases f x <;> rfl

section
variable {s u : State} {done : List Elem} {sl : Slot} {e : Elem} {n rd pa shift : Nat} {mask : BitVec 64}

theorem landedByte_own (h : e.Loads n rd mask shift) (ho : ownPa s e = some pa) (r j : Nat) :
    landedByte s r j e = if rd = r ∧ mask.getLsbD j = true then some (memByte s.mem (pa + (j - shift))) else none := by
  simp only [landedByte, ho, h.dst, Bool.and_eq_true, decide_eq_true_eq]

/-- A load of the own slice has performed. -/
theorem LoadedBytes.own (h : LoadedBytes s done u sl) (he : e.Loads n rd mask shift) (ho : ownPa s e = some pa) {r : MemRes}
    (hr : r.value = BitVec.ofNat 512 (memRead s.mem pa n)) : LoadedBytes s (done ++ [e]) u (sl.landed e.dst r) where
  mem := h.mem
  descs := h.descs
  poisoned := h.poisoned
  byte r' j hr' hj := by
    rw [findSome?_reverse_append, landedByte_own he ho, ← h.byte r' j hr' hj, he.dst, Slot.landed, getV_setReg _ _ _ hr', hr]
    by_cases hrd : rd = r'
    · subst hrd
      rw [if_pos rfl, vbyte_mergeBytes _ _ _ hj]
      by_cases hm : mask.getLsbD j = true
      · obtain ⟨hlo, hhi⟩ := he.place j hm
        rw [if_pos hm, if_pos ⟨rfl, hm⟩, vbyte_shiftLeft _ hlo hj, vbyte_memRead _ _ he.size (by omega)]
        rfl
      · rw [if_neg hm, if_neg fun h => hm h.2]
        rfl
    · rw [if_neg hrd, if_neg fun h => hrd h.1]
      rfl

end

theorem loads_kept {s : State} {es : List Elem} (hes : ∀ e ∈ es, ∃ n rd mask shift, e.Loads n rd mask shift) :
    KeptByElements s es (LoadedBytes s) where
  congr h hm hd hp hv := ⟨hm.trans h.mem, hd.trans h.descs, hp.trans h.poisoned, fun rd j hr hj => by
    rw [← h.byte rd j hr hj, Slot.getV, Slot.getV, hv]⟩
  start := ⟨rfl, rfl, rfl, fun _ _ _ _ => rfl⟩
  away h ho := ⟨h.mem, h.descs, h.poisoned, fun rd j hr hj => by
    rw [findSome?_reverse_append, ← h.byte rd j hr hj, landedByte, ho]
    rfl⟩
  own {done u sl e pa} hin h ho hh hp key := by
    obtain ⟨n, rd, mask, shift, he⟩ := hes e hin
    refine ⟨u, _, congrArg (performMem u · key) (he.op pa), hp, .refl u, fun _ hb => hb, h.own he ho ?_⟩
    exact (readThrough_sram (isDram_own hh) n).trans (by rw [h.mem])

/-! ### Stores -/

/-- An element that stores bytes of a block under a mask. -/
structure Elem.Stores (e : Elem) (v : Vec) (mask : BitVec 64) : Prop where
  op  : ∀ pa, e.op pa = .write pa v mask
  dst : e.dst = .none

/-- What stores keep: the registers, and the bytes that no own-slice element has stored. -/
structure StoredBytes (s : State) (done : List Elem) (u : State) (sl : Slot) : Prop where
  regs  : sl.v = s.found.v
  descs : u.descs = s.descs
  wf    : s.inv → Memory.wf u.mem = true
  byte  : s.inv → ∀ x, memByte u.mem x = (done.reverse.findSome? (stored s x)).getD (memByte s.mem x)

section
variable {s u : State} {pa key : Nat} {v : Vec} {mask : BitVec 64}

/-- The state with bytes of a block written in the own slice. -/
def maskWritten (u : State) (pa : Nat) (v : Vec) (mask : BitVec 64) : State :=
  { u with mem := memWrite u.mem pa v.toNat mask.toNat 64,
           poisoned := if mask = byteMask 64 then u.poisoned.filter (· != pa / 64) else u.poisoned }

theorem performMem_maskWrite_sram (h : isDram pa = false) : performMem u (.write pa v mask) key = (maskWritten u pa v mask, okRes 0) := by
  simp only [performMem, writeThrough_sram h, maskWritten]
  split <;> rfl

theorem mem_poisoned_maskWritten {b : Nat} (h : b ∈ (maskWritten u pa v mask).poisoned) : b ∈ u.poisoned := by
  simp only [maskWritten] at h
  split at h
  · exact (List.mem_filter.mp h).1
  · exact h

theorem stored_own {e : Elem} (he : e.Stores v mask) (ho : ownPa s e = some pa) (x : Nat) :
    stored s x e = if pa ≤ x ∧ x < pa + 64 ∧ mask.getLsbD (x - pa) = true then some (v.extractLsb' (8 * (x - pa)) 8) else none := by
  simp only [stored, ho, Option.map_some, he.op, Bool.and_eq_true, decide_eq_true_eq, and_assoc]

end

theorem stores_kept {s : State} {es : List Elem} (hes : ∀ e ∈ es, ∃ v mask, e.Stores v mask) : KeptByElements s es (StoredBytes s) where
  congr h hm hd _ hv := ⟨hv.trans h.regs, hd.trans h.descs, fun hi => hm ▸ h.wf hi, fun hi x => hm ▸ h.byte hi x⟩
  start := ⟨rfl, rfl, fun hi => hi, fun _ _ => rfl⟩
  away h ho := ⟨h.regs, h.descs, h.wf, fun hi x => by
    rw [findSome?_reverse_append, ← h.byte hi x, stored, ho]
    rfl⟩
  own {done u sl e pa} hin h ho hh _ key := by
    obtain ⟨v, mask, he⟩ := hes e hin
    have hland : sl.landed e.dst (okRes 0) = sl := by rw [he.dst]; rfl
    refine ⟨maskWritten u pa v mask, okRes 0, ?_, rfl, rfl, fun _ => mem_poisoned_maskWritten, ?_⟩
    · rw [he.op, performMem_maskWrite_sram (isDram_own hh)]
    · rw [hland]
      refine ⟨h.regs, h.descs, fun hi => wf_memWrite _ _ _ _ (h.wf hi), fun hi x => ?_⟩
      rw [findSome?_reverse_append, ← h.byte hi x, stored_own he ho, maskWritten, memByte_maskedWrite (h.wf hi)]
      split <;> rfl

/-! ### The instructions -/

section
variable {s : State} {i : Instr} {srcs dsts : List RegRef} {g : Gating} {multi : Bool} {es : List Elem}

theorem IsMemInstr.vectorLoads (h : IsMemInstr i s srcs dsts g multi es) (hes : ∀ e ∈ es, ∃ n rd mask shift, e.Loads n rd mask shift) :
    VectorLoads i s srcs dsts g es :=
  h.elementsLeave (fun e he => by obtain ⟨n, rd, mask, shift, hl⟩ := hes e he; rw [hl.dst]; rfl) (loads_kept hes)
    fun _ _ hp => ⟨hp.mem, hp.descs, hp.poisoned, hp.byte⟩

theorem IsMemInstr.vectorStores (h : IsMemInstr i s srcs [] g multi es) (hes : ∀ e ∈ es, ∃ v mask, e.Stores v mask) :
    VectorStores i s srcs g es :=
  h.elementsLeave (fun e he => by obtain ⟨v, mask, hs⟩ := hes e he; rw [hs.dst]; rfl) (stores_kept hes)
    fun _ _ hp => ⟨hp.regs, hp.descs, hp.byte⟩

end

section
variable {s : State} {o : Ord} {m : BitVec 3} {w : Width} {g : BitVec 2} {off a b d : BitVec 5}

/-- The registers of a group, and the lanes that are on. -/
theorem groupRefs_eq (d : BitVec 5) (n : Nat) : groupRefs d n = (List.range n).map fun j => (⟨.v, d.toNat + j⟩ : RegRef) := by
  simp only [groupRefs, group, List.map_map]
  rfl

theorem laneMask_place (w : Width) (j k : Nat) (h : (oneLane w.bits j).getLsbD k = true) :
    w.bits / 8 * j ≤ k ∧ k < w.bits / 8 * j + w.bits / 8 := by
  rw [oneLane, BitVec.getLsbD_ofNat, Bool.and_eq_true, Nat.mul_comm, Nat.testBit_two_pow_mul, Bool.and_eq_true, Nat.testBit_two_pow_sub_one] at h
  simp only [decide_eq_true_eq] at h
  omega

/-- A lane that is loaded. -/
theorem laneLoad_loads (w : Width) (j : Nat) {e : Elem} (rd : Nat) (hop : e.op = fun pa => .read pa (w.bits / 8))
    (hdst : e.dst = .v rd (oneLane w.bits j) (w.bits / 8 * j)) : ∃ n rd mask shift, e.Loads n rd mask shift :=
  ⟨_, _, _, _, ⟨fun pa => congrFun hop pa, hdst, by cases w <;> decide, laneMask_place w j⟩⟩

end

/-- Settles O26: the elements of each form leave in order, and what they keep tells the bytes that each moves. -/
theorem vectorMemory : Obligations.VectorMemory := by
  unfold Obligations.VectorMemory
  intro s o m w g off b a d n e k ld st regs mask on base unit strided x indexed lanesIn lanesOut blocks
  have hregs : groupRefs d (2 ^ g.toNat) = regs := groupRefs_eq ..
  have hon : lanesOn w.bits k = on := by rw [lanesOn, Width.lanes_eq]
  have hx (j : Nat) : sintOf n (x j) = if x j < 2 ^ (n - 1) then (x j : Int) else (x j : Int) - 2 ^ n := by
    rw [sintOf, toInt_halves w.bits_pos, BitVec.toNat_ofNat, Nat.mod_eq_of_lt (lane_lt ..)]
  have hindexed : indexedVa base (s.found.rv b) w.bits = indexed := by
    funext j
    rw [indexedVa, hx]
  have hin (va : Nat → Word) : laneLoads w.bits k d va = lanesIn va := by rw [laneLoads, hon]; rfl
  have hout (va : Nat → Word) : laneStores w.bits k (s.found.rv d) va = lanesOut va := by rw [laneStores, hon]; rfl
  have hblocks {f : Nat → Elem} {e : Elem} (he : e ∈ blocks f) : ∃ j, f j = e := by
    dsimp only [blocks] at he
    split at he
    · cases he
    · obtain ⟨j, -, hj⟩ := List.mem_map.mp he
      exact ⟨j, hj⟩
  have hlanesIn (va : Nat → Word) : ∀ e ∈ lanesIn va, ∃ n rd mask shift, e.Loads n rd mask shift := fun e he => by
    obtain ⟨j, -, rfl⟩ := List.mem_map.mp he
    exact laneLoad_loads w j d.toNat rfl rfl
  have hlanesOut (va : Nat → Word) : ∀ e ∈ lanesOut va, ∃ v mask, e.Stores v mask := fun e he => by
    obtain ⟨j, -, rfl⟩ := List.mem_map.mp he
    exact ⟨_, _, fun _ => rfl, rfl⟩
  have hld : gating o s.found.oscope true false = ld := by rw [found_oscope]
  have hst : gating o s.found.oscope false true = st := by rw [found_oscope]
  refine ⟨?vld, ?vst, ?vlds, ?vsts, ?vldx, ?vstx, ?vldt⟩
  case vld =>
    refine IsMemInstr.vectorLoads (multi := 1 < 2 ^ g.toNat) (fun hc => ?_) fun e he => ?_
    · rw [(rfl : exec _ s = execVld ..), execVld, hregs, issue_can hc, hld]
      rfl
    · obtain ⟨j, rfl⟩ := hblocks he
      exact ⟨64, d.toNat + j, mask, 0, fun _ => rfl, rfl, le_rfl, fun j hj => ⟨Nat.zero_le _, by
        have := BitVec.lt_of_getLsbD hj
        omega⟩⟩
  case vst =>
    refine IsMemInstr.vectorStores (multi := 1 < 2 ^ g.toNat) (fun hc => ?_) fun e he => ?_
    · rw [(rfl : exec _ s = execVst ..), execVst, hregs, issue_can hc, hst]
      rfl
    · obtain ⟨j, rfl⟩ := hblocks he
      exact ⟨_, _, fun _ => rfl, rfl⟩
  case vlds =>
    refine IsMemInstr.vectorLoads (multi := true) (fun hc => ?_) (hlanesIn strided)
    rw [(rfl : exec _ s = execVlds ..), execVlds, issue_can hc, hld, hin]
    rfl
  case vsts =>
    refine IsMemInstr.vectorStores (multi := true) (fun hc => ?_) (hlanesOut strided)
    rw [(rfl : exec _ s = execVsts ..), execVsts, issue_can hc, hst, hout]
    rfl
  case vldx =>
    refine IsMemInstr.vectorLoads (multi := true) (fun hc => ?_) (hlanesIn indexed)
    rw [(rfl : exec _ s = execVldx ..), execVldx, issue_can hc, hld, hin, hindexed]
  case vstx =>
    refine IsMemInstr.vectorStores (multi := true) (fun hc => ?_) (hlanesOut indexed)
    rw [(rfl : exec _ s = execVstx ..), execVstx, issue_can hc, hst, hout, hindexed]
  case vldt =>
    intro rs
    have hrs : groupRefs d w.lanes = rs := groupRefs_eq ..
    refine IsMemInstr.vectorLoads (multi := true) (fun hc => ?_) fun e he => ?_
    · rw [(rfl : exec _ s = execVldt ..), execVldt, Width.lanes_eq, hrs, issue_can hc, hld, hon]
      rfl
    · obtain ⟨j, -, hj⟩ := List.mem_flatMap.mp he
      obtain ⟨r, -, rfl⟩ := List.mem_map.mp hj
      exact laneLoad_loads w r (d.toNat + j) rfl rfl

end Sys2Proof.Machine
end

section
/-! SUPPORT. Accumulator rows read and written, free rows (01 R22, R25), and the statement on VPARK and VUNPARK (07 R161, R162). -/
namespace Sys2Proof.Machine

/-! ### Rows written -/

theorem rowValue_setRow (k : Core) (n : Nat) (v : Vec) (q : Nat) : rowValue (setRow k n v) q = if q = n then v else rowValue k q := by
  by_cases hv : v = 0 <;> by_cases hq : q = n
  · simp only [rowValue, setRow, hv, hq, if_true, findBy_dropBy_self]
  · simp only [rowValue, setRow, hv, hq, if_true, if_false, findBy_dropBy_ne _ _ hq]
  · have hself := findBy_putBy_self (fun p : Nat × Vec => p.1) (n, v) k.rows
    simp only [rowValue, setRow, hv, hq, if_true, if_false, hself]
  · have hne := findBy_putBy_ne (fun p : Nat × Vec => p.1) (n, v) k.rows hq
    simp only [rowValue, setRow, hv, hq, if_false, hne]

/-- Rows written from one upward: nothing else of the core changes, each row takes its value, and none of them stays poisoned. -/
theorem setRows_spec (vs : List Vec) : ∀ (k : Core) (z : Nat),
    setRows k z vs = { k with rows := (setRows k z vs).rows, badRows := k.badRows.filter fun q => decide (q < z ∨ z + vs.length ≤ q) }
    ∧ ∀ q, rowValue (setRows k z vs) q = if z ≤ q ∧ q < z + vs.length then vs.getD (q - z) 0 else rowValue k q := by
  induction vs with
  | nil =>
    intro k z
    refine ⟨?_, fun q => by rw [if_neg (by rw [List.length_nil]; omega)]; rfl⟩
    have hall : k.badRows.filter (fun q => decide (q < z ∨ z + ([] : List Vec).length ≤ q)) = k.badRows :=
      List.filter_eq_self.mpr fun q _ => by simp; omega
    rw [hall]
    rfl
  | cons v vs ih =>
    intro k z
    obtain ⟨hcore, hrow⟩ := ih (setRow k z v) (z + 1)
    refine ⟨?_, fun q => ?_⟩
    · have hbad : (setRow k z v).badRows.filter (fun q => decide (q < z + 1 ∨ z + 1 + vs.length ≤ q))
          = k.badRows.filter fun q => decide (q < z ∨ z + (v :: vs).length ≤ q) := by
        rw [setRow, List.filter_filter]
        refine List.filter_congr fun q _ => ?_
        rw [List.length_cons, bne, Bool.eq_iff_iff]
        simp only [Bool.and_eq_true, decide_eq_true_eq, Bool.not_eq_true', beq_eq_false_iff_ne]
        omega
      rw [setRows, hcore, hbad]
      rfl
    · rw [setRows, hrow, rowValue_setRow, List.length_cons]
      by_cases hq : q = z
      · subst hq
        rw [if_neg (by omega), if_pos rfl, if_pos (by omega), Nat.sub_self]
        rfl
      · by_cases hin : z + 1 ≤ q ∧ q < z + 1 + vs.length
        · obtain ⟨j, rfl⟩ := Nat.exists_eq_add_of_le hin.1
          rw [if_pos hin, if_pos (by omega), Nat.add_sub_cancel_left, show z + 1 + j - z = j + 1 by omega, List.getD_cons_succ]
        · rw [if_neg hin, if_neg hq, if_neg (by omega)]

/-! ### Free rows -/

/-- A row is below the engine range, no actor's, no slot's, and no victim's (R22, R302). -/
def FreeRow (s : State) (r : Nat) : Prop := r + (getCore s s.curCore).engine < 2048
  ∧ (∀ l ∈ s.launches, l.id ≠ 0 → l.phase ≠ .ended → ∀ x ∈ l.actors,
      x.core = s.curCore → (x.place = .core ∨ x.place = .parked) → rowSaved s l.id x r = false → x.owns r = false)
  ∧ (∀ x ∈ slotsOf (getCore s s.curCore), r ∉ x.parked) ∧ ∀ v ∈ (getCore s s.curCore).victims, v.unit ≠ r / 16

theorem rowOwned_eq_false (s : State) (c r : Nat) : rowOwned s c r = false ↔ ∀ l ∈ s.launches, l.id ≠ 0 → l.phase ≠ .ended → ∀ x ∈ l.actors,
    x.core = c → (x.place = .core ∨ x.place = .parked) → rowSaved s l.id x r = false → x.owns r = false := by
  simp only [rowOwned, rowOwnedBut, rowOwnedIf, Launch.holds, List.any_eq_false, Bool.and_eq_true, bne_iff_ne, Bool.or_eq_true, beq_iff_eq,
    Bool.not_eq_true', List.any_eq_true, not_and, not_exists, and_imp]
  constructor
  · intro h l hl hid hph x hx hc hp hs
    refine Bool.eq_false_iff.mpr fun ho => ?_
    exact absurd hs (by simpa using h l hl hid hph x hx hc ho hp)
  · intro h l hl hid hph x hx hc ho hp hs
    exact absurd ho (by simp [h l hl hid hph x hx hc hp hs])

theorem rowFree_iff (s : State) (r : Nat) : rowFree s s.curCore r = true ↔ FreeRow s r := by
  simp only [rowFree, FreeRow, Bool.and_eq_true, Bool.not_eq_true', rowOwned_eq_false, decide_eq_true_eq, rowParked, List.any_eq_false,
    List.contains_eq_mem, beq_iff_eq, and_assoc, Nat.lt_sub_iff_add_lt]

theorem mem_slotsOf {k : Core} {x : Slot} : x ∈ slotsOf k ↔ ∃ i : Fin 4, k.slots[i] = x := by
  simp only [slotsOf, Vector.mem_toList_iff, Vector.mem_iff_getElem]
  exact ⟨fun ⟨i, hi, h⟩ => ⟨⟨i, hi⟩, h⟩, fun ⟨i, h⟩ => ⟨i, i.isLt, h⟩⟩

theorem rowParked_iff (s : State) (c r : Nat) : rowParked (getCore s c) r = true ↔ ∃ i : Fin 4, r ∈ (getSlot s c i).parked := by
  simp only [rowParked, List.any_eq_true, mem_slotsOf, List.contains_eq_mem, decide_eq_true_eq]
  exact ⟨fun ⟨_, ⟨i, rfl⟩, h⟩ => ⟨i, h⟩, fun ⟨i, h⟩ => ⟨_, ⟨i, rfl⟩, h⟩⟩

theorem getSlot_settled_parked (s : State) (i : Fin 4) : (getSlot s.settled s.curCore i).parked = (getSlot s s.curCore i).parked := by
  by_cases hi : i = s.curSlot
  · subst hi
    rw [getSlot_settled, State.found, Slot.settle_parked]
    rfl
  · rw [State.settled, State.setCur, getSlot_setSlot_slot _ _ _ _ hi]

theorem rowFree_settled (s : State) (r : Nat) : rowFree s.settled s.curCore r = rowFree s s.curCore r := by
  have hparked : rowParked (getCore s.settled s.curCore) r = rowParked (getCore s s.curCore) r := by
    rw [Bool.eq_iff_iff, rowParked_iff, rowParked_iff]
    simp only [getSlot_settled_parked]
  have hcore : getCore s.settled s.curCore = { getCore s s.curCore with slots := (getCore s s.curCore).slots.set s.curSlot s.found } :=
    getCore_setSlot_self ..
  rw [rowFree, hparked, hcore]
  rfl

/-- A run of n free rows. -/
def FreeRun (s : State) (n r : Nat) : Prop := ∀ q, q < n → FreeRow s (r + q)

theorem freeRun_test (s : State) {n : Nat} (hn : 0 < n) (r : Nat) : (decide (r + n ≤ 2048) && (List.range n).all fun k => rowFree s.settled s.curCore (r + k)) = true
    ↔ FreeRun s n r := by
  simp only [rowFree_settled, Bool.and_eq_true, decide_eq_true_eq, List.all_eq_true, List.mem_range, rowFree_iff, FreeRun]
  refine ⟨fun h => h.2, fun h => ⟨?_, h⟩⟩
  have := (h (n - 1) (by omega)).1
  omega

theorem freeRun_none {s : State} {n : Nat} (hn : 0 < n) (h : ∀ r, ¬FreeRun s n r) : freeRun s.settled s.curCore n = none :=
  List.find?_eq_none.mpr fun r _ => (freeRun_test s hn r).not.mpr (h r)

theorem freeRun_some {s : State} {n r : Nat} (hn : 0 < n) (h : FreeRun s n r) (hlow : ∀ r', r' < r → ¬FreeRun s n r') :
    freeRun s.settled s.curCore n = some r := by
  refine List.find?_range_eq_some.mpr ⟨(freeRun_test s hn r).mpr h, List.mem_range.mpr ?_, fun r' hr' => ?_⟩
  · have := (h 0 hn).1
    omega
  · rw [Bool.not_eq_true', Bool.eq_false_iff]
    exact (freeRun_test s hn r').not.mpr (hlow r' hr')

/-! ### Rows read into registers -/

theorem claim_append (sl : Slot) (l l' : List RegRef) : (sl.claim l).claim l' = sl.claim (l ++ l') := by
  simp only [Slot.claim, List.map_map]
  refine congrArg (fun p => { sl with pend := p }) (List.map_congr_left fun p _ => ?_)
  by_cases hl' : p.reg ∈ l'
  · by_cases hl : p.reg ∈ l <;> simp [hl, hl']
  · by_cases hl : p.reg ∈ l <;> simp [hl, hl']

/-- Rows read into registers claim these, and change no other field of the slot. -/
theorem rowsToRegs_only (k : Core) (rs : List Nat) : ∀ (z : Nat) (sl : Slot),
    rowsToRegs k z sl rs = { sl.claim (rs.map fun r => ⟨.v, r⟩) with v := (rowsToRegs k z sl rs).v } := by
  induction rs with
  | nil => intro z sl; rw [List.map_nil, Slot.claim]; simp [rowsToRegs]
  | cons r rs ih =>
    intro z sl
    have hset : (sl.setVar ⟨.v, r⟩ (rowValue k z)) = { sl.claim [⟨.v, r⟩] with v := (sl.setVar ⟨.v, r⟩ (rowValue k z)).v } := by
      simp only [Slot.setVar, Slot.setReg]
      split <;> rfl
    have hrest := ih (z + 1) (sl.setVar ⟨.v, r⟩ (rowValue k z))
    have hall := claim_append sl [⟨.v, r⟩] (rs.map fun r => ⟨.v, r⟩)
    exact (hrest.trans (congrArg (fun y : Slot => { y.claim (rs.map fun r => ⟨.v, r⟩) with
      v := (rowsToRegs k (z + 1) (sl.setVar ⟨.v, r⟩ (rowValue k z)) rs).v }) hset)).trans
      (congrArg (fun y : Slot => { y with v := (rowsToRegs k (z + 1) (sl.setVar ⟨.v, r⟩ (rowValue k z)) rs).v }) hall)

theorem getV_rowsToRegs (k : Core) (n : Nat) : ∀ (d z : Nat) (sl : Slot) (q : Nat), q < 32 →
    (rowsToRegs k z sl (List.range' d n)).getV q = if d ≤ q ∧ q < d + n then rowValue k (z + (q - d)) else sl.getV q := by
  induction n with
  | zero => intro d z sl q _; rw [if_neg (by omega)]; rfl
  | succ n ih =>
    intro d z sl q hq
    rw [List.range'_succ, rowsToRegs, ih _ _ _ _ hq, Slot.setVar, getV_setReg _ _ _ hq]
    by_cases hd : d = q
    · subst hd
      rw [if_neg (by omega), if_pos rfl, if_pos (by omega), Nat.sub_self, Nat.add_zero]
    · by_cases hin : d + 1 ≤ q ∧ q < d + 1 + n
      · rw [if_pos hin, if_pos (by omega), show z + 1 + (q - (d + 1)) = z + (q - d) by omega]
      · rw [if_neg hin, if_neg hd, if_neg (by omega)]
        rfl

theorem group_eq_range' (d : BitVec 5) (n : Nat) : group d n = List.range' d.toNat n := (List.range'_eq_map_range ..).symm

/-! ### A core replaced -/

theorem setCore_setCore (s : State) {k k' : Core} (h : k.id = k'.id) : setCore (setCore s k) k' = setCore s k' := by
  have hput (l : List Core) : putBy (·.id) k' (putBy (·.id) k l) = putBy (·.id) k' l := by
    induction l with
    | nil => simp [putBy, h]
    | cons y r ih =>
      simp only [putBy, h]
      split
      · simp [putBy, h]
      · split <;> simp_all [putBy]
  exact congrArg (fun l => { s with cores := l }) (hput s.cores)

/-- What changes a core beside its slots may be done before one of them is replaced. -/
theorem modCore_setSlot {f : Core → Core} (hid : ∀ k, (f k).id = k.id) (hslots : ∀ k, (f k).slots = k.slots)
    (hf : ∀ k S, f { k with slots := S } = { f k with slots := S }) (s : State) (c : Nat) (i : Fin 4) (v : Slot) :
    modCore (setSlot s c i v) c f = setSlot (modCore s c f) c i v := by
  have hcore := getCore_modCore_self s c f ((hid _).trans (getCore_id s c))
  rw [modCore, getCore_setSlot_self, hf, setSlot, setSlot, hcore, hslots]
  refine (setCore_setCore s ?_).trans (setCore_setCore s ?_).symm
  · exact (hid (getCore s c)).symm
  · rfl

theorem setRows_slots (S : Vector Slot 4) (vs : List Vec) : ∀ (k : Core) (z : Nat),
    setRows { k with slots := S } z vs = { setRows k z vs with slots := S } := by
  induction vs with
  | nil => exact fun _ _ => rfl
  | cons v vs ih => exact fun k z => ih (setRow k z v) (z + 1)

theorem setRows_slots_id (vs : List Vec) (k : Core) (z : Nat) : (setRows k z vs).slots = k.slots ∧ (setRows k z vs).id = k.id := by
  rw [(setRows_spec vs k z).1]
  exact ⟨rfl, rfl⟩

/-- What VPARK leaves beside its slot. -/
def rowsWritten (s : State) (z : Nat) (vs : List Vec) : State := modCore s s.curCore fun k => setRows k z vs

theorem getCore_rowsWritten (s : State) (z : Nat) (vs : List Vec) :
    getCore (rowsWritten s z vs) s.curCore = setRows (getCore s s.curCore) z vs :=
  getCore_modCore_self s s.curCore _ ((setRows_slots_id vs _ z).2.trans (getCore_id s s.curCore))

theorem setSlot_rowsWritten (s : State) (z : Nat) (vs : List Vec) (x : Slot) :
    setSlot (modCore s.settled s.curCore fun k => setRows k z vs) s.curCore s.curSlot x = setSlot (rowsWritten s z vs) s.curCore s.curSlot x := by
  have h := modCore_setSlot (f := fun k => setRows k z vs) (fun k => (setRows_slots_id vs k z).2) (fun k => (setRows_slots_id vs k z).1)
    (fun k S => setRows_slots S vs k z) s s.curCore s.curSlot s.found
  rw [State.settled, State.setCur, h, setSlot_setSlot, rowsWritten]

theorem retires_at {u : State} {c : Nat} {i : Fin 4} (hc : u.curCore = c) (hi : u.curSlot = i) (sl : Slot) (sc : Nat)
    {npc npc' : Word} (hn : npc' = npc) : Retires u (retire (setSlot u c i sl) c i sc npc') sc npc sl := by
  subst hc hi hn
  exact retires_retire u sl sc npc'

/-! ### The instructions -/

section
variable {s : State} {a b d : BitVec 5}

theorem exec_vpark (s : State) (b a d : BitVec 5) : exec (.vpark b a d) s = execVpark b a d s := rfl
theorem exec_vunpark (s : State) (b a d : BitVec 5) : exec (.vunpark b a d) s = execVunpark b a d s := rfl

theorem vpark_noRows (hdb : d.toNat ≤ b.toNat) (hc : canIssue s (groupRefs d (b.toNat + 1 - d.toNat)) [xr a] = true)
    (hnone : ∀ r, ¬FreeRun s (b.toNat + 1 - d.toNat) r) :
    Does (.vpark b a d) s fun t => Retires s t 0 (s.cur.pc + 4) ((s.found.claim [xr a]).setReg (xr a) 0x800) := by
  have hfree := freeRun_none (by omega) hnone
  refine ⟨_, by rw [exec_vpark, execVpark, issue_can hc, hfree], ?_⟩
  rw [found_pc, State.settled, State.setCur, setSlot_setSlot]
  exact retires_retire s (s.found.setVar (xr a) 0x800) 0 (s.cur.pc + 4)

theorem vpark_rows {r : Nat} (hdb : d.toNat ≤ b.toNat) (hc : canIssue s (groupRefs d (b.toNat + 1 - d.toNat)) [xr a] = true)
    (hrun : FreeRun s (b.toNat + 1 - d.toNat) r) (hlow : ∀ r', r' < r → ¬FreeRun s (b.toNat + 1 - d.toNat) r') :
    Does (.vpark b a d) s fun t =>
      Retires (rowsWritten s r ((group d (b.toNat + 1 - d.toNat)).map s.found.getV)) t 0 (s.cur.pc + 4)
        { (s.found.claim [xr a]).setReg (xr a) (BitVec.ofNat 512 r) with
          parked := s.cur.parked ++ (List.range (b.toNat + 1 - d.toNat)).map (r + ·) } := by
  have hfree := freeRun_some (by omega) hrun hlow
  refine ⟨_, by rw [exec_vpark, execVpark, issue_can hc, hfree], ?_⟩
  have hparked : s.found.parked = s.cur.parked := Slot.settle_parked _
  have hpc : (s.found.setVar (xr a) (BitVec.ofNat 512 r)).pc = s.cur.pc := by rw [Slot.setVar, Slot.setReg_pc, Slot.claim, found_pc]
  dsimp only
  rw [setSlot_rowsWritten, hparked]
  exact retires_at rfl rfl _ 0 (congrArg (· + 4) hpc)

theorem vunpark_notParked {r : Nat} (hc : canIssue s [xr a] (groupRefs d (b.toNat + 1 - d.toNat)) = true) (hm : s.cur.mats = [])
    (hr : ((List.range (b.toNat + 1 - d.toNat)).map ((s.found.rx a).toNat + ·)).find? (fun r => !s.cur.parked.contains r) = some r) :
    Traps (.vunpark b a d) s 0x04 (BitVec.ofNat 64 r) := by
  have hparked : s.found.parked = s.cur.parked := Slot.settle_parked _
  have hmats : s.found.mats = [] := (Slot.settle_mats _).trans hm
  rw [Traps, exec_vunpark, execVunpark, issue_can hc]
  simp only [hmats, hparked, hr, found_pc, List.isEmpty_nil, Bool.not_true, Bool.false_eq_true, if_false]
  rfl

theorem getCore_settled (s : State) :
    getCore s.settled s.curCore = { getCore s s.curCore with slots := (getCore s s.curCore).slots.set s.curSlot s.found } :=
  getCore_setSlot_self ..

theorem rowsToRegs_settled (s : State) (rs : List Nat) : ∀ (z : Nat) (sl : Slot),
    rowsToRegs (getCore s.settled s.curCore) z sl rs = rowsToRegs (getCore s s.curCore) z sl rs := by
  have hrow (n : Nat) : rowValue (getCore s.settled s.curCore) n = rowValue (getCore s s.curCore) n := by rw [getCore_settled]; rfl
  induction rs with
  | nil => exact fun _ _ => rfl
  | cons r rs ih => exact fun z sl => by rw [rowsToRegs, rowsToRegs, hrow, ih]

/-- A slot after n parked rows from one upward have been read back into registers (R161). -/
def Slot.unparked (sl : Slot) (k : Core) (z n : Nat) (d : BitVec 5) : Slot :=
  { rowsToRegs k z sl (group d n) with
    parked := (rowsToRegs k z sl (group d n)).parked.filter fun r => !((List.range n).map (z + ·)).contains r }

theorem Slot.unparked_eq (sl : Slot) (k : Core) (z n : Nat) (d : BitVec 5) : sl.unparked k z n d =
    { sl.claim (groupRefs d n) with
      v := (rowsToRegs k z sl (group d n)).v, parked := sl.parked.filter fun r => !((List.range n).map (z + ·)).contains r } := by
  rw [Slot.unparked, rowsToRegs_only]
  rfl

theorem vunpark_rows {n : Nat} (hn : n = b.toNat + 1 - d.toNat) (hc : canIssue s [xr a] (groupRefs d n) = true) (hm : s.cur.mats = [])
    (hr : ∀ r ∈ (List.range n).map ((s.found.rx a).toNat + ·), r ∈ s.cur.parked ∧ r ∉ (getCore s s.curCore).badRows) :
    Does (.vunpark b a d) s fun t =>
      Retires s t 0 (s.cur.pc + 4) (s.found.unparked (getCore s s.curCore) (s.found.rx a).toNat n d) := by
  subst hn
  have hmats : s.found.mats = [] := (Slot.settle_mats _).trans hm
  have hparked : s.found.parked = s.cur.parked := Slot.settle_parked _
  have hall : ((List.range (b.toNat + 1 - d.toNat)).map ((s.found.rx a).toNat + ·)).find? (fun r => !s.found.parked.contains r) = none :=
    List.find?_eq_none.mpr fun r h => by simp [hparked, (hr r h).1]
  have hgood : ((List.range (b.toNat + 1 - d.toNat)).map ((s.found.rx a).toNat + ·)).find?
      (fun r => (getCore s.settled s.curCore).badRows.contains r) = none :=
    List.find?_eq_none.mpr fun r h => by simp [getCore_settled, (hr r h).2]
  have hpc : (rowsToRegs (getCore s s.curCore) (s.found.rx a).toNat s.found (group d (b.toNat + 1 - d.toNat))).pc = s.cur.pc := by
    rw [rowsToRegs_only, Slot.claim, found_pc]
  have hexec : exec (.vunpark b a d) s = .next (retire (setSlot s.settled s.curCore s.curSlot
      (s.found.unparked (getCore s s.curCore) (s.found.rx a).toNat (b.toNat + 1 - d.toNat) d)) s.curCore s.curSlot 0
        ((rowsToRegs (getCore s s.curCore) (s.found.rx a).toNat s.found (group d (b.toNat + 1 - d.toNat))).pc + 4)) := by
    rw [exec_vunpark, execVunpark, issue_can hc]
    simp only [hmats, hall, hgood, List.isEmpty_nil, Bool.not_true, Bool.false_eq_true, if_false, rowsToRegs_settled] <;> rfl
  refine ⟨_, hexec, ?_⟩
  rw [State.settled, State.setCur, setSlot_setSlot]
  exact retires_at rfl rfl _ 0 (congrArg (· + 4) hpc)

end

/-- Settles O27: a run of free rows is what the model looks for, and rows written and read back are told row by row. -/
theorem parking : Obligations.Parking := by
  unfold Obligations.Parking
  intro s b a d hdb n regs z rows k free run
  have hregs : groupRefs d n = regs := groupRefs_eq ..
  have hn : n = b.toNat + 1 - d.toNat := rfl
  refine ⟨fun hc => ⟨fun hnone => vpark_noRows hdb (hregs ▸ hc) hnone, fun r hrun hlow => ?_⟩, fun hc hm => ⟨fun r hr => ?_, fun hr => ?_⟩⟩
  · obtain ⟨t, hexec, hret⟩ := vpark_rows hdb (hregs ▸ hc) hrun hlow
    have hlen : ((group d n).map s.found.getV).length = n := by rw [List.length_map, group, List.length_map, List.length_range]
    obtain ⟨hcore, hrow⟩ := setRows_spec ((group d n).map s.found.getV) k r
    rw [hlen] at hcore hrow
    have hbad := congrArg Core.badRows hcore
    have hown := getCore_rowsWritten s r ((group d n).map s.found.getV)
    refine ⟨t, hexec, _, hret, rfl, fun c hc => ?_, ?_, fun q => ?_, ?_⟩
    · exact getCore_modCore_ne s s.curCore _ ((setRows_slots_id _ _ r).2.trans (getCore_id s s.curCore)) hc
    · rw [hown]
      exact hcore.trans (congrArg (fun l => { k with rows := (setRows k r ((group d n).map s.found.getV)).rows, badRows := l }) hbad.symm)
    · rw [hown, hrow]
      by_cases hq : r ≤ q ∧ q < r + n
      · rw [if_pos hq, if_pos hq, List.getD_eq_getElem?_getD, List.getElem?_map, group, List.getElem?_map, List.getElem?_range (by omega)]
        rfl
      · rw [if_neg hq, if_neg hq]
    · rw [hown]
      exact hbad
  · exact vunpark_notParked (hregs ▸ hc) hm hr
  · obtain ⟨t, hexec, hret⟩ := vunpark_rows hn (hregs ▸ hc) hm hr
    have hparked : s.found.parked = s.cur.parked := Slot.settle_parked _
    rw [Slot.unparked_eq, hparked, hregs] at hret
    refine ⟨t, hexec, _, hret, fun q hq => ?_⟩
    refine (?_ : _ = (rowsToRegs k z s.found (group d n)).getV q).trans ?_
    · rw [Slot.getV, Slot.getV]
    · rw [group_eq_range', getV_rowsToRegs _ _ _ _ _ _ hq, hn]
      congr 1
      simp only [eq_iff_iff]
      omega

end Sys2Proof.Machine
end

section
/-! SUPPORT. The cards of copy jobs (07 R163, R164), tags claimed and the window entered, and the statement on CPY, GATH, SCAT and the
instructions on completion tags (R171). -/
namespace Sys2Proof.Machine

/-! ### Fields of a card -/

theorem cardField_lt (c lo n : Nat) : cardField c lo n < 2 ^ n := Nat.mod_lt _ (Nat.two_pow_pos n)

theorem cardInt_eq (c lo : Nat) : cardInt c lo 32 =
    if cardField c lo 32 < 2 ^ 31 then (cardField c lo 32 : Int) else (cardField c lo 32 : Int) - 2 ^ 32 := by
  rw [cardInt, sintOf, toInt_halves (by decide), BitVec.toNat_ofNat, Nat.mod_eq_of_lt (cardField_lt ..)]

theorem toNat_cardField (c lo : Nat) : (BitVec.ofNat 64 (cardField c lo 64)).toNat = cardField c lo 64 := by
  rw [BitVec.toNat_ofNat, Nat.mod_eq_of_lt (cardField_lt ..)]

theorem ofNat_cardField_eq_zero (c lo : Nat) : BitVec.ofNat 64 (cardField c lo 64) = 0 ↔ cardField c lo 64 = 0 := by
  rw [← BitVec.toNat_inj, toNat_cardField]
  rfl

theorem cardInt_eq_zero (c lo : Nat) : cardInt c lo 32 = 0 ↔ cardField c lo 32 = 0 := by
  have := cardField_lt c lo 32
  rw [cardInt_eq]
  split <;> omega

theorem cardInt_nonneg (c lo : Nat) : 0 ≤ cardInt c lo 32 ↔ cardField c lo 32 < 2 ^ 31 := by
  have := cardField_lt c lo 32
  rw [cardInt_eq]
  split <;> omega

theorem one_lt_cardInt (c lo : Nat) (h : cardField c lo 32 < 2 ^ 31) : 1 < cardInt c lo 32 ↔ 1 < cardField c lo 32 := by
  rw [cardInt_eq, if_pos h]
  omega

/-! ### Alignment of strides and addresses -/

theorem divisible_nat (x n : Nat) : divisible x n = true ↔ x % 2 ^ n = 0 := by
  rw [divisible, decide_eq_true_eq]
  exact_mod_cast Iff.rfl

/-- A stride is a multiple of the element's size exactly where its bits are. -/
theorem divisible_cardInt (c lo : Nat) {n : Nat} (hn : n ≤ 32) : divisible (cardInt c lo 32) n = true ↔ cardField c lo 32 % 2 ^ n = 0 := by
  have hdvd : (2 ^ n : Int) ∣ 2 ^ 32 := pow_dvd_pow 2 hn
  rw [← divisible_nat, divisible, divisible, decide_eq_true_eq, decide_eq_true_eq, ← Int.dvd_iff_emod_eq_zero, ← Int.dvd_iff_emod_eq_zero, cardInt_eq]
  split
  · rfl
  · exact dvd_sub_left hdvd

/-! ### Well-formed cards (R164 step 3, R167) -/

/-- A stride that is used is a multiple of the element's size. -/
def StrideFits (c : Nat) (used : Prop) (lo : Nat) : Prop := used → cardField c lo 32 % 2 ^ cardField c 448 8 = 0

/-- What every well-formed card keeps. -/
def CardCommon (c : Nat) : Prop :=
  cardField c 960 64 = 0 ∧ cardField c 520 56 = 0 ∧ cardField c 458 6 = 0 ∧ cardField c 448 8 ≤ 6
  ∧ (∀ n, n < 4 → 0 < cardField c (128 + 16 * n) 16) ∧ cardField c 0 64 % 2 ^ cardField c 448 8 = 0
  ∧ cardField c 64 64 % 2 ^ cardField c 448 8 = 0 ∧ (cardField c 456 1 = 1 → cardField c 448 8 = 6)
  ∧ (parseSignal (cardField c 457 1 = 1) (cardField c 472 8) (cardField c 512 8) (cardField c 480 32)).isSome = true

/-- What the card of a gather or scatter keeps. -/
def CardIndexed (c : Nat) : Prop :=
  cardField c 144 16 = 1 ∧ cardField c 160 16 = 1 ∧ cardField c 176 16 = 1 ∧ cardField c 256 32 = 0 ∧ cardField c 288 32 = 0
  ∧ cardField c 384 32 = 0 ∧ cardField c 416 32 = 0 ∧ 1 ≤ cardField c 640 32 ∧ cardField c 640 32 ≤ 2 ^ 24
  ∧ cardField c 672 32 < 2 ^ 31 ∧ cardField c 576 64 % 4 = 0
  ∧ StrideFits c (1 < cardField c 128 16) 192 ∧ StrideFits c (1 < cardField c 128 16) 320

/-- What the card of a kind of job keeps. -/
def CardOfKind (kind : CopyKind) (c : Nat) : Prop :=
  match kind with
  | .cpy => cardField c 576 64 = 0 ∧ cardField c 640 32 = 0 ∧ cardField c 672 32 = 0 ∧ cardField c 704 64 = 0 ∧ cardField c 464 8 = 0
    ∧ ∀ n, n < 4 → StrideFits c (1 < cardField c (128 + 16 * n) 16) (192 + 32 * n) ∧ StrideFits c (1 < cardField c (128 + 16 * n) 16) (320 + 32 * n)
  | .gath => CardIndexed c ∧ cardField c 464 8 = 0 ∧ StrideFits c (1 < cardField c 672 32) 224 ∧ StrideFits c (1 < cardField c 640 32) 352
  | .scat => CardIndexed c ∧ cardField c 704 64 = 0 ∧ StrideFits c (1 < cardField c 672 32) 352 ∧ StrideFits c (1 < cardField c 640 32) 224
    ∧ (cardField c 464 8 = 0 ∨ (cardField c 464 8 ≤ 5 ∧ cardField c 456 1 = 0 ∧ cardField c 448 8 = if cardField c 464 8 = 2 then 3 else 2))

theorem forall_lt_four (p : Nat → Prop) : (∀ n, n < 4 → p n) ↔ p 0 ∧ p 1 ∧ p 2 ∧ p 3 :=
  ⟨fun h => ⟨h 0 (by decide), h 1 (by decide), h 2 (by decide), h 3 (by decide)⟩, fun ⟨h0, h1, h2, h3⟩ n hn => by
    interval_cases n <;> assumption⟩

section
variable (c : Nat)

theorem strideFits_iff (hesz : cardField c 448 8 ≤ 6) (used : Prop) (lo : Nat) :
    (¬used ∨ divisible (cardInt c lo 32) (cardField c 448 8) = true) ↔ StrideFits c used lo := by
  rw [divisible_cardInt c lo (by omega), StrideFits, imp_iff_not_or]

theorem range_four : List.range 4 = [0, 1, 2, 3] := rfl

section
variable {n : Nat} (hn : n < 4)
include hn

theorem parse_cnt : (parseCard c).cnt.getD n 0 = cardField c (128 + 16 * n) 16 := by interval_cases n <;> rfl
theorem parse_sstr : (parseCard c).sstr.getD n 0 = cardInt c (192 + 32 * n) 32 := by interval_cases n <;> rfl
theorem parse_dstr : (parseCard c).dstr.getD n 0 = cardInt c (320 + 32 * n) 32 := by interval_cases n <;> rfl

end

theorem cardOk_iff (kind : CopyKind) : cardOk kind c = true ↔ CardCommon c ∧ CardOfKind kind c := by
  have hesz : (parseCard c).esz = cardField c 448 8 := rfl
  have hsrc : divisible ((parseCard c).src.toNat : Int) (cardField c 448 8) = true ↔ cardField c 0 64 % 2 ^ cardField c 448 8 = 0 := by
    simp only [parseCard, toNat_cardField, divisible_nat]
  have hdst : divisible ((parseCard c).dst.toNat : Int) (cardField c 448 8) = true ↔ cardField c 64 64 % 2 ^ cardField c 448 8 = 0 := by
    simp only [parseCard, toNat_cardField, divisible_nat]
  have hcnt : (∀ x ∈ (parseCard c).cnt, 0 < x) ↔ ∀ n, n < 4 → 0 < cardField c (128 + 16 * n) 16 := by
    simp [parseCard, forall_lt_four, range_four]
  have hdesc : (parseCard c).desc = false ↔ ¬cardField c 456 1 = 1 := by simp only [parseCard, decide_eq_false_iff_not]
  have hfits : (¬cardField c 456 1 = 1 ∨ cardField c 448 8 = 6) ↔ (cardField c 456 1 = 1 → cardField c 448 8 = 6) := imp_iff_not_or.symm
  have hidx : (parseCard c).idx = 0 ↔ cardField c 576 64 = 0 := ofNat_cardField_eq_zero c 576
  have hfill : (parseCard c).fill = 0 ↔ cardField c 704 64 = 0 := ofNat_cardField_eq_zero c 704
  have hbound : (parseCard c).bound = cardInt c 672 32 := rfl
  have hnidx : (parseCard c).nidx = cardField c 640 32 := rfl
  have hrop : (parseCard c).rop = cardField c 464 8 := rfl
  have hindex : (parseCard c).idx.toNat = cardField c 576 64 := toNat_cardField c 576
  have hbits := cardField_lt c 456 1
  have hflag : ¬cardField c 456 1 = 1 ↔ cardField c 456 1 = 0 := by omega
  have hthree (p : Nat → Prop) : (∀ n, n < 3 → p n) ↔ p 0 ∧ p 1 ∧ p 2 :=
    ⟨fun h => ⟨h 0 (by decide), h 1 (by decide), h 2 (by decide)⟩, fun ⟨h0, h1, h2⟩ n hn => by interval_cases n <;> assumption⟩
  have hss (hsize : cardField c 448 8 ≤ 6) (n : Nat) (hn : n < 4) (used : Prop) := parse_sstr c hn ▸ strideFits_iff c hsize used (192 + 32 * n)
  have hds (hsize : cardField c 448 8 ≤ 6) (n : Nat) (hn : n < 4) (used : Prop) := parse_dstr c hn ▸ strideFits_iff c hsize used (320 + 32 * n)
  have hzero (n : Nat) (hn : n < 4) : ((parseCard c).sstr.getD n 0 = 0 ↔ cardField c (192 + 32 * n) 32 = 0)
      ∧ ((parseCard c).dstr.getD n 0 = 0 ↔ cardField c (320 + 32 * n) 32 = 0) := by
    rw [parse_sstr c hn, parse_dstr c hn, cardInt_eq_zero, cardInt_eq_zero]
    exact ⟨Iff.rfl, Iff.rfl⟩
  cases kind <;> simp only [cardOk, Bool.and_eq_true, decide_eq_true_eq, Bool.or_eq_true, Bool.not_eq_true', decide_eq_false_iff_not,
    List.all_eq_true, List.mem_range, hesz, hsrc, hdst, hcnt, hdesc, hfits, CardCommon, CardOfKind, CardIndexed, hbound, hnidx, hrop, hindex,
    cardInt_nonneg, and_assoc, and_congr_right_iff]
  case cpy =>
    intro _ _ _ hsize _ _ _ _ _
    simp only [hidx, hfill, cardInt_eq_zero, and_congr_right_iff]
    intro _ _ _ _ _
    refine forall₂_congr fun n hn => ?_
    rw [hss hsize n hn, hds hsize n hn, parse_cnt c hn]
  case gath =>
    intro _ _ _ hsize _ _ _ _ _
    simp only [hthree, hss hsize 0 (by decide), hds hsize 0 (by decide), hss hsize 1 (by decide),
      hds hsize 1 (by decide), parse_cnt c (show 0 < 4 by decide), parse_cnt c (show 0 + 1 < 4 by decide), parse_cnt c (show 1 + 1 < 4 by decide),
      parse_cnt c (show 2 + 1 < 4 by decide), hzero 2 (by decide), hzero 3 (by decide), and_assoc, and_congr_right_iff]
    intro _ _ _ _ _ _ _ _ _ hb _ _ _ _
    rw [one_lt_cardInt c 672 hb]
  case scat =>
    intro _ _ _ hsize _ _ _ _ _
    simp only [hthree, hfill, hflag, hss hsize 0 (by decide), hds hsize 0 (by decide), hss hsize 1 (by decide),
      hds hsize 1 (by decide), parse_cnt c (show 0 < 4 by decide), parse_cnt c (show 0 + 1 < 4 by decide), parse_cnt c (show 1 + 1 < 4 by decide),
      parse_cnt c (show 2 + 1 < 4 by decide), hzero 2 (by decide), hzero 3 (by decide), and_assoc, and_congr_right_iff]
    intro _ _ _ _ _ _ _ _ _ hb _ _ _ _
    rw [one_lt_cardInt c 672 hb]
    simp only [and_congr_right_iff]
    intro _ _
    have hsmall : cardField c 464 8 = 0 → cardField c 464 8 ≤ 5 := fun h => h.le.trans (by decide)
    exact ⟨fun ⟨hle, h⟩ => h.imp_right fun hx => ⟨hle, hx⟩, fun h => ⟨h.elim hsmall And.left, h.imp_right And.right⟩⟩

theorem parseCard_eq : parseCard c =
    let f (lo n : Nat) : Nat := cardField c lo n
    let si (lo : Nat) : Int := if f lo 32 < 2 ^ 31 then f lo 32 else (f lo 32 : Int) - 2 ^ 32
    let cnt (n : Nat) : Nat := f (128 + 16 * n) 16
    ⟨BitVec.ofNat 64 (f 704 64), si 672, f 640 32, BitVec.ofNat 64 (f 576 64), f 464 8, f 456 1 = 1, f 448 8,
      [si 320, si 352, si 384, si 416], [si 192, si 224, si 256, si 288], [cnt 0, cnt 1, cnt 2, cnt 3],
      BitVec.ofNat 64 (f 64 64), BitVec.ofNat 64 (f 0 64)⟩ := by
  simp only [← cardInt_eq]
  rfl

end

theorem parseSignal_notify (tag nch nep : Nat) : parseSignal true tag nch nep =
    if tag = 0 ∧ nch / 2 ^ 4 < 7 then some (.notify nep (nch % 2 ^ 4) (nch / 2 ^ 4)) else none := by
  have hwide : (tag = 0 ∧ nch < 128) ∧ nch / 16 < 7 ↔ tag = 0 ∧ nch / 16 < 7 := by omega
  simp only [parseSignal, if_true, Bool.and_eq_true, decide_eq_true_eq, hwide]
  rfl

theorem parseSignal_tag (tag nch nep : Nat) : parseSignal false tag nch nep =
    if nch = 0 ∧ nep = 0 ∧ tag < 64 then some (.tag tag) else none := by
  simp only [parseSignal, Bool.false_eq_true, if_false, Bool.and_eq_true, decide_eq_true_eq, and_assoc]

/-- The tag that a card signals is its TAG. -/
theorem parseSignal_isTag {notify : Bool} {tag nch nep n : Nat} (h : parseSignal notify tag nch nep = some (.tag n)) : n = tag := by
  cases notify with
  | true =>
    rw [parseSignal_notify] at h
    split at h <;> cases h
  | false =>
    rw [parseSignal_tag] at h
    split at h <;> cases h
    rfl

/-! ### Claims (R164 step 4) -/

section
variable {s u : State} {sig : Signal} {n : Nat}

/-- What the claim of the current slot's instruction leaves beside its slot, where it may be made. -/
def claimOf (s : State) (sig : Signal) : Option State :=
  if s.cur.claimed then some s else claimTag s s.curCore s.cur.launch sig

/-- The tag claimed is busy and not done; the others stand (R164). -/
def TagClaimed (s u : State) (sig : Signal) : Prop := ∀ n, sig = .tag n → ∀ b, b < 64 →
  (s.cur.claimed = true → (getResident u s.curCore s.cur.launch).busy = (getResident s s.curCore s.cur.launch).busy
    ∧ (getResident u s.curCore s.cur.launch).tagdone = (getResident s s.curCore s.cur.launch).tagdone)
  ∧ (s.cur.claimed = false →
    (getResident u s.curCore s.cur.launch).busy.getLsbD b = (decide (b = n) || (getResident s s.curCore s.cur.launch).busy.getLsbD b)
    ∧ (getResident u s.curCore s.cur.launch).tagdone.getLsbD b
      = (decide (b ≠ n) && (getResident s s.curCore s.cur.launch).tagdone.getLsbD b))

theorem getLsbD_bit {b : Nat} (hb : b < 64) (n : Nat) : ((1 : BitVec 64) <<< n).getLsbD b = decide (b = n) := by
  rw [BitVec.getLsbD_shiftLeft, show (1 : BitVec 64) = 1#64 from rfl, BitVec.getLsbD_one]
  rw [Bool.eq_iff_iff]
  simp only [hb, decide_true, Bool.true_and, Bool.and_eq_true, Bool.not_eq_true', decide_eq_false_iff_not, decide_eq_true_eq]
  omega

theorem busy_and_bit (x : BitVec 64) (n : Nat) : (x &&& ((1 : BitVec 64) <<< n) != 0) = x.getLsbD n := by
  have hzero : x &&& ((1 : BitVec 64) <<< n) = 0 ↔ x.getLsbD n = false := by
    constructor
    · intro h
      by_cases hn : n < 64
      · have hbit : (x &&& ((1 : BitVec 64) <<< n)).getLsbD n = (0 : BitVec 64).getLsbD n := by rw [h]
        rwa [BitVec.getLsbD_and, getLsbD_bit hn, decide_eq_true rfl, Bool.and_true, show (0 : BitVec 64) = 0#64 from rfl, BitVec.getLsbD_zero] at hbit
      · exact BitVec.getLsbD_of_ge _ _ (Nat.le_of_not_lt hn)
    · intro h
      refine BitVec.eq_of_getLsbD_eq fun b hb => ?_
      rw [BitVec.getLsbD_and, getLsbD_bit hb, show (0 : BitVec 64) = 0#64 from rfl, BitVec.getLsbD_zero]
      by_cases hbn : b = n
      · rw [hbn, h, Bool.false_and]
      · rw [decide_eq_false hbn, Bool.and_false]
  rw [bne, Bool.eq_iff_iff, Bool.not_eq_true', beq_eq_false_iff_ne, ne_eq, hzero, Bool.not_eq_false]

/-- The resident task partition once a tag is claimed. -/
def Resident.claimed (r : Resident) (n : Nat) : Resident :=
  { r with busy := r.busy ||| ((1 : BitVec 64) <<< n), tagdone := r.tagdone &&& ~~~((1 : BitVec 64) <<< n) }

theorem claimTag_tag (s : State) (c l n : Nat) : claimTag s c l (.tag n)
    = if (getResident s c l).busy.getLsbD n then none else some (setResident s c ((getResident s c l).claimed n)) := by
  rw [← busy_and_bit]
  rfl

/-- A claim of the instruction: none where it was made before or the signal is a message, else that of the tag. -/
theorem claimOf_cases (h : claimOf s sig = some u) : (u = s ∧ ∀ n, sig = .tag n → s.cur.claimed = true)
    ∨ ∃ n, sig = .tag n ∧ s.cur.claimed = false ∧ u = setResident s s.curCore ((getResident s s.curCore s.cur.launch).claimed n) := by
  rw [claimOf] at h
  cases hc : s.cur.claimed with
  | true =>
    rw [hc, if_pos rfl, Option.some.injEq] at h
    exact .inl ⟨h.symm, fun _ _ => rfl⟩
  | false =>
    rw [hc, if_neg Bool.false_ne_true] at h
    cases sig with
    | notify => exact .inl ⟨(Option.some.inj h).symm, fun _ hn => nomatch hn⟩
    | tag n =>
      rw [claimTag_tag] at h
      split at h
      · cases h
      · exact .inr ⟨n, rfl, rfl, (Option.some.inj h).symm⟩

theorem claimOf_isSome (h : s.cur.claimed = true ∨ ∀ n, sig = .tag n → (getResident s s.curCore s.cur.launch).busy.getLsbD n = false) :
    ∃ u, claimOf s sig = some u := by
  rw [claimOf]
  cases hc : s.cur.claimed with
  | true => exact ⟨_, rfl⟩
  | false =>
    rw [if_neg Bool.false_ne_true]
    cases sig with
    | notify => exact ⟨_, rfl⟩
    | tag n =>
      have hfree := (h.resolve_left (by rw [hc]; exact Bool.false_ne_true)) n rfl
      exact ⟨_, (claimTag_tag ..).trans (by rw [hfree]; rfl)⟩

theorem claimOf_none (hc : s.cur.claimed = false) (hb : (getResident s s.curCore s.cur.launch).busy.getLsbD n = true) :
    claimOf s (.tag n) = none := by
  rw [claimOf, hc, if_neg Bool.false_ne_true, claimTag_tag, if_pos hb]

theorem getSlot_claimOf (h : claimOf s sig = some u) (c : Nat) (j : Fin 4) : getSlot u c j = getSlot s c j := by
  obtain ⟨rfl, -⟩ | ⟨n, -, -, rfl⟩ := claimOf_cases h
  · rfl
  · exact getSlot_setResident ..

theorem claimOf_only (h : claimOf s sig = some u) : u = { s with cores := u.cores } := by
  obtain ⟨rfl, -⟩ | ⟨n, -, -, rfl⟩ := claimOf_cases h <;> rfl

theorem tagClaimed_claimOf (h : claimOf s sig = some u) : TagClaimed s u sig := by
  intro n hn b hb
  obtain ⟨rfl, hc⟩ | ⟨n', hn', hc, rfl⟩ := claimOf_cases h
  · exact ⟨fun _ => ⟨rfl, rfl⟩, fun hf => absurd (hc n hn) (by rw [hf]; exact Bool.false_ne_true)⟩
  · obtain rfl : n' = n := Signal.tag.inj (hn'.symm.trans hn)
    have hres := getResident_setResident_self s s.curCore ((getResident s s.curCore s.cur.launch).claimed n')
    rw [show ((getResident s s.curCore s.cur.launch).claimed n').launch = s.cur.launch from getResident_launch ..] at hres
    rw [hres]
    refine ⟨fun ht => absurd ht (by rw [hc]; exact Bool.false_ne_true), fun _ => ⟨?_, ?_⟩⟩
    · rw [Resident.claimed, BitVec.getLsbD_or, getLsbD_bit hb, Bool.or_comm]
    · rw [Resident.claimed, BitVec.getLsbD_and, BitVec.getLsbD_not, getLsbD_bit hb, decide_eq_true hb, Bool.true_and, Bool.and_comm, decide_not]

/-- The claim is made beside the slot, which remembers it. -/
theorem takeClaim_settled (s : State) (sig : Signal) : takeClaim s.settled s.curCore s.curSlot s.found.launch sig
    = (claimOf s sig).map fun u => setSlot u s.curCore s.curSlot { s.found with claimed := true } := by
  have hclaimed : s.found.claimed = s.cur.claimed := Slot.settle_claimed _
  have hlaunch : s.found.launch = s.cur.launch := Slot.settle_launch _
  rw [takeClaim, getSlot_settled, claimOf, hclaimed, hlaunch]
  cases hc : s.cur.claimed with
  | true =>
    have hsame : ({ s.found with claimed := true } : Slot) = s.found := by rw [← hc, ← hclaimed]
    rw [if_pos rfl, if_pos rfl, Option.map_some, hsame]
    rfl
  | false =>
    rw [if_neg Bool.false_ne_true, if_neg Bool.false_ne_true]
    cases sig with
    | notify => simp [claimTag, modSlot, State.settled, State.setCur]
    | tag n =>
      have hset (r : Resident) := modCore_setSlot (f := fun k => { k with residents := putBy (·.launch) r k.residents })
        (fun _ => rfl) (fun _ => rfl) (fun _ _ => rfl) s s.curCore s.curSlot s.found
      rw [claimTag_tag, claimTag_tag, State.settled, State.setCur, getResident_setSlot]
      split
      · rfl
      · rw [Option.map_some, Option.map_some, setResident, hset, modSlot, getSlot_setSlot_self, setSlot_setSlot]
        rfl

end

/-! ### Acceptance (R164, R252) -/

section
variable {s u : State} {i : Instr} {kind : CopyKind} {va : Word} {card : Nat} {sig : Signal}

/-- The job of a card. -/
def acceptedJob (s : State) (kind : CopyKind) (va : Word) (card : Nat) (sig : Signal) : CopyJob :=
  ⟨s.nextId, kind, s.curCore, s.found.launch, s.found.ctx, va, parseCard card, sig, false, none, none, [], [], 0, []⟩

/-- What acceptance leaves beside the slot, once the tag is claimed. -/
def entered (s u : State) (kind : CopyKind) (va : Word) (card : Nat) (sig : Signal) : State :=
  enterWindow (setCopy { u with nextId := s.nextId + 1 } (acceptedJob s kind va card sig)) s.curCore s.nextId

/-- An instruction whose card has been read is checked, and accepted or held at issue. -/
def Checks (i : Instr) (s : State) (kind : CopyKind) (va : Word) (card : Nat) : Prop :=
  exec i s = .next (acceptCopy s.settled s.curCore s.curSlot s.found kind va card)

theorem retire_reset (t : State) (c : Nat) (j : Fin 4) (sl : Slot) (card : Option Nat) (claimed : Bool) (npc : Word) :
    retire (setSlot t c j { sl with card := card, claimed := claimed }) c j 0 npc = retire (setSlot t c j sl) c j 0 npc := by
  simp only [retire, modSlot, getSlot_setSlot_self, setSlot_setSlot]
  rfl

theorem Checks.malformed (h : Checks i s kind va card) (hk : cardOk kind card = false) : Traps i s 0x0A va := by
  rw [Traps, h, acceptCopy, hk, found_pc]
  rfl

section
variable (hk : cardOk kind card = true)
  (hs : parseSignal (cardField card 457 1 = 1) (cardField card 472 8) (cardField card 512 8) (cardField card 480 32) = some sig)
include hk hs

theorem Checks.waitsTag (h : Checks i s kind va card) {n : Nat} (hn : sig = .tag n) (hc : claimOf s sig = none) :
    exec i s = .next (s.setCur { s.found with card := some card, stall := some (.tag n) }) := by
  have htag : n = cardField card 472 8 := parseSignal_isTag (hn ▸ hs)
  rw [h, acceptCopy]
  simp only [hk, hs, Option.getD_some, takeClaim_settled, hc, Option.map_none, Bool.not_true, Bool.false_eq_true, if_false]
  rw [← htag]
  simp only [stallSlot, keepCard, modSlot, getSlot_setSlot_self, State.settled, State.setCur, setSlot_setSlot]

theorem Checks.waitsWindow (h : Checks i s kind va card) (hc : claimOf s sig = some u) (hkind : kind ≠ .cpy) (hfull : 4 ≤ servedJobs s s.curCore) :
    exec i s = .next (setSlot u s.curCore s.curSlot { s.found with card := some card, claimed := true, stall := some .window }) := by
  have hserved : servedJobs s.settled s.curCore = servedJobs s s.curCore := rfl
  have hbusy : (kind != .cpy && decide (4 ≤ servedJobs s s.curCore)) = true := by simp [hkind, hfull]
  rw [h, acceptCopy]
  simp only [hk, hs, Option.getD_some, takeClaim_settled, hc, Option.map_some, Bool.not_true, Bool.false_eq_true, if_false, hserved, hbusy, if_true,
    stallSlot, keepCard, modSlot, getSlot_setSlot_self, setSlot_setSlot]

theorem Checks.enters (h : Checks i s kind va card) (hc : claimOf s sig = some u) (hroom : kind = .cpy ∨ servedJobs s s.curCore < 4) :
    exec i s = .next (retire (setSlot (entered s u kind va card sig) s.curCore s.curSlot s.found) s.curCore s.curSlot 0 (s.found.pc + 4)) := by
  have hserved : servedJobs s.settled s.curCore = servedJobs s s.curCore := rfl
  have hfree : (kind != .cpy && decide (4 ≤ servedJobs s s.curCore)) = false := by
    rcases hroom with rfl | hlt
    · rfl
    · simp [Nat.not_le.mpr hlt]
  have hreset := retire_reset (entered s u kind va card sig) s.curCore s.curSlot s.found s.found.card true (s.found.pc + 4)
  rw [h, ← hreset, acceptCopy]
  simp only [hk, hs, Option.getD_some, takeClaim_settled, hc, Option.map_some, Bool.not_true, Bool.false_eq_true, if_false, hserved, hfree]
  rfl

end

/-! ### What acceptance leaves -/

theorem cur_setSlot_at {s u : State} {v : Slot} (hc : u.curCore = s.curCore) (hi : u.curSlot = s.curSlot) :
    (setSlot u s.curCore s.curSlot v).cur = v := by
  rw [State.cur, setSlot_curCore, setSlot_curSlot, hc, hi, getSlot_setSlot_self]

theorem getCluster_id (s : State) (n : Nat) : (getCluster s n).id = n := by
  unfold getCluster
  cases h : findBy (·.id) n s.clusters with
  | none => rfl
  | some k => exact findBy_key h

theorem getCluster_setCluster_self (s : State) (k : Cluster) : getCluster (setCluster s k) k.id = k := by
  simp only [getCluster, setCluster, findBy_putBy_self (fun x : Cluster => x.id) k s.clusters, Option.getD_some]

theorem window_enterWindow (s : State) (c id : Nat) :
    (getCluster (enterWindow s c id) (clusterOf c)).window = (getCluster s (clusterOf c)).window ++ [id] := by
  have h := getCluster_setCluster_self s { getCluster s (clusterOf c) with window := (getCluster s (clusterOf c)).window ++ [id] }
  rw [show ({ getCluster s (clusterOf c) with window := (getCluster s (clusterOf c)).window ++ [id] } : Cluster).id = clusterOf c
    from getCluster_id s _] at h
  exact congrArg Cluster.window h

theorem getCopy_setCopy_self (s : State) (j : CopyJob) : getCopy (setCopy s j) j.id = some j := findBy_putBy_self CopyJob.id j s.copies
theorem getCopy_setCopy_ne (s : State) (j : CopyJob) {n : Nat} (h : n ≠ j.id) : getCopy (setCopy s j) n = getCopy s n :=
  findBy_putBy_ne CopyJob.id j s.copies h

theorem entered_only (hc : claimOf s sig = some u) : entered s u kind va card sig = { s with
    nextId := s.nextId + 1, copies := (entered s u kind va card sig).copies, clusters := (entered s u kind va card sig).clusters,
    cores := (entered s u kind va card sig).cores } := by
  obtain ⟨rfl, -⟩ | ⟨n, -, -, rfl⟩ := claimOf_cases hc <;> rfl

theorem entered_window (hc : claimOf s sig = some u) : (getCluster (entered s u kind va card sig) (clusterOf s.curCore)).window
    = (getCluster s (clusterOf s.curCore)).window ++ [s.nextId] := by
  have hclusters : u.clusters = s.clusters := (congrArg State.clusters (claimOf_only hc) : _)
  rw [entered, window_enterWindow]
  simp only [getCluster, setCopy, hclusters]

theorem entered_copies (hc : claimOf s sig = some u) : getCopy (entered s u kind va card sig) s.nextId = some (acceptedJob s kind va card sig)
    ∧ ∀ j, j ≠ s.nextId → getCopy (entered s u kind va card sig) j = getCopy s j := by
  have hcopies : u.copies = s.copies := (congrArg State.copies (claimOf_only hc) : _)
  refine ⟨getCopy_setCopy_self { u with nextId := s.nextId + 1 } (acceptedJob s kind va card sig), fun j hj => ?_⟩
  refine (getCopy_setCopy_ne { u with nextId := s.nextId + 1 } (acceptedJob s kind va card sig) hj).trans ?_
  simp only [getCopy, hcopies]

/-! ### The card read (R164 steps 1 and 2) -/

/-- A slot that has no card yet reads it, and then checks it. -/
def ReadsCard (i : Instr) (s : State) (kind : CopyKind) (va : Word) : Prop :=
  exec i s = .next (withCard s.settled s.curCore s.curSlot s.found 64 .read va (acceptCopy s.settled s.curCore s.curSlot s.found kind va))

theorem ReadsCard.misaligned (h : ReadsCard i s kind va) (ha : va.toNat % 64 ≠ 0) : Traps i s 0x03 va := by
  rw [Traps, h, withCard, if_pos (by simpa using ha), found_pc]
  rfl

theorem performAt_readBlock {p : Nat} (h : isPoisoned s p = false) (k q : Nat) :
    performAt s (.readBlock p) k q = (s, ⟨blockThrough s p k, descOf s p, 0, false⟩) := by
  simp only [performAt, performMem, h, Bool.false_eq_true, if_false]

/-- A card whose two blocks are permitted, sound and not being accessed is read. -/
theorem ReadsCard.checks {p k q l : Nat} (h : ReadsCard i s kind va) (ha : va.toNat % 64 = 0) (ht : s.trans va .read = .ok p k)
    (ht' : s.trans (va + 64) .read = .ok q l) (hp : isPoisoned s p = false) (hq : isPoisoned s q = false)
    (hfree : ∀ x ∈ s.cur.accs, x.home ≠ homeOf p ∧ x.home ≠ homeOf q) :
    Checks i s kind va ((blockThrough s p k).toNat + 2 ^ 512 * (blockThrough s q l).toNat) := by
  have htrans (x : Word) : translate s.settled (clusterOf s.curCore) s.found.ctx x .read = s.trans x .read := by rw [found_ctx]; rfl
  have hnext : (va + 64).toNat % 64 = 0 := by
    rw [BitVec.toNat_add, show (64 : Word).toNat = 64 from rfl]
    omega
  have hchecked : checkAll s.settled (clusterOf s.curCore) s.found.ctx .read 64 [va, va + 64] = .ok [(p, k), (q, l)] := by
    simp only [checkAll, htrans, ha, hnext, ht, ht', bne_self_eq_false, Bool.false_eq_true, if_false]
  have haccs : s.found.accs = s.cur.accs := Slot.settle_accs _
  have hnone : (s.cur.accs.any fun a => [(p, k), (q, l)].any fun r => homeOf r.1 == a.home) = false := by
    refine List.any_eq_false.mpr fun x hx => ?_
    simp [(hfree x hx).1.symm, (hfree x hx).2.symm]
  rw [Checks, h, withCard, if_neg (by simpa using ha), withChecked, hchecked]
  simp only [haccs, hnone]
  have hset (r n o : Nat) (hr : isPoisoned s r = false) : performAt s.settled (.readBlock r) n o = (s.settled, ⟨blockThrough s r n, descOf s r, 0, false⟩) :=
    performAt_readBlock (s := s.settled) hr n o
  simp [hset _ _ _ hp, hset _ _ _ hq]

end

/-! ### Completion tags (R171) -/

section
variable {s : State} {a d : BitVec 5} {i : Instr} {waits : Resident → BitVec 64 → Bool}

theorem getResident_settled (s : State) : getResident s.settled s.curCore s.found.launch = getResident s s.curCore s.cur.launch := by
  rw [State.settled, State.setCur, getResident_setSlot, State.found, Slot.settle_launch]

/-- A wait on tags waits while its condition holds, and else gives the done tags. -/
theorem tagWait_outcome (he : exec i s = tagWait waits a d s) (hc : canIssue s [xr a] [xr d] = true) :
    (waits (getResident s s.curCore s.cur.launch) (s.found.rx a) = true → Waits i s .tagWait)
    ∧ (waits (getResident s s.curCore s.cur.launch) (s.found.rx a) = false → Does i s fun t => Retires s t 0 (s.cur.pc + 4)
        (s.found.writeVar [(xr d, ofWord ((getResident s s.curCore s.cur.launch).tagdone &&& s.found.rx a))] 0 false)) := by
  rw [Waits, Does, he, tagWait, issue_can hc, getResident_settled]
  refine ⟨fun h => by rw [if_pos h], fun h => ⟨_, by rw [if_neg (by rw [h]; exact Bool.false_ne_true)], ?_⟩⟩
  rw [State.settled, State.setCur, setSlot_setSlot, found_pc]
  exact retires_retire s _ 0 (s.cur.pc + 4)

theorem ftag_gives (hc : canIssue s [xr a] [xr d] = true) : Does (.ftag a d) s fun t =>
    Retires (setResident s.settled s.curCore { getResident s s.curCore s.cur.launch with
        tagdone := (getResident s s.curCore s.cur.launch).tagdone &&& ~~~(s.found.rx a) }) t 0 (s.cur.pc + 4)
      (s.found.writeVar [(xr d, ofWord ((getResident s s.curCore s.cur.launch).tagdone &&& s.found.rx a))] 0 false) := by
  have he : exec (.ftag a d) s = execFtag a d s := rfl
  rw [Does, he, execFtag, issue_can hc, getResident_settled]
  refine ⟨_, rfl, ?_⟩
  rw [found_pc]
  exact retires_at rfl rfl _ 0 rfl

end

/-- Settles O32: a card is checked field by field, the claim is made beside the slot, and each outcome of acceptance is told apart. -/
theorem copyJobInstructions : Obligations.CopyJobInstructions := by
  unfold Obligations.CopyJobInstructions
  refine ⟨?_, ?_, ?_⟩
  · intro s a va old Accepts J
    have hA {i : Instr} {kind : CopyKind} {card : Nat} (h : Checks i s kind va card) : Accepts i kind card := by
      refine ⟨h.malformed, ?_⟩
      intro sig hk hs served mine claims
      refine ⟨fun n hn hc hb => ?_, fun hm hkind hfull => ?_, fun hm hroom => ?_⟩
      · subst hn
        exact h.waitsTag hk hs rfl (claimOf_none hc hb)
      · obtain ⟨u, hu⟩ := claimOf_isSome hm
        have honly := claimOf_only hu
        have hcur := cur_setSlot_at (v := { s.found with card := some card, claimed := true, stall := some .window })
          (congrArg State.curCore honly : _) (congrArg State.curSlot honly : _)
        refine ⟨_, h.waitsWindow hk hs hu hkind hfull, ?_⟩
        refine ⟨congrArg Slot.card hcur, congrArg Slot.stall hcur, congrArg Slot.claimed hcur, (congrArg Slot.pc hcur).trans (found_pc s),
          (congrArg State.copies honly : _), ?_⟩
        dsimp only [claims]
        rw [getResident_setSlot]
        exact tagClaimed_claimOf hu
      · obtain ⟨u, hu⟩ := claimOf_isSome hm
        have hcopies := entered_copies (kind := kind) (va := va) (card := card) hu
        have hctx : acceptedJob s kind va card sig = ⟨s.nextId, kind, s.curCore, s.cur.launch, s.cur.ctx, va, parseCard card, sig, false,
            none, none, [], [], 0, []⟩ := by rw [acceptedJob, found_ctx, State.found, Slot.settle_launch]
        rw [hctx] at hcopies
        refine ⟨_, h.enters hk hs hu hroom, entered s u kind va card sig, ?_, entered_only hu, fun c j => getSlot_claimOf (u := u) hu c j, hcopies.1, hcopies.2,
          entered_window hu, fun n hn b hb => tagClaimed_claimOf (u := u) hu n hn b hb⟩
        rw [found_pc]
        exact retires_at (by rw [entered_only hu]) (by rw [entered_only hu]) _ 0 rfl
    have hJ {i : Instr} {kind : CopyKind} (he : exec i s = copyJob kind a s) : J i kind := by
      intro hc hg
      have hcard : s.found.card = s.cur.card := Slot.settle_card _
      have hread (hn : s.cur.card = none) : ReadsCard i s kind va := by
        rw [ReadsCard, he, copyJob, issue_can hc, hg, hcard, hn]
      refine ⟨fun hn hv => (hread hn).misaligned hv, fun p k q l hn hv ht ht' hp hq hfree =>
        hA ((hread hn).checks hv ht ht' hp hq hfree), fun card hs => hA ?_⟩
      rw [Checks, he, copyJob, issue_can hc, hg, hcard, hs]
    exact ⟨hJ (rfl : _ = execCpy ..), hJ (rfl : _ = execGath ..), hJ (rfl : _ = execScat ..)⟩
  · intro kind c f si cnt sstr dstr esz bound nidx rop used indexed
    refine ⟨(cardOk_iff c kind).trans ?_, parseCard_eq c, fun tag nch nep => ⟨parseSignal_notify .., parseSignal_tag ..⟩⟩
    simp only [CardCommon, and_assoc]
    cases kind <;> rfl
  · intro s a d hc r m Gives
    have hany : exec (.wtagany a d) s = tagWait (fun r t => r.tagdone &&& t == 0 && r.busy &&& t != 0) a d s := rfl
    have hall : exec (.wtagall a d) s = tagWait (fun r t => r.busy &&& t != 0) a d s := rfl
    obtain ⟨hanyWaits, hanyGives⟩ := tagWait_outcome hany hc
    obtain ⟨hallWaits, hallGives⟩ := tagWait_outcome hall hc
    refine ⟨fun h => hanyWaits (by simpa using h), fun h => hanyGives ?_, fun h => hallWaits (by simpa using h),
      fun h => hallGives (by simpa using h), ftag_gives hc⟩
    rw [Bool.and_eq_false_iff]
    exact h.imp beq_eq_false_iff_ne.mpr fun hb => by simpa using hb

end Sys2Proof.Machine
end

section
/-! SUPPORT. The operands of a quadtree job as they are viewed at a quadrant (09 R213, R219), the root list and the contribution lists
(R220), for the statement on job events. -/
namespace Sys2Proof.Machine

/-! ### Computations that may fail -/

theorem bind_eq_ok {ε α β : Type} {x : Except ε α} {f : α → Except ε β} {b : β} :
    (x >>= f) = .ok b ↔ ∃ a, x = .ok a ∧ f a = .ok b := by
  cases x <;> simp [bind, Except.bind]

theorem ok_bind {ε α β : Type} (a : α) (f : α → Except ε β) : (Except.ok a >>= f) = f a := rfl

theorem mapM_eq_ok {ε α β : Type} {f : α → Except ε β} {l : List α} {r : List β} :
    l.mapM f = .ok r ↔ List.Forall₂ (fun a b => f a = .ok b) l r := by
  induction l generalizing r with
  | nil => simp [pure, Except.pure, eq_comm]
  | cons a l ih =>
    simp only [List.mapM_cons, bind_eq_ok, pure, Except.pure, Except.ok.injEq, ih, List.forall₂_cons_left_iff]
    constructor
    · rintro ⟨b, hb, bs, hbs, rfl⟩
      exact ⟨b, bs, hb, hbs, rfl⟩
    · rintro ⟨b, bs, hb, hbs, rfl⟩
      exact ⟨b, hb, bs, hbs, rfl⟩

theorem take_drop_range {n a h : Nat} (hn : a + h ≤ n) : ((List.range n).drop a).take h = (List.range h).map (a + ·) := by
  apply List.ext_getElem
  · simp only [List.length_take, List.length_drop, List.length_range, List.length_map]
    omega
  · simp

/-- Elements a to a + h − 1 of a list that is computed element by element. -/
theorem mapM_range_window {ε β : Type} {f : Nat → Except ε β} {n a h : Nat} {l : List β} (hl : (List.range n).mapM f = .ok l)
    (hn : a + h ≤ n) : (List.range h).mapM (fun i => f (a + i)) = .ok ((l.drop a).take h) := by
  rw [mapM_eq_ok] at hl ⊢
  have hw := List.forall₂_take h (List.forall₂_drop a hl)
  rwa [take_drop_range hn, List.forall₂_map_left_iff] at hw

theorem mapM_range_getElem? {ε β : Type} {f : Nat → Except ε β} {n i : Nat} {l : List β} (hl : (List.range n).mapM f = .ok l)
    (hi : i < n) : ∃ b, l[i]? = some b ∧ f i = .ok b := by
  rw [mapM_eq_ok, List.forall₂_iff_get] at hl
  obtain ⟨hlen, hget⟩ := hl
  rw [List.length_range] at hlen
  have := hget i (by simpa using hi) (hlen ▸ hi)
  exact ⟨l[i], List.getElem?_eq_getElem .., by simpa using this⟩

theorem mapM_congr_range {ε β : Type} {f g : Nat → Except ε β} {n : Nat} (h : ∀ i, i < n → f i = g i) :
    (List.range n).mapM f = (List.range n).mapM g := by
  have : ∀ l : List Nat, (∀ i ∈ l, f i = g i) → l.mapM f = l.mapM g := by
    intro l hl
    induction l with
    | nil => rfl
    | cons a l ih =>
      rw [List.mapM_cons, List.mapM_cons, hl a List.mem_cons_self, ih fun i hi => hl i (List.mem_cons_of_mem _ hi)]
  exact this _ fun i hi => h i (List.mem_range.1 hi)

/-! ### Records and views -/

theorem recField_lt (x : BitVec 256) (lo n : Nat) : recField x lo n < 2 ^ n := Nat.mod_lt _ (Nat.two_pow_pos n)

theorem toNat_recField (x : BitVec 256) (lo : Nat) : (BitVec.ofNat 64 (recField x lo 64)).toNat = recField x lo 64 := by
  rw [BitVec.toNat_ofNat, Nat.mod_eq_of_lt (recField_lt ..)]

/-- A bound of a root record; 0 stands for the full size (R213). -/
def recBound (x : BitVec 256) (lo : Nat) : Nat := if recField x lo 16 = 0 then 2 ^ recField x 16 8 else recField x lo 16

/-- What a view takes from its record, wherever it stands. -/
structure QView.Of (v : QView) (x : BitVec 256) : Prop where
  t : v.t = recField x 0 8
  lg : v.lg = recField x 16 8
  slg : v.slg = recField x 16 8
  al : v.al = recField x 192 32
  fmt : v.fmt = recField x 8 8
  p1 : v.p1.toNat = recField x 64 64
  p2 : v.p2.toNat = recField x 128 64
  rank : v.rank = recField x 224 16
  nm : v.nm = recField x 240 8
  r0 : v.r0 = 0
  c0 : v.c0 = 0

variable {x : BitVec 256} {addr : Word} {root isA tr : Bool} {nma row col rows cols : Nat} {v w : QView}

theorem QView.Of.ofViewOf (h : viewOf x addr root isA tr nma row col rows cols = .ok v) : v.Of x := by
  unfold viewOf at h
  split at h
  · exact nomatch h
  · cases h
    exact ⟨rfl, rfl, rfl, rfl, rfl, toNat_recField x 64, toNat_recField x 128, rfl, rfl, rfl, rfl⟩

theorem viewOf_place (h : viewOf x addr root isA tr nma row col rows cols = .ok v) : v.tr = tr ∧ v.row = row ∧ v.col = col := by
  unfold viewOf at h
  split at h
  · exact nomatch h
  · cases h
    exact ⟨rfl, rfl, rfl⟩

theorem viewOf_bounds (h : viewOf x addr root isA tr nma row col rows cols = .ok v) :
    v.rows = (if root then recBound x (if tr then 48 else 32) else rows)
      ∧ v.cols = (if root then recBound x (if tr then 32 else 48) else cols) := by
  unfold viewOf at h
  split at h
  · exact nomatch h
  · cases h
    cases tr <;> exact ⟨rfl, rfl⟩

/-- A view of a root record (R219). -/
structure QView.Root (v : QView) (x : BitVec 256) (tr : Bool) : Prop extends v.Of x where
  rows : v.rows = recBound x (if tr then 48 else 32)
  cols : v.cols = recBound x (if tr then 32 else 48)
  tr : v.tr = tr
  row : v.row = 0
  col : v.col = 0

theorem QView.Root.ofViewOf (h : viewOf x addr true isA tr nma 0 0 0 0 = .ok v) : v.Root x tr where
  toOf := .ofViewOf h
  tr := (viewOf_place h).1
  rows := (viewOf_bounds h).1
  cols := (viewOf_bounds h).2
  row := (viewOf_place h).2.1
  col := (viewOf_place h).2.2

/-! ### A view at a quadrant (R219) -/

variable {s : State} {q : QJob} {qr qc : Nat}

theorem quadrant_internal (ht : v.t = 7) (h : v.quadrant s q qr qc = .ok w) :
    ∃ x, qNode s q (v.p1 + BitVec.ofNat 64 (32 * if v.tr then 2 * qc + qr else 2 * qr + qc)) = .ok x
      ∧ viewOf x (v.p1 + BitVec.ofNat 64 (32 * if v.tr then 2 * qc + qr else 2 * qr + qc)) false v.isA v.tr q.card.nma
          (v.row + qr * 2 ^ (v.lg - 1)) (v.col + qc * 2 ^ (v.lg - 1)) v.rows v.cols = .ok w
      ∧ w.lg + 1 = v.lg := by
  rw [QView.quadrant, if_pos ht] at h
  obtain ⟨x, hx, h⟩ := bind_eq_ok.1 h
  obtain ⟨c, hc, h⟩ := bind_eq_ok.1 h
  split at h
  · cases h
    exact ⟨x, hx, hc, ‹_›⟩
  · exact nomatch h

/-- The view of a leaf at a quadrant: the same leaf, further in. -/
def QView.inner (v : QView) (qr qc : Nat) : QView :=
  { v with t := if (v.t = 1 || v.t = 2) && qr != qc then 0 else v.t, lg := v.lg - 1, r0 := v.r0 + qr * 2 ^ (v.lg - 1),
           c0 := v.c0 + qc * 2 ^ (v.lg - 1), row := v.row + qr * 2 ^ (v.lg - 1), col := v.col + qc * 2 ^ (v.lg - 1) }

theorem quadrant_leaf (ht : v.t ≠ 7) : v.quadrant s q qr qc = .ok (v.inner qr qc) := if_neg ht

theorem quadrant_lg (hlg : v.lg ≠ 0) (h : v.quadrant s q qr qc = .ok w) : w.lg + 1 = v.lg := by
  by_cases ht : v.t = 7
  · obtain ⟨_, _, _, hl⟩ := quadrant_internal ht h
    exact hl
  · rw [quadrant_leaf ht] at h
    cases h
    exact Nat.succ_pred hlg

/-- Where a view at a quadrant stands in its operand. -/
theorem quadrant_place (hlg : v.lg ≠ 0) (h : v.quadrant s q qr qc = .ok w) :
    w.row = v.row + qr * 2 ^ w.lg ∧ w.col = v.col + qc * 2 ^ w.lg ∧ w.rows = v.rows ∧ w.cols = v.cols ∧ w.tr = v.tr := by
  have hl : v.lg - 1 = w.lg := by have := quadrant_lg hlg h; omega
  by_cases ht : v.t = 7
  · obtain ⟨x, _, hv, _⟩ := quadrant_internal ht h
    obtain ⟨htr, hrow, hcol⟩ := viewOf_place hv
    obtain ⟨hrows, hcols⟩ := viewOf_bounds hv
    exact ⟨hl ▸ hrow, hl ▸ hcol, hrows, hcols, htr⟩
  · rw [quadrant_leaf ht] at h
    cases h
    exact ⟨rfl, rfl, rfl, rfl, rfl⟩

theorem dim_inner (hlg : v.lg ≠ 0) : v.dim = (v.inner qr qc).dim * 2 := by
  rw [QView.dim, QView.dim, ← pow_succ]
  exact congrArg (2 ^ ·) (Nat.succ_pred hlg).symm

theorem window_le_dim {n : Nat} (hlg : v.lg ≠ 0) (hn : n < 2) : n * (v.inner qr qc).dim + (v.inner qr qc).dim ≤ v.dim := by
  rw [dim_inner (qr := qr) (qc := qc) hlg]
  nlinarith [Nat.two_pow_pos (v.inner qr qc).lg]

theorem qDiag_inner {d : List Nat} (hlg : v.lg ≠ 0) (hr : qr < 2) (h : qDiag s q v = .ok d) :
    qDiag s q (v.inner qr qc) = .ok ((d.drop (qr * (v.inner qr qc).dim)).take (v.inner qr qc).dim) := by
  rw [← mapM_range_window h (window_le_dim hlg hr)]
  exact mapM_congr_range fun i _ => congrArg (qElem s q v.fmt v.p1 0 · _) (Nat.add_assoc ..)

theorem qRows_inner {base : Word} {off n : Nat} {m : List (List Nat)} (hlg : v.lg ≠ 0) (hn : n < 2)
    (h : qRows s q v base off = .ok m) : qRows s q (v.inner qr qc) base (off + n * (v.inner qr qc).dim)
      = .ok ((m.drop (n * (v.inner qr qc).dim)).take (v.inner qr qc).dim) := by
  rw [← mapM_range_window h (window_le_dim hlg hn)]
  refine mapM_congr_range fun i _ => ?_
  simp only [Nat.add_assoc]
  rfl

theorem qLow_inner {y : List (List Nat) × List (List Nat)} (hlg : v.lg ≠ 0) (hr : qr < 2) (hc : qc < 2)
    (h : qLow s q v = .ok y) : qLow s q (v.inner qr qc) = .ok ((y.1.drop (qr * (v.inner qr qc).dim)).take (v.inner qr qc).dim,
      (y.2.drop (qc * (v.inner qr qc).dim)).take (v.inner qr qc).dim) := by
  obtain ⟨a, ha, h⟩ := bind_eq_ok.1 h
  obtain ⟨b, hb, h⟩ := bind_eq_ok.1 h
  cases h
  exact bind_eq_ok.2 ⟨_, qRows_inner hlg hr ha, bind_eq_ok.2 ⟨_, qRows_inner hlg hc hb, rfl⟩⟩

/-- Element (i, k) of a DENSE view. -/
def QView.denseAt (s : State) (q : QJob) (v : QView) (i k : Nat) : Except QErr Nat :=
  if v.rows ≤ v.row + i || v.cols ≤ v.col + k then .ok q.card.fill.toNat
  else if v.tr then denseElem s q v (v.c0 + k) (v.r0 + i) else denseElem s q v (v.r0 + i) (v.c0 + k)

theorem qDense_eq : qDense s q v = (List.range v.dim).mapM fun i => (List.range v.dim).mapM fun k => v.denseAt s q i k := rfl

theorem denseAt_inner (i k : Nat) : (v.inner qr qc).denseAt s q i k
    = v.denseAt s q (qr * (v.inner qr qc).dim + i) (qc * (v.inner qr qc).dim + k) := by
  unfold QView.denseAt
  simp only [← Nat.add_assoc]
  rfl

theorem qDense_inner {m : List (List Nat)} (hlg : v.lg ≠ 0) (hr : qr < 2) (hc : qc < 2) (h : qDense s q v = .ok m) :
    qDense s q (v.inner qr qc) = .ok (((m.drop (qr * (v.inner qr qc).dim)).take (v.inner qr qc).dim).map
      fun r => (r.drop (qc * (v.inner qr qc).dim)).take (v.inner qr qc).dim) := by
  rw [qDense_eq] at h ⊢
  have hrows := mapM_eq_ok.1 (mapM_range_window h (window_le_dim (qr := qr) (qc := qc) hlg hr))
  rw [mapM_eq_ok, List.forall₂_map_right_iff]
  refine hrows.imp fun i r hi => ?_
  rw [← mapM_range_window hi (window_le_dim hlg hc)]
  exact mapM_congr_range fun k _ => denseAt_inner i k

/-- R219: an element outside the bounds of the operand reads as FILL. -/
theorem qDense_fill {m : List (List Nat)} {i k : Nat} (h : qDense s q v = .ok m) (hi : i < 2 ^ v.lg) (hk : k < 2 ^ v.lg)
    (hout : v.rows ≤ v.row + i ∨ v.cols ≤ v.col + k) : (m.getD i []).getD k 0 = q.card.fill.toNat := by
  rw [qDense_eq] at h
  obtain ⟨r, hr, h⟩ := mapM_range_getElem? h hi
  obtain ⟨y, hy, h⟩ := mapM_range_getElem? h hk
  rw [QView.denseAt, if_pos (by simpa using hout)] at h
  cases h
  rw [List.getD_eq_getElem?_getD, List.getD_eq_getElem?_getD, hr, Option.getD_some, hy, Option.getD_some]

/-! ### The root list (R220) -/

/-- The bounds of the operands fit each other: those of a product, or of a sum. -/
def QJob.Fits (q : QJob) (a b : QView) : Prop :=
  if q.mul then a.cols = b.rows else a.rows = b.rows ∧ a.cols = b.cols

/-- The products and terms of the card. -/
def QJob.operands (q : QJob) (a b : QView) : List Contrib :=
  if q.mul then [.prod q.card.alpha.toNat a b] else [.term a, .prod q.card.alpha.toNat (identView a.lg) b]

theorem qRoot_views {r : QRoot} (h : qRoot q = .ok r) : ∃ a b c, a.Root q.recA q.card.ta ∧ b.Root q.recB q.card.tb ∧ a.lg = b.lg
    ∧ q.Fits a b ∧ (q.card.cin ≠ 0 → c.Root q.recC false ∧ c.lg = a.lg ∧ c.rows = a.rows ∧ c.cols = b.cols)
    ∧ r = ⟨(if q.card.cin = 0 then [] else [.term c]) ++ q.operands a b, a.lg, a.rows, b.cols⟩ := by
  obtain ⟨a, ha, h⟩ := bind_eq_ok.1 h
  obtain ⟨b, hb, h⟩ := bind_eq_ok.1 h
  have hra := QView.Root.ofViewOf ha
  have hrb := QView.Root.ofViewOf hb
  dsimp only at h
  by_cases hlg : (a.lg != b.lg) = true
  · rw [if_pos hlg] at h
    exact nomatch h
  by_cases hfit : (if q.mul then a.cols != b.rows else a.rows != b.rows || a.cols != b.cols) = true
  · rw [if_neg hlg, if_pos hfit] at h
    exact nomatch h
  rw [if_neg hlg, if_neg hfit] at h
  have hf : q.Fits a b := by
    unfold QJob.Fits
    cases hm : q.mul <;> simpa [hm] using hfit
  have hl : a.lg = b.lg := by simpa using hlg
  by_cases hc : q.card.cin = 0
  · rw [if_pos hc] at h
    cases h
    exact ⟨a, b, a, hra, hrb, hl, hf, fun hn => absurd hc hn, by rw [if_pos hc]; rfl⟩
  · rw [if_neg hc] at h
    obtain ⟨c, hv, h⟩ := bind_eq_ok.1 h
    by_cases hcf : (c.lg != a.lg || c.rows != a.rows || c.cols != b.cols) = true
    · rw [if_pos hcf] at h
      exact nomatch h
    rw [if_neg hcf] at h
    cases h
    simp only [Bool.or_eq_true, bne_iff_ne, ne_eq, not_or, not_not] at hcf
    obtain ⟨⟨hcl, hcr⟩, hcc⟩ := hcf
    exact ⟨a, b, c, hra, hrb, hl, hf, fun _ => ⟨.ofViewOf hv, hcl, hcr, hcc⟩, by rw [if_neg hc]; rfl⟩

/-! ### Contribution lists (R220) -/

theorem listAt_cons {n : Nat} {p : List Nat} {cl l : List Contrib} (h : listAt s q (n :: p) cl = .ok l) :
    n < 4 ∧ ∃ z, subList s q n (pruneZero cl) = .ok z ∧ listAt s q p z = .ok l := by
  rw [listAt] at h
  split at h
  next hn =>
    obtain ⟨z, hz, h⟩ := bind_eq_ok.1 h
    exact ⟨by simpa using (Bool.and_eq_true_iff.1 hn).2, z, hz, h⟩
  · exact nomatch h

theorem subList_cons {n : Nat} {c : Contrib} {cl l : List Contrib} (h : subList s q n (c :: cl) = .ok l) :
    ∃ x y, subContrib s q (n / 2) (n % 2) c = .ok x ∧ subList s q n cl = .ok y ∧ l = x ++ y := by
  obtain ⟨ls, hls, h⟩ := bind_eq_ok.1 h
  cases h
  obtain ⟨x, xs, hx, hxs, rfl⟩ := List.forall₂_cons_left_iff.1 (mapM_eq_ok.1 hls)
  exact ⟨x, xs.flatten, hx, bind_eq_ok.2 ⟨xs, mapM_eq_ok.2 hxs, rfl⟩, rfl⟩

theorem subContrib_term {l : List Contrib} (h : subContrib s q qr qc (.term v) = .ok l) :
    ∃ w, v.quadrant s q qr qc = .ok w ∧ l = [.term w] := by
  obtain ⟨w, hw, h⟩ := bind_eq_ok.1 h
  cases h
  exact ⟨w, hw, rfl⟩

theorem subContrib_prod {g : Nat} {a b : QView} {l : List Contrib} (h : subContrib s q qr qc (.prod g a b) = .ok l) :
    ∃ a0 b0 a1 b1, a.quadrant s q qr 0 = .ok a0 ∧ b.quadrant s q 0 qc = .ok b0 ∧ a.quadrant s q qr 1 = .ok a1
      ∧ b.quadrant s q 1 qc = .ok b1 ∧ l = [.prod g a0 b0, .prod g a1 b1] := by
  obtain ⟨a0, ha0, h⟩ := bind_eq_ok.1 h
  obtain ⟨b0, hb0, h⟩ := bind_eq_ok.1 h
  obtain ⟨a1, ha1, h⟩ := bind_eq_ok.1 h
  obtain ⟨b1, hb1, h⟩ := bind_eq_ok.1 h
  cases h
  exact ⟨a0, b0, a1, b1, ha0, hb0, ha1, hb1, rfl⟩

end Sys2Proof.Machine
end

section
/-! SUPPORT. The leaf algebra of a quadtree job (09 R221 to R224) and the blocks and records of its result (R213, R225), for the
statement on job events. -/
namespace Sys2Proof.Machine

theorem map_zip_eq {α β γ : Type} (g : α → β → γ) (l : List α) (m : List β) :
    (l.zip m).map (fun p => g p.1 p.2) = List.zipWith g l m := List.map_uncurry_zip_eq_zipWith ..

/-! ### Products and terms (R221) -/

variable {s : State} {q : QJob} {ac : Nat} {a b v : QView} {d f : List Nat} {u w u' w' x y : List (List Nat)}

theorem zipWith_scaleRow (g : Nat) (d : List Nat) (m : List (List Nat)) :
    List.zipWith scaleRow (scaleRow g d) m = List.zipWith (fun x r => scaleRow (rmul g x) r) d m := List.zipWith_map_left ..

/-- The scalar of a product. -/
def prodScale (ac : Nat) (a b : QView) : Nat := rmul (rmul ac a.al) b.al

theorem prodValue_ident_ident (ha : a.t = 1) (hb : b.t = 1) : prodValue s q ac a b = .ok (.ident (prodScale ac a b)) := by
  simp only [prodValue, ha, hb]
  rfl

theorem prodValue_ident_diag (ha : a.t = 1) (hb : b.t = 2) (hd : qDiag s q b = .ok d) :
    prodValue s q ac a b = .ok (.diag (scaleRow (prodScale ac a b) d)) := by
  simp only [prodValue, ha, hb, hd, ok_bind]
  rfl

theorem prodValue_diag_ident (ha : a.t = 2) (hb : b.t = 1) (hd : qDiag s q a = .ok d) :
    prodValue s q ac a b = .ok (.diag (scaleRow (prodScale ac a b) d)) := by
  simp only [prodValue, ha, hb, hd, ok_bind]
  rfl

theorem prodValue_diag_diag (ha : a.t = 2) (hb : b.t = 2) (hd : qDiag s q a = .ok d) (hf : qDiag s q b = .ok f) :
    prodValue s q ac a b = .ok (.diag (List.zipWith (fun x y => rmul (rmul (prodScale ac a b) x) y) d f)) := by
  simp only [prodValue, ha, hb, hd, hf, ok_bind, map_zip_eq, scaleRow, List.zipWith_map_left]
  rfl

theorem prodValue_ident_low (ha : a.t = 1) (hb : b.t = 3) (hu : qLow s q b = .ok (u, w)) :
    prodValue s q ac a b = .ok (.low (scaleMat (prodScale ac a b) u) w) := by
  simp only [prodValue, ha, hb, hu, ok_bind]
  rfl

theorem prodValue_low_ident (ha : a.t = 3) (hb : b.t = 1) (hu : qLow s q a = .ok (u, w)) :
    prodValue s q ac a b = .ok (.low (scaleMat (prodScale ac a b) u) w) := by
  simp only [prodValue, ha, hb, hu, ok_bind]
  rfl

theorem prodValue_diag_low (ha : a.t = 2) (hb : b.t = 3) (hd : qDiag s q a = .ok d) (hu : qLow s q b = .ok (u, w)) :
    prodValue s q ac a b = .ok (.low (List.zipWith (fun x r => scaleRow (rmul (prodScale ac a b) x) r) d u) w) := by
  simp only [prodValue, ha, hb, hd, hu, ok_bind, map_zip_eq, zipWith_scaleRow]
  rfl

theorem prodValue_low_diag (ha : a.t = 3) (hb : b.t = 2) (hu : qLow s q a = .ok (u, w)) (hd : qDiag s q b = .ok d) :
    prodValue s q ac a b = .ok (.low (scaleMat (prodScale ac a b) u) (List.zipWith scaleRow d w)) := by
  simp only [prodValue, ha, hb, hd, hu, ok_bind, map_zip_eq]
  rfl

theorem prodValue_ident_dense (ha : a.t = 1) (hb : b.t = 4) (hx : qDense s q b = .ok x) :
    prodValue s q ac a b = .ok (.dense (scaleMat (prodScale ac a b) x)) := by
  simp only [prodValue, ha, hb, hx, ok_bind]
  rfl

theorem prodValue_dense_ident (ha : a.t = 4) (hb : b.t = 1) (hx : qDense s q a = .ok x) :
    prodValue s q ac a b = .ok (.dense (scaleMat (prodScale ac a b) x)) := by
  simp only [prodValue, ha, hb, hx, ok_bind]
  rfl

theorem prodValue_diag_dense (ha : a.t = 2) (hb : b.t = 4) (hd : qDiag s q a = .ok d) (hx : qDense s q b = .ok x) :
    prodValue s q ac a b = .ok (.dense (List.zipWith (fun y r => scaleRow (rmul (prodScale ac a b) y) r) d x)) := by
  simp only [prodValue, ha, hb, hd, hx, ok_bind, map_zip_eq, zipWith_scaleRow]
  rfl

theorem prodValue_dense_diag (ha : a.t = 4) (hb : b.t = 2) (hx : qDense s q a = .ok x) (hd : qDiag s q b = .ok d) :
    prodValue s q ac a b
      = .ok (.dense (x.map fun r => List.zipWith (fun y z => rmul (rmul (prodScale ac a b) y) z) r d)) := by
  simp only [prodValue, ha, hb, hd, hx, ok_bind, map_zip_eq, scaleMat, List.map_map, Function.comp_def, scaleRow,
    List.zipWith_map_left]
  rfl

theorem map_columns {α : Type} (g : List Nat → α) (m : List (List Nat)) (n : Nat) :
    (columns m n).map g = (List.range n).map fun k => g (column m k) := List.map_map ..

/-- The products of the columns of V with those of U (R221). -/
def lowDots (ra rb : Nat) (w u' : List (List Nat)) : List (List Nat) :=
  (List.range ra).map fun m => (List.range rb).map fun n => qDot (column w m) (column u' n)

theorem prodValue_low_low (ha : a.t = 3) (hb : b.t = 3) (hu : qLow s q a = .ok (u, w)) (hw : qLow s q b = .ok (u', w')) :
    prodValue s q ac a b = .ok (if a.rank ≤ b.rank
      then .low (scaleMat (prodScale ac a b) u) (w'.map fun r => (lowDots a.rank b.rank w u').map fun x => qDot r x)
      else .low ((scaleMat (prodScale ac a b) u).map fun r => (List.range b.rank).map fun n =>
        qDot r (column (lowDots a.rank b.rank w u') n)) w') := by
  simp only [prodValue, ha, hb, hu, hw, ok_bind, lowLow, map_columns]
  rfl

theorem prodValue_low_dense (ha : a.t = 3) (hb : b.t = 4) (hu : qLow s q a = .ok (u, w)) (hx : qDense s q b = .ok x) :
    prodValue s q ac a b = .ok (.low (scaleMat (prodScale ac a b) u)
      ((List.range b.dim).map fun k => (List.range a.rank).map fun n => qDot (column x k) (column w n))) := by
  simp only [prodValue, ha, hb, hu, hx, ok_bind, map_columns]
  rfl

theorem prodValue_dense_low (ha : a.t = 4) (hb : b.t = 3) (hx : qDense s q a = .ok x) (hu : qLow s q b = .ok (u, w)) :
    prodValue s q ac a b = .ok (.low ((scaleMat (prodScale ac a b) x).map
      fun r => (List.range b.rank).map fun n => qDot r (column u n)) w) := by
  simp only [prodValue, ha, hb, hu, hx, ok_bind, map_columns]
  rfl

theorem prodValue_dense_dense (ha : a.t = 4) (hb : b.t = 4) (hx : qDense s q a = .ok x) (hy : qDense s q b = .ok y) :
    prodValue s q ac a b = .ok (.prod (scaleMat (prodScale ac a b) x) y) := by
  simp only [prodValue, ha, hb, hx, hy, ok_bind]
  rfl

theorem termValue_ident (hv : v.t = 1) : termValue s q v = .ok (.ident v.al) := by
  simp only [termValue, hv]

theorem termValue_diag (hv : v.t = 2) (hd : qDiag s q v = .ok d) : termValue s q v = .ok (.diag (scaleRow v.al d)) := by
  simp only [termValue, hv, hd, ok_bind]

theorem termValue_low (hv : v.t = 3) (hu : qLow s q v = .ok (u, w)) : termValue s q v = .ok (.low (scaleMat v.al u) w) := by
  simp only [termValue, hv, hu, ok_bind]

theorem termValue_dense (hv : v.t = 4) (hx : qDense s q v = .ok x) : termValue s q v = .ok (.dense (scaleMat v.al x)) := by
  simp only [termValue, hv, hx, ok_bind]

/-! ### Types and values of a sum (R222) -/

/-- R222: a rank above MAXRANK is DENSE. -/
def capRank (mr : Nat) (p : Nat × Nat) : Nat × Nat := if p.1 = 3 ∧ mr < p.2 then (4, 0) else p

/-- The type and rank of a sum before the cap. -/
def sumType (r p : Nat × Nat) : Nat × Nat :=
  if p.1 = 0 then r
  else if r.1 = 0 then p
  else if r.1 = 1 ∧ p.1 = 1 then (1, 0)
  else if r.1 ≤ 2 ∧ p.1 ≤ 2 then (2, 0)
  else if r.1 = 3 ∧ p.1 = 3 then (3, r.2 + p.2)
  else (4, 0)

theorem foldType_eq (mr : Nat) (r p : Nat × Nat) : foldType mr r p = capRank mr (sumType r p) := by
  simp only [foldType, capRank, sumType, Bool.and_eq_true, decide_eq_true_eq]
  rfl

theorem leafType_append (mr : Nat) (cl : List Contrib) (c : Contrib) :
    leafType mr (cl ++ [c]) = capRank mr (sumType (leafType mr cl) (contribType c)) := by
  rw [leafType, List.map_append, List.foldl_append, List.map_singleton, List.foldl_cons, List.foldl_nil, foldType_eq, leafType]

section
variable {r p : Nat × Nat}

theorem sumType_of_zero_right (hp : p.1 = 0) : sumType r p = r := if_pos hp

theorem sumType_of_zero_left (hr : r.1 = 0) (hp : p.1 ≠ 0) : sumType r p = p := by
  rw [sumType, if_neg hp, if_pos hr]

theorem sumType_ident (hr : r.1 = 1) (hp : p.1 = 1) : sumType r p = (1, 0) := by
  simp [sumType, hr, hp]

theorem sumType_diag (hr : 1 ≤ r.1) (hr2 : r.1 ≤ 2) (hp : 1 ≤ p.1) (hp2 : p.1 ≤ 2) (hrp : r.1 + p.1 ≠ 2) : sumType r p = (2, 0) := by
  have hone : ¬(r.1 = 1 ∧ p.1 = 1) := by omega
  rw [sumType, if_neg (by omega), if_neg (by omega), if_neg hone, if_pos ⟨hr2, hp2⟩]

theorem sumType_low (hr : r.1 = 3) (hp : p.1 = 3) : sumType r p = (3, r.2 + p.2) := by
  simp [sumType, hr, hp]

theorem sumType_dense (hmax : 3 ≤ max r.1 p.1) (hmin : 1 ≤ min r.1 p.1) (hlow : ¬(r.1 = 3 ∧ p.1 = 3)) : sumType r p = (4, 0) := by
  rw [sumType, if_neg (by omega), if_neg (by omega), if_neg (by omega), if_neg (by omega), if_neg hlow]

end

theorem contribType_prod {g : Nat} : contribType (.prod g a b) =
    if a.t = 0 ∨ b.t = 0 then (0, 0) else if a.t = 1 ∧ b.t = 1 then (1, 0) else if a.t ≤ 2 ∧ b.t ≤ 2 then (2, 0)
    else if a.t = 3 ∧ b.t = 3 then (3, min a.rank b.rank) else if a.t = 3 then (3, a.rank)
    else if b.t = 3 then (3, b.rank) else (4, 0) := by
  simp only [contribType, Bool.or_eq_true, Bool.and_eq_true, decide_eq_true_eq]

theorem foldValue_zero_right (n : Nat) (p : QVal) : foldValue n p .zero = p := by
  cases p <;> rfl

theorem foldValue_diag_diag (n : Nat) : foldValue n (.diag d) (.diag f) = .diag (List.zipWith radd d f) :=
  congrArg QVal.diag (map_zip_eq ..)

theorem foldValue_ident_diag (n al : Nat) :
    foldValue n (.ident al) (.diag f) = .diag (List.zipWith radd (List.replicate n al) f) :=
  congrArg QVal.diag (map_zip_eq ..)

theorem foldValue_diag_ident (n al : Nat) :
    foldValue n (.diag d) (.ident al) = .diag (List.zipWith radd d (List.replicate n al)) :=
  congrArg QVal.diag (map_zip_eq ..)

theorem foldValue_low_low (n : Nat) :
    foldValue n (.low u w) (.low u' w') = .low (List.zipWith (· ++ ·) u u') (List.zipWith (· ++ ·) w w') :=
  congrArg₂ QVal.low (map_zip_eq ..) (map_zip_eq ..)

/-! ### Elements of a DENSE result (R223) -/

/-- The accumulator of a result begins as zero. -/
theorem denseValue_eq (f : Nat) (vals : List QVal) (i k : Nat) : denseValue f vals i k =
    (vals.foldl (addContrib i k) (if f = 4 ∨ f = 5 then .xf ⟨0, 0⟩ else .fp 0)).value := by
  simp only [denseValue, isDx, Bool.or_eq_true, decide_eq_true_eq]

/-! ### The values of a result leaf (R222 to R224) -/

/-- The rows of a DENSE result at a place of the result; an element outside its bounds is none. -/
def denseRows (r : QRoot) (place : Nat × Nat) (n : Nat) (element : Nat → Nat → FVal) : List (List (Option FVal)) :=
  (List.range n).map fun i => (List.range n).map fun k =>
    if r.rows ≤ place.1 + i ∨ r.cols ≤ place.2 + k then none else some (element i k)

variable {r : QRoot} {lg : Nat} {place : Nat × Nat} {cl : List Contrib} {vals : List QVal}

theorem leafResult_zero (h : (leafType q.card.maxrank cl).1 = 0) :
    leafResult s q r lg place cl = .ok ⟨0, 0, 0x3F800000, []⟩ := if_pos h

theorem leafResult_dense (h : (leafType q.card.maxrank cl).1 = 4) (hv : cl.mapM (contribValue s q) = .ok vals) :
    leafResult s q r lg place cl = .ok
      (if q.card.demote = true ∧ ∀ x ∈ denseRows r place (2 ^ lg) (denseValue q.card.rfmt vals),
            rowStoredZero q.card.rfmt q.card.gap x = true then ⟨0, 0, 0x3F800000, []⟩
        else ⟨4, 0, 0x3F800000, denseRows r place (2 ^ lg) (denseValue q.card.rfmt vals)⟩) := by
  have h0 : ¬(leafType q.card.maxrank cl).1 = 0 := by omega
  rw [leafResult]
  dsimp only
  rw [if_neg h0, hv, ok_bind, if_pos h]
  simp only [Bool.and_eq_true, List.all_eq_true, Bool.or_eq_true, decide_eq_true_eq]
  exact (apply_ite Except.ok _ _ _).symm

/-- The leaf of a sum whose type is neither ZERO nor DENSE. -/
def foldedLeaf (rank : Nat) : QVal → QLeaf
  | .ident al => ⟨1, 0, al, []⟩
  | .diag x => ⟨2, 0, 0x3F800000, [x.map fun b => some (fp32 b)]⟩
  | .low u v => ⟨3, rank, 0x3F800000, (u ++ v).map fun row => row.map fun b => some (fp32 b)⟩
  | _ => ⟨0, 0, 0x3F800000, []⟩

theorem leafResult_folded {v : QVal} (h0 : (leafType q.card.maxrank cl).1 ≠ 0) (h4 : (leafType q.card.maxrank cl).1 ≠ 4)
    (hv : cl.mapM (contribValue s q) = .ok vals) (hf : vals.foldl (foldValue (2 ^ lg)) .zero = v) :
    leafResult s q r lg place cl = .ok (foldedLeaf (leafType q.card.maxrank cl).2 v) := by
  rw [leafResult]
  dsimp only
  rw [if_neg h0, hv, ok_bind, if_neg h4, hf]
  cases v <;> rfl

theorem leafOut_eq_ok {p : List Nat} {base : Nat} {l : QLeaf} {bs : List QOut} (h : leafOut s q p base = .ok (l, bs)) :
    ∃ r cl, qRoot q = .ok r ∧ listAt s q p r.cl = .ok cl
      ∧ leafResult s q r (r.lg - p.length) (placeOf r.lg p) cl = .ok l ∧ leafBlocks s q (r.lg - p.length) l base = .ok bs := by
  obtain ⟨r, hr, h⟩ := bind_eq_ok.1 h
  obtain ⟨cl, hcl, h⟩ := bind_eq_ok.1 h
  obtain ⟨l', hl, h⟩ := bind_eq_ok.1 h
  obtain ⟨bs', hb, h⟩ := bind_eq_ok.1 h
  cases h
  exact ⟨r, cl, hr, hcl, hl, hb⟩

/-! ### A block of a result (R213) -/

theorem length_dxBlock (dx8 : Bool) (gap : Nat) (xs : List FVal) : (dxBlock dx8 gap xs).1.length = xs.length := by
  unfold dxBlock
  dsimp only
  split <;> exact List.length_map ..

/-- A block stored is a list of codes, packed. -/
theorem storeBlock_packed (f gap : Nat) (xs : List FVal) : ∃ l : List Nat, l.length = xs.length
    ∧ (storeBlock f gap xs).1 = BitVec.ofNat 512 (packElems (fmtBits f) l) := by
  unfold storeBlock
  split
  · exact ⟨_, length_dxBlock .., rfl⟩
  · exact ⟨_, List.length_map .., rfl⟩

theorem packElems_mod (bits : Nat) (l : List Nat) : packElems bits (l.map (· % 2 ^ bits)) = packElems bits l := by
  induction l with
  | nil => rfl
  | cons x l ih => rw [List.map_cons, packElems, packElems, ih, Nat.mod_mod]

theorem fmtBits_dvd {f : Nat} (h1 : 1 ≤ f) (h5 : f ≤ 5) : 0 < fmtBits f ∧ fmtBits f * (512 / fmtBits f) = 512 := by
  interval_cases f <;> decide

theorem packElems_elements {f : Nat} {l : List Nat} (hl : fmtBits f * l.length ≤ 512) :
    packElems (fmtBits f) ((List.range l.length).map (element (BitVec.ofNat 512 (packElems (fmtBits f) l)) f))
      = packElems (fmtBits f) l := by
  conv_rhs => rw [← packElems_mod _ l]
  congr 1
  refine List.ext_getElem (by simp) fun k hk _ => ?_
  have hk : k < l.length := by simpa using hk
  rw [List.getElem_map, List.getElem_range, List.getElem_map, ← List.getD_eq_getElem _ 0 hk]
  exact lane_ofLanes hl k

/-- Every byte of a block belongs to an element. -/
theorem byte_in_element {bits n y : Nat} (hb : 0 < bits) (hn : bits * n = 512) (hy : y < 64) :
    ∃ k < n, k * bits ≤ 8 * y ∧ 8 * y < (k + 1) * bits := by
  refine ⟨8 * y / bits, (Nat.div_lt_iff_lt_mul hb).2 ?_, Nat.div_mul_le_self .., ?_⟩
  · rw [Nat.mul_comm n, hn]
    omega
  · rw [Nat.mul_comm _ bits]
    exact Nat.lt_mul_div_succ _ hb

theorem map_range_getD {α : Type} (l : List α) (z : α) : (List.range l.length).map (l.getD · z) = l :=
  List.ext_getElem (by simp) fun k _ hk => by rw [List.getElem_map, List.getElem_range, List.getD_eq_getElem _ _ hk]

/-- A block all of whose elements are within bounds is written whole, as it is stored. -/
theorem outBlock_full {f : Nat} (gap : Nat) {xs : List FVal} (old : Vec) (h1 : 1 ≤ f) (h5 : f ≤ 5) (hl : xs.length = 512 / fmtBits f) :
    outBlock f gap (xs.map some) old = ((storeBlock f gap xs).1, byteMask 64, (storeBlock f gap xs).2) := by
  obtain ⟨hpos, hbits⟩ := fmtBits_dvd h1 h5
  obtain ⟨l, hlen, hblock⟩ := storeBlock_packed f gap xs
  have hcode : packElems (fmtBits f) ((List.range xs.length).map (element (storeBlock f gap xs).1 f)) = packElems (fmtBits f) l := by
    rw [hblock, ← hlen]
    exact packElems_elements (by rw [hlen, hl, hbits])
  have hmask : ((List.range 64).map fun y => if (List.range xs.length).any (fun k => k * fmtBits f / 8 == y
      || (k * fmtBits f ≤ 8 * y && 8 * y < (k + 1) * fmtBits f)) then 2 ^ y else 0) = (List.range 64).map (2 ^ ·) := by
    refine List.map_congr_left fun y hy => if_pos ?_
    obtain ⟨k, hk, hle, hlt⟩ := byte_in_element hpos hbits (List.mem_range.1 hy)
    rw [List.any_eq_true]
    exact ⟨k, List.mem_range.2 (hl ▸ hk), by simp [hle, hlt]⟩
  unfold outBlock
  simp only [← hl, List.getD_map, Bool.not_false, Bool.true_and, Bool.false_eq_true, if_false, map_range_getD]
  rw [hcode, hblock, hmask]
  rfl

/-! ### Records of the result (R213, R224) -/

theorem recField_resultRecord {t lg rows cols al rank p1 p2 : Nat} (commit : Bool) (ht : t < 256) (hf : q.card.rfmt < 256) (hlg : lg < 256)
    (hr : rows < 2 ^ 16) (hc : cols < 2 ^ 16) (ha : al < 2 ^ 32) (hk : rank < 2 ^ 16) (h1 : p1 < 2 ^ 64) (h2 : p2 < 2 ^ 64) :
    let x := BitVec.ofNat 256 (resultRecord q t lg rows cols al rank commit p1 p2)
    recField x 0 8 = t ∧ recField x 8 8 = q.card.rfmt ∧ recField x 16 8 = lg ∧ recField x 24 8 = (if commit then 1 else 0)
      ∧ recField x 32 16 = rows ∧ recField x 48 16 = cols ∧ recField x 64 64 = p1 ∧ recField x 128 64 = p2
      ∧ recField x 192 32 = al ∧ recField x 224 16 = rank ∧ recField x 240 16 = 0 := by
  obtain ⟨c, hc1, hcommit, hcbit⟩ : ∃ c, c ≤ 1 ∧ (if commit then 2 ^ 24 else 0) = c * 2 ^ 24 ∧ (if commit then 1 else 0) = c := by
    cases commit
    · exact ⟨0, by decide, rfl, rfl⟩
    · exact ⟨1, by decide, rfl, rfl⟩
  intro x
  have hx : x.toNat = resultRecord q t lg rows cols al rank commit p1 p2 % 2 ^ 256 := BitVec.toNat_ofNat ..
  simp only [recField, hx, resultRecord, hcommit, hcbit]
  omega

theorem leafRecord_eq (r : QRoot) (p : List Nat) (base : Nat) (l : QLeaf) :
    leafRecord q r p base l = resultRecord q l.t (r.lg - p.length) (if p = [] then r.rows % 2 ^ r.lg else 0)
      (if p = [] then r.cols % 2 ^ r.lg else 0) l.al l.rank true (if l.t ≤ 1 then 0 else base)
      (if l.t = 3 then base + 2 ^ (r.lg - p.length) * rowPitch q.card.rfmt l.rank else 0) := by
  have ht : (decide (l.t = 0) || decide (l.t = 1)) = decide (l.t ≤ 1) := by
    rw [Bool.eq_iff_iff]
    simp only [Bool.or_eq_true, decide_eq_true_eq]
    omega
  cases p <;> simp only [leafRecord, recordBounds, ht, decide_eq_true_eq] <;> rfl

/-! ### Allocation (R225) -/

theorem align_spec (next : Nat) {align : Nat} (h : 0 < align) :
    (next + align - 1) / align * align % align = 0 ∧ next ≤ (next + align - 1) / align * align
      ∧ (next + align - 1) / align * align < next + align := by
  have h1 := Nat.div_add_mod (next + align - 1) align
  have h2 := Nat.mod_lt (next + align - 1) h
  rw [Nat.mul_comm] at h1
  exact ⟨Nat.mul_mod_left .., by omega, by omega⟩

end Sys2Proof.Machine
end

section
/-! SUPPORT. What messages and accesses leave of the jobs, walks that a job asks for (11 R268, R269), signals (07 R169), and the faults of
copy jobs (07 R170), for the statement on job events. -/
namespace Sys2Proof.Machine

/-! ### Jobs beside messages -/

/-- The jobs of a state are those of another. -/
structure KeepsJobs (s t : State) : Prop where
  copies : t.copies = s.copies
  qjobs : t.qjobs = s.qjobs

variable {s t u : State}

theorem KeepsJobs.refl (s : State) : KeepsJobs s s := ⟨rfl, rfl⟩

theorem KeepsJobs.trans (h : KeepsJobs s t) (h' : KeepsJobs t u) : KeepsJobs s u :=
  ⟨h'.copies.trans h.copies, h'.qjobs.trans h.qjobs⟩

theorem KeepsJobs.getCopy (h : KeepsJobs s t) (j : Nat) : getCopy t j = getCopy s j := congrArg (findBy _ j) h.copies
theorem KeepsJobs.getQJob (h : KeepsJobs s t) (j : Nat) : getQJob t j = getQJob s j := congrArg (findBy _ j) h.qjobs

theorem KeepsJobs.of_modLaunch (s : State) (l : Nat) (f : Launch → Launch) : KeepsJobs s (modLaunch s l f) := by
  rw [modLaunch_only]
  exact ⟨rfl, rfl⟩

theorem KeepsJobs.of_modActor (s : State) (l n : Nat) (f : Actor → Actor) : KeepsJobs s (modActor s l n f) := by
  unfold modActor
  split
  · exact .of_modLaunch s l _
  · exact ⟨rfl, rfl⟩

theorem jobs_intoBox {l : Nat} {a : Actor} {ch : Nat} {m : Msg} (h : intoBox s l a ch m = .done t) : KeepsJobs s t := by
  unfold intoBox at h
  split at h
  · cases h
    exact .of_modLaunch s l _
  · cases h

theorem jobs_atMailbox {l : Launch} {a : Actor} {ch : Nat} {m : Msg} (h : atMailbox s l a ch m = .done t) : KeepsJobs s t := by
  simp only [atMailbox] at h
  split at h
  · split at h
    · cases h
      exact KeepsJobs.trans (t := (nextArrival s a.core).2.2) ⟨rfl, rfl⟩ (.of_modActor _ l.id a.name _)
    · split at h
      · exact jobs_intoBox h
      · cases h
  · split at h
    · exact jobs_intoBox h
    · cases h

theorem jobs_performMsg {node l name ch : Nat} {m : Msg} (h : performMsg s node l name ch m = .done t) : KeepsJobs s t := by
  have hdropped (he : Perf.done (countDropped s l 1) = .done t) : KeepsJobs s t := by
    cases he
    exact .of_modLaunch s l _
  unfold performMsg at h
  split at h
  · cases h
    exact ⟨rfl, rfl⟩
  split at h
  · exact hdropped h
  split at h
  · exact hdropped h
  split at h
  · exact hdropped h
  split at h
  · cases h
  split at h
  · split at h
    · cases h
    · exact hdropped h
  split at h
  · exact hdropped h
  split at h
  · exact jobs_intoBox h
  · exact jobs_atMailbox h

theorem jobs_ownMsg {c asid l name ch : Nat} {m : Msg} (h : ownMsg s c asid l name ch m = some t) : KeepsJobs s t := by
  unfold ownMsg at h
  split at h
  · next t' hp =>
    split at h
    · cases h
    · cases h
      exact jobs_performMsg hp
  · cases h
  · split at h
    · cases h
    · cases h
      exact ⟨rfl, rfl⟩

theorem jobs_sendMsg {c asid l name ch : Nat} {m : Msg} (h : sendMsg s c asid l name ch m = some t) : KeepsJobs s t := by
  unfold sendMsg at h
  split at h
  · cases h
    exact .of_modLaunch s l _
  split at h
  · split at h
    · cases h
    · exact jobs_ownMsg h
  · cases h
    exact ⟨rfl, rfl⟩

theorem jobs_postMsg (s : State) (c asid l name ch : Nat) (m : Msg) : KeepsJobs s (postMsg s c asid l name ch m) := by
  unfold postMsg
  cases addressOf s c l name with
  | none =>
    dsimp only
    split
    · next h => exact jobs_sendMsg h
    · exact ⟨rfl, rfl⟩
  | some n =>
    refine KeepsJobs.trans (t := cacheNode s c l name n) ⟨rfl, rfl⟩ ?_
    dsimp only
    split
    · next h => exact jobs_sendMsg h
    · exact ⟨rfl, rfl⟩

/-! ### Signals (07 R169) -/

theorem jobs_signalJob (s : State) (core launch ctx : Nat) (sig : Signal) (word : Vec) :
    KeepsJobs s (signalJob s core launch ctx sig word) := by
  cases sig with
  | tag t => exact ⟨rfl, rfl⟩
  | notify name ch cls =>
    exact KeepsJobs.trans (t := (newMsg s core cls [word]).2) ⟨rfl, rfl⟩ (jobs_postMsg _ _ _ _ _ _ _)

theorem mem_signalJob (s : State) (core launch ctx : Nat) (sig : Signal) (word : Vec) :
    (signalJob s core launch ctx sig word).mem = s.mem := by
  cases sig with
  | tag t => rfl
  | notify name ch cls => exact (keeps_postMsg _ _ _ _ _ _ _).mem

/-- A tag that is signalled is done and not busy. -/
def TagDone (s : State) (core launch n : Nat) : Prop :=
  (getResident s core launch).tagdone.getLsbD n = true ∧ (getResident s core launch).busy.getLsbD n = false

theorem getResident_modResident_self (s : State) (c l : Nat) {f : Resident → Resident} (hf : ∀ r, (f r).launch = r.launch) :
    getResident (modResident s c l f) c l = f (getResident s c l) := by
  have h := getResident_setResident_self s c (f (getResident s c l))
  rwa [hf, getResident_launch] at h

theorem getLsbD_castBit {n : Nat} (hn : n < 64) : ((1 <<< n : Nat) : BitVec 64).getLsbD n = true := by
  rw [BitVec.natCast_eq_ofNat, BitVec.getLsbD_ofNat, Nat.one_shiftLeft, Nat.testBit_two_pow_self, decide_eq_true hn, Bool.true_and]

theorem tagDone_signalJob (s : State) (core launch ctx : Nat) (word : Vec) {n : Nat} (hn : n < 64) :
    TagDone (signalJob s core launch ctx (.tag n) word) core launch n := by
  have hget : getResident (signalJob s core launch ctx (.tag n) word) core launch = _ :=
    getResident_modResident_self s core launch fun _ => rfl
  rw [TagDone, hget]
  simp only [BitVec.getLsbD_or, BitVec.getLsbD_and, BitVec.getLsbD_not, getLsbD_castBit hn, Bool.or_true, Bool.not_true,
    Bool.and_false, and_self]

theorem signals_iff {l : Nat} : signals s l = true ↔ ∃ x, getLaunch s l = some x ∧ x.phase = .running := by
  unfold signals
  cases getLaunch s l <;> simp [Launch.live]

/-! ### Writes of a card -/

theorem performWrite_only (s : State) (pa key : Nat) (v : Vec) (m : BitVec 64) : (performMem s (.write pa v m) key).1 = { s with
    mem := (performMem s (.write pa v m) key).1.mem, blockKey := (performMem s (.write pa v m) key).1.blockKey
    poisoned := (performMem s (.write pa v m) key).1.poisoned } := by
  simp only [performMem]
  rw [writeThrough_only]
  split <;> rfl

/-! ### Walks that a job asks for (R268, R269) -/

theorem getDie_id (s : State) (d : Nat) : (getDie s d).id = d := by
  unfold getDie
  cases h : findBy (·.id) d s.dies with
  | none => rfl
  | some x => exact findBy_key h

theorem getDie_setDie_self (s : State) (d : Die) : getDie (setDie s d) d.id = d := by
  rw [getDie, setDie_dies, findBy_putBy_self Die.id, Option.getD_some]

theorem mem_addWalk (asid : Nat) (va : Word) (kind : AccessKind) (cluster : Nat) (ws : List Walk) :
    ∃ w ∈ addWalk asid va kind cluster ws, w.asid = asid ∧ w.granule = va.toNat / 2 ^ 14 ∧ cluster ∈ w.clusters := by
  unfold addWalk
  dsimp only
  split
  next h =>
    obtain ⟨w, hw, hit⟩ := List.any_eq_true.1 h
    obtain ⟨ha, hg⟩ : w.asid = asid ∧ w.granule = walkGranule va := by simpa using hit
    refine ⟨_, List.mem_map.2 ⟨w, hw, rfl⟩, ?_⟩
    by_cases hc : cluster ∈ w.clusters
    · rw [if_neg (by simp [hc])]
      exact ⟨ha, hg, hc⟩
    · rw [if_pos (by simp [hc, ha, hg])]
      exact ⟨ha, hg, List.mem_append_right _ List.mem_cons_self⟩
  next => exact ⟨_, List.mem_append_right _ List.mem_cons_self, rfl, rfl, List.mem_cons_self⟩

/-- A walk of the die of a cluster that a job's cluster has asked for. -/
def WalkAsked (t : State) (cluster asid : Nat) (va : Word) : Prop :=
  ∃ w ∈ (getDie t (cluster / 32 % 4)).walks, w.asid = asid ∧ w.granule = va.toNat / 2 ^ 14 ∧ cluster ∈ w.clusters

theorem walkAsked_requestWalk (s : State) (cluster asid : Nat) (va : Word) (kind : AccessKind) :
    WalkAsked (requestWalk s cluster asid va kind) cluster asid va := by
  have h := getDie_setDie_self s { getDie s (cluster / 32 % 4) with
    walks := addWalk asid va kind cluster (getDie s (cluster / 32 % 4)).walks }
  rw [show ({ getDie s (cluster / 32 % 4) with walks := addWalk asid va kind cluster (getDie s (cluster / 32 % 4)).walks } : Die).id
    = cluster / 32 % 4 from getDie_id s _] at h
  rw [WalkAsked, requestWalk, h]
  exact mem_addWalk asid va kind cluster _

end Sys2Proof.Machine
end

section
/-! SUPPORT. What the events of copy jobs leave (07 R163 to R170, 10 R252): jobs that wait for a walk, end as faulted or complete, accesses
that enter their queues, and answers that land, for the statement on job events. -/
namespace Sys2Proof.Machine

/-! ### Jobs that wait, or end their launch (R170) -/

/-- STATE, DONE and FVA stand in a card. -/
def CardWritten (s t : State) (pa key state done fva : Nat) : Prop :=
  t.mem = (performMem s (.write pa (BitVec.ofNat 512 (state + done * 2 ^ 64 + fva * 2 ^ 128)) (byteMask 24)) key).1.mem

/-- A walk has been asked for, and nothing else than the jobs has changed. -/
def CopyJob.Asks (x : CopyJob) (s : State) (va : Word) (t : State) : Prop :=
  t.mem = s.mem ∧ t.cores = s.cores ∧ t.reports = s.reports ∧ WalkAsked t (clusterOf x.core) x.ctx va

/-- The job waits for the walk that it has asked for. -/
def CopyJob.Waits (x : CopyJob) (s : State) (va : Word) (kind : AccessKind) (t : State) : Prop :=
  getCopy t x.id = some { x with blocked := some (va, kind) } ∧ x.Asks s va t

/-- The job is gone, and its launch ends. -/
def CopyJob.Ends (x : CopyJob) (s : State) (va : Word) (origin : Nat) (t : State) : Prop :=
  getCopy t x.id = none ∧ t.reports = s.reports ++ [⟨x.launch, 0x04, origin, va, 0, 0, 0, x.core, 0, x.addr, 0⟩]

/-- The translation of the status of the card. -/
def CopyJob.statusPage (x : CopyJob) (s : State) : Trans := translate s (clusterOf x.core) x.ctx (x.addr + 96) .write

/-- What a fatal access of a copy job leaves: the card says so first, if its page is at hand. -/
def CopyJob.Fatal (x : CopyJob) (s : State) (va : Word) (origin : Nat) (t : State) : Prop :=
  (∀ pa key, x.statusPage s = .ok pa key → x.Ends s va origin t ∧ CardWritten s t pa key 2 x.doneCount va.toNat)
  ∧ (x.statusPage s = .bad → x.Ends s va origin t ∧ t.mem = s.mem)
  ∧ (x.statusPage s = .miss → getCopy t x.id = some { x with failed := some (va, origin), blocked := some (x.addr + 96, .write) }
      ∧ x.Asks s (x.addr + 96) t)

variable {s : State} {x : CopyJob}

theorem suspendCopy_waits (s : State) (x : CopyJob) (va : Word) (kind : AccessKind) : x.Waits s va kind (suspendCopy s x va kind) :=
  ⟨getCopy_setCopy_self _ { x with blocked := some (va, kind) }, rfl, rfl, rfl, walkAsked_requestWalk s (clusterOf x.core) x.ctx va kind⟩

theorem getCopy_dropCopy_self (s : State) (x : CopyJob) : getCopy (dropCopy s x) x.id = none :=
  findBy_dropBy_self CopyJob.id x.id s.copies

theorem endFaulted_ends (s : State) (x : CopyJob) (va : Word) (origin : Nat) : x.Ends s va origin (endFaulted s x va origin) :=
  ⟨getCopy_dropCopy_self _ x, rfl⟩

theorem copyFault_fatal (s : State) (x : CopyJob) (va : Word) (origin : Nat) : x.Fatal s va origin (copyFault s x va origin) := by
  refine ⟨fun pa key h => ?_, fun h => ?_, fun h => ?_⟩
  · have he : copyFault s x va origin
        = endFaulted (performMem s (.write pa (copyStatus 2 x.doneCount va) (byteMask 24)) key).1 x va origin := by
      rw [copyFault, show translate s x.cluster x.ctx x.statusVa .write = .ok pa key from h]
    obtain ⟨hgone, hreports⟩ := endFaulted_ends (performMem s (.write pa (copyStatus 2 x.doneCount va) (byteMask 24)) key).1 x va origin
    have hsame : (performMem s (.write pa (copyStatus 2 x.doneCount va) (byteMask 24)) key).1.reports = s.reports := by
      rw [performWrite_only]
    rw [he]
    exact ⟨⟨hgone, hreports.trans (by rw [hsame])⟩, rfl⟩
  · have he : copyFault s x va origin = endFaulted s x va origin := by
      rw [copyFault, show translate s x.cluster x.ctx x.statusVa .write = .bad from h]
    rw [he]
    exact ⟨endFaulted_ends s x va origin, rfl⟩
  · have he : copyFault s x va origin = suspendCopy s { x with failed := some (va, origin) } x.statusVa .write := by
      rw [copyFault, show translate s x.cluster x.ctx x.statusVa .write = .miss from h]
    rw [he]
    exact suspendCopy_waits s { x with failed := some (va, origin) } x.statusVa .write

/-! ### The end of a copy job (R169) -/

/-- The number of elements or entries that a complete job shows. -/
def CopyJob.doneAtEnd (x : CopyJob) : Nat := if x.kind == .cpy then x.total else x.card.nidx

theorem doneAtEnd_eq (x : CopyJob) : x.doneAtEnd = if x.kind = .cpy then x.total else x.card.nidx := by
  simp only [CopyJob.doneAtEnd, beq_iff_eq]

theorem finishCopy_miss (h : x.statusPage s = .miss) : x.Waits s (x.addr + 96) .write (finishCopy s x) := by
  have he : finishCopy s x = suspendCopy s x x.statusVa .write := by
    rw [finishCopy, show translate s x.cluster x.ctx x.statusVa .write = .miss from h]
  rw [he]
  exact suspendCopy_waits ..

theorem finishCopy_bad (h : x.statusPage s = .bad) : x.Fatal s (x.addr + 96) 3 (finishCopy s x) := by
  have he : finishCopy s x = copyFault s x x.statusVa 3 := by
    rw [finishCopy, show translate s x.cluster x.ctx x.statusVa .write = .bad from h]
  rw [he]
  exact copyFault_fatal ..

/-- The state in which a job that completes signals. -/
def CopyJob.left (x : CopyJob) (s : State) (pa key : Nat) : State :=
  dropCopy (performMem s (.write pa (copyStatus 1 x.doneAtEnd 0) (byteMask 24)) key).1 x

theorem left_launches (pa key : Nat) : (x.left s pa key).launches = s.launches := by
  rw [CopyJob.left, performWrite_only]
  rfl

theorem finishCopy_ok {pa key : Nat} (h : x.statusPage s = .ok pa key) : finishCopy s x =
    if signals s x.launch then signalJob (x.left s pa key) x.core x.launch x.ctx x.signal (BitVec.ofNat 512 (x.addr.toNat + x.doneAtEnd * 2 ^ 64))
    else x.left s pa key := by
  have hsignals : signals (x.left s pa key) x.launch = signals s x.launch := by
    unfold signals getLaunch
    rw [left_launches]
  rw [finishCopy, show translate s x.cluster x.ctx x.statusVa .write = .ok pa key from h, ← hsignals]
  rfl

/-- A tag of a launch that runs is signalled. -/
def TagSignalled (s t : State) (core launch n : Nat) : Prop :=
  (∃ l, getLaunch s launch = some l ∧ l.phase = .running) → n < 64 → TagDone t core launch n

theorem finishCopy_done {pa key : Nat} (h : x.statusPage s = .ok pa key) : getCopy (finishCopy s x) x.id = none
    ∧ CardWritten s (finishCopy s x) pa key 1 x.doneAtEnd 0
    ∧ ∀ n, x.signal = .tag n → TagSignalled s (finishCopy s x) x.core x.launch n := by
  have hgone : getCopy (x.left s pa key) x.id = none := getCopy_dropCopy_self _ x
  rw [finishCopy_ok h]
  cases hs : signals s x.launch with
  | true =>
    rw [if_pos rfl]
    refine ⟨((jobs_signalJob ..).getCopy x.id).trans hgone, (mem_signalJob ..).trans rfl, fun n hn _ hlt => ?_⟩
    rw [hn]
    exact tagDone_signalJob _ _ _ _ _ hlt
  | false =>
    rw [if_neg Bool.false_ne_true]
    refine ⟨hgone, rfl, fun n _ hl _ => ?_⟩
    rw [signals_iff.2 hl] at hs
    exact nomatch hs

/-! ### Moves (R241) -/

theorem moveTo_next {event : String} {t : State} (hrun : clocksRun s = true) : moveTo event s (some t) = .next t :=
  guarded_next.2 ⟨⟨hrun, rfl⟩, rfl⟩

theorem jobSend_next {j k : Nat} {w : Bool} {t : State} (hrun : clocksRun s = true) (h : sendElement s j k w = some t) :
    runMove s (.jobSend j k w) = .next t := by
  rw [show runMove s (.jobSend j k w) = moveTo "JOB_SEND" s (sendElement s j k w) from rfl, h]
  exact moveTo_next hrun

theorem sendElement_copyRead {j : Nat} (hx : getCopy s j = some x) (hheld : ctxHeld s x.ctx = false) (k : Nat) :
    sendElement s j k false = copyRead s x k := by
  rw [sendElement, hx]
  dsimp only
  rw [hheld]
  rfl

theorem sendElement_copyWrite {j : Nat} (hx : getCopy s j = some x) (hheld : ctxHeld s x.ctx = false) (k : Nat) :
    sendElement s j k true = copyWrite s x k := by
  rw [sendElement, hx]
  dsimp only
  rw [hheld]
  rfl

/-! ### Accesses of elements (R165 to R167, R252) -/

section
variable {va : Word} {kind : AccessKind} {f : Nat → Nat → Option State}

theorem withJobPa_ok {pa key : Nat} (h : translate s (clusterOf x.core) x.ctx va kind = .ok pa key) :
    withJobPa s x va kind f = f pa key := by
  rw [withJobPa, show translate s x.cluster x.ctx va kind = .ok pa key from h]

/-- An access that misses makes the job wait. -/
theorem withJobPa_miss (h : translate s (clusterOf x.core) x.ctx va kind = .miss) :
    ∃ t, withJobPa s x va kind f = some t ∧ x.Waits s va kind t :=
  ⟨_, by rw [withJobPa, show translate s x.cluster x.ctx va kind = .miss from h], suspendCopy_waits s x va kind⟩

/-- An access that is not permitted is fatal. -/
theorem withJobPa_bad (h : translate s (clusterOf x.core) x.ctx va kind = .bad) :
    ∃ t, withJobPa s x va kind f = some t ∧ x.Fatal s va 3 t :=
  ⟨_, by rw [withJobPa, show translate s x.cluster x.ctx va kind = .bad from h], copyFault_fatal s x va 3⟩

end

/-- Where an access does not go on with its translation, the job waits or its launch ends (R170). -/
theorem access_stops {va : Word} {kind : AccessKind} {f : Nat → Nat → Option State} {a : Option State} {Sends : State → Prop}
    (ha : a = withJobPa s x va kind f) (hs : ∀ t, a = some t → Sends t) :
    (translate s (clusterOf x.core) x.ctx va kind = .miss → ∃ t, Sends t ∧ x.Waits s va kind t)
      ∧ (translate s (clusterOf x.core) x.ctx va kind = .bad → ∃ t, Sends t ∧ x.Fatal s va 3 t) := by
  refine ⟨fun h => ?_, fun h => ?_⟩
  · obtain ⟨t, ht, hw⟩ := withJobPa_miss (f := f) h
    exact ⟨t, hs t (ha.trans ht), hw⟩
  · obtain ⟨t, ht, hf⟩ := withJobPa_bad (f := f) h
    exact ⟨t, hs t (ha.trans ht), hf⟩

/-- A job that has started, waits for nothing and has not failed. -/
structure CopyJob.GoesOn (x : CopyJob) : Prop where
  started : x.started = true
  blocked : x.blocked = none
  failed : x.failed = none

section
variable {k : Nat} (hgo : x.GoesOn)
include hgo

theorem copyRead_element (hsent : elementSent s x.id k false = false) (hkind : x.kind = .cpy) (hk : k < x.total)
    (hval : x.hasVal k = false) (hw : x.written k = false) : copyRead s x k = withJobPa s x (sourceVa x k) .read fun pa key =>
      if earlierDone s x k (homeOf pa) = true then some (enqueue s x.node (homeOf pa) (newAccess 0 x.ctx (sourceVa x k)
        (.jrd x.id k (if x.card.desc then .readBlock pa else .read pa (2 ^ x.card.esz)) key))) else none := by
  have hindex : x.isIndex k = false := by simp [CopyJob.isIndex, hkind]
  have helem : x.elementOf k = k := by simp [CopyJob.elementOf, hkind]
  have hwants : x.wantsRead k = true := by
    simp [CopyJob.wantsRead, hgo.started, hgo.blocked, hgo.failed, hindex, helem, hk, hval, hw, writes, readsSource, valueKey,
      CopyJob.indexed, hkind]
  have hva : x.readVa k = sourceVa x k := by simp [CopyJob.readVa, hindex, helem]
  unfold copyRead
  rw [hwants, hsent, if_neg (by decide), hva]
  congr 1
  funext pa key
  cases he : earlierDone s x k (homeOf pa) <;> simp [hkind, helem, he, hindex, CopyCard.size]

theorem copyRead_index (hsent : elementSent s x.id k false = false) (hkind : x.kind ≠ .cpy) (hk : k < x.card.nidx)
    (hentry : x.entry k = none) : copyRead s x k = withJobPa s x (x.card.idx + BitVec.ofNat 64 (4 * k)) .read fun pa key =>
      some (enqueue s x.node (homeOf pa) (newAccess 0 x.ctx (x.card.idx + BitVec.ofNat 64 (4 * k)) (.jrd x.id k (.read pa 4) key))) := by
  have hne : (x.kind == .cpy) = false := by simpa using hkind
  have hindex : x.isIndex k = true := by simp [CopyJob.isIndex, hkind, hk]
  have hwants : x.wantsRead k = true := by
    simp [CopyJob.wantsRead, hgo.started, hgo.blocked, hgo.failed, hindex, hentry]
  have hva : x.readVa k = x.card.idx + BitVec.ofNat 64 (4 * k) := by simp [CopyJob.readVa, hindex, indexVa]
  unfold copyRead
  rw [hwants, hsent, if_neg (by decide), hva]
  congr 1
  funext pa key
  simp [hne, hindex]

/-- The write of an element as its home performs it. -/
def CopyJob.writeOp (x : CopyJob) (pa : Nat) (v : Vec) (d : Desc) : MemOp :=
  if x.card.desc then .writeBlock pa v d else .write pa v (byteMask (2 ^ x.card.esz))

theorem copyWrite_element (hsent : elementSent s x.id k true = false) (hk : k < x.total) (hw : x.written k = false)
    (hindexed : x.indexed k = true) {v : Vec} {d : Desc} (hval : x.value k = some (v, d)) :
    copyWrite s x k = withJobPa s x (destVa x k) .write fun pa key =>
      if earlierDone s x k (homeOf pa) = true then some (enqueue s x.node (homeOf pa) (newAccess (x.writeOp pa v d).flits x.ctx (destVa x k)
        (.jwr x.id k x.card.rop (x.writeOp pa v d) key))) else none := by
  unfold copyWrite
  rw [hval]
  dsimp only
  rw [hgo.started, hgo.blocked, hgo.failed, hw, hindexed, decide_eq_true hk, hsent, if_neg (by decide)]
  congr 1
  funext pa key
  cases he : earlierDone s x k (homeOf pa) <;> rfl

end

/-! ### Answers that land -/

section
variable {j k : Nat} {r : MemRes} (hx : getCopy s j = some x) (hf : x.failed = none) (hr : r.poison = false)
include hx hf hr

theorem landRead_element (hkind : x.kind = .cpy) : landRead s j k r = setCopy s { x with vals := x.vals ++ [(k, r.value, r.desc)] } := by
  have hindex : x.isIndex k = false := by simp [CopyJob.isIndex, hkind]
  have helem : x.elementOf k = k := by simp [CopyJob.elementOf, hkind]
  rw [landRead, hx]
  dsimp only
  rw [hf, hr, hindex, helem]
  rfl

theorem landRead_index (hkind : x.kind ≠ .cpy) (hk : k < x.card.nidx) : landRead s j k r
    = setCopy s { x with index := putBy (·.1) (k, sintOf 32 r.value.toNat) x.index } := by
  have hindex : x.isIndex k = true := by simp [CopyJob.isIndex, hkind, hk]
  rw [landRead, hx]
  dsimp only
  rw [hf, hr, hindex]
  rfl

end

theorem sintOf_vec (v : Vec) : sintOf 32 v.toNat = (v.setWidth 32).toInt := by
  rw [sintOf, BitVec.ofNat_toNat]

/-- Nothing but how far the job is written has changed. -/
structure CopyJob.Same (x y : CopyJob) : Prop where
  id : y.id = x.id
  index : y.index = x.index
  card : y.card = x.card
  kind : y.kind = x.kind

theorem CopyJob.Same.refl (x : CopyJob) : x.Same x := ⟨rfl, rfl, rfl, rfl⟩

theorem CopyJob.Same.writes {x y : CopyJob} (h : x.Same y) (n : Nat) : writes y n = writes x n := by
  obtain ⟨-, hindex, hcard, hkind⟩ := h
  have hentry : ∀ m, y.entry m = x.entry m := fun m => by rw [CopyJob.entry, CopyJob.entry, hindex]
  simp only [Sys2Proof.Machine.writes, laterEntry, legalRow, hentry, hcard, hkind]

theorem written_iff (x : CopyJob) (n : Nat) : x.written n = true ↔ n < x.front ∨ n ∈ x.ahead ∨ writes x n = false := by
  simp [CopyJob.written, or_assoc]

theorem copyAdvance_same (f : Nat) : ∀ x : CopyJob, x.Same (copyAdvance x f) := by
  induction f with
  | zero => exact .refl
  | succ f ih =>
    intro x
    rw [copyAdvance]
    split
    · obtain ⟨h1, h2, h3, h4⟩ := ih { x with front := x.front + 1, ahead := x.ahead.filter (· != x.front) }
      exact ⟨h1, h2, h3, h4⟩
    · exact .refl x

/-- Moving front over the elements written changes none of them. -/
theorem written_copyAdvance (n f : Nat) : ∀ x : CopyJob, (copyAdvance x f).written n = true ↔ x.written n = true := by
  induction f with
  | zero => exact fun _ => Iff.rfl
  | succ f ih =>
    intro x
    rw [copyAdvance]
    split
    next h =>
      have hmem : x.front ∈ x.ahead := by simpa using h
      have hsame : writes { x with front := x.front + 1, ahead := x.ahead.filter (· != x.front) } n = writes x n := rfl
      rw [ih, written_iff, written_iff, hsame]
      simp only [List.mem_filter, bne_iff_ne, ne_eq]
      by_cases hn : n = x.front
      · subst hn
        simp [hmem]
      · have hlt : n < x.front + 1 ↔ n < x.front := by omega
        simp [hlt, hn]
    next => exact Iff.rfl

/-- The answer to write k: its element is written, and no other. -/
theorem landWrite_written {s : State} {j k : Nat} {r : MemRes} {x : CopyJob} (hx : getCopy s j = some x) (hr : r.poison = false) :
    ∃ y, getCopy (landWrite s j k r) j = some y ∧ x.Same y ∧ ∀ n, y.written n = true ↔ x.written n = true ∨ n = k := by
  have hid : x.id = j := findBy_key hx
  let z : CopyJob := { x with vals := if x.kind == .gath then x.vals else x.vals.filter (fun v => v.1 != k), ahead := x.ahead ++ [k] }
  have hsame := copyAdvance_same z.ahead.length z
  have hl : landWrite s j k r = setCopy s (copyAdvance z z.ahead.length) := by
    rw [landWrite, hx]
    dsimp only
    rw [hr, if_neg Bool.false_ne_true]
  refine ⟨copyAdvance z z.ahead.length, ?_, ⟨hsame.id, hsame.index, hsame.card, hsame.kind⟩, fun n => ?_⟩
  · have h := getCopy_setCopy_self s (copyAdvance z z.ahead.length)
    rw [hsame.id, show z.id = j from hid] at h
    rw [hl, h]
  · have hz : writes z n = writes x n := rfl
    rw [written_copyAdvance, written_iff, written_iff, hz]
    show n < x.front ∨ n ∈ x.ahead ++ [k] ∨ writes x n = false ↔ _
    rw [List.mem_append, List.mem_singleton]
    tauto

/-! ### Events -/

/-- An event that is a guarded one, its condition read as a statement. -/
theorem occurs_of {i : Instr} {event : String} {s f : State} {okb : Bool} {ok : Prop} {P : State → Prop}
    (h : exec i s = guarded event s okb f) (hok : okb = true ↔ ok) (hP : ok → P f) :
    Occurs i event s (clocksRun s = true ∧ ok) P := by
  have ho := occurs_guarded (P := P) h fun _ ht => hP (hok.1 ht)
  rwa [propext hok] at ho

theorem exec_jobStart_copy {s : State} {j : Nat} {x : CopyJob} (hx : getCopy s j = some x) : exec (.evJobStart j) s
    = guarded "JOB_START" s (!x.started && !ctxHeld s x.ctx && mayStart s x.core j) (setCopy s { x with started := true }) := by
  show execEvJobStart j s = _
  rw [execEvJobStart, hx]

theorem exec_jobComplete_copy {s : State} {j : Nat} {x : CopyJob} (hx : getCopy s j = some x) (hf : x.failed = none) :
    exec (.evJobComplete j) s = guarded "JOB_COMPLETE" s (x.complete && !ctxHeld s x.ctx) (finishCopy s x) := by
  show execEvJobComplete j s = _
  rw [execEvJobComplete, hx]
  dsimp only
  rw [hf]

theorem exec_jobComplete_failed {s : State} {j : Nat} {x : CopyJob} {va : Word} {origin : Nat} (hx : getCopy s j = some x)
    (hf : x.failed = some (va, origin)) : exec (.evJobComplete j) s
      = guarded "JOB_COMPLETE" s (x.blocked.isNone && !ctxHeld s x.ctx) (copyFault s x va origin) := by
  show execEvJobComplete j s = _
  rw [execEvJobComplete, hx]
  dsimp only
  rw [hf]

end Sys2Proof.Machine
end

section
/-! SUPPORT. Accesses of jobs at their homes (07 R167, 10 R249, 13 R329): what performs, what it answers, and the record that it commits
(09 R227), for the statement on job events. -/
namespace Sys2Proof.Machine

/-! ### Accesses of blocks that no other key has written -/

/-- The block is sound, and no other key has written it. -/
def PlainAt (s : State) (pa key : Nat) : Prop := isPoisoned s pa = false ∧ (isDram pa = false ∨ blockKeyOf s pa = keyValue s key)

section
variable {s : State} {pa key : Nat} (h : PlainAt s pa key)
include h

theorem PlainAt.oneKey : (isDram pa && blockKeyOf s pa != keyValue s key) = false := by
  obtain ⟨-, hd | hk⟩ := h
  · rw [hd, Bool.false_and]
  · rw [hk, bne_self_eq_false, Bool.and_false]

theorem PlainAt.read (n q : Nat) : performAt s (.read pa n) key q = (s, ⟨BitVec.ofNat 512 (memRead s.mem pa n), 0, 0, false⟩) := by
  simp only [performAt, performMem, readThrough, h.oneKey, h.1, Bool.false_eq_true, if_false]

theorem PlainAt.writeThrough (v : Vec) (mask : BitVec 64) :
    writeThrough s pa key v mask = { s with mem := memWrite s.mem pa v.toNat mask.toNat 64 } := by
  simp only [Sys2Proof.Machine.writeThrough, h.oneKey, Bool.false_eq_true, if_false]

theorem PlainAt.write_mem (v : Vec) (mask : BitVec 64) :
    (performMem s (.write pa v mask) key).1.mem = memWrite s.mem pa v.toNat mask.toNat 64 := by
  simp only [performMem, h.writeThrough]
  split <;> rfl

end

theorem performAt_write (s : State) (pa key q : Nat) (v : Vec) (mask : BitVec 64) :
    performAt s (.write pa v mask) key q = ((performMem s (.write pa v mask) key).1, okRes 0) := rfl

theorem performElem_plain (s : State) (op : MemOp) (key : Nat) : performElem s 0 op key = performAt s op key op.pa := by
  simp only [performElem]

theorem descOf_congr {s t : State} (h : t.descs = s.descs) (pa : Nat) : descOf t pa = descOf s pa := by
  simp only [descOf, h]

/-! ### Answers and records -/

theorem landRecord_only (s : State) (j k : Nat) : landRecord s j k = { s with qjobs := (landRecord s j k).qjobs } := by
  unfold landRecord
  split
  · rfl
  · split <;> rfl

theorem getQJob_landRecord_congr {s u : State} (h : u.qjobs = s.qjobs) (j k : Nat) :
    getQJob (landRecord u j k) j = getQJob (landRecord s j k) j := by
  have hget : getQJob u j = getQJob s j := congrArg (findBy _ j) h
  have hset : ∀ q, getQJob (setQJob u q) j = getQJob (setQJob s q) j := fun q => by simp only [getQJob, setQJob, h]
  unfold landRecord
  rw [hget]
  split
  · exact hget
  · split
    · exact hget
    · exact hset _

/-- A packet performs: a state of which P holds, and its answer stands in the queue back. -/
def Answers (s : State) (p : Pair) (x : Packet) (answer : Body) (P : State → Prop) : Prop :=
  ∃ t, performPacket s p x = .done t ∧ P t
    ∧ ∃ q, (getPair t p.dst p.src).out = (getPair s p.dst p.src).out ++ [q] ∧ q.body = answer

theorem answer_respondTo {s u : State} (h : u.pairs = s.pairs) (p : Pair) (x : Packet) (len opx addr : Nat) (b : Body) :
    ∃ q, (getPair (respondTo u p x len opx addr b) p.dst p.src).out = (getPair s p.dst p.src).out ++ [q] ∧ q.body = b := by
  refine ⟨{ newAccess len x.asid x.via b with opx := opx, addr := addr }, ?_, rfl⟩
  rw [respondTo, getPair_enqueue_self, getPair_congr h]

theorem answers_jrd {s u : State} {r : MemRes} (p : Pair) (x : Packet) (j k key : Nat) {op : MemOp}
    (h : performAt s op key op.pa = (u, r)) (hu : u.pairs = s.pairs) :
    Answers s p { x with body := .jrd j k op key } (.jrdr j k r) fun t => t.mem = u.mem := by
  refine ⟨respondTo u p { x with body := .jrd j k op key } op.answerFlits (opxOf op) op.pa (.jrdr j k r), ?_, rfl,
    answer_respondTo hu ..⟩
  simp only [performPacket, h]

theorem answers_jwr {s u : State} {r : MemRes} (p : Pair) (x : Packet) (j k rop key : Nat) {op : MemOp}
    (h : performElem s rop op key = (u, r)) (hu : u.pairs = s.pairs) (hq : u.qjobs = s.qjobs) :
    Answers s p { x with body := .jwr j k rop op key } (.jwra j k r) fun t => t.mem = u.mem ∧ t.descs = u.descs
      ∧ getQJob t j = getQJob (landRecord s j k) j := by
  refine ⟨respondTo (landRecord u j k) p { x with body := .jwr j k rop op key } 0 0 op.pa (.jwra j k r), ?_, ⟨?_, ?_, ?_⟩,
    answer_respondTo ?_ ..⟩
  · simp only [performPacket, h]
  · show (landRecord u j k).mem = u.mem
    rw [landRecord_only]
  · show (landRecord u j k).descs = u.descs
    rw [landRecord_only]
  · exact getQJob_landRecord_congr hq j k
  · rw [landRecord_only]
    exact hu

theorem Answers.imp {s : State} {p : Pair} {x : Packet} {b : Body} {P Q : State → Prop} (h : Answers s p x b P)
    (hi : ∀ t, P t → Q t) : Answers s p x b Q := by
  obtain ⟨t, ht, hp, hq⟩ := h
  exact ⟨t, ht, hi t hp, hq⟩

theorem extractLsb_ofNat (n : Nat) {i : Nat} (hi : i < 64) :
    (BitVec.ofNat 512 n).extractLsb' (8 * i) 8 = BitVec.ofNat 8 (n / 256 ^ i) := by
  refine BitVec.eq_of_getLsbD_eq fun b hb => ?_
  rw [BitVec.getLsbD_extractLsb', BitVec.getLsbD_ofNat, BitVec.getLsbD_ofNat, show 256 ^ i = 2 ^ (8 * i) from (Nat.pow_mul 2 8 i).symm,
    Nat.testBit_div_two_pow, Nat.add_comm b, decide_eq_true hb, decide_eq_true (by omega : 8 * i + b < 512)]
  rfl

/-! ### Writes of elements, and a scatter's combination (R167) -/

section
variable {s : State} {pa key : Nat} (h : PlainAt s pa key) (p : Pair) (x : Packet) (j k : Nat)
include h

theorem PlainAt.answers_read (n : Nat) : Answers s p { x with body := .jrd j k (.read pa n) key }
    (.jrdr j k ⟨BitVec.ofNat 512 (memRead s.mem pa n), 0, 0, false⟩) fun t => t.mem = s.mem :=
  answers_jrd p x j k key (h.read n _) rfl

theorem PlainAt.answers_writeBlock (v : Vec) (d : Desc) : Answers s p { x with body := .jwr j k 0 (.writeBlock pa v d) key }
    (.jwra j k ⟨0, 0, 0, false⟩) fun t => descOf t pa = d ∧ getQJob t j = getQJob (landRecord s j k) j
      ∧ (s.inv → ∀ a, memByte t.mem a = if pa ≤ a ∧ a < pa + 64 then v.extractLsb' (8 * (a - pa)) 8 else memByte s.mem a) := by
  have hperf : performElem s 0 (.writeBlock pa v d) key
      = (setDesc (clearPoison { s with mem := memWrite s.mem pa v.toNat (byteMask 64).toNat 64 } pa) pa d, okRes 0) := by
    show performAt s (.writeBlock pa v d) key pa = _
    simp only [performAt, performMem, h.writeThrough]
    rfl
  have ha := answers_jwr p x j k 0 key hperf (by simp only [setDesc, clearPoison]) (by simp only [setDesc, clearPoison])
  refine ha.imp fun t ⟨hmem, hdesc, hq⟩ => ⟨?_, hq, fun hs a => ?_⟩
  · have hd := descOf_setDesc (clearPoison { s with mem := memWrite s.mem pa v.toNat (byteMask 64).toNat 64 } pa) pa d pa
    rw [if_pos rfl] at hd
    exact (descOf_congr hdesc pa).trans hd
  · simp only [hmem, setDesc, clearPoison]
    exact memByte_write hs pa v le_rfl a

theorem PlainAt.answers_write (v : Vec) {n : Nat} (hn : n ≤ 64) : Answers s p { x with body := .jwr j k 0 (.write pa v (byteMask n)) key }
    (.jwra j k ⟨0, 0, 0, false⟩) fun t => getQJob t j = getQJob (landRecord s j k) j
      ∧ (s.inv → ∀ a, memByte t.mem a = if pa ≤ a ∧ a < pa + n then v.extractLsb' (8 * (a - pa)) 8 else memByte s.mem a) := by
  refine (answers_jwr p x j k 0 key ((performElem_plain ..).trans (performAt_write s pa key pa v (byteMask n))) ?_ ?_).imp
    fun t ⟨hmem, _, hq⟩ => ⟨hq, fun hs a => ?_⟩
  · rw [performWrite_only]
  · rw [performWrite_only]
  · rw [hmem, h.write_mem]
    exact memByte_write hs pa v hn a

/-- A scatter's combination reads the element and writes it back combined. -/
theorem PlainAt.answers_reduce {rop : Nat} (v : Vec) (h1 : 1 ≤ rop) {z : Nat} (hz : z = if rop = 2 then 8 else 4) {y : Vec}
    (hy : y = BitVec.ofNat 512 (memRead s.mem pa z)) : Answers s p { x with body := .jwr j k rop (.write pa v (byteMask z)) key }
      (.jwra j k ⟨0, 0, 0, false⟩) fun t => s.inv → ∀ a, memByte t.mem a = if pa ≤ a ∧ a < pa + z
        then BitVec.ofNat 8 (reduceElem rop y.toNat (v.toNat % 256 ^ z) / 256 ^ (a - pa)) else memByte s.mem a := by
  obtain ⟨n, rfl⟩ := Nat.exists_eq_add_of_le' h1
  have hz8 : z ≤ 8 := by rw [hz]; split <;> decide
  have hperf : performElem s (n + 1) (.write pa v (byteMask z)) key = ((performMem s
      (.write pa (BitVec.ofNat 512 (reduceElem (n + 1) y.toNat (v.toNat % 256 ^ z))) (byteMask z)) key).1, okRes 0) := by
    simp only [performElem, ← hz, h.read z pa, ← hy, Bool.false_eq_true, if_false]
    exact performAt_write ..
  refine (answers_jwr p x j k (n + 1) key hperf ?_ ?_).imp fun t ⟨hmem, _, _⟩ hs a => ?_
  · rw [performWrite_only]
  · rw [performWrite_only]
  · rw [hmem, h.write_mem, memByte_write hs pa _ (by omega)]
    split
    · exact extractLsb_ofNat _ (by omega)
    · rfl

end

end Sys2Proof.Machine
end

section
/-! SUPPORT. Quadtree jobs that start, end and suspend (09 R227, R229 to R231, R234), for the statement on job events. -/
namespace Sys2Proof.Machine

/-! ### What the engine's own writes change -/

/-- Nothing has changed but memory, the keys of its blocks and what is lost. -/
def MemOnly (s t : State) : Prop := t = { s with mem := t.mem, blockKey := t.blockKey, poisoned := t.poisoned }

theorem MemOnly.refl (s : State) : MemOnly s s := rfl

theorem MemOnly.trans {s t u : State} (h : MemOnly s t) (h' : MemOnly t u) : MemOnly s u := by
  unfold MemOnly at h h' ⊢
  rw [h] at h'
  exact h'

theorem MemOnly.launches {s t : State} (h : MemOnly s t) : t.launches = s.launches := by
  unfold MemOnly at h
  rw [h]
theorem MemOnly.qjobs {s t : State} (h : MemOnly s t) : t.qjobs = s.qjobs := by
  unfold MemOnly at h
  rw [h]

theorem memOnly_qWrite {s t : State} {q : QJob} {va : Word} {v : Vec} {mask : BitVec 64} (h : qWrite s q va v mask = .ok t) :
    MemOnly s t := by
  unfold qWrite at h
  split at h
  · exact nomatch h
  · exact nomatch h
  · cases h
    exact performWrite_only ..

theorem memOnly_qCard {s t : State} {q : QJob} {off v n : Nat} (h : qCard s q off v n = .ok t) : MemOnly s t := memOnly_qWrite h

/-- Writes made one after another. -/
theorem memOnly_foldlM {α : Type} {f : State → α → Except QErr State} (hf : ∀ s a t, f s a = .ok t → MemOnly s t) (l : List α) :
    ∀ {s t : State}, l.foldlM f s = .ok t → MemOnly s t := by
  induction l with
  | nil =>
    intro s t h
    cases h
    exact .refl s
  | cons a l ih =>
    intro s t h
    rw [List.foldlM_cons] at h
    obtain ⟨u, hu, h⟩ := bind_eq_ok.1 h
    exact (hf s a u hu).trans (ih h)

theorem memOnly_writePools {s t : State} {q : QJob} (h : writePools s q = .ok t) : MemOnly s t := by
  obtain ⟨a, ha, h⟩ := bind_eq_ok.1 h
  obtain ⟨b, hb, h⟩ := bind_eq_ok.1 h
  obtain ⟨c, hc, h⟩ := bind_eq_ok.1 h
  exact (((memOnly_qCard ha).trans (memOnly_qCard hb)).trans (memOnly_qCard hc)).trans (memOnly_qCard h)

/-! ### Signals of quadtree jobs (R227) -/

theorem getQJob_setQJob_self (s : State) (q : QJob) : getQJob (setQJob s q) q.id = some q := findBy_putBy_self QJob.id q s.qjobs

theorem jobs_qSignal (s : State) (q : QJob) : KeepsJobs s (qSignal s q) := by
  unfold qSignal
  split
  · exact jobs_signalJob ..
  · exact .refl s

theorem mem_qSignal (s : State) (q : QJob) : (qSignal s q).mem = s.mem := by
  unfold qSignal
  split
  · exact mem_signalJob ..
  · rfl

theorem tagSignalled_qSignal {s t : State} {q : QJob} (h : t.launches = s.launches) (hn : q.card.notify = false) :
    TagSignalled s (qSignal t q) q.core q.launch q.card.tag := by
  intro hl hlt
  have hs : signals t q.launch = true := by
    rw [signals_iff]
    simpa only [getLaunch, h] using hl
  have hsig : q.signal = .tag q.card.tag := by
    rw [QJob.signal, hn]
    rfl
  rw [qSignal, if_pos hs, hsig]
  exact tagDone_signalJob _ _ _ _ _ hlt

/-! ### The end of a job (R227, R234) -/

theorem getQJob_dropQJob_self (s : State) (q : QJob) : getQJob (dropQJob s q) q.id = none :=
  findBy_dropBy_self QJob.id q.id s.qjobs

/-- What the end of a job leaves, once its last write has left a state. -/
def QJob.EndsAfter (q : QJob) (s u t : State) : Prop :=
  getQJob t q.id = none ∧ t.mem = u.mem ∧ (q.card.notify = false → TagSignalled s t q.core q.launch q.card.tag)

theorem endsAfter_qSignal {s u : State} (q : QJob) (n : Nat) (h : MemOnly s u) :
    q.EndsAfter s u (qSignal (dropQJob u q) { q with state := n }) :=
  ⟨((jobs_qSignal ..).getQJob q.id).trans (getQJob_dropQJob_self u q), (mem_qSignal ..).trans rfl,
    fun hn => tagSignalled_qSignal (q := { q with state := n }) h.launches hn⟩

theorem finishQJob_complete {s u v w : State} {q : QJob} (hc : q.cancelled = false) (hu : writePools s q = .ok u)
    (hv : qCard u q 120 q.nleaves 4 = .ok v) (hw : qCard v q 116 2 1 = .ok w) : q.EndsAfter s w (finishQJob s q) := by
  have he : finishQJob s q = qSignal (dropQJob w q) { q with state := 2 } := by
    simp only [finishQJob, hc, Bool.false_eq_true, if_false, hu, ok_bind, hv, hw]
  rw [he]
  exact endsAfter_qSignal q 2 (((memOnly_writePools hu).trans (memOnly_qCard hv)).trans (memOnly_qCard hw))

theorem finishQJob_cancelled {s u v : State} {q : QJob} (hc : q.cancelled = true)
    (hu : (openRecords q).foldlM (fun s va => qWriteRec s q va poisonRecord) s = .ok u) (hv : qCard u q 116 5 1 = .ok v) :
    q.EndsAfter s v (finishQJob s q) := by
  have he : finishQJob s q = qSignal (dropQJob v q) { q with state := 5 } := by
    simp only [finishQJob, hc, if_true, hu, ok_bind, hv]
  rw [he]
  exact endsAfter_qSignal q 5 ((memOnly_foldlM (fun _ _ _ => memOnly_qWrite) _ hu).trans (memOnly_qCard hv))

/-! ### Suspension (R229, R230) -/

theorem framesOf_suspend (q : QJob) (c n : Nat) : ∀ p, framesOf { q with suspend := c } n p = framesOf q n p := by
  induction n with
  | zero => exact fun _ => rfl
  | succ n ih =>
    intro p
    rw [framesOf, framesOf]
    have hgroup : QJob.groupAt { q with suspend := c } p = q.groupAt p := rfl
    have hdone : (fun k => !QJob.done { q with suspend := c } (p ++ [k])) = fun k => !q.done (p ++ [k]) := rfl
    simp only [hgroup, hdone, ih]

/-- The frames that a suspension writes; a job whose tree is still to be re-walked leaves its frames as they are. -/
def QJob.frames (q : QJob) : List (List Nat × Nat × Nat) :=
  if q.rewalk = true then [] else framesOf q (recField q.recA 16 8 + 1) []

/-- The job as a suspension with a cause leaves it. -/
def QJob.suspended (q : QJob) (cause : Nat) : QJob :=
  { q with state := 3, scause := cause, depth := if q.rewalk = true then q.depth else q.frames.length, suspend := 0, cache := [],
           assigned := [], rewalk := false }

theorem suspendQJob_ok {s u v : State} {q : QJob} {cause : Nat}
    (hu : writeFrames s { q with suspend := cause } (recField q.recA 16 8) q.frames = .ok u)
    (hv : writeSuspended u (q.suspended cause) = .ok v) : suspendQJob s { q with suspend := cause }
      = if cause = 4 then setQJob (dropTasks v { q with suspend := cause } none) (q.suspended cause)
        else qSignal (setQJob (dropTasks v { q with suspend := cause } none) (q.suspended cause)) (q.suspended cause) := by
  have hframes : (if q.rewalk = true then [] else framesOf { q with suspend := cause } (recField q.recA 16 8 + 1) []) = q.frames := by
    rw [framesOf_suspend]
    rfl
  unfold QJob.suspended at hv ⊢
  simp only [suspendQJob, hframes, hu, ok_bind, hv]

theorem suspendQJob_leaves {s u v : State} {q : QJob} {cause : Nat}
    (hu : writeFrames s { q with suspend := cause } (recField q.recA 16 8) q.frames = .ok u)
    (hv : writeSuspended u (q.suspended cause) = .ok v) :
    getQJob (suspendQJob s { q with suspend := cause }) q.id = some (q.suspended cause)
      ∧ (suspendQJob s { q with suspend := cause }).mem = v.mem := by
  have hset : getQJob (setQJob (dropTasks v { q with suspend := cause } none) (q.suspended cause)) q.id = some (q.suspended cause) :=
    getQJob_setQJob_self _ (q.suspended cause)
  rw [suspendQJob_ok hu hv]
  split
  · exact ⟨hset, rfl⟩
  · exact ⟨((jobs_qSignal ..).getQJob q.id).trans hset, mem_qSignal ..⟩

/-! ### A job that goes on (R231) -/

theorem resumeQJob_job {s u : State} {q r : QJob} {card : Nat} (h : resumeQJob s q card = .ok (u, r)) :
    r.state = 1 ∧ r.scause = 0 ∧ r.rewalk = true := by
  obtain ⟨v, -, h⟩ := bind_eq_ok.1 h
  cases h
  exact ⟨rfl, rfl, rfl⟩

theorem wakeQJob_ok {s u : State} {q r : QJob} {card : Nat} (hc : qCardBits s q = .ok card) (hr : resumeQJob s q card = .ok (u, r)) :
    wakeQJob s q = setQJob u r := by
  simp only [wakeQJob, hc, ok_bind, hr]

/-! ### Events -/

section
variable {s : State} {j : Nat} {q : QJob} (hc : getCopy s j = none) (hq : getQJob s j = some q)
include hc hq

theorem exec_jobStart_quad (hp : q.state ≠ 3 ∨ q.scause ≠ 4) : exec (.evJobStart j) s = guarded "JOB_START" s
    (!q.started && !ctxHeld s q.ctx && q.suspend = 0 && q.state = 1 && mayStart s q.core j) (setQJob s { q with started := true }) := by
  show execEvJobStart j s = _
  rw [execEvJobStart, hc, hq]
  dsimp only
  rw [if_neg]
  simp only [Bool.and_eq_true, decide_eq_true_eq, not_and_or]
  exact hp

theorem exec_jobStart_preempted (h3 : q.state = 3) (h4 : q.scause = 4) : exec (.evJobStart j) s
    = guarded "JOB_START" s (ctxRuns s q.ctx && q.wait.isNone && !q.cancelled) (wakeQJob s q) := by
  show execEvJobStart j s = _
  rw [execEvJobStart, hc, hq]
  dsimp only
  rw [if_pos]
  simp only [h3, h4, decide_true, Bool.and_self]

theorem exec_jobComplete_quad : exec (.evJobComplete j) s = guarded "JOB_COMPLETE" s
    (q.ended && q.wait.isNone && !jobInFlight s j && !ctxHeld s q.ctx) (finishQJob s q) := by
  show execEvJobComplete j s = _
  rw [execEvJobComplete, hc, hq]

end

/-- The cause with which a job is to suspend: a context that leaves gives one of its own (R305). -/
def QJob.causeIn (q : QJob) (s : State) : Nat := if q.suspend = 0 && ctxLeaves s q.ctx then 4 else q.suspend

theorem causeIn_eq (q : QJob) (s : State) : q.causeIn s = if q.suspend = 0 ∧ ctxLeaves s q.ctx = true then 4 else q.suspend := by
  simp only [QJob.causeIn, Bool.and_eq_true, decide_eq_true_eq]

theorem exec_jobSuspend {s : State} {j : Nat} {q : QJob} (hq : getQJob s j = some q) : exec (.evJobSuspend j) s = guarded "JOB_SUSPEND" s
    (q.state = 1 && q.causeIn s != 0 && !q.cancelled && (!q.done [] || q.causeIn s = 3) && q.leaves.isEmpty && q.wait.isNone
      && !jobInFlight s j && !(q.groups.any fun g => q.ready g.1)) (suspendQJob s { q with suspend := q.causeIn s }) := by
  show execEvJobSuspend j s = _
  rw [execEvJobSuspend, hq]
  rfl

end Sys2Proof.Machine
end

section
/-! SUPPORT. What a quadtree job reads ahead, stages and commits (09 R225 to R228, R231, 10 R252), for the statement on job events. -/
namespace Sys2Proof.Machine

/-! ### Tasks taken from the cores -/

/-- The slots of every core as a function changes them that leaves an empty slot as it is. -/
theorem getSlot_mapSlots (s : State) (f : Slot → Slot) (g : Core → List (Nat × List Nat)) (hf : f Slot.reset = Slot.reset)
    (c : Nat) (i : Fin 4) :
    getSlot { s with cores := s.cores.map fun k => { k with slots := k.slots.map f, leaves := g k } } c i = f (getSlot s c i) := by
  unfold getSlot getCore findBy
  rw [List.find?_map]
  have hkey : ((fun x : Core => x.id == c) ∘ fun k => { k with slots := k.slots.map f, leaves := g k }) = fun k : Core => k.id == c := rfl
  rw [hkey]
  cases s.cores.find? (fun k => k.id == c) with
  | some k => simp
  | none => simp [Core.reset, hf]

theorem status_dropTasks (s : State) (q : QJob) (path : List Nat) (c : Nat) (i : Fin 4) :
    (getSlot (dropTasks s q (some path)) c i).status ≠ .leaf q.id path := by
  unfold dropTasks
  rw [getSlot_mapSlots _ _ _ rfl]
  split
  next id p hs =>
    split
    · exact nofun
    next hmine =>
      rw [hs]
      rintro ⟨rfl, rfl⟩
      exact hmine (by simp)
  next hs =>
    split
    · exact nofun
    · rw [hs]
      exact nofun
  next hnot _ => exact hnot _ _

/-! ### Reading and sending ahead (R227, R231, R252) -/

/-- The engine goes on with what the job has begun. -/
structure QJob.GoesOn (q : QJob) (s : State) : Prop where
  started : q.started = true
  state : q.state = 1
  cancelled : q.cancelled = false
  wait : q.wait = none
  rewalk : q.rewalk = false
  held : ctxHeld s q.ctx = false

variable {s : State} {q : QJob} {j : Nat}

theorem QJob.GoesOn.moves (h : q.GoesOn s) : q.moves s = true := by
  simp [QJob.moves, h.started, h.state, h.cancelled, h.wait, h.rewalk, h.held]

/-- The re-walk of a resumed job is due. -/
structure QJob.Rewalks (q : QJob) : Prop where
  rewalk : q.rewalk = true
  state : q.state = 1
  wait : q.wait = none

theorem runMove_rewalk {u : State} (hrun : clocksRun s = true) (h : rewalkQJob s j = some u) : runMove s (.rewalk j) = .next u := by
  rw [show runMove s (.rewalk j) = moveTo "REWALK" s (rewalkQJob s j) from rfl, h]
  exact moveTo_next hrun

section
variable (hrun : clocksRun s = true) (hq : getQJob s j = some q) (hr : q.Rewalks)
include hrun hq hr

theorem rewalk_ok {r : QJob} (h : rebuild s q = .ok r) : runMove s (.rewalk j) = .next (setQJob s { r with rewalk := false, cache := [] }) := by
  refine runMove_rewalk hrun ?_
  rw [rewalkQJob, hq, Option.bind_some, if_neg (by simp [hr.rewalk, hr.state, hr.wait]), h]

theorem rewalk_error {e : QErr} (h : rebuild s q = .error e) : runMove s (.rewalk j) = .next (qError s q .tree e) := by
  refine runMove_rewalk hrun ?_
  rw [rewalkQJob, hq, Option.bind_some, if_neg (by simp [hr.rewalk, hr.state, hr.wait]), h]

end

/-- No read of the block at an address, or its answer, is on its way for a job. -/
theorem blockSent_false {j va : Nat} (h : ∀ p ∈ s.pairs, ∀ x ∈ p.out ++ p.store.map (·.pkt), ∀ k,
    ((∃ op key, x.body = .jrd j k op key) ∨ ∃ r, x.body = .jrdr j k r) → k / 64 ≠ va / 64) : blockSent s j va = false := by
  rw [blockSent, List.any_eq_false]
  intro p hp
  rw [List.any_eq_true]
  rintro ⟨x, hx, hb⟩
  split at hb
  next j' k op key hbody =>
    obtain ⟨rfl, hk⟩ : j' = j ∧ k / 64 = va / 64 := by simpa using hb
    exact h p hp x hx k (.inl ⟨op, key, hbody⟩) hk
  next j' k r hbody =>
    obtain ⟨rfl, hk⟩ : j' = j ∧ k / 64 = va / 64 := by simpa using hb
    exact h p hp x hx k (.inr ⟨r, hbody⟩) hk
  next => exact nomatch hb

section
variable (hc : getCopy s j = none) (hq : getQJob s j = some q) (hgo : q.GoesOn s)
include hc hq hgo

theorem sendElement_prefetch (k : Nat) : sendElement s j k false = prefetch s q k := by
  rw [sendElement, hc, hq]
  dsimp only
  rw [hgo.moves]
  rfl

theorem sendElement_stage (k : Nat) : sendElement s j k true = stageBlock s q k := by
  rw [sendElement, hc, hq]
  dsimp only
  rw [hgo.moves]
  rfl

end

theorem prefetch_ok {va pa key : Nat} (hsent : blockSent s q.id va = false) (hcache : findBy (·.1) (va / 64 * 64) q.cache = none)
    (ht : translate s (clusterOf q.core) q.ctx (BitVec.ofNat 64 va) .read = .ok pa key) :
    prefetch s q va = some (enqueue s (jobNode q.core false) (homeOf pa)
      (newAccess 0 q.ctx (BitVec.ofNat 64 va) (.jrd q.id va (.readBlock (pa / 64 * 64)) key))) := by
  rw [prefetch, hsent, hcache, if_neg (by decide), ht]

/-- Write k of a quadtree job stands in the queue to the home of its address. -/
def QJob.Writes (q : QJob) (s : State) (k : Nat) (va : Word) (op : Nat → MemOp) (t : State) : Prop :=
  ∀ pa key, translate s (clusterOf q.core) q.ctx va .write = .ok pa key →
    t = enqueue s (jobNode q.core false) (homeOf pa) (newAccess (op pa).flits q.ctx va (.jwr q.id k 0 (op pa) key))

theorem QJob.Writes.send {k : Nat} {va : Word} {op : Nat → MemOp} {t : State} {pa key : Nat} (h : q.Writes s k va op t)
    (ht : translate s (clusterOf q.core) q.ctx va .write = .ok pa key) : qSend s q k va op = .ok t := by
  rw [qSend, ht, h pa key ht]

theorem filter_of_find? {α : Type} {p : α → Bool} {a : α} {l : List α} (h : l.find? p = some a) : ∃ r, l.filter p = a :: r := by
  rw [← List.head?_filter] at h
  exact List.head?_eq_some_iff.1 h

theorem stageBlock_ok {path : List Nat} {base k : Nat} {l : QLeaf} {bs : List QOut} {b : QOut} {t : State} {pa key : Nat}
    (hrun : q.leaves.find? (fun l => leafRuns s q l.1) = some (path, base)) (hout : leafOut s q path base = .ok (l, bs))
    (hb : bs.find? (fun b => dataKey b.va == k) = some b) (hstaged : (path, k) ∉ q.staged)
    (ht : translate s (clusterOf q.core) q.ctx b.va .write = .ok pa key)
    (hw : q.Writes s k b.va (fun pa => .writePart pa b.val b.mask b.desc) t) :
    stageBlock s q k = some (setQJob t { q with staged := q.staged ++ [(path, k)] }) := by
  obtain ⟨r, hr⟩ := filter_of_find? hrun
  have hnot : q.staged.contains (path, k) = false := by simpa using hstaged
  simp only [stageBlock, hr, List.map_cons, List.findSome?_cons, hout, hb, Option.map_some, hnot, hw.send ht, Bool.false_eq_true, if_false]

/-! ### Records (R213, R227) -/

theorem sendRecord_ok {k r : Nat} {va : Word} {t : State} {pa key : Nat}
    (h : q.Writes s k va (fun pa => .write pa (BitVec.ofNat 512 r) (byteMask 32)) t)
    (ht : translate s (clusterOf q.core) q.ctx va .write = .ok pa key) : sendRecord s q k va r = .ok t := h.send ht

theorem isSome_groupAt (q : QJob) (path : List Nat) : (q.groupAt path).isSome = q.groups.any fun g => g.1 == path := by
  rw [QJob.groupAt, Option.isSome_map, Bool.eq_iff_iff, List.find?_isSome, List.any_eq_true]

theorem landRecord_commits {path : List Nat} {k : Nat} (hq : getQJob s j = some q)
    (hr : q.recording.find? (fun x => x.2 == k) = some (path, k)) : getQJob (landRecord s j k) j = some { q with
      recording := q.recording.filter fun x => x.1 != path
      committed := q.committed ++ [path]
      nleaves := if (q.groupAt path).isSome then q.nleaves else q.nleaves + 1 } := by
  have hid : q.id = j := findBy_key hq
  have hleaf : (if (!q.groups.any fun g => g.1 == path) = true then q.nleaves + 1 else q.nleaves)
      = if (q.groupAt path).isSome then q.nleaves else q.nleaves + 1 := by
    rw [isSome_groupAt]
    cases q.groups.any fun g => g.1 == path <;> rfl
  subst hid
  simp only [landRecord, hq, hr, hleaf]
  exact getQJob_setQJob_self s _

/-! ### The record of an INTERNAL node (R227) -/

theorem ready_iff (q : QJob) (path : List Nat) : q.ready path = true ↔ (q.groupAt path).isSome = true ∧ q.taken path = false
    ∧ (∀ n < 4, path ++ [n] ∈ q.committed) ∧ ∀ va, recordVa q path = some va → ∀ a ∈ q.blocked, walkGranule a ≠ walkGranule va := by
  have hpage : (!(recordVa q path).any (pageIn q.blocked)) = true
      ↔ ∀ va, recordVa q path = some va → ∀ a ∈ q.blocked, walkGranule a ≠ walkGranule va := by
    cases recordVa q path <;> simp [pageIn]
  simp only [QJob.ready, Bool.and_eq_true, hpage, and_assoc, Bool.not_eq_true', List.all_eq_true, List.mem_range, List.contains_iff_mem]

theorem commitNode_next {path : List Nat} {g : Nat} {r : QRoot} {va : Word} {pa key : Nat} {t : State} (hrun : clocksRun s = true)
    (hq : getQJob s j = some q) (hgo : q.GoesOn s) (hready : q.ready path = true) (hg : q.groupAt path = some g)
    (hroot : qRoot q = .ok r) (hva : recordVa q path = some va) (ht : translate s (clusterOf q.core) q.ctx va .write = .ok pa key)
    (hw : q.Writes s (recordKey va) va (fun pa => .write pa (BitVec.ofNat 512 (resultRecord q 7 (r.lg - path.length)
      (recordBounds r path).1 (recordBounds r path).2 0x3F800000 0 true g 0)) (byteMask 32)) t) :
    runMove s (.commitNode j path) = .next (setQJob t { q with recording := q.recording ++ [(path, recordKey va)] }) := by
  have hsend : sendNode s q path = .ok (setQJob t { q with recording := q.recording ++ [(path, recordKey va)] }) := by
    simp only [sendNode, hroot, ok_bind, hva, hg, sendRecord_ok hw ht]
  have he : commitNode s j path = some (setQJob t { q with recording := q.recording ++ [(path, recordKey va)] }) := by
    rw [commitNode, hq, Option.bind_some, hgo.moves, hready, hsend]
    rfl
  rw [show runMove s (.commitNode j path) = moveTo "COMMIT_NODE" s (commitNode s j path) from rfl, he]
  exact moveTo_next hrun

end Sys2Proof.Machine
end

section
/-! SUPPORT. The commit of a leaf (09 R226, R227, R234), for the statement on job events. -/
namespace Sys2Proof.Machine

variable {s : State} {j : Nat} {q : QJob} {path : List Nat} {base : Nat}

/-- The tasks of a leaf run, and its job may commit. -/
def QJob.LeafRuns (q : QJob) (s : State) (path : List Nat) : Prop :=
  leafWaits s q path = false ∧ leafRuns s q path = true ∧ q.state = 1 ∧ q.wait = none

/-- No task of the leaf waits in an MSWAP, and with ORD = 1 the leaf is the next. -/
def QJob.LeafTurn (q : QJob) (s : State) (path : List Nat) (base : Nat) : Prop :=
  leafSwaps s q path = false ∧ (q.card.ord = true → q.leaves.head? = some (path, base) ∧ q.recording = [])

/-- A block of the leaf's data has performed. -/
def QJob.Stands (q : QJob) (s : State) (path : List Nat) (b : QOut) : Prop :=
  (path, 4 * b.va.toNat) ∈ q.staged ∧ elementSent s q.id (4 * b.va.toNat) true = false

theorem leafBusy_iff : (leafWaits s q path || !leafRuns s q path || q.state != 1 || q.wait.isSome) = true ↔ ¬q.LeafRuns s path := by
  rw [QJob.LeafRuns]
  cases leafWaits s q path <;> cases leafRuns s q path <;> cases q.wait <;> simp

theorem leafEarly_iff : (leafSwaps s q path || (q.card.ord && (q.leaves.head? != some (path, base) || !q.recording.isEmpty))) = true
    ↔ ¬q.LeafTurn s path base := by
  rw [QJob.LeafTurn]
  cases leafSwaps s q path <;> cases q.card.ord <;> simp [imp_iff_not_or]

theorem stands_iff {b : QOut} : (q.staged.contains (path, dataKey b.va) && !elementSent s q.id (dataKey b.va) true) = true
    ↔ q.Stands s path b := by
  simp only [QJob.Stands, Bool.and_eq_true, List.contains_iff_mem, Bool.not_eq_true', dataKey]

/-- The state that the commit of a leaf leaves, or what it meets. -/
def QJob.afterCommit (q : QJob) (s : State) (path : List Nat) (base : Nat) (l : QLeaf) : State :=
  match commitLeaf s q path base l with
  | .ok t => t
  | .error e => leafError s q path e

theorem afterCommit_ok {l : QLeaf} {t : State} (ht : commitLeaf s q path base l = .ok t) : q.afterCommit s path base l = t := by
  unfold QJob.afterCommit
  rw [ht]

section
variable (hq : getQJob s q.id = some q) (hleaf : q.leafAt path = some base)
include hq hleaf

theorem leafCommit_busy (h : ¬q.LeafRuns s path) : exec (.evLeafCommit q.id path) s = notPermitted "LEAF_COMMIT" := by
  show execEvLeafCommit q.id path s = _
  rw [execEvLeafCommit, hq]
  dsimp only
  rw [hleaf]
  dsimp only
  rw [if_pos (leafBusy_iff.2 h)]

variable (hruns : q.LeafRuns s path)
include hruns

theorem leafCommit_cancelled (hc : q.cancelled = true) : exec (.evLeafCommit q.id path) s = guarded "LEAF_COMMIT" s true
    (setQJob (dropTasks s q (some path)) { q with leaves := q.leaves.filter fun x => x.1 != path }) := by
  show execEvLeafCommit q.id path s = _
  rw [execEvLeafCommit, hq]
  dsimp only
  rw [hleaf]
  dsimp only
  rw [if_neg (mt leafBusy_iff.1 (not_not.2 hruns)), if_pos hc]

variable (hc : q.cancelled = false)
include hc

theorem leafCommit_early (h : ¬q.LeafTurn s path base) : exec (.evLeafCommit q.id path) s = notPermitted "LEAF_COMMIT" := by
  show execEvLeafCommit q.id path s = _
  rw [execEvLeafCommit, hq]
  dsimp only
  rw [hleaf]
  dsimp only
  rw [if_neg (mt leafBusy_iff.1 (not_not.2 hruns)), if_neg (by simp [hc]), if_pos (leafEarly_iff.2 h)]

/-- Whether every block of a leaf's data has performed. -/
def QJob.allStand (q : QJob) (s : State) (path : List Nat) (bs : List QOut) : Bool :=
  bs.all fun b => q.staged.contains (path, dataKey b.va) && !elementSent s q.id (dataKey b.va) true

theorem leafCommit_ready (hturn : q.LeafTurn s path base) {l : QLeaf} {bs : List QOut} (hout : leafOut s q path base = .ok (l, bs)) :
    exec (.evLeafCommit q.id path) s = guarded "LEAF_COMMIT" s (q.allStand s path bs) (q.afterCommit s path base l) := by
  obtain ⟨r, cl, hr, hcl, -⟩ := leafOut_eq_ok hout
  have hlist : leafList q s path = .ok cl := by simp only [leafList, hr, ok_bind, hcl]
  show execEvLeafCommit q.id path s = _
  rw [execEvLeafCommit, hq]
  dsimp only
  rw [hleaf]
  dsimp only
  rw [if_neg (mt leafBusy_iff.1 (not_not.2 hruns)), if_neg (by simp [hc]), if_neg (mt leafEarly_iff.1 (not_not.2 hturn)), hlist]
  dsimp only
  rw [hout]
  rfl

theorem leafCommit_waits (hturn : q.LeafTurn s path base) {l : QLeaf} {bs : List QOut} (hout : leafOut s q path base = .ok (l, bs))
    (h : ∃ b ∈ bs, ¬q.Stands s path b) : exec (.evLeafCommit q.id path) s = notPermitted "LEAF_COMMIT" := by
  have hall : q.allStand s path bs = false := by
    obtain ⟨b, hb, hs⟩ := h
    rw [← Bool.not_eq_true, QJob.allStand, List.all_eq_true]
    exact fun hall => hs (stands_iff.1 (hall b hb))
  have he := leafCommit_ready hq hleaf hruns hc hturn hout
  rw [hall, guarded, Bool.and_false, if_neg Bool.false_ne_true] at he
  exact he

theorem leafCommit_commits (hturn : q.LeafTurn s path base) {l : QLeaf} {bs : List QOut} (hout : leafOut s q path base = .ok (l, bs))
    (hrun : clocksRun s = true) (h : ∀ b ∈ bs, q.Stands s path b) {t : State} (ht : commitLeaf s q path base l = .ok t) :
    exec (.evLeafCommit q.id path) s = .next t := by
  have hall : q.allStand s path bs = true := by
    rw [QJob.allStand, List.all_eq_true]
    exact fun b hb => stands_iff.2 (h b hb)
  exact (leafCommit_ready hq hleaf hruns hc hturn hout).trans (guarded_next.2 ⟨⟨hrun, hall⟩, afterCommit_ok ht⟩)

end

/-- The state in which a leaf's record stands in the job's queue and its tasks have ended. -/
def QJob.leafRecorded (q : QJob) (t : State) (path : List Nat) (va : Word) : State :=
  setQJob (dropTasks t q (some path)) { q with
    recording := q.recording ++ [(path, 4 * va.toNat + 1)]
    leaves := q.leaves.filter fun x => x.1 != path
    staged := q.staged.filter fun x => x.1 != path }

theorem commitLeaf_ok {l : QLeaf} {r : QRoot} {va : Word} {pa key : Nat} {t : State} (hr : qRoot q = .ok r) (hva : recordVa q path = some va)
    (ht : translate s (clusterOf q.core) q.ctx va .write = .ok pa key)
    (hw : q.Writes s (4 * va.toNat + 1) va (fun pa => .write pa (BitVec.ofNat 512 (leafRecord q r path base l)) (byteMask 32)) t) :
    commitLeaf s q path base l = .ok (q.leafRecorded t path va) := by
  simp only [commitLeaf, hr, ok_bind, hva, recordKey, sendRecord_ok hw ht]
  rfl

theorem status_leafRecorded (q : QJob) (t : State) (path : List Nat) (va : Word) (c : Nat) (i : Fin 4) :
    (getSlot (q.leafRecorded t path va) c i).status ≠ .leaf q.id path := status_dropTasks t q path c i

end Sys2Proof.Machine
end

section
/-! SUPPORT. The statement on job events (07 R163 to R171, 09 R213, R219 to R231, R234, 10 R252, 13 R311, R329). -/
namespace Sys2Proof.Machine

/-- Settles O51: the events of copy jobs, the accesses at their homes, the events of quadtree jobs, and the views, algebra and records of
a quadtree job's result, each by the lemmas on it above. -/
theorem jobEvents : Obligations.JobEvents := by
  unfold Obligations.JobEvents
  refine ⟨?events, ?views⟩
  case events =>
    intro s j run signalled sends
    refine ⟨?copy, ?packets, ?quad⟩
    case copy =>
      intro x hx held pages status written asks waits fatal
      have hid : x.id = j := findBy_key hx
      subst hid
      refine ⟨?start, ?complete, ?fails, ?send, ?land⟩
      case start => exact occurs_of (exec_jobStart_copy hx) (by simp [held, and_assoc]) fun _ => rfl
      case complete =>
        refine fun hf => occurs_of (exec_jobComplete_copy hx hf) (by simp [held]) fun _ => ⟨fun pa key h => ?_, finishCopy_miss, finishCopy_bad⟩
        obtain ⟨hgone, hcard, htag⟩ := finishCopy_done h
        exact ⟨hgone, doneAtEnd_eq x ▸ hcard, htag⟩
      case fails =>
        exact fun va origin hf => occurs_of (exec_jobComplete_failed hx hf) (by simp [held]) fun _ => copyFault_fatal s x va origin
      case send =>
        intro hrun hheld hst hbl hf k
        have hgo : x.GoesOn := ⟨hst, hbl, hf⟩
        have hread (t) (h : copyRead s x k = some t) : sends k false t := jobSend_next hrun ((sendElement_copyRead hx hheld k).trans h)
        have hwrite (t) (h : copyWrite s x k = some t) : sends k true t := jobSend_next hrun ((sendElement_copyWrite hx hheld k).trans h)
        refine ⟨fun hs hkind hk hval hw => ?_, fun hs hkind hk he pa key h => ?_, fun hs hk hw hix v d hval => ?_⟩
        · have he := copyRead_element hgo hs hkind hk hval hw
          exact ⟨fun pa key h hd => hread _ (by rw [he, withJobPa_ok h, if_pos hd]), access_stops he hread⟩
        · exact hread _ ((copyRead_index hgo hs hkind hk he).trans (withJobPa_ok h))
        · have he := copyWrite_element hgo hs hk hw hix hval
          exact ⟨fun pa key h hd => hwrite _ (he.trans ((withJobPa_ok h).trans (if_pos hd))), access_stops he hwrite⟩
      case land =>
        intro k r hf hr
        refine ⟨fun hkind => ?_, fun hkind hk => ?_, ?_⟩
        · rw [landRead_element hx hf hr hkind]
          exact ⟨getCopy_setCopy_self s { x with vals := x.vals ++ [(k, r.value, r.desc)] }, rfl⟩
        · rw [landRead_index hx hf hr hkind hk, sintOf_vec]
          exact getCopy_setCopy_self s { x with index := putBy (·.1) (k, (r.value.setWidth 32).toInt) x.index }
        · obtain ⟨y, hy, hsame, hwritten⟩ := landWrite_written (k := k) hx hr
          refine ⟨y, hy, (hwritten k).2 (.inr rfl), fun n hn => (hwritten n).2 (.inl hn), fun n hne hn => ?_, hsame.index, hsame.card⟩
          rw [← Bool.not_eq_true, hwritten, not_or, Bool.not_eq_true]
          exact ⟨hn, hne⟩
    case packets =>
      intro p x k rop key pa v y d plain z does commits
      exact ⟨fun n h => PlainAt.answers_read h p x j k n, fun h => PlainAt.answers_writeBlock h p x j k v d,
        fun h => PlainAt.answers_write h p x j k v (by decide), fun h1 _ hy h => PlainAt.answers_reduce h p x j k v h1 rfl hy⟩
    case quad =>
      intro q hc hq held node pages moves writes recorded
      have hid : q.id = j := findBy_key hq
      subst hid
      refine ⟨?start, ?wakes, ?complete, ?rewalks, ?fetches, ?stages, ?leaves, ?nodes, ?lands, ?suspends⟩
      case start =>
        exact fun hp => occurs_of (exec_jobStart_quad hc hq hp) (by simp [held, and_assoc]) fun _ => rfl
      case wakes =>
        refine fun h3 h4 => occurs_of (exec_jobStart_preempted hc hq h3 h4) (by simp [and_assoc]) fun _ card u r hcard hr => ?_
        exact ⟨wakeQJob_ok hcard hr, resumeQJob_job hr⟩
      case complete =>
        refine occurs_of (exec_jobComplete_quad hc hq) (by simp [held, and_assoc]) fun _ =>
          ⟨fun h u v w hu hv hw => finishQJob_complete h hu hv hw, fun h u v hu hv => finishQJob_cancelled h hu hv⟩
      case rewalks =>
        exact fun hrun hr h1 hw => ⟨fun r h => rewalk_ok hrun hq ⟨hr, h1, hw⟩ h, fun va h => rewalk_error hrun hq ⟨hr, h1, hw⟩ h,
          fun va h => rewalk_error hrun hq ⟨hr, h1, hw⟩ h⟩
      case fetches =>
        intro va pa key ⟨hrun, hst, h1, hcn, hw, hrw, hh⟩ hcache hsent ht
        refine jobSend_next hrun ((sendElement_prefetch hc hq ⟨hst, h1, hcn, hw, hrw, hh⟩ va).trans ?_)
        exact prefetch_ok (blockSent_false hsent) hcache ht
      case stages =>
        intro path base l bs b k ⟨hrun, hst, h1, hcn, hw, hrw, hh⟩ hruns hout hb hnot t pa key ht hwr
        refine jobSend_next hrun ((sendElement_stage hc hq ⟨hst, h1, hcn, hw, hrw, hh⟩ k).trans ?_)
        exact stageBlock_ok hruns hout hb hnot ht hwr
      case leaves =>
        intro path base hleaf runs turn
        refine ⟨leafCommit_busy hq hleaf, fun hr hrun hcan => ?_, fun hr hcan => leafCommit_early hq hleaf hr hcan,
          fun hr hcan hturn l bs hout => ⟨leafCommit_waits hq hleaf hr hcan hturn hout, ?_⟩⟩
        · have he := leafCommit_cancelled hq hleaf hr hcan
          exact ⟨_, he.trans (guarded_next.2 ⟨⟨hrun, rfl⟩, rfl⟩), rfl, getQJob_setQJob_self _ _⟩
        · intro hrun hall r va pa key t hroot hva ht hw
          exact ⟨_, leafCommit_commits hq hleaf hr hcan hturn hout hrun hall (commitLeaf_ok hroot hva ht hw),
            status_leafRecorded q t path va, rfl⟩
      case nodes =>
        intro path g r va pa key t ⟨hrun, hst, h1, hcn, hw, hrw, hh⟩ hg htaken hchildren hpages hroot hva ht hwr
        have hready : q.ready path = true := (ready_iff q path).2 ⟨by rw [hg]; rfl, htaken, hchildren, fun va' hva' => by
          cases hva.symm.trans hva'
          exact hpages⟩
        exact commitNode_next hrun hq ⟨hst, h1, hcn, hw, hrw, hh⟩ hready hg hroot hva ht hwr
      case lands => exact fun path k hr => landRecord_commits hq hr
      case suspends =>
        intro cause fs q'
        have hcause : q.causeIn s = cause := causeIn_eq q s
        have he := exec_jobSuspend hq
        rw [hcause] at he
        exact occurs_of he (by simp [and_assoc]) fun _ u v hu hv => suspendQJob_leaves hu hv
  case views =>
    intro s q bound rowsOf colsOf root add mul dot scale col entry kept one
    refine ⟨?root, ?quadrant, ?fill, ⟨fun _ => rfl, ?listAt, fun _ => rfl, ?subList, ?subTerm, ?subProd⟩, ?products, ?terms, ?types, ?sums,
      ?elements, ?leaf, ?leafOut, ?block, ?record, ?leafRecord, ?bump⟩
    case root =>
      intro r hr
      have roots : ∀ {x tr v}, QView.Root v x tr → root x tr v := fun h => ⟨h.t, h.lg, h.slg, h.tr, h.rows, h.cols, h.al, h.fmt,
        h.p1, h.p2, h.rank, h.nm, h.row, h.col, h.r0, h.c0⟩
      obtain ⟨a, b, c, ha, hb, hlg, hf, hcin, rfl⟩ := qRoot_views hr
      refine ⟨ha.lg, hlg.trans hb.lg, ha.rows, hb.cols, ?_, fun h => ?_, a, b, identView a.lg, c, roots ha, roots hb,
        fun h => roots (hcin h).1, rfl, rfl, rfl, rfl⟩
      · rw [QJob.Fits, ha.cols, ha.rows, hb.cols, hb.rows] at hf
        exact hf
      · obtain ⟨hc, hl, hrows, hcols⟩ := hcin h
        exact ⟨hl.symm.trans hc.lg, hrows.symm.trans hc.rows, hcols.symm.trans hc.cols⟩
    case quadrant =>
      intro v w qr qc hr hc hlg h
      have hl := quadrant_lg hlg h
      obtain ⟨h1, h2, h3, h4, h5⟩ := quadrant_place hlg h
      refine ⟨hl, h1, h2, h3, h4, h5, ?_, ?_, ?_, ?_, ?_⟩
      · intro ht
        obtain ⟨x, hx, hv, _⟩ := quadrant_internal ht h
        have ho := QView.Of.ofViewOf hv
        exact ⟨x, hx, ho.t, ho.lg, ho.al⟩
      · intro ht
        cases (quadrant_leaf ht).symm.trans h
        exact ⟨rfl, by simp [QView.inner]⟩
      · intro ht he d hd
        cases (quadrant_leaf (by omega)).symm.trans h
        exact qDiag_inner hlg hr hd
      · intro ht m hm
        cases (quadrant_leaf (by omega)).symm.trans h
        exact qDense_inner hlg hr hc hm
      · intro ht x hx
        cases (quadrant_leaf (by omega)).symm.trans h
        exact qLow_inner hlg hr hc hx
    case fill =>
      exact fun v m i k h hi hk hout => qDense_fill h hi hk hout
    case listAt =>
      exact fun cl n p l h => listAt_cons h
    case subList =>
      exact fun n c cl l h => subList_cons h
    case subTerm =>
      exact fun qr qc v l h => subContrib_term h
    case subProd =>
      exact fun qr qc g a b l h => subContrib_prod h
    case products =>
      intro ac a b g P is
      exact ⟨prodValue_ident_ident, fun d => ⟨fun hd ha hb => prodValue_ident_diag ha hb hd, fun hd ha hb => prodValue_diag_ident ha hb hd⟩,
        fun d f hd hf ha hb => prodValue_diag_diag ha hb hd hf,
        fun u v => ⟨fun hu ha hb => prodValue_ident_low ha hb hu, fun hu ha hb => prodValue_low_ident ha hb hu⟩,
        fun d u v hd hu ha hb => prodValue_diag_low ha hb hd hu, fun d u v hu hd ha hb => prodValue_low_diag ha hb hu hd,
        fun x => ⟨fun hx ha hb => prodValue_ident_dense ha hb hx, fun hx ha hb => prodValue_dense_ident ha hb hx⟩,
        fun d x hd hx ha hb => prodValue_diag_dense ha hb hd hx, fun d x hx hd ha hb => prodValue_dense_diag ha hb hx hd,
        fun u v u' v' hu hu' ha hb => prodValue_low_low ha hb hu hu', fun u v x hu hx ha hb => prodValue_low_dense ha hb hu hx,
        fun x u v hx hu ha hb => prodValue_dense_low ha hb hx hu, fun x y hx hy ha hb => prodValue_dense_dense ha hb hx hy⟩
    case terms =>
      exact fun v => ⟨termValue_ident, fun d => termValue_diag, fun u w => termValue_low, fun x => termValue_dense⟩
    case types =>
      intro mr cl c capped r p z
      have hz : z = capRank mr (sumType r p) := leafType_append mr cl c
      rw [hz]
      exact ⟨rfl, fun hp => by rw [sumType_of_zero_right hp]; rfl, fun hr hp => by rw [sumType_of_zero_left hr hp]; rfl,
        fun hr hp => by rw [sumType_ident hr hp]; rfl, fun hr hr2 hp hp2 h => by rw [sumType_diag hr hr2 hp hp2 h]; rfl,
        fun hr hp => by rw [sumType_low hr hp]; rfl, fun hx hn h => by rw [sumType_dense hx hn h]; rfl,
        fun v hc => congrArg contribType hc, fun g a b hc _ _ => (congrArg contribType hc).trans contribType_prod⟩
    case sums =>
      exact fun d a b x y u v u' v' p => ⟨rfl, foldValue_zero_right d p, rfl, foldValue_diag_diag d, foldValue_ident_diag d a,
        foldValue_diag_ident d b, foldValue_low_low d⟩
    case elements =>
      intro i k acc al d u v plus mac
      have hp : plus = fun acc x => acc.add x := by
        funext acc x
        cases acc <;> rfl
      have hm : mac = fun acc p => acc.mac p.1 p.2 := by
        funext acc p
        cases acc <;> rfl
      rw [hp, hm]
      exact ⟨rfl, rfl, rfl, rfl, rfl, rfl⟩
    case leaf =>
      intro r lg place cl vals n z f folded data element rows is
      have he : element = denseValue f vals := by
        funext i k
        rw [denseValue_eq]
        unfold QAcc.value
        rfl
      refine ⟨leafResult_zero, fun hv => ⟨fun h4 => ?_, fun h0 h4 => ?_⟩⟩
      · have h := leafResult_dense (r := r) (lg := lg) (place := place) h4 hv
        rw [← he] at h
        exact h
      · exact ⟨fun al hf => leafResult_folded h0 h4 hv hf, fun d hf => leafResult_folded h0 h4 hv hf,
          fun u v hf => leafResult_folded h0 h4 hv hf⟩
    case leafOut =>
      exact fun path base l bs h => leafOut_eq_ok h
    case block =>
      exact fun f gap xs old h1 h5 hl => outBlock_full gap old h1 h5 hl
    case record =>
      exact fun t lg rows cols al rank p1 p2 commit ht hf hlg hr hc ha hk h1 h2 =>
        recField_resultRecord commit ht hf hlg hr hc ha hk h1 h2
    case leafRecord =>
      exact fun r path base l => leafRecord_eq r path base l
    case bump =>
      exact fun next limit size align h => ⟨(align_spec next h).1, (align_spec next h).2.1, (align_spec next h).2.2, rfl⟩

end Sys2Proof.Machine
end
